-- ==== Sys2Proof/Word.lean ====
section
/-! DEFINITION. The words of the device: bytes, 64-bit registers (00_scope: every register is 64 bits wide), and the
widths of the numbers its commands carry. -/

namespace Sys2Proof

abbrev Byte := BitVec 8
/-- A register, a scalar register of a strand, a time stamp in ns. -/
abbrev Word := BitVec 64
/-- Device physical address (Table SCO-3). -/
abbrev Dpa := BitVec 44
/-- A 64-byte CXL line, byte 0 in the low bits. -/
abbrev Line := BitVec 512
/-- A status code of Table PRG-7. -/
abbrev Status := BitVec 8
abbrev RegionNo := BitVec 16
abbrev TenantNo := BitVec 12
abbrev SessionNo := BitVec 20
abbrev NodeId := BitVec 18
abbrev QpNo := BitVec 14
/-- A strand slot: engine in the high six bits, slot in the low six (R104). -/
abbrev SlotNo := BitVec 12

/-- The low bit as a truth value. -/
def bit (w : BitVec n) (i : Nat) : Bool := w.getLsbD i

/-- Bits [lsb + width − 1 : lsb] of a register as a number. -/
def bitsOf (w : Word) (lsb width : Nat) : Nat := w.toNat / 2 ^ lsb % 2 ^ width

/-- The register with bits [lsb + width − 1 : lsb] replaced by the low bits of `v`. -/
def setBits (w : Word) (lsb width v : Nat) : Word :=
  BitVec.ofNat 64
    (w.toNat % 2 ^ lsb + (v % 2 ^ width) * 2 ^ lsb + w.toNat / 2 ^ (lsb + width) * 2 ^ (lsb + width))

end Sys2Proof
end

