-- ==== Sys2Proof/Syntax.lean ====
section
/-! DEFINITION. The commands the block takes: one constructor of `Instr` per row of spec/opcode_table.json, with the
row's operands. A row that names an event of the device's own engines carries what the event brings from outside the
model (a measured value, a frame of the twin, which unit, page or strand it concerns). A strand instruction's row
carries the strand that issues it: the instruction word stands in that strand's program. -/

namespace Sys2Proof

/-- The host ports (03_host_ports). -/
inductive Port where
  | hp0 | hp1
  deriving DecidableEq, Repr

/-- HP1's registers sit 0x8_0000 above HP0's (R103). -/
def Port.regOffset : Port → Nat
  | .hp0 => 0
  | .hp1 => 0x80000

def Port.idx : Port → Nat
  | .hp0 => 0
  | .hp1 => 1

/-- The four fabric ports in FAB_PATH order (R217). -/
inductive FabPort where
  | fa0 | fb0 | fa1 | fb1
  deriving DecidableEq, Repr

def FabPort.idx : FabPort → Nat
  | .fa0 => 0
  | .fb0 => 1
  | .fa1 => 2
  | .fb1 => 3

/-- Parhelion ports: PH0 joins the twin, PH1 the ring (R220). -/
inductive PhPort where
  | ph0 | ph1
  deriving DecidableEq, Repr

/-- What a frame between devices travels over: a Parhelion port, or a twin session of the fabric (R225, R242). -/
inductive LinkChan where
  | ph0 | ph1 | fallback
  deriving DecidableEq, Repr

/-- A port's unit in CAL. -/
def PhPort.idx : PhPort → Nat
  | .ph0 => 0
  | .ph1 => 1

/-- The channel a port is. -/
def PhPort.chan : PhPort → LinkChan
  | .ph0 => .ph0
  | .ph1 => .ph1

/-- The islands in the order of GEN_ISLAND_STATE (Table ARC-1, R37). -/
inductive Island where
  | aon | ctl | pe | hst | fab | phl | pst | dst | nc | tir | cip | mem | cal | cfl | contrail
  deriving DecidableEq, Repr

def Island.code : Island → Nat
  | .aon => 0 | .ctl => 1 | .pe => 2 | .hst => 3 | .fab => 4 | .phl => 5 | .pst => 6 | .dst => 7
  | .nc => 8 | .tir => 9 | .cip => 10 | .mem => 11 | .cal => 12 | .cfl => 13 | .contrail => 14

/-- Durability classes (Table DUR-1). -/
inductive Class where
  | d0 | d1 | d2 | d3
  deriving DecidableEq, Repr

def Class.code : Class → Nat
  | .d0 => 0 | .d1 => 1 | .d2 => 2 | .d3 => 3

def Class.ofCode (n : Nat) : Class :=
  match n % 4 with
  | 0 => .d0
  | 1 => .d1
  | 2 => .d2
  | _ => .d3

/-- The paths into the register space (Table REG-2). -/
inductive Path where
  | ctl | mctp | bar0Hp0 | bar0Hp1 | jtag
  deriving DecidableEq, Repr

def Path.code : Path → Nat
  | .ctl => 0 | .mctp => 1 | .bar0Hp0 => 2 | .bar0Hp1 => 3 | .jtag => 4

/-- How the parity of a crossing item's one or two copies fared (R17). -/
inductive Parity where
  | good | resentGood | resentBad
  deriving DecidableEq, Repr

/-- Both copies of the item failed their check. -/
def Parity.isBad : Parity → Bool
  | .resentBad => true
  | _ => false

/-- An AFT2 packet between its IP and UDP headers and its tag (R180, R181): the peer's address (source when received,
destination when sent), the seven header words, the payload in clear, and whether its GCM tag verifies. -/
structure Packet where
  addr : BitVec 128
  w0 : BitVec 64
  w1 : BitVec 64
  w2 : BitVec 64
  w3 : BitVec 64
  w4 : BitVec 64
  w5 : BitVec 64
  w6 : BitVec 64
  payload : List Byte
  tagOk : Bool
  deriving DecidableEq, Repr

/-- An entry of a session's KEY_RING (Table FAB-5); RIGHTS as a handle's: bit 0 R, 1 W, 2 ATOM, 3 APPEND. -/
structure RingKey where
  region : BitVec 16
  key : BitVec 32
  offset : BitVec 44
  len : BitVec 44
  rights : BitVec 4
  expiry : BitVec 32
  deriving DecidableEq, Repr

/-- SESSION_CREATE parameters (Table FAB-5). -/
structure SessionParams where
  session : BitVec 20
  tenant : BitVec 12
  peerNode : BitVec 18
  peerSession : BitVec 24
  addrA : BitVec 128
  addrB : BitVec 128
  pair : BitVec 8
  relaxed : Bool
  host : Bool
  probe : Bool
  entropy : BitVec 16
  ring : List RingKey
  deriving DecidableEq, Repr

/-- A mirror frame (Table TWN-3) without its type, which the row gives, and whether it came over a twin session. -/
structure MFrame where
  fallback : Bool
  cls : BitVec 2
  last : Bool
  region : BitVec 16
  msn : BitVec 32
  dpa : BitVec 44
  position : BitVec 48
  epoch : BitVec 16
  ref : BitVec 32
  aux : BitVec 32
  data : List Byte
  deriving DecidableEq, Repr

/-- What a LINK_ID carries (R225): last MSN sent and acknowledged in each direction, and the state of the last save. -/
structure LinkId where
  position : BitVec 3
  node : BitVec 18
  product : BitVec 16
  encrypt : Bool
  epoch : BitVec 32
  primary : Bool
  sent : BitVec 32
  acked : BitVec 32
  received : BitVec 32
  saveComplete : Bool
  imageKept : Bool
  deriving DecidableEq, Repr

/-- A page of NAND (Table CEI-4). -/
structure NandAddr where
  channel : BitVec 5
  ce : BitVec 3
  lun : BitVec 2
  block : BitVec 18
  page : BitVec 12
  deriving DecidableEq, Repr

/-- What the SPD of an RDIMM says (Table MEM-1): slot 0 or 1, GiB, rated speed (0 below 4,800, 1, 2, 3 as MEM_POP.SPEED),
and whether type and sideband are as required. -/
structure Dimm where
  channel : BitVec 4
  slot : BitVec 1
  gib : BitVec 9
  speed : BitVec 2
  typeOk : Bool
  /-- Its SPD hub with thermal sensor and its PMIC answer on I3C. -/
  sideOk : Bool
  deriving DecidableEq, Repr

/-- Work that CIP does in messages (Table CIP-2), and the operation of a strand's. -/
inductive CipWork where
  | packet | save | demandRestore | chainStep | restore | appendDigest | destage
  | strand (cmd op : BitVec 32)
  deriving DecidableEq, Repr

/-- Where a corrected error was met (R365, R366): a DDR5 line with its rank and device, a sector of near-cache data, or
other stacked DRAM or SRAM. -/
inductive CeSite where
  | ddr (line : BitVec 38) (rank : BitVec 2) (device : BitVec 4) (scrub : Bool)
  | nearCache (block : BitVec 32)
  | other
  deriving DecidableEq, Repr

/-- Where an uncorrectable error was met (R367, Table MEM-4). -/
inductive UeSite where
  | ddr (line : BitVec 38)
  | nearCache (line : BitVec 38)
  | tag (set : BitVec 19) (way : BitVec 4)
  | ingress (unit : Nat)
  | mapEntry (page : BitVec 30)
  | dirtyWord (index : BitVec 24)
  | sealState (region : BitVec 16)
  | programStore (proc : BitVec 12)
  | session (session : BitVec 20)
  | queuePair (qp : BitVec 14)
  | strand (k : BitVec 12)
  | spare (line : BitVec 38)
  deriving DecidableEq, Repr

/-- An eye of a trained unit (R410): lane, direction (0 read, 1 write), width in 1/64 UI, height in mV. -/
structure Eye where
  lane : BitVec 7
  dir : BitVec 1
  w : BitVec 8
  h : BitVec 10
  deriving DecidableEq, Repr

/-- What a training attempt brings (R407 to R413): whether it succeeded, the unit's final settings, die temperature and
identity, its eyes, the read offsets of a NAND channel's dies (die number, seven TLC and one SLC in 64 bits) and its dies whose
reference page no offset reads, and, where the failing lanes of a DDR5 channel belong to one x4 device per rank and subchannel,
those by 2 × rank + subchannel with the device. -/
structure TrainResult where
  ok : Bool
  settings : BitVec 64
  temp : BitVec 8
  ident : BitVec 64
  eyes : List Eye
  offsets : List (BitVec 5 × BitVec 64)
  deadDies : List (BitVec 5)
  oneDevice : Option (List (BitVec 3 × BitVec 4))
  deriving DecidableEq, Repr

/-- An HDM decoder as the host commits it (R78, Table HST-1): the LD it belongs to, the host range, the first device address,
interleave ways (1, 2, 4, 8 or 16) and granularity, and this device's place among the ways. -/
structure Hdm where
  ld : BitVec 4
  base : BitVec 52
  size : BitVec 52
  dpa : BitVec 44
  ways : BitVec 5
  gran : BitVec 15
  index : BitVec 4
  deriving DecidableEq, Repr

/-- A pin level, or edges within the static time. -/
inductive Level where
  | low | high
  deriving DecidableEq, Repr

/-- The blocks of Table REG-1, in window order. -/
inductive Block where
  | gen | seq | lps | mod | pst | phl | dst | hst | fab | pe | nc | tir | cip | mem | cal | cfl | contrail | pmu | dbg | svc
  deriving DecidableEq, Repr

def Block.idx : Block → Nat
  | .gen => 0 | .seq => 1 | .lps => 2 | .mod => 3 | .pst => 4 | .phl => 5 | .dst => 6 | .hst => 7 | .fab => 8
  | .pe => 9 | .nc => 10 | .tir => 11 | .cip => 12 | .mem => 13 | .cal => 14 | .cfl => 15 | .contrail => 16 | .pmu => 17
  | .dbg => 18 | .svc => 19

/-- The commands: one constructor per row of the opcode table. -/
inductive Instr where
  -- Supervision, crossings, ingress and host ports
  /-- The standby rail has been in range for 10 ms (R381). -/
  | aonResetRelease
  /-- The 1 µs resynchronisation of an island's time base (R15). -/
  | timeBaseResync (i : Island)
  /-- The oldest item of crossing `x` in one direction (from the first-named island of Table ARC-2, or to it); `i`
  names the sender on crossing 19, and `brings` the line that a forwarded read returns on crossing 26 (R235). -/
  | crossingItemArrival (x : BitVec 5) (forward : Bool) (i : Island) (parity : Parity) (brings : List Byte)
  /-- PFAIL_N has been low for `cycles` AON cycles. -/
  | pfailNAccept (cycles : BitVec 16)
  /-- No REFCLK edge for 40 ns (R36). -/
  | refclkLoss
  /-- A PH1 ring frame for cascade position `dest` that has made `hops` hops (R35). -/
  | ringFrameForward (dest hops : BitVec 3) (frame : List Byte)
  /-- Placement of a committed ingress entry: a unit of this device, or the mirror copy with that MSN (R21). -/
  | placement (copy : Bool) (unit : Nat)
  /-- A commit unit reaches its commit point (R56). -/
  | commitUnit (unit : Nat)
  /-- The oldest waiting extent of a door is granted its reservation (R64). -/
  | extentReservation (extent : Nat)
  /-- A CXL write: host line address (bits [51:6]), 64 bytes, poison (R80, R84). -/
  | memWr (p : Port) (ld : BitVec 4) (line : BitVec 46) (data : Line) (poison : Bool)
  /-- A CXL partial write with its byte enables (R81). -/
  | memWrPtl (p : Port) (ld : BitVec 4) (line : BitVec 46) (data : Line) (be : BitVec 64) (poison : Bool)
  /-- The oldest held write of an LD leaves the hold (R85). -/
  | heldWriteRelease (p : Port) (ld : BitVec 4)
  /-- A CXL read of one line (R46); `tag` names it in the response. -/
  | memRd (p : Port) (ld : BitVec 4) (line : BitVec 46) (tag : BitVec 16)
  | memRdData (p : Port) (ld : BitVec 4) (line : BitVec 46) (tag : BitVec 16)
  | memInv (p : Port) (ld : BitVec 4) (line : BitVec 46) (tag : BitVec 16)
  /-- A request for an unsupported feature, on CXL.io or on CXL.mem (R78). -/
  | unsupportedRequest (p : Port) (io : Bool) (tag : BitVec 16)
  /-- Viral received (R78). -/
  | viral (p : Port)
  /-- A flit resent by link-level retry, with its sequence number (R89). -/
  | linkLevelRetry (p : Port) (seq : BitVec 10)
  | linkDown (p : Port)
  /-- A CXL link trains: lanes (8 or 16), speed code of HST_PORT_STATUS, whether the partner is a switch with MLD ports
  (R79), and the HDM decoders the host then commits (R78, R91). -/
  | linkUp (p : Port) (wide : Bool) (speed : BitVec 3) (mldSwitch : Bool) (decoders : List Hdm)
  | headroomRefresh
  /-- A read of `len` bytes at `off` in the first 64 bytes of the fence window (R93). -/
  | fenceRead (p : Port) (ld : BitVec 4) (off : BitVec 6) (len : BitVec 7) (tag : BitVec 16)
  | fenceComplete (p : Port) (ld : BitVec 4)
  | fenceTimeout (p : Port) (ld : BitVec 4)
  | fenceStatusRead (p : Port) (ld : BitVec 4) (tag : BitVec 16)
  | fenceClear (p : Port) (ld : BitVec 4)
  /-- GPF phase 2 of a port begins, or, when one is in progress, completes (R99). -/
  | gpfFlush (p : Port)
  | gpfLate (p : Port)
  | hstPortEnable (p : Port) (on : Bool)
  -- Records, debug, JTAG and counters (17)
  /-- The oldest pending record of an island reaches REC (R473). -/
  | contrailRecord (i : Island)
  | flushMs
  /-- REC scans the flash area; `bad` are the numbers of records whose CRC fails (R476). -/
  | recScan (bad : List (BitVec 32))
  /-- A REC_RD_SEL write (R477). -/
  | recordRead (no : BitVec 32) (firstAt : Bool)
  /-- A DBG_AUTH_CMD write with OP 0x0001; operand and token stand in DBG_AUTH_ARG and DBG_AUTH_TAG (R478). -/
  | contrailClear (path : Path)
  | seqUnlatch (path : Path)
  /-- With the nonce, ciphertext and tag of the same MCTP request (R338). -/
  | rootProvision (path : Path) (nonce ciphertext tag : List Byte)
  | quarantineClear (path : Path)
  /-- With the 97-byte public key (R325). -/
  | planKey (path : Path) (key : List Byte)
  | debugUnlock (path : Path)
  /-- With the new key under AES-256-GCM: nonce, ciphertext, tag (R479). -/
  | adminSet (path : Path) (nonce ciphertext tag : List Byte)
  | nonceLife
  | unlockExpiry
  | lock
  | bypass
  | idcode
  | samplePreload
  | extest
  | clamp
  | highz
  /-- A 64-bit register access over JTAG (R491). -/
  | dbgreg (write : Bool) (offset : BitVec 25) (value : BitVec 64)
  | scandump
  | sramdump (addr : BitVec 27)
  /-- Counter `n` stands at 2^48 − 1 and its event occurs (R489). -/
  | counterWrap (n : BitVec 9)
  | clearAll
  -- Fabric (06)
  /-- AFT2 packets by type, on the port they arrive at (R191). -/
  | write (p : FabPort) (pkt : Packet)
  | append (p : FabPort) (pkt : Packet)
  /-- `far` are the bytes of the range, where they must be read at the twin (R235). -/
  | readReq (p : FabPort) (pkt : Packet) (far : List Byte)
  | readData (p : FabPort) (pkt : Packet)
  | atomic (p : FabPort) (pkt : Packet)
  | fence (p : FabPort) (pkt : Packet)
  | ack (p : FabPort) (pkt : Packet)
  | receipt (p : FabPort) (pkt : Packet)
  | creditReq (p : FabPort) (pkt : Packet)
  | submit (p : FabPort) (pkt : Packet)
  | probe (p : FabPort) (pkt : Packet)
  | open_ (p : FabPort) (pkt : Packet)
  | openAck (p : FabPort) (pkt : Packet)
  | close (p : FabPort) (pkt : Packet)
  /-- The PSN of a session is about to wrap (R183). -/
  | rekey (session : BitVec 20)
  | contextFetch (session : BitVec 20)
  | grantRound
  /-- The oldest grant of a session is past its expiry and SKEW_WINDOW (R206); for an extent not yet begun, its message. -/
  | grantExpiry (session : BitVec 20) (msg : Option (BitVec 32))
  | receiptInterval (session : BitVec 20)
  | retransmit (session : BitVec 20) (psn : BitVec 32)
  /-- SKEW_WINDOW has passed since the first copy of a PSN, or since a probe on a port (R216, R218). -/
  | skewWindowExpiry (session : BitVec 20) (psn : Option (BitVec 32)) (p : FabPort)
  | reasmTimeout (session : BitVec 20) (msg : BitVec 32)
  | msgLifetime (session : BitVec 20) (msg : BitVec 32)
  | msgLifetimeTimeout (session : BitVec 20) (msg : BitVec 32)
  | sessionDead (session : BitVec 20)
  | sessionReopen (session : BitVec 20)
  | pathWindow (p : FabPort)
  | probeInt (session : BitVec 20) (p : FabPort)
  | pathReturnTime (p : FabPort)
  | fabricLinkDown (p : FabPort)
  /-- Trained at a rate: 0 400G, 1 200G, 2 100G. -/
  | fabricLinkTrained (p : FabPort) (rate : BitVec 2)
  | fabPathOff (p : FabPort) (off : Bool)
  | return_ (p : FabPort)
  /-- An event message: its PTP sequence number. -/
  | ptpEventMessage (p : FabPort) (seq : BitVec 16)
  | ptpLock
  | sessionCreate (path : Path) (params : SessionParams)
  | sessionDestroy (path : Path) (session : BitVec 20)
  /-- FAB_KEY_CMD with the DATA registers as they stand (R194). -/
  | keyCreate
  | keyRevoke (index : BitVec 18)
  | keyRead (index : BitVec 18)
  /-- A frame dropped by the MAC, or at step 2 of Table FAB-8. -/
  | malformedFrame (p : FabPort) (atMac : Bool)
  | noValidCopy (p : FabPort)
  | pausePfcFrame (p : FabPort)
  /-- An ARP or neighbour-discovery request for this port's address (Table FAB-1). -/
  | neighbourDiscovery (p : FabPort) (asker : BitVec 128)
  -- Queues and strands (04)
  /-- A 64-bit access to a queue pair's BAR2 doorbell at byte offset 0: a write of a value, or a read (R113). -/
  | sqTail (p : Port) (ld : BitVec 4) (qp : BitVec 14) (value : Option (BitVec 64))
  /-- … at byte offset 8. -/
  | cqHead (p : Port) (ld : BitVec 4) (qp : BitVec 14) (value : Option (BitVec 64))
  /-- A write to PE_PQ_DBn. -/
  | privilegedDoorbell (path : Path) (n : BitVec 4) (value : BitVec 64)
  | commandFetch (qp : BitVec 14)
  /-- A command by its number, in order of fetching. -/
  | strandStart (cmd : BitVec 32)
  | commandDurable (cmd : BitVec 32)
  | completionPost (cmd : BitVec 32)
  /-- A strand by its slot. -/
  | waitLimitExpiry (k : BitVec 12)
  /-- A yielded strand by its spill entry. -/
  | strandResume (spill : BitVec 12)
  | strandAging (k : BitVec 12)
  /-- An outstanding operation moves on, or completes; `far` are bytes read from the twin or a lender. -/
  | instructionCompletion (cmd op : BitVec 32) (far : List Byte)
  -- Strand instructions (05): the strand in slot `k` issues the instruction at its pc
  | nop (k : BitVec 12)
  | br (k : BitVec 12)
  | brc (k : BitVec 12)
  | call (k : BitVec 12)
  | ret (k : BitVec 12)
  | wait (k : BitVec 12)
  | yld (k : BitVec 12)
  | yldResume (spill : BitVec 12)
  | sig (k : BitVec 12)
  | hlt (k : BitVec 12)
  | trap (k : BitVec 12)
  | add (k : BitVec 12)
  | sub (k : BitVec 12)
  | and (k : BitVec 12)
  | or (k : BitVec 12)
  | xor (k : BitVec 12)
  | shl (k : BitVec 12)
  | shr (k : BitVec 12)
  | li (k : BitVec 12)
  | cmp (k : BitVec 12)
  | mov (k : BitVec 12)
  | ld (k : BitVec 12)
  | st (k : BitVec 12)
  | cpy (k : BitVec 12)
  | fil (k : BitVec 12)
  | zro (k : BitVec 12)
  | cmpm (k : BitVec 12)
  | aadd (k : BitVec 12)
  | acas (k : BitVec 12)
  | fnc (k : BitVec 12)
  | cmt (k : BitVec 12)
  | mirw (k : BitVec 12)
  | mirwTimeLimit (cmd op : BitVec 32)
  | app (k : BitVec 12)
  /-- The oldest record of a sealed region that has no position takes it (R353). -/
  | recordPosition (region : BitVec 16)
  /-- The next chain step of a region, or the signing of the checkpoint that is next (R352, R356). -/
  | chainStep (region : BitVec 16)
  | seal (k : BitVec 12)
  | sealTimeout (region : BitVec 16)
  | autoCheckpoint (region : BitVec 16)
  | vrfy (k : BitVec 12)
  | drv (k : BitVec 12)
  | enc (k : BitVec 12)
  | dec (k : BitVec 12)
  | dig (k : BitVec 12)
  | mac (k : BitVec 12)
  | put (k : BitVec 12)
  | get (k : BitVec 12)
  | getCreditReserve (session : BitVec 20) (msg : BitVec 32)
  | radd (k : BitVec 12)
  | rcas (k : BitVec 12)
  | rfnc (k : BitVec 12)
  | pft (k : BitVec 12)
  | pro (k : BitVec 12)
  | dem (k : BitVec 12)
  | pin (k : BitVec 12)
  | unpin (k : BitVec 12)
  | loan (k : BitVec 12)
  | lrls (k : BitVec 12)
  | cln (k : BitVec 12)
  | inv (k : BitVec 12)
  | cli (k : BitVec 12)
  | zln (k : BitVec 12)
  | wlk (k : BitVec 12)
  | wul (k : BitVec 12)
  | hmapCreate (k : BitVec 12)
  | hmapModify (k : BitVec 12)
  | hmapDelete (k : BitVec 12)
  | hmapRead (k : BitVec 12)
  | qctlCreate (k : BitVec 12)
  | destroy (k : BitVec 12)
  | handles (k : BitVec 12)
  | procLoad (k : BitVec 12)
  | procRetire (k : BitVec 12)
  | admit_ (k : BitVec 12)
  | planAmend (k : BitVec 12)
  | planQuery (k : BitVec 12)
  -- Near cache, loans and plans (09), cipher engine (10)
  /-- A block by its number, DPA ÷ 4 KiB. -/
  | fillComplete (block : BitVec 32)
  | victimWriteBack (block : BitVec 32)
  | pinFill (region : BitVec 16)
  | ncEnable (on : Bool)
  | invAll
  | ncDrainEnd
  | invalidatingEnd
  /-- At the borrower: lender `node` grants loan `loan`, reached over a session of tenant 0 or the PH1 ring, in its
  region at an offset under a key. At the lender (`lend`): `mib` MiB are lent to `node`. -/
  | loanGrant (lend : Bool) (loan : BitVec 17) (node : BitVec 18) (mib : BitVec 24) (session : Option (BitVec 20))
      (region : BitVec 16) (offset : BitVec 44) (key : BitVec 32)
  /-- At the lender (`lend`) the newest loan without notice is reclaimed; at the borrower a notice arrives. -/
  | reclaim (lend : Bool) (loan : BitVec 17)
  | reclaimExpiry (lend : Bool) (loan : BitVec 17)
  | loanLost (loan : BitVec 17)
  /-- This device broadcasts its free capacity, or a member's broadcast arrives. -/
  | loanAdvertisement (sender : Option (BitVec 18 × BitVec 24))
  | lendEn (on : Bool)
  /-- The bytes of a plan slice: header, entries, signature. -/
  | planInstall (path : Path) (slice : List Byte)
  /-- The work of a message, and its bytes; a strand's message has those of its operation. -/
  | cipMessage (work : CipWork) (bytes : BitVec 36)
  | cipUnitFree (unit : BitVec 6)
  | cipAging (msg : BitVec 32)
  /-- In the running message's state, or in state shared by every message the unit holds (R348); the running message has passed
  `pieces` checkpoints, of 4 KiB each, on this unit (R347). -/
  | cipParityError (unit : BitVec 6) (shared : Bool) (pieces : BitVec 24)
  /-- The KDU derives the key an operation waits for; its two pipelines disagree `mismatches` times first (R346). -/
  | keyDerivation (cmd op : BitVec 32) (mismatches : BitVec 2)
  /-- A write of CIP_CTX_MODE.AS8200 for the queue pair in CIP_CTX_SEL. -/
  | as8200Mode (on : Bool)
  -- Parhelion and the twin (07)
  | phLinkUp (p : PhPort) (wide : Bool)
  /-- `count` flits from `first` (FACK + 1) are replayed; flits are numbered from bring-up, and FSEQ is the low 12 bits. -/
  | flitReplay (p : PhPort) (first : BitVec 64) (count : BitVec 9)
  /-- Silence of 100 ns, or lock lost in both halves. -/
  | portFailed (p : PhPort)
  | widthDegrade (p : PhPort)
  | portTrainingRetry (p : PhPort)
  | fallbackExit
  /-- The low 24 bits of the cumulative acknowledgement and the credit returned, from a flit header (Table TWN-1). -/
  | mack (ack : BitVec 24) (credit : BitVec 8)
  | mdata (f : MFrame)
  | mfwd (f : MFrame)
  | mord (f : MFrame)
  | mcv (f : MFrame)
  | mdrop (f : MFrame)
  | xopen (f : MFrame)
  | xgrant (f : MFrame)
  | xopenQueuedGrant
  | rpage (f : MFrame)
  | rreq (f : MFrame)
  /-- With the sender's mode, which LEASE frames carry (16). -/
  | lease (f : MFrame) (mode : BitVec 3)
  | linkId (ch : LinkChan) (id : LinkId)
  | mackf (f : MFrame)
  | ctrlHmap (f : MFrame)
  | ctrlTime (f : MFrame)
  | resyncStart (f : MFrame)
  | resyncEnd (f : MFrame)
  | ctrlSession (f : MFrame) (params : SessionParams)
  | channelServed (f : MFrame)
  | channelReturned (f : MFrame)
  | resyncComplete
  | leaseRenewal
  | leaseExpiry
  | leaseGuardExpiry
  | fbConfirmExpiry
  | hbStatic (level : Level)
  | twinHbInEdge
  | linkWait
  | forceAlone (path : Path)
  | flitError (p : PhPort)
  -- Dirty ceiling, destage, save and restore (08)
  /-- With the latest ADC code of HUP_SENSE. -/
  | ceilingRecompute (hup : BitVec 12)
  | chargeGrant
  /-- A page by its number, DPA ÷ 16 KiB. -/
  | destageStart (page : BitVec 30)
  /-- The program of a page at `at_`, in a block of its own choosing, succeeds or fails. -/
  | destageComplete (page : BitVec 30) (at_ : NandAddr) (ok : Bool)
  | mapSegmentWrite (segment : BitVec 12)
  /-- With the erased data-zone blocks, in tenths of a percent, and the block that takes what must be moved. -/
  | garbageCollection (erased : BitVec 10) (to_ : NandAddr)
  /-- The valid pages of a block (its page field unused) move to another. -/
  | wearMove (from_ to_ : NandAddr)
  /-- A patrol read of a data-zone block, with its worst codeword in percent of the LDPC limit, or (`save`) an erase-verify of a
  save-zone block; `to_` takes what must be moved. -/
  | patrol (at_ : NandAddr) (save : Bool) (worst : BitVec 7) (verified : Bool) (to_ : NandAddr)
  | holdUpTest
  | testNow
  | testRetry
  /-- Medians of c (10 mF) and esr (0.1 mΩ). -/
  | hupTestResult (c esr : BitVec 16)
  | saveEntry
  | saveComplete
  | vMin
  | resetSave
  /-- With the erased save-zone capacity (MiB) and channels found at the scan of the NAND, and its raw capacity in GiB. -/
  | restoreEntry (saveErased : BitVec 20) (channels : BitVec 6) (rawGib : BitVec 20)
  /-- Readable from NAND, after retries. -/
  | pageRestored (page : BitVec 30) (readable : Bool)
  | demandDeadline (page : BitVec 30)
  | restoreComplete
  | pageQuery (page : BitVec 30)
  | mapSegmentReload (segment : BitVec 12)
  -- DRAM subsystem (11)
  | populationCheck (dimms : List Dimm)
  /-- A channel's hottest sensor, °C. -/
  | thermalSensorRead (ch : BitVec 4) (temp : BitVec 8)
  | pmicRead (ch : BitVec 4) (fault : Bool)
  /-- With the line's rank and device, and whether its re-read needs correction again. -/
  | correctedError (site : CeSite) (again : Bool)
  | uncorrectableError (site : UeSite)
  /-- The source's 64 bytes, and whether the re-read needs correction. -/
  | repairComplete (line : BitVec 38) (data : Line) (again : Bool)
  | repairDeadline (line : BitVec 38)
  /-- Retirement of the page of a hard line. -/
  | pageRetirement (page : BitVec 30)
  | initialFill (stacked : Bool)
  | backgroundFill (page : BitVec 30)
  | driftScrub
  | scrubBehind
  -- Power sequencing and supervision (12, 20)
  | onDelay
  | stepGood
  /-- What the boot ROM's check of each slot's hash and signature gave, and of the factory row. -/
  | ctlRelease (slotA slotB rowOk : Bool)
  /-- SNS0 to SNS7, or 8 for HUP_SENSE, with the code of the second conversion. -/
  | senseOutOfWindow (input : BitVec 4) (code : BitVec 12)
  | pfailDebounce
  | on (path : Path)
  | off (path : Path)
  /-- The pulses counted. -/
  | cascRelease (pulses : BitVec 8)
  | cascFltN (level : Level)
  | cascFltRelease
  | pgTimeout (ch : BitVec 5)
  | offTimeout (ch : BitVec 5)
  | channelDischarged (ch : BitVec 5)
  | stuck (ch : BitVec 5)
  /-- By SEQ_PG, or by a sense below or above its window, with its code. -/
  | railLoss (ch : BitVec 5) (kind : BitVec 2) (code : BitVec 12)
  | channelOn (path : Path) (ch : BitVec 5)
  | channelOff (path : Path) (ch : BitVec 5)
  | stretchExpiry (n : BitVec 2)
  | pulse (path : Path) (n : BitVec 2)
  | faultBufferCopy
  /-- °C, two's complement. -/
  | thermalRead (temp : BitVec 8)
  | thermalTripHold
  | standbyRailLoss
  | cascInFall
  -- Training and calibration (13): a unit by the IFACE and UNIT codes of CAL_SEL
  | training (iface : BitVec 3) (unit : BitVec 5) (result : TrainResult)
  | recalWindow (iface : BitVec 3) (unit : BitVec 5)
  /-- `moved`: a setting moved by more than 2 steps. -/
  | recalWindowEnd (iface : BitVec 3) (unit : BitVec 5) (moved : Bool) (result : TrainResult)
  | gapFittedChange (iface : BitVec 3) (unit : BitVec 5) (settings : BitVec 64)
  /-- `tenfold`: the wait has reached ten times GAP_MAX. -/
  | gapDeferral (iface : BitVec 3) (unit : BitVec 5) (tenfold : Bool)
  | nandWindowDeferral (unit : BitVec 5)
  | fabricWindowDeferral (unit : BitVec 5)
  | retrainFromSeed (path : Path) (iface : BitVec 3) (unit : BitVec 5)
  | fullRetrain (path : Path) (iface : BitVec 3) (unit : BitVec 5)
  -- Configuration flash (14)
  | cflRead (path : Path) (fa : BitVec 26)
  | cflProgram (path : Path) (fa : BitVec 26)
  | cflErase (path : Path) (fa : BitVec 26)
  | eraseSuspend (path : Path) (fa : BitVec 26)
  | eraseResume (path : Path) (fa : BitVec 26)
  | autoResume (bank : BitVec 1)
  | pvMargin (path : Path) (fa : BitVec 26)
  | evMargin (path : Path) (fa : BitVec 26)
  | readFrow (path : Path) (fa : BitVec 26)
  /-- Whether the die verified it, the program pulses it took, the failing cells of a margin read. -/
  | cflOperationComplete (bank : BitVec 1) (ok : Bool) (pulses : BitVec 5) (failBits : BitVec 11)
  /-- A margin read of the patrol: of a page (`pv`) or a sector. -/
  | marginPatrol (pv : Bool) (fa : BitVec 26) (failBits : BitVec 11)
  | wpClr (path : Path) (sector : BitVec 14) (count : BitVec 16)
  | wpSet (path : Path) (n : BitVec 8) (mask : BitVec 64)
  -- Low-power states (15)
  | hazeEntry (i : Island)
  | hazeWake (i : Island)
  | overcastVote
  | enter (path : Path)
  | islandReady (i : Island)
  | islandRefuse (i : Island)
  | voteTimeout (i : Island)
  | nightfallEntry
  | night (path : Path)
  | wake (path : Path)
  | ph0SignalDetect
  /-- The retention banks whose check word fails. -/
  | wakeComplete (bad : BitVec 8)
  | padRelease (path : Path) (groups : BitVec 4)
  | lpsResume (path : Path) (islands : BitVec 15)
  -- Operating modes (16)
  | drain (path : Path) (target : BitVec 3)
  | halt (path : Path)
  /-- Whether the twin resumes too, as PHL learns (R460). -/
  | resume (path : Path) (twinResuming : Bool)
  | service (path : Path)
  | serve (path : Path)
  | intakeClose
  | drainClose
  | drainComplete
  | haltHold
  | stillairFreeze
  | freeze (path : Path)
  | thaw (path : Path)
  | reset (path : Path)
  -- Live service (18)
  /-- Whether the inactive slot holds a verified image. -/
  | fwHandover (path : Path) (verified : Bool)
  | firmwareReady
  | handoverLimit
  | mcodeSwap (path : Path) (engine : BitVec 6)
  | drainLimit
  | chOut (path : Path) (ch : BitVec 4)
  /-- With what the SPDs of the channel's RDIMMs now say. -/
  | chIn (path : Path) (ch : BitVec 4) (dimms : List Dimm)
  | chFillComplete
  | retrain (path : Path) (iface : BitVec 3) (unit : BitVec 8)
  | nandRetire (path : Path) (ch : BitVec 5) (ce : BitVec 3)
  | pathOut (path : Path) (p : FabPort)
  | pathIn (path : Path) (p : FabPort)
  | abort (path : Path)
  | migrationComplete
  -- Register space and management (19)
  | stageCommit (path : Path) (b : Block)
  | stagedApply (b : Block)
  /-- A write of `size` bytes: its 64-bit words in ascending order of address. -/
  | registerWrite (path : Path) (offset : BitVec 25) (size : BitVec 8) (values : List (BitVec 64))
  /-- A read of `size` bytes. -/
  | registerReadClear (path : Path) (offset : BitVec 25) (size : BitVec 8)
  | mctpRead (offset : BitVec 25) (count : BitVec 8)
  | mctpWrite (offset : BitVec 25) (values : List (BitVec 64))
  /-- Set Endpoint ID (`eid`), or a discovery query. -/
  | mctpControlMessage (eid : Option (BitVec 8))
  /-- Bind an LD of a port to a tenant, or unbind it. -/
  | fmApi (p : Port) (ld : BitVec 4) (tenant : Option (BitVec 12))
  /-- Bus, target, page of SPD bytes or PMIC telemetry; the bytes that the target gives. -/
  | sidebandRead (path : Path) (bus : BitVec 2) (target : BitVec 4) (page : BitVec 16) (bytes : List Byte)
  | fmBind (path : Path) (p : Port) (ld : BitVec 4) (tenant : BitVec 12)
  | poolMembers (path : Path) (members : List (BitVec 32))
  deriving DecidableEq, Repr

end Sys2Proof
end

