-- ==== Sys2Proof/Machine/Table.lean ====
section
/-! DEFINITION. Finite tables as sorted lists of (key, value) pairs: the form in which State holds everything that is
sparse (sessions, pages, regions, …). Keys rise strictly, so equal tables are equal lists. -/

namespace Sys2Proof.Machine

/-- A finite table: keys strictly rising. -/
abbrev Tab (α : Type) := List (Nat × α)

/-- The entry of a key. -/
def Tab.get (t : Tab α) (k : Nat) : Option α :=
  match t with
  | [] => none
  | (j, v) :: r => if j = k then some v else Tab.get r k

/-- The table with the entry of `k` set. -/
def Tab.put (t : Tab α) (k : Nat) (v : α) : Tab α :=
  match t with
  | [] => [(k, v)]
  | (j, w) :: r =>
    if k < j then (k, v) :: (j, w) :: r
    else if k = j then (k, v) :: r
    else (j, w) :: Tab.put r k v

/-- The table without the entry of `k`. -/
def Tab.del (t : Tab α) (k : Nat) : Tab α := t.filter (fun e => e.1 != k)

/-- The entry of `k` changed by `f`, where there is one. -/
def Tab.upd (t : Tab α) (k : Nat) (f : α → α) : Tab α := t.map (fun e => if e.1 = k then (e.1, f e.2) else e)

def Tab.has (t : Tab α) (k : Nat) : Bool := (Tab.get t k).isSome

/-- The lowest key not in use, at or above `k`. -/
def Tab.fresh (t : Tab α) (k : Nat) : Nat :=
  match t with
  | [] => k
  | (j, _) :: r => if j = k then Tab.fresh r (k + 1) else Tab.fresh r k

/-- Keys strictly rising. -/
def Tab.sorted : Tab α → Bool
  | [] => true
  | [_] => true
  | (i, _) :: (j, w) :: r => decide (i < j) && Tab.sorted ((j, w) :: r)

/-- The first element that satisfies `p`, changed by `f`. -/
def updFirst (p : α → Bool) (f : α → α) : List α → List α
  | [] => []
  | x :: r => if p x then f x :: r else x :: updFirst p f r

/-- Every element that satisfies `p`, changed by `f`. -/
def updAll (p : α → Bool) (f : α → α) (l : List α) : List α := l.map (fun x => if p x then f x else x)

/-- The least of a list of numbers, above which `d` stands. -/
def minOf (d : Nat) (l : List Nat) : Nat := l.foldl min d

def sumOf (l : List Nat) : Nat := l.foldl (· + ·) 0

end Sys2Proof.Machine
end

