-- ==== Sys2Proof/Machine/Mem.lean ====
section
/-! DEFINITION. Byte memory: a list of (address, byte) pairs with strictly rising addresses and no zero byte listed.
An unlisted byte reads as zero, as DRAM that holds nothing written does (R43, R371 to R373). -/

namespace Sys2Proof.Machine

/-- Bytes by address; an unlisted byte is zero. -/
abbrev Memory := List Host.Cell

/-- The byte at an address. -/
def Memory.read (m : Memory) (a : Nat) : Byte :=
  match m with
  | [] => 0
  | (b, v) :: r => if b = a then v else Memory.read r a

/-- The memory with the byte at `a` set; writing zero removes the entry. -/
def Memory.write (m : Memory) (a : Nat) (v : Byte) : Memory :=
  match m with
  | [] => if v = 0 then [] else [(a, v)]
  | (b, w) :: r =>
    if a < b then (if v = 0 then (b, w) :: r else (a, v) :: (b, w) :: r)
    else if a = b then (if v = 0 then r else (a, v) :: r)
    else (b, w) :: Memory.write r a v

/-- The canonical form: addresses strictly rising, no zero byte. -/
def Memory.wf : Memory → Bool
  | [] => true
  | [(_, v)] => decide (v ≠ 0)
  | (a, v) :: (b, w) :: r => decide (a < b) && decide (v ≠ 0) && Memory.wf ((b, w) :: r)

/-- The cells written one after another. -/
def Memory.writeCells (m : Memory) (cs : List Host.Cell) : Memory := cs.foldl (fun m c => m.write c.1 c.2) m

/-- `n` bytes from `a`. -/
def Memory.readN (m : Memory) (a n : Nat) : List Byte := (List.range n).map (fun i => m.read (a + i))

/-- Cells that place bytes from `a` upwards. -/
def cellsAt (a : Nat) : List Byte → List Host.Cell
  | [] => []
  | b :: r => (a, b) :: cellsAt (a + 1) r

/-- Every byte with `lo ≤ address < lo + n` set to zero. -/
def Memory.clear (m : Memory) (lo n : Nat) : Memory := m.filter (fun c => !(decide (lo ≤ c.1) && decide (c.1 < lo + n)))

/-- The bytes with `lo ≤ address < lo + n`. -/
def Memory.slice (m : Memory) (lo n : Nat) : Memory := m.filter (fun c => decide (lo ≤ c.1) && decide (c.1 < lo + n))

/-- The little-endian number of a list of bytes. -/
def leNat : List Byte → Nat
  | [] => 0
  | b :: r => b.toNat + 256 * leNat r

/-- The low `n` bytes of a number, least significant first. -/
def leBytes : Nat → Nat → List Byte
  | 0, _ => []
  | n + 1, v => BitVec.ofNat 8 v :: leBytes n (v / 256)

/-- The low `n` bytes of a number, most significant first. -/
def beBytes (n v : Nat) : List Byte := (leBytes n v).reverse

def beNat (l : List Byte) : Nat := leNat l.reverse

end Sys2Proof.Machine
end

