-- ==== Sys2Proof/Machine/Bytes.lean ====
section
/-! DEFINITION. CRC-32C, the check the spec puts on records, journal entries, flits and map summaries. -/

namespace Sys2Proof.Machine

/-- One bit of CRC-32C, reflected, polynomial 0x82F6_3B78. -/
def crcBit (c : BitVec 32) : BitVec 32 := if c.getLsbD 0 then (c >>> 1) ^^^ 0x82F63B78 else c >>> 1

def crcByte (c : BitVec 32) (b : Byte) : BitVec 32 :=
  let c := c ^^^ b.setWidth 32
  crcBit (crcBit (crcBit (crcBit (crcBit (crcBit (crcBit (crcBit c)))))))

/-- CRC-32C of a list of bytes. -/
def crc32c (l : List Byte) : BitVec 32 := (l.foldl crcByte 0xFFFFFFFF) ^^^ 0xFFFFFFFF

end Sys2Proof.Machine
end

