-- ==== Sys2Proof/Machine/Crypto.lean ====
section
/-! DEFINITION. The algorithms of CIP over byte lists: SHA-256, HMAC-SHA-256, AES-256, AES-256-GCM, AES-256-XTS
(10_cipher_sealing; the spec names the algorithms and takes them from their standards). -/

namespace Sys2Proof.Machine

/-! ### SHA-256

The standard takes its constants from the fractional parts of the roots of the first primes, and so does this text. -/

/-- The primes below 312: the first 64. -/
def firstPrimes : List Nat :=
  (List.range 312).filter (fun n => decide (2 ≤ n) && (List.range n).all (fun d => decide (d < 2) || n % d != 0))

/-- The largest number below `r + 2 ^ bits` whose `k`-th power is at most `n`, found bit by bit from `r`. -/
def rootFrom (k n : Nat) : Nat → Nat → Nat
  | 0, r => r
  | bits + 1, r => rootFrom k n bits (if (r + 2 ^ bits) ^ k ≤ n then r + 2 ^ bits else r)

/-- The first 32 fractional bits of the `k`-th root of `p`. -/
def rootFraction (k p : Nat) : BitVec 32 := BitVec.ofNat 32 (rootFrom k (p * 2 ^ (32 * k)) 37 0)

/-- Exclusive or of the rotations of a word by the amounts given. -/
def rotations (amounts : List Nat) (x : BitVec 32) : BitVec 32 := amounts.foldl (fun y r => y ^^^ x.rotateRight r) 0

/-- Message words: each further one is made from the sixteen before it. -/
def messageWords (block : List Byte) : Nat → List (BitVec 32)
  | 0 => (List.range 16).map (fun i => BitVec.ofNat 32 (beNat ((block.drop (4 * i)).take 4)))
  | n + 1 =>
    let w := messageWords block n
    let far := w.getD (n + 1) 0
    let near := w.getD (n + 14) 0
    w ++ [w.getD n 0 + (rotations [7, 18] far ^^^ (far >>> 3)) + w.getD (n + 9) 0 + (rotations [17, 19] near ^^^ (near >>> 10))]

/-- One of the 64 rounds on the eight working words: all move up one place, the fifth and first taking new values. -/
def digestRound (v : List (BitVec 32)) (kw : BitVec 32) : List (BitVec 32) :=
  let at_ (i : Nat) : BitVec 32 := v.getD i 0
  let chosen := at_ 6 ^^^ (at_ 4 &&& (at_ 5 ^^^ at_ 6))
  let t := at_ 7 + kw + rotations [6, 11, 25] (at_ 4) + chosen
  let most := (at_ 0 &&& at_ 1) ||| (at_ 2 &&& (at_ 0 ||| at_ 1))
  (t + rotations [2, 13, 22] (at_ 0) + most) :: v.take 3 ++ (at_ 3 + t) :: (v.drop 4).take 3

/-- A block is taken into the digest so far. -/
def digestBlock (keys : List (BitVec 32)) (h : List (BitVec 32)) (block : List Byte) : List (BitVec 32) :=
  let v := (keys.zip (messageWords block 48)).foldl (fun v e => digestRound v (e.1 + e.2)) h
  (h.zip v).map (fun e => e.1 + e.2)

/-- SHA-256: the message, a one bit, zeros and the length in bits fill whole blocks of 64 bytes. -/
def sha256 (m : List Byte) : List Byte :=
  let fill := List.replicate ((119 - m.length % 64) % 64) (0 : Byte)
  let text := m ++ (0x80 : Byte) :: fill ++ beBytes 8 (8 * m.length)
  let keys := firstPrimes.map (rootFraction 3)
  let start := (firstPrimes.take 8).map (rootFraction 2)
  ((List.range (text.length / 64)).foldl (fun h i => digestBlock keys h ((text.drop (64 * i)).take 64)) start).flatMap
    (fun w => beBytes 4 w.toNat)

/-- HMAC-SHA-256. -/
def hmac (key m : List Byte) : List Byte :=
  let k0 := if 64 < key.length then sha256 key else key
  let k := k0 ++ List.replicate (64 - k0.length) 0
  sha256 (k.map (· ^^^ 0x5c) ++ sha256 (k.map (· ^^^ 0x36) ++ m))

/-! ### AES-256 -/

def xtime (a : Byte) : Byte := if a.msb then (a <<< 1) ^^^ 0x1b else a <<< 1

def gmulAux : Nat → Byte → Byte → Byte
  | 0, _, _ => 0
  | n + 1, a, b => (if b.getLsbD 0 then a else 0) ^^^ gmulAux n (xtime a) (b >>> 1)

def gmul (a b : Byte) : Byte := gmulAux 8 a b

def gpow : Nat → Byte → Byte
  | 0, _ => 1
  | n + 1, a => gmul a (gpow n a)

/-- The S-box: the inverse in GF(2^8), then the affine map. -/
def sbox (a : Byte) : Byte :=
  let x := gpow 254 a
  x ^^^ x.rotateLeft 1 ^^^ x.rotateLeft 2 ^^^ x.rotateLeft 3 ^^^ x.rotateLeft 4 ^^^ 0x63

def invSbox (a : Byte) : Byte :=
  gpow 254 (a.rotateLeft 1 ^^^ a.rotateLeft 3 ^^^ a.rotateLeft 6 ^^^ 0x05)

def xorBytes (a b : List Byte) : List Byte := List.zipWith (· ^^^ ·) a b

/-- Key words of four bytes, newest first; `i` counts from 8. -/
def aesExpand : Nat → Nat → List (List Byte) → List (List Byte)
  | 0, _, w => w
  | n + 1, i, w =>
    let t := w.getD 0 []
    let t := if i % 8 = 0 then xorBytes (((t.drop 1) ++ t.take 1).map sbox) [gpow (i / 8 - 1) 2, 0, 0, 0]
             else if i % 8 = 4 then t.map sbox else t
    aesExpand n (i + 1) (xorBytes (w.getD 7 []) t :: w)

def chunks {α : Type} : Nat → Nat → List α → List (List α)
  | 0, _, _ => []
  | n + 1, k, l => l.take k :: chunks n k (l.drop k)

/-- The fifteen round keys. -/
def aesKeys (key : List Byte) : List (List Byte) :=
  chunks 15 16 ((aesExpand 52 8 (chunks 8 4 key).reverse).reverse.flatten)

def shiftRows (s : List Byte) : List Byte :=
  (List.range 16).map (fun i => s.getD ((i + 4 * (i % 4)) % 16) 0)

def invShiftRows (s : List Byte) : List Byte :=
  (List.range 16).map (fun i => s.getD ((i + 16 - 4 * (i % 4)) % 16) 0)

def mixWith (m : List Byte) (s : List Byte) : List Byte :=
  (List.range 16).map (fun i =>
    let c := i / 4 * 4
    (List.range 4).foldl (fun x j => x ^^^ gmul (m.getD ((j + 4 - i % 4) % 4) 0) (s.getD (c + j) 0)) 0)

def aesBlock (keys : List (List Byte)) (b : List Byte) : List Byte :=
  let s0 := xorBytes b (keys.getD 0 [])
  let s1 := ((keys.drop 1).take 13).foldl (fun s k => xorBytes (mixWith [2, 3, 1, 1] (shiftRows (s.map sbox))) k) s0
  xorBytes (shiftRows (s1.map sbox)) (keys.getD 14 [])

def aesInvBlock (keys : List (List Byte)) (b : List Byte) : List Byte :=
  let s0 := xorBytes b (keys.getD 14 [])
  let s1 := ((keys.drop 1).take 13).reverse.foldl
    (fun s k => mixWith [14, 11, 13, 9] (xorBytes ((invShiftRows s).map invSbox) k)) s0
  xorBytes ((invShiftRows s1).map invSbox) (keys.getD 0 [])

/-! ### GCM -/

def ghashMulAux : Nat → BitVec 128 → BitVec 128 → BitVec 128 → BitVec 128
  | 0, _, _, z => z
  | n + 1, x, v, z =>
    let z := if x.msb then z ^^^ v else z
    let v := if v.getLsbD 0 then (v >>> 1) ^^^ (0xe1#128 <<< 120) else v >>> 1
    ghashMulAux n (x <<< 1) v z

def ghash (h : BitVec 128) (blocks : List (List Byte)) : BitVec 128 :=
  blocks.foldl (fun y b => ghashMulAux 128 (y ^^^ BitVec.ofNat 128 (beNat b)) h 0) 0

def padTo16 (l : List Byte) : List Byte := l ++ List.replicate ((16 - l.length % 16) % 16) 0

def ctrStream : Nat → List (List Byte) → List Byte → Nat → List Byte
  | 0, _, _, _ => []
  | n + 1, keys, iv, c => aesBlock keys (iv ++ beBytes 4 c) ++ ctrStream n keys iv (c + 1)

/-- The text under the counter stream that starts at block 2, for a 12-byte IV. -/
def gcmCrypt (keys : List (List Byte)) (iv text : List Byte) : List Byte :=
  xorBytes text (ctrStream ((text.length + 15) / 16) keys iv 2)

/-- The tag over associated data and ciphertext. -/
def gcmTag (keys : List (List Byte)) (iv aad ct : List Byte) : List Byte :=
  let h := BitVec.ofNat 128 (beNat (aesBlock keys (List.replicate 16 0)))
  let data := padTo16 aad ++ padTo16 ct ++ beBytes 8 (8 * aad.length) ++ beBytes 8 (8 * ct.length)
  xorBytes (beBytes 16 (ghash h (chunks (data.length / 16) 16 data)).toNat) (aesBlock keys (iv ++ beBytes 4 1))

/-- AES-256-GCM: ciphertext and tag. -/
def gcmSeal (key iv aad pt : List Byte) : List Byte × List Byte :=
  let keys := aesKeys key
  let ct := gcmCrypt keys iv pt
  (ct, gcmTag keys iv aad ct)

/-- AES-256-GCM: the plaintext, where the tag agrees. -/
def gcmOpen (key iv aad ct tag : List Byte) : Option (List Byte) :=
  let keys := aesKeys key
  if gcmTag keys iv aad ct = tag then some (gcmCrypt keys iv ct) else none

/-! ### XTS -/

/-- The next tweak: multiplication by x, little-endian. -/
def xtsNext (t : List Byte) : List Byte :=
  let v := BitVec.ofNat 128 (leNat t)
  leBytes 16 ((v <<< 1) ^^^ (if v.msb then 0x87 else 0)).toNat

/-- Whole blocks under XTS; `f` is the block cipher in the wanted direction. -/
def xtsBlocks (f : List Byte → List Byte) : Nat → List Byte → List Byte → List Byte
  | 0, _, _ => []
  | n + 1, t, l => xorBytes (f (xorBytes (l.take 16) t)) t ++ xtsBlocks f n (xtsNext t) (l.drop 16)

/-! ### CMAC and key derivation -/

/-- Doubling in GF(2^128), big-endian. -/
def cmacDouble (b : List Byte) : List Byte :=
  let v := BitVec.ofNat 128 (beNat b)
  beBytes 16 ((v <<< 1) ^^^ (if v.msb then 0x87 else 0)).toNat

def cmacBlocks (keys : List (List Byte)) : Nat → List Byte → List Byte → List Byte
  | 0, x, _ => x
  | n + 1, x, m => cmacBlocks keys n (aesBlock keys (xorBytes x (m.take 16))) (m.drop 16)

/-- CMAC-AES-256. -/
def cmac (key m : List Byte) : List Byte :=
  let keys := aesKeys key
  let k1 := cmacDouble (aesBlock keys (List.replicate 16 0))
  let n := (m.length + 15) / 16 - 1
  let last := m.drop (16 * n)
  let x := cmacBlocks keys n (List.replicate 16 0) m
  if last.length = 16 then aesBlock keys (xorBytes x (xorBytes last k1))
  else aesBlock keys (xorBytes x (xorBytes (last ++ [0x80] ++ List.replicate (15 - last.length) 0) (cmacDouble k1)))

/-- Derived key length in bytes by USE: XTS, GCM, MAC, ECDSA (R341). -/
def useBytes (use : Nat) : Nat :=
  match use with
  | 0 => 64
  | 1 => 48
  | 2 => 32
  | _ => 56

/-- The fixed input of block `i` (Table CIP-5); `ctx` are CONTEXT bytes 38 to 52. -/
def kdfInput (i label use : Nat) (ctx : List Byte) : List Byte :=
  beBytes 4 i ++ leBytes 32 label ++ [0, BitVec.ofNat 8 use] ++ (ctx ++ List.replicate 15 0).take 15 ++
  beBytes 4 (8 * useBytes use)

/-- SP 800-108 in counter mode with CMAC-AES-256 (R340). -/
def kdf (root : List Byte) (label use : Nat) (ctx : List Byte) : List Byte :=
  ((List.range ((useBytes use + 15) / 16)).flatMap (fun i => cmac root (kdfInput (i + 1) label use ctx))).take (useBytes use)

/-- The context label (Table CIP-5). -/
def keyLabel (purpose tenant region node epoch : Nat) : Nat :=
  purpose % 256 + tenant % 4096 * 2 ^ 8 + region % 65536 * 2 ^ 20 + node % 2 ^ 18 * 2 ^ 36 + epoch % 2 ^ 32 * 2 ^ 54

end Sys2Proof.Machine
end

