-- ==== Sys2Proof/Config.lean ====
section
/-! DEFINITION. What an implementation fixes and what the spec leaves open: opaque constants with no body, so that no
statement can rest on a value of them. -/

namespace Sys2Proof

/-- The free values: draw `n` of the counter `State.freeCtr` (notes/assumptions/1.md). -/
opaque Config.free : Nat → Word

/-- The device serial in the AON fuses (GEN_SERIAL). -/
opaque Config.serial : Word

/-- Stepping and grade fuses (GEN_ID [20:16]). -/
opaque Config.steppingGrade : BitVec 5

/-- The device and storage roots, fused at manufacture (R337). -/
opaque Config.deviceRoot : BitVec 256
opaque Config.storageRoot : BitVec 256

/-- The public device identity key x ‖ y (R343). -/
opaque Config.identityKey : BitVec 768

/-- ECDSA P-384 with SHA-384 (R343, R325): the signature of a message under the identity key, and verification under a
public key. -/
opaque Config.ecdsaSign : List Byte → BitVec 768
opaque Config.ecdsaVerify : List Byte → List Byte → List Byte → Bool

/-- The identity key of a node, from its device certificate (R357). -/
opaque Config.certKey : Nat → List Byte

/-- The IV of a mirror frame (R239), by link epoch, sending position and MSN. -/
opaque Config.mirrorIv : Nat → Nat → Nat → List Byte

/-- IP addresses of the fabric ports, by port (Table FAB-1). -/
opaque Config.portAddr : Nat → BitVec 128

/-- The twin's addresses on the two planes, by port pair, as firmware knows them (R241). -/
opaque Config.twinAddr : Nat → Bool → BitVec 128

/-- Hash that picks the chunk lock of a 64 KiB chunk, DPA[43:16] (R315). -/
opaque Config.chunkHash : BitVec 28 → BitVec 12

/-- Depth of the fill queue that PFT fills (R312). -/
opaque Config.fillQueue : Nat

/-- Devices on the board, N of R34. -/
opaque Config.boardDevices : Nat

/-- Bytes of the factory row of the NOR die (R439). -/
opaque Config.factoryRow : Nat → Byte

/-- Register offset of an entry of the retention list, by bank and index (R447). -/
opaque Config.retentionList : Nat → Nat → BitVec 25

/-- Sector of the key-wrapped blob partition that holds the wrapped administration key (R479). -/
opaque Config.adminSector : Nat

/-- Raw capacity of a NAND package, GiB (R502). -/
opaque Config.packageGib : Nat

/-- NAND of the device: spare blocks, blocks of the data zone, and the rated erases of a block (R285, DST_WEAR). -/
opaque Config.spareBlocks : Nat
opaque Config.dataBlocks : Nat
opaque Config.ratedErases : Nat

/-- MiB of an SLC block of the save zone (R270). -/
opaque Config.saveBlockMib : Nat

/-- Factory default read offsets of a die, by channel and die: seven TLC and one SLC in 64 bits (R411). -/
opaque Config.nandDefaults : Nat → Nat → Word

end Sys2Proof
end

