-- ==== Sys2Proof/Machine/RegMap.lean ====
section
/-! DEFINITION. The register map: every register the spec describes (address, count, reset value) and its writable,
clearing or triggering fields (bits, access type of Table SCO-4, update class of R9, range rule), block by block of
Table REG-1, with a named constant for every field. Bits of a register that no entry covers are reserved or RO. -/

namespace Sys2Proof.Machine

/-- Access types of Table SCO-4 (R7); RO fields have no entry. -/
inductive Access where
  | rw | w1c | w1s | rc | wo
  deriving DecidableEq, Repr

/-- Update classes of R9. -/
inductive Update where
  | live | staged | locked
  deriving DecidableEq, Repr

/-- The rule a written value must meet; a value that breaks it is ignored (the field's Meaning column). `below` and
`above` are the pairs of R537: own range, then place and width of the field it is compared with. -/
inductive Check where
  | any
  | range (lo hi : Nat)
  | below (lo hi lsb width : Nat)
  | above (lo hi lsb width : Nat)
  | poolSize | notBelowCurrent | seqEnable | seqStep | oddOnly
  | unlocked (lo hi : Nat)
  deriving DecidableEq, Repr

/-- One field of a register. -/
structure FieldDesc where
  lsb : Nat
  width : Nat
  acc : Access
  upd : Update
  chk : Check
  deriving DecidableEq, Repr

/-- One register, or `count` registers 8 bytes apart. -/
structure RegDesc where
  addr : Nat
  count : Nat
  reset : BitVec 64
  fields : List FieldDesc
  deriving DecidableEq, Repr

/-- A field by name: the register's address, lowest bit and width. -/
structure Fld where
  addr : Nat
  lsb : Nat
  width : Nat
  deriving DecidableEq, Repr

/-- Window GEN (Table REG-1). -/
def regsGEN : List RegDesc :=
  [ ⟨0x400, 1, 0x3, []⟩,
    ⟨0x408, 1, 0x0, [⟨0, 32, .rc, .live, .any⟩, ⟨32, 16, .rc, .live, .any⟩]⟩,
    ⟨0x100, 1, 0x1009640, []⟩,
    ⟨0x108, 1, 0x0, []⟩,
    ⟨0x110, 1, 0x0, []⟩,
    ⟨0x118, 1, 0x0, []⟩,
    ⟨0x180, 1, 0x3, [⟨0, 1, .rw, .live, .any⟩, ⟨1, 1, .rw, .live, .any⟩]⟩,
    ⟨0x200, 1, 0x0, [⟨0, 1, .w1c, .live, .any⟩, ⟨1, 1, .w1c, .live, .any⟩, ⟨2, 1, .w1c, .live, .any⟩, ⟨3, 1, .w1c, .live, .any⟩, ⟨4, 1, .w1c, .live, .any⟩, ⟨5, 1, .w1c, .live, .any⟩]⟩,
    ⟨0x208, 1, 0x0, []⟩,
    ⟨0x300, 1, 0x0, [⟨0, 16, .rc, .live, .any⟩, ⟨16, 16, .rc, .live, .any⟩, ⟨32, 16, .rc, .live, .any⟩, ⟨48, 16, .rc, .live, .any⟩]⟩,
    ⟨0x500, 1, 0x0, [⟨0, 8, .wo, .live, .any⟩]⟩,
    ⟨0x508, 1, 0x0, [⟨0, 44, .rw, .live, .any⟩]⟩,
    ⟨0x600, 1, 0x640000, [⟨16, 8, .rw, .live, .range 85 110⟩, ⟨25, 1, .w1c, .live, .any⟩]⟩ ]

/-- Window SEQ (Table REG-1). -/
def regsSEQ : List RegDesc :=
  [ ⟨0x100100, 1, 0x60a0a03, [⟨0, 1, .rw, .live, .any⟩, ⟨1, 1, .rw, .staged, .any⟩, ⟨8, 8, .rw, .staged, .range 2 255⟩, ⟨16, 8, .rw, .staged, .range 1 255⟩, ⟨24, 3, .rw, .staged, .any⟩]⟩,
    ⟨0x100108, 1, 0x0, [⟨0, 1, .w1s, .live, .any⟩, ⟨1, 1, .w1s, .live, .any⟩]⟩,
    ⟨0x100110, 1, 0x0, [⟨19, 1, .w1c, .live, .any⟩]⟩,
    ⟨0x100118, 1, 0x0, []⟩,
    ⟨0x100120, 1, 0x0, [⟨0, 32, .w1c, .live, .any⟩]⟩,
    ⟨0x100128, 1, 0x0, [⟨0, 5, .rw, .live, .any⟩, ⟨5, 2, .wo, .live, .any⟩]⟩,
    ⟨0x100130, 1, 0xd01, [⟨0, 1, .rw, .staged, .any⟩, ⟨8, 5, .rw, .staged, .any⟩]⟩,
    ⟨0x100138, 1, 0x0, []⟩,
    ⟨0x100140, 1, 0x0, []⟩,
    ⟨0x100148, 1, 0x0, [⟨0, 16, .rc, .live, .any⟩, ⟨16, 16, .rc, .live, .any⟩, ⟨32, 16, .rc, .live, .any⟩, ⟨48, 16, .rc, .live, .any⟩]⟩,
    ⟨0x100150, 2, 0x0, []⟩,
    ⟨0x100200, 32, 0x0, [⟨0, 1, .rw, .staged, .seqEnable⟩, ⟨1, 5, .rw, .staged, .seqStep⟩, ⟨6, 4, .rw, .staged, .range 0 8⟩, ⟨10, 2, .rw, .staged, .range 0 2⟩, ⟨16, 8, .rw, .staged, .any⟩, ⟨24, 8, .rw, .staged, .range 1 255⟩, ⟨32, 8, .rw, .staged, .range 1 255⟩, ⟨40, 1, .rw, .staged, .any⟩]⟩,
    ⟨0x100300, 8, 0x131, [⟨0, 16, .rw, .staged, .any⟩, ⟨16, 16, .rw, .staged, .any⟩, ⟨32, 16, .rw, .staged, .any⟩, ⟨48, 16, .rw, .staged, .any⟩]⟩,
    ⟨0x100380, 4, 0x0, [⟨0, 6, .rw, .staged, .range 0 33⟩, ⟨8, 8, .rw, .staged, .range 1 255⟩, ⟨16, 1, .rw, .staged, .any⟩, ⟨17, 1, .rw, .staged, .any⟩, ⟨18, 1, .rw, .staged, .any⟩, ⟨19, 1, .w1s, .live, .any⟩]⟩ ]

/-- Window LPS (Table REG-1). -/
def regsLPS : List RegDesc :=
  [ ⟨0x200100, 1, 0x1f463c00643203, [⟨0, 1, .rw, .live, .any⟩, ⟨1, 1, .rw, .live, .any⟩, ⟨2, 1, .rw, .live, .any⟩, ⟨8, 8, .rw, .staged, .range 1 255⟩, ⟨16, 16, .rw, .staged, .range 1 65535⟩, ⟨32, 8, .rw, .staged, .range 1 255⟩, ⟨40, 4, .rw, .staged, .range 0 10⟩, ⟨44, 12, .rw, .staged, .range 100 4000⟩]⟩,
    ⟨0x200108, 1, 0x7ffe, [⟨1, 14, .rw, .live, .any⟩]⟩,
    ⟨0x200110, 1, 0x0, []⟩,
    ⟨0x200118, 1, 0x0, [⟨0, 1, .w1s, .live, .any⟩, ⟨1, 1, .w1s, .live, .any⟩, ⟨2, 1, .w1s, .live, .any⟩]⟩,
    ⟨0x200120, 1, 0x0, [⟨4, 4, .w1s, .live, .any⟩]⟩,
    ⟨0x200128, 1, 0x0, []⟩,
    ⟨0x200130, 1, 0x0, [⟨0, 8, .w1c, .live, .any⟩, ⟨24, 15, .w1s, .live, .any⟩]⟩,
    ⟨0x200180, 1, 0x0, [⟨0, 3, .rw, .live, .any⟩, ⟨4, 12, .rw, .live, .any⟩]⟩,
    ⟨0x200300, 1, 0x0, [⟨0, 16, .rc, .live, .any⟩, ⟨16, 16, .rc, .live, .any⟩, ⟨32, 16, .rc, .live, .any⟩, ⟨48, 16, .rc, .live, .any⟩]⟩ ]

/-- Window MOD (Table REG-1). -/
def regsMOD : List RegDesc :=
  [ ⟨0x300100, 1, 0x10000003e80064, [⟨0, 16, .rw, .staged, .range 1 6000⟩, ⟨16, 16, .rw, .staged, .range 0 60000⟩, ⟨32, 1, .rw, .live, .any⟩, ⟨40, 16, .rw, .staged, .any⟩]⟩,
    ⟨0x300108, 1, 0xf000, []⟩,
    ⟨0x300110, 1, 0x0, [⟨0, 3, .wo, .live, .any⟩, ⟨3, 3, .rw, .live, .any⟩]⟩,
    ⟨0x300118, 1, 0x0, []⟩,
    ⟨0x300300, 1, 0x0, [⟨0, 16, .rc, .live, .any⟩, ⟨16, 16, .rc, .live, .any⟩, ⟨32, 16, .rc, .live, .any⟩, ⟨48, 16, .rc, .live, .any⟩]⟩,
    ⟨0x300380, 1, 0x0, [⟨0, 1, .w1c, .live, .any⟩, ⟨1, 1, .w1c, .live, .any⟩, ⟨2, 1, .w1c, .live, .any⟩]⟩ ]

/-- Window PST (Table REG-1). -/
def regsPST : List RegDesc :=
  [ ⟨0x400100, 1, 0x80000000000008, [⟨0, 8, .rw, .staged, .range 1 12⟩]⟩,
    ⟨0x400108, 1, 0x0, [⟨0, 32, .rc, .live, .any⟩, ⟨32, 32, .rc, .live, .any⟩]⟩,
    ⟨0x400110, 1, 0x0, [⟨0, 32, .rc, .live, .any⟩, ⟨32, 32, .rc, .live, .any⟩]⟩ ]

/-- Window PHL (Table REG-1). -/
def regsPHL : List RegDesc :=
  [ ⟨0x500100, 1, 0xa0801, [⟨0, 1, .rw, .live, .any⟩, ⟨1, 1, .rw, .locked, .any⟩, ⟨2, 1, .wo, .live, .any⟩, ⟨8, 5, .rw, .locked, .range 4 16⟩, ⟨16, 8, .rw, .staged, .range 1 255⟩]⟩,
    ⟨0x500108, 1, 0x1900c8000a0064, [⟨0, 16, .rw, .staged, .range 10 10000⟩, ⟨16, 16, .rw, .staged, .range 1 1000⟩, ⟨32, 16, .rw, .staged, .range 20 10000⟩, ⟨48, 8, .rw, .staged, .range 15 255⟩]⟩,
    ⟨0x500110, 1, 0x128, [⟨0, 7, .rw, .staged, .range 1 90⟩, ⟨8, 1, .rw, .staged, .any⟩]⟩,
    ⟨0x500118, 1, 0x0, []⟩,
    ⟨0x500120, 1, 0x0, []⟩,
    ⟨0x500128, 1, 0x0, []⟩,
    ⟨0x500200, 1, 0x0, [⟨0, 32, .rc, .live, .any⟩, ⟨32, 32, .rc, .live, .any⟩]⟩,
    ⟨0x500208, 1, 0x0, [⟨0, 16, .rc, .live, .any⟩, ⟨16, 16, .rc, .live, .any⟩, ⟨32, 16, .rc, .live, .any⟩, ⟨48, 16, .rc, .live, .any⟩]⟩,
    ⟨0x500210, 1, 0x0, [⟨0, 32, .rc, .live, .any⟩, ⟨32, 32, .rc, .live, .any⟩]⟩,
    ⟨0x500218, 1, 0x0, [⟨0, 32, .rc, .live, .any⟩, ⟨32, 32, .rc, .live, .any⟩]⟩,
    ⟨0x500280, 1, 0x0, [⟨0, 1, .w1c, .live, .any⟩, ⟨1, 1, .w1c, .live, .any⟩, ⟨2, 1, .w1c, .live, .any⟩, ⟨3, 1, .w1c, .live, .any⟩, ⟨4, 1, .w1c, .live, .any⟩, ⟨5, 1, .w1c, .live, .any⟩]⟩ ]

/-- Window DST (Table REG-1). -/
def regsDST : List RegDesc :=
  [ ⟨0x600100, 1, 0x400a5530000, [⟨0, 20, .rw, .staged, .range 1024 196608⟩, ⟨20, 8, .rw, .staged, .range 50 95⟩, ⟨28, 12, .rw, .staged, .any⟩, ⟨40, 4, .rw, .staged, .range 1 4⟩]⟩,
    ⟨0x600108, 1, 0x0, []⟩,
    ⟨0x600110, 1, 0x0, []⟩,
    ⟨0x600118, 1, 0x0, []⟩,
    ⟨0x600140, 1, 0x4c405dc145e1e0, [⟨0, 12, .rw, .staged, .any⟩, ⟨12, 7, .rw, .staged, .range 50 100⟩, ⟨19, 1, .rw, .staged, .any⟩, ⟨20, 8, .rw, .staged, .range 10 100⟩, ⟨28, 16, .rw, .staged, .range 100 65535⟩, ⟨44, 16, .rw, .staged, .any⟩]⟩,
    ⟨0x600148, 1, 0x3e80000c818, [⟨0, 8, .rw, .staged, .range 1 255⟩, ⟨8, 10, .rw, .staged, .range 50 1000⟩, ⟨18, 1, .w1s, .live, .any⟩, ⟨32, 16, .rw, .staged, .any⟩]⟩,
    ⟨0x600150, 1, 0xc800c8, [⟨0, 16, .rw, .staged, .any⟩, ⟨16, 16, .rw, .staged, .any⟩]⟩,
    ⟨0x600158, 1, 0x0, []⟩,
    ⟨0x600180, 1, 0x0, [⟨0, 12, .rw, .live, .any⟩]⟩,
    ⟨0x600188, 1, 0x0, []⟩,
    ⟨0x6001c0, 1, 0x232807180, [⟨0, 12, .rw, .locked, .any⟩, ⟨12, 8, .rw, .staged, .range 1 255⟩, ⟨20, 7, .rw, .staged, .below 0 127 27 7⟩, ⟨27, 7, .rw, .staged, .above 0 127 20 7⟩]⟩,
    ⟨0x6001c8, 1, 0x0, []⟩,
    ⟨0x600200, 1, 0x0, [⟨14, 30, .rw, .live, .any⟩]⟩,
    ⟨0x600208, 1, 0x0, []⟩,
    ⟨0x600300, 1, 0x0, [⟨0, 16, .rc, .live, .any⟩, ⟨16, 16, .rc, .live, .any⟩, ⟨32, 16, .rc, .live, .any⟩, ⟨48, 16, .rc, .live, .any⟩]⟩,
    ⟨0x600308, 1, 0x0, [⟨0, 32, .rc, .live, .any⟩, ⟨32, 32, .rc, .live, .any⟩]⟩,
    ⟨0x600310, 1, 0x0, [⟨0, 32, .rc, .live, .any⟩, ⟨32, 32, .rc, .live, .any⟩]⟩,
    ⟨0x600318, 1, 0x0, [⟨0, 32, .rc, .live, .any⟩, ⟨32, 16, .rc, .live, .any⟩, ⟨48, 16, .rc, .live, .any⟩]⟩,
    ⟨0x600380, 1, 0x0, [⟨1, 1, .w1c, .live, .any⟩, ⟨2, 1, .w1c, .live, .any⟩, ⟨5, 1, .w1c, .live, .any⟩]⟩ ]

/-- Window HST (Table REG-1). -/
def regsHST : List RegDesc :=
  [ ⟨0x700100, 1, 0x0, [⟨0, 1, .rw, .live, .any⟩, ⟨1, 1, .rw, .locked, .any⟩]⟩,
    ⟨0x780100, 1, 0x0, [⟨0, 1, .rw, .live, .any⟩, ⟨1, 1, .rw, .locked, .any⟩]⟩,
    ⟨0x700108, 1, 0x553204, [⟨0, 5, .rw, .staged, .range 0 16⟩, ⟨8, 8, .rw, .staged, .below 0 255 16 8⟩, ⟨16, 8, .rw, .staged, .above 0 100 8 8⟩]⟩,
    ⟨0x780108, 1, 0x553204, [⟨0, 5, .rw, .staged, .range 0 16⟩, ⟨8, 8, .rw, .staged, .below 0 255 16 8⟩, ⟨16, 8, .rw, .staged, .above 0 100 8 8⟩]⟩,
    ⟨0x700110, 1, 0x3e8, [⟨0, 16, .rw, .live, .range 10 16000⟩]⟩,
    ⟨0x780110, 1, 0x3e8, [⟨0, 16, .rw, .live, .range 10 16000⟩]⟩,
    ⟨0x700118, 1, 0x0, []⟩,
    ⟨0x780118, 1, 0x0, []⟩,
    ⟨0x700200, 16, 0x0, [⟨0, 12, .rw, .staged, .any⟩, ⟨12, 1, .rw, .live, .any⟩]⟩,
    ⟨0x780200, 16, 0x0, [⟨0, 12, .rw, .staged, .any⟩, ⟨12, 1, .rw, .live, .any⟩]⟩,
    ⟨0x700280, 16, 0x0, [⟨0, 1, .rw, .staged, .any⟩, ⟨12, 32, .rw, .staged, .any⟩]⟩,
    ⟨0x780280, 16, 0x0, [⟨0, 1, .rw, .staged, .any⟩, ⟨12, 32, .rw, .staged, .any⟩]⟩,
    ⟨0x700400, 1, 0x0, [⟨0, 32, .rc, .live, .any⟩, ⟨32, 32, .rc, .live, .any⟩]⟩,
    ⟨0x780400, 1, 0x0, [⟨0, 32, .rc, .live, .any⟩, ⟨32, 32, .rc, .live, .any⟩]⟩,
    ⟨0x700408, 1, 0x0, [⟨0, 32, .rc, .live, .any⟩, ⟨32, 32, .rc, .live, .any⟩]⟩,
    ⟨0x780408, 1, 0x0, [⟨0, 32, .rc, .live, .any⟩, ⟨32, 32, .rc, .live, .any⟩]⟩,
    ⟨0x700410, 1, 0x0, [⟨0, 16, .rc, .live, .any⟩, ⟨16, 16, .rc, .live, .any⟩, ⟨32, 16, .rc, .live, .any⟩, ⟨48, 16, .rc, .live, .any⟩]⟩,
    ⟨0x780410, 1, 0x0, [⟨0, 16, .rc, .live, .any⟩, ⟨16, 16, .rc, .live, .any⟩, ⟨32, 16, .rc, .live, .any⟩, ⟨48, 16, .rc, .live, .any⟩]⟩,
    ⟨0x700420, 1, 0x0, [⟨0, 1, .w1c, .live, .any⟩, ⟨1, 1, .w1c, .live, .any⟩, ⟨2, 1, .w1c, .live, .any⟩, ⟨3, 1, .w1c, .live, .any⟩]⟩,
    ⟨0x780420, 1, 0x0, [⟨0, 1, .w1c, .live, .any⟩, ⟨1, 1, .w1c, .live, .any⟩, ⟨2, 1, .w1c, .live, .any⟩, ⟨3, 1, .w1c, .live, .any⟩]⟩ ]

/-- Window FAB (Table REG-1). -/
def regsFAB : List RegDesc :=
  [ ⟨0x800100, 1, 0xbe5200000000, [⟨0, 1, .rw, .live, .any⟩, ⟨1, 2, .rw, .locked, .any⟩, ⟨3, 1, .rw, .locked, .any⟩, ⟨4, 1, .rw, .staged, .any⟩, ⟨5, 1, .rw, .locked, .any⟩, ⟨6, 12, .rw, .locked, .any⟩, ⟨18, 3, .rw, .locked, .any⟩, ⟨21, 6, .rw, .staged, .any⟩, ⟨32, 16, .rw, .locked, .any⟩]⟩,
    ⟨0x800108, 1, 0x0, [⟨0, 18, .rw, .locked, .any⟩]⟩,
    ⟨0x800110, 1, 0x7281400c8, [⟨0, 16, .rw, .staged, .range 10 65535⟩, ⟨16, 8, .rw, .staged, .range 2 255⟩, ⟨24, 8, .rw, .staged, .range 8 255⟩, ⟨32, 4, .rw, .staged, .range 1 15⟩]⟩,
    ⟨0x800118, 1, 0x20064271001f4, [⟨0, 16, .rw, .staged, .range 50 10000⟩, ⟨16, 16, .rw, .staged, .range 1000 65535⟩, ⟨32, 16, .rw, .staged, .range 1 60000⟩, ⟨48, 8, .rw, .staged, .range 1 255⟩]⟩,
    ⟨0x800120, 1, 0x10000000000600, [⟨0, 12, .rw, .staged, .poolSize⟩, ⟨48, 8, .rw, .staged, .range 1 128⟩]⟩,
    ⟨0x800128, 1, 0xa0a0a400400, [⟨0, 4, .rw, .live, .any⟩, ⟨4, 4, .w1s, .live, .any⟩, ⟨8, 8, .rw, .staged, .below 0 255 16 8⟩, ⟨16, 8, .rw, .staged, .above 0 255 8 8⟩, ⟨24, 8, .rw, .staged, .range 1 255⟩, ⟨32, 8, .rw, .staged, .range 1 255⟩, ⟨40, 8, .rw, .staged, .range 1 255⟩]⟩,
    ⟨0x800130, 1, 0x0, [⟨0, 32, .rw, .live, .notBelowCurrent⟩]⟩,
    ⟨0x800180, 4, 0x0, [⟨48, 16, .rc, .live, .any⟩]⟩,
    ⟨0x8001a0, 4, 0x0, [⟨0, 16, .rc, .live, .any⟩, ⟨16, 16, .rc, .live, .any⟩, ⟨32, 16, .rc, .live, .any⟩, ⟨48, 16, .rc, .live, .any⟩]⟩,
    ⟨0x800200, 1, 0x0, [⟨0, 16, .rw, .live, .any⟩, ⟨16, 1, .rw, .live, .any⟩, ⟨17, 4, .rw, .live, .any⟩, ⟨32, 32, .rw, .live, .any⟩]⟩,
    ⟨0x800208, 1, 0x0, [⟨0, 44, .rw, .live, .any⟩, ⟨44, 20, .rw, .live, .any⟩]⟩,
    ⟨0x800210, 1, 0x0, [⟨0, 44, .rw, .live, .any⟩]⟩,
    ⟨0x800218, 1, 0x0, [⟨0, 18, .rw, .live, .any⟩, ⟨18, 2, .wo, .live, .any⟩]⟩,
    ⟨0x800300, 1, 0x0, [⟨0, 32, .rc, .live, .any⟩, ⟨32, 32, .rc, .live, .any⟩]⟩,
    ⟨0x800308, 1, 0x0, [⟨0, 32, .rc, .live, .any⟩, ⟨32, 32, .rc, .live, .any⟩]⟩,
    ⟨0x800310, 1, 0x0, [⟨0, 32, .rc, .live, .any⟩, ⟨32, 32, .rc, .live, .any⟩]⟩,
    ⟨0x800318, 1, 0x0, [⟨0, 16, .rc, .live, .any⟩, ⟨16, 16, .rc, .live, .any⟩, ⟨32, 16, .rc, .live, .any⟩, ⟨48, 16, .rc, .live, .any⟩]⟩,
    ⟨0x800320, 1, 0x0, [⟨0, 16, .rc, .live, .any⟩, ⟨16, 16, .rc, .live, .any⟩, ⟨32, 16, .rc, .live, .any⟩, ⟨48, 16, .rc, .live, .any⟩]⟩,
    ⟨0x800328, 1, 0x0, [⟨0, 32, .rc, .live, .any⟩, ⟨32, 32, .rc, .live, .any⟩]⟩,
    ⟨0x800380, 1, 0x0, [⟨0, 1, .w1c, .live, .any⟩, ⟨4, 1, .w1c, .live, .any⟩, ⟨5, 1, .w1c, .live, .any⟩]⟩,
    ⟨0x800400, 1, 0x0, [⟨0, 20, .rw, .live, .any⟩]⟩,
    ⟨0x800408, 1, 0x0, []⟩ ]

/-- Window PE (Table REG-1). -/
def regsPE : List RegDesc :=
  [ ⟨0x900100, 1, 0xa01, [⟨0, 1, .rw, .live, .any⟩, ⟨8, 8, .rw, .staged, .range 1 255⟩]⟩,
    ⟨0x900108, 1, 0xffffffffffffffff, [⟨0, 64, .rw, .live, .any⟩]⟩,
    ⟨0x900110, 1, 0x0, []⟩,
    ⟨0x900118, 1, 0x0, [⟨0, 1, .w1c, .live, .any⟩, ⟨1, 1, .w1c, .live, .any⟩, ⟨2, 1, .w1c, .live, .any⟩, ⟨3, 1, .w1c, .live, .any⟩]⟩,
    ⟨0x900120, 1, 0x0, []⟩,
    ⟨0x900200, 16, 0x0, [⟨0, 12, .rw, .live, .any⟩, ⟨16, 12, .rw, .live, .any⟩]⟩,
    ⟨0x900280, 16, 0x0, []⟩,
    ⟨0x900300, 1, 0x0, [⟨0, 14, .rw, .live, .any⟩]⟩,
    ⟨0x900308, 1, 0x0, []⟩,
    ⟨0x900310, 1, 0x0, [⟨0, 12, .rw, .live, .any⟩]⟩,
    ⟨0x900318, 1, 0x0, []⟩,
    ⟨0x900320, 1, 0x0, []⟩,
    ⟨0x900400, 1, 0x0, [⟨0, 32, .rc, .live, .any⟩, ⟨32, 32, .rc, .live, .any⟩]⟩,
    ⟨0x900408, 1, 0x0, [⟨0, 32, .rc, .live, .any⟩, ⟨32, 32, .rc, .live, .any⟩]⟩,
    ⟨0x900410, 1, 0x0, [⟨0, 32, .rc, .live, .any⟩, ⟨32, 32, .rc, .live, .any⟩]⟩,
    ⟨0x900418, 1, 0x0, [⟨0, 32, .rc, .live, .any⟩, ⟨32, 32, .rc, .live, .any⟩]⟩ ]

/-- Window NC (Table REG-1). -/
def regsNC : List RegDesc :=
  [ ⟨0xa00100, 1, 0x5, [⟨0, 1, .rw, .live, .any⟩, ⟨1, 1, .w1s, .live, .any⟩, ⟨2, 1, .rw, .staged, .any⟩]⟩,
    ⟨0xa00108, 1, 0x0, []⟩,
    ⟨0xa00110, 1, 0x0, []⟩,
    ⟨0xa00300, 1, 0x0, [⟨0, 32, .rc, .live, .any⟩, ⟨32, 32, .rc, .live, .any⟩]⟩,
    ⟨0xa00308, 1, 0x0, [⟨0, 32, .rc, .live, .any⟩, ⟨32, 32, .rc, .live, .any⟩]⟩,
    ⟨0xa00380, 1, 0x0, [⟨0, 1, .w1c, .live, .any⟩, ⟨1, 1, .w1c, .live, .any⟩]⟩ ]

/-- Window TIR (Table REG-1). -/
def regsTIR : List RegDesc :=
  [ ⟨0xb00100, 1, 0x6400000000, [⟨1, 1, .rw, .live, .any⟩, ⟨16, 16, .rw, .staged, .any⟩, ⟨32, 8, .rw, .staged, .range 10 255⟩]⟩,
    ⟨0xb00108, 1, 0x0, []⟩,
    ⟨0xb00110, 1, 0x0, []⟩,
    ⟨0xb00118, 1, 0x0, []⟩,
    ⟨0xb00120, 1, 0x0, []⟩,
    ⟨0xb00128, 1, 0x0, []⟩,
    ⟨0xb00180, 1, 0x0, [⟨0, 12, .rw, .live, .any⟩]⟩,
    ⟨0xb00188, 1, 0x0, []⟩,
    ⟨0xb00300, 1, 0x0, [⟨0, 32, .rc, .live, .any⟩, ⟨32, 32, .rc, .live, .any⟩]⟩,
    ⟨0xb00308, 1, 0x0, [⟨0, 32, .rc, .live, .any⟩, ⟨32, 32, .rc, .live, .any⟩]⟩,
    ⟨0xb00310, 1, 0x0, [⟨0, 16, .rc, .live, .any⟩, ⟨16, 16, .rc, .live, .any⟩, ⟨32, 16, .rc, .live, .any⟩, ⟨48, 16, .rc, .live, .any⟩]⟩,
    ⟨0xb00380, 1, 0x0, [⟨1, 1, .w1c, .live, .any⟩, ⟨2, 1, .w1c, .live, .any⟩]⟩ ]

/-- Window CIP (Table REG-1). -/
def regsCIP : List RegDesc :=
  [ ⟨0xc00100, 1, 0x114, [⟨0, 8, .rw, .staged, .range 1 255⟩, ⟨8, 1, .rw, .staged, .any⟩]⟩,
    ⟨0xc00108, 1, 0x0, []⟩,
    ⟨0xc00110, 1, 0x0, []⟩,
    ⟨0xc00118, 1, 0x3, []⟩,
    ⟨0xc00120, 1, 0x0, []⟩,
    ⟨0xc00180, 1, 0x0, [⟨0, 14, .rw, .live, .any⟩]⟩,
    ⟨0xc00188, 1, 0x0, [⟨0, 1, .rw, .live, .any⟩]⟩,
    ⟨0xc00200, 12, 0x0, []⟩,
    ⟨0xc00300, 1, 0x0, [⟨0, 32, .rc, .live, .any⟩, ⟨32, 32, .rc, .live, .any⟩]⟩,
    ⟨0xc00308, 1, 0x0, [⟨0, 32, .rc, .live, .any⟩, ⟨32, 32, .rc, .live, .any⟩]⟩,
    ⟨0xc00310, 1, 0x0, [⟨0, 16, .rc, .live, .any⟩, ⟨16, 16, .rc, .live, .any⟩, ⟨32, 32, .rc, .live, .any⟩]⟩,
    ⟨0xc00318, 1, 0x0, [⟨0, 16, .rc, .live, .any⟩, ⟨16, 16, .rc, .live, .any⟩, ⟨32, 16, .rc, .live, .any⟩, ⟨48, 16, .rc, .live, .any⟩]⟩,
    ⟨0xc00380, 1, 0x0, [⟨0, 1, .w1c, .live, .any⟩, ⟨1, 1, .w1c, .live, .any⟩, ⟨4, 1, .w1c, .live, .any⟩]⟩ ]

/-- Window MEM (Table REG-1). -/
def regsMEM : List RegDesc :=
  [ ⟨0xd00100, 1, 0x0, []⟩,
    ⟨0xd00108, 1, 0x0, []⟩,
    ⟨0xd00110, 1, 0x5f404003, [⟨0, 1, .rw, .live, .any⟩, ⟨1, 1, .rw, .staged, .any⟩, ⟨8, 8, .rw, .staged, .range 1 128⟩, ⟨16, 8, .rw, .staged, .range 4 255⟩, ⟨24, 8, .rw, .staged, .range 85 105⟩]⟩,
    ⟨0xd00118, 1, 0x231, [⟨0, 1, .rw, .live, .any⟩, ⟨1, 8, .rw, .staged, .range 1 168⟩, ⟨9, 1, .rw, .staged, .any⟩]⟩,
    ⟨0xd00120, 1, 0x0, []⟩,
    ⟨0xd00128, 1, 0x0, []⟩,
    ⟨0xd00180, 1, 0x0, [⟨0, 4, .rw, .live, .any⟩]⟩,
    ⟨0xd00188, 1, 0x0, []⟩,
    ⟨0xd00190, 8, 0x0, []⟩,
    ⟨0xd001e0, 1, 0x0, []⟩,
    ⟨0xd00300, 1, 0x0, [⟨0, 32, .rc, .live, .any⟩, ⟨32, 32, .rc, .live, .any⟩]⟩,
    ⟨0xd00308, 1, 0x0, [⟨0, 32, .rc, .live, .any⟩, ⟨32, 32, .rc, .live, .any⟩]⟩,
    ⟨0xd00310, 1, 0x0, [⟨0, 16, .rc, .live, .any⟩, ⟨16, 16, .rc, .live, .any⟩, ⟨32, 16, .rc, .live, .any⟩, ⟨48, 16, .rc, .live, .any⟩]⟩,
    ⟨0xd00318, 1, 0x0, [⟨0, 32, .rc, .live, .any⟩, ⟨32, 32, .rc, .live, .any⟩]⟩,
    ⟨0xd00380, 1, 0x0, [⟨1, 1, .w1c, .live, .any⟩, ⟨2, 1, .w1c, .live, .any⟩, ⟨3, 1, .w1c, .live, .any⟩, ⟨4, 1, .w1c, .live, .any⟩, ⟨5, 1, .w1c, .live, .any⟩]⟩ ]

/-- Window CAL (Table REG-1). -/
def regsCAL : List RegDesc :=
  [ ⟨0xe00100, 1, 0x64143f, [⟨0, 1, .rw, .staged, .any⟩, ⟨1, 1, .rw, .staged, .any⟩, ⟨2, 1, .rw, .staged, .any⟩, ⟨3, 1, .rw, .staged, .any⟩, ⟨4, 1, .rw, .staged, .any⟩, ⟨5, 1, .rw, .live, .any⟩, ⟨8, 8, .rw, .live, .range 5 60⟩, ⟨16, 16, .rw, .staged, .range 10 10000⟩]⟩,
    ⟨0xe00108, 1, 0x0, []⟩,
    ⟨0xe00110, 1, 0x0, [⟨0, 3, .rw, .live, .range 0 5⟩, ⟨8, 5, .rw, .live, .any⟩, ⟨16, 7, .rw, .live, .any⟩, ⟨23, 1, .rw, .live, .any⟩]⟩,
    ⟨0xe00118, 1, 0x0, []⟩,
    ⟨0xe00120, 1, 0x0, []⟩,
    ⟨0xe00128, 1, 0x0, [⟨0, 3, .rw, .live, .range 0 5⟩, ⟨8, 5, .rw, .live, .any⟩, ⟨13, 2, .wo, .live, .any⟩]⟩,
    ⟨0xe00300, 1, 0x0, [⟨0, 16, .rc, .live, .any⟩, ⟨16, 16, .rc, .live, .any⟩, ⟨32, 16, .rc, .live, .any⟩, ⟨48, 16, .rc, .live, .any⟩]⟩,
    ⟨0xe00380, 1, 0x0, [⟨3, 1, .w1c, .live, .any⟩, ⟨4, 1, .w1c, .live, .any⟩, ⟨5, 1, .w1c, .live, .any⟩]⟩ ]

/-- Window CFL (Table REG-1). -/
def regsCFL : List RegDesc :=
  [ ⟨0xf00100, 1, 0x1e010a, [⟨0, 5, .rw, .staged, .range 4 15⟩, ⟨8, 1, .rw, .live, .any⟩, ⟨16, 8, .rw, .staged, .range 1 255⟩]⟩,
    ⟨0xf00108, 1, 0x0, [⟨0, 26, .rw, .live, .any⟩, ⟨28, 4, .wo, .live, .any⟩]⟩,
    ⟨0xf00200, 32, 0x0, [⟨0, 64, .rw, .live, .any⟩]⟩,
    ⟨0xf00110, 1, 0x0, []⟩,
    ⟨0xf00120, 1, 0x0, []⟩,
    ⟨0xf00180, 1, 0x0, [⟨0, 14, .rw, .live, .any⟩]⟩,
    ⟨0xf00188, 1, 0x0, []⟩,
    ⟨0xf00190, 1, 0x0, [⟨0, 14, .wo, .live, .any⟩, ⟨16, 16, .wo, .live, .any⟩]⟩,
    ⟨0xf00400, 256, 0x0, [⟨0, 64, .w1s, .live, .any⟩]⟩,
    ⟨0xf00300, 1, 0x0, [⟨0, 32, .rc, .live, .any⟩, ⟨32, 32, .rc, .live, .any⟩]⟩,
    ⟨0xf00308, 1, 0x0, [⟨0, 16, .rc, .live, .any⟩, ⟨16, 16, .rc, .live, .any⟩, ⟨32, 16, .rc, .live, .any⟩, ⟨48, 16, .rc, .live, .any⟩]⟩,
    ⟨0xf00380, 1, 0x0, [⟨0, 1, .w1c, .live, .any⟩, ⟨1, 1, .w1c, .live, .any⟩, ⟨2, 1, .w1c, .live, .any⟩, ⟨3, 1, .w1c, .live, .any⟩, ⟨4, 1, .w1c, .live, .any⟩, ⟨5, 1, .w1c, .live, .any⟩, ⟨6, 1, .w1c, .live, .any⟩, ⟨7, 1, .w1c, .live, .any⟩]⟩ ]

/-- Window REC (Table REG-1). -/
def regsREC : List RegDesc :=
  [ ⟨0x1000100, 1, 0x3e8100021, [⟨0, 3, .rw, .live, .range 0 4⟩, ⟨3, 3, .rw, .live, .range 3 7⟩, ⟨8, 16, .rw, .staged, .range 64 8192⟩, ⟨24, 16, .rw, .staged, .range 10 60000⟩]⟩,
    ⟨0x1000108, 1, 0x0, []⟩,
    ⟨0x1000110, 1, 0x0, []⟩,
    ⟨0x1000118, 1, 0x0, []⟩,
    ⟨0x1000180, 1, 0x0, [⟨0, 32, .rw, .live, .any⟩, ⟨32, 1, .rw, .live, .any⟩]⟩,
    ⟨0x1000200, 8, 0x0, []⟩,
    ⟨0x1000300, 1, 0x0, [⟨0, 32, .rc, .live, .any⟩, ⟨32, 32, .rc, .live, .any⟩]⟩,
    ⟨0x1000308, 1, 0x0, [⟨0, 32, .rc, .live, .any⟩, ⟨32, 32, .rc, .live, .any⟩]⟩,
    ⟨0x1000380, 1, 0x0, [⟨1, 1, .w1c, .live, .any⟩, ⟨2, 1, .w1c, .live, .any⟩]⟩ ]

/-- Window PMU (Table REG-1). -/
def regsPMU : List RegDesc :=
  [ ⟨0x1100100, 1, 0x1, [⟨0, 1, .rw, .live, .any⟩, ⟨1, 1, .wo, .live, .any⟩]⟩,
    ⟨0x1100200, 32, 0x0, [⟨0, 1, .rw, .live, .any⟩, ⟨1, 1, .rw, .live, .any⟩]⟩,
    ⟨0x1100300, 8, 0x0, [⟨0, 64, .w1c, .live, .any⟩]⟩,
    ⟨0x1101000, 512, 0x0, [⟨0, 10, .rw, .live, .any⟩, ⟨10, 12, .rw, .live, .any⟩, ⟨22, 1, .rw, .live, .any⟩, ⟨23, 6, .rw, .live, .any⟩, ⟨29, 1, .rw, .live, .any⟩, ⟨30, 1, .rw, .live, .oddOnly⟩]⟩,
    ⟨0x1102000, 512, 0x0, [⟨0, 48, .rw, .live, .any⟩]⟩ ]

/-- Window DBG (Table REG-1). -/
def regsDBG : List RegDesc :=
  [ ⟨0x1200100, 1, 0x500, [⟨1, 1, .w1s, .live, .any⟩, ⟨2, 1, .rw, .live, .unlocked 0 1⟩, ⟨3, 1, .w1s, .live, .any⟩, ⟨4, 1, .w1s, .live, .any⟩, ⟨5, 1, .w1s, .live, .any⟩, ⟨7, 1, .w1c, .live, .any⟩, ⟨8, 8, .rw, .live, .unlocked 1 60⟩]⟩,
    ⟨0x1200108, 1, 0x0, []⟩,
    ⟨0x1200110, 1, 0x0, [⟨0, 64, .rw, .live, .any⟩]⟩,
    ⟨0x1200120, 4, 0x0, [⟨0, 64, .wo, .live, .any⟩]⟩,
    ⟨0x1200140, 1, 0x0, [⟨0, 16, .wo, .live, .any⟩]⟩,
    ⟨0x1200300, 1, 0x0, [⟨0, 32, .rc, .live, .any⟩, ⟨32, 32, .rc, .live, .any⟩]⟩ ]

/-- Window SVC (Table REG-1). -/
def regsSVC : List RegDesc :=
  [ ⟨0x1300100, 1, 0x0, [⟨0, 4, .wo, .live, .any⟩, ⟨4, 3, .rw, .live, .any⟩, ⟨8, 8, .rw, .live, .any⟩, ⟨16, 3, .rw, .live, .any⟩]⟩,
    ⟨0x1300108, 1, 0x28280a03e8, [⟨0, 16, .rw, .staged, .range 100 10000⟩, ⟨16, 8, .rw, .staged, .range 1 255⟩, ⟨24, 8, .rw, .staged, .range 1 48⟩, ⟨32, 8, .rw, .staged, .range 1 255⟩]⟩,
    ⟨0x1300110, 1, 0x0, []⟩,
    ⟨0x1300118, 1, 0x0, []⟩,
    ⟨0x1300120, 1, 0x0, []⟩,
    ⟨0x1300300, 1, 0x0, [⟨0, 16, .rc, .live, .any⟩, ⟨16, 16, .rc, .live, .any⟩, ⟨32, 16, .rc, .live, .any⟩, ⟨48, 16, .rc, .live, .any⟩]⟩,
    ⟨0x1300380, 1, 0x0, [⟨0, 1, .w1c, .live, .any⟩, ⟨1, 1, .w1c, .live, .any⟩, ⟨2, 1, .w1c, .live, .any⟩, ⟨3, 1, .w1c, .live, .any⟩]⟩ ]

/-- The windows of Table REG-1 in order of base: described registers and the count BLK_ID reports. -/
def regWindows : List (List RegDesc × Nat) :=
  [ (regsGEN, 128),
    (regsSEQ, 64),
    (regsLPS, 16),
    (regsMOD, 128),
    (regsPST, 192),
    (regsPHL, 160),
    (regsDST, 320),
    (regsHST, 1024),
    (regsFAB, 960),
    (regsPE, 320),
    (regsNC, 96),
    (regsTIR, 128),
    (regsCIP, 192),
    (regsMEM, 512),
    (regsCAL, 320),
    (regsCFL, 320),
    (regsREC, 64),
    (regsPMU, 1072),
    (regsDBG, 32),
    (regsSVC, 96) ]

/-! Addresses of the registers. -/

def Addr.GEN_ISLAND_STATE : Nat := 0x400
def Addr.GEN_XERR : Nat := 0x408
def Addr.PST_ATOM_CTL : Nat := 0x400100
def Addr.PST_DUR_CNT0 : Nat := 0x400108
def Addr.PST_DUR_CNT1 : Nat := 0x400110
def Addr.HST_PORT_CTL (p : Port) : Nat := 0x700100 + p.regOffset
def Addr.HST_ADM_CTL (p : Port) : Nat := 0x700108 + p.regOffset
def Addr.HST_FENCE_CTL (p : Port) : Nat := 0x700110 + p.regOffset
def Addr.HST_PORT_STATUS (p : Port) : Nat := 0x700118 + p.regOffset
def Addr.HST_LD_MAP (p : Port) (n : Nat) : Nat := 0x700200 + p.regOffset + 8 * n
def Addr.HST_LD_FENCE (p : Port) (n : Nat) : Nat := 0x700280 + p.regOffset + 8 * n
def Addr.HST_CNT0 (p : Port) : Nat := 0x700400 + p.regOffset
def Addr.HST_CNT1 (p : Port) : Nat := 0x700408 + p.regOffset
def Addr.HST_CNT2 (p : Port) : Nat := 0x700410 + p.regOffset
def Addr.HST_ERR (p : Port) : Nat := 0x700420 + p.regOffset
def Addr.PE_CTL : Nat := 0x900100
def Addr.PE_ENGINE_EN : Nat := 0x900108
def Addr.PE_STATUS : Nat := 0x900110
def Addr.PE_ERR : Nat := 0x900118
def Addr.PE_LOAD_STATUS : Nat := 0x900120
def Addr.PE_PQ_DB (n : Nat) : Nat := 0x900200 + 8 * n
def Addr.PE_PQ_BASE (n : Nat) : Nat := 0x900280 + 8 * n
def Addr.PE_QP_SEL : Nat := 0x900300
def Addr.PE_QP_INFO : Nat := 0x900308
def Addr.PE_TEN_SEL : Nat := 0x900310
def Addr.PE_TEN_INFO : Nat := 0x900318
def Addr.PE_TEN_CTX : Nat := 0x900320
def Addr.PE_CNT0 : Nat := 0x900400
def Addr.PE_CNT1 : Nat := 0x900408
def Addr.PE_CNT2 : Nat := 0x900410
def Addr.PE_CNT3 : Nat := 0x900418
def Addr.FAB_CTL : Nat := 0x800100
def Addr.FAB_NODE : Nat := 0x800108
def Addr.FAB_TIMER0 : Nat := 0x800110
def Addr.FAB_TIMER1 : Nat := 0x800118
def Addr.FAB_CREDIT : Nat := 0x800120
def Addr.FAB_PATH_CTL : Nat := 0x800128
def Addr.FAB_KEY_EPOCH : Nat := 0x800130
def Addr.FAB_PATH_STATUS (n : Nat) : Nat := 0x800180 + 8 * n
def Addr.FAB_PATH_CNT (n : Nat) : Nat := 0x8001a0 + 8 * n
def Addr.FAB_KEY_DATA0 : Nat := 0x800200
def Addr.FAB_KEY_DATA1 : Nat := 0x800208
def Addr.FAB_KEY_DATA2 : Nat := 0x800210
def Addr.FAB_KEY_CMD : Nat := 0x800218
def Addr.FAB_CNT0 : Nat := 0x800300
def Addr.FAB_CNT1 : Nat := 0x800308
def Addr.FAB_CNT2 : Nat := 0x800310
def Addr.FAB_CNT3 : Nat := 0x800318
def Addr.FAB_CNT4 : Nat := 0x800320
def Addr.FAB_CNT5 : Nat := 0x800328
def Addr.FAB_ERR : Nat := 0x800380
def Addr.FAB_SESS_SEL : Nat := 0x800400
def Addr.FAB_SESS_INFO : Nat := 0x800408
def Addr.PHL_CTL : Nat := 0x500100
def Addr.PHL_LEASE : Nat := 0x500108
def Addr.PHL_FB_CTL : Nat := 0x500110
def Addr.PHL_STATUS : Nat := 0x500118
def Addr.PHL_MSN : Nat := 0x500120
def Addr.PHL_RESYNC : Nat := 0x500128
def Addr.PHL_CNT0 : Nat := 0x500200
def Addr.PHL_CNT1 : Nat := 0x500208
def Addr.PHL_CNT2 : Nat := 0x500210
def Addr.PHL_CNT3 : Nat := 0x500218
def Addr.PHL_ERR : Nat := 0x500280
def Addr.DST_CEIL_CTL : Nat := 0x600100
def Addr.DST_CEIL_STATUS : Nat := 0x600108
def Addr.DST_LEVEL : Nat := 0x600110
def Addr.DST_SAVE_PRED : Nat := 0x600118
def Addr.DST_HUP_CFG : Nat := 0x600140
def Addr.DST_HUP_CTL : Nat := 0x600148
def Addr.DST_HUP_RATED : Nat := 0x600150
def Addr.DST_HUP_MEAS : Nat := 0x600158
def Addr.DST_TEN_SEL : Nat := 0x600180
def Addr.DST_TEN_CEIL : Nat := 0x600188
def Addr.DST_NAND_CFG : Nat := 0x6001c0
def Addr.DST_WEAR : Nat := 0x6001c8
def Addr.DST_PAGE_Q : Nat := 0x600200
def Addr.DST_RESTORE : Nat := 0x600208
def Addr.DST_CNT0 : Nat := 0x600300
def Addr.DST_CNT1 : Nat := 0x600308
def Addr.DST_CNT2 : Nat := 0x600310
def Addr.DST_CNT3 : Nat := 0x600318
def Addr.DST_ERR : Nat := 0x600380
def Addr.TIR_PLACE_CTL : Nat := 0xb00100
def Addr.TIR_PLAN_STATUS : Nat := 0xb00108
def Addr.TIR_PLAN_ID : Nat := 0xb00110
def Addr.TIR_PLAN_USE : Nat := 0xb00118
def Addr.TIR_LEND_STATUS : Nat := 0xb00120
def Addr.TIR_LOANS : Nat := 0xb00128
def Addr.TIR_TEN_SEL : Nat := 0xb00180
def Addr.TIR_TEN_RES : Nat := 0xb00188
def Addr.TIR_CNT0 : Nat := 0xb00300
def Addr.TIR_CNT1 : Nat := 0xb00308
def Addr.TIR_CNT2 : Nat := 0xb00310
def Addr.TIR_ERR : Nat := 0xb00380
def Addr.NC_CTL : Nat := 0xa00100
def Addr.NC_STATUS : Nat := 0xa00108
def Addr.NC_DIRTY : Nat := 0xa00110
def Addr.NC_CNT0 : Nat := 0xa00300
def Addr.NC_CNT1 : Nat := 0xa00308
def Addr.NC_ERR : Nat := 0xa00380
def Addr.CIP_CTL : Nat := 0xc00100
def Addr.CIP_STATUS : Nat := 0xc00108
def Addr.CIP_QUAR : Nat := 0xc00110
def Addr.CIP_ROOTS : Nat := 0xc00118
def Addr.CIP_PAR_LOG : Nat := 0xc00120
def Addr.CIP_CTX_SEL : Nat := 0xc00180
def Addr.CIP_CTX_MODE : Nat := 0xc00188
def Addr.CIP_ID_PUB (n : Nat) : Nat := 0xc00200 + 8 * n
def Addr.CIP_CNT0 : Nat := 0xc00300
def Addr.CIP_CNT1 : Nat := 0xc00308
def Addr.CIP_CNT2 : Nat := 0xc00310
def Addr.CIP_CNT3 : Nat := 0xc00318
def Addr.CIP_ERR : Nat := 0xc00380
def Addr.MEM_POP : Nat := 0xd00100
def Addr.MEM_CAP : Nat := 0xd00108
def Addr.MEM_CTL : Nat := 0xd00110
def Addr.MEM_SCRUB_CTL : Nat := 0xd00118
def Addr.MEM_SCRUB_STATUS : Nat := 0xd00120
def Addr.MEM_FILL_STATUS : Nat := 0xd00128
def Addr.MEM_CH_SEL : Nat := 0xd00180
def Addr.MEM_CH_STATUS : Nat := 0xd00188
def Addr.MEM_REMAP (n : Nat) : Nat := 0xd00190 + 8 * n
def Addr.MEM_ERR_LOG : Nat := 0xd001e0
def Addr.MEM_CNT0 : Nat := 0xd00300
def Addr.MEM_CNT1 : Nat := 0xd00308
def Addr.MEM_CNT2 : Nat := 0xd00310
def Addr.MEM_CNT3 : Nat := 0xd00318
def Addr.MEM_ERR : Nat := 0xd00380
def Addr.SEQ_CTL : Nat := 0x100100
def Addr.SEQ_CMD : Nat := 0x100108
def Addr.SEQ_STATUS : Nat := 0x100110
def Addr.SEQ_RAILS : Nat := 0x100118
def Addr.SEQ_CH_FAILED : Nat := 0x100120
def Addr.SEQ_CH_CMD : Nat := 0x100128
def Addr.SEQ_CASC : Nat := 0x100130
def Addr.SEQ_FAULT : Nat := 0x100138
def Addr.SEQ_FAULT_TIME : Nat := 0x100140
def Addr.SEQ_CNT0 : Nat := 0x100148
def Addr.SEQ_SNS_RD (n : Nat) : Nat := 0x100150 + 8 * n
def Addr.SEQ_CH_CFG (n : Nat) : Nat := 0x100200 + 8 * n
def Addr.SEQ_SNS (n : Nat) : Nat := 0x100300 + 8 * n
def Addr.SEQ_RST (n : Nat) : Nat := 0x100380 + 8 * n
def Addr.CAL_CTL : Nat := 0xe00100
def Addr.CAL_STATUS : Nat := 0xe00108
def Addr.CAL_SEL : Nat := 0xe00110
def Addr.CAL_RESULT : Nat := 0xe00118
def Addr.CAL_NAND_OFS : Nat := 0xe00120
def Addr.CAL_CMD : Nat := 0xe00128
def Addr.CAL_CNT0 : Nat := 0xe00300
def Addr.CAL_ERR : Nat := 0xe00380
def Addr.CFL_CTL : Nat := 0xf00100
def Addr.CFL_CMD : Nat := 0xf00108
def Addr.CFL_BUF (n : Nat) : Nat := 0xf00200 + 8 * n
def Addr.CFL_STATUS : Nat := 0xf00110
def Addr.CFL_WEAR : Nat := 0xf00120
def Addr.CFL_SECT_SEL : Nat := 0xf00180
def Addr.CFL_SECT_INFO : Nat := 0xf00188
def Addr.CFL_WP_CLR : Nat := 0xf00190
def Addr.CFL_WP (n : Nat) : Nat := 0xf00400 + 8 * n
def Addr.CFL_CNT0 : Nat := 0xf00300
def Addr.CFL_CNT1 : Nat := 0xf00308
def Addr.CFL_ERR : Nat := 0xf00380
def Addr.LPS_CTL : Nat := 0x200100
def Addr.LPS_HAZE_MASK : Nat := 0x200108
def Addr.LPS_STATUS : Nat := 0x200110
def Addr.LPS_CMD : Nat := 0x200118
def Addr.LPS_PAD : Nat := 0x200120
def Addr.LPS_WAKE : Nat := 0x200128
def Addr.LPS_LOST : Nat := 0x200130
def Addr.LPS_LIST : Nat := 0x200180
def Addr.LPS_CNT0 : Nat := 0x200300
def Addr.MOD_CTL : Nat := 0x300100
def Addr.MOD_STATUS : Nat := 0x300108
def Addr.MOD_CMD : Nat := 0x300110
def Addr.MOD_ENTER_TIME : Nat := 0x300118
def Addr.MOD_CNT0 : Nat := 0x300300
def Addr.MOD_ERR : Nat := 0x300380
def Addr.REC_CTL : Nat := 0x1000100
def Addr.REC_STATUS : Nat := 0x1000108
def Addr.REC_RECNO : Nat := 0x1000110
def Addr.REC_CLEAR_PT : Nat := 0x1000118
def Addr.REC_RD_SEL : Nat := 0x1000180
def Addr.REC_RD_DATA (n : Nat) : Nat := 0x1000200 + 8 * n
def Addr.REC_CNT0 : Nat := 0x1000300
def Addr.REC_CNT1 : Nat := 0x1000308
def Addr.REC_ERR : Nat := 0x1000380
def Addr.PMU_CTL : Nat := 0x1100100
def Addr.PMU_GRP (n : Nat) : Nat := 0x1100200 + 8 * n
def Addr.PMU_OVF (n : Nat) : Nat := 0x1100300 + 8 * n
def Addr.PMU_SEL (n : Nat) : Nat := 0x1101000 + 8 * n
def Addr.PMU_CNT (n : Nat) : Nat := 0x1102000 + 8 * n
def Addr.DBG_CTL : Nat := 0x1200100
def Addr.DBG_NONCE : Nat := 0x1200108
def Addr.DBG_AUTH_ARG : Nat := 0x1200110
def Addr.DBG_AUTH_TAG (n : Nat) : Nat := 0x1200120 + 8 * n
def Addr.DBG_AUTH_CMD : Nat := 0x1200140
def Addr.DBG_CNT0 : Nat := 0x1200300
def Addr.SVC_CMD : Nat := 0x1300100
def Addr.SVC_CTL : Nat := 0x1300108
def Addr.SVC_STATUS : Nat := 0x1300110
def Addr.SVC_FW : Nat := 0x1300118
def Addr.SVC_MCODE : Nat := 0x1300120
def Addr.SVC_CNT0 : Nat := 0x1300300
def Addr.SVC_ERR : Nat := 0x1300380
def Addr.GEN_ID : Nat := 0x100
def Addr.GEN_SERIAL : Nat := 0x108
def Addr.GEN_BOOT : Nat := 0x110
def Addr.GEN_TIME : Nat := 0x118
def Addr.GEN_PATH_CTL : Nat := 0x180
def Addr.GEN_ERR : Nat := 0x200
def Addr.GEN_ERR_LOG : Nat := 0x208
def Addr.GEN_CNT0 : Nat := 0x300
def Addr.GEN_MBOX_CMD : Nat := 0x500
def Addr.GEN_MBOX_ARG : Nat := 0x508
def Addr.GEN_THERM : Nat := 0x600

/-! Fields of the registers. -/

def F.GEN_ISLAND_STATE.AON : Fld := ⟨0x400, 0, 2⟩
def F.GEN_ISLAND_STATE.CTL : Fld := ⟨0x400, 2, 2⟩
def F.GEN_ISLAND_STATE.PE : Fld := ⟨0x400, 4, 2⟩
def F.GEN_ISLAND_STATE.HST : Fld := ⟨0x400, 6, 2⟩
def F.GEN_ISLAND_STATE.FAB : Fld := ⟨0x400, 8, 2⟩
def F.GEN_ISLAND_STATE.PHL : Fld := ⟨0x400, 10, 2⟩
def F.GEN_ISLAND_STATE.PST : Fld := ⟨0x400, 12, 2⟩
def F.GEN_ISLAND_STATE.DST : Fld := ⟨0x400, 14, 2⟩
def F.GEN_ISLAND_STATE.NC : Fld := ⟨0x400, 16, 2⟩
def F.GEN_ISLAND_STATE.TIR : Fld := ⟨0x400, 18, 2⟩
def F.GEN_ISLAND_STATE.CIP : Fld := ⟨0x400, 20, 2⟩
def F.GEN_ISLAND_STATE.MEM : Fld := ⟨0x400, 22, 2⟩
def F.GEN_ISLAND_STATE.CAL : Fld := ⟨0x400, 24, 2⟩
def F.GEN_ISLAND_STATE.CFL : Fld := ⟨0x400, 26, 2⟩
def F.GEN_ISLAND_STATE.REC : Fld := ⟨0x400, 28, 2⟩
def F.GEN_ISLAND_STATE.FROZEN : Fld := ⟨0x400, 30, 1⟩
def F.GEN_XERR.RETRIED : Fld := ⟨0x408, 0, 32⟩
def F.GEN_XERR.FAILED : Fld := ⟨0x408, 32, 16⟩
def F.GEN_XERR.LAST_XING : Fld := ⟨0x408, 48, 5⟩
def F.PST_ATOM_CTL.OPEN_LIMIT : Fld := ⟨0x400100, 0, 8⟩
def F.PST_ATOM_CTL.RESERVED_NOW : Fld := ⟨0x400100, 16, 16⟩
def F.PST_ATOM_CTL.OPEN_EXTENTS : Fld := ⟨0x400100, 32, 16⟩
def F.PST_ATOM_CTL.EFFECTIVE : Fld := ⟨0x400100, 48, 16⟩
def F.PST_DUR_CNT0.DOWNGRADED : Fld := ⟨0x400108, 0, 32⟩
def F.PST_DUR_CNT0.REFUSED : Fld := ⟨0x400108, 32, 32⟩
def F.PST_DUR_CNT1.TORN : Fld := ⟨0x400110, 0, 32⟩
def F.PST_DUR_CNT1.ROLLED_BACK : Fld := ⟨0x400110, 32, 32⟩
def F.HST_PORT_CTL.ENABLE (p : Port) : Fld := ⟨0x700100 + p.regOffset, 0, 1⟩
def F.HST_PORT_CTL.MLD (p : Port) : Fld := ⟨0x700100 + p.regOffset, 1, 1⟩
def F.HST_ADM_CTL.HOLD_POOL (p : Port) : Fld := ⟨0x700108 + p.regOffset, 0, 5⟩
def F.HST_ADM_CTL.LIGHT_PCT (p : Port) : Fld := ⟨0x700108 + p.regOffset, 8, 8⟩
def F.HST_ADM_CTL.MOD_PCT (p : Port) : Fld := ⟨0x700108 + p.regOffset, 16, 8⟩
def F.HST_FENCE_CTL.MAX_WAIT (p : Port) : Fld := ⟨0x700110 + p.regOffset, 0, 16⟩
def F.HST_PORT_STATUS.LINK (p : Port) : Fld := ⟨0x700118 + p.regOffset, 0, 2⟩
def F.HST_PORT_STATUS.WIDTH (p : Port) : Fld := ⟨0x700118 + p.regOffset, 2, 5⟩
def F.HST_PORT_STATUS.LD_ACTIVE (p : Port) : Fld := ⟨0x700118 + p.regOffset, 8, 16⟩
def F.HST_PORT_STATUS.CREDIT_WITHHELD (p : Port) : Fld := ⟨0x700118 + p.regOffset, 24, 1⟩
def F.HST_PORT_STATUS.SPEED (p : Port) : Fld := ⟨0x700118 + p.regOffset, 25, 3⟩
def F.HST_PORT_STATUS.HOLD_USED (p : Port) : Fld := ⟨0x700118 + p.regOffset, 32, 9⟩
def F.HST_LD_MAP.TENANT (p : Port) (n : Nat) : Fld := ⟨0x700200 + p.regOffset + 8 * n, 0, 12⟩
def F.HST_LD_MAP.ENABLE (p : Port) (n : Nat) : Fld := ⟨0x700200 + p.regOffset + 8 * n, 12, 1⟩
def F.HST_LD_FENCE.ENABLE (p : Port) (n : Nat) : Fld := ⟨0x700280 + p.regOffset + 8 * n, 0, 1⟩
def F.HST_LD_FENCE.DPA_PAGE (p : Port) (n : Nat) : Fld := ⟨0x700280 + p.regOffset + 8 * n, 12, 32⟩
def F.HST_CNT0.HELD (p : Port) : Fld := ⟨0x700400 + p.regOffset, 0, 32⟩
def F.HST_CNT0.CREDIT_STALLS (p : Port) : Fld := ⟨0x700400 + p.regOffset, 32, 32⟩
def F.HST_CNT1.UNRESTORED_READS (p : Port) : Fld := ⟨0x700408 + p.regOffset, 0, 32⟩
def F.HST_CNT1.UNRESTORED_WRITES (p : Port) : Fld := ⟨0x700408 + p.regOffset, 32, 32⟩
def F.HST_CNT2.FENCE_TIMEOUTS (p : Port) : Fld := ⟨0x700410 + p.regOffset, 0, 16⟩
def F.HST_CNT2.ADDR_FAULTS (p : Port) : Fld := ⟨0x700410 + p.regOffset, 16, 16⟩
def F.HST_CNT2.REPLAY_DISCARDS (p : Port) : Fld := ⟨0x700410 + p.regOffset, 32, 16⟩
def F.HST_CNT2.LINK_DOWNS (p : Port) : Fld := ⟨0x700410 + p.regOffset, 48, 16⟩
def F.HST_ERR.GPF_LATE (p : Port) : Fld := ⟨0x700420 + p.regOffset, 0, 1⟩
def F.HST_ERR.FENCE_OVERLAP (p : Port) : Fld := ⟨0x700420 + p.regOffset, 1, 1⟩
def F.HST_ERR.LINK_DOWN (p : Port) : Fld := ⟨0x700420 + p.regOffset, 2, 1⟩
def F.HST_ERR.ADDR_FAULT (p : Port) : Fld := ⟨0x700420 + p.regOffset, 3, 1⟩
def F.PE_CTL.ENABLE : Fld := ⟨0x900100, 0, 1⟩
def F.PE_CTL.AGE_LIMIT : Fld := ⟨0x900100, 8, 8⟩
def F.PE_ENGINE_EN.EN : Fld := ⟨0x900108, 0, 64⟩
def F.PE_STATUS.SLOTS_BUSY : Fld := ⟨0x900110, 0, 13⟩
def F.PE_STATUS.YIELDED : Fld := ⟨0x900110, 16, 13⟩
def F.PE_STATUS.TRACKERS_BUSY : Fld := ⟨0x900110, 32, 14⟩
def F.PE_STATUS.ENGINES_DRAINED : Fld := ⟨0x900110, 48, 7⟩
def F.PE_ERR.DB_FOREIGN : Fld := ⟨0x900118, 0, 1⟩
def F.PE_ERR.DB_RANGE : Fld := ⟨0x900118, 1, 1⟩
def F.PE_ERR.LOAD_REJECT : Fld := ⟨0x900118, 2, 1⟩
def F.PE_ERR.SPILL_FULL : Fld := ⟨0x900118, 3, 1⟩
def F.PE_LOAD_STATUS.PROC : Fld := ⟨0x900120, 0, 12⟩
def F.PE_LOAD_STATUS.STATUS : Fld := ⟨0x900120, 16, 8⟩
def F.PE_LOAD_STATUS.OFFSET : Fld := ⟨0x900120, 32, 12⟩
def F.PE_LOAD_STATUS.RULE : Fld := ⟨0x900120, 48, 4⟩
def F.PE_PQ_DB.SQ_TAIL (n : Nat) : Fld := ⟨0x900200 + 8 * n, 0, 12⟩
def F.PE_PQ_DB.CQ_HEAD (n : Nat) : Fld := ⟨0x900200 + 8 * n, 16, 12⟩
def F.PE_PQ_BASE.RING_PAGE (n : Nat) : Fld := ⟨0x900280 + 8 * n, 12, 32⟩
def F.PE_QP_SEL.QP : Fld := ⟨0x900300, 0, 14⟩
def F.PE_QP_INFO.TENANT : Fld := ⟨0x900308, 0, 12⟩
def F.PE_QP_INFO.CLASS : Fld := ⟨0x900308, 12, 2⟩
def F.PE_QP_INFO.STATE : Fld := ⟨0x900308, 14, 2⟩
def F.PE_QP_INFO.DEPTH_LOG2 : Fld := ⟨0x900308, 16, 4⟩
def F.PE_QP_INFO.RUNNING : Fld := ⟨0x900308, 20, 13⟩
def F.PE_QP_INFO.SQ_HEAD : Fld := ⟨0x900308, 36, 12⟩
def F.PE_QP_INFO.CQ_TAIL : Fld := ⟨0x900308, 48, 12⟩
def F.PE_QP_INFO.PRIV : Fld := ⟨0x900308, 60, 1⟩
def F.PE_TEN_SEL.TENANT : Fld := ⟨0x900310, 0, 12⟩
def F.PE_TEN_INFO.STRANDS_MIN : Fld := ⟨0x900318, 0, 13⟩
def F.PE_TEN_INFO.STRANDS_MAX : Fld := ⟨0x900318, 16, 13⟩
def F.PE_TEN_INFO.STRANDS_NOW : Fld := ⟨0x900318, 32, 13⟩
def F.PE_TEN_CTX.CONTEXTS : Fld := ⟨0x900320, 0, 21⟩
def F.PE_TEN_CTX.CONTEXTS_RESIDENT : Fld := ⟨0x900320, 32, 15⟩
def F.PE_CNT0.STAGE_TIMEOUTS : Fld := ⟨0x900400, 0, 32⟩
def F.PE_CNT0.SLOW_PATHS : Fld := ⟨0x900400, 32, 32⟩
def F.PE_CNT1.YIELDS : Fld := ⟨0x900408, 0, 32⟩
def F.PE_CNT1.BUDGET_FAULTS : Fld := ⟨0x900408, 32, 32⟩
def F.PE_CNT2.COMMANDS : Fld := ⟨0x900410, 0, 32⟩
def F.PE_CNT2.FAILED : Fld := ⟨0x900410, 32, 32⟩
def F.PE_CNT3.BOUND_FAULTS : Fld := ⟨0x900418, 0, 32⟩
def F.PE_CNT3.FETCH_REJECTS : Fld := ⟨0x900418, 32, 32⟩
def F.FAB_CTL.ENABLE : Fld := ⟨0x800100, 0, 1⟩
def F.FAB_CTL.MAX_PAYLOAD : Fld := ⟨0x800100, 1, 2⟩
def F.FAB_CTL.IPV4 : Fld := ⟨0x800100, 3, 1⟩
def F.FAB_CTL.AUTO_RETURN : Fld := ⟨0x800100, 4, 1⟩
def F.FAB_CTL.VLAN_EN : Fld := ⟨0x800100, 5, 1⟩
def F.FAB_CTL.VLAN_ID : Fld := ⟨0x800100, 6, 12⟩
def F.FAB_CTL.PCP : Fld := ⟨0x800100, 18, 3⟩
def F.FAB_CTL.DSCP : Fld := ⟨0x800100, 21, 6⟩
def F.FAB_CTL.UDP_PORT : Fld := ⟨0x800100, 32, 16⟩
def F.FAB_NODE.NODE : Fld := ⟨0x800108, 0, 18⟩
def F.FAB_TIMER0.REASM_TIMEOUT : Fld := ⟨0x800110, 0, 16⟩
def F.FAB_TIMER0.SKEW_WINDOW : Fld := ⟨0x800110, 16, 8⟩
def F.FAB_TIMER0.RTO : Fld := ⟨0x800110, 24, 8⟩
def F.FAB_TIMER0.MAX_RETRY : Fld := ⟨0x800110, 32, 4⟩
def F.FAB_TIMER1.GRANT_TTL : Fld := ⟨0x800118, 0, 16⟩
def F.FAB_TIMER1.SESSION_DEAD : Fld := ⟨0x800118, 16, 16⟩
def F.FAB_TIMER1.MSG_LIFETIME : Fld := ⟨0x800118, 32, 16⟩
def F.FAB_TIMER1.RECEIPT_INTERVAL : Fld := ⟨0x800118, 48, 8⟩
def F.FAB_CREDIT.POOL_SIZE : Fld := ⟨0x800120, 0, 12⟩
def F.FAB_CREDIT.POOL_FREE : Fld := ⟨0x800120, 16, 12⟩
def F.FAB_CREDIT.RESERVED_SUM : Fld := ⟨0x800120, 32, 12⟩
def F.FAB_CREDIT.GRANT_QUANTUM : Fld := ⟨0x800120, 48, 8⟩
def F.FAB_PATH_CTL.OFF : Fld := ⟨0x800128, 0, 4⟩
def F.FAB_PATH_CTL.RETURN : Fld := ⟨0x800128, 4, 4⟩
def F.FAB_PATH_CTL.SUSPECT_THR : Fld := ⟨0x800128, 8, 8⟩
def F.FAB_PATH_CTL.FAIL_THR : Fld := ⟨0x800128, 16, 8⟩
def F.FAB_PATH_CTL.WINDOW : Fld := ⟨0x800128, 24, 8⟩
def F.FAB_PATH_CTL.PROBE_INT : Fld := ⟨0x800128, 32, 8⟩
def F.FAB_PATH_CTL.RETURN_TIME : Fld := ⟨0x800128, 40, 8⟩
def F.FAB_KEY_EPOCH.EPOCH : Fld := ⟨0x800130, 0, 32⟩
def F.FAB_PATH_STATUS.STATE (n : Nat) : Fld := ⟨0x800180 + 8 * n, 0, 2⟩
def F.FAB_PATH_STATUS.LINK (n : Nat) : Fld := ⟨0x800180 + 8 * n, 2, 1⟩
def F.FAB_PATH_STATUS.ERRORS (n : Nat) : Fld := ⟨0x800180 + 8 * n, 8, 16⟩
def F.FAB_PATH_STATUS.PROBE_RTT (n : Nat) : Fld := ⟨0x800180 + 8 * n, 24, 24⟩
def F.FAB_PATH_STATUS.FAILURES (n : Nat) : Fld := ⟨0x800180 + 8 * n, 48, 16⟩
def F.FAB_PATH_CNT.MISSING (n : Nat) : Fld := ⟨0x8001a0 + 8 * n, 0, 16⟩
def F.FAB_PATH_CNT.MISMATCH (n : Nat) : Fld := ⟨0x8001a0 + 8 * n, 16, 16⟩
def F.FAB_PATH_CNT.BAD_COPY (n : Nat) : Fld := ⟨0x8001a0 + 8 * n, 32, 16⟩
def F.FAB_PATH_CNT.LATE (n : Nat) : Fld := ⟨0x8001a0 + 8 * n, 48, 16⟩
def F.FAB_KEY_DATA0.REGION : Fld := ⟨0x800200, 0, 16⟩
def F.FAB_KEY_DATA0.ANY_SESSION : Fld := ⟨0x800200, 16, 1⟩
def F.FAB_KEY_DATA0.RIGHTS : Fld := ⟨0x800200, 17, 4⟩
def F.FAB_KEY_DATA0.EXPIRY : Fld := ⟨0x800200, 32, 32⟩
def F.FAB_KEY_DATA1.OFFSET : Fld := ⟨0x800208, 0, 44⟩
def F.FAB_KEY_DATA1.SESSION : Fld := ⟨0x800208, 44, 20⟩
def F.FAB_KEY_DATA2.LENGTH : Fld := ⟨0x800210, 0, 44⟩
def F.FAB_KEY_CMD.INDEX : Fld := ⟨0x800218, 0, 18⟩
def F.FAB_KEY_CMD.OP : Fld := ⟨0x800218, 18, 2⟩
def F.FAB_KEY_CMD.BUSY : Fld := ⟨0x800218, 20, 1⟩
def F.FAB_KEY_CMD.STATUS : Fld := ⟨0x800218, 24, 8⟩
def F.FAB_KEY_CMD.KEY : Fld := ⟨0x800218, 32, 32⟩
def F.FAB_CNT0.STRANGERS : Fld := ⟨0x800300, 0, 32⟩
def F.FAB_CNT0.DUP_DISCARDS : Fld := ⟨0x800300, 32, 32⟩
def F.FAB_CNT1.RETRANSMITS : Fld := ⟨0x800308, 0, 32⟩
def F.FAB_CNT1.LATE_REMAINDER : Fld := ⟨0x800308, 32, 32⟩
def F.FAB_CNT2.CTX_PARKED : Fld := ⟨0x800310, 0, 32⟩
def F.FAB_CNT2.CTX_FETCH_STALLS : Fld := ⟨0x800310, 32, 32⟩
def F.FAB_CNT3.VIOL_KEY : Fld := ⟨0x800318, 0, 16⟩
def F.FAB_CNT3.VIOL_BOUNDS : Fld := ⟨0x800318, 16, 16⟩
def F.FAB_CNT3.VIOL_RIGHTS : Fld := ⟨0x800318, 32, 16⟩
def F.FAB_CNT3.TORN_MSGS : Fld := ⟨0x800318, 48, 16⟩
def F.FAB_CNT4.MALFORMED : Fld := ⟨0x800320, 0, 16⟩
def F.FAB_CNT4.GRANT_LAPSED : Fld := ⟨0x800320, 16, 16⟩
def F.FAB_CNT4.CREDIT_OVERRUNS : Fld := ⟨0x800320, 32, 16⟩
def F.FAB_CNT4.SESSION_FAILS : Fld := ⟨0x800320, 48, 16⟩
def F.FAB_CNT5.PAUSE_RX : Fld := ⟨0x800328, 0, 32⟩
def F.FAB_CNT5.CTRL_DROPS : Fld := ⟨0x800328, 32, 32⟩
def F.FAB_ERR.POOL_RANGE : Fld := ⟨0x800380, 0, 1⟩
def F.FAB_ERR.PAIR0_DOWN : Fld := ⟨0x800380, 1, 1⟩
def F.FAB_ERR.PAIR1_DOWN : Fld := ⟨0x800380, 2, 1⟩
def F.FAB_ERR.PTP_UNLOCKED : Fld := ⟨0x800380, 3, 1⟩
def F.FAB_ERR.KEY_FULL : Fld := ⟨0x800380, 4, 1⟩
def F.FAB_ERR.RATE_MISMATCH : Fld := ⟨0x800380, 5, 1⟩
def F.FAB_SESS_SEL.SESSION : Fld := ⟨0x800400, 0, 20⟩
def F.FAB_SESS_INFO.STATE : Fld := ⟨0x800408, 0, 3⟩
def F.FAB_SESS_INFO.RESIDENT : Fld := ⟨0x800408, 3, 1⟩
def F.FAB_SESS_INFO.RELAXED : Fld := ⟨0x800408, 4, 1⟩
def F.FAB_SESS_INFO.PAIR : Fld := ⟨0x800408, 5, 1⟩
def F.FAB_SESS_INFO.HOST_ENDPOINT : Fld := ⟨0x800408, 6, 1⟩
def F.FAB_SESS_INFO.TENANT : Fld := ⟨0x800408, 8, 12⟩
def F.FAB_SESS_INFO.LAST_FAR : Fld := ⟨0x800408, 20, 8⟩
def F.FAB_SESS_INFO.EPOCH : Fld := ⟨0x800408, 32, 32⟩
def F.PHL_CTL.ENABLE : Fld := ⟨0x500100, 0, 1⟩
def F.PHL_CTL.ENCRYPT : Fld := ⟨0x500100, 1, 1⟩
def F.PHL_CTL.FORCE_ALONE : Fld := ⟨0x500100, 2, 1⟩
def F.PHL_CTL.PH0_RESERVE : Fld := ⟨0x500100, 8, 5⟩
def F.PHL_CTL.LINK_WAIT : Fld := ⟨0x500100, 16, 8⟩
def F.PHL_LEASE.TERM : Fld := ⟨0x500108, 0, 16⟩
def F.PHL_LEASE.GUARD : Fld := ⟨0x500108, 16, 16⟩
def F.PHL_LEASE.FB_CONFIRM : Fld := ⟨0x500108, 32, 16⟩
def F.PHL_LEASE.HB_STATIC : Fld := ⟨0x500108, 48, 8⟩
def F.PHL_FB_CTL.RATE_LIMIT : Fld := ⟨0x500110, 0, 7⟩
def F.PHL_FB_CTL.FB_ENABLE : Fld := ⟨0x500110, 8, 1⟩
def F.PHL_STATUS.TWIN_STATE : Fld := ⟨0x500118, 0, 4⟩
def F.PHL_STATUS.PRIMARY : Fld := ⟨0x500118, 4, 1⟩
def F.PHL_STATUS.HB_IN : Fld := ⟨0x500118, 5, 2⟩
def F.PHL_STATUS.HB_OUT : Fld := ⟨0x500118, 7, 1⟩
def F.PHL_STATUS.PH0_WIDTH : Fld := ⟨0x500118, 8, 4⟩
def F.PHL_STATUS.PH1_WIDTH : Fld := ⟨0x500118, 12, 4⟩
def F.PHL_STATUS.PH0_UP : Fld := ⟨0x500118, 16, 1⟩
def F.PHL_STATUS.PH1_UP : Fld := ⟨0x500118, 17, 1⟩
def F.PHL_STATUS.LEASE_EPOCH : Fld := ⟨0x500118, 32, 32⟩
def F.PHL_MSN.TX_NEXT : Fld := ⟨0x500120, 0, 32⟩
def F.PHL_MSN.TX_ACKED : Fld := ⟨0x500120, 32, 32⟩
def F.PHL_RESYNC.KIND : Fld := ⟨0x500128, 0, 2⟩
def F.PHL_RESYNC.ROLE : Fld := ⟨0x500128, 2, 1⟩
def F.PHL_RESYNC.PAGES_LEFT : Fld := ⟨0x500128, 32, 30⟩
def F.PHL_CNT0.REPLAYS : Fld := ⟨0x500200, 0, 32⟩
def F.PHL_CNT0.STALE_FRAMES : Fld := ⟨0x500200, 32, 32⟩
def F.PHL_CNT1.FALLBACK_ENTRIES : Fld := ⟨0x500208, 0, 16⟩
def F.PHL_CNT1.ARBITRATIONS : Fld := ⟨0x500208, 16, 16⟩
def F.PHL_CNT1.DEGRADES : Fld := ⟨0x500208, 32, 16⟩
def F.PHL_CNT1.RESYNCS : Fld := ⟨0x500208, 48, 16⟩
def F.PHL_CNT2.DEMAND_PAGES : Fld := ⟨0x500210, 0, 32⟩
def F.PHL_CNT2.FORWARDED : Fld := ⟨0x500210, 32, 32⟩
def F.PHL_CNT3.IN_DOUBT_COMMITTED : Fld := ⟨0x500218, 0, 32⟩
def F.PHL_CNT3.IN_DOUBT_DROPPED : Fld := ⟨0x500218, 32, 32⟩
def F.PHL_ERR.PH0_FAIL : Fld := ⟨0x500280, 0, 1⟩
def F.PHL_ERR.PH1_FAIL : Fld := ⟨0x500280, 1, 1⟩
def F.PHL_ERR.HB_FAULT : Fld := ⟨0x500280, 2, 1⟩
def F.PHL_ERR.PEER_MISMATCH : Fld := ⟨0x500280, 3, 1⟩
def F.PHL_ERR.ENC_MISMATCH : Fld := ⟨0x500280, 4, 1⟩
def F.PHL_ERR.BOTH_HALTED : Fld := ⟨0x500280, 5, 1⟩
def F.DST_CEIL_CTL.PROG_CEIL : Fld := ⟨0x600100, 0, 20⟩
def F.DST_CEIL_CTL.SOFT_PCT : Fld := ⟨0x600100, 20, 8⟩
def F.DST_CEIL_CTL.MIN_AGE : Fld := ⟨0x600100, 28, 12⟩
def F.DST_CEIL_CTL.OVERBOOK : Fld := ⟨0x600100, 40, 4⟩
def F.DST_CEIL_STATUS.EFFECTIVE : Fld := ⟨0x600108, 0, 20⟩
def F.DST_CEIL_STATUS.LIMITER : Fld := ⟨0x600108, 20, 2⟩
def F.DST_CEIL_STATUS.ZONE : Fld := ⟨0x600108, 22, 2⟩
def F.DST_CEIL_STATUS.ENERGY : Fld := ⟨0x600108, 24, 20⟩
def F.DST_CEIL_STATUS.SAVEZONE : Fld := ⟨0x600108, 44, 20⟩
def F.DST_LEVEL.LEVEL : Fld := ⟨0x600110, 0, 20⟩
def F.DST_LEVEL.SAVE_MIB : Fld := ⟨0x600110, 20, 20⟩
def F.DST_LEVEL.DIRTY_PAGES : Fld := ⟨0x600110, 40, 24⟩
def F.DST_SAVE_PRED.TIME_MS : Fld := ⟨0x600118, 0, 16⟩
def F.DST_SAVE_PRED.ENERGY_J : Fld := ⟨0x600118, 16, 16⟩
def F.DST_SAVE_PRED.AVAIL_J : Fld := ⟨0x600118, 32, 16⟩
def F.DST_HUP_CFG.P_SAVE : Fld := ⟨0x600140, 0, 12⟩
def F.DST_HUP_CFG.EFF : Fld := ⟨0x600140, 12, 7⟩
def F.DST_HUP_CFG.PRESENT : Fld := ⟨0x600140, 19, 1⟩
def F.DST_HUP_CFG.MARGIN : Fld := ⟨0x600140, 20, 8⟩
def F.DST_HUP_CFG.V_MIN : Fld := ⟨0x600140, 28, 16⟩
def F.DST_HUP_CFG.SENSE_SCALE : Fld := ⟨0x600140, 44, 16⟩
def F.DST_HUP_CTL.TEST_PERIOD : Fld := ⟨0x600148, 0, 8⟩
def F.DST_HUP_CTL.TEST_MS : Fld := ⟨0x600148, 8, 10⟩
def F.DST_HUP_CTL.TEST_NOW : Fld := ⟨0x600148, 18, 1⟩
def F.DST_HUP_CTL.R_TEST : Fld := ⟨0x600148, 32, 16⟩
def F.DST_HUP_RATED.RATED_C : Fld := ⟨0x600150, 0, 16⟩
def F.DST_HUP_RATED.RATED_ESR : Fld := ⟨0x600150, 16, 16⟩
def F.DST_HUP_MEAS.C : Fld := ⟨0x600158, 0, 16⟩
def F.DST_HUP_MEAS.ESR : Fld := ⟨0x600158, 16, 16⟩
def F.DST_HUP_MEAS.V_NOW : Fld := ⟨0x600158, 32, 16⟩
def F.DST_HUP_MEAS.AGE : Fld := ⟨0x600158, 48, 8⟩
def F.DST_HUP_MEAS.VALID : Fld := ⟨0x600158, 56, 1⟩
def F.DST_TEN_SEL.TENANT : Fld := ⟨0x600180, 0, 12⟩
def F.DST_TEN_CEIL.SHARE : Fld := ⟨0x600188, 0, 20⟩
def F.DST_TEN_CEIL.GUARANTEE : Fld := ⟨0x600188, 20, 20⟩
def F.DST_TEN_CEIL.LEVEL : Fld := ⟨0x600188, 40, 20⟩
def F.DST_TEN_CEIL.BUSY : Fld := ⟨0x600188, 60, 1⟩
def F.DST_TEN_CEIL.HEADROOM : Fld := ⟨0x600188, 61, 1⟩
def F.DST_NAND_CFG.SAVE_ZONE : Fld := ⟨0x6001c0, 0, 12⟩
def F.DST_NAND_CFG.PATROL_DAYS : Fld := ⟨0x6001c0, 12, 8⟩
def F.DST_NAND_CFG.REFRESH_PCT : Fld := ⟨0x6001c0, 20, 7⟩
def F.DST_NAND_CFG.RETIRE_PCT : Fld := ⟨0x6001c0, 27, 7⟩
def F.DST_WEAR.AVG_PE : Fld := ⟨0x6001c8, 0, 10⟩
def F.DST_WEAR.SPARE_LEFT : Fld := ⟨0x6001c8, 10, 8⟩
def F.DST_WEAR.RETIRED : Fld := ⟨0x6001c8, 20, 32⟩
def F.DST_WEAR.CHANNELS : Fld := ⟨0x6001c8, 52, 6⟩
def F.DST_PAGE_Q.PAGE : Fld := ⟨0x600200, 14, 30⟩
def F.DST_PAGE_Q.STATE : Fld := ⟨0x600200, 44, 4⟩
def F.DST_PAGE_Q.POISON_ANY : Fld := ⟨0x600200, 48, 1⟩
def F.DST_PAGE_Q.IN_SAVE_IMAGE : Fld := ⟨0x600200, 49, 1⟩
def F.DST_RESTORE.PAGES_LEFT : Fld := ⟨0x600208, 0, 30⟩
def F.DST_RESTORE.DEMAND_OUT : Fld := ⟨0x600208, 32, 16⟩
def F.DST_CNT0.AMBER_ENTRIES : Fld := ⟨0x600300, 0, 16⟩
def F.DST_CNT0.RED_ENTRIES : Fld := ⟨0x600300, 16, 16⟩
def F.DST_CNT0.TESTS_DONE : Fld := ⟨0x600300, 32, 16⟩
def F.DST_CNT0.TESTS_DEFERRED : Fld := ⟨0x600300, 48, 16⟩
def F.DST_CNT1.CHARGE_WAITS : Fld := ⟨0x600308, 0, 32⟩
def F.DST_CNT1.COPY_WAITS : Fld := ⟨0x600308, 32, 32⟩
def F.DST_CNT2.DEMAND_RESTORES : Fld := ⟨0x600310, 0, 32⟩
def F.DST_CNT2.POISONED_LINES : Fld := ⟨0x600310, 32, 32⟩
def F.DST_CNT3.REFRESHES : Fld := ⟨0x600318, 0, 32⟩
def F.DST_CNT3.SAVE_PROG_FAILS : Fld := ⟨0x600318, 32, 16⟩
def F.DST_CNT3.DEADLINE_POISONS : Fld := ⟨0x600318, 48, 16⟩
def F.DST_ERR.OVER_CEILING : Fld := ⟨0x600380, 0, 1⟩
def F.DST_ERR.HUP_WEAK : Fld := ⟨0x600380, 1, 1⟩
def F.DST_ERR.HUP_IMPLAUSIBLE : Fld := ⟨0x600380, 2, 1⟩
def F.DST_ERR.NAND_SHORT : Fld := ⟨0x600380, 3, 1⟩
def F.DST_ERR.LAST_SAVE_INCOMPLETE : Fld := ⟨0x600380, 4, 1⟩
def F.DST_ERR.SPARE_LOW : Fld := ⟨0x600380, 5, 1⟩
def F.TIR_PLACE_CTL.PLANNED : Fld := ⟨0xb00100, 0, 1⟩
def F.TIR_PLACE_CTL.LEND_EN : Fld := ⟨0xb00100, 1, 1⟩
def F.TIR_PLACE_CTL.LEND_MAX_GIB : Fld := ⟨0xb00100, 16, 16⟩
def F.TIR_PLACE_CTL.ADVERT_MS : Fld := ⟨0xb00100, 32, 8⟩
def F.TIR_PLAN_STATUS.VALID : Fld := ⟨0xb00108, 0, 1⟩
def F.TIR_PLAN_STATUS.REQUIRED : Fld := ⟨0xb00108, 1, 1⟩
def F.TIR_PLAN_STATUS.REASON : Fld := ⟨0xb00108, 8, 8⟩
def F.TIR_PLAN_STATUS.BAD_ENTRY : Fld := ⟨0xb00108, 16, 16⟩
def F.TIR_PLAN_STATUS.AMEND_NO : Fld := ⟨0xb00108, 32, 32⟩
def F.TIR_PLAN_ID.PLAN_ID : Fld := ⟨0xb00110, 0, 64⟩
def F.TIR_PLAN_USE.ENTRIES : Fld := ⟨0xb00118, 0, 18⟩
def F.TIR_PLAN_USE.USED_KIB : Fld := ⟨0xb00118, 32, 14⟩
def F.TIR_LEND_STATUS.LENT_MIB : Fld := ⟨0xb00120, 0, 24⟩
def F.TIR_LEND_STATUS.BORROWED_MIB : Fld := ⟨0xb00120, 24, 24⟩
def F.TIR_LEND_STATUS.RECLAIMING : Fld := ⟨0xb00120, 48, 1⟩
def F.TIR_LOANS.LOANS_OUT : Fld := ⟨0xb00128, 0, 17⟩
def F.TIR_LOANS.LOANS_IN : Fld := ⟨0xb00128, 32, 17⟩
def F.TIR_TEN_SEL.TENANT : Fld := ⟨0xb00180, 0, 12⟩
def F.TIR_TEN_RES.DDR_RES_GIB : Fld := ⟨0xb00188, 0, 16⟩
def F.TIR_TEN_RES.DDR_USED_GIB : Fld := ⟨0xb00188, 16, 16⟩
def F.TIR_TEN_RES.NC_SHARE_MIB : Fld := ⟨0xb00188, 32, 16⟩
def F.TIR_TEN_RES.NC_LOCKED_MIB : Fld := ⟨0xb00188, 48, 16⟩
def F.TIR_CNT0.PROMOTIONS : Fld := ⟨0xb00300, 0, 32⟩
def F.TIR_CNT0.DEMOTIONS : Fld := ⟨0xb00300, 32, 32⟩
def F.TIR_CNT1.CHUNK_WAITS : Fld := ⟨0xb00308, 0, 32⟩
def F.TIR_CNT1.EVICT_REEVALS : Fld := ⟨0xb00308, 32, 32⟩
def F.TIR_CNT2.LOANS_REFUSED : Fld := ⟨0xb00310, 0, 16⟩
def F.TIR_CNT2.RECLAIMS : Fld := ⟨0xb00310, 16, 16⟩
def F.TIR_CNT2.LOANS_LOST : Fld := ⟨0xb00310, 32, 16⟩
def F.TIR_CNT2.PLAN_REJECTS : Fld := ⟨0xb00310, 48, 16⟩
def F.TIR_ERR.NO_PLAN : Fld := ⟨0xb00380, 0, 1⟩
def F.TIR_ERR.PLAN_REJECT : Fld := ⟨0xb00380, 1, 1⟩
def F.TIR_ERR.LOAN_LOST : Fld := ⟨0xb00380, 2, 1⟩
def F.NC_CTL.ENABLE : Fld := ⟨0xa00100, 0, 1⟩
def F.NC_CTL.INV_ALL : Fld := ⟨0xa00100, 1, 1⟩
def F.NC_CTL.VICTIM_EN : Fld := ⟨0xa00100, 2, 1⟩
def F.NC_STATUS.STATE : Fld := ⟨0xa00108, 0, 2⟩
def F.NC_STATUS.STALE_RISK : Fld := ⟨0xa00108, 2, 1⟩
def F.NC_STATUS.LOCKED_BLOCKS : Fld := ⟨0xa00108, 8, 24⟩
def F.NC_STATUS.VICTIM_USED : Fld := ⟨0xa00108, 32, 12⟩
def F.NC_DIRTY.DIRTY_SECTORS : Fld := ⟨0xa00110, 0, 28⟩
def F.NC_DIRTY.VICTIM_DIRTY : Fld := ⟨0xa00110, 28, 12⟩
def F.NC_CNT0.VICTIM_RECALLS : Fld := ⟨0xa00300, 0, 32⟩
def F.NC_CNT0.FILL_CANCELS : Fld := ⟨0xa00300, 32, 32⟩
def F.NC_CNT1.STALE_HITS : Fld := ⟨0xa00308, 0, 32⟩
def F.NC_CNT1.LOCK_REFUSALS : Fld := ⟨0xa00308, 32, 32⟩
def F.NC_ERR.INV_IGNORED : Fld := ⟨0xa00380, 0, 1⟩
def F.NC_ERR.STALE_SERVED : Fld := ⟨0xa00380, 1, 1⟩
def F.CIP_CTL.AGE_LIMIT : Fld := ⟨0xc00100, 0, 8⟩
def F.CIP_CTL.QUAR_EN : Fld := ⟨0xc00100, 8, 1⟩
def F.CIP_STATUS.CORES_IN_SERVICE : Fld := ⟨0xc00108, 0, 5⟩
def F.CIP_STATUS.LANES_IN_SERVICE : Fld := ⟨0xc00108, 8, 5⟩
def F.CIP_STATUS.SUSPENDED : Fld := ⟨0xc00108, 16, 8⟩
def F.CIP_STATUS.KEYS_CACHED : Fld := ⟨0xc00108, 24, 13⟩
def F.CIP_QUAR.CORES : Fld := ⟨0xc00110, 0, 20⟩
def F.CIP_QUAR.LANES : Fld := ⟨0xc00110, 32, 16⟩
def F.CIP_ROOTS.DEVICE : Fld := ⟨0xc00118, 0, 1⟩
def F.CIP_ROOTS.STORAGE : Fld := ⟨0xc00118, 1, 1⟩
def F.CIP_ROOTS.FABRIC : Fld := ⟨0xc00118, 2, 1⟩
def F.CIP_ROOTS.SEAL : Fld := ⟨0xc00118, 3, 1⟩
def F.CIP_PAR_LOG.UNIT : Fld := ⟨0xc00120, 0, 6⟩
def F.CIP_PAR_LOG.ERRORS_24H : Fld := ⟨0xc00120, 8, 2⟩
def F.CIP_PAR_LOG.TIME : Fld := ⟨0xc00120, 16, 48⟩
def F.CIP_CTX_SEL.QP : Fld := ⟨0xc00180, 0, 14⟩
def F.CIP_CTX_MODE.AS8200 : Fld := ⟨0xc00188, 0, 1⟩
def F.CIP_ID_PUB.KEY (n : Nat) : Fld := ⟨0xc00200 + 8 * n, 0, 64⟩
def F.CIP_CNT0.SUSPENDS : Fld := ⟨0xc00300, 0, 32⟩
def F.CIP_CNT0.AGED : Fld := ⟨0xc00300, 32, 32⟩
def F.CIP_CNT1.KEY_MISSES : Fld := ⟨0xc00308, 0, 32⟩
def F.CIP_CNT1.COMPAT_LENGTH : Fld := ⟨0xc00308, 32, 32⟩
def F.CIP_CNT2.PARITY_REPLAYS : Fld := ⟨0xc00310, 0, 16⟩
def F.CIP_CNT2.QUARANTINES : Fld := ⟨0xc00310, 16, 16⟩
def F.CIP_CNT2.CHECKPOINTS : Fld := ⟨0xc00310, 32, 32⟩
def F.CIP_CNT3.SEAL_TIMEOUTS : Fld := ⟨0xc00318, 0, 16⟩
def F.CIP_CNT3.VRFY_FAILS : Fld := ⟨0xc00318, 16, 16⟩
def F.CIP_CNT3.CHAIN_ROLLBACKS : Fld := ⟨0xc00318, 32, 16⟩
def F.CIP_CNT3.KDU_RERUNS : Fld := ⟨0xc00318, 48, 16⟩
def F.CIP_ERR.PARITY : Fld := ⟨0xc00380, 0, 1⟩
def F.CIP_ERR.QUARANTINE : Fld := ⟨0xc00380, 1, 1⟩
def F.CIP_ERR.NO_CORE : Fld := ⟨0xc00380, 2, 1⟩
def F.CIP_ERR.ROOT_BLANK : Fld := ⟨0xc00380, 3, 1⟩
def F.CIP_ERR.SEAL_LATE : Fld := ⟨0xc00380, 4, 1⟩
def F.MEM_POP.CH_PRESENT : Fld := ⟨0xd00100, 0, 16⟩
def F.MEM_POP.DPC : Fld := ⟨0xd00100, 16, 2⟩
def F.MEM_POP.DIMM_GIB : Fld := ⟨0xd00100, 18, 9⟩
def F.MEM_POP.SPEED : Fld := ⟨0xd00100, 27, 2⟩
def F.MEM_POP.VALID : Fld := ⟨0xd00100, 29, 1⟩
def F.MEM_CAP.LIMIT : Fld := ⟨0xd00108, 0, 26⟩
def F.MEM_CAP.REMOVED : Fld := ⟨0xd00108, 32, 26⟩
def F.MEM_CTL.REPAIR_EN : Fld := ⟨0xd00110, 0, 1⟩
def F.MEM_CTL.DEV_ERASE_EN : Fld := ⟨0xd00110, 1, 1⟩
def F.MEM_CTL.FILL_RATE : Fld := ⟨0xd00110, 8, 8⟩
def F.MEM_CTL.DEV_THR : Fld := ⟨0xd00110, 16, 8⟩
def F.MEM_CTL.TEMP_THROTTLE : Fld := ⟨0xd00110, 24, 8⟩
def F.MEM_SCRUB_CTL.ENABLE : Fld := ⟨0xd00118, 0, 1⟩
def F.MEM_SCRUB_CTL.PERIOD_H : Fld := ⟨0xd00118, 1, 8⟩
def F.MEM_SCRUB_CTL.STACKED_EN : Fld := ⟨0xd00118, 9, 1⟩
def F.MEM_SCRUB_STATUS.PROGRESS : Fld := ⟨0xd00120, 0, 10⟩
def F.MEM_SCRUB_STATUS.PASSES : Fld := ⟨0xd00120, 16, 16⟩
def F.MEM_SCRUB_STATUS.LAST_PASS_H : Fld := ⟨0xd00120, 32, 16⟩
def F.MEM_SCRUB_STATUS.BEHIND : Fld := ⟨0xd00120, 48, 1⟩
def F.MEM_FILL_STATUS.PAGES_LEFT : Fld := ⟨0xd00128, 0, 30⟩
def F.MEM_FILL_STATUS.SRAM_DONE : Fld := ⟨0xd00128, 32, 1⟩
def F.MEM_FILL_STATUS.STACK_DONE : Fld := ⟨0xd00128, 33, 1⟩
def F.MEM_CH_SEL.CH : Fld := ⟨0xd00180, 0, 4⟩
def F.MEM_CH_STATUS.ERASE_MASK : Fld := ⟨0xd00188, 0, 8⟩
def F.MEM_CH_STATUS.REMAP_USED : Fld := ⟨0xd00188, 8, 4⟩
def F.MEM_CH_STATUS.REDIRECTS : Fld := ⟨0xd00188, 12, 11⟩
def F.MEM_CH_STATUS.SPARE_PAGES : Fld := ⟨0xd00188, 23, 4⟩
def F.MEM_CH_STATUS.TEMP_MAX : Fld := ⟨0xd00188, 27, 8⟩
def F.MEM_REMAP.VALID (n : Nat) : Fld := ⟨0xd00190 + 8 * n, 0, 1⟩
def F.MEM_REMAP.LINE (n : Nat) : Fld := ⟨0xd00190 + 8 * n, 6, 38⟩
def F.MEM_ERR_LOG.LINE : Fld := ⟨0xd001e0, 6, 38⟩
def F.MEM_ERR_LOG.CHANNEL : Fld := ⟨0xd001e0, 44, 4⟩
def F.MEM_ERR_LOG.SOURCE : Fld := ⟨0xd001e0, 48, 2⟩
def F.MEM_ERR_LOG.OUTCOME : Fld := ⟨0xd001e0, 50, 2⟩
def F.MEM_CNT0.CORRECTED : Fld := ⟨0xd00300, 0, 32⟩
def F.MEM_CNT0.HARD : Fld := ⟨0xd00300, 32, 32⟩
def F.MEM_CNT1.UNCORRECTED : Fld := ⟨0xd00308, 0, 32⟩
def F.MEM_CNT1.REPAIRED : Fld := ⟨0xd00308, 32, 32⟩
def F.MEM_CNT2.POISONED : Fld := ⟨0xd00310, 0, 16⟩
def F.MEM_CNT2.RETIRED_PAGES : Fld := ⟨0xd00310, 16, 16⟩
def F.MEM_CNT2.TAG_LOSSES : Fld := ⟨0xd00310, 32, 16⟩
def F.MEM_CNT2.POISON_READS : Fld := ⟨0xd00310, 48, 16⟩
def F.MEM_CNT3.FIRST_TOUCH : Fld := ⟨0xd00318, 0, 32⟩
def F.MEM_CNT3.SCRUB_CANCELS : Fld := ⟨0xd00318, 32, 32⟩
def F.MEM_ERR.POP_INVALID : Fld := ⟨0xd00380, 0, 1⟩
def F.MEM_ERR.DEVICE_FAILED : Fld := ⟨0xd00380, 1, 1⟩
def F.MEM_ERR.RETIRE_FULL : Fld := ⟨0xd00380, 2, 1⟩
def F.MEM_ERR.SCRUB_BEHIND : Fld := ⟨0xd00380, 3, 1⟩
def F.MEM_ERR.TEMP_HIGH : Fld := ⟨0xd00380, 4, 1⟩
def F.MEM_ERR.TAG_LOST : Fld := ⟨0xd00380, 5, 1⟩
def F.SEQ_CTL.AUTO_ON : Fld := ⟨0x100100, 0, 1⟩
def F.SEQ_CTL.V12_PFAIL : Fld := ⟨0x100100, 1, 1⟩
def F.SEQ_CTL.PFAIL_FILTER : Fld := ⟨0x100100, 8, 8⟩
def F.SEQ_CTL.PFAIL_DEBOUNCE_MS : Fld := ⟨0x100100, 16, 8⟩
def F.SEQ_CTL.SNS_12V : Fld := ⟨0x100100, 24, 3⟩
def F.SEQ_CMD.ON : Fld := ⟨0x100108, 0, 1⟩
def F.SEQ_CMD.OFF : Fld := ⟨0x100108, 1, 1⟩
def F.SEQ_STATUS.STATE : Fld := ⟨0x100110, 0, 3⟩
def F.SEQ_STATUS.STEP : Fld := ⟨0x100110, 3, 5⟩
def F.SEQ_STATUS.POSITION : Fld := ⟨0x100110, 8, 3⟩
def F.SEQ_STATUS.POS_VALID : Fld := ⟨0x100110, 11, 1⟩
def F.SEQ_STATUS.LATCHED : Fld := ⟨0x100110, 12, 1⟩
def F.SEQ_STATUS.ON_PENDING : Fld := ⟨0x100110, 13, 1⟩
def F.SEQ_STATUS.TIMEOUT_PATH : Fld := ⟨0x100110, 14, 1⟩
def F.SEQ_STATUS.STUCK : Fld := ⟨0x100110, 15, 1⟩
def F.SEQ_STATUS.CASC_IN : Fld := ⟨0x100110, 16, 1⟩
def F.SEQ_STATUS.CASC_FLT : Fld := ⟨0x100110, 17, 1⟩
def F.SEQ_STATUS.PFAIL : Fld := ⟨0x100110, 18, 1⟩
def F.SEQ_STATUS.FLT_SEEN : Fld := ⟨0x100110, 19, 1⟩
def F.SEQ_STATUS.POS_ERROR : Fld := ⟨0x100110, 20, 1⟩
def F.SEQ_RAILS.EN : Fld := ⟨0x100118, 0, 32⟩
def F.SEQ_RAILS.GOOD : Fld := ⟨0x100118, 32, 32⟩
def F.SEQ_CH_FAILED.FAILED : Fld := ⟨0x100120, 0, 32⟩
def F.SEQ_CH_CMD.CH : Fld := ⟨0x100128, 0, 5⟩
def F.SEQ_CH_CMD.OP : Fld := ⟨0x100128, 5, 2⟩
def F.SEQ_CH_CMD.BUSY : Fld := ⟨0x100128, 7, 1⟩
def F.SEQ_CH_CMD.STATUS : Fld := ⟨0x100128, 8, 8⟩
def F.SEQ_CASC.BYPASS_ON_LATCH : Fld := ⟨0x100130, 0, 1⟩
def F.SEQ_CASC.RELEASE_STEP : Fld := ⟨0x100130, 8, 5⟩
def F.SEQ_FAULT.CH : Fld := ⟨0x100138, 0, 5⟩
def F.SEQ_FAULT.KIND : Fld := ⟨0x100138, 5, 3⟩
def F.SEQ_FAULT.PHASE : Fld := ⟨0x100138, 8, 3⟩
def F.SEQ_FAULT.VALID : Fld := ⟨0x100138, 11, 1⟩
def F.SEQ_FAULT.SNS_CODE : Fld := ⟨0x100138, 16, 12⟩
def F.SEQ_FAULT.COUNT : Fld := ⟨0x100138, 32, 16⟩
def F.SEQ_FAULT_TIME.TIME : Fld := ⟨0x100140, 0, 64⟩
def F.SEQ_CNT0.PFAIL_ACCEPTS : Fld := ⟨0x100148, 0, 16⟩
def F.SEQ_CNT0.PFAIL_GLITCHES : Fld := ⟨0x100148, 16, 16⟩
def F.SEQ_CNT0.RAIL_FAILS : Fld := ⟨0x100148, 32, 16⟩
def F.SEQ_CNT0.DISCHARGE_TIMEOUTS : Fld := ⟨0x100148, 48, 16⟩
def F.SEQ_SNS_RD.CODE_A (n : Nat) : Fld := ⟨0x100150 + 8 * n, 0, 12⟩
def F.SEQ_SNS_RD.CODE_B (n : Nat) : Fld := ⟨0x100150 + 8 * n, 16, 12⟩
def F.SEQ_SNS_RD.CODE_C (n : Nat) : Fld := ⟨0x100150 + 8 * n, 32, 12⟩
def F.SEQ_SNS_RD.CODE_D (n : Nat) : Fld := ⟨0x100150 + 8 * n, 48, 12⟩
def F.SEQ_CH_CFG.ENABLE (n : Nat) : Fld := ⟨0x100200 + 8 * n, 0, 1⟩
def F.SEQ_CH_CFG.STEP (n : Nat) : Fld := ⟨0x100200 + 8 * n, 1, 5⟩
def F.SEQ_CH_CFG.SNS (n : Nat) : Fld := ⟨0x100200 + 8 * n, 6, 4⟩
def F.SEQ_CH_CFG.OFF_MODE (n : Nat) : Fld := ⟨0x100200 + 8 * n, 10, 2⟩
def F.SEQ_CH_CFG.CLASS (n : Nat) : Fld := ⟨0x100200 + 8 * n, 12, 2⟩
def F.SEQ_CH_CFG.ON_DELAY (n : Nat) : Fld := ⟨0x100200 + 8 * n, 16, 8⟩
def F.SEQ_CH_CFG.PG_TIMEOUT (n : Nat) : Fld := ⟨0x100200 + 8 * n, 24, 8⟩
def F.SEQ_CH_CFG.OFF_TIMEOUT (n : Nat) : Fld := ⟨0x100200 + 8 * n, 32, 8⟩
def F.SEQ_CH_CFG.AUX_FATAL (n : Nat) : Fld := ⟨0x100200 + 8 * n, 40, 1⟩
def F.SEQ_SNS.SCALE (n : Nat) : Fld := ⟨0x100300 + 8 * n, 0, 16⟩
def F.SEQ_SNS.UV_MV (n : Nat) : Fld := ⟨0x100300 + 8 * n, 16, 16⟩
def F.SEQ_SNS.OV_MV (n : Nat) : Fld := ⟨0x100300 + 8 * n, 32, 16⟩
def F.SEQ_SNS.FALL_MV (n : Nat) : Fld := ⟨0x100300 + 8 * n, 48, 16⟩
def F.SEQ_RST.SRC (n : Nat) : Fld := ⟨0x100380 + 8 * n, 0, 6⟩
def F.SEQ_RST.STRETCH_MS (n : Nat) : Fld := ⟨0x100380 + 8 * n, 8, 8⟩
def F.SEQ_RST.ON_PWRDOWN (n : Nat) : Fld := ⟨0x100380 + 8 * n, 16, 1⟩
def F.SEQ_RST.ON_SAVE (n : Nat) : Fld := ⟨0x100380 + 8 * n, 17, 1⟩
def F.SEQ_RST.ON_LATCH (n : Nat) : Fld := ⟨0x100380 + 8 * n, 18, 1⟩
def F.SEQ_RST.PULSE (n : Nat) : Fld := ⟨0x100380 + 8 * n, 19, 1⟩
def F.SEQ_RST.ASSERTED (n : Nat) : Fld := ⟨0x100380 + 8 * n, 20, 1⟩
def F.CAL_CTL.DDR_RECAL_EN : Fld := ⟨0xe00100, 0, 1⟩
def F.CAL_CTL.SK_RECAL_EN : Fld := ⟨0xe00100, 1, 1⟩
def F.CAL_CTL.NAND_RECAL_EN : Fld := ⟨0xe00100, 2, 1⟩
def F.CAL_CTL.FAB_RECAL_EN : Fld := ⟨0xe00100, 3, 1⟩
def F.CAL_CTL.GAP_EN : Fld := ⟨0xe00100, 4, 1⟩
def F.CAL_CTL.SEED_EN : Fld := ⟨0xe00100, 5, 1⟩
def F.CAL_CTL.SEED_TEMP : Fld := ⟨0xe00100, 8, 8⟩
def F.CAL_CTL.GAP_MAX : Fld := ⟨0xe00100, 16, 16⟩
def F.CAL_STATUS.DDR_FAILED : Fld := ⟨0xe00108, 0, 16⟩
def F.CAL_STATUS.NAND_FAILED : Fld := ⟨0xe00108, 16, 32⟩
def F.CAL_STATUS.SK : Fld := ⟨0xe00108, 48, 2⟩
def F.CAL_STATUS.NAND : Fld := ⟨0xe00108, 50, 2⟩
def F.CAL_STATUS.DDR : Fld := ⟨0xe00108, 52, 2⟩
def F.CAL_STATUS.SK_FAILED : Fld := ⟨0xe00108, 54, 2⟩
def F.CAL_STATUS.SEEDED : Fld := ⟨0xe00108, 56, 1⟩
def F.CAL_SEL.IFACE : Fld := ⟨0xe00110, 0, 3⟩
def F.CAL_SEL.UNIT : Fld := ⟨0xe00110, 8, 5⟩
def F.CAL_SEL.LANE : Fld := ⟨0xe00110, 16, 7⟩
def F.CAL_SEL.DIR : Fld := ⟨0xe00110, 23, 1⟩
def F.CAL_RESULT.EYE_W : Fld := ⟨0xe00118, 0, 8⟩
def F.CAL_RESULT.EYE_H : Fld := ⟨0xe00118, 8, 10⟩
def F.CAL_RESULT.WEAK : Fld := ⟨0xe00118, 18, 1⟩
def F.CAL_RESULT.FAILED : Fld := ⟨0xe00118, 19, 1⟩
def F.CAL_RESULT.VALID : Fld := ⟨0xe00118, 20, 1⟩
def F.CAL_RESULT.SEEDED : Fld := ⟨0xe00118, 21, 1⟩
def F.CAL_NAND_OFS.TLC : Fld := ⟨0xe00120, 0, 56⟩
def F.CAL_NAND_OFS.SLC : Fld := ⟨0xe00120, 56, 8⟩
def F.CAL_CMD.IFACE : Fld := ⟨0xe00128, 0, 3⟩
def F.CAL_CMD.UNIT : Fld := ⟨0xe00128, 8, 5⟩
def F.CAL_CMD.OP : Fld := ⟨0xe00128, 13, 2⟩
def F.CAL_CMD.BUSY : Fld := ⟨0xe00128, 15, 1⟩
def F.CAL_CMD.STATUS : Fld := ⟨0xe00128, 16, 8⟩
def F.CAL_CNT0.SEED_REJECTS : Fld := ⟨0xe00300, 0, 16⟩
def F.CAL_CNT0.WINDOWS_DEFERRED : Fld := ⟨0xe00300, 16, 16⟩
def F.CAL_CNT0.GAP_DEFERRALS : Fld := ⟨0xe00300, 32, 16⟩
def F.CAL_CNT0.WEAK_EVENTS : Fld := ⟨0xe00300, 48, 16⟩
def F.CAL_ERR.SK_FAIL : Fld := ⟨0xe00380, 0, 1⟩
def F.CAL_ERR.DDR_FAIL : Fld := ⟨0xe00380, 1, 1⟩
def F.CAL_ERR.NAND_FAIL : Fld := ⟨0xe00380, 2, 1⟩
def F.CAL_ERR.WEAK : Fld := ⟨0xe00380, 3, 1⟩
def F.CAL_ERR.SEED_WRITE_FAIL : Fld := ⟨0xe00380, 4, 1⟩
def F.CAL_ERR.SPEED_DOWN : Fld := ⟨0xe00380, 5, 1⟩
def F.CFL_CTL.PVP_LIMIT : Fld := ⟨0xf00100, 0, 5⟩
def F.CFL_CTL.AUTO_RESUME : Fld := ⟨0xf00100, 8, 1⟩
def F.CFL_CTL.PATROL_DAYS : Fld := ⟨0xf00100, 16, 8⟩
def F.CFL_CMD.ADDR : Fld := ⟨0xf00108, 0, 26⟩
def F.CFL_CMD.OP : Fld := ⟨0xf00108, 28, 4⟩
def F.CFL_CMD.BUSY : Fld := ⟨0xf00108, 32, 1⟩
def F.CFL_CMD.STATUS : Fld := ⟨0xf00108, 40, 8⟩
def F.CFL_CMD.PULSES : Fld := ⟨0xf00108, 48, 5⟩
def F.CFL_CMD.FAIL_BITS : Fld := ⟨0xf00108, 53, 11⟩
def F.CFL_BUF.DATA (n : Nat) : Fld := ⟨0xf00200 + 8 * n, 0, 64⟩
def F.CFL_STATUS.BANK0_BUSY : Fld := ⟨0xf00110, 0, 1⟩
def F.CFL_STATUS.BANK1_BUSY : Fld := ⟨0xf00110, 1, 1⟩
def F.CFL_STATUS.BANK0_SUSP : Fld := ⟨0xf00110, 2, 1⟩
def F.CFL_STATUS.BANK1_SUSP : Fld := ⟨0xf00110, 3, 1⟩
def F.CFL_STATUS.ACTIVE_SLOT : Fld := ⟨0xf00110, 4, 1⟩
def F.CFL_STATUS.BOOTED_SLOT : Fld := ⟨0xf00110, 5, 1⟩
def F.CFL_STATUS.HDR_COPY : Fld := ⟨0xf00110, 6, 1⟩
def F.CFL_STATUS.INCOMPLETE : Fld := ⟨0xf00110, 8, 2⟩
def F.CFL_WEAR.WORN_SECTORS : Fld := ⟨0xf00120, 0, 14⟩
def F.CFL_WEAR.BAD_SECTORS : Fld := ⟨0xf00120, 16, 14⟩
def F.CFL_WEAR.MAX_ERASE : Fld := ⟨0xf00120, 32, 20⟩
def F.CFL_SECT_SEL.SECTOR : Fld := ⟨0xf00180, 0, 14⟩
def F.CFL_SECT_INFO.STATUS_WORD : Fld := ⟨0xf00188, 0, 32⟩
def F.CFL_SECT_INFO.WP : Fld := ⟨0xf00188, 32, 1⟩
def F.CFL_SECT_INFO.INCOMPLETE : Fld := ⟨0xf00188, 33, 1⟩
def F.CFL_WP_CLR.SECTOR : Fld := ⟨0xf00190, 0, 14⟩
def F.CFL_WP_CLR.COUNT : Fld := ⟨0xf00190, 16, 16⟩
def F.CFL_WP.WP (n : Nat) : Fld := ⟨0xf00400 + 8 * n, 0, 64⟩
def F.CFL_CNT0.PROGRAMS : Fld := ⟨0xf00300, 0, 32⟩
def F.CFL_CNT0.ERASES : Fld := ⟨0xf00300, 32, 32⟩
def F.CFL_CNT1.SUSPENDS : Fld := ⟨0xf00308, 0, 16⟩
def F.CFL_CNT1.WP_VIOLATIONS : Fld := ⟨0xf00308, 16, 16⟩
def F.CFL_CNT1.MARGIN_FAILS : Fld := ⟨0xf00308, 32, 16⟩
def F.CFL_CNT1.PULSE_LIMITS : Fld := ⟨0xf00308, 48, 16⟩
def F.CFL_ERR.WP_VIOLATION : Fld := ⟨0xf00380, 0, 1⟩
def F.CFL_ERR.WP_CLR_REFUSED : Fld := ⟨0xf00380, 1, 1⟩
def F.CFL_ERR.WEAR : Fld := ⟨0xf00380, 2, 1⟩
def F.CFL_ERR.PROG_FAIL : Fld := ⟨0xf00380, 3, 1⟩
def F.CFL_ERR.ERASE_FAIL : Fld := ⟨0xf00380, 4, 1⟩
def F.CFL_ERR.INCOMPLETE_FOUND : Fld := ⟨0xf00380, 5, 1⟩
def F.CFL_ERR.HDR_BAD : Fld := ⟨0xf00380, 6, 1⟩
def F.CFL_ERR.SLOT_FALLBACK : Fld := ⟨0xf00380, 7, 1⟩
def F.CFL_ERR.FROW_BAD : Fld := ⟨0xf00380, 8, 1⟩
def F.LPS_CTL.HAZE_EN : Fld := ⟨0x200100, 0, 1⟩
def F.LPS_CTL.DEEP_EN : Fld := ⟨0x200100, 1, 1⟩
def F.LPS_CTL.NIGHT_EN : Fld := ⟨0x200100, 2, 1⟩
def F.LPS_CTL.HAZE_IDLE : Fld := ⟨0x200100, 8, 8⟩
def F.LPS_CTL.DEEP_IDLE : Fld := ⟨0x200100, 16, 16⟩
def F.LPS_CTL.NIGHT_DELAY : Fld := ⟨0x200100, 32, 8⟩
def F.LPS_CTL.BACKOFF_MAX : Fld := ⟨0x200100, 40, 4⟩
def F.LPS_CTL.VOTE_TIMEOUT : Fld := ⟨0x200100, 44, 12⟩
def F.LPS_HAZE_MASK.ISLANDS : Fld := ⟨0x200108, 1, 14⟩
def F.LPS_STATUS.STATE : Fld := ⟨0x200110, 0, 3⟩
def F.LPS_STATUS.CLEAN_CURRENT : Fld := ⟨0x200110, 3, 1⟩
def F.LPS_STATUS.LAST_REFUSER : Fld := ⟨0x200110, 4, 4⟩
def F.LPS_STATUS.BACKOFF : Fld := ⟨0x200110, 8, 4⟩
def F.LPS_CMD.ENTER : Fld := ⟨0x200118, 0, 1⟩
def F.LPS_CMD.WAKE : Fld := ⟨0x200118, 1, 1⟩
def F.LPS_CMD.NIGHT : Fld := ⟨0x200118, 2, 1⟩
def F.LPS_PAD.LATCHED : Fld := ⟨0x200120, 0, 4⟩
def F.LPS_PAD.RELEASE : Fld := ⟨0x200120, 4, 4⟩
def F.LPS_WAKE.SOURCE : Fld := ⟨0x200128, 0, 4⟩
def F.LPS_WAKE.FROM : Fld := ⟨0x200128, 4, 2⟩
def F.LPS_WAKE.DURATION_MS : Fld := ⟨0x200128, 16, 48⟩
def F.LPS_LOST.BANKS : Fld := ⟨0x200130, 0, 8⟩
def F.LPS_LOST.HELD : Fld := ⟨0x200130, 8, 15⟩
def F.LPS_LOST.RESUME : Fld := ⟨0x200130, 24, 15⟩
def F.LPS_LIST.BANK : Fld := ⟨0x200180, 0, 3⟩
def F.LPS_LIST.INDEX : Fld := ⟨0x200180, 4, 12⟩
def F.LPS_LIST.OFFSET : Fld := ⟨0x200180, 16, 25⟩
def F.LPS_LIST.COUNT : Fld := ⟨0x200180, 41, 12⟩
def F.LPS_CNT0.ENTRIES : Fld := ⟨0x200300, 0, 16⟩
def F.LPS_CNT0.REFUSALS : Fld := ⟨0x200300, 16, 16⟩
def F.LPS_CNT0.WAKES : Fld := ⟨0x200300, 32, 16⟩
def F.LPS_CNT0.BANK_FAILS : Fld := ⟨0x200300, 48, 16⟩
def F.MOD_CTL.DRAIN_CLOSE : Fld := ⟨0x300100, 0, 16⟩
def F.MOD_CTL.HALT_HOLD : Fld := ⟨0x300100, 16, 16⟩
def F.MOD_CTL.KEEP_HST : Fld := ⟨0x300100, 32, 1⟩
def F.MOD_CTL.CLOSE_PAGES : Fld := ⟨0x300100, 40, 16⟩
def F.MOD_STATUS.MODE : Fld := ⟨0x300108, 0, 3⟩
def F.MOD_STATUS.PREV_MODE : Fld := ⟨0x300108, 3, 3⟩
def F.MOD_STATUS.TARGET : Fld := ⟨0x300108, 6, 3⟩
def F.MOD_STATUS.HALT_CAUSE : Fld := ⟨0x300108, 9, 2⟩
def F.MOD_STATUS.INTAKE_CLOSED : Fld := ⟨0x300108, 11, 1⟩
def F.MOD_STATUS.TWIN_MODE : Fld := ⟨0x300108, 12, 4⟩
def F.MOD_CMD.OP : Fld := ⟨0x300110, 0, 3⟩
def F.MOD_CMD.TARGET : Fld := ⟨0x300110, 3, 3⟩
def F.MOD_CMD.BUSY : Fld := ⟨0x300110, 6, 1⟩
def F.MOD_CMD.STATUS : Fld := ⟨0x300110, 8, 8⟩
def F.MOD_ENTER_TIME.TIME : Fld := ⟨0x300118, 0, 64⟩
def F.MOD_CNT0.SOLO_ENTRIES : Fld := ⟨0x300300, 0, 16⟩
def F.MOD_CNT0.HALT_ENTRIES : Fld := ⟨0x300300, 16, 16⟩
def F.MOD_CNT0.DRAINS : Fld := ⟨0x300300, 32, 16⟩
def F.MOD_CNT0.FREEZES : Fld := ⟨0x300300, 48, 16⟩
def F.MOD_ERR.SPLIT_SEEN : Fld := ⟨0x300380, 0, 1⟩
def F.MOD_ERR.RESUME_REFUSED : Fld := ⟨0x300380, 1, 1⟩
def F.MOD_ERR.DRAIN_TIMED_OUT : Fld := ⟨0x300380, 2, 1⟩
def F.REC_CTL.MIN_SEV : Fld := ⟨0x1000100, 0, 3⟩
def F.REC_CTL.FAULT_SEV : Fld := ⟨0x1000100, 3, 3⟩
def F.REC_CTL.FLUSH_WM : Fld := ⟨0x1000100, 8, 16⟩
def F.REC_CTL.FLUSH_MS : Fld := ⟨0x1000100, 24, 16⟩
def F.REC_STATUS.UNFLUSHED : Fld := ⟨0x1000108, 0, 14⟩
def F.REC_STATUS.RESERVE_USED : Fld := ⟨0x1000108, 16, 12⟩
def F.REC_STATUS.LOG_RECORDS : Fld := ⟨0x1000108, 32, 17⟩
def F.REC_STATUS.FLUSHING : Fld := ⟨0x1000108, 49, 1⟩
def F.REC_RECNO.NEXT : Fld := ⟨0x1000110, 0, 32⟩
def F.REC_RECNO.OLDEST : Fld := ⟨0x1000110, 32, 32⟩
def F.REC_CLEAR_PT.POINT : Fld := ⟨0x1000118, 0, 32⟩
def F.REC_CLEAR_PT.MASK : Fld := ⟨0x1000118, 32, 8⟩
def F.REC_RD_SEL.RECORD_NO : Fld := ⟨0x1000180, 0, 32⟩
def F.REC_RD_SEL.FIRST_AT : Fld := ⟨0x1000180, 32, 1⟩
def F.REC_RD_SEL.STATUS : Fld := ⟨0x1000180, 40, 2⟩
def F.REC_RD_SEL.BUSY : Fld := ⟨0x1000180, 42, 1⟩
def F.REC_RD_DATA.DATA (n : Nat) : Fld := ⟨0x1000200 + 8 * n, 0, 64⟩
def F.REC_CNT0.LOST_LOW : Fld := ⟨0x1000300, 0, 32⟩
def F.REC_CNT0.LOST_HIGH : Fld := ⟨0x1000300, 32, 32⟩
def F.REC_CNT1.OVERWRITTEN : Fld := ⟨0x1000308, 0, 32⟩
def F.REC_CNT1.SCAN_BAD : Fld := ⟨0x1000308, 32, 32⟩
def F.REC_ERR.RESERVE_IN_USE : Fld := ⟨0x1000380, 0, 1⟩
def F.REC_ERR.LOST_HIGH : Fld := ⟨0x1000380, 1, 1⟩
def F.REC_ERR.FLUSH_FAIL : Fld := ⟨0x1000380, 2, 1⟩
def F.PMU_CTL.ENABLE : Fld := ⟨0x1100100, 0, 1⟩
def F.PMU_CTL.CLEAR_ALL : Fld := ⟨0x1100100, 1, 1⟩
def F.PMU_GRP.ENABLE (n : Nat) : Fld := ⟨0x1100200 + 8 * n, 0, 1⟩
def F.PMU_GRP.USER (n : Nat) : Fld := ⟨0x1100200 + 8 * n, 1, 1⟩
def F.PMU_OVF.OVF (n : Nat) : Fld := ⟨0x1100300 + 8 * n, 0, 64⟩
def F.PMU_SEL.EVENT (n : Nat) : Fld := ⟨0x1101000 + 8 * n, 0, 10⟩
def F.PMU_SEL.TENANT (n : Nat) : Fld := ⟨0x1101000 + 8 * n, 10, 12⟩
def F.PMU_SEL.TEN_EN (n : Nat) : Fld := ⟨0x1101000 + 8 * n, 22, 1⟩
def F.PMU_SEL.UNIT (n : Nat) : Fld := ⟨0x1101000 + 8 * n, 23, 6⟩
def F.PMU_SEL.UNIT_EN (n : Nat) : Fld := ⟨0x1101000 + 8 * n, 29, 1⟩
def F.PMU_SEL.CHAIN (n : Nat) : Fld := ⟨0x1101000 + 8 * n, 30, 1⟩
def F.PMU_CNT.COUNT (n : Nat) : Fld := ⟨0x1102000 + 8 * n, 0, 48⟩
def F.DBG_CTL.UNLOCKED : Fld := ⟨0x1200100, 0, 1⟩
def F.DBG_CTL.LOCK : Fld := ⟨0x1200100, 1, 1⟩
def F.DBG_CTL.PIN_EN : Fld := ⟨0x1200100, 2, 1⟩
def F.DBG_CTL.FREEZE : Fld := ⟨0x1200100, 3, 1⟩
def F.DBG_CTL.THAW : Fld := ⟨0x1200100, 4, 1⟩
def F.DBG_CTL.RESET : Fld := ⟨0x1200100, 5, 1⟩
def F.DBG_CTL.FROZEN : Fld := ⟨0x1200100, 6, 1⟩
def F.DBG_CTL.JTAG_REFUSED : Fld := ⟨0x1200100, 7, 1⟩
def F.DBG_CTL.NONCE_LIFE : Fld := ⟨0x1200100, 8, 8⟩
def F.DBG_CTL.MINUTES_LEFT : Fld := ⟨0x1200100, 16, 16⟩
def F.DBG_NONCE.NONCE : Fld := ⟨0x1200108, 0, 64⟩
def F.DBG_AUTH_ARG.OPERAND : Fld := ⟨0x1200110, 0, 64⟩
def F.DBG_AUTH_TAG.TAG (n : Nat) : Fld := ⟨0x1200120 + 8 * n, 0, 64⟩
def F.DBG_AUTH_CMD.OP : Fld := ⟨0x1200140, 0, 16⟩
def F.DBG_AUTH_CMD.BUSY : Fld := ⟨0x1200140, 16, 1⟩
def F.DBG_AUTH_CMD.STATUS : Fld := ⟨0x1200140, 24, 8⟩
def F.DBG_CNT0.ACCEPTED : Fld := ⟨0x1200300, 0, 32⟩
def F.DBG_CNT0.REFUSED : Fld := ⟨0x1200300, 32, 32⟩
def F.SVC_CMD.OP : Fld := ⟨0x1300100, 0, 4⟩
def F.SVC_CMD.IFACE : Fld := ⟨0x1300100, 4, 3⟩
def F.SVC_CMD.UNIT : Fld := ⟨0x1300100, 8, 8⟩
def F.SVC_CMD.CE : Fld := ⟨0x1300100, 16, 3⟩
def F.SVC_CMD.BUSY : Fld := ⟨0x1300100, 24, 1⟩
def F.SVC_CMD.STATUS : Fld := ⟨0x1300100, 32, 8⟩
def F.SVC_CTL.HANDOVER_LIMIT : Fld := ⟨0x1300108, 0, 16⟩
def F.SVC_CTL.DRAIN_LIMIT : Fld := ⟨0x1300108, 16, 8⟩
def F.SVC_CTL.CH_FILL_RATE : Fld := ⟨0x1300108, 24, 8⟩
def F.SVC_CTL.MIGRATE_RATE : Fld := ⟨0x1300108, 32, 8⟩
def F.SVC_STATUS.PROC : Fld := ⟨0x1300110, 0, 4⟩
def F.SVC_STATUS.PHASE : Fld := ⟨0x1300110, 4, 4⟩
def F.SVC_STATUS.CH_OUT : Fld := ⟨0x1300110, 8, 16⟩
def F.SVC_STATUS.PORT_OUT : Fld := ⟨0x1300110, 24, 4⟩
def F.SVC_STATUS.TWIN_CH_OUT : Fld := ⟨0x1300110, 28, 1⟩
def F.SVC_STATUS.PROGRESS : Fld := ⟨0x1300110, 29, 10⟩
def F.SVC_FW.RUNNING_SLOT : Fld := ⟨0x1300118, 0, 1⟩
def F.SVC_FW.HANDOVER_PENDING : Fld := ⟨0x1300118, 1, 1⟩
def F.SVC_FW.VERSION : Fld := ⟨0x1300118, 8, 32⟩
def F.SVC_MCODE.CURRENT : Fld := ⟨0x1300120, 0, 64⟩
def F.SVC_CNT0.HANDOVERS : Fld := ⟨0x1300300, 0, 16⟩
def F.SVC_CNT0.SWAPS : Fld := ⟨0x1300300, 16, 16⟩
def F.SVC_CNT0.CHANNEL_SERVICES : Fld := ⟨0x1300300, 32, 16⟩
def F.SVC_CNT0.RETIREMENTS : Fld := ⟨0x1300300, 48, 16⟩
def F.SVC_ERR.HANDOVER_FAIL : Fld := ⟨0x1300380, 0, 1⟩
def F.SVC_ERR.SWAP_TIMEOUT : Fld := ⟨0x1300380, 1, 1⟩
def F.SVC_ERR.CH_IN_FAIL : Fld := ⟨0x1300380, 2, 1⟩
def F.SVC_ERR.ABORTED : Fld := ⟨0x1300380, 3, 1⟩
def F.GEN_ID.PRODUCT : Fld := ⟨0x100, 0, 16⟩
def F.GEN_ID.STEPPING : Fld := ⟨0x100, 16, 4⟩
def F.GEN_ID.GRADE : Fld := ⟨0x100, 20, 1⟩
def F.GEN_ID.MAP_VERSION : Fld := ⟨0x100, 24, 8⟩
def F.GEN_SERIAL.SERIAL : Fld := ⟨0x108, 0, 64⟩
def F.GEN_BOOT.PHASE : Fld := ⟨0x110, 0, 4⟩
def F.GEN_BOOT.FAIL : Fld := ⟨0x110, 4, 4⟩
def F.GEN_BOOT.SK : Fld := ⟨0x110, 8, 2⟩
def F.GEN_BOOT.SK_FAILED : Fld := ⟨0x110, 10, 2⟩
def F.GEN_BOOT.BOOTED_SLOT : Fld := ⟨0x110, 12, 1⟩
def F.GEN_BOOT.FALLBACK : Fld := ⟨0x110, 13, 1⟩
def F.GEN_BOOT.HDR_COPY : Fld := ⟨0x110, 14, 1⟩
def F.GEN_BOOT.HDR_DEFAULT : Fld := ⟨0x110, 15, 1⟩
def F.GEN_BOOT.BOOT_COUNT : Fld := ⟨0x110, 32, 16⟩
def F.GEN_TIME.TIME : Fld := ⟨0x118, 0, 64⟩
def F.GEN_PATH_CTL.BAR0_HP0 : Fld := ⟨0x180, 0, 1⟩
def F.GEN_PATH_CTL.BAR0_HP1 : Fld := ⟨0x180, 1, 1⟩
def F.GEN_ERR.LOCKED_WRITE : Fld := ⟨0x200, 0, 1⟩
def F.GEN_ERR.UNMAPPED : Fld := ⟨0x200, 1, 1⟩
def F.GEN_ERR.PARTIAL_WRITE : Fld := ⟨0x200, 2, 1⟩
def F.GEN_ERR.PATH_DENIED : Fld := ⟨0x200, 3, 1⟩
def F.GEN_ERR.UNSERVED : Fld := ⟨0x200, 4, 1⟩
def F.GEN_ERR.MISALIGNED : Fld := ⟨0x200, 5, 1⟩
def F.GEN_ERR_LOG.OFFSET : Fld := ⟨0x208, 0, 25⟩
def F.GEN_ERR_LOG.PATH : Fld := ⟨0x208, 25, 3⟩
def F.GEN_ERR_LOG.KIND : Fld := ⟨0x208, 28, 4⟩
def F.GEN_ERR_LOG.FIELD_LSB : Fld := ⟨0x208, 32, 6⟩
def F.GEN_CNT0.LOCKED_WRITES : Fld := ⟨0x300, 0, 16⟩
def F.GEN_CNT0.UNMAPPED : Fld := ⟨0x300, 16, 16⟩
def F.GEN_CNT0.PATH_DENIED : Fld := ⟨0x300, 32, 16⟩
def F.GEN_CNT0.UNSERVED : Fld := ⟨0x300, 48, 16⟩
def F.GEN_MBOX_CMD.CODE : Fld := ⟨0x500, 0, 8⟩
def F.GEN_MBOX_CMD.BUSY : Fld := ⟨0x500, 8, 1⟩
def F.GEN_MBOX_CMD.STATUS : Fld := ⟨0x500, 16, 8⟩
def F.GEN_MBOX_ARG.DPA : Fld := ⟨0x508, 0, 44⟩
def F.GEN_THERM.TEMP : Fld := ⟨0x600, 0, 8⟩
def F.GEN_THERM.TEMP_MAX : Fld := ⟨0x600, 8, 8⟩
def F.GEN_THERM.WARN_C : Fld := ⟨0x600, 16, 8⟩
def F.GEN_THERM.WARN : Fld := ⟨0x600, 24, 1⟩
def F.GEN_THERM.TRIPPED : Fld := ⟨0x600, 25, 1⟩
def F.GEN_THERM.AON_ONLY : Fld := ⟨0x600, 26, 1⟩

end Sys2Proof.Machine
end

