-- ==== Sys2Proof/Machine/State.lean ====
section
/-! DEFINITION. The state of the block: every piece of state the spec gives it, as plain data, grouped by the island
that owns it, and the state right after reset. Tables (`Tab`) are sorted lists; memories are canonical cell lists. -/

namespace Sys2Proof.Machine

/-- The block has no fault outcome: every failure the spec describes is a status, a flag or a record in State. The
type is empty; nothing raises it (safe: no command ends a run). -/
inductive Fault where
  deriving DecidableEq, Repr

/-- Refusals. -/
inductive Refusal where
  /-- Raised by `exec` alone, for a command that has no meaning yet; safe, since nothing is claimed of it. -/
  | notModelled (mnemonic : String)
  deriving DecidableEq, Repr

/-- Run state of an island, in the encoding of GEN_ISLAND_STATE (R37): 0 off, 1 in reset, 2 clock-gated, 3 running. -/
inductive Run where
  | off | inReset | gated | running
  deriving DecidableEq, Repr

def Run.code : Run → Nat
  | .off => 0 | .inReset => 1 | .gated => 2 | .running => 3

/-! ### Records (17) -/

/-- A Contrail record (Table REC-1); its CRC is computed when it is read. -/
structure Record where
  time : Nat
  no : Nat
  sev : Nat
  island : Nat
  cat : Nat
  inst : Nat
  boot : Nat
  lostBefore : Nat
  object : Nat
  reg : Nat
  value : Word
  arg0 : Word
  arg1 : Word
  deriving DecidableEq, Repr

/-- An item on a handshake crossing (R16). -/
inductive XItem where
  /-- A record on its way to REC (crossing 19). -/
  | record (r : Record)
  /-- Write data of a unit on its way into ingress (crossings 0, 3, 5, 12). -/
  | write (unit : Nat)
  deriving DecidableEq, Repr

/-! ### The ingress persistence buffer and the durability contract (01, 02) -/

/-- Where a unit came from (Table DUR-5), with what its door needs to answer for it. -/
inductive Door where
  | cxl (p : Port) (ld : Nat)
  | fabric (session msg : Nat) (f : Bool)
  | strand (cmd op : Nat)
  /-- The journal entry of a command, at a state of Table REC-5. -/
  | journal (cmd state : Nat)
  | completion (cmd : Nat)
  /-- A unit the twin forwarded in the MFWD of this MSN (R238). -/
  | twin (msn : Nat)
  /-- A write of the device itself: SUBMIT entries, descriptor blocks, repairs. -/
  | device
  deriving DecidableEq, Repr

/-- Where a held CXL write sits (Table HST-3, rows 2 and 3); `order` is a fabric packet that waits for its message's turn
and has no position and no charge yet (R210). -/
inductive Hold where
  | none | pool | credit | order
  deriving DecidableEq, Repr

/-- An atomic performed at its position in region order (R157). -/
inductive Atomic where
  | add (v : Word)
  | cas (cmp swap : Word)
  deriving DecidableEq, Repr

/-- What became of a write taken in at a door. -/
inductive Settle where
  | pending
  | reached (c : Class)
  | failed (st : Status)
  deriving DecidableEq, Repr

/-- A commit unit in the ingress buffer (Table DUR-2). -/
structure CUnit where
  id : Nat
  region : Nat
  tenant : Nat
  dpa : Nat
  len : Nat
  cells : List Host.Cell
  /-- The class it is admitted at (R40). -/
  cls : Class
  /-- Its region's SOLO_POLICY at admission (R52): true DOWNGRADE. -/
  downgrade : Bool
  /-- Its region's WPOL at admission (R52). -/
  wpol : Nat
  door : Door
  /-- Written in the ingress buffer: its item has crossed (R17). -/
  written : Bool
  /-- Ceiling charge accepted by DST, or none needed (R258). -/
  charged : Bool
  hold : Hold
  /-- MSN of the last frame of its copy, once sent (R231). -/
  msn : Option Nat
  /-- Frames of its copy sent so far, and the MSN of the first (R231, R276). -/
  parts : Nat
  first : Nat
  /-- The twin's acknowledgement covers its copy. -/
  copied : Bool
  /-- It was admitted at the door that is not home, and the home orders it (R238). -/
  away : Bool
  /-- Position in its region's order; 0 until it has one. -/
  position : Nat
  committed : Bool
  reached : Class
  /-- An atomic extent: invisible as a whole until it commits, and no read waits for it (R62). -/
  extent : Bool
  atomic : Option Atomic
  /-- The sealed record or checkpoint it carries: its number in the region's seal state. -/
  record : Option Nat
  /-- Its chain head is known (R352); true for a unit that is no record. -/
  chained : Bool
  poison : Bool
  /-- Loser side of a separation: sent without a MACK, pending until the twins link again (R240). -/
  inDoubt : Bool
  /-- Zeros of ZLN: it takes one 64-byte entry for each 4 KiB (R167). -/
  zeros : Bool
  /-- Data of a GET: the tenant whose fabric credit it holds until it is placed (R209). -/
  pooled : Option Nat
  /-- An extent's XOPEN, by MSN (R236), and the pieces of it that the twin was sent as they arrived: first byte and length (R61). -/
  xref : Option Nat
  ahead : List (Nat × Nat)
  deriving DecidableEq, Repr

/-- An atomic extent that is open or waiting to open (R61, R64). -/
structure Extent where
  region : Nat
  dpa : Nat
  declared : Nat
  arrived : List Host.Cell
  got : Nat
  cls : Class
  door : Door
  /-- Its reservation is held. -/
  opened : Bool
  /-- Waits for the twin's XGRANT to the XOPEN of this MSN (R236). -/
  xopen : Option Nat
  granted : Bool
  /-- Pieces that the twin has been sent as they arrived: first byte and length (R61). -/
  sent : List (Nat × Nat)
  deriving DecidableEq, Repr

/-- An XOPEN of the twin: reservation in 4 KiB units, granted or queued in order of arrival (R236). -/
structure XReq where
  msn : Nat
  region : Nat
  units4k : Nat
  granted : Bool
  deriving DecidableEq, Repr

/-- PST: ingress buffer and commit tracking. -/
structure PstState where
  /-- In order of admission; the units of one region stand in region order (R56). -/
  units : List CUnit
  nextUnit : Nat
  extents : Tab Extent
  nextExtent : Nat
  xreqs : List XReq
  deriving DecidableEq, Repr

/-- A region's sealed-log configuration (R350). -/
structure SealCfg where
  ckptArea : Nat
  autoRecords : Nat
  autoMs : Nat
  deriving DecidableEq, Repr

/-- A region descriptor (R50, Table ISA-15). -/
structure Region where
  base : Nat
  len : Nat
  floor : Class
  atomic : Bool
  sealed : Bool
  downgrade : Bool
  homeOdd : Bool
  wpol : Nat
  tenant : Nat
  /-- Tenants granted access, as the descriptor's grant word gives it. -/
  grant : Word
  sealCfg : SealCfg
  placement : Word
  /-- It has been written since it was created (R51). -/
  written : Bool
  nextPos : Nat
  /-- The first downgrade of this episode has written its WARN (R66). -/
  warned : Bool
  deriving DecidableEq, Repr

/-! ### Host ports (03) -/

structure Taken where
  id : Nat
  dpa : Nat
  settle : Settle
  deriving DecidableEq, Repr

/-- A fence read that waits (R94). -/
structure FenceReq where
  bound : Nat
  off : Nat
  len : Nat
  tag : Nat
  deriving DecidableEq, Repr

/-- A logical device of a port: its commit-fence window (Table HST-4). -/
structure LdState where
  seq : Nat
  /-- Writes taken in since the last completed fence, oldest first. -/
  taken : List Taken
  status : Status
  failCount : Nat
  firstFail : Nat
  waiting : List FenceReq
  deriving DecidableEq, Repr

structure PortState where
  /-- HST_PORT_STATUS.LINK, WIDTH, SPEED. -/
  link : Nat
  width : Nat
  speed : Nat
  /-- ENABLE has been cleared, and writes taken in have still to reach PST (R103). -/
  closing : Bool
  /-- Bound of the Global Persistent Flush in progress (R99). -/
  gpf : Option Nat
  /-- RwD credits the host holds, and those withheld for mirror traffic (R27, R84, R91). -/
  credits : Nat
  owed : Nat
  /-- Sequence number of the next flit (R89). -/
  rxSeq : Nat
  /-- The link's partner is a switch with MLD ports (R79). -/
  mldSwitch : Bool
  deriving DecidableEq, Repr

/-- Who a read answers. -/
inductive Reader where
  | cxl (p : Port) (ld tag : Nat)
  /-- A GET: its session and message (R199). -/
  | get (session msg : Nat)
  /-- A read the twin forwarded: the MSN of its frame (R235). -/
  | twin (msn : Nat)
  deriving DecidableEq, Repr

/-- A read that waits for a pending unit or an unrestored page (R46, R101). -/
structure ReadReq where
  reader : Reader
  dpa : Nat
  len : Nat
  bound : Nat
  /-- A GET's bytes at its position, once all its pages are restored, and the earlier units still pending (R199). -/
  snap : Option (List Byte)
  pend : List Nat
  deriving DecidableEq, Repr

/-- A read of a host that the home twin answers (R235). -/
structure Forwarded where
  port : Port
  ld : Nat
  tag : Nat
  line : Nat
  deriving DecidableEq, Repr

structure HstState where
  hp0 : PortState
  hp1 : PortState
  /-- Key 16 × port + LD. -/
  lds : Tab LdState
  /-- Tenants whose headroom bit is 1 at the doors, as last published (R84, R275). -/
  headroom : List Nat
  reads : List ReadReq
  /-- Committed HDM decoders (R78). -/
  decoders : List (Port × Hdm)
  /-- Reads forwarded to the home twin and not yet answered, oldest first (R88, R235). -/
  forwarded : List Forwarded
  deriving DecidableEq, Repr

/-! ### Parhelion and the twin (07) -/

/-- A mirror frame (Tables TWN-3 and TWN-4). -/
structure Frame where
  ty : Nat
  cls : Class
  last : Bool
  region : Nat
  msn : Nat
  dpa : Nat
  position : Nat
  epoch : Nat
  ref : Nat
  aux : Nat
  data : List Byte
  deriving DecidableEq, Repr

/-- A frame as it is sent: header words, data, and with ENCRYPT = 1 the tag (R228). -/
structure Wire where
  w0 : Word
  w1 : Word
  w2 : Word
  w3 : Word
  data : List Byte
  tag : Option (List Byte)
  deriving DecidableEq, Repr

/-- A mirror copy of the twin's unit, in this device's ingress (R231). -/
structure Copy where
  /-- Its unit's number in this ingress buffer, which all frames of the unit share. -/
  uid : Nat
  msn : Nat
  /-- It belongs to an extent (R62); of one the home opened, the MSN of the XOPEN. -/
  extent : Bool
  ref : Option Nat
  region : Nat
  dpa : Nat
  cls : Class
  position : Nat
  last : Bool
  cells : List Host.Cell
  /-- Its MCV bit has arrived. -/
  committed : Bool
  charged : Bool
  deriving DecidableEq, Repr

/-- Twin states (Table TWN-8). -/
inductive Twin where
  | absent | linking | resyncIn | resyncOut | paired | fallback | unconfirmed | alone | lost
  deriving DecidableEq, Repr

def Twin.code : Twin → Nat
  | .absent => 0 | .linking => 1 | .resyncIn => 2 | .resyncOut => 3 | .paired => 4 | .fallback => 5
  | .unconfirmed => 6 | .alone => 7 | .lost => 8

/-- HB_IN (Table TWN-7). -/
inductive Hb where
  | low | toggling | high
  deriving DecidableEq, Repr

def Hb.code : Hb → Nat
  | .low => 0 | .toggling => 1 | .high => 2

/-- A Parhelion port. -/
structure PhState where
  /-- Its neighbour's LINK_ID agrees: the port is up (R225). -/
  up : Bool
  /-- Its lanes carry flits; LINK_ID has been sent. -/
  trained : Bool
  failed : Bool
  width : Nat
  /-- Flits sent and not covered by FACK, with their replay counts (R222), and the first flit that FACK does not cover. -/
  flits : List (Nat × Nat)
  fack : Nat
  /-- After a bad flit, discard until replay. -/
  discarding : Bool
  deriving DecidableEq, Repr

structure PhlState where
  ph0 : PhState
  ph1 : PhState
  twin : Twin
  /-- The state before UNCONFIRMED. -/
  before : Twin
  /-- LOST was entered by command or drain, not by lease loss. -/
  lostByCommand : Bool
  primary : Bool
  hbIn : Hb
  epoch : Nat
  /-- The lease term runs. -/
  leaseRunning : Bool
  /-- Lease expiry plus GUARD has passed. -/
  guardPassed : Bool
  /-- The lease was held at the last save (Table TWN-9). -/
  heldAtSave : Bool
  /-- This side served alone since the twins last linked. -/
  servedAlone : Bool
  linkIdSeen : Bool
  linkEpoch : Nat
  txNext : Nat
  txAcked : Nat
  /-- Frames sent and not covered by a MACK, oldest first. -/
  unacked : List Frame
  /-- Frames numbered that wait for credit or for a channel, oldest first. -/
  txWait : List Frame
  /-- When each of them was sent, by MSN, ns. -/
  sentAt : Tab Nat
  rxNext : Nat
  /-- Credit left, in 256-byte units; and what frames received hold of PH0_RESERVE, by MSN (R224). -/
  credit : Nat
  rxHeld : Tab Nat
  copies : List Copy
  leaseNo : Nat
  /-- 16 KiB pages marked since the separation (R252). -/
  separation : List Nat
  resyncKind : Nat
  receiver : Bool
  resyncLeft : List Nat
  twinMode : Nat
  /-- Whether the twin's last LINK_ID offered a kept image. -/
  peerEpoch : Nat
  /-- The twin's node ID, from its last LINK_ID. -/
  peerNode : Nat
  /-- A LINK_ID has told the twin's node (R541). -/
  peerKnown : Bool
  /-- What its last LINK_ID says of its image and its lease, and the last MSNs it had received and sent. -/
  peerKept : Bool
  peerPrimary : Bool
  peerReceived : Nat
  peerSent : Nat
  twinChOut : List Nat
  /-- Frames of a forwarded unit whose last has still to come (R238), oldest first. -/
  fwdParts : List Frame
  /-- The next copy, forwarded unit or page waits for credit (R27, R276). -/
  stalled : Bool
  /-- CTRL HMAP frames of this device that the twin has not answered, by MSN, and those of the twin that wait for their fence, with
  their blocks (R52, R53). -/
  hmapOut : List Nat
  hmapIn : List (Nat × List Byte)
  /-- Regions, tenants and queue pairs that a resync's source has named: kind 0, 1 or 2, and number (R53). -/
  told : List (Nat × Nat)
  /-- A change of the twin's that is on its way, in pieces (R168). -/
  changeIn : List Byte
  /-- Management requests that complete once the twin holds what they changed: where they came from, the MSN, the result block. -/
  twinWait : List (Path × Nat × List Byte)
  deriving DecidableEq, Repr

/-! ### Dirty ceiling, destage, save, restore (08) -/

/-- A map entry (Table CEI-4). -/
structure MapEntry where
  valid : Bool
  zero : Bool
  poisonAny : Bool
  channel : Nat
  ce : Nat
  lun : Nat
  block : Nat
  page : Nat
  seq : Nat
  deriving DecidableEq, Repr

/-- A 16 KiB page that has been written, restored or charged. -/
structure Page where
  /-- Charged to `tenant` and not yet on NAND (R257). -/
  dirty : Bool
  tenant : Nat
  destaging : Bool
  /-- A unit was admitted during the destage (R259). -/
  redirtied : Bool
  since : Nat
  written : Bool
  unrestored : Bool
  demand : Bool
  deriving DecidableEq, Repr

/-- One save image on NAND (R286). -/
structure SaveImage where
  no : Nat
  complete : Bool
  /-- The ingress buffer: units, open extents and mirror copies (R44). -/
  units : List CUnit
  extents : List Extent
  copies : List Copy
  /-- In-flight mirror frames: sent and not acknowledged, received and not yet a unit (R44). -/
  frames : List Frame
  /-- Pages the image holds, not yet taken and destaged; of an incomplete save, the dirty pages it lost. -/
  pages : List Nat
  /-- Their bytes, near-cache sectors laid over the DDR5 pages (R295), and their poisoned lines. -/
  ddr : Memory
  poison : List Nat
  /-- Space it takes in the save zone. -/
  mib : Nat
  deriving DecidableEq, Repr

/-- A NAND block the device has put to use (R284, R285). -/
structure NandBlock where
  erases : Nat
  /-- Rewritten elsewhere once for its corrected bits (R285). -/
  refreshed : Bool
  retired : Bool
  deriving DecidableEq, Repr

structure DstState where
  pages : Tab Page
  /-- The DRAM-to-NAND map. -/
  map : Tab MapEntry
  /-- Segments with unwritten changes: changes since the last write, time of the first (R280). -/
  dirtySegs : Tab (Nat × Nat)
  /-- Segments under reload (R369). -/
  segReload : List Nat
  destageSeq : Nat
  /-- Data-zone copies, by DPA. -/
  nand : Memory
  nandPoison : List Nat
  images : List SaveImage
  saveNo : Nat
  /-- C_eff, its limiter and the terms, in MiB (R261). -/
  ceff : Nat
  limiter : Nat
  energyTerm : Nat
  saveTerm : Nat
  zone : Nat
  lastAmber : Option Nat
  /-- Last ADC code of HUP_SENSE. -/
  hupCode : Nat
  /-- Measured c and esr, and whether they come from a test. -/
  measC : Nat
  measEsr : Nat
  measValid : Bool
  measTime : Nat
  testing : Bool
  /-- A power failure cut a test short: its NOTICE is due after restore (R269). -/
  testCut : Bool
  deferred : Nat
  deferSince : Nat
  /-- Tenants' last charge request, ns (R273). -/
  asked : Tab Nat
  /-- Free capacity of the save zone in MiB, erased blocks of the data zone in percent. -/
  saveErased : Nat
  channels : Nat
  /-- Raw NAND in GiB, as found at RESTORE entry. -/
  rawGib : Nat
  /-- NAND channels out of service (R398, R414). -/
  nandOut : List Nat
  saving : Bool
  dirtyChannels : List Nat
  nandShort : Bool
  lastIncomplete : Bool
  blocks : Tab NandBlock
  gcRunning : Bool
  avgPe : Nat
  spareLeft : Nat
  retired : Nat
  demandOut : Nat
  deriving DecidableEq, Repr

/-! ### Modes (16) -/

/-- Modes (Table MOD-1). -/
inductive Mode where
  | cold | restore | serve | solo | drain | save | service | halt
  deriving DecidableEq, Repr

def Mode.code : Mode → Nat
  | .cold => 0 | .restore => 1 | .serve => 2 | .solo => 3 | .drain => 4 | .save => 5 | .service => 6 | .halt => 7

structure ModState where
  mode : Mode
  prev : Mode
  target : Nat
  haltCause : Nat
  intakeClosed : Bool
  enteredAt : Nat
  /-- HALT_HOLD has passed: links are down. -/
  haltHeld : Bool
  /-- RESUME has been accepted, and the twins have still to link or decide (R460). -/
  resumed : Bool
  frozen : Bool
  frozenAt : Nat
  deriving DecidableEq, Repr

/-! ### Tenants, queue pairs, commands and strands (04, 05) -/

/-- A tenant's reservations (R136) and what it uses. -/
structure Tenant where
  ddrMib : Nat
  ncMib : Nat
  ceilMib : Nat
  credits : Nat
  contexts : Nat
  ctxResident : Nat
  strandsMin : Nat
  strandsMax : Nat
  deriving DecidableEq, Repr

/-- Queue pair states; stopped when its context is lost (Table MEM-4). -/
inductive QpLife where
  | active | destroying | stopped
  deriving DecidableEq, Repr

/-- A queue pair (Table PRG-1). -/
structure Qp where
  tenant : Nat
  depth : Nat
  sqBase : Nat
  cqBase : Nat
  jBase : Nat
  jRegion : Nat
  cls : Nat
  maxStrands : Nat
  defWait : Nat
  priv : Bool
  handles : List Word
  sqTail : Nat
  sqHead : Nat
  cqTail : Nat
  cqHead : Nat
  phase : Bool
  /-- Completion entries posted and not consumed: the FSEQ of each, oldest first, 0 where there is none. -/
  posted : List Nat
  /-- When it was last fetched from, as a count of fetches (R116). -/
  turn : Nat
  fseq : Nat
  life : QpLife
  /-- The DESTROYs that wait for it: command and operation (R111). -/
  destroyer : List (Nat × Nat)
  /-- AS8200 length-limit mode of its context (R335). -/
  as8200 : Bool
  /-- SIG records in the current second and those dropped (R151). -/
  sigSecond : Nat
  sigCount : Nat
  sigDropped : Nat
  deriving DecidableEq, Repr

/-- Journal states (Table DUR-7). -/
inductive JState where
  | free | accepted | executing | durable | done | failed
  deriving DecidableEq, Repr

def JState.code : JState → Nat
  | .free => 0 | .accepted => 1 | .executing => 2 | .durable => 3 | .done => 4 | .failed => 5

/-- A unit a command admitted: what became of it, and whether a failure of it reached s31 (R127). -/
structure UnitRec where
  id : Nat
  /-- The operation that brought it. -/
  op : Nat
  region : Nat
  settle : Settle
  reported : Bool
  deriving DecidableEq, Repr

/-- A reference to a derived key (R344): root, use and label. -/
structure KeyRef where
  root : Nat
  use : Nat
  purpose : Nat
  tenant : Nat
  region : Nat
  node : Nat
  epoch : Nat
  deriving DecidableEq, Repr

/-- What an outstanding operation still waits for. -/
inductive Phase where
  /-- To read its source, or to take its effect. -/
  | source
  /-- For its units to be admitted and to commit or fail. -/
  | units
  /-- For the twin, the far end, a lender, CTL or a move: the event row that brings the answer sets `done`. -/
  | external
  /-- For its completion alone: `done` is known. -/
  | ready
  deriving DecidableEq, Repr

/-- What an operation completes with: status, the value for its register, and the class for s31. -/
structure OpDone where
  st : Status
  val : Option Word
  cls : Nat
  deriving DecidableEq, Repr

/-- Where an operation's CIP message is (R164). -/
inductive CipStage where
  | none | running | done
  deriving DecidableEq, Repr

/-- An outstanding operation of a command's strand: it holds a tracker (R105). -/
structure Op where
  id : Nat
  /-- The engine whose tracker it holds (R105). -/
  engine : Nat
  word : BitVec 128
  opcode : Nat
  pc : Nat
  /-- The register it will write; 0 none (R146). -/
  dest : Nat
  /-- The key slots it uses or writes. -/
  keys : List Nat
  quiet : Bool
  phase : Phase
  /-- The region it writes, or fences; 65,536 none. -/
  region : Nat
  prim : Nat
  sec : Nat
  len : Nat
  x : Word
  y : Word
  key : Option KeyRef
  /-- Its source is served by far access (R134). -/
  far : Bool
  /-- Units admitted before it (nextUnit at issue). -/
  bound : Nat
  cls : Class
  units : List Nat
  /-- The atomic extent it opens, until that is admitted (R61, R64). -/
  extent : Option Nat
  /-- Extents that had not committed when it issued: what it reads is what they will replace (R62). -/
  skip : List Nat
  /-- Pages of its region not yet copied to the twin when a MIRW issued (R159). -/
  pages : List Nat
  /-- Number of its message, loan, move, record or checkpoint. -/
  link : Nat
  /-- What it completes with, once known. -/
  done : Option OpDone
  /-- The input that CIP has been given, its message, and how many bytes of output CIP has released (R164, R347). -/
  input : Option (List Byte)
  cip : CipStage
  out : Nat
  deriving DecidableEq, Repr

/-- A command taken from a queue, until it is DONE. -/
structure Cmd where
  qp : Nat
  fseq : Nat
  sqIndex : Nat
  sqHead : Nat
  tag : Nat
  cookie : Nat
  inline : Bool
  proc : Nat
  words : List (BitVec 128)
  args : List Word
  onYield : Bool
  barrier : Bool
  waitLimit : Nat
  /-- NOT_JOURNALLED: rejected at fetch (R119). -/
  rejected : Bool
  state : JState
  /-- Its ACCEPTED entry has committed (R74). -/
  accepted : Bool
  started : Bool
  ended : Bool
  /-- The DURABLE or FAILED entry has been written and has committed. -/
  closing : Bool
  closed : Bool
  status : Status
  /-- The strand ended on a terminating fault. -/
  faulted : Bool
  /-- The units it admitted, in program order. -/
  hist : List UnitRec
  /-- Its outstanding operations, in program order. -/
  ops : List Op
  nextOp : Nat
  /-- s31[7:0] and s1 at strand end. -/
  lastStatus : Status
  result : Word
  steps : Nat
  faultOp : Nat
  faultPc : Nat
  tAccept : Nat
  tEnd : Nat
  deriving DecidableEq, Repr

/-- The program a strand runs at one call level. -/
inductive Prog where
  | inline (words : List (BitVec 128))
  | proc (n : Nat)
  deriving DecidableEq, Repr

/-- One invocation: its program, the index of its next instruction, its branch counters and where RET writes. -/
structure Invocation where
  prog : Prog
  pc : Nat
  counters : Tab Nat
  deriving DecidableEq, Repr

/-- A strand (R125). -/
structure Strand where
  cmd : Nat
  qp : Nat
  /-- Innermost invocation first. -/
  frames : List Invocation
  s : List Word
  h : List Word
  /-- Handles that stand for loans: handle number, loan number (R166). -/
  loanH : Tab Nat
  k : List (Option KeyRef)
  scratch : Memory
  /-- A stage wait has begun (R133). -/
  stageWait : Bool
  /-- Issues ahead of every class, once (R107). -/
  aged : Bool
  /-- When it last issued, as a count of issues: the lowest of its class goes first. -/
  turn : Nat
  /-- Spilled (R134); the delay of a YLD still runs (R151). -/
  spilled : Bool
  delaying : Bool
  deriving DecidableEq, Repr

structure Proc where
  words : List (BitVec 128)
  retired : Bool
  deriving DecidableEq, Repr

structure PeState where
  qps : Tab Qp
  cmds : Tab Cmd
  nextCmd : Nat
  /-- Key: slot number for a strand in a slot; 4,096 + spill index for a yielded strand. -/
  strands : Tab Strand
  procs : Tab Proc
  /-- No new strand instruction starts after intake stop (R31, R129). -/
  stopped : Bool
  /-- Issues and fetches so far: the order of turns (R107, R116). -/
  issues : Nat
  fetches : Nat
  deriving DecidableEq, Repr

/-! ### Contrail (17) -/

structure RecState where
  /-- REC has been released; records made before wait in AON. -/
  released : Bool
  /-- The flash area has been scanned since release (R476). -/
  scanned : Bool
  /-- Records that wait for the scan (R476). -/
  waiting : List Record
  /-- The newest accepted records, oldest first (R474). -/
  ring : List Record
  nextNo : Nat
  /-- Numbers of accepted records not yet flushed, oldest first. -/
  unflushed : List Nat
  flushing : Bool
  /-- The flush was started by a fault record or an accepted PFAIL_N (R425). -/
  urgent : Bool
  lastFlush : Nat
  /-- Records in the flash log and in the reserve. -/
  log : List Record
  reserve : List Record
  clearPoint : Nat
  clearMask : Nat
  /-- A clear whose record is not yet programmed: its number and mask (R481). -/
  clearPending : Option (Nat × Nat)
  deriving DecidableEq, Repr

/-! ### Supervision (12) -/

/-- Sequencer states (Table PWR-2). -/
inductive SeqSt where
  | off | cascWait | rampUp | up | saveHold | rampDown | latched
  deriving DecidableEq, Repr

def SeqSt.code : SeqSt → Nat
  | .off => 0 | .cascWait => 1 | .rampUp => 2 | .up => 3 | .saveHold => 4 | .rampDown => 5 | .latched => 6

/-- A rail fault record (Table PWR-8); its CRC is computed when it is read. -/
structure FaultRec where
  time : Nat
  no : Nat
  ch : Nat
  kind : Nat
  phase : Nat
  first : Bool
  timeoutPath : Bool
  latched : Bool
  sns : Nat
  step : Nat
  position : Nat
  en : BitVec 32
  good : BitVec 32
  hup : Nat
  v12 : Nat
  deriving DecidableEq, Repr

/-- A reset output (R405): low, its stretch running, and whether that stretch is a PULSE. -/
structure RstOut where
  asserted : Bool
  stretching : Bool
  pulsing : Bool
  deriving DecidableEq, Repr

structure SeqState where
  st : SeqSt
  step : Nat
  /-- Cascade position 0 to 7 and whether it has been decoded (R389). -/
  position : Nat
  posValid : Bool
  posError : Bool
  onPending : Bool
  /-- An off request waits for the current step (R396). -/
  offPending : Bool
  timeoutPath : Bool
  /-- RAMP_DOWN ends in LATCHED: the failure path, or VDD_SERDES lost (R392, Table PWR-7). -/
  failPath : Bool
  stuck : Bool
  /-- A first failure has been recorded in this sequence (R406). -/
  firstDone : Bool
  /-- SEQ_EN and good, by channel; channels that have finished switching off, or were never on.  A channel of the running
  step that waits for its ON_DELAY has SEQ_EN low. -/
  en : BitVec 32
  good : BitVec 32
  finished : BitVec 32
  /-- Pins: CASC_IN, CASC_FLT_N and PFAIL_N high, CASC_OUT, this device's drive of CASC_FLT_N, HUP_TEST_EN. -/
  cascIn : Bool
  fltHigh : Bool
  pfailHigh : Bool
  cascOut : Bool
  fltDrive : Bool
  hupTestEn : Bool
  /-- Its own cascade release has been sent. -/
  released : Bool
  rst : List RstOut
  /-- A SEQ_CH_CMD in progress: channel, and whether on (R399). -/
  chCmd : Option (Nat × Bool)
  /-- Latest ADC codes: SNS0 to SNS7, HUP_SENSE. -/
  codes : List Nat
  /-- AON fault buffer, oldest first, and the rail fault record partition. -/
  buffer : List FaultRec
  flash : List FaultRec
  nextFault : Nat
  /-- Thermal supervision (R534): the last reading, the highest, one reading at 115 °C or above, and the hold after a trip:
  0 none, 1 its 60 s run, 2 until the AON sensor reads below 95 °C. -/
  temp : BitVec 8
  tempMax : BitVec 8
  hot : Bool
  tripHold : Nat
  /-- Boot status (R518). -/
  bootPhase : Nat
  bootFail : Nat
  hdrDefault : Bool
  fallback : Bool
  ctlReleased : Bool
  deriving DecidableEq, Repr

/-! ### Near cache (09) -/

/-- Near-cache states (Table TIR-5). -/
inductive NcSt where
  | on | draining | off | invalidating
  deriving DecidableEq, Repr

def NcSt.code : NcSt → Nat
  | .on => 0 | .draining => 1 | .off => 2 | .invalidating => 3

/-- A block in a way of its set (R309); its data stands in `NcState.data`. -/
structure NcLine where
  way : Nat
  valid : BitVec 16
  dirty : BitVec 16
  pin : Bool
  wlk : Bool
  /-- Sectors a fill in progress will install. -/
  filling : BitVec 16
  deriving DecidableEq, Repr

/-- A block in the victim buffer; write-back is pending while a sector is dirty (R313). -/
structure VicBlock where
  block : Nat
  valid : BitVec 16
  dirty : BitVec 16
  deriving DecidableEq, Repr

structure NcState where
  st : NcSt
  staleRisk : Bool
  /-- ENABLE was written 1 during INVALIDATING. -/
  onAfter : Bool
  /-- Blocks in ways, by block number (DPA ÷ 4 KiB). -/
  lines : Tab NcLine
  /-- Pseudo-LRU bits of a set (R310); bit n − 1 belongs to node n. -/
  plru : Tab Nat
  /-- Oldest first. -/
  victim : List VicBlock
  data : Memory
  /-- Sets written while OFF (Table TIR-5). -/
  touched : List Nat
  /-- Ways out of use (set, way) (R365, R370), and pages that may hold dirty sectors (R370). -/
  disabled : List (Nat × Nat)
  dirtyMap : List Nat
  deriving DecidableEq, Repr

/-! ### Fabric (06) -/

/-- Session states (Table FAB-6). -/
inductive SesSt where
  | ready | open_ | closing | failed
  deriving DecidableEq, Repr

def SesSt.code : SesSt → Nat
  | .ready => 1 | .open_ => 2 | .closing => 3 | .failed => 4

/-- An unspent grant; `readOnly` when made while credit is granted for READ_REQ only (R208); `whole` names the message of a
grant taken from the open limit (R207). -/
structure Grant where
  credits : Nat
  issued : Nat
  readOnly : Bool
  whole : Option Nat
  deriving DecidableEq, Repr

/-- A CREDIT_REQ not yet met (R205). -/
structure CredReq where
  msg : Nat
  typ : Nat
  /-- Bytes not yet covered by a grant. -/
  left : Nat
  /-- Granted whole, from the open limit (R207). -/
  whole : Bool
  deriving DecidableEq, Repr

/-- A unit of a message being received. -/
structure RxUnit where
  idx : Nat
  unit : Nat
  settle : Settle
  deriving DecidableEq, Repr

/-- A message being received (R195, R211). -/
structure RxMsg where
  msg : Nat
  typ : Nat
  cls : Class
  region : Nat
  /-- DPA of its first byte. -/
  base : Nat
  len : Nat
  /-- Packets it has, the PSN that its index 0 has or would have in this epoch, modulo 2^32 (none after a rekey until a packet of the
  new epoch comes), and the indexes taken in. -/
  count : Nat
  psn0 : Option Nat
  got : List Nat
  /-- Index of the packet that carries F. -/
  final : Option Nat
  units : List RxUnit
  extent : Option Nat
  /-- The entry of a SUBMIT, and its queue pair in `base`, until its turn (R201, R210). -/
  entry : List Byte
  result : Word
  deriving DecidableEq, Repr

/-- A cached acknowledgement (R200). -/
structure AckInfo where
  msg : Nat
  status : Status
  cls : Nat
  map : Nat
  result : Word
  /-- Torn or refused, rather than acknowledged (R213). -/
  torn : Bool
  deriving DecidableEq, Repr

/-- A message this device sends. -/
structure TxMsg where
  msg : Nat
  typ : Nat
  cls : Class
  final : Bool
  subop : Bool
  region : Nat
  offset : Nat
  key : Nat
  len : Nat
  data : List Byte
  op0 : Word
  op1 : Word
  /-- The operation that sent it. -/
  cmd : Nat
  op : Nat
  /-- Packets it has and packets sent. -/
  count : Nat
  sent : Nat
  /-- READ_DATA reservation of a GET, in credits, held (R209), and the data returned so far. -/
  reserve : Nat
  reserved : Bool
  back : List (Nat × List Byte)
  /-- Its CREDIT_REQ has been sent. -/
  asked : Bool
  /-- Its ACK has come: status, class and RESULT. -/
  answer : Option (Status × Nat × Word)
  deriving DecidableEq, Repr

/-- A packet sent and not covered by a RECEIPT (R214). -/
structure TxPkt where
  psn : Nat
  msg : Nat
  retries : Nat
  pkt : Packet
  deriving DecidableEq, Repr

/-- READ_DATA that a GET of the peer is answered with: packets sent so far, and the status of the ACK that follows the last (R199,
Table FAB-9). -/
structure Reply where
  msg : Nat
  len : Nat
  data : List Byte
  sent : Nat
  status : Status
  deriving DecidableEq, Repr

/-- An AFT2 packet as it is on the wire (Table FAB-1, R180): VLAN tag as PCP and VID, IP version, DF, DSCP, ECN, addresses, UDP ports and
checksum; the header's seven words, the payload under the traffic key, the tag. -/
structure Datagram where
  vlan : Option (Nat × Nat)
  ipv4 : Bool
  dontFragment : Bool
  dscp : Nat
  ecn : Nat
  src : BitVec 128
  dst : BitVec 128
  srcPort : Nat
  dstPort : Nat
  checksum : Nat
  header : List Word
  payload : List Byte
  tag : List Byte
  deriving DecidableEq, Repr

/-- A first copy kept for comparison (R216). -/
structure Kept where
  psn : Nat
  port : FabPort
  pkt : Packet
  deriving DecidableEq, Repr

structure Session where
  params : SessionParams
  /-- Session secret (R185). -/
  secret : List Byte
  /-- Traffic keys, sending and receiving, while the context is resident and an epoch is agreed (R345). -/
  keys : Option (List Byte × List Byte)
  st : SesSt
  epoch : Nat
  /-- The epoch it has proposed and not yet had confirmed. -/
  proposed : Option Nat
  /-- Negotiated packet size. -/
  psize : Nat
  lastFar : Nat
  peerKeyEpoch : Nat
  /-- Pair its packets use now (R219). -/
  pairNow : Nat
  -- Sending
  psnNext : Nat
  ctlNext : Nat
  msgNext : Nat
  /-- CUM_PSN of the latest RECEIPT, plus one. -/
  cumAcked : Nat
  creditLimit : Nat
  creditUsed : Nat
  /-- Credit limits of the RECEIPTs, each with the last moment at which its credit may be spent, ns (R206). -/
  lots : List (Nat × Nat)
  /-- The peer's failed or OFF ports. -/
  peerDown : Nat
  tx : List TxMsg
  unreceipted : List TxPkt
  /-- READ_DATA that waits to be sent, oldest first. -/
  replies : List Reply
  /-- The peer's CLOSE has come (Table FAB-7). -/
  closeSeen : Bool
  /-- When the epoch was last changed by a rekey (R183). -/
  rekeyedAt : Option Nat
  -- Receiving
  /-- CUM_PSN plus one: PSNs below it have all been received. -/
  cum : Nat
  /-- PSNs received above it. -/
  sack : List Nat
  /-- Cumulative credits granted (CREDIT_LIMIT). -/
  granted : Nat
  grants : List Grant
  /-- When a grant was last made. -/
  grantedAt : Nat
  requests : List CredReq
  rx : List RxMsg
  /-- Every message below it is retired. -/
  rxBase : Nat
  retired : List Nat
  acks : List AckInfo
  /-- Torn and refused messages of the epoch (R213). -/
  torn : List Nat
  /-- Outcomes of the messages since the previous FENCE: number, status, class (Table FAB-9). -/
  outcomes : List (Nat × Status × Option Class)
  kept : List Kept
  /-- Copies that had not come when SKEW_WINDOW passed (R216). -/
  missed : List (Nat × FabPort)
  sinceReceipt : Nat
  /-- Packets that wait for the context, and whether its fetch waits for room (R189, R190). -/
  parked : List (FabPort × Packet × List Byte)
  stalled : Bool
  /-- Probes sent and not yet echoed: port and timestamp (R218). -/
  probing : List (FabPort × Nat)
  deriving DecidableEq, Repr

/-- An access key entry (R194). -/
structure KeyEnt where
  used : Bool
  tag : Nat
  region : Nat
  offset : Nat
  len : Nat
  rights : Nat
  expiry : Nat
  any : Bool
  session : Nat
  deriving DecidableEq, Repr

/-- A port's path (Table FAB-11) and link. -/
structure PathState where
  /-- 0 UP, 1 SUSPECT, 2 FAILED, 3 OFF. -/
  st : Nat
  link : Bool
  /-- Held down for a rate mismatch (R178). -/
  held : Bool
  rate : Nat
  /-- Times of the errors, newest first (R217). -/
  errors : List Nat
  rtt : Nat
  deriving DecidableEq, Repr

structure FabState where
  sessions : Tab Session
  keys : Tab KeyEnt
  paths : List PathState
  ptpLocked : Bool
  /-- Member list as last set (R541). -/
  members : List Nat
  /-- Session definitions in the mirrored metadata (R187): this device's own, and the twin's. -/
  defs : List SessionParams
  twinDefs : List SessionParams
  /-- Wrapped secrets of host endpoints, kept with the definitions: IV, ciphertext, tag (R185); and the twin's, as it sent them. -/
  secrets : Tab (List Byte)
  twinSecrets : Tab (List Byte)
  /-- A member list that is coming from the twin, in pieces (R541). -/
  membersIn : List Nat
  /-- Packets that wait for firmware, with the ports they came on (R193). -/
  ctrlQueue : List (FabPort × Packet)
  /-- Control packets to firmware in the present second: by node, and in all under key 2^18 (R193). -/
  ctrl : Tab (Nat × Nat)
  /-- Resident contexts, least recently used first: 2 × session, 2 × queue pair + 1 (R188). -/
  resident : List Nat
  /-- The session the next grant round begins with. -/
  rr : Nat
  /-- Receive timestamps of event messages, newest first (R177). -/
  stamps : List (Nat × Nat × Nat)
  /-- Two-step transmit timestamps of the event messages sent, newest first (Table FAB-1). -/
  txStamps : List (Nat × Nat × Nat)
  deriving DecidableEq, Repr

/-! ### Sealed logs (10) -/

/-- A record or checkpoint of a region that has not committed (R353, R356). -/
structure SealItem where
  id : Nat
  /-- A checkpoint; otherwise a record. -/
  ckpt : Bool
  /-- Payload of a record. -/
  payload : List Byte
  door : Door
  /-- SOURCE of Table CIP-8. -/
  source : Nat
  cls : Class
  /-- Payload bytes, known at issue. -/
  len : Nat
  /-- Its last byte has arrived. -/
  ready : Bool
  /-- The XOPEN of its extent (R236). -/
  xref : Option Nat
  /-- Its unit, once it has its position. -/
  unit : Option Nat
  /-- SEQ of a record, or of the last record a checkpoint covers; CKPT of a checkpoint. -/
  seq : Nat
  no : Nat
  /-- Offset in the region. -/
  off : Nat
  time : Nat
  /-- LINK and chain step done, or the checkpoint signed. -/
  linked : Bool
  /-- H_SEQ after it. -/
  head : List Byte
  deriving DecidableEq, Repr

/-- The log of a sealed region: numbers for the next record and checkpoint, and those after the last committed ones
(R354). -/
structure SealLog where
  items : List SealItem
  nextId : Nat
  seq : Nat
  off : Nat
  head : List Byte
  ckpt : Nat
  doneSeq : Nat
  doneOff : Nat
  doneHead : List Byte
  doneCkpt : Nat
  /-- A record covered by no checkpoint yet committed at D1 (FLAGS of Table CIP-9). -/
  soloRecord : Bool
  /-- SEQ_END of the newest checkpoint with a position, and of the newest committed. -/
  covered : Nat
  doneCovered : Nat
  autoStopped : Bool
  deriving DecidableEq, Repr

/-! ### Cipher engine (10) -/

/-- A message of the CIP scheduler (R331). -/
structure CipMsg where
  id : Nat
  work : CipWork
  lane : Bool
  cls : Nat
  /-- Bytes of input from its last checkpoint on (R347), and from its beginning. -/
  left : Nat
  len : Nat
  /-- Units on which it met a parity error (R348). -/
  bad : List Nat
  deriving DecidableEq, Repr

/-- A unit: 0–19 AES cores, 32–47 digest lanes (CIP_PAR_LOG). -/
structure CipUnit where
  running : Option CipMsg
  suspended : List CipMsg
  /-- Times of its parity errors, newest first. -/
  errors : List Nat
  deriving DecidableEq, Repr

structure CipState where
  units : Tab CipUnit
  /-- Messages waiting for a unit, oldest first. -/
  waiting : List CipMsg
  nextMsg : Nat
  /-- Key cache, least recently used first (R344). -/
  cache : List KeyRef
  /-- Fused roots (R337): the fabric and the seal root. -/
  fabricRoot : Option (BitVec 256)
  sealRoot : Option (BitVec 256)
  logs : Tab SealLog
  deriving DecidableEq, Repr

/-! ### Tiers, loans and placement (09) -/

/-- Loan states (Table TIR-7); a released loan is gone. -/
inductive LoanSt where
  | reserving | active | notice
  deriving DecidableEq, Repr

/-- A loan held as borrower. -/
structure LoanIn where
  cmd : Nat
  op : Nat
  st : LoanSt
  bytes : Nat
  lender : Nat
  /-- The loan session that reaches the lender; none over the PH1 ring (R320). -/
  session : Option Nat
  region : Nat
  offset : Nat
  key : Nat
  /-- Lenders that have refused it (R320). -/
  tried : Nat
  deriving DecidableEq, Repr

/-- A lender that a LOAN asks: a ring neighbour so many hops away, or another lender known, by its node (R320). -/
inductive Lender where
  | ring (hops : Nat)
  | node (n : Nat)
  deriving DecidableEq, Repr

/-- A loan held as lender. -/
structure LoanOut where
  borrower : Nat
  mib : Nat
  notice : Bool
  deriving DecidableEq, Repr

inductive MoveKind where
  | pft | pro | pin | wlk | fill | dem
  deriving DecidableEq, Repr

/-- A deliberate move between DDR5 and the near cache (R315). -/
structure Move where
  id : Nat
  kind : MoveKind
  owner : Option (Nat × Nat)
  tenant : Nat
  /-- Blocks of its range, ascending, and those of chunks not yet done. -/
  blocks : List Nat
  left : List Nat
  /-- It holds the lock of the chunk of the first block left. -/
  held : Bool
  /-- It has been counted as waiting for that lock. -/
  waited : Bool
  /-- It waited behind a promotion (R316). -/
  reeval : Bool
  /-- Blocks locked, and whether a lock was refused or a block left in place. -/
  locked : Nat
  refused : Bool
  deriving DecidableEq, Repr

/-- The plan in force (R325): its bytes are the slice and every accepted amendment. -/
structure Plan where
  id : Word
  amend : Nat
  entries : Nat
  bytes : List Byte
  /-- Most GiB lent to, and borrowed from, a node. -/
  lend : Tab Nat
  borrow : Tab Nat
  deriving DecidableEq, Repr

structure TirState where
  loansIn : Tab LoanIn
  loansOut : Tab LoanOut
  nextLoan : Nat
  /-- Advertised free capacity in MiB, by node (R323). -/
  adverts : Tab Nat
  moves : List Move
  nextMove : Nat
  plan : Option Plan
  /-- The slice no longer verified at power-up (R328). -/
  planBad : Bool
  /-- Public plan key (R325). -/
  planKey : List Byte
  deriving DecidableEq, Repr

/-! ### DRAM subsystem (11) -/

/-- A DDR5 channel. -/
structure MemCh where
  present : Bool
  /-- Device erased, by 2 × rank + subchannel of those in erase mode (R365). -/
  erased : Tab Nat
  /-- Remapped lines by remap word (R374). -/
  remap : Tab Nat
  /-- Retired pages (R375). -/
  redirects : List Nat
  spare : Nat
  temp : Nat
  /-- Refreshed at twice the normal rate; writes limited to half (R362). -/
  fastRefresh : Bool
  throttled : Bool
  /-- Out of service: PMIC or switch lost, failed to train, or taken out (R362, R414, R498). -/
  out : Bool
  /-- Its contents have gone with it: it was not emptied before (R362). -/
  lost : Bool
  /-- Corrections of this scrub pass: device position and line, each pair once. -/
  corrected : List (Nat × Nat)
  /-- Hard lines (R366). -/
  hard : List Nat
  deriving DecidableEq, Repr

/-- A line under repair (R367): from the twin or from NAND; its line lock is held. -/
structure Repair where
  line : Nat
  fromTwin : Bool
  /-- A demand access waits for it. -/
  demand : Bool
  deriving DecidableEq, Repr

structure MemState where
  chans : List MemCh
  /-- The population was accepted; RDIMMs a channel, GiB, speed code. -/
  valid : Bool
  invalid : Bool
  dpc : Nat
  gib : Nat
  speed : Nat
  /-- In 256 KiB units (R376). -/
  limit : Nat
  removed : Nat
  sramDone : Bool
  stackDone : Bool
  /-- Initialised pages (R372). -/
  init : List Nat
  repairs : List Repair
  /-- Drift: the next page of each channel, when the pass began, passes, hours of the last, late (R378). -/
  scrubPos : Nat
  scrubStart : Nat
  /-- PERIOD_H of the running pass. -/
  scrubPeriod : Nat
  passes : Nat
  lastHours : Nat
  behind : Bool
  deriving DecidableEq, Repr

/-! ### Training and calibration (13) -/

/-- A trained unit. -/
structure CalUnit where
  /-- 0 untrained, 1 training, 2 trained, 3 failed (CAL_STATUS). -/
  st : Nat
  tries : Nat
  /-- The present attempt starts from its seed; it trained so at the last power-up. -/
  fromSeed : Bool
  seeded : Bool
  settings : Word
  /-- (width, height) by 2 × lane + direction. -/
  eyes : Tab (Nat × Nat)
  /-- A recalibration window is open. -/
  window : Bool
  deferred : Bool
  /-- A gap-fitted change waits (R416). -/
  gapWait : Bool
  /-- Times of its last WARN of R412 and of its last seed. -/
  weakAt : Option Nat
  seedAt : Option Nat
  deriving DecidableEq, Repr

/-- A stored seed (R408); its CRC is good unless it has been discarded. -/
structure Seed where
  settings : Word
  temp : BitVec 8
  ident : Word
  deriving DecidableEq, Repr

structure CalState where
  /-- Key 32 × IFACE + UNIT. -/
  units : Tab CalUnit
  seeds : Tab Seed
  /-- Read offsets by 32 × channel + die (R411). -/
  offsets : Tab Word
  /-- FAILED dies, as 32 × channel + die. -/
  deadDies : List Nat
  /-- A CAL_CMD in progress: unit key. -/
  cmd : Option Nat
  deriving DecidableEq, Repr

/-! ### Configuration flash (14) -/

/-- A sector's status word (Table CFL-3) and INCOMPLETE (R432). -/
structure Sector where
  erases : Nat
  st : Nat
  worn : Bool
  pvp : Nat
  incomplete : Bool
  deriving DecidableEq, Repr

/-- Array operations, by CFL_CMD.OP. -/
structure CflOp where
  op : Nat
  fa : Nat
  deriving DecidableEq, Repr

structure Bank where
  running : Option CflOp
  /-- Sector of the suspended erase. -/
  suspended : Option Nat
  deriving DecidableEq, Repr

structure CflState where
  /-- Each byte of the array is stored inverted: an erased byte reads 0xFF (R421). -/
  array : Memory
  /-- Sectors whose word differs from an unused one's. -/
  sectors : Tab Sector
  bank0 : Bank
  bank1 : Bank
  /-- CFL_CMD.BUSY. -/
  busy : Bool
  activeSlot : Nat
  bootedSlot : Nat
  hdrCopy : Nat
  incomplete : Nat
  frowBad : Bool
  /-- PFAIL_N accepted or REFCLK lost: no erase, no firmware command (R427). -/
  stopped : Bool
  deriving DecidableEq, Repr

/-! ### Low-power states (15) -/

/-- An MCTP access to a window that sleeps; it completes when the owning island runs (R451). -/
inductive MctpAccess where
  | read (offset count : Nat)
  | write (offset : Nat) (values : List Word)
  deriving DecidableEq, Repr

structure LpsState where
  /-- 0 CLEAR, 1 VOTING, 2 OVERCAST, 3 NIGHTFALL, 4 WAKING. -/
  st : Nat
  cleanCurrent : Bool
  lastRefuser : Nat
  backoff : Nat
  /-- Bit 0 DDR, 1 NAND, 2 SERDES, 3 SIDEBAND. -/
  latched : BitVec 4
  held : BitVec 15
  source : Nat
  from_ : Nat
  /-- Entry to the low-power state, ns, and the time spent in it. -/
  since : Nat
  durationMs : Nat
  /-- Islands that have answered READY. -/
  ready : Nat
  waiting : List MctpAccess
  deriving DecidableEq, Repr

/-! ### Debug access (17) -/

structure DbgState where
  /-- The nonce in force is this draw of the free values (R480). -/
  nonce : Nat
  /-- End of the unlock, ns; 0 until AON reset. -/
  unlocked : Option Nat
  /-- The administration key as stored in the flash, and as AON holds it since it read the boot header (R479). -/
  adminKey : Option (List Byte)
  adminHeld : Option (List Byte)
  /-- AON fuse ADMIN_DONE. -/
  adminDone : Bool
  refusedAt : Option Nat
  deriving DecidableEq, Repr

/-! ### Live service (18) -/

/-- Requests that CTL serves. -/
inductive CtlReq where
  | drain (path : Path) (target : BitVec 3)
  | halt (path : Path)
  | resume (path : Path) (twinResuming : Bool)
  | service (path : Path)
  | serve (path : Path)
  | fwHandover (path : Path) (verified : Bool)
  | mcodeSwap (path : Path) (engine : BitVec 6)
  | chOut (path : Path) (ch : BitVec 4)
  | chIn (path : Path) (ch : BitVec 4) (dimms : List Dimm)
  | retrain (path : Path) (iface : BitVec 3) (unit : BitVec 8)
  | nandRetire (path : Path) (ch : BitVec 5) (ce : BitVec 3)
  | pathOut (path : Path) (p : FabPort)
  | pathIn (path : Path) (p : FabPort)
  | abort (path : Path)
  | sessionCreate (path : Path) (params : SessionParams)
  | sessionDestroy (path : Path) (session : BitVec 20)
  | planInstall (path : Path) (slice : List Byte)
  | sidebandRead (path : Path) (bus : BitVec 2) (target : BitVec 4) (page : BitVec 16) (bytes : List Byte)
  | fmBind (path : Path) (p : Port) (ld : BitVec 4) (tenant : BitVec 12)
  | poolMembers (path : Path) (members : List (BitVec 32))
  /-- Accesses to registers that CTL serves. -/
  | read (path : Path) (offset : BitVec 25) (size : BitVec 8)
  | write (path : Path) (offset : BitVec 25) (size : BitVec 8) (values : List (BitVec 64))
  | mctpRead (offset : BitVec 25) (count : BitVec 8)
  | mctpWrite (offset : BitVec 25) (values : List (BitVec 64))
  deriving DecidableEq, Repr

structure SvcState where
  /-- OP of the running command; 0 none. -/
  proc : Nat
  phase : Nat
  unit : Nat
  ce : Nat
  iface : Nat
  /-- Channels out, and those among them whose switch stays on for a retrain. -/
  chOut : List Nat
  /-- Pages of a channel still to fill at CH_IN. -/
  filling : List Nat
  portOut : List Nat
  runningSlot : Nat
  pending : Bool
  version : Nat
  mcode : BitVec 64
  /-- Packages under migration, kept over a power loss (R502). -/
  migrating : List (Nat × Nat)
  /-- Requests to CTL that wait for a handover to end (R496), oldest first. -/
  waiting : List CtlReq
  deriving DecidableEq, Repr

/-! ### Outputs -/

/-- What a host port advertises (Table HST-1, R99): logical devices, HDM decoders, interleave ways and granularities, the
duration in ns and the power in mW of a phase 2 flush. -/
structure CxlCaps where
  lds : Nat
  decoders : Nat
  ways : List Nat
  grans : List Nat
  gpfNs : Nat
  gpfMw : Nat
  deriving DecidableEq, Repr

/-- What the block sends out, oldest first. -/
inductive Out where
  /-- S2M NDR completion of a CXL write, with DevLoad (R86, R87). -/
  | cxlCmp (p : Port) (ld devLoad : Nat)
  /-- S2M DRS: data of a CXL read. -/
  | cxlData (p : Port) (ld tag : Nat) (data : List Byte) (poison : Bool) (devLoad : Nat)
  | cxlInv (p : Port) (ld tag devLoad : Nat)
  /-- What the port advertises as its link trains (Table HST-1, R99). -/
  | cxlAdvert (p : Port) (caps : CxlCaps)
  /-- Completion with unsupported-request status. -/
  | unsupported (p : Port) (tag : Nat)
  | gpfDone (p : Port)
  /-- RwD credits granted (R91). -/
  | cxlCredits (p : Port) (n : Nat)
  /-- A read forwarded to the home twin, which answers it (R235, R254). -/
  | cxlForward (p : Port) (ld tag line : Nat)
  /-- A frame to a twin or a ring neighbour. -/
  | phFrame (ch : LinkChan) (w : Wire)
  /-- Credit returned in the CREDIT byte, in 256-byte units (R224). -/
  | phCredit (n : Nat)
  /-- The cumulative MACK: in the flit header, or in the RESULT of the ACK on a twin session (R230, R242). -/
  | phMack (ch : LinkChan) (mack : Nat)
  /-- Data of a read that the twin forwarded (R235), naming the frame it answers. -/
  | twinData (msn : Nat) (data : List Byte) (poison : Bool)
  /-- An AFT2 packet sent on a port (R215). -/
  | aft2 (p : FabPort) (d : Datagram)
  /-- An IEEE 1588 event message sent on a port (R177). -/
  | ptp (p : FabPort) (seq : Nat)
  /-- A frame of the control path: an answered neighbour request (Table FAB-1). -/
  | neighbour (p : FabPort) (asker : BitVec 128)
  /-- A read of the twin's memory for a strand (R235): command, operation, DPA and length. -/
  | twinRead (cmd op dpa len : Nat)
  /-- A read of one line at the twin, to repair it (R367). -/
  | repairRead (line : Nat)
  /-- A request to lenders for a loan: loan number and bytes (R320). -/
  | loanAsk (loan bytes : Nat) (lender : Lender)
  /-- An access to loaned memory over the PH1 ring, or over the fabric while PH1 is down (R35): loan, offset, length of a read,
  bytes of a write. -/
  | loanRead (overFabric : Bool) (loan off len : Nat)
  | loanWrite (overFabric : Bool) (loan off : Nat) (data : List Byte)
  /-- A loan given back by the borrower, and a lender's notice of reclaim (Table TIR-8). -/
  | loanReturn (loan : Nat)
  | loanNotice (loan node : Nat)
  /-- Broadcast of free loan capacity, in MiB (R323). -/
  | advert (mib : Nat)
  /-- An MCTP response to a READ or WRITE: status, values read (Table REG-4); a control or FM API response. -/
  | mctp (status : Status) (values : List Word)
  | mctpControl (eid : Nat)
  | fmApi (status : Status)
  /-- The value of a register read on a path. -/
  | regValue (path : Path) (value : Word)
  /-- The value of a BAR2 doorbell read (R113). -/
  | doorbell (p : Port) (value : Word)
  /-- The result of a management request: status and result block (Table REG-5). -/
  | result (path : Path) (status : Status) (block : List Byte)
  /-- What JTAG shifts out. -/
  | jtag (instr : Nat) (data : List Byte)
  /-- A ring frame forwarded over PH1, or over the fabric (R35). -/
  | ring (overFabric : Bool) (dest hops : Nat) (frame : List Byte)
  deriving DecidableEq, Repr

/-- A staged value of a register field (R9). -/
structure Staged where
  addr : Nat
  lsb : Nat
  width : Nat
  val : Nat
  deriving DecidableEq, Repr

/-- The state of the block. -/
structure State where
  /-- Commands waiting, first in first out. -/
  pending : List Instr
  /-- AON time base, ns. -/
  time : Nat
  /-- Counter of the free values drawn so far (the model's own: see Config). -/
  freeCtr : Nat
  /-- Power-up count, from the AON fuses (Table REC-1). -/
  boot : Nat
  /-- Register values in force that differ from reset. -/
  regs : Tab Word
  staged : List Staged
  /-- Seconds in which a first-of-its-second record was last written, by key. -/
  marks : Tab Nat
  out : List Out
  /-- Run states in island-code order. -/
  isl : List Run
  /-- Each island's copy of the time base (R15). -/
  clocks : List Nat
  /-- Items on crossing x, key 2x from the first-named island, 2x + 1 to it; crossing 19 has one queue an island, key
  64 + island code (R16). -/
  xing : Tab (List XItem)
  /-- LOST_BEFORE counts by island (R473). -/
  lost : List Nat
  /-- Records made before REC is released (R473). -/
  early : List Record
  regions : Tab Region
  tenants : Tab Tenant
  /-- DDR5 contents. -/
  ddr : Memory
  /-- Poisoned lines (line addresses). -/
  poison : List Nat
  pst : PstState
  hst : HstState
  phl : PhlState
  dst : DstState
  pe : PeState
  mod : ModState
  seq : SeqState
  contrail : RecState
  nc : NcState
  tir : TirState
  cip : CipState
  fab : FabState
  mem : MemState
  cal : CalState
  cfl : CflState
  lps : LpsState
  dbg : DbgState
  svc : SvcState
  /-- MCTP endpoint ID, and the pins of the boundary-scan port held by JTAG (R491): 0 none, 1 EXTEST, 2 CLAMP, 3 HIGHZ. -/
  eid : Nat
  jtagPins : Nat
  deriving DecidableEq, Repr

/-! ### Reset -/

def PortState.reset : PortState := { link := 0, width := 0, speed := 0, closing := false, gpf := none, credits := 0, owed := 0, rxSeq := 0, mldSwitch := false }

def PhState.reset : PhState := { up := false, trained := false, failed := false, width := 0, flits := [], fack := 0, discarding := false }

/-- PHL after reset: no twin known (PHL_STATUS), no lease. -/
def PhlState.reset : PhlState :=
  { ph0 := PhState.reset, ph1 := PhState.reset, twin := .absent, before := .absent, lostByCommand := false, primary := false,
    hbIn := .low, epoch := 0, leaseRunning := false, guardPassed := false, heldAtSave := false, servedAlone := false,
    linkIdSeen := false, linkEpoch := 0, txNext := 0, txAcked := 0, unacked := [], txWait := [], sentAt := [], rxNext := 0,
    credit := 0, rxHeld := [], copies := [], leaseNo := 0,
    separation := [], resyncKind := 0, receiver := false, resyncLeft := [], twinMode := 15, peerEpoch := 0, peerNode := 0, peerKnown := false,
    peerKept := false, peerPrimary := false, peerReceived := 0, peerSent := 0, twinChOut := [], fwdParts := [], stalled := false,
    hmapOut := [], hmapIn := [], told := [], changeIn := [],
    twinWait := [] }

/-- DST after reset: nothing charged, no image, no measurement. -/
def DstState.reset : DstState :=
  { pages := [], map := [], dirtySegs := [], segReload := [], destageSeq := 0, nand := [], nandPoison := [], images := [],
    saveNo := 0, ceff := 0, limiter := 0, energyTerm := 0, saveTerm := 0, zone := 0, lastAmber := none, hupCode := 0,
    measC := 0, measEsr := 0, measValid := false, measTime := 0, testing := false, testCut := false, deferred := 0, deferSince := 0,
    asked := [], saveErased := 0, channels := 0, rawGib := 0, nandOut := [], saving := false, dirtyChannels := [], nandShort := false,
    lastIncomplete := false, blocks := [], gcRunning := false, avgPe := 0, spareLeft := 0, retired := 0, demandOut := 0 }

def ModState.reset : ModState :=
  { mode := .cold, prev := .cold, target := 0, haltCause := 0, intakeClosed := false, enteredAt := 0, haltHeld := false,
    resumed := false, frozen := false, frozenAt := 0 }

def PeState.reset : PeState :=
  { qps := [], cmds := [], nextCmd := 0, strands := [], procs := [], stopped := false, issues := 0, fetches := 0 }

def RecState.reset : RecState :=
  { released := false, scanned := false, waiting := [], ring := [], nextNo := 0, unflushed := [], flushing := false,
    urgent := false, lastFlush := 0, log := [], reserve := [], clearPoint := 0, clearMask := 0, clearPending := none }

def RstOut.reset : RstOut := { asserted := true, stretching := false, pulsing := false }

/-- The sequencer after AON reset: OFF, every output low. -/
def SeqState.reset : SeqState :=
  { st := .off, step := 0, position := 0, posValid := false, posError := false, onPending := false, offPending := false,
    timeoutPath := false, failPath := false, stuck := false, firstDone := false, en := 0, good := 0, finished := 0xFFFFFFFF,
    cascIn := false, fltHigh := true, pfailHigh := false, cascOut := false, fltDrive := false, hupTestEn := false,
    released := false, rst := List.replicate 4 RstOut.reset, chCmd := none, codes := List.replicate 9 0, buffer := [],
    flash := [], nextFault := 0, temp := 0, tempMax := 0, hot := false, tripHold := 0, bootPhase := 0, bootFail := 0,
    hdrDefault := false, fallback := false, ctlReleased := false }

def NcState.reset : NcState :=
  { st := .on, staleRisk := false, onAfter := false, lines := [], plru := [], victim := [], data := [], touched := [],
    disabled := [], dirtyMap := [] }

def TirState.reset : TirState :=
  { loansIn := [], loansOut := [], nextLoan := 0, adverts := [], moves := [], nextMove := 0, plan := none, planBad := false, planKey := [] }

def CipState.reset : CipState :=
  { units := [], waiting := [], nextMsg := 0, cache := [], fabricRoot := none, sealRoot := none, logs := [] }

def PathState.reset : PathState := { st := 0, link := false, held := false, rate := 0, errors := [], rtt := 0 }

def FabState.reset : FabState :=
  { sessions := [], keys := [], paths := List.replicate 4 PathState.reset, ptpLocked := false, members := [], defs := [], twinDefs := [], ctrl := [],
    resident := [], rr := 0, stamps := [], txStamps := [], secrets := [], twinSecrets := [], membersIn := [],
    ctrlQueue := [] }

def MemCh.reset : MemCh :=
  { present := false, erased := [], remap := [], redirects := [], spare := 0, temp := 0, fastRefresh := false,
    throttled := false, out := false, lost := false, corrected := [], hard := [] }

def MemState.reset : MemState :=
  { chans := List.replicate 16 MemCh.reset, valid := false, invalid := false, dpc := 0, gib := 0, speed := 0, limit := 0,
    removed := 0, sramDone := false, stackDone := false, init := [], repairs := [], scrubPos := 0, scrubStart := 0, scrubPeriod := 0,
    passes := 0, lastHours := 0, behind := false }

def CalState.reset : CalState := { units := [], seeds := [], offsets := [], deadDies := [], cmd := none }

def Bank.reset : Bank := { running := none, suspended := none }

/-- A blank array: every byte reads 0xFF. -/
def CflState.reset : CflState :=
  { array := [], sectors := [], bank0 := Bank.reset, bank1 := Bank.reset, busy := false, activeSlot := 0, bootedSlot := 0,
    hdrCopy := 0, incomplete := 0, frowBad := false, stopped := false }

def LpsState.reset : LpsState :=
  { st := 0, cleanCurrent := false, lastRefuser := 0, backoff := 0, latched := 0, held := 0, source := 0, from_ := 0,
    since := 0, durationMs := 0, ready := 0, waiting := [] }

def DbgState.reset : DbgState := { nonce := 0, unlocked := none, adminKey := none, adminHeld := none, adminDone := false, refusedAt := none }

def SvcState.reset : SvcState :=
  { proc := 0, phase := 0, unit := 0, ce := 0, iface := 0, chOut := [], filling := [], portOut := [], runningSlot := 0,
    pending := false, version := 0, mcode := 0, migrating := [], waiting := [] }

/-- The device as the standby rail comes up: AON in reset, every other island off, every register at its reset value,
nothing stored, nothing waiting. The nonce is the first free value. -/
def State.reset : State :=
  { pending := [], time := 0, freeCtr := 1, boot := 0, regs := [], staged := [], marks := [], out := [],
    isl := .inReset :: List.replicate 14 .off, clocks := List.replicate 15 0, xing := [], lost := List.replicate 15 0,
    early := [], regions := [], tenants := [], ddr := [], poison := [],
    pst := { units := [], nextUnit := 0, extents := [], nextExtent := 0, xreqs := [] },
    hst := { hp0 := PortState.reset, hp1 := PortState.reset, lds := [], headroom := [], reads := [], decoders := [], forwarded := [] },
    phl := PhlState.reset, dst := DstState.reset, pe := PeState.reset, mod := ModState.reset, seq := SeqState.reset,
    contrail := RecState.reset, nc := NcState.reset, tir := TirState.reset, cip := CipState.reset, fab := FabState.reset,
    mem := MemState.reset, cal := CalState.reset, cfl := CflState.reset, lps := LpsState.reset, dbg := DbgState.reset,
    svc := SvcState.reset, eid := 0, jtagPins := 0 }

end Sys2Proof.Machine
end

