-- ==== Sys2Proof/Machine/Regs.lean ====
section
/-! DEFINITION. The register file: reset values, values in force, staged values, named fields, counters and flags
(00_scope R7 to R11, R537; 19_register_space). A register is kept only where it differs from its reset value. -/

namespace Sys2Proof.Machine

/-- Reset of SEQ_CHn_CFG (Table PWR-1). -/
def seqChReset (n : Nat) : Word :=
  if n = 0 then 0x0000000A05000841
  else if n = 1 then 0x0000000A050A0883
  else if n = 2 then 0x0000000A050A08C5
  else if n = 3 then 0x0000000A050A0905
  else if n = 4 then 0x0000000A050A0947
  else if n = 5 then 0x0000000A050A098B
  else if n ≤ 13 then 0x0000000A050A1809
  else if n ≤ 29 then BitVec.ofNat 64 (0x000000050A0A2801 + 2 * (6 + (n - 14) / 2))
  else 0x00000005050A341C

/-- Reset of SEQ_RSTn, without the ASSERTED bit, which follows the output. -/
def seqRstReset (n : Nat) : Word :=
  match n with
  | 0 => 0x00051401
  | 1 => 0x00070A20
  | 2 => 0x00076421
  | _ => 0x00050105

/-- Sectors whose write-protect bit always reads 0: calibration store, rail fault records, Contrail flush area
(R436, Table CFL-1). -/
def neverProtected (sector : Nat) : Bool :=
  (decide (3088 ≤ sector) && decide (sector ≤ 3343)) || (decide (11280 ≤ sector) && decide (sector ≤ 13391))

/-- Reset of CFL_WPn (R436). -/
def wpReset (n : Nat) : Word :=
  BitVec.ofNat 64 (sumOf ((List.range 64).map (fun b => if neverProtected (64 * n + b) then 0 else 2 ^ b)))

/-- The description that covers an address. -/
def findReg (a : Nat) : Option RegDesc :=
  (regWindows.getD (a / 0x100000) ([], 0)).1.find?
    (fun d => decide (d.addr ≤ a) && decide (a < d.addr + 8 * d.count) && ((a - d.addr) % 8 == 0))

/-- BLK_ID of a window (R508). -/
def blkId (window : Nat) : Word :=
  BitVec.ofNat 64 (window + (regWindows.getD window ([], 0)).2 * 2 ^ 8 + 2 ^ 24)

/-- Offset 0 of a window. In HST only the lower half has it. -/
def isBlkId (a : Nat) : Bool := a % 0x100000 == 0 && decide (a < 0x1400000)

/-- Offset 0x10 of a window (R10). -/
def isStage (a : Nat) : Bool := a % 0x100000 == 0x10 && decide (a < 0x1400000)

/-- The value a register holds after reset. -/
def resetValue (a : Nat) : Word :=
  if isBlkId a then blkId (a / 0x100000)
  else if 0x100200 ≤ a ∧ a < 0x100300 then seqChReset ((a - 0x100200) / 8)
  else if 0x100380 ≤ a ∧ a < 0x1003A0 then seqRstReset ((a - 0x100380) / 8)
  else if 0xF00400 ≤ a ∧ a < 0xF00C00 then wpReset ((a - 0xF00400) / 8)
  else match findReg a with
    | some d => d.reset
    | none => 0

/-- The value in force. -/
def State.raw (s : State) (a : Nat) : Word := (Tab.get s.regs a).getD (resetValue a)

/-- The table of register values with `a` set: a value equal to reset is not kept. -/
def putReg (t : Tab Word) (a : Nat) (v : Word) : Tab Word := if v = resetValue a then Tab.del t a else Tab.put t a v

/-- The state with another register table. -/
def State.withRegs (s : State) (t : Tab Word) : State := { s with regs := t }

def State.setRaw (s : State) (a : Nat) (v : Word) : State := s.withRegs (putReg s.regs a v)

/-- A field's value in force. -/
def State.fld (s : State) (f : Fld) : Nat := bitsOf (s.raw f.addr) f.lsb f.width

def State.on (s : State) (f : Fld) : Bool := s.fld f != 0

/-- A field of the register table set. -/
def putFld (t : Tab Word) (f : Fld) (v : Nat) : Tab Word :=
  putReg t f.addr (setBits ((Tab.get t f.addr).getD (resetValue f.addr)) f.lsb f.width v)

def State.setFld (s : State) (f : Fld) (v : Nat) : State := s.withRegs (putFld s.regs f v)

/-- A counter's field raised by `n`, saturating at its width (R7, RC fields). -/
def bumpFld (t : Tab Word) (f : Fld) (n : Nat) : Tab Word :=
  putFld t f (min (2 ^ f.width - 1)
    (bitsOf ((Tab.get t f.addr).getD (resetValue f.addr)) f.lsb f.width + n))

def State.bumpBy (s : State) (f : Fld) (n : Nat) : State := s.withRegs (bumpFld s.regs f n)

def State.bump (s : State) (f : Fld) : State := s.bumpBy f 1

/-- An error flag set. -/
def State.flag (s : State) (f : Fld) : State := s.setFld f 1

/-- The staged values laid over a register (a read returns the staged value, R9). -/
def overStaged (l : List Staged) (a : Nat) (w : Word) : Word :=
  l.foldl (fun w x => if x.addr = a then setBits w x.lsb x.width x.val else w) w

/-- A staged value replaces the field's earlier one. -/
def putStaged (l : List Staged) (x : Staged) : List Staged :=
  l.filter (fun y => !(y.addr == x.addr && y.lsb == x.lsb)) ++ [x]

/-- The window an address lies in. -/
def windowOf (a : Nat) : Nat := a / 0x100000

/-- PENDING of a block (Table SCO-5). -/
def State.stagePending (s : State) (window : Nat) : Bool := s.staged.any (fun x => windowOf x.addr == window)

/-- The register table with the staged values that satisfy `p` in force. -/
def applyStaged (p : Staged → Bool) (l : List Staged) (t : Tab Word) : Tab Word :=
  l.foldl (fun t x => if p x then putFld t ⟨x.addr, x.lsb, x.width⟩ x.val else t) t

/-- The run state of an island. -/
def State.run (s : State) (i : Island) : Run := s.isl.getD i.code .off

/-- The island runs: not off, in reset or gated, and its clock is not held by a freeze (R467). -/
def State.running (s : State) (i : Island) : Bool := s.run i == .running && (i == .aon || !s.mod.frozen)

end Sys2Proof.Machine
end

