-- ==== Sys2Proof/Machine/Level.lean ====
section
/-! DEFINITION. Quantities the rules derive from the state: where a region is homed, the dirty level, the ceiling and a
tenant's share of it (08), the credited reservation and the open limit (01 R20, 02 R64), page states (Table CEI-1). -/

namespace Sys2Proof.Machine

/-- 16 KiB pages (R256). -/
def pageOf (dpa : Nat) : Nat := dpa / 16384

def lineOf (dpa : Nat) : Nat := dpa / 64 * 64

/-- The pages a range touches. -/
def pagesOf (dpa len : Nat) : List Nat :=
  if len = 0 then [] else (List.range ((dpa + len - 1) / 16384 - dpa / 16384 + 1)).map (· + dpa / 16384)

/-- The lines a range touches, by first byte. -/
def linesOf (dpa len : Nat) : List Nat :=
  if len = 0 then [] else (List.range ((dpa + len - 1) / 64 - dpa / 64 + 1)).map (fun i => (dpa / 64 + i) * 64)

def Region.covers (r : Region) (dpa : Nat) : Bool := decide (r.base ≤ dpa) && decide (dpa < r.base + r.len)

def Region.overlaps (r : Region) (lo n : Nat) : Bool := decide (r.base < lo + n) && decide (lo < r.base + r.len)

/-- The region a DPA lies in, with its number. -/
def State.regionAt (s : State) (dpa : Nat) : Option (Nat × Region) := s.regions.find? (fun e => e.2.covers dpa)

/-- The device serves alone, or is the source of a resync: it is the acting home of every region (R54). -/
def State.actingHome (s : State) : Bool :=
  match s.phl.twin with
  | .alone | .absent | .resyncOut => true
  | _ => false

/-- DDR5 channel of a page: DPA[17:14] xor DPA[21:18] xor DPA[25:22] xor DPA[29:26] (R363). -/
def channelOf (page : Nat) : Nat := (page ^^^ page / 16 ^^^ page / 256 ^^^ page / 4096) % 16

/-- The device sits at an odd cascade position. -/
def State.odd (s : State) : Bool := s.seq.position % 2 == 1

/-- This device orders the writes to a region: its descriptor's home (R50), unless one twin is acting home of every
region (R54). -/
def State.isHome (s : State) (r : Region) : Bool :=
  s.actingHome || (s.phl.twin != .resyncIn && r.homeOdd == s.odd)

/-! ### A DDR5 channel out of service (18 R498 to R500) -/

def State.chanOut (s : State) (k : Nat) : Bool := ((s.mem.chans[k]?).map (·.out)).getD false

/-- The channel is being filled at its return. -/
def State.chanFills (s : State) (k : Nat) : Bool := s.svc.phase == 3 && s.svc.unit == k

/-- This device holds no current data of the page: its channel is out here, or it has still to be filled at the channel's
return (R499). -/
def State.pageOut (s : State) (page : Nat) : Bool :=
  (s.chanOut (channelOf page) && !s.chanFills (channelOf page)) || s.svc.filling.contains page

def State.rangeOut (s : State) (dpa len : Nat) : Bool := (pagesOf dpa len).any (fun p => s.pageOut p)

/-- Writes to the range go to the twin until the channel is back. -/
def State.rangeAway (s : State) (dpa len : Nat) : Bool := (pagesOf dpa len).any (fun p => s.chanOut (channelOf p))

/-- This device serves the range for its twin, whose channel is out. -/
def State.rangeSolo (s : State) (dpa len : Nat) : Bool := (pagesOf dpa len).any (fun p => s.phl.twinChOut.contains (channelOf p))

/-- Data that this device does not hold, its twin gone: D0 and D1 regions homed there (R250), and D2 and D3 pages of a
channel that is out (R500). -/
def State.noDataAt (s : State) (r : Region) (dpa len : Nat) : Bool :=
  s.phl.twin == .alone &&
  (if r.floor = .d0 ∨ r.floor = .d1 then r.homeOdd != s.odd else s.rangeOut dpa len)

/-- The data of a range is read at the twin: D0 and D1 regions at the door that is not home, pages not yet copied to the
receiver of a resync, and D2 and D3 pages of a channel that is out (R235, R254, R498). -/
def State.readAtTwin (s : State) (r : Region) (dpa len : Nat) : Bool :=
  (!s.isHome r && (r.floor == .d0 || r.floor == .d1 ||
    (s.phl.twin == .resyncIn && (pagesOf dpa len).any (fun p => s.phl.resyncLeft.contains p)))) ||
  ((r.floor == .d2 || r.floor == .d3) && s.rangeOut dpa len)

/-- Pages charged to a tenant. -/
def State.tenantPages (s : State) (t : Nat) : Nat := (s.dst.pages.filter (fun e => e.2.dirty && e.2.tenant == t)).length

def State.dirtyPages (s : State) : Nat := (s.dst.pages.filter (fun e => e.2.dirty)).length

/-- L in KiB: 16 MiB for ingress and 16 KiB a dirty page (R257). -/
def State.levelKib (s : State) : Nat := 16384 + 16 * s.dirtyPages

/-- C_pool in KiB (R261). -/
def State.poolKib (s : State) : Nat := (s.dst.ceff - 16) * 1024

def State.share (s : State) (t : Nat) : Nat := ((Tab.get s.tenants t).map (·.ceilMib)).getD 0

/-- ΣS in MiB. -/
def State.shareSum (s : State) : Nat := sumOf (s.tenants.map (fun e => e.2.ceilMib))

/-- G_t in KiB, rounded down: S_t ÷ k with k = max(1, ΣS ÷ C_pool) (R273). -/
def State.guarantee (s : State) (t : Nat) : Nat :=
  if s.shareSum * 1024 ≤ s.poolKib then s.share t * 1024
  else s.share t * s.poolKib / s.shareSum

/-- A tenant is busy when it asked for a charge in the last 1 ms or its level exceeds G_t (R273). -/
def State.busy (s : State) (t : Nat) : Bool :=
  (match Tab.get s.dst.asked t with
   | some at_ => decide (s.time ≤ at_ + 1000000)
   | none => false) || decide (s.guarantee t < 16 * s.tenantPages t)

/-- ΣS over the busy tenants, `t` among them. -/
def State.busySum (s : State) (t : Nat) : Nat :=
  sumOf (s.tenants.map (fun e => if e.1 = t ∨ s.busy e.1 then e.2.ceilMib else 0))

/-- cap_t in MiB. With G_t = S_t·C_pool ÷ ΣS the cap of R273 reduces to min(S_t, S_t·C_pool ÷ Σ_busy S); with k = 1
it is S_t. -/
def State.cap (s : State) (t : Nat) : Nat :=
  if s.shareSum * 1024 ≤ s.poolKib ∨ s.busySum t = 0 then s.share t
  else min (s.share t) (s.share t * s.poolKib / (s.busySum t * 1024))

/-- Rule (b)'s reserve: the unused guarantees of the busy tenants other than `t`, times max(ΣS, 1) so that no rounding
enters. -/
def State.reserveScaled (s : State) (t : Nat) : Nat :=
  sumOf (s.tenants.map (fun e =>
    if e.1 ≠ t ∧ s.busy e.1 then
      (if s.shareSum * 1024 ≤ s.poolKib then (e.2.ceilMib * 1024 - 16 * s.tenantPages e.1) * max s.shareSum 1
       else e.2.ceilMib * s.poolKib - 16 * s.tenantPages e.1 * s.shareSum)
    else 0))

/-- R273: whether a charge of `c` KiB for tenant `t` is granted now. -/
def State.grantable (s : State) (t c : Nat) : Bool :=
  let lt := 16 * s.tenantPages t
  decide (s.dst.zone ≠ 2) &&
  ((decide (lt + c ≤ s.guarantee t) && decide (s.levelKib + c ≤ s.poolKib)) ||
   (s.dst.zone == 0 && decide (lt + c ≤ s.cap t * 1024) && decide (s.levelKib + c ≤ s.poolKib) &&
     decide (s.reserveScaled t ≤ (s.poolKib - s.levelKib - c) * max s.shareSum 1)))

/-- The headroom bit DST publishes (R275). -/
def State.headroomOf (s : State) (t : Nat) : Bool := decide (s.dst.zone ≠ 2) && s.grantable t 8192

/-- Credited reservation in KiB for given settings (R20). -/
def creditedKib (hold0 hold1 pool ph0 : Nat) : Nat := 128 + 64 * hold0 + 64 * hold1 + pool + 64 * ph0

def State.creditedKib (s : State) : Nat :=
  Machine.creditedKib (s.fld (F.HST_ADM_CTL.HOLD_POOL .hp0)) (s.fld (F.HST_ADM_CTL.HOLD_POOL .hp1))
    (s.fld F.FAB_CREDIT.POOL_SIZE) (s.fld F.PHL_CTL.PH0_RESERVE)

/-- The credited reservation with the staged values in force. -/
def State.stagedKib (s : State) : Nat :=
  let get (f : Fld) : Nat := bitsOf (overStaged s.staged f.addr (s.raw f.addr)) f.lsb f.width
  Machine.creditedKib (get (F.HST_ADM_CTL.HOLD_POOL .hp0)) (get (F.HST_ADM_CTL.HOLD_POOL .hp1)) (get F.FAB_CREDIT.POOL_SIZE)
    (get F.PHL_CTL.PH0_RESERVE)

/-- PST_ATOM_CTL.EFFECTIVE in KiB (R64). -/
def State.openLimitKib (s : State) : Nat :=
  min (1024 * s.fld F.PST_ATOM_CTL.OPEN_LIMIT) (16384 - s.creditedKib)

/-- An extent's reservation in KiB: its declared length rounded up to 4 KiB (R61). -/
def extentKib (declared : Nat) : Nat := (declared + 4095) / 4096 * 4

/-- An extent whose data is complete and that has not committed: its reservation still stands. -/
def CUnit.pendingExtent (u : CUnit) : Bool := u.extent && !u.committed

/-- Space reserved by open extents, those of the twin included (R61, R63, R236). -/
def State.openKib (s : State) : Nat :=
  sumOf (s.pst.extents.map (fun e => if e.2.opened then extentKib e.2.declared else 0)) +
  sumOf (s.pst.units.map (fun u => if u.pendingExtent then extentKib u.len else 0)) +
  sumOf (s.pst.xreqs.map (fun x => if x.granted then 4 * x.units4k else 0))

/-- R20: a staged raise of the credited reservation that does not fit beside the open extents; new extents wait for it. -/
def State.raiseWaits (s : State) : Bool := decide (s.creditedKib < s.stagedKib) && decide (16384 < s.stagedKib + s.openKib)

/-- R64: an extent of `kib` may open now. -/
def State.kibFits (s : State) (kib : Nat) : Bool := !s.raiseWaits && decide (s.openKib + kib ≤ s.openLimitKib)

/-- Bytes of ingress that a unit takes: its 64-byte entries (R167). -/
def CUnit.space (u : CUnit) : Nat :=
  if u.zeros then 64 * ((u.len + 4095) / 4096) else 64 * ((u.dpa + u.len + 63) / 64 - u.dpa / 64)

/-- A unit whose space is part of the credited reservation (R19, R20). -/
def CUnit.credited (u : CUnit) : Bool :=
  match u.door with
  | .cxl _ _ | .fabric _ _ _ | .twin _ => true
  | _ => false

/-- Ingress space taken by units that came under no credit: the strands' and the device's own. -/
def State.uncreditedBytes (s : State) : Nat :=
  sumOf (s.pst.units.map (fun u => if u.credited || u.pendingExtent then 0 else u.space))

/-- `n` more bytes fit in the 16 MiB ingress buffer beside the credited reservation and the open extents (R19, R26). -/
def State.ingressRoom (s : State) (n : Nat) : Bool :=
  decide (s.uncreditedBytes + n + 1024 * (s.creditedKib + s.openKib) ≤ 16777216)

def State.openCount (s : State) : Nat :=
  (s.pst.extents.filter (fun e => e.2.opened)).length + (s.pst.units.filter CUnit.pendingExtent).length + (s.pst.xreqs.filter (fun x => x.granted)).length

/-- The floors of the regions that own 4 KiB blocks of a page; none for a block in no region (R538). -/
def State.pageFloors (s : State) (page : Nat) : List (Option Class) :=
  (List.range 4).map (fun i => (s.regionAt (page * 16384 + i * 4096)).map (fun e => e.2.floor))

/-- VOLATILE: at least one block in a D0 region, every other in a D0 region or in none (R538). -/
def State.volatilePage (s : State) (page : Nat) : Bool :=
  let l := s.pageFloors page
  l.any (· == some .d0) && l.all (fun f => f == some .d0 || f == none)

/-- A page's state (Table CEI-1). -/
def State.pageState (s : State) (page : Nat) : Nat :=
  if s.volatilePage page then 5
  else match Tab.get s.dst.pages page with
    | none => (match Tab.get s.dst.map page with
        | some _ => 1
        | none => 0)
    | some p =>
      if p.unrestored then 4
      else if p.destaging then 3
      else if p.dirty then 2
      else if (Tab.get s.dst.map page).isSome then 1
      else 0

def State.unrestoredPages (s : State) : List Nat := (s.dst.pages.filter (fun e => e.2.unrestored)).map (·.1)

def State.unrestored (s : State) (dpa : Nat) : Bool :=
  match Tab.get s.dst.pages (pageOf dpa) with
  | some p => p.unrestored
  | none => false

/-- The range's contents are still to come from NAND or the twin: a D0 block takes nothing from either, and is read at once
(R43, Table HST-2). -/
def State.awaitsRestore (s : State) (dpa len : Nat) : Bool :=
  ((s.regionAt dpa).map (fun e => e.2.floor)) != some .d0 && (pagesOf dpa len).any (fun p => s.unrestored (16384 * p))

/-- Installed DDR5 in MiB (R358). -/
def State.installedMib (s : State) : Nat := 16384 * s.mem.dpc * s.mem.gib

/-- MiB lent now (R303). -/
def State.lentMib (s : State) : Nat := sumOf (s.tir.loansOut.map (fun e => e.2.mib))

/-- MiB of DDR5 that reservations may use (R303). -/
def State.usableMib (s : State) : Nat := s.installedMib - (s.mem.removed + 3) / 4

/-- MiB reserved by the tenants. -/
def State.reservedMib (s : State) : Nat := sumOf (s.tenants.map (fun e => e.2.ddrMib))

/-- Key of a logical device. -/
def ldKey (p : Port) (ld : Nat) : Nat := 16 * p.idx + ld % 16

def LdState.empty : LdState := { seq := 0, taken := [], status := 0, failCount := 0, firstFail := 0, waiting := [] }

def State.ld (s : State) (p : Port) (ld : Nat) : LdState := (Tab.get s.hst.lds (ldKey p ld)).getD LdState.empty

def State.port (s : State) (p : Port) : PortState :=
  match p with
  | .hp0 => s.hst.hp0
  | .hp1 => s.hst.hp1

end Sys2Proof.Machine
end

