-- ==== Sys2Proof/Machine/Energy.lean ====
section
/-! DEFINITION. The energy term of the dirty ceiling (08 R263, R264), in exact integer arithmetic, and what a save would write. -/

namespace Sys2Proof.Machine

/-- The last valid measurement of the bank, or its rating (R264): c in 10 mF, esr in 0.1 mΩ. -/
def State.bankC (s : State) : Nat := if s.dst.measValid then s.dst.measC else s.fld F.DST_HUP_RATED.RATED_C

def State.bankEsr (s : State) : Nat := if s.dst.measValid then s.dst.measEsr else s.fld F.DST_HUP_RATED.RATED_ESR

/-- Bank voltage in 10 µV for an ADC code of HUP_SENSE. -/
def State.bankVolt (s : State) (code : Nat) : Nat := code * s.fld F.DST_HUP_CFG.SENSE_SCALE

/-- e_avail as a fraction: numerator and denominator, in J. Zero when v ≤ V_MIN, and when the ESR factor is not positive. -/
def availJ (v vmin c esr psave eff : Nat) : Nat × Nat :=
  (c * (v * v - vmin * vmin) * (eff * vmin * vmin - psave * esr * 10 ^ 8) * 5, 10 ^ 15 * (vmin * vmin))

/-- The energy term in MiB at a voltage. With P_SAVE = 0 the formula divides by zero: `open_` is its free value. -/
def State.energyAt (s : State) (v open_ : Nat) : Nat :=
  let p := s.fld F.DST_HUP_CFG.P_SAVE
  let vmin := 1000 * s.fld F.DST_HUP_CFG.V_MIN
  if s.on F.DST_HUP_CFG.PRESENT ∧ vmin < v then
    if p = 0 then open_
    else
      let a := availJ v vmin s.bankC s.bankEsr p (s.fld F.DST_HUP_CFG.EFF)
      let num := a.1 * 100
      let den := a.2 * (100 + s.fld F.DST_HUP_CFG.MARGIN)
      (num * 10 - 3 * p * den) * (3000000000 * s.dst.channels) / (10 * den * p * 1048576)
  else 0

/-- Blocks of a page that destage and SAVE keep: those of regions with a floor above D0 (R538). -/
def State.keptBlocks (s : State) (page : Nat) : List Nat :=
  (List.range 4).filter (fun i => match s.regionAt (page * 16384 + i * 4096) with
    | some (_, r) => r.floor != .d0
    | none => false)

/-- The page as it goes to NAND, from DDR5. -/
def State.pageImage (s : State) (page : Nat) : Memory :=
  (s.keptBlocks page).flatMap (fun i => s.ddr.slice (page * 16384 + i * 4096) 4096)

/-- The data-zone copy of a page, as DDR5 would hold it. -/
def State.zoneCopy (s : State) (page : Nat) : Memory :=
  match Tab.get s.dst.map page with
  | some e => if e.valid then s.dst.nand.slice (page * 16384) 16384 else []
  | none => []

/-- Set bits of a sector mask. -/
def countBits (m : BitVec 16) : Nat := ((List.range 16).filter (fun i => m.getLsbD i)).length

/-- Dirty sectors that a save would write: those of regions with a floor above D0 (R286). -/
def State.savedSectors (s : State) : Nat :=
  let kept (b : Nat) : Bool := match s.regionAt (b * 4096) with
    | some (_, r) => r.floor != .d0
    | none => false
  sumOf ((s.nc.lines.filter (fun e => kept e.1)).map (fun e => countBits e.2.dirty)) +
  sumOf ((s.nc.victim.filter (fun v => kept v.block)).map (fun v => countBits v.dirty))

/-- KiB a save would write now: ingress, near-cache sectors, and the dirty pages that DDR5 holds otherwise than NAND
(DST_LEVEL.SAVE_MIB, R286; DEDUCED, notes/assumptions/102.md). -/
def State.saveKib (s : State) : Nat :=
  16384 + s.savedSectors / 4 +
  16 * (s.dst.pages.filter (fun e => e.2.dirty && !e.2.unrestored && s.pageImage e.1 != s.zoneCopy e.1)).length

/-- Bytes a save would write now, in MiB. -/
def State.saveMib (s : State) : Nat := s.saveKib / 1024

/-- 300 + SAVE_MIB ÷ the save rate, in ms (DST_SAVE_PRED). -/
def State.saveMs (s : State) : Nat := 300 + s.saveMib * 1048576 / (3000000 * max 1 s.dst.channels)

/-- e_avail now, in J. -/
def State.availNow (s : State) : Nat :=
  let v := s.bankVolt s.dst.hupCode
  let vmin := 1000 * s.fld F.DST_HUP_CFG.V_MIN
  if s.on F.DST_HUP_CFG.PRESENT then
    let a := availJ v vmin s.bankC s.bankEsr (s.fld F.DST_HUP_CFG.P_SAVE) (s.fld F.DST_HUP_CFG.EFF)
    a.1 / a.2
  else 0

end Sys2Proof.Machine
end

