-- ==== Sys2Proof/Machine/Views.lean ====
section
/-! DEFINITION. Quantities that status registers report, derived from the state: quality of trained units (13 R410, R411),
credits (06 R204, R205), pool membership (R541), slots and engines (04 R106 to R109), cipher units in service (10 R349),
sectors of the configuration flash (14 R430, R436). -/

namespace Sys2Proof

/-- Credits a packet costs (R203). -/
def Packet.cost (p : Packet) : Nat := max 1 ((p.payload.length + 1023) / 1024)

end Sys2Proof

namespace Sys2Proof.Machine

def CalUnit.untrained : CalUnit :=
  { st := 0, tries := 0, fromSeed := true, seeded := false, settings := 0, eyes := [], window := false, deferred := false, gapWait := false,
    weakAt := none, seedAt := none }

def CalState.unit (c : CalState) (k : Nat) : CalUnit := (Tab.get c.units k).getD CalUnit.untrained

def State.calUnit (s : State) (k : Nat) : CalUnit := s.cal.unit k

/-- Units of an interface. -/
def ifaceUnits (iface : Nat) : Nat := ([16, 2, 32, 2, 4, 2] : List Nat).getD iface 0

def isUnit (iface unit : Nat) : Bool := decide (unit < ifaceUnits iface)

def unitKey (iface unit : Nat) : Nat := 32 * iface + unit

/-- Thresholds of Table CAL-4: WEAK width and height, FAILED width and height. -/
def eyeLimits : Nat → Nat × Nat × Nat × Nat
  | 0 => (20, 60, 12, 35)
  | 1 => (24, 50, 14, 30)
  | 3 => (10, 12, 6, 6)
  | 4 => (10, 10, 6, 5)
  | 5 => (10, 10, 6, 5)
  | _ => (0, 0, 0, 0)

def eyesBelow (l : Tab (Nat × Nat)) (w h : Nat) : Bool := l.any (fun e => decide (e.2.1 < w) || decide (e.2.2 < h))

def eyeWeak (iface : Nat) (l : Tab (Nat × Nat)) : Bool := eyesBelow l (eyeLimits iface).1 (eyeLimits iface).2.1

def eyeFailed (iface : Nat) (l : Tab (Nat × Nat)) : Bool := eyesBelow l (eyeLimits iface).2.2.1 (eyeLimits iface).2.2.2

/-- An offset, one of eight signed bytes. -/
def offsetAt (w : Word) (i : Nat) : Int := (BitVec.ofNat 8 (bitsOf w (8 * i) 8)).toInt

/-- A die is WEAK: an offset more than 60 steps from its default. -/
def dieWeak (ch die : Nat) (w : Word) : Bool :=
  (List.range 8).any (fun i => decide (60 < (offsetAt w i - offsetAt (Config.nandDefaults ch die) i).natAbs))

/-- A CXL port is judged at 64 GT/s, the rate Table CAL-4 names. -/
def State.judged (s : State) (iface unit : Nat) : Bool :=
  iface != 3 || (s.port (if unit = 0 then .hp0 else .hp1)).speed == 6

/-- The result of a unit is WEAK. -/
def State.unitWeak (s : State) (iface unit : Nat) : Bool :=
  if iface = 2 then s.cal.offsets.any (fun e => e.1 / 32 == unit && dieWeak unit (e.1 % 32) e.2)
  else s.judged iface unit && eyeWeak iface (s.calUnit (unitKey iface unit)).eyes

def State.unitFailed (s : State) (iface unit : Nat) : Bool :=
  (s.calUnit (unitKey iface unit)).st == 3 || (s.judged iface unit && eyeFailed iface (s.calUnit (unitKey iface unit)).eyes)

def Session.tenant (x : Session) : Nat := x.params.tenant.toNat
def Session.peer (x : Session) : Nat := x.params.peerNode.toNat

def PathState.down : PathState := { st := 0, link := false, held := false, rate := 0, errors := [], rtt := 0 }

def State.ses (s : State) (n : Nat) : Option Session := Tab.get s.fab.sessions n

def State.path (s : State) (p : FabPort) : PathState := s.fab.paths.getD p.idx PathState.down

def State.node (s : State) : Nat := s.fld F.FAB_NODE.NODE

/-- Members of the pool: this device, its twin once its node is known, and the list (R541). -/
def State.memberList (s : State) : List Nat :=
  (s.node :: ((if s.phl.peerKnown then [s.phl.peerNode] else []) ++ s.fab.members)).dedup

/-- The members of a port pair. -/
def pairPorts (n : Nat) : List FabPort := if n = 0 then [.fa0, .fb0] else [.fa1, .fb1]

/-- Errors of a path in the FAB_PATH_CTL.WINDOW that ends at `t` (R217). -/
def State.errorsAt (s : State) (p : PathState) (t : Nat) : Nat :=
  (p.errors.filter (fun e => decide (e ≤ t) && decide (t < e + 100000 * s.fld F.FAB_PATH_CTL.WINDOW))).length

/-- Credits of the pool granted and not spent. -/
def Session.unspent (x : Session) : Nat := sumOf ((x.grants.filter (·.whole.isNone)).map (·.credits))

/-- Credits that a message of `len` bytes takes (R203). -/
def creditsOf (len : Nat) : Nat := max 1 ((len + 1023) / 1024)

def State.sesTenant (s : State) (n : Nat) : Nat := ((s.ses n).map (·.tenant)).getD 4096

/-- The tenant of the session of a GET (R209). -/
def State.getTenant (s : State) (c op : Nat) : Option Nat :=
  match (Tab.get s.pe.cmds c).bind (fun x => x.ops.find? (fun o => o.id == op)) with
  | some o => if o.opcode = 0x51 ∧ o.link < 2 ^ 20 then some (s.sesTenant o.link) else none
  | none => none

/-- Credits that the returned data of a GET holds, for tenants that `p` admits. -/
def heldCredit (p : Nat → Bool) (tenant : Option Nat) (len : Nat) : Nat :=
  match tenant with
  | some t => if p t then creditsOf len else 0
  | none => 0

/-- Credits in use, by tenant test: unspent grants, units of the sessions still in ingress, and what GETs have reserved or brought back
(R205, R209). -/
def State.creditsInUse (s : State) (p : Nat → Bool) : Nat :=
  sumOf (s.pst.units.map (fun u => match u.door with
    | .fabric n _ _ => if !u.extent && p (s.sesTenant n) then creditsOf u.len else 0
    | _ => heldCredit p u.pooled u.len)) +
  sumOf (s.pst.extents.map (fun e => match e.2.door with
    | .strand c op => heldCredit p (s.getTenant c op) e.2.declared
    | _ => 0)) +
  sumOf (s.fab.sessions.map (fun e => if p e.2.tenant then
    e.2.unspent + sumOf (e.2.parked.map (fun q => q.2.1.cost)) + (e.2.rx.filter (fun m => !m.entry.isEmpty)).length +
      sumOf (e.2.tx.map (fun t => if t.reserved then t.reserve else 0)) else 0))

/-- POOL_FREE: credits neither granted nor in use. -/
def State.poolFree (s : State) : Nat := s.fld F.FAB_CREDIT.POOL_SIZE - s.creditsInUse (fun _ => true)

/-- Sum of the tenants' credit reservations (R204). -/
def State.creditReserved (s : State) : Nat := sumOf (s.tenants.map (fun e => e.2.credits))

/-- Both members of a pair are FAILED or OFF. -/
def State.pairDown (s : State) (n : Nat) : Bool := (pairPorts n).all (fun p => decide (2 ≤ (s.path p).st))

/-- Strands of a tenant, yielded ones included; those of privileged queue pairs are firmware's, and run in slots of their own
(R106, R138). -/
def State.tenantStrands (s : State) (t : Nat) : Nat :=
  (s.pe.strands.filter (fun x => match Tab.get s.pe.qps x.2.qp with
    | some q => q.tenant == t && !q.priv
    | none => false)).length

/-- An engine takes new strands (R109). -/
def State.engineOn (s : State) (e : Nat) : Bool := bit (s.raw Addr.PE_ENGINE_EN) e

/-- Slots that hold a strand, by engine. -/
def State.busyIn (s : State) (e : Nat) : Nat :=
  (s.pe.strands.filter (fun x => decide (x.1 < 4096) && x.1 / 64 == e)).length

/-! Slots, and fetching from a queue pair (04 R106, R108, R116, R138). -/

/-- A free slot of an engine: slot 63 for a firmware strand, the lowest of the others for a tenant's (R106). -/
def State.freeSlot (s : State) (e : Nat) (priv : Bool) : Option Nat :=
  ((if priv then [63] else List.range 63).map (· + 64 * e)).find? (fun k => !Tab.has s.pe.strands k)

/-- R108: the lowest free slot of the enabled engine with the fewest busy slots, the lowest-numbered where they tie. -/
def State.placeSlot (s : State) (priv : Bool) : Option Nat :=
  ((List.range 64).foldl (fun (best : Option (Nat × Nat)) e =>
    if s.engineOn e then
      match s.freeSlot e priv with
      | none => best
      | some k =>
        (match best with
         | some (b, _) => if s.busyIn e < b then some (s.busyIn e, k) else best
         | none => some (s.busyIn e, k))
    else best) none).map (·.2)

/-- Slots of the unreserved pool in use (R138). -/
def State.unreservedUsed (s : State) : Nat :=
  sumOf (s.tenants.map (fun e => s.tenantStrands e.1 - e.2.strandsMin))

/-- R138: the tenant can obtain a slot. -/
def State.tenantSlot (s : State) (t : Nat) : Bool :=
  match Tab.get s.tenants t with
  | none => false
  | some x =>
    let n := s.tenantStrands t
    decide (n < x.strandsMin) ||
    (decide (n < x.strandsMax) && decide (s.unreservedUsed < 4032 - sumOf (s.tenants.map (fun e => e.2.strandsMin))))

/-- A strand of the queue pair can obtain a slot: a tenant's by R138, a firmware strand one of those kept for it (R106). -/
def State.qpSlot (s : State) (q : Qp) : Bool := if q.priv then (s.placeSlot true).isSome else s.tenantSlot q.tenant

/-- Commands of a queue pair that have not posted. -/
def State.qpCmds (s : State) (n : Nat) : List (Nat × Cmd) := s.pe.cmds.filter (fun e => e.2.qp == n)

/-- Commands of a queue pair whose strand has not ended. -/
def State.qpRunning (s : State) (n : Nat) : Nat := ((s.qpCmds n).filter (fun e => !e.2.ended)).length

/-- The four conditions of R116. -/
def State.mayFetch (s : State) (n : Nat) (q : Qp) : Bool :=
  decide (s.qpRunning n < q.maxStrands) && s.qpSlot q && decide (q.posted.length + (s.qpCmds n).length < q.depth) &&
  !q.posted.any (fun f => f != 0 && f % 4096 == (q.fseq + 1) % 4096) &&
  !(s.qpCmds n).any (fun e => !e.2.rejected && e.2.fseq % 4096 == (q.fseq + 1) % 4096)

/-- PE_QP_INFO.STATE: 1 active, 2 being destroyed, 3 stopped: by the loss of its context (Table MEM-4), or under R116, where entries
wait and a condition keeps them waiting. -/
def State.qpState (s : State) (n : Nat) (q : Qp) : Nat :=
  match q.life with
  | .destroying => 2
  | .stopped => 3
  | .active => if q.sqHead ≠ q.sqTail ∧ s.mayFetch n q = false then 3 else 1

/-- More than 64 members need a valid plan (R324). -/
def State.planMissing (s : State) : Bool := decide (64 < s.memberList.length) && s.tir.plan.isNone

/-- Units of a kind in service (CIP_QUAR). -/
def State.unitsInService (s : State) (lane : Bool) : List Nat :=
  if lane then ((List.range 16).filter (fun i => !bit (s.raw Addr.CIP_QUAR) (32 + i))).map (· + 32)
  else (List.range 20).filter (fun i => !bit (s.raw Addr.CIP_QUAR) i)

/-- No unit of the kind is left: its messages complete with ST_INTERNAL (R349). -/
def State.noUnit (s : State) (lane : Bool) : Bool := (s.unitsInService lane).isEmpty

def norSector (fa : Nat) : Nat := fa / 4096

def Sector.unused : Sector := { erases := 0, st := 0, worn := false, pvp := 0, incomplete := false }

def State.sector (s : State) (n : Nat) : Sector := (Tab.get s.cfl.sectors n).getD Sector.unused

def State.wpBit (s : State) (n : Nat) : Bool := bitsOf (s.raw (Addr.CFL_WP (n / 64))) (n % 64) 1 == 1

end Sys2Proof.Machine
end

