-- ==== Sys2Proof/Machine/Overlay.lean ====
section
/-! DEFINITION. What a register reads as: the value in force, under the staged values, under the read-only fields that
mirror state held elsewhere. -/

namespace Sys2Proof.Machine

def b2n (b : Bool) : Nat := if b then 1 else 0

/-- Values saturating at a width. -/
def sat (width v : Nat) : Nat := min (2 ^ width - 1) v

def mib (kib : Nat) : Nat := kib / 1024

def overlayGen (s : State) (a : Nat) : List (Fld × Nat) :=
  if a = Addr.GEN_ISLAND_STATE then
    [ (F.GEN_ISLAND_STATE.AON, 3), (⟨a, 2, 28⟩, sumOf ((List.range 14).map (fun i => (s.isl.getD (i + 1) .off).code * 4 ^ i))),
      (F.GEN_ISLAND_STATE.FROZEN, b2n s.mod.frozen) ]
  else if a = Addr.GEN_ID then
    [ (⟨a, 16, 5⟩, Config.steppingGrade.toNat) ]
  else if a = Addr.GEN_SERIAL then [ (F.GEN_SERIAL.SERIAL, Config.serial.toNat) ]
  else if a = Addr.GEN_TIME then [ (F.GEN_TIME.TIME, s.time) ]
  else []

def overlayMod (s : State) (a : Nat) : List (Fld × Nat) :=
  if a = Addr.MOD_STATUS then
    [ (F.MOD_STATUS.MODE, s.mod.mode.code), (F.MOD_STATUS.PREV_MODE, s.mod.prev.code),
      (F.MOD_STATUS.TARGET, s.mod.target), (F.MOD_STATUS.HALT_CAUSE, s.mod.haltCause),
      (F.MOD_STATUS.INTAKE_CLOSED, b2n s.mod.intakeClosed), (F.MOD_STATUS.TWIN_MODE, s.phl.twinMode) ]
  else if a = Addr.MOD_ENTER_TIME then [ (F.MOD_ENTER_TIME.TIME, s.mod.enteredAt) ]
  else []

def overlayPst (s : State) (a : Nat) : List (Fld × Nat) :=
  if a = Addr.PST_ATOM_CTL then
    [ (F.PST_ATOM_CTL.RESERVED_NOW, (s.openKib + 63) / 64), (F.PST_ATOM_CTL.OPEN_EXTENTS, s.openCount),
      (F.PST_ATOM_CTL.EFFECTIVE, s.openLimitKib / 64) ]
  else []

def overlayPhl (s : State) (a : Nat) : List (Fld × Nat) :=
  if a = Addr.PHL_STATUS then
    [ (F.PHL_STATUS.TWIN_STATE, s.phl.twin.code), (F.PHL_STATUS.PRIMARY, b2n s.phl.primary),
      (F.PHL_STATUS.HB_IN, s.phl.hbIn.code),
      (F.PHL_STATUS.HB_OUT, b2n (match s.phl.twin with
        | .resyncIn | .resyncOut | .paired | .fallback | .unconfirmed | .alone => !s.mod.frozen && !s.dst.saving
        | _ => false)),
      (F.PHL_STATUS.PH0_WIDTH, s.phl.ph0.width), (F.PHL_STATUS.PH1_WIDTH, s.phl.ph1.width),
      (F.PHL_STATUS.PH0_UP, b2n s.phl.ph0.up), (F.PHL_STATUS.PH1_UP, b2n s.phl.ph1.up),
      (F.PHL_STATUS.LEASE_EPOCH, s.phl.epoch) ]
  else if a = Addr.PHL_MSN then [ (F.PHL_MSN.TX_NEXT, s.phl.txNext), (F.PHL_MSN.TX_ACKED, s.phl.txAcked) ]
  else if a = Addr.PHL_RESYNC then
    [ (F.PHL_RESYNC.KIND, s.phl.resyncKind), (F.PHL_RESYNC.ROLE, b2n s.phl.receiver),
      (F.PHL_RESYNC.PAGES_LEFT, s.phl.resyncLeft.length) ]
  else []

def overlayDst (s : State) (a : Nat) : List (Fld × Nat) :=
  if a = Addr.DST_CEIL_STATUS then
    [ (F.DST_CEIL_STATUS.EFFECTIVE, s.dst.ceff), (F.DST_CEIL_STATUS.LIMITER, s.dst.limiter),
      (F.DST_CEIL_STATUS.ZONE, s.dst.zone), (F.DST_CEIL_STATUS.ENERGY, sat 20 s.dst.energyTerm),
      (F.DST_CEIL_STATUS.SAVEZONE, sat 20 s.dst.saveTerm) ]
  else if a = Addr.DST_LEVEL then
    [ (F.DST_LEVEL.LEVEL, mib s.levelKib), (F.DST_LEVEL.SAVE_MIB, mib s.saveKib),
      (F.DST_LEVEL.DIRTY_PAGES, s.dirtyPages) ]
  else if a = Addr.DST_HUP_MEAS then
    [ (F.DST_HUP_MEAS.C, s.dst.measC), (F.DST_HUP_MEAS.ESR, s.dst.measEsr),
      (F.DST_HUP_MEAS.V_NOW, s.dst.hupCode * s.fld F.DST_HUP_CFG.SENSE_SCALE / 1000),
      (F.DST_HUP_MEAS.AGE, sat 8 ((s.time - s.dst.measTime) / 3600000000000)),
      (F.DST_HUP_MEAS.VALID, b2n s.dst.measValid) ]
  else if a = Addr.DST_TEN_CEIL then
    let t := s.fld F.DST_TEN_SEL.TENANT
    [ (F.DST_TEN_CEIL.SHARE, s.share t), (F.DST_TEN_CEIL.GUARANTEE, mib (s.guarantee t)),
      (F.DST_TEN_CEIL.LEVEL, mib (16 * s.tenantPages t)), (F.DST_TEN_CEIL.BUSY, b2n (s.busy t)),
      (F.DST_TEN_CEIL.HEADROOM, b2n (s.headroomOf t)) ]
  else if a = Addr.DST_WEAR then
    [ (F.DST_WEAR.AVG_PE, s.dst.avgPe), (F.DST_WEAR.SPARE_LEFT, s.dst.spareLeft), (F.DST_WEAR.RETIRED, s.dst.retired),
      (F.DST_WEAR.CHANNELS, s.dst.channels) ]
  else if a = Addr.DST_SAVE_PRED then
    [ (F.DST_SAVE_PRED.TIME_MS, sat 16 s.saveMs), (F.DST_SAVE_PRED.ENERGY_J, sat 16 (s.fld F.DST_HUP_CFG.P_SAVE * s.saveMs / 1000)),
      (F.DST_SAVE_PRED.AVAIL_J, sat 16 s.availNow) ]
  else if a = Addr.DST_RESTORE then
    [ (F.DST_RESTORE.PAGES_LEFT, (s.unrestoredPages ++ s.svc.filling.filter (fun p => !s.unrestoredPages.contains p)).length), (F.DST_RESTORE.DEMAND_OUT, s.dst.demandOut) ]
  else if a = Addr.DST_ERR then
    [ (F.DST_ERR.OVER_CEILING, b2n (s.dst.zone == 2)), (F.DST_ERR.NAND_SHORT, b2n s.dst.nandShort),
      (F.DST_ERR.LAST_SAVE_INCOMPLETE, b2n s.dst.lastIncomplete) ]
  else []

/-- Writes of a port held in the hold pool, in bytes (HOLD_USED). -/
def State.heldIn (s : State) (p : Port) (h : Hold) : List CUnit :=
  s.pst.units.filter (fun u => u.hold == h && (match u.door with
    | .cxl q _ => q == p
    | _ => false))

def State.holdUsedKib (s : State) (p : Port) : Nat := ((s.heldIn p .pool).length * 64 + 1023) / 1024

def overlayHst (s : State) (a : Nat) : List (Fld × Nat) :=
  let go (p : Port) : List (Fld × Nat) :=
    let q := s.port p
    [ (F.HST_PORT_STATUS.LINK p, q.link), (F.HST_PORT_STATUS.WIDTH p, q.width),
      (F.HST_PORT_STATUS.LD_ACTIVE p, sumOf ((List.range 16).map (fun n =>
        if s.on (F.HST_LD_MAP.ENABLE p n) && Tab.has s.tenants (s.fld (F.HST_LD_MAP.TENANT p n)) then 2 ^ n else 0))),
      (F.HST_PORT_STATUS.CREDIT_WITHHELD p, b2n (decide (0 < (s.heldIn p .credit).length) || s.mod.intakeClosed)),
      (F.HST_PORT_STATUS.SPEED p, q.speed), (F.HST_PORT_STATUS.HOLD_USED p, (s.holdUsedKib p + 3) / 4) ]
  if a = Addr.HST_PORT_STATUS .hp0 then go .hp0
  else if a = Addr.HST_PORT_STATUS .hp1 then go .hp1
  else []

def overlayRec (s : State) (a : Nat) : List (Fld × Nat) :=
  let c := s.contrail
  if a = Addr.REC_STATUS then
    [ (F.REC_STATUS.UNFLUSHED, sat 14 c.unflushed.length), (F.REC_STATUS.RESERVE_USED, c.reserve.length),
      (F.REC_STATUS.LOG_RECORDS, sat 17 c.log.length), (F.REC_STATUS.FLUSHING, b2n c.flushing) ]
  else if a = Addr.REC_RECNO then
    [ (F.REC_RECNO.NEXT, c.nextNo),
      (F.REC_RECNO.OLDEST, (c.ring ++ c.log ++ c.reserve).foldl (fun m r => min m r.no) c.nextNo) ]
  else if a = Addr.REC_CLEAR_PT then [ (F.REC_CLEAR_PT.POINT, c.clearPoint), (F.REC_CLEAR_PT.MASK, c.clearMask) ]
  else if a = Addr.REC_ERR then [ (F.REC_ERR.RESERVE_IN_USE, b2n (!c.reserve.isEmpty)) ]
  else []

def overlayNc (s : State) (a : Nat) : List (Fld × Nat) :=
  if a = Addr.NC_STATUS then
    [ (F.NC_STATUS.STATE, s.nc.st.code), (F.NC_STATUS.STALE_RISK, b2n s.nc.staleRisk),
      (F.NC_STATUS.LOCKED_BLOCKS, (s.nc.lines.filter (fun e => e.2.pin || e.2.wlk)).length),
      (F.NC_STATUS.VICTIM_USED, s.nc.victim.length) ]
  else if a = Addr.NC_DIRTY then
    [ (F.NC_DIRTY.DIRTY_SECTORS,
        sumOf (s.nc.lines.map (fun e => countBits e.2.dirty)) + sumOf (s.nc.victim.map (fun v => countBits v.dirty))),
      (F.NC_DIRTY.VICTIM_DIRTY, (s.nc.victim.filter (fun v => v.dirty != 0)).length) ]
  else []

/-- Debug is unlocked (R490). -/
def State.debugOpen (s : State) : Bool :=
  match s.dbg.unlocked with
  | none => false
  | some t => t == 0 || decide (s.time < t)

def overlaySeq (s : State) (a : Nat) : List (Fld × Nat) :=
  let q := s.seq
  if a = Addr.SEQ_STATUS then
    [ (F.SEQ_STATUS.STATE, q.st.code), (F.SEQ_STATUS.STEP, q.step), (F.SEQ_STATUS.POSITION, q.position),
      (F.SEQ_STATUS.POS_VALID, b2n q.posValid), (F.SEQ_STATUS.LATCHED, b2n (q.st.code == 6)),
      (F.SEQ_STATUS.ON_PENDING, b2n q.onPending), (F.SEQ_STATUS.TIMEOUT_PATH, b2n q.timeoutPath), (F.SEQ_STATUS.STUCK, b2n q.stuck),
      (F.SEQ_STATUS.CASC_IN, b2n q.cascIn), (F.SEQ_STATUS.CASC_FLT, b2n (q.fltHigh && !q.fltDrive)),
      (F.SEQ_STATUS.PFAIL, b2n q.pfailHigh), (F.SEQ_STATUS.POS_ERROR, b2n q.posError) ]
  else if a = Addr.SEQ_RAILS then [ (F.SEQ_RAILS.EN, q.en.toNat), (F.SEQ_RAILS.GOOD, q.good.toNat) ]
  else if a = Addr.SEQ_SNS_RD 0 ∨ a = Addr.SEQ_SNS_RD 1 then
    (List.range 4).map (fun i => (⟨a, 16 * i, 12⟩, q.codes.getD (4 * ((a - Addr.SEQ_SNS_RD 0) / 8) + i) 0))
  else if Addr.SEQ_RST 0 ≤ a ∧ a < Addr.SEQ_RST 4 then
    [ (F.SEQ_RST.ASSERTED ((a - Addr.SEQ_RST 0) / 8), b2n ((q.rst[(a - Addr.SEQ_RST 0) / 8]?.map (·.asserted)).getD true)) ]
  else []

/-- Registers of a retention bank (Table LPS-3). -/
def bankCount (b : Nat) : Nat := ([180, 220, 260, 420, 310, 190, 330, 490] : List Nat).getD b 0

def overlayLps (s : State) (a : Nat) : List (Fld × Nat) :=
  let l := s.lps
  if a = Addr.LPS_STATUS then
    [ (F.LPS_STATUS.STATE, l.st), (F.LPS_STATUS.CLEAN_CURRENT, b2n l.cleanCurrent), (F.LPS_STATUS.LAST_REFUSER, l.lastRefuser),
      (F.LPS_STATUS.BACKOFF, l.backoff) ]
  else if a = Addr.LPS_PAD then [ (F.LPS_PAD.LATCHED, l.latched.toNat) ]
  else if a = Addr.LPS_WAKE then
    [ (F.LPS_WAKE.SOURCE, l.source), (F.LPS_WAKE.FROM, l.from_), (F.LPS_WAKE.DURATION_MS, sat 48 l.durationMs) ]
  else if a = Addr.LPS_LOST then [ (F.LPS_LOST.HELD, l.held.toNat) ]
  else if a = Addr.LPS_LIST then
    [ (F.LPS_LIST.OFFSET, (Config.retentionList (s.fld F.LPS_LIST.BANK) (s.fld F.LPS_LIST.INDEX)).toNat),
      (F.LPS_LIST.COUNT, bankCount (s.fld F.LPS_LIST.BANK)) ]
  else []

/-- CAL_STATUS of an interface as a whole. -/
def State.calWhole (s : State) (iface : Nat) : Nat :=
  let l := (List.range (ifaceUnits iface)).map (fun u => (s.calUnit (unitKey iface u)).st)
  if l.any (· == 1) then 1 else if l.any (· == 3) then 3 else if l.all (· == 2) then 2 else 0

/-- One bit per FAILED unit of an interface. -/
def State.failedUnits (s : State) (iface : Nat) : Nat :=
  sumOf ((List.range (ifaceUnits iface)).map (fun u => if (s.calUnit (unitKey iface u)).st = 3 then 2 ^ u else 0))

def State.bootStatus (s : State) (a : Nat) : List (Fld × Nat) :=
  if a = Addr.GEN_BOOT then
    [ (F.GEN_BOOT.PHASE, s.seq.bootPhase), (F.GEN_BOOT.FAIL, s.seq.bootFail), (F.GEN_BOOT.SK, s.calWhole 1),
      (F.GEN_BOOT.SK_FAILED, s.failedUnits 1), (F.GEN_BOOT.BOOTED_SLOT, s.cfl.bootedSlot), (F.GEN_BOOT.FALLBACK, b2n s.seq.fallback),
      (F.GEN_BOOT.HDR_COPY, s.cfl.hdrCopy), (F.GEN_BOOT.HDR_DEFAULT, b2n s.seq.hdrDefault), (F.GEN_BOOT.BOOT_COUNT, s.boot) ]
  else if a = Addr.GEN_THERM then
    [ (F.GEN_THERM.TEMP, s.seq.temp.toNat), (F.GEN_THERM.TEMP_MAX, s.seq.tempMax.toNat),
      (F.GEN_THERM.WARN, b2n (decide ((s.fld F.GEN_THERM.WARN_C : Int) ≤ s.seq.temp.toInt))),
      (F.GEN_THERM.AON_ONLY, b2n (!s.seq.good.getLsbD 0)) ]
  else []

/-- Base-2 logarithm of a queue depth. -/
def log2of (n : Nat) : Nat := ((List.range 13).find? (fun k => decide (n ≤ 2 ^ k))).getD 12

def overlayPe (s : State) (a : Nat) : List (Fld × Nat) :=
  if a = Addr.PE_STATUS then
    [ (F.PE_STATUS.SLOTS_BUSY, (s.pe.strands.filter (fun e => decide (e.1 < 4096))).length),
      (F.PE_STATUS.YIELDED, (s.pe.strands.filter (fun e => decide (4096 ≤ e.1))).length),
      (F.PE_STATUS.TRACKERS_BUSY, sumOf (s.pe.cmds.map (fun e => e.2.ops.length))),
      (F.PE_STATUS.ENGINES_DRAINED, ((List.range 64).filter (fun e => !s.engineOn e && decide (s.busyIn e = 0))).length) ]
  else if a = Addr.PE_QP_INFO then
    (match Tab.get s.pe.qps (s.fld F.PE_QP_SEL.QP) with
     | none => []
     | some q =>
       [ (F.PE_QP_INFO.TENANT, q.tenant), (F.PE_QP_INFO.CLASS, q.cls),
         (F.PE_QP_INFO.STATE, s.qpState (s.fld F.PE_QP_SEL.QP) q),
         (F.PE_QP_INFO.DEPTH_LOG2, log2of q.depth),
         (F.PE_QP_INFO.RUNNING, (s.pe.strands.filter (fun e => e.2.qp == s.fld F.PE_QP_SEL.QP)).length),
         (F.PE_QP_INFO.SQ_HEAD, q.sqHead), (F.PE_QP_INFO.CQ_TAIL, q.cqTail), (F.PE_QP_INFO.PRIV, b2n q.priv) ])
  else if a = Addr.PE_TEN_INFO then
    (match Tab.get s.tenants (s.fld F.PE_TEN_SEL.TENANT) with
     | none => []
     | some t =>
       [ (F.PE_TEN_INFO.STRANDS_MIN, t.strandsMin), (F.PE_TEN_INFO.STRANDS_MAX, t.strandsMax),
         (F.PE_TEN_INFO.STRANDS_NOW, s.tenantStrands (s.fld F.PE_TEN_SEL.TENANT)) ])
  else if a = Addr.PE_TEN_CTX then
    (match Tab.get s.tenants (s.fld F.PE_TEN_SEL.TENANT) with
     | none => []
     | some t => [ (F.PE_TEN_CTX.CONTEXTS, t.contexts), (F.PE_TEN_CTX.CONTEXTS_RESIDENT, t.ctxResident) ])
  else []

def overlayFab (s : State) (a : Nat) : List (Fld × Nat) :=
  if a = Addr.FAB_CREDIT then [ (F.FAB_CREDIT.POOL_FREE, s.poolFree), (F.FAB_CREDIT.RESERVED_SUM, s.creditReserved) ]
  else if a = Addr.FAB_ERR then
    [ (F.FAB_ERR.PAIR0_DOWN, b2n (s.pairDown 0)), (F.FAB_ERR.PAIR1_DOWN, b2n (s.pairDown 1)),
      (F.FAB_ERR.PTP_UNLOCKED, b2n (!s.fab.ptpLocked)) ]
  else if Addr.FAB_PATH_STATUS 0 ≤ a ∧ a < Addr.FAB_PATH_STATUS 4 then
    let n := (a - Addr.FAB_PATH_STATUS 0) / 8
    let p := s.fab.paths.getD n PathState.down
    [ (F.FAB_PATH_STATUS.STATE n, p.st), (F.FAB_PATH_STATUS.LINK n, b2n p.link), (F.FAB_PATH_STATUS.ERRORS n, sat 16 (s.errorsAt p s.time)),
      (F.FAB_PATH_STATUS.PROBE_RTT n, sat 24 p.rtt) ]
  else if a = Addr.FAB_SESS_INFO then
    (match s.ses (s.fld F.FAB_SESS_SEL.SESSION) with
     | none => []
     | some x =>
       [ (F.FAB_SESS_INFO.STATE, x.st.code), (F.FAB_SESS_INFO.RESIDENT, b2n (s.fab.resident.contains (2 * s.fld F.FAB_SESS_SEL.SESSION))),
         (F.FAB_SESS_INFO.RELAXED, b2n x.params.relaxed), (F.FAB_SESS_INFO.PAIR, x.pairNow),
         (F.FAB_SESS_INFO.HOST_ENDPOINT, b2n x.params.host), (F.FAB_SESS_INFO.TENANT, x.tenant), (F.FAB_SESS_INFO.LAST_FAR, x.lastFar),
         (F.FAB_SESS_INFO.EPOCH, x.epoch) ])
  else []

/-- Locked near-cache blocks of a tenant's regions (R304). -/
def State.lockedOf (s : State) (t : Nat) : Nat :=
  (s.nc.lines.filter (fun e => (e.2.pin || e.2.wlk) && (match s.regionAt (4096 * e.1) with
    | some (_, r) => r.tenant == t
    | none => false))).length

def overlayTir (s : State) (a : Nat) : List (Fld × Nat) :=
  let t := s.tir
  if a = Addr.TIR_PLAN_STATUS then
    [ (F.TIR_PLAN_STATUS.REQUIRED, b2n (decide (64 < s.memberList.length))),
      (F.TIR_PLAN_STATUS.AMEND_NO, (t.plan.map (·.amend)).getD 0) ]
  else if a = Addr.TIR_PLAN_ID then [ (F.TIR_PLAN_ID.PLAN_ID, (match t.plan with
    | some p => p.id.toNat
    | none => 0)) ]
  else if a = Addr.TIR_PLAN_USE then
    [ (F.TIR_PLAN_USE.ENTRIES, (t.plan.map (·.entries)).getD 0), (F.TIR_PLAN_USE.USED_KIB, (((t.plan.map (·.bytes.length)).getD 0) + 1023) / 1024) ]
  else if a = Addr.TIR_LEND_STATUS then
    [ (F.TIR_LEND_STATUS.LENT_MIB, s.lentMib), (F.TIR_LEND_STATUS.BORROWED_MIB, sumOf ((t.loansIn.filter (fun e => e.2.st != .reserving)).map (fun e => e.2.bytes)) / 1048576),
      (F.TIR_LEND_STATUS.RECLAIMING, b2n (t.loansOut.any (fun e => e.2.notice))) ]
  else if a = Addr.TIR_LOANS then [ (F.TIR_LOANS.LOANS_OUT, t.loansOut.length), (F.TIR_LOANS.LOANS_IN, (t.loansIn.filter (fun e => e.2.st != .reserving)).length) ]
  else if a = Addr.TIR_TEN_RES then
    let n := s.fld F.TIR_TEN_SEL.TENANT
    [ (F.TIR_TEN_RES.DDR_RES_GIB, (((Tab.get s.tenants n).map (·.ddrMib)).getD 0 + 1023) / 1024),
      (F.TIR_TEN_RES.DDR_USED_GIB, (sumOf (s.regions.map (fun e => if e.2.tenant = n then e.2.len else 0)) + 1073741823) / 1073741824),
      (F.TIR_TEN_RES.NC_SHARE_MIB, ((Tab.get s.tenants n).map (·.ncMib)).getD 0), (F.TIR_TEN_RES.NC_LOCKED_MIB, (s.lockedOf n + 255) / 256) ]
  else if a = Addr.TIR_ERR then [ (F.TIR_ERR.NO_PLAN, b2n (s.planMissing || s.tir.planBad)) ]
  else []

def overlayCip (s : State) (a : Nat) : List (Fld × Nat) :=
  let c := s.cip
  if a = Addr.CIP_STATUS then
    [ (F.CIP_STATUS.CORES_IN_SERVICE, (s.unitsInService false).length), (F.CIP_STATUS.LANES_IN_SERVICE, (s.unitsInService true).length),
      (F.CIP_STATUS.SUSPENDED, sumOf (c.units.map (fun e => e.2.suspended.length))), (F.CIP_STATUS.KEYS_CACHED, c.cache.length) ]
  else if a = Addr.CIP_ROOTS then [ (F.CIP_ROOTS.FABRIC, b2n c.fabricRoot.isSome), (F.CIP_ROOTS.SEAL, b2n c.sealRoot.isSome) ]
  else if a = Addr.CIP_ERR then
    [ (F.CIP_ERR.NO_CORE, b2n (s.noUnit false || s.noUnit true)), (F.CIP_ERR.ROOT_BLANK, b2n (c.fabricRoot.isNone || c.sealRoot.isNone)) ]
  else if Addr.CIP_ID_PUB 0 ≤ a ∧ a < Addr.CIP_ID_PUB 12 then
    let n := (a - Addr.CIP_ID_PUB 0) / 8
    [ (F.CIP_ID_PUB.KEY n, leNat (((beBytes 96 Config.identityKey.toNat).drop (8 * n)).take 8)) ]
  else if a = Addr.CIP_CTX_MODE then
    [ (F.CIP_CTX_MODE.AS8200, b2n (((Tab.get s.pe.qps (s.fld F.CIP_CTX_SEL.QP)).map (·.as8200)).getD false)) ]
  else []

def overlayMem (s : State) (a : Nat) : List (Fld × Nat) :=
  let m := s.mem
  let c := m.chans[s.fld F.MEM_CH_SEL.CH]?
  if a = Addr.MEM_POP then
    [ (F.MEM_POP.CH_PRESENT, sumOf ((m.chans.zip (List.range 16)).map (fun e => if e.1.present then 2 ^ e.2 else 0))),
      (F.MEM_POP.DPC, m.dpc), (F.MEM_POP.DIMM_GIB, m.gib), (F.MEM_POP.SPEED, m.speed), (F.MEM_POP.VALID, b2n m.valid) ]
  else if a = Addr.MEM_CAP then [ (F.MEM_CAP.LIMIT, m.limit), (F.MEM_CAP.REMOVED, m.removed) ]
  else if a = Addr.MEM_SCRUB_STATUS then
    [ (F.MEM_SCRUB_STATUS.PROGRESS, min 1000 (m.scrubPos * 1000 / max 1 m.limit)), (F.MEM_SCRUB_STATUS.PASSES, sat 16 m.passes),
      (F.MEM_SCRUB_STATUS.LAST_PASS_H, sat 16 m.lastHours), (F.MEM_SCRUB_STATUS.BEHIND, b2n m.behind) ]
  else if a = Addr.MEM_FILL_STATUS then
    [ (F.MEM_FILL_STATUS.PAGES_LEFT, 16 * m.limit - m.init.length), (F.MEM_FILL_STATUS.SRAM_DONE, b2n m.sramDone),
      (F.MEM_FILL_STATUS.STACK_DONE, b2n m.stackDone) ]
  else if a = Addr.MEM_CH_STATUS then
    (match c with
     | none => []
     | some c =>
       [ (F.MEM_CH_STATUS.ERASE_MASK, sumOf ((List.range 8).map (fun i => if Tab.has c.erased i then 2 ^ i else 0))),
         (F.MEM_CH_STATUS.REMAP_USED, c.remap.length), (F.MEM_CH_STATUS.REDIRECTS, c.redirects.length),
         (F.MEM_CH_STATUS.SPARE_PAGES, sat 4 c.spare), (F.MEM_CH_STATUS.TEMP_MAX, c.temp) ])
  else if Addr.MEM_REMAP 0 ≤ a ∧ a < Addr.MEM_REMAP 8 then
    let n := (a - Addr.MEM_REMAP 0) / 8
    (match c.bind (fun c => Tab.get c.remap n) with
     | none => []
     | some l => [ (F.MEM_REMAP.VALID n, 1), (F.MEM_REMAP.LINE n, l / 64) ])
  else if a = Addr.MEM_ERR then [ (F.MEM_ERR.POP_INVALID, b2n m.invalid) ]
  else []

/-- The eye CAL_SEL names, or the smallest there is none of. -/
def State.calEye (s : State) : Nat × Nat :=
  (Tab.get (s.calUnit (unitKey (s.fld F.CAL_SEL.IFACE) (s.fld F.CAL_SEL.UNIT))).eyes (2 * s.fld F.CAL_SEL.LANE + s.fld F.CAL_SEL.DIR)).getD (0, 0)

/-- For NAND, CAL_SEL.LANE names a die. -/
def State.calWeak (s : State) (i u : Nat) : Bool :=
  let d := s.fld F.CAL_SEL.LANE
  if i = 2 then dieWeak u d ((Tab.get s.cal.offsets (32 * u + d)).getD (Config.nandDefaults u d)) else s.unitWeak i u

def State.calFailed (s : State) (i u : Nat) : Bool :=
  if i = 2 then s.cal.deadDies.contains (32 * u + s.fld F.CAL_SEL.LANE) else s.unitFailed i u

def overlayCal (s : State) (a : Nat) : List (Fld × Nat) :=
  let i := s.fld F.CAL_SEL.IFACE
  let u := s.fld F.CAL_SEL.UNIT
  let x := s.calUnit (unitKey i u)
  if a = Addr.CAL_STATUS then
    [ (F.CAL_STATUS.DDR_FAILED, s.failedUnits 0), (F.CAL_STATUS.NAND_FAILED, s.failedUnits 2), (F.CAL_STATUS.SK, s.calWhole 1),
      (F.CAL_STATUS.NAND, s.calWhole 2), (F.CAL_STATUS.DDR, s.calWhole 0), (F.CAL_STATUS.SK_FAILED, s.failedUnits 1),
      (F.CAL_STATUS.SEEDED, b2n (s.cal.units.any (fun e => e.2.st == 2) && s.cal.units.all (fun e => e.2.st == 2 && e.2.seeded))) ]
  else if a = Addr.CAL_RESULT then
    if isUnit i u ∧ x.st = 2 then
      [ (F.CAL_RESULT.EYE_W, s.calEye.1), (F.CAL_RESULT.EYE_H, s.calEye.2), (F.CAL_RESULT.WEAK, b2n (s.calWeak i u)),
        (F.CAL_RESULT.FAILED, b2n (s.calFailed i u)), (F.CAL_RESULT.VALID, 1), (F.CAL_RESULT.SEEDED, b2n x.seeded) ]
    else [ (F.CAL_RESULT.FAILED, b2n (isUnit i u && x.st == 3)) ]
  else if a = Addr.CAL_NAND_OFS then
    let w := ((Tab.get s.cal.offsets (32 * u + s.fld F.CAL_SEL.LANE)).getD (Config.nandDefaults u (s.fld F.CAL_SEL.LANE))).toNat
    if i = 2 then [ (F.CAL_NAND_OFS.TLC, w % 2 ^ 56), (F.CAL_NAND_OFS.SLC, w / 2 ^ 56) ] else []
  else if a = Addr.CAL_ERR then
    [ (F.CAL_ERR.SK_FAIL, b2n (s.failedUnits 1 != 0)), (F.CAL_ERR.DDR_FAIL, b2n (s.failedUnits 0 != 0)),
      (F.CAL_ERR.NAND_FAIL, b2n (s.failedUnits 2 != 0)) ]
  else []

/-- A sector's status word (Table CFL-3). -/
def Sector.word (x : Sector) : Nat := x.erases + x.st * 2 ^ 20 + b2n x.worn * 2 ^ 23 + x.pvp * 2 ^ 24

def overlayCfl (s : State) (a : Nat) : List (Fld × Nat) :=
  let c := s.cfl
  let n := s.fld F.CFL_SECT_SEL.SECTOR
  if a = Addr.CFL_STATUS then
    [ (F.CFL_STATUS.BANK0_BUSY, b2n c.bank0.running.isSome), (F.CFL_STATUS.BANK1_BUSY, b2n c.bank1.running.isSome),
      (F.CFL_STATUS.BANK0_SUSP, b2n c.bank0.suspended.isSome), (F.CFL_STATUS.BANK1_SUSP, b2n c.bank1.suspended.isSome),
      (F.CFL_STATUS.ACTIVE_SLOT, c.activeSlot), (F.CFL_STATUS.BOOTED_SLOT, c.bootedSlot), (F.CFL_STATUS.HDR_COPY, c.hdrCopy),
      (F.CFL_STATUS.INCOMPLETE, min 2 c.incomplete) ]
  else if a = Addr.CFL_WEAR then
    [ (F.CFL_WEAR.WORN_SECTORS, (c.sectors.filter (fun e => e.2.worn)).length),
      (F.CFL_WEAR.BAD_SECTORS, (c.sectors.filter (fun e => e.2.st == 3)).length),
      (F.CFL_WEAR.MAX_ERASE, c.sectors.foldl (fun m e => max m e.2.erases) 0) ]
  else if a = Addr.CFL_SECT_INFO then
    [ (F.CFL_SECT_INFO.STATUS_WORD, (s.sector n).word), (F.CFL_SECT_INFO.WP, b2n (s.wpBit n)),
      (F.CFL_SECT_INFO.INCOMPLETE, b2n (s.sector n).incomplete) ]
  else if a = Addr.CFL_ERR then [ (F.CFL_ERR.FROW_BAD, b2n c.frowBad) ]
  else []

def overlayDbg (s : State) (a : Nat) : List (Fld × Nat) :=
  if a = Addr.DBG_CTL then
    [ (F.DBG_CTL.UNLOCKED, b2n s.debugOpen), (F.DBG_CTL.FROZEN, b2n s.mod.frozen),
      (F.DBG_CTL.MINUTES_LEFT, match s.dbg.unlocked with
        | none => 0
        | some t => if t = 0 then 0xFFFF else (t - s.time + 59999999999) / 60000000000) ]
  else if a = Addr.DBG_NONCE then [ (F.DBG_NONCE.NONCE, (Config.free s.dbg.nonce).toNat) ]
  else if Addr.DBG_AUTH_TAG 0 ≤ a ∧ a < Addr.DBG_AUTH_TAG 4 then [ (⟨a, 0, 64⟩, 0) ]
  else []

/-- PROGRESS of a running command is a free value. -/
def overlaySvc (s : State) (a : Nat) : List (Fld × Nat) :=
  let v := s.svc
  if a = Addr.SVC_STATUS then
    [ (F.SVC_STATUS.PROC, v.proc), (F.SVC_STATUS.PHASE, v.phase), (F.SVC_STATUS.CH_OUT, sumOf (v.chOut.map (2 ^ ·))),
      (F.SVC_STATUS.PORT_OUT, sumOf (v.portOut.map (2 ^ ·))), (F.SVC_STATUS.TWIN_CH_OUT, b2n (!s.phl.twinChOut.isEmpty)),
      (F.SVC_STATUS.PROGRESS, if v.proc = 0 then 0 else (Config.free s.freeCtr).toNat % 1001) ]
  else if a = Addr.SVC_FW then
    [ (F.SVC_FW.RUNNING_SLOT, v.runningSlot), (F.SVC_FW.HANDOVER_PENDING, b2n v.pending), (F.SVC_FW.VERSION, v.version) ]
  else if a = Addr.SVC_MCODE then [ (F.SVC_MCODE.CURRENT, v.mcode.toNat) ]
  else []

/-- The read-only fields of a register that mirror state, with their present values. -/
def State.overlay (s : State) (a : Nat) : List (Fld × Nat) :=
  match windowOf a with
  | 0 => overlayGen s a ++ s.bootStatus a
  | 3 => overlayMod s a
  | 4 => overlayPst s a
  | 5 => overlayPhl s a
  | 6 => overlayDst s a
  | 7 => overlayHst s a
  | 16 => overlayRec s a
  | 10 => overlayNc s a
  | 1 => overlaySeq s a
  | 2 => overlayLps s a
  | 8 => overlayFab s a
  | 9 => overlayPe s a
  | 11 => overlayTir s a
  | 12 => overlayCip s a
  | 13 => overlayMem s a
  | 14 => overlayCal s a
  | 15 => overlayCfl s a
  | 18 => overlayDbg s a
  | 19 => overlaySvc s a
  | _ => []

/-- The 64-bit value a read of a described register returns (R7, R9). The stage register's PENDING is computed. -/
def State.reg (s : State) (a : Nat) : Word :=
  if isStage a then BitVec.ofNat 64 (bitsOf (s.raw a) 0 1 + 2 * b2n (s.stagePending (windowOf a)))
  else (s.overlay a).foldl (fun w x => setBits w x.1.lsb x.1.width x.2) (overStaged s.staged a (s.raw a))

end Sys2Proof.Machine
end

