-- ==== Sys2Proof/Machine/Ops.lean ====
section
/-! DEFINITION. The operations every family shares: outcomes, outputs, records (R470 to R473), error flags with their
records, counters that fall in a second, free values. -/

namespace Sys2Proof.Machine

abbrev Res := Host.Outcome State Fault Refusal

/-- The next state: the step answers `t` when `c` holds and leaves the state as it is otherwise (an event row whose
condition does not hold is no event: notes/assumptions/2.md). -/
def when_ (c : Bool) (s t : State) : Res := .next (if c then t else s)

def State.emit (s : State) (o : Out) : State := { s with out := s.out ++ [o] }

/-- The free value of this moment. -/
def State.freeVal (s : State) : Word := Config.free s.freeCtr

def State.drawFree (s : State) : State := { s with freeCtr := s.freeCtr + 1 }

/-- A request to CTL. While a firmware handover holds CTL in reset it waits (R496). -/
def State.onCtl (s : State) (c : CtlReq) (r : Res) : Res :=
  if s.svc.proc = 1 then .next { s with svc := { s.svc with waiting := s.svc.waiting ++ [c] } } else r

/-! Records -/

def sevDebug : Nat := 0
def sevInfo : Nat := 1
def sevNotice : Nat := 2
def sevWarn : Nat := 3
def sevError : Nat := 4
def sevCritical : Nat := 5
def sevFatal : Nat := 6
def sevAudit : Nat := 7

/-- The rank of a severity: FATAL and AUDIT are equal at the top (R471). -/
def rankOf (sev : Nat) : Nat := min sev 6

def Record.rank (r : Record) : Nat := rankOf r.sev

/-- The list without its first element of rank below `k`. -/
def dropLower (k : Nat) : List Record → Option (List Record)
  | [] => none
  | r :: l => if r.rank < k then some l else (dropLower k l).map (r :: ·)

/-- A pending list of `cap` records takes a new one under R473; the flag says that a record was lost. -/
def takeRecord (cap : Nat) (l : List Record) (r : Record) : List Record × Bool :=
  if l.length < cap then (l ++ [r], false)
  else match dropLower r.rank l with
    | some l' => (l' ++ [r], true)
    | none => (l, true)

/-- The time an island's timestamps take: its copy of the time base, which is within 10 ns of AON's; a copy that is not (the island
has stood still since its last resynchronisation) is not used (R15; DESIGN CHOICE, notes/assumptions/3.md). -/
def State.clockOf (s : State) (i : Island) : Nat :=
  let c := s.clocks.getD i.code 0
  if c ≤ s.time + 10 ∧ s.time ≤ c + 10 then c else s.time

/-- The record an event makes (Table REC-1); its number, LOST_BEFORE and BOOT are given at acceptance. -/
def State.mkRecord (s : State) (sev : Nat) (i : Island) (cat inst obj reg : Nat) (arg0 arg1 : Word) : Record :=
  { time := s.clockOf i, no := 0, sev := sev, island := i.code, cat := cat, inst := inst, boot := 0, lostBefore := 0,
    object := obj, reg := reg, value := if reg = 0 then 0 else s.reg reg, arg0 := arg0, arg1 := arg1 }

def recordsOf (l : List XItem) : List Record :=
  l.filterMap (fun x => match x with
    | .record r => some r
    | .write _ => none)

/-- A record leaves its island for REC, or waits in AON before REC is released (R472, R473). -/
def State.pushRecord (s : State) (i : Island) (r : Record) : State :=
  let key := 64 + i.code
  let early := takeRecord 32 s.early r
  let queue := takeRecord 32 (recordsOf ((Tab.get s.xing key).getD [])) r
  let lostNow := if s.contrail.released then queue.2 else early.2
  { s with
    early := if s.contrail.released then s.early else early.1
    xing := if s.contrail.released then Tab.put s.xing key (queue.1.map XItem.record) else s.xing
    lost := if lostNow then s.lost.set i.code (min 65535 (s.lost.getD i.code 0 + 1)) else s.lost }

/-- An event writes a record. Below MIN_SEV it is discarded at its source (R472). -/
def State.recordFull (s : State) (sev : Nat) (i : Island) (cat inst obj reg : Nat) (arg0 arg1 : Word) : State :=
  if sev < s.fld F.REC_CTL.MIN_SEV then s else s.pushRecord i (s.mkRecord sev i cat inst obj reg arg0 arg1)

/-- A record about object `obj` and register `reg`. -/
def State.record (s : State) (sev : Nat) (i : Island) (cat inst obj reg : Nat) : State :=
  s.recordFull sev i cat inst obj reg 0 0

/-- The record of a state change: REG is the status register, instance the state field's lowest bit (Table REC-3). -/
def State.recState (s : State) (sev : Nat) (i : Island) (f : Fld) : State := s.record sev i 1 f.lsb 0 f.addr

/-- An error flag is set and its record written (category 0x02). -/
def State.recFlag (s : State) (sev : Nat) (i : Island) (f : Fld) (obj : Nat) : State :=
  (s.flag f).record sev i 2 f.lsb obj f.addr

/-- Something happens for the first time in the present second, under key `k`. -/
def State.firstInSecond (s : State) (k : Nat) : Bool :=
  match Tab.get s.marks k with
  | some t => t != s.time / 1000000000
  | none => true

def State.mark (s : State) (k : Nat) : State := { s with marks := Tab.put s.marks k (s.time / 1000000000) }

/-- The first event of its key in each second writes a NOTICE (category 0x03: the counter field `f`). -/
def State.noticeOnce (s : State) (k : Nat) (i : Island) (f : Fld) (obj : Nat) (arg0 : Word) : State :=
  if s.firstInSecond k then (s.mark k).recordFull sevNotice i 3 f.lsb obj f.addr arg0 0 else s

/-- The registers after a GEN_ERR bit: the counter, the flag, GEN_ERR_LOG. `kind` is the KIND code. -/
def errTable (t : Tab Word) (kind path addr lsb : Nat) (cnt : Option Fld) : Tab Word :=
  let t0 := match cnt with
    | some f => bumpFld t f 1
    | none => t
  let t1 := putFld t0 ⟨Addr.GEN_ERR, kind - 1, 1⟩ 1
  let t2 := putFld (putFld t1 F.GEN_ERR_LOG.OFFSET addr) F.GEN_ERR_LOG.PATH path
  putFld (putFld t2 F.GEN_ERR_LOG.KIND kind) F.GEN_ERR_LOG.FIELD_LSB lsb

def State.setErr (s : State) (kind path addr lsb : Nat) (cnt : Option Fld) : State :=
  s.withRegs (errTable s.regs kind path addr lsb cnt)

/-- The NOTICE of a GEN_ERR bit's first setting in a second; LOCKED_WRITE has the record of R9 instead. -/
def State.errNotice (s : State) (kind : Nat) : State :=
  if kind = 1 then s
  else if s.firstInSecond (10 + kind) then (s.mark (10 + kind)).record sevNotice .aon 2 (kind - 1) 0 Addr.GEN_ERR
  else s

/-- A GEN_ERR bit: the flag, GEN_ERR_LOG, the counter, and the NOTICE of its first setting in a second (19, GEN_ERR). -/
def State.genErr (s : State) (kind path addr lsb : Nat) (cnt : Option Fld) : State :=
  (s.setErr kind path addr lsb cnt).errNotice kind

/-- A write from a path that the field does not accept (R512). -/
def State.deny (s : State) (p : Path) (a lsb : Nat) : State := s.genErr 4 p.code a lsb (some F.GEN_CNT0.PATH_DENIED)

/-! ### Performance events (R486) -/

/-- PMU_SELn of a listed counter selects event `code` for tenant `ten` and unit `un`. -/
def pmuSelects (w : Word) (code : Nat) (ten un : Option Nat) : Bool :=
  bitsOf w 0 10 == code &&
  (if bitsOf w 22 1 = 1 then ten == some (bitsOf w 10 12) else true) &&
  (if bitsOf w 29 1 = 1 then un == some (bitsOf w 23 6) else true)

/-- Counters that count an event now: those whose SEL, group and PMU_CTL let them (R486). Only a SEL written since
reset can select an event. -/
def State.pmuCounters (s : State) (code : Nat) (ten un : Option Nat) : List Nat :=
  if s.on F.PMU_CTL.ENABLE && s.running .contrail then
    (s.regs.filter (fun e => decide (Addr.PMU_SEL 0 ≤ e.1) && decide (e.1 < Addr.PMU_SEL 512) &&
      s.on (F.PMU_GRP.ENABLE ((e.1 - Addr.PMU_SEL 0) / 8 / 16)) &&
      !(((e.1 - Addr.PMU_SEL 0) / 8) % 2 == 1 && bitsOf e.2 30 1 == 1) && pmuSelects e.2 code ten un)).map
      (fun e => (e.1 - Addr.PMU_SEL 0) / 8)
  else []

/-- A counter adds `n`, wraps at 2^48 and carries into its chained partner or sets its PMU_OVF bit (R489). -/
def pmuAdd (t : Tab Word) (n amount : Nat) : Tab Word :=
  let get (f : Fld) : Nat := bitsOf ((Tab.get t f.addr).getD (resetValue f.addr)) f.lsb f.width
  let v := get (F.PMU_CNT.COUNT n) + amount
  let t1 := putFld t (F.PMU_CNT.COUNT n) v
  if v < 2 ^ 48 then t1
  else if n % 2 = 0 ∧ get (F.PMU_SEL.CHAIN (n + 1)) = 1 then
    let v2 := get (F.PMU_CNT.COUNT (n + 1)) + v / 2 ^ 48
    let t2 := putFld t1 (F.PMU_CNT.COUNT (n + 1)) v2
    if v2 < 2 ^ 48 then t2 else putFld t2 ⟨Addr.PMU_OVF ((n + 1) / 64), (n + 1) % 64, 1⟩ 1
  else putFld t1 ⟨Addr.PMU_OVF (n / 64), n % 64, 1⟩ 1

/-- `amount` events of a code of Table REC-6 occur. -/
def State.countEvent (s : State) (code amount : Nat) (ten un : Option Nat) : State :=
  s.withRegs ((s.pmuCounters code ten un).foldl (fun t n => pmuAdd t n amount) s.regs)

/-! Status codes (Table PRG-7). -/
def ST.ok : Status := 0x00
def ST.bounds : Status := 0x02
def ST.rights : Status := 0x03
def ST.key : Status := 0x04
def ST.length : Status := 0x05
def ST.torn : Status := 0x06
def ST.ceiling : Status := 0x07
def ST.nomirror : Status := 0x08
def ST.poison : Status := 0x09
def ST.timeout : Status := 0x0A
def ST.sealed : Status := 0x0B
def ST.mode : Status := 0x0C
def ST.busy : Status := 0x0D
def ST.fault : Status := 0x0E
def ST.integrity : Status := 0x0F
def ST.restoring : Status := 0x10
def ST.remote : Status := 0x11
def ST.internal : Status := 0xFF

/-- Whether a status ends a strand (Table PRG-7). -/
def ST.ends (st : Status) : Bool :=
  st == ST.bounds || st == ST.rights || st == ST.key || st == ST.length || st == ST.sealed || st == ST.mode ||
  st == ST.fault || st == ST.internal

/-- CAL has trained a link's lanes (Table ARC-10). -/
def State.lanesTrained (s : State) (iface unit : Nat) : Bool := (s.calUnit (unitKey iface unit)).st == 2

end Sys2Proof.Machine
end

