-- ==== Sys2Proof/Machine/Contrail.lean ====
section
/-! DEFINITION. Contrail (17): acceptance of records into the ring, flushes to the flash log, the scan, read-out,
clears, and the performance counters' own commands. -/

namespace Sys2Proof.Machine

def State.updRec (s : State) (f : RecState → RecState) : State := { s with contrail := f s.contrail }

/-- The 60 bytes of a record before its CRC (Table REC-1). -/
def Record.body (r : Record) : List Byte :=
  leBytes 8 r.time ++ leBytes 4 r.no ++ leBytes 1 r.sev ++ leBytes 1 r.island ++ leBytes 1 r.inst ++ leBytes 1 r.cat ++
  leBytes 2 r.boot ++ leBytes 2 r.lostBefore ++ leBytes 4 r.object ++ leBytes 4 r.reg ++ leBytes 4 0 ++
  leBytes 8 r.value.toNat ++ leBytes 8 r.arg0.toNat ++ leBytes 8 r.arg1.toNat ++ leBytes 4 0

/-- The 64 bytes of a record. -/
def Record.bytes (r : Record) : List Byte := r.body ++ leBytes 4 (crc32c r.body).toNat

/-- FATAL and AUDIT (R471). -/
def Record.high (r : Record) : Bool := r.rank == 6

/-- A clear record (R481): the AUDIT record of an accepted CONTRAIL_CLEAR. -/
def Record.isClear (r : Record) : Bool := r.sev == sevAudit && r.cat == 7 && r.inst == 1

/-- A record below the clear point whose severity the mask names reads as GONE (R481). -/
def Record.cleared (point mask : Nat) (r : Record) : Bool :=
  decide (r.no < point) && (mask / 2 ^ r.sev % 2 == 1) && !r.isClear

/-- Sectors from `first` that are WORN or BAD (R440). -/
def State.badSectors (s : State) (first n : Nat) : Nat :=
  (s.cfl.sectors.filter (fun e => decide (first ≤ e.1) && decide (e.1 < first + n) && (e.2.worn || e.2.st == 3))).length

/-- Room of the flash log in records (R475): 64 a sector, less two sectors kept erased and those that are skipped. -/
def State.logCapacity (s : State) : Nat := 64 * (2014 - s.badSectors 11344 2016)

def State.reserveCapacity (s : State) : Nat := 64 * (32 - s.badSectors 13360 32)

/-- The log without its oldest record of rank below `k`. -/
def dropRank (k : Nat) (l : List Record) : Option (List Record) := dropLower k l

/-- A flushed record enters the log, the reserve, or is dropped (R475). -/
def State.logPut (s : State) (r : Record) : State :=
  if s.contrail.log.length < s.logCapacity then s.updRec (fun c => { c with log := c.log ++ [r] })
  else match dropRank r.rank s.contrail.log with
    | some l => (s.updRec (fun c => { c with log := l ++ [r] })).bump F.REC_CNT1.OVERWRITTEN
    | none =>
      if !r.high then s.bump F.REC_CNT0.LOST_LOW
      else if s.contrail.reserve.length < s.reserveCapacity then
        s.updRec (fun c => { c with reserve := c.reserve ++ [r] })
      else (s.bump F.REC_CNT0.LOST_HIGH).flag F.REC_ERR.LOST_HIGH

/-- A clear takes effect (R481). -/
def RecState.applyClear (c : RecState) (point mask : Nat) : RecState :=
  let keep := fun (r : Record) => !r.cleared point mask
  { c with clearPoint := point, clearMask := mask, clearPending := none, ring := c.ring.filter keep,
           log := c.log.filter keep, reserve := c.reserve.filter keep }

/-- Record `no` has been programmed: a pending clear that it carries takes effect. -/
def RecState.programmed (c : RecState) (no : Nat) : RecState :=
  match c.clearPending with
  | some (n, m) => if n = no then c.applyClear n m else c
  | none => c

/-- One unflushed record reaches the flash. -/
def State.flushOne (s : State) (no : Nat) : State :=
  let s1 := match s.contrail.ring.find? (fun r => r.no == no) with
    | some r => s.logPut r
    | none => s
  s1.updRec (fun c => { c with unflushed := c.unflushed.filter (· != no) }.programmed no)

/-- A page of up to four records is programmed, in RECORD_NO order; the flush ends when nothing is unflushed (R474). -/
def State.flushPage (s : State) : State :=
  let s1 := (s.contrail.unflushed.take 4).foldl (fun s n => s.flushOne n) s
  if s1.contrail.unflushed.isEmpty then
    s1.updRec (fun c => { c with flushing := false, urgent := false, lastFlush := s.time })
  else s1

/-- A flush starts, where any record is unflushed (R474). -/
def State.startFlush (s : State) (urgent : Bool) : State :=
  if s.contrail.unflushed.isEmpty then s
  else s.updRec (fun c => { c with flushing := true, urgent := c.urgent || urgent })

/-- The oldest unflushed record of rank below `k` (R476). -/
def RecState.victim (c : RecState) (k : Nat) : Option Nat :=
  (c.ring.find? (fun r => c.unflushed.contains r.no && decide (r.rank < k))).map (·.no)

/-- What becomes of a record that arrives at the ring: kept, kept in the place of an unflushed one, or dropped (R476). -/
inductive Intake where
  | keep
  | replace (no : Nat)
  | drop

def Intake.kept : Intake → Bool
  | .drop => false
  | _ => true

def RecState.intake (c : RecState) (r : Record) : Intake :=
  if c.unflushed.length < 8192 then .keep
  else match c.victim r.rank with
    | some v => .replace v
    | none => if r.high && decide (c.unflushed.length < 8192 + 256) then .keep else .drop

/-- The ring with one more record, the oldest beyond 65,536 gone. -/
def RecState.push (c : RecState) (r : Record) : RecState :=
  { c with ring := (c.ring ++ [r]).drop (c.ring.length + 1 - 65536), nextNo := (c.nextNo + 1) % 2 ^ 32,
           unflushed := c.unflushed ++ [r.no] }

/-- REC accepts a record: it takes the next number, BOOT and its island's LOST_BEFORE, and may start a flush
(R470, R473, R474, R476). -/
def State.acceptRecord (s : State) (r : Record) : State :=
  let r := { r with no := s.contrail.nextNo, boot := s.boot % 65536, lostBefore := s.lost.getD r.island 0 }
  let s1 := { s with lost := s.lost.set r.island 0 }
  let s2 := match s.contrail.intake r with
    | .keep => s1.updRec (fun c => c.push r)
    | .replace v => s1.updRec (fun c =>
        { c with ring := c.ring.filter (fun x => x.no != v), unflushed := c.unflushed.filter (· != v) }.push r)
    | .drop => if r.high then (s.bump F.REC_CNT0.LOST_HIGH).flag F.REC_ERR.LOST_HIGH else s.bump F.REC_CNT0.LOST_LOW
  let s3 := if r.isClear && (s.contrail.intake r).kept then
      s2.updRec (fun c => { c with clearPending := some (r.no, r.arg0.toNat % 256) })
    else s2
  if s.fld F.REC_CTL.FAULT_SEV ≤ r.sev then s3.startFlush true
  else if s.fld F.REC_CTL.FLUSH_WM ≤ s3.contrail.unflushed.length then s3.startFlush false
  else s3

/-- A record arrives at REC: while the scan runs it waits (R476). -/
def State.takeIn (s : State) (r : Record) : State :=
  if s.contrail.scanned then s.acceptRecord r else s.updRec (fun c => { c with waiting := c.waiting ++ [r] })

/-- REC serves: it runs and has been released. -/
def State.recUp (s : State) : Bool := s.running .contrail && s.contrail.released

/-- The oldest record of an island's crossing-19 queue reaches REC (R473). -/
def execContrailRecord (i : Island) (s : State) : Res :=
  let key := 64 + i.code
  match (Tab.get s.xing key).getD [] with
  | XItem.record r :: rest => when_ s.recUp s ({ s with xing := Tab.put s.xing key rest }.takeIn r)
  | _ => .next s

/-- R474: FLUSH_MS has passed since the last flush and a record is unflushed. -/
def execFlushMs (s : State) : Res :=
  when_ (s.recUp && s.contrail.scanned && !s.contrail.unflushed.isEmpty) s (s.startFlush false)

/-- The highest number among records. -/
def maxNo (l : List Record) : Option Nat :=
  l.foldl (fun m r => match m with
    | none => some r.no
    | some k => some (max k r.no)) none

/-- R476: the scan at REC release. Records whose CRC fails are counted and skipped; the newest clear record applies;
then AON's pending records are taken in, and those that waited (R473). -/
def execRecScan (bad : List (BitVec 32)) (s : State) : Res :=
  let ok := fun (r : Record) => !bad.any (fun b => b.toNat == r.no)
  let log := s.contrail.log.filter ok
  let reserve := s.contrail.reserve.filter ok
  let lost := (s.contrail.log.length - log.length) + (s.contrail.reserve.length - reserve.length)
  let next := match maxNo (log ++ reserve) with
    | some n => (n + 1) % 2 ^ 32
    | none => 0
  let c1 := { s.contrail with scanned := true, log := log, reserve := reserve, nextNo := next, ring := [], unflushed := [],
                              waiting := [], clearPending := none }
  let c2 := match maxNo ((log ++ reserve).filter (·.isClear)) with
    | some n => (match (log ++ reserve).find? (fun r => r.no == n) with
        | some r => c1.applyClear n (r.arg0.toNat % 256)
        | none => c1)
    | none => c1
  let s1 := { s with contrail := c2, early := [] }.bumpBy F.REC_CNT1.SCAN_BAD lost
  when_ (s.recUp && !s.contrail.scanned) s ((s.early ++ s.contrail.waiting).foldl (fun s r => s.acceptRecord r) s1)

/-- Every record that can be read: the ring, the log and the reserve. -/
def RecState.readable (c : RecState) : List Record := c.ring ++ c.log ++ c.reserve

/-- The lowest number of a readable record at or above `n`. -/
def RecState.firstAt (c : RecState) (n : Nat) : Option Nat :=
  (c.readable.filter (fun r => decide (n ≤ r.no))).foldl (fun m r => match m with
    | none => some r.no
    | some k => some (min k r.no)) none

/-- R477: the selection moves and the data registers load; a record that is GONE or NOT_YET loads nothing. -/
def State.readRecord (s : State) (no : Nat) (firstAt : Bool) : State :=
  let sel := if firstAt then (s.contrail.firstAt no).getD no else no
  let t1 := putFld (putFld s.regs F.REC_RD_SEL.RECORD_NO sel) F.REC_RD_SEL.FIRST_AT (if firstAt then 1 else 0)
  if !s.contrail.scanned || decide (s.contrail.nextNo ≤ sel) then { s with regs := putFld t1 F.REC_RD_SEL.STATUS 2 }
  else match s.contrail.readable.find? (fun r => r.no == sel) with
    | none => { s with regs := putFld t1 F.REC_RD_SEL.STATUS 1 }
    | some r =>
      let b := r.bytes
      { s with regs := (List.range 8).foldl (fun t n => putFld t (F.REC_RD_DATA.DATA n) (leNat ((b.drop (8 * n)).take 8)))
                         (putFld t1 F.REC_RD_SEL.STATUS 0) }

def execRecordRead (no : BitVec 32) (firstAt : Bool) (s : State) : Res :=
  when_ s.recUp s (s.readRecord no.toNat firstAt)

/-! ### Performance counters -/

/-- Counter `n` counts one more of its event at 2^48 − 1 (R489). -/
def execCounterWrap (n : BitVec 9) (s : State) : Res :=
  let n := n.toNat
  when_ (s.running .contrail && s.on F.PMU_CTL.ENABLE && s.on (F.PMU_GRP.ENABLE (n / 16)) &&
      decide (s.fld (F.PMU_SEL.EVENT n) ≠ 0) && decide (s.fld (F.PMU_CNT.COUNT n) = 2 ^ 48 - 1) &&
      !(n % 2 == 1 && s.on (F.PMU_SEL.CHAIN n))) s
    { s with regs := pmuAdd s.regs n 1 }

/-- PMU_CTL.CLEAR_ALL: every counter 0, PMU_OVF clear. -/
def State.pmuClear (s : State) : State :=
  { s with regs := s.regs.filter (fun e =>
      !(decide (Addr.PMU_CNT 0 ≤ e.1) && decide (e.1 < Addr.PMU_CNT 512)) &&
      !(decide (Addr.PMU_OVF 0 ≤ e.1) && decide (e.1 < Addr.PMU_OVF 8))) }

def execClearAll (s : State) : Res := when_ (s.running .contrail) s s.pmuClear

end Sys2Proof.Machine
end

