-- ==== Sys2Proof/Machine/Crossing.lean ====
section
/-! DEFINITION. The handshake crossings (01 R14, R16 to R18, Table ARC-2): which islands each joins, how many items it holds,
and what stands in it. -/

namespace Sys2Proof.Machine

/-- The two islands of a crossing, in the order of Table ARC-2; `i` is the other end of those that reach every island, and of
those with more than one owner the first named stands here. -/
def xingEnds (x : Nat) (i : Island) : Island × Island :=
  ([(.hst, .pst), (.hst, .nc), (.fab, .cip), (.fab, .pst), (.fab, .nc), (.pst, .phl), (.pst, .nc), (.pst, .mem), (.nc, .mem),
    (.dst, .mem), (.dst, .nc), (.dst, .cip), (.pe, .pst), (.pe, .nc), (.pe, .cip), (.pe, .fab), (.pe, .tir), (.ctl, i), (.aon, i),
    (i, .contrail), (.contrail, .cfl), (.cal, i), (.tir, .nc), (.phl, .dst), (.phl, .fab), (.pst, .dst), (.hst, .phl), (.phl, .nc),
    (.hst, .pe), (.hst, i), (.pe, .phl), (.tir, .phl)] : List (Island × Island)).getD x (i, i)

/-- Items a crossing holds each way. -/
def xingDepth (x : Nat) : Nat :=
  ([64, 64, 256, 256, 128, 128, 64, 64, 128, 128, 64, 128, 256, 256, 128, 256, 64, 16, 4, 32, 64, 8, 64, 128, 128, 256, 64, 64, 64, 16,
    128, 64] : List Nat).getD x 0

/-- Queue key of a crossing's direction; crossing 19 has one queue an island. -/
def xingKey (x : Nat) (forward : Bool) (i : Island) : Nat := if x = 19 then 64 + i.code else 2 * x + (if forward then 0 else 1)

/-- The items that stand in a queue, oldest first. -/
def State.items (s : State) (key : Nat) : List XItem := (Tab.get s.xing key).getD []

/-- The crossing gives its sender ready: it has a place for an item (R16). -/
def State.xingReady (s : State) (key : Nat) : Bool := decide ((s.items key).length < xingDepth (key / 2))

/-- The island that receives the items of a queue. -/
def keyReceiver (key : Nat) (i : Island) : Island :=
  if 64 ≤ key then .contrail else if key % 2 = 0 then (xingEnds (key / 2) i).2 else (xingEnds (key / 2) i).1

/-- Nothing stands in a crossing on its way into the island (R18). -/
def State.deliveredTo (s : State) (i : Island) : Bool :=
  s.xing.all (fun e => e.2.isEmpty || keyReceiver e.1 i != i)

end Sys2Proof.Machine
end

