-- ==== Sys2Proof/Machine/SealLog.lean ====
section
/-! DEFINITION. The key cache (R344), and what the commit or failure of a record or checkpoint does to its region's log (R354,
R356). -/

namespace Sys2Proof.Machine

def State.updCip (s : State) (f : CipState → CipState) : State := { s with cip := f s.cip }

/-- The key is the most recently used of the cache, which drops its least recently used beyond 4,096. -/
def State.cacheKey (s : State) (k : KeyRef) : State :=
  s.updCip (fun c =>
    let l := c.cache.filter (fun x => x != k) ++ [k]
    { c with cache := l.drop (l.length - 4096) })

/-- A slot's key is looked up (R344). -/
def State.useKey (s : State) (k : KeyRef) : State :=
  (if s.cip.cache.contains k then s else s.bump F.CIP_CNT1.KEY_MISSES).cacheKey k

def State.log (s : State) (n : Nat) : Option SealLog := Tab.get s.cip.logs n

def State.updLog (s : State) (n : Nat) (f : SealLog → SealLog) : State :=
  s.updCip (fun c => { c with logs := Tab.upd c.logs n f })

/-- Stored size of a record: its header and its payload padded to 64 bytes (R351). -/
def storedSize (len : Nat) : Nat := 64 + (len + 63) / 64 * 64

/-- An item of a log has committed at class `c`. -/
def SealLog.committed (l : SealLog) (it : SealItem) (c : Class) : SealLog :=
  let items := l.items.filter (fun x => x.id != it.id)
  if it.ckpt then { l with items := items, doneCkpt := it.no + 1, doneCovered := it.seq, soloRecord := false }
  else { l with items := items, doneSeq := it.seq, doneOff := it.off + storedSize it.payload.length, doneHead := it.head,
                soloRecord := l.soloRecord || c == .d1 }

def State.sealCommit (s : State) (n id : Nat) (c : Class) : State :=
  match (s.log n).bind (fun l => l.items.find? (fun x => x.id == id)) with
  | none => s
  | some it =>
    let s1 := s.updLog n (fun l => l.committed it c)
    if it.ckpt then s1.bump F.CIP_CNT2.CHECKPOINTS else s1

/-- The log returns to its values after the last committed record and checkpoint. -/
def SealLog.rollback (l : SealLog) : SealLog :=
  { l with items := l.items.filter (fun x => x.unit.isNone), seq := l.doneSeq, off := l.doneOff, head := l.doneHead,
           ckpt := l.doneCkpt, covered := l.doneCovered }

/-- A record or checkpoint has failed after taking its position. -/
def State.sealFail (s : State) (n : Nat) : State :=
  match s.log n with
  | none => s
  | some l => if l.items.any (fun x => x.unit.isSome) then (s.updLog n SealLog.rollback).bump F.CIP_CNT3.CHAIN_ROLLBACKS else s

end Sys2Proof.Machine
end

