-- ==== Sys2Proof/Machine/NearCache.lean ====
section
/-! DEFINITION. The near cache (09): lookup, replacement, fills, the victim buffer, write policies, states; and the bytes
that lie under the ingress buffer. -/

namespace Sys2Proof.Machine

def State.updNc (s : State) (f : NcState → NcState) : State := { s with nc := f s.nc }

def blockOf (dpa : Nat) : Nat := dpa / 4096

/-- Sector of a DPA in its block (R309). -/
def sectorOf (dpa : Nat) : Nat := dpa / 256 % 16

/-- Set of a block: DPA[30:12]. -/
def setOf (block : Nat) : Nat := block % 524288

/-- Stack of a block: SK0 where DPA[12] = 0. -/
def stackOf (block : Nat) : Nat := block % 2

def oneSector (i : Nat) : BitVec 16 := 1#16 <<< i

/-- Sectors of block `b` that a range touches. -/
def sectorsIn (b lo n : Nat) : BitVec 16 :=
  (List.range 16).foldl (fun m i =>
    if decide (lo < b * 4096 + i * 256 + 256) && decide (b * 4096 + i * 256 < lo + n) then m ||| oneSector i else m) 0

/-- The blocks a range touches. -/
def blocksOf (lo n : Nat) : List Nat :=
  if n = 0 then [] else (List.range ((lo + n - 1) / 4096 - lo / 4096 + 1)).map (· + lo / 4096)

def VicBlock.pending (v : VicBlock) : Bool := v.dirty != 0

def NcLine.locked (l : NcLine) : Bool := l.pin || l.wlk

/-- Hits are looked up. -/
def NcState.serving (n : NcState) : Bool := n.st == .on || n.st == .draining

def NcState.inVictim (n : NcState) (b : Nat) : Option VicBlock := n.victim.find? (fun v => v.block == b)

/-- The valid sectors of a block, in its way or in the victim buffer. -/
def NcState.validOf (n : NcState) (b : Nat) : BitVec 16 :=
  match Tab.get n.lines b with
  | some l => l.valid
  | none => (match n.inVictim b with
      | some v => v.valid
      | none => 0)

/-- The byte held below the ingress buffer: the near cache's where its sector is valid there, else DDR5's (R24). -/
def State.backing (s : State) (a : Nat) : Byte :=
  if s.nc.serving && (s.nc.validOf (blockOf a)).getLsbD (sectorOf a) then s.nc.data.read a else s.ddr.read a

/-- Bytes [lo, lo + n) of `dst` replaced by those of `src`. -/
def copyRange (src dst : Memory) (lo n : Nat) : Memory := (dst.clear lo n).writeCells (src.slice lo n)

/-- Sectors of a mask. -/
def sectorCount (m : BitVec 16) : Nat := ((List.range 16).filter (fun i => m.getLsbD i)).length

/-- Lines of a page read from DDR5 (event 0x090). -/
def State.ddrReads (s : State) (page n : Nat) : State := if n = 0 then s else s.countEvent 0x090 n none (some (channelOf page))

/-- Lines of a page written to DDR5 (event 0x091). -/
def State.ddrWrites (s : State) (page n : Nat) : State := if n = 0 then s else s.countEvent 0x091 n none (some (channelOf page))

/-- The sectors of a mask written back to DDR5. -/
def State.writeBack (s : State) (b : Nat) (m : BitVec 16) : State :=
  { s with ddr := (List.range 16).foldl (fun d i =>
      if m.getLsbD i then copyRange s.nc.data d (b * 4096 + i * 256) 256 else d) s.ddr }.ddrWrites (b / 4) (4 * sectorCount m)

/-- The sectors of a mask read from DDR5. -/
def State.fetchSectors (s : State) (b : Nat) (m : BitVec 16) : State :=
  s.updNc (fun n => { n with data := (List.range 16).foldl (fun d i =>
    if m.getLsbD i then copyRange s.ddr d (b * 4096 + i * 256) 256 else d) n.data }) |>.ddrReads (b / 4) (4 * sectorCount m)

/-- Ways of a set in use. -/
def NcState.setLines (n : NcState) (set : Nat) : List (Nat × NcLine) := n.lines.filter (fun e => setOf e.1 == set)

/-- Pseudo-LRU: every node on the path to way `w` points away from it (R310). -/
def plruTouch (bits w : Nat) : Nat :=
  [(w + 16) / 2, (w + 16) / 4, (w + 16) / 8, (w + 16) / 16].foldl (fun (acc : Nat × Nat) node =>
    let child := acc.2
    let away := if child % 2 = 0 then 1 else 0
    let b := acc.1
    let cur := b / 2 ^ (node - 1) % 2
    (b + away * 2 ^ (node - 1) - cur * 2 ^ (node - 1), node)) (bits, w + 16) |>.1

/-- Ways below a tree node. -/
def waysUnder (node : Nat) : List Nat :=
  (List.range 16).filter (fun w => (w + 16) / 2 == node || (w + 16) / 4 == node || (w + 16) / 8 == node || (w + 16) / 16 == node ||
    w + 16 == node)

/-- The victim search from `node` over `n` levels (R310). -/
def plruSearch (ok : Nat → Bool) (bits : Nat) : Nat → Nat → Option Nat
  | 0, node => if ok (node - 16) then some (node - 16) else none
  | n + 1, node =>
    let b := bits / 2 ^ (node - 1) % 2
    let c := 2 * node + b
    let other := 2 * node + (1 - b)
    if (waysUnder c).any ok then plruSearch ok bits n c
    else if (waysUnder other).any ok then plruSearch ok bits n other
    else none

/-- The way a block that misses takes (R309): the lowest invalid one, else the one pseudo-LRU picks. -/
def NcState.pickWay (n : NcState) (set : Nat) : Option Nat :=
  let used := n.setLines set
  match (List.range 16).find? (fun w => !used.any (fun e => e.2.way == w) && !n.disabled.contains (set, w)) with
  | some w => some w
  | none =>
    plruSearch (fun w => used.any (fun e => e.2.way == w && !e.2.locked && e.2.filling == 0))
      ((Tab.get n.plru set).getD 0) 4 1

def State.touchPlru (s : State) (b w : Nat) : State :=
  s.updNc (fun n => { n with plru := Tab.put n.plru (setOf b) (plruTouch ((Tab.get n.plru (setOf b)).getD 0) w) })

/-- The block's bytes leave the near cache. -/
def NcState.forget (n : NcState) (b : Nat) : NcState := { n with data := n.data.clear (b * 4096) 4096 }

/-- The oldest block makes room in a full victim buffer, unless its write-back is pending (R313). -/
def NcState.victimRoom (n : NcState) : Option NcState :=
  if n.victim.length < 2048 then some n
  else match n.victim with
    | v :: rest => if v.pending then none else some ({ n with victim := rest }.forget v.block)
    | [] => some n

/-- The way `w` of a set is freed: its block goes to the victim buffer, or, with VICTIM_EN = 0, straight to DDR5. None
while a replacement must wait (R313). -/
def State.freeWay (s : State) (set w : Nat) : Option State :=
  match (s.nc.setLines set).find? (fun e => e.2.way == w) with
  | none => some s
  | some (b, l) =>
    if l.valid = 0 then some (s.updNc (fun n => { n with lines := Tab.del n.lines b }.forget b))
    else if s.on F.NC_CTL.VICTIM_EN then
      (s.nc.victimRoom).map (fun n => { s with nc :=
        { n with lines := Tab.del n.lines b, victim := n.victim ++ [{ block := b, valid := l.valid, dirty := l.dirty }] } })
    else some ((s.writeBack b l.dirty).updNc (fun n => { n with lines := Tab.del n.lines b }.forget b))

/-- Block `b` takes a way of its set, with the given sector state. -/
def State.place (s : State) (b : Nat) (valid dirty filling : BitVec 16) : Option State :=
  match s.nc.pickWay (setOf b) with
  | none => none
  | some w =>
    let l : NcLine := { way := w, valid := valid, dirty := dirty, pin := false, wlk := false, filling := filling }
    (s.freeWay (setOf b) w).map (fun s1 =>
      (s1.updNc (fun n => { n with lines := Tab.put n.lines b l })).touchPlru b w)

/-- A hit in the victim buffer recalls the block into a way of its set (R313). -/
def State.recall (s : State) (b : Nat) : State :=
  match s.nc.inVictim b with
  | none => s
  | some v =>
    let s0 := s.updNc (fun n => { n with victim := n.victim.filter (fun x => x.block != b) })
    match s0.place b v.valid v.dirty 0 with
    | some s1 => (s1.bump F.NC_CNT0.VICTIM_RECALLS).countEvent 0x062 1 none none
    | none => s

def State.updLine (s : State) (b : Nat) (f : NcLine → NcLine) : State :=
  s.updNc (fun n => { n with lines := Tab.upd n.lines b f })

/-- The WPOL of the region that holds a DPA; UNCACHED where none does. -/
def State.wpolAt (s : State) (dpa : Nat) : Nat := ((s.regionAt dpa).map (fun e => e.2.wpol)).getD 4

/-- Fill only the requested sector (PLACE.SECTOR_FILL, R306). -/
def State.sectorFill (s : State) (dpa : Nat) : Bool := ((s.regionAt dpa).map (fun e => bit e.2.placement 2)).getD false

/-- A fill of block `b` is started for sectors `m`, where a way can be had (R309, R313). -/
def State.startFill (s : State) (b : Nat) (m : BitVec 16) : State :=
  match Tab.get s.nc.lines b with
  | some _ => s.updLine b (fun l => { l with filling := l.filling ||| (m &&& ~~~l.valid) })
  | none => (s.place b 0 0 m).getD s

/-- A stale line is served: the set was written while the near cache was OFF (R319). -/
def State.staleHit (s : State) (b : Nat) : State :=
  if s.nc.staleRisk && s.nc.touched.contains (setOf b) then (s.bump F.NC_CNT1.STALE_HITS).flag F.NC_ERR.STALE_SERVED else s

/-- A read reaches one block: hit, recall, or miss with its fill (Table TIR-2, R306). -/
def State.readBlock (s : State) (b lo n : Nat) : State :=
  let want := sectorsIn b lo n
  let s1 := if s.nc.st == .on then s.recall b else s
  match Tab.get s1.nc.lines b with
  | some l =>
    if want &&& ~~~l.valid = 0 then
      ((s1.touchPlru b l.way).staleHit b).countEvent 0x060 ((n + 63) / 64) none (some (stackOf b))
    else
      let s2 := s1.countEvent 0x061 1 none (some (stackOf b))
      if s2.nc.st == .on && decide (s2.wpolAt lo < 4) then s2.startFill b (if s2.sectorFill lo then want else BitVec.allOnes 16) else s2.ddrReads (b / 4) ((n + 63) / 64)
  | none =>
    let s2 := s1.countEvent 0x061 1 none (some (stackOf b))
    if s2.nc.st == .on && decide (s2.wpolAt lo < 4) then s2.startFill b (if s2.sectorFill lo then want else BitVec.allOnes 16)
    else s2.ddrReads (b / 4) ((n + 63) / 64)

/-- A read or load of a range reaches the tiers below the ingress buffer. -/
def State.tierRead (s : State) (dpa len : Nat) : State :=
  if s.nc.serving then (blocksOf dpa len).foldl (fun s b =>
    s.readBlock b (max dpa (b * 4096)) (min (dpa + len) (b * 4096 + 4096) - max dpa (b * 4096))) s
  else (blocksOf dpa len).foldl (fun s b =>
    s.ddrReads (b / 4) ((min (dpa + len) (b * 4096 + 4096) - max dpa (b * 4096) + 63) / 64)) s

/-- The page holds contents (R372). -/
def State.initPage (s : State) (page : Nat) : State :=
  if s.mem.init.contains page then s else { s with mem := { s.mem with init := page :: s.mem.init } }

/-- A page placed into for the first time is zero-filled first (R372). -/
def State.firstTouch (s : State) (page : Nat) : State :=
  if s.mem.init.contains page then s else (s.initPage page).bump F.MEM_CNT3.FIRST_TOUCH

/-- Bytes of one page placed into DDR5. -/
def State.ddrWrite (s : State) (cs : List Host.Cell) : State :=
  match cs with
  | [] => s
  | c :: _ => ({ s with ddr := s.ddr.writeCells cs }.firstTouch (pageOf c.1)).ddrWrites (pageOf c.1) ((cs.length + 63) / 64)

def State.ncWrite (s : State) (cs : List Host.Cell) : State :=
  s.updNc (fun n => { n with data := n.data.writeCells cs })

/-- The page of a block may hold dirty sectors (R370). -/
def State.markDirty (s : State) (b : Nat) : State :=
  if s.nc.dirtyMap.contains (b / 4) then s else s.updNc (fun n => { n with dirtyMap := b / 4 :: n.dirtyMap })

/-- Bytes of one sector placed where the block is present (Table TIR-2, R305). -/
def State.placeHit (s : State) (b i wpol : Nat) (l : NcLine) (cs : List Host.Cell) : State :=
  let m := oneSector i
  if l.dirty.getLsbD i then
    (if s.nc.st = .draining then (s.ncWrite cs).ddrWrite cs else s.ncWrite cs).touchPlru b l.way
  else if l.valid.getLsbD i then
    if s.nc.st = .draining then ((s.ncWrite cs).ddrWrite cs).touchPlru b l.way
    else match wpol with
      | 0 => (((s.ncWrite cs).updLine b (fun l => { l with dirty := l.dirty ||| m })).markDirty b).touchPlru b l.way
      | 1 => ((s.ncWrite cs).ddrWrite cs).touchPlru b l.way
      | 2 => ((s.ncWrite cs).ddrWrite cs).touchPlru b l.way
      | _ => (s.updLine b (fun l => { l with valid := l.valid &&& ~~~m })).ddrWrite cs
  else if s.nc.st = .draining then s.ddrWrite cs
  else match wpol with
    | 0 => (((if cs.length < 256 then s.fetchSectors b m else s).ncWrite cs).updLine b (fun l =>
        { l with valid := l.valid ||| m, dirty := l.dirty ||| m, filling := l.filling &&& ~~~m })).markDirty b
    | 1 => (((if cs.length < 256 then s.fetchSectors b m else s).ncWrite cs).ddrWrite cs).updLine b (fun l =>
        { l with valid := l.valid ||| m, filling := l.filling &&& ~~~m })
    | _ => s.ddrWrite cs

/-- Bytes of one sector of block `b` placed below the ingress buffer; none while a replacement waits (R313). -/
def State.placeSector (s : State) (b i wpol : Nat) (cs : List Host.Cell) : Option State :=
  match s.nc.st with
  | .off | .invalidating =>
    some ((s.updNc (fun n =>
      { n with touched := if n.touched.contains (setOf b) then n.touched else n.touched ++ [setOf b] })).ddrWrite cs)
  | .draining =>
    (match Tab.get s.nc.lines b with
     | some l => some (s.placeHit b i wpol l cs)
     | none => (match s.nc.inVictim b with
        | some v => some (if v.valid.getLsbD i then (s.ncWrite cs).ddrWrite cs else s.ddrWrite cs)
        | none => some (s.ddrWrite cs)))
  | .on =>
    let s1 := s.recall b
    if (s1.nc.inVictim b).isSome then none
    else match Tab.get s1.nc.lines b with
      | some l => some (s1.placeHit b i wpol l cs)
      | none =>
        if wpol ≤ 1 then
          (s1.place b 0 0 0).map (fun s2 => match Tab.get s2.nc.lines b with
            | some l => s2.placeHit b i wpol l cs
            | none => s2)
        else some (s1.ddrWrite cs)

/-- The cells of a sector. -/
def cellsOfSector (cs : List Host.Cell) (b i : Nat) : List Host.Cell :=
  cs.filter (fun c => c.1 / 256 == b * 16 + i)

/-- Cells placed sector by sector under a write policy (WRITE_BACK as WRITE_THROUGH in DRAIN, R458); none while a
replacement waits. -/
def State.placeCells (s : State) (wpol lo n : Nat) (cs : List Host.Cell) : Option State :=
  let wpol := if wpol = 0 ∧ s.mod.mode = .drain then 1 else wpol
  (blocksOf lo n).foldl (fun (o : Option State) b =>
    (List.range 16).foldl (fun (o : Option State) i =>
      match o with
      | none => none
      | some t => (match cellsOfSector cs b i with
          | [] => some t
          | l => t.placeSector b i wpol l)) o) (some s)

/-! ### Fills, write-backs and states -/

/-- The fill of a block completes: the sectors it still awaits are installed from DDR5 (R317). -/
def State.fillDone (s : State) (b : Nat) : State :=
  match Tab.get s.nc.lines b with
  | none => s
  | some l =>
    let m := l.filling &&& ~~~l.valid
    ((s.fetchSectors b m).updLine b (fun l => { l with valid := l.valid ||| m, filling := 0 })).touchPlru b l.way

/-- Dirty sectors of a block written back; its sectors stay valid. -/
def State.cleanBlock (s : State) (b : Nat) : State :=
  match Tab.get s.nc.lines b with
  | some l => (s.writeBack b l.dirty).updLine b (fun l => { l with dirty := 0 })
  | none => (match s.nc.inVictim b with
      | some v => (s.writeBack b v.dirty).updNc (fun n =>
          { n with victim := n.victim.map (fun x => if x.block = b then { x with dirty := 0 } else x) })
      | none => s)

/-- A block leaves its way and the victim buffer. -/
def State.dropBlock (s : State) (b : Nat) : State :=
  s.updNc (fun n => { n with lines := Tab.del n.lines b, victim := n.victim.filter (fun v => v.block != b) }.forget b)

/-- Dirty sectors, victim buffer included (NC_DIRTY). -/
def NcState.dirtySectors (n : NcState) : Nat :=
  sumOf (n.lines.map (fun e => countBits e.2.dirty)) + sumOf (n.victim.map (fun v => countBits v.dirty))

/-- NC_CTL.ENABLE written (Table TIR-6). -/
def State.ncEnable (s : State) (on : Bool) : State :=
  let s1 := s.setFld F.NC_CTL.ENABLE (b2n on)
  match s.nc.st, on with
  | .on, false => s1.updNc (fun n => { n with st := .draining })
  | .draining, true => s1.updNc (fun n => { n with st := .on })
  | .off, true =>
    let s2 := s1.updNc (fun n => { n with st := .on })
    if s.nc.staleRisk then s2.recState sevWarn .nc F.NC_STATUS.STATE else s2
  | .invalidating, b => s1.updNc (fun n => { n with onAfter := b })
  | _, _ => s1

def execNcEnable (on : Bool) (s : State) : Res := when_ (s.running .nc) s (s.ncEnable on)

/-- NC_CTL.INV_ALL written (Table TIR-6): the bit stays 1 until INVALIDATING ends. -/
def State.invAll (s : State) : State :=
  match s.nc.st with
  | .off => (s.setFld F.NC_CTL.INV_ALL 1).updNc (fun n => { n with st := .invalidating, onAfter := false })
  | .invalidating => s
  | _ => (s.setFld F.NC_CTL.INV_ALL 0).recFlag sevNotice .nc F.NC_ERR.INV_IGNORED 0

def execInvAll (s : State) : Res := when_ (s.running .nc) s s.invAll

/-- No dirty sector is left (Table TIR-6). -/
def execNcDrainEnd (s : State) : Res :=
  when_ (s.running .nc && s.nc.st == .draining && decide (s.nc.dirtySectors = 0)) s
    ((s.updNc (fun n => { n with st := .off, staleRisk := true })).recState sevNotice .nc F.NC_STATUS.STATE)

/-- Every tag, lock and touched mark is cleared (Table TIR-6). -/
def execInvalidatingEnd (s : State) : Res :=
  when_ (s.running .nc && s.nc.st == .invalidating) s
    ((s.setFld F.NC_CTL.INV_ALL 0).updNc (fun n =>
      { n with st := if n.onAfter then .on else .off, staleRisk := false, onAfter := false, lines := [], plru := [],
               victim := [], data := [], touched := [], dirtyMap := [] }))

end Sys2Proof.Machine
end

