-- ==== Sys2Proof/Machine/Mirror.lean ====
section
/-! DEFINITION. The mirror stream as it is sent (07 R224, R225, R228 to R230, R239, R241): the live channel, frames as they are on the wire,
credit, numbering, LINK_ID. -/

namespace Sys2Proof.Machine

def State.updPhl (s : State) (f : PhlState → PhlState) : State := { s with phl := f s.phl }

/-- The channel that carries mirror frames now: `some false` PH0, `some true` a twin session (R241, R242). -/
def State.channel (s : State) : Option Bool :=
  let fb := if s.on F.PHL_FB_CTL.FB_ENABLE then some true else none
  match s.phl.twin with
  | .fallback => fb
  | .paired | .resyncIn | .resyncOut => if s.phl.ph0.up then some false else fb
  | _ => none

def Frame.mk0 (ty : Nat) : Frame :=
  { ty := ty, cls := .d0, last := false, region := 0, msn := 0, dpa := 0, position := 0, epoch := 0, ref := 0, aux := 0,
    data := [] }

/-- A frame in the clear, with the header of Table TWN-3. -/
def Frame.plain (f : Frame) : Wire :=
  { w0 := BitVec.ofNat 64 (f.ty + f.cls.code * 2 ^ 4 + b2n f.last * 2 ^ 7 + f.region * 2 ^ 8 + f.msn * 2 ^ 32)
    w1 := BitVec.ofNat 64 (f.dpa + f.data.length * 2 ^ 44)
    w2 := BitVec.ofNat 64 (f.position + f.epoch * 2 ^ 48)
    w3 := BitVec.ofNat 64 (f.ref + f.aux * 2 ^ 32)
    data := f.data, tag := none }

/-- The header's bytes. -/
def Wire.header (w : Wire) : List Byte := [w.w0, w.w1, w.w2, w.w3].flatMap (fun x => leBytes 8 x.toNat)

/-- Node of the pair's even position (R344). -/
def State.evenNode (s : State) : Nat := if s.odd then s.phl.peerNode else s.node

/-- The key of the mirror frames, from the fabric root under purpose 0x10 (R239). -/
def State.mirrorKey (s : State) : List Byte :=
  (kdf (beBytes 32 ((s.cip.fabricRoot.map (·.toNat)).getD 0)) (keyLabel 0x10 0 0 s.evenNode s.phl.linkEpoch) 1 []).take 32

/-- A frame as it is sent: with ENCRYPT = 1, under AES-256-GCM with the header as associated data (R228, R239). -/
def State.wire (s : State) (f : Frame) : Wire :=
  if s.on F.PHL_CTL.ENCRYPT then
    let w := { f.plain with w0 := f.plain.w0 ||| 64 }
    let c := gcmSeal s.mirrorKey (Config.mirrorIv s.phl.linkEpoch s.seq.position f.msn) w.header f.data
    { w with data := c.1, tag := some c.2 }
  else f.plain

/-- Credit a frame of `n` data bytes takes, in 256-byte units, its header counted (R224; DEDUCED, notes/assumptions/43.md). -/
def frameCredits (n : Nat) : Nat := (n + 287) / 256

def chanOf (fallback : Bool) : LinkChan := if fallback then .fallback else .ph0

/-- Frames are sent only under credit, oldest first (R224): the oldest that waits is sent on the live channel and kept until
acknowledged. -/
def State.sendNext (s : State) : State :=
  match s.channel, s.phl.txWait with
  | some fb, f :: l =>
    if frameCredits f.data.length ≤ s.phl.credit then
      { s with
        phl := { s.phl with txWait := l, unacked := s.phl.unacked ++ [f], credit := s.phl.credit - frameCredits f.data.length,
                            sentAt := Tab.put s.phl.sentAt f.msn s.time }
        out := s.out ++ [Out.phFrame (chanOf fb) (s.wire f)] }
    else s
  | _, _ => s

def State.sendWaiting : Nat → State → State
  | 0, s => s
  | k + 1, s => sendWaiting k s.sendNext

/-- Every frame that credit and the channel let go is sent. -/
def State.sendFrames (s : State) : State := s.sendWaiting s.phl.txWait.length

/-- A frame is numbered with the next MSN (R230). -/
def State.numberFrame (s : State) (f : Frame) : State :=
  { s with phl := { s.phl with
    txNext := (s.phl.txNext + 1) % 2 ^ 32, txWait := s.phl.txWait ++ [{ f with msn := s.phl.txNext, epoch := s.phl.epoch % 65536 }] } }

def State.sendFrame (s : State) (f : Frame) : State := (s.numberFrame f).sendFrames.countEvent 0x030 1 none none

/-- Frames numbered and not yet acknowledged. -/
def PhlState.unconfirmed (x : PhlState) : List Frame := x.unacked ++ x.txWait

/-- This device kept its DRAM image: it has not restarted since it last served. -/
def State.keptImage (s : State) : Bool :=
  match s.mod.mode with
  | .cold | .restore => false
  | _ => true

/-- The identity block of this device's LINK_ID (R225). -/
def State.identity (s : State) : List Byte :=
  leBytes 1 s.seq.position ++ leBytes 1 (b2n (s.on F.PHL_CTL.ENCRYPT)) ++ leBytes 1 (b2n s.phl.primary) ++
  leBytes 1 (b2n (!s.dst.lastIncomplete) + 2 * b2n s.keptImage) ++ leBytes 4 s.node ++ leBytes 2 (s.fld F.GEN_ID.PRODUCT) ++
  leBytes 2 0 ++ leBytes 4 s.phl.epoch ++ leBytes 4 ((s.phl.txNext + 2 ^ 32 - 1) % 2 ^ 32) ++ leBytes 4 s.phl.txAcked ++
  leBytes 4 ((s.phl.rxNext + 2 ^ 32 - 1) % 2 ^ 32) ++ leBytes 36 0

/-- LINK_ID stands outside the frame sequence (R225). -/
def State.sendLinkId (s : State) (ch : LinkChan) : State :=
  s.emit (.phFrame ch ({ Frame.mk0 11 with epoch := s.phl.epoch % 65536, data := s.identity }.plain))

/-- A frame of `n` data bytes that carries a copy, a forwarded unit or a page may be sent: the last 64 KiB of the credit are kept
for the other types, so that these always pass (R276). -/
def State.dataFits (s : State) (n : Nat) : Bool := s.phl.txWait.isEmpty && decide (frameCredits n + 256 ≤ s.phl.credit)

/-- Mirror traffic has reached what the live channel takes: units, pages or frames wait for credit (R27, R276). -/
def State.mirrorBacklog (s : State) : Bool := s.channel.isSome && (s.phl.stalled || !s.phl.txWait.isEmpty)

end Sys2Proof.Machine
end

