-- ==== Sys2Proof/Machine/Sessions.lean ====
section
/-! DEFINITION. AFT2 sessions (06): header fields (Tables FAB-2, FAB-4), keys and packets on the wire, sending, acknowledgements, receive
windows, credit, and what a session hears of the units and reads of its messages. -/

namespace Sys2Proof

/-! ### Header fields -/

def Packet.ver (p : Packet) : Nat := bitsOf p.w0 0 4
def Packet.typ (p : Packet) : Nat := bitsOf p.w0 4 4
def Packet.final (p : Packet) : Bool := bit p.w0 8
def Packet.cls (p : Packet) : Nat := bitsOf p.w0 9 2
def Packet.subop (p : Packet) : Bool := bit p.w0 11
def Packet.src (p : Packet) : Nat := bitsOf p.w0 16 18
def Packet.dst (p : Packet) : Nat := bitsOf p.w0 34 18
def Packet.session (p : Packet) : Nat := bitsOf p.w1 0 20
def Packet.psn (p : Packet) : Nat := bitsOf p.w1 32 32
def Packet.msg (p : Packet) : Nat := bitsOf p.w2 0 32
def Packet.idx (p : Packet) : Nat := bitsOf p.w2 32 10
def Packet.msgLen (p : Packet) : Nat := bitsOf p.w2 42 22
def Packet.offset (p : Packet) : Nat := bitsOf p.w3 0 44
def Packet.region (p : Packet) : Nat := bitsOf p.w3 44 16
def Packet.key (p : Packet) : Nat := bitsOf p.w4 0 32
def Packet.plen (p : Packet) : Nat := bitsOf p.w4 32 14

def Packet.words (k : Packet) : List Word := [k.w0, k.w1, k.w2, k.w3, k.w4, k.w5, k.w6]

def FabPort.pair : FabPort → Nat
  | .fa0 => 0 | .fb0 => 0 | .fa1 => 1 | .fb1 => 1

def FabPort.isB : FabPort → Bool
  | .fb0 => true | .fb1 => true | _ => false

def FabPort.partner : FabPort → FabPort
  | .fa0 => .fb0 | .fb0 => .fa0 | .fa1 => .fb1 | .fb1 => .fa1

end Sys2Proof

namespace Sys2Proof.Machine

/-- Types that carry a PSN, not a control counter (R183). -/
def isDataType (t : Nat) : Bool := (decide (1 ≤ t) && decide (t ≤ 6)) || t == 10

/-- Types that spend credit granted by the receiver (Table FAB-3); READ_DATA comes under its READ_REQ's reservation. -/
def isCredited (t : Nat) : Bool := isDataType t && t != 4

def w64 (n : Nat) : BitVec 64 := BitVec.ofNat 64 n

/-! ### Sessions -/

def State.updFab (s : State) (f : FabState → FabState) : State := { s with fab := f s.fab }

def State.updSes (s : State) (n : Nat) (f : Session → Session) : State :=
  s.updFab (fun x => { x with sessions := Tab.upd x.sessions n f })

/-- Ports that carry packets: link up, UP or SUSPECT (Table FAB-11). -/
def State.pathSends (s : State) (p : FabPort) : Bool := (s.path p).link && decide ((s.path p).st ≤ 1)

/-- Ports a session's packets leave on: both members of its pair, or the one that is neither FAILED nor OFF (R215,
R219). -/
def State.sendPorts (s : State) (x : Session) : List FabPort := (pairPorts x.pairNow).filter (fun p => s.pathSends p)

def Session.addrOn (x : Session) (p : FabPort) : BitVec 128 := if p.isB then x.params.addrB else x.params.addrA

/-- A session that firmware keeps with the twin for the mirror stream (R241). -/
def State.isTwinSes (s : State) (x : Session) : Bool :=
  x.params.probe && x.tenant == 0 && x.peer == s.phl.peerNode && s.phl.peerKnown

/-- A WRITE that carries mirror frames: its credit is PH0_RESERVE's, its REGION means nothing (R242). -/
def State.twinWrite (s : State) (x : Session) (typ : Nat) : Bool := typ == 1 && s.isTwinSes x

/-! ### Keys and packets on the wire (R180, R183, R185, R345) -/

/-- The secret of a session between two AS9640s, from the fabric root (purpose 0x11, Table CIP-6). -/
def State.poolSecret (s : State) (a : SessionParams) : List Byte :=
  let own := leBytes 3 s.node ++ leBytes 3 a.session.toNat
  let far := leBytes 3 a.peerNode.toNat ++ leBytes 3 a.peerSession.toNat
  kdf (beBytes 32 ((s.cip.fabricRoot.map (·.toNat)).getD 0)) (keyLabel 0x11 a.tenant.toNat 0 0 0) 2
    (if s.node < a.peerNode.toNat then own ++ far else far ++ own)

/-- The traffic key and salt of the direction that `sender` sends in (purpose 0x12, R341). -/
def Session.trafficKey (x : Session) (sender epoch : Nat) : List Byte :=
  (kdf x.secret (keyLabel 0x12 x.params.tenant.toNat 0 sender epoch) 1 []).take 36

/-- Both keys of a session's epoch: sending, receiving. -/
def State.deriveKeys (s : State) (x : Session) : List Byte × List Byte := (x.trafficKey s.node x.epoch, x.trafficKey x.peer x.epoch)

/-- The key a packet goes under: that of the session's epoch; OPEN and OPEN_ACK under that of the epoch they name (DESIGN CHOICE,
notes/assumptions/93.md). -/
def State.packetKey (s : State) (x : Session) (k : Packet) : List Byte :=
  if k.typ = 12 ∨ k.typ = 13 then x.trafficKey s.node (bitsOf k.w2 0 32)
  else (x.keys.getD (s.deriveKeys x)).1

/-- The IV: the key's salt, 31 zero bits and CTL, the PSN field (R183). -/
def packetIv (key : List Byte) (k : Packet) : List Byte := (key.drop 32).take 4 ++ beBytes 4 (b2n (!isDataType k.typ)) ++ beBytes 4 k.psn

/-- One's complement sum of the 16-bit words of a byte list. -/
def onesSum : List Byte → Nat
  | a :: b :: l => onesSum l + a.toNat * 256 + b.toNat
  | [a] => a.toNat * 256
  | [] => 0

/-- The UDP checksum over the IPv6 pseudo-header, the UDP header and the payload; zero is sent as 0xFFFF. -/
def udpChecksum (src dst : BitVec 128) (srcPort dstPort : Nat) (data : List Byte) : Nat :=
  let len := data.length + 8
  let t := onesSum (beBytes 16 src.toNat ++ beBytes 16 dst.toNat ++ beBytes 4 len ++ [0, 0, 0, 17] ++ beBytes 2 srcPort ++ beBytes 2 dstPort ++
    beBytes 2 len ++ [0, 0] ++ data)
  let c := 65535 - (t % 65535)
  if c = 0 then 65535 else c

/-- A packet as it leaves on a port (Table FAB-1, R180): the header is the associated data, the payload is encrypted. -/
def State.datagram (s : State) (x : Session) (port : FabPort) (k : Packet) : Datagram :=
  let key := s.packetKey x k
  let head := k.words.flatMap (fun w => leBytes 8 w.toNat)
  let c := gcmSeal (key.take 32) (packetIv key k) head k.payload
  let v4 := s.on F.FAB_CTL.IPV4
  let src := Config.portAddr port.idx
  let dst := x.addrOn port
  { vlan := if s.on F.FAB_CTL.VLAN_EN then some (s.fld F.FAB_CTL.PCP, s.fld F.FAB_CTL.VLAN_ID) else none
    ipv4 := v4, dontFragment := v4, dscp := s.fld F.FAB_CTL.DSCP, ecn := 0, src := src, dst := dst
    srcPort := x.params.entropy.toNat, dstPort := s.fld F.FAB_CTL.UDP_PORT
    checksum := if v4 then 0 else udpChecksum src dst x.params.entropy.toNat (s.fld F.FAB_CTL.UDP_PORT) (head ++ c.1 ++ c.2)
    header := k.words, payload := c.1, tag := c.2 }

/-- Copies of one packet, one a port: byte-identical from the AFT2 header onward (R183). -/
def State.copies (s : State) (x : Session) (p : Packet) : List Out :=
  (s.sendPorts x).map (fun port => .aft2 port (s.datagram x port p))

def State.isMember (s : State) (n : Nat) : Bool := s.memberList.contains n

/-- Word 0 of a packet to a session's peer. -/
def State.word0 (s : State) (x : Session) (typ : Nat) (extra : Nat) : BitVec 64 :=
  w64 (2 + 16 * typ + extra + s.node * 2 ^ 16 + x.peer * 2 ^ 34)

/-- A control packet: words 2 to 6 as Table FAB-4 lays them out. -/
def State.ctlPacket (s : State) (x : Session) (typ : Nat) (w2 w3 w4 w5 w6 : BitVec 64) : Packet :=
  { addr := 0, w0 := s.word0 x typ 0, w1 := w64 (x.params.peerSession.toNat + x.ctlNext % 2 ^ 32 * 2 ^ 32), w2 := w2, w3 := w3,
    w4 := w4, w5 := w5, w6 := w6, payload := [], tagOk := true }

/-- A control packet is sent; while the control counter is about to wrap, only the OPEN exchange of the rekey is (R183). -/
def State.sendCtl (s : State) (n typ : Nat) (w2 w3 w4 w5 w6 : BitVec 64) : State :=
  match s.ses n with
  | none => s
  | some x =>
    if 2 ^ 32 - 1 ≤ x.ctlNext ∧ typ ≠ 12 ∧ typ ≠ 13 then s
    else
      { s with out := s.out ++ s.copies x (s.ctlPacket x typ w2 w3 w4 w5 w6) }.updSes n
        (fun x => { x with ctlNext := x.ctlNext + 1 })

/-- The ACK of a message (Table FAB-4). -/
def State.sendAck (s : State) (n : Nat) (a : AckInfo) : State :=
  s.sendCtl n 7 (w64 (a.msg + a.status.toNat * 2 ^ 32 + a.cls * 2 ^ 40)) (w64 (s.fld F.FAB_KEY_EPOCH.EPOCH))
    (w64 (a.map % 2 ^ 64)) (w64 (a.map / 2 ^ 64)) a.result

/-- Failed or OFF ports, one bit each. -/
def State.downMask (s : State) : Nat :=
  sumOf ([FabPort.fa0, .fb0, .fa1, .fb1].map (fun p => if 2 ≤ (s.path p).st then 2 ^ p.idx else 0))

/-- When the newest grant expires: GRANT_TTL after issue, 0 under the unlocked rule (R206). -/
def State.grantExpiry (s : State) (x : Session) : Nat :=
  if s.fab.ptpLocked then x.grantedAt + 1000 * s.fld F.FAB_TIMER1.GRANT_TTL else 0

/-- The RECEIPT of a session (Table FAB-4). -/
def State.sendReceipt (s : State) (n : Nat) : State :=
  match s.ses n with
  | none => s
  | some x =>
    let sack := sumOf ((List.range 64).map (fun i => if x.sack.contains (x.cum + i) then 2 ^ i else 0))
    (s.sendCtl n 8 (w64 ((x.cum + 2 ^ 32 - 1) % 2 ^ 32)) (w64 sack) (w64 (x.granted % 2 ^ 32)) (w64 (s.grantExpiry x))
      (w64 (s.downMask + s.fld F.FAB_KEY_EPOCH.EPOCH * 2 ^ 32))).updSes n (fun x => { x with sinceReceipt := 0 })

/-! ### Windows and retired messages -/

/-- The lowest number at or above `k` not in a list. -/
def skipOver (l : List Nat) : Nat → Nat → Nat
  | 0, k => k
  | n + 1, k => if l.contains k then skipOver l n (k + 1) else k

/-- A PSN has been received (Table FAB-4). -/
def Session.recvPsn (x : Session) (psn : Nat) : Session :=
  if psn < x.cum then x
  else
    let l := psn :: x.sack
    let c := skipOver l l.length x.cum
    { x with cum := c, sack := (l.filter (fun k => decide (c ≤ k))).dedup }

/-- The whole grant of a message ends with it, whatever is left of it (R207). -/
def Session.endWhole (x : Session) (msg : Nat) : Session := { x with grants := x.grants.filter (fun g => g.whole != some msg) }

/-- A message number is retired: acknowledged, torn or refused (R213). -/
def Session.retire (x : Session) (msg : Nat) : Session :=
  let x := x.endWhole msg
  if msg < x.rxBase then { x with rx := x.rx.filter (fun m => m.msg != msg) }
  else
    let l := msg :: x.retired
    let b := skipOver l l.length x.rxBase
    { x with rx := x.rx.filter (fun m => m.msg != msg), rxBase := b, retired := (l.filter (fun k => decide (b ≤ k))).dedup }

def Session.isRetired (x : Session) (msg : Nat) : Bool := decide (msg < x.rxBase) || x.retired.contains msg

/-- The lower of two classes, where known. -/
def lowerCls (a : Option Class) (b : Option Class) : Option Class :=
  match a, b with
  | some c, some d => some (if c.code < d.code then c else d)
  | some c, none => some c
  | none, o => o

/-- A message is answered: its ACK is cached (the last 256, R200), sent, and the message retired; its outcome is kept for the next FENCE,
that it was torn or refused for packets that come late (R213). -/
def State.answer (s : State) (n : Nat) (a : AckInfo) (c : Option Class) : State :=
  ((s.updSes n (fun x =>
    { x.retire a.msg with
      acks := (x.acks ++ [a]).drop (x.acks.length + 1 - 256)
      torn := if a.torn then x.torn ++ [a.msg] else x.torn
      outcomes := x.outcomes ++ [(a.msg, a.status, c)] })).sendAck n a).countEvent 0x023 1 ((s.ses n).map (·.tenant)) none

/-- The failure of the lowest message number. -/
def firstFailed (l : List (Nat × Status × Option Class)) : Option (Nat × Status × Option Class) :=
  (l.filter (fun o => o.2.1 != 0)).foldl (fun (b : Option (Nat × Status × Option Class)) o => match b with
    | some c => if o.1 < c.1 then some o else b
    | none => some o) none

/-- The ACK of the FENCE `msg`: status of the first failure and lowest class among the messages before it since the previous FENCE. The CLASS
of a FENCE that covers nothing is 3, a FENCE's MSG_LEN 8 (DESIGN CHOICE, notes/assumptions/86.md). -/
def Session.fenceAck (x : Session) (msg : Nat) : AckInfo :=
  let l := x.outcomes.filter (fun o => decide (o.1 < msg))
  { msg := msg, status := ((firstFailed l).map (·.2.1)).getD 0,
    cls := ((l.foldl (fun m o => lowerCls m o.2.2) none).map (·.code)).getD 3, map := 0, result := 0, torn := false }

/-- FENCE messages whose turn has come are answered (Table FAB-9). -/
def State.answerFences : Nat → State → Nat → State
  | 0, s, _ => s
  | k + 1, s, n =>
    match s.ses n with
    | none => s
    | some x =>
      match x.rx.find? (fun m => m.typ == 6 && m.msg == x.rxBase) with
      | none => s
      | some m =>
        answerFences k ((s.answer n (x.fenceAck m.msg) none).updSes n (fun x =>
          { x with outcomes := x.outcomes.filter (fun o => decide (m.msg < o.1)) })) n

/-- What the twin holds of this device's session metadata changes, while the twins are linked (R187). -/
def State.mirrorMeta (s : State) (aux : Nat) (data : List Byte) : State :=
  match s.phl.twin with
  | .paired | .fallback | .resyncIn | .resyncOut | .unconfirmed => s.sendFrame { Frame.mk0 13 with aux := 5 + 256 * aux, data := data }
  | _ => s

/-- The member list goes to the twin, in pieces of 4,096 node IDs (R541). -/
def State.sendMembers (s : State) (l : List Nat) : State :=
  let p := chunks ((l.length + 4095) / 4096) 4096 l
  (p.zip (List.range p.length)).foldl (fun t e =>
    t.mirrorMeta (2 + (if e.2 = 0 then 2 ^ 8 else 0) + (if e.2 + 1 = p.length then 2 ^ 9 else 0)) (e.1.flatMap (leBytes 4))) s

/-- A session is over: its context and its definition go, on the twin too (Table FAB-7, R187). -/
def State.freeSession (s : State) (n : Nat) : State :=
  (s.updFab (fun f => { f with
    sessions := Tab.del f.sessions n, resident := f.resident.filter (· != 2 * n), defs := f.defs.filter (fun d => d.session.toNat != n)
    secrets := Tab.del f.secrets n })).mirrorMeta 1 (leBytes 4 n)

/-- Nothing of a session is outstanding that this end knows of, and the peer starts nothing new. -/
def Session.idle (x : Session) : Bool :=
  x.closeSeen && x.rx.isEmpty && x.tx.isEmpty && x.replies.isEmpty && x.requests.isEmpty && x.unreceipted.isEmpty

/-- CLOSING becomes FREE once nothing is outstanding at both ends (Table FAB-7). -/
def State.closeIfDone (s : State) (n : Nat) : State :=
  match s.ses n with
  | some x => if x.st = .closing ∧ x.idle = true then s.freeSession n else s
  | none => s

def State.finishRx (s : State) (n : Nat) (a : AckInfo) (c : Option Class) : State :=
  let s1 := s.answer n a c
  (State.answerFences (((s1.ses n).map (fun x => x.rx.length + 1)).getD 0) s1 n).closeIfDone n

/-- PKT_MAP of a message of `count` packets: bit i for the packets G·i to G·i + G − 1 (R212). -/
def pktMap (m : RxMsg) : Nat :=
  let g := (m.count + 127) / 128
  sumOf ((List.range 128).map (fun i =>
    let l := (List.range g).map (· + g * i) |>.filter (· < m.count)
    if !l.isEmpty && l.all (fun k => m.units.any (fun u => u.idx == k && (match u.settle with
        | .reached _ => true
        | _ => false))) then 2 ^ i else 0))

def firstFailure (l : List Settle) : Option Status :=
  l.findSome? (fun x => match x with
    | .failed st => some st
    | _ => none)

def lowestClass (l : List Settle) : Option Class :=
  l.foldl (fun m x => match x with
    | .reached c => lowerCls m (some c)
    | _ => m) none

/-- The message number is complete and every unit has settled: its ACK is due. -/
def State.checkRx (s : State) (n msg : Nat) : State :=
  match (s.ses n).bind (fun x => x.rx.find? (fun m => m.msg == msg)) with
  | none => s
  | some m =>
    let l := m.units.map (·.settle)
    if m.got.length = m.count ∧ !l.isEmpty ∧ !l.contains .pending ∧ m.typ ≠ 3 ∧ m.typ ≠ 6 ∧
        (m.extent.isNone ∨ m.units.length = 1) then
      let st := (firstFailure l).getD 0
      s.finishRx n { msg := msg, status := st, cls := if st = 0 then ((lowestClass l).map (·.code)).getD 0 else 0, map := 0,
                     result := if st = 0 then m.result else 0, torn := false } (lowestClass l)
    else s

def updMsg (msg : Nat) (f : RxMsg → RxMsg) (x : Session) : Session := { x with rx := updAll (fun m => m.msg == msg) f x.rx }

/-- A unit of a fabric message has committed or failed. -/
def State.settleFabric (s : State) (n msg unit : Nat) (r : Settle) : State :=
  (s.updSes n (updMsg msg (fun m =>
    { m with units := updAll (fun u => u.unit == unit) (fun u => { u with settle := r }) m.units }))).checkRx n msg

/-- The value an atomic or append returns. -/
def State.fabricResult (s : State) (n msg : Nat) (v : Word) : State :=
  s.updSes n (updMsg msg (fun m => { m with result := v }))

/-- Table DUR-5: strict mode in message order; in relaxed mode only F waits, for its own message's other packets and
every lower message (R210). -/
def State.fabricTurn (s : State) (n msg : Nat) (f : Bool) (unit : Nat) : Bool :=
  match s.ses n with
  | none => true
  | some x =>
    if x.params.relaxed then
      !f || (decide (x.rxBase = msg) && (match x.rx.find? (fun m => m.msg == msg) with
        | none => true
        | some m => decide (m.got.length = m.count) && m.units.all (fun u => u.unit == unit || u.settle != .pending)))
    else decide (x.rxBase = msg)

/-! ### Sending -/

/-- Packets of a message at packet size `p`; READ_REQ, ATOMIC and FENCE are one. -/
def TxMsg.packets (m : TxMsg) (p : Nat) : Nat :=
  if m.typ = 1 ∨ m.typ = 2 then (m.len + p - 1) / p else 1

/-- Payload of packet `i`. -/
def TxMsg.payload (m : TxMsg) (p i : Nat) : List Byte :=
  if m.typ = 1 ∨ m.typ = 2 then (m.data.drop (i * p)).take p else m.data

/-- Packet `i` of a message (Table FAB-2); OPERAND0 of a READ_REQ counts the credits of this GET's own reservation (DESIGN CHOICE,
notes/assumptions/89.md). -/
def State.txPacket (s : State) (x : Session) (m : TxMsg) (i : Nat) : Packet :=
  let p := max 1 x.psize
  let d := m.payload p i
  let last := i + 1 == m.packets p
  let off := if m.typ = 1 ∨ m.typ = 2 then m.offset + i * p else m.offset
  { addr := 0
    w0 := s.word0 x m.typ ((if m.final && last then 2 ^ 8 else 0) + m.cls.code * 2 ^ 9 + (if m.subop then 2 ^ 11 else 0))
    w1 := w64 (x.params.peerSession.toNat + x.psnNext * 2 ^ 32)
    w2 := w64 (m.msg + i * 2 ^ 32 + m.len * 2 ^ 42)
    w3 := w64 (off + m.region * 2 ^ 44)
    w4 := w64 (m.key + d.length * 2 ^ 32)
    w5 := if m.typ = 3 then w64 m.reserve else m.op0
    w6 := m.op1
    payload := d
    tagOk := true }

/-- The first message that is not wholly sent. -/
def Session.nextTx (x : Session) : Option TxMsg := x.tx.find? (fun m => decide (m.sent < m.count))

def updTx (msg : Nat) (f : TxMsg → TxMsg) (x : Session) : Session := { x with tx := updAll (fun m => m.msg == msg) f x.tx }

/-- The CREDIT_REQ of a message (Table FAB-4): the bytes still unsent. -/
def State.askCredit (s : State) (n : Nat) (x : Session) (m : TxMsg) : State :=
  (s.sendCtl n 9 (w64 (m.msg + m.typ * 2 ^ 32 + (m.len - m.sent * max 1 x.psize) * 2 ^ 40)) (w64 (m.offset + m.region * 2 ^ 44))
    (w64 m.key) 0 0).updSes n (updTx m.msg (fun m => { m with asked := true }))

/-- One packet is sent and kept until a RECEIPT covers it. -/
def State.sendPacket (s : State) (n : Nat) (x : Session) (m : TxMsg) (pkt : Packet) : State :=
  let t : TxPkt := { psn := x.psnNext, msg := m.msg, retries := 0, pkt := pkt }
  { s with out := s.out ++ s.copies x pkt }.updSes n (fun x =>
    { updTx m.msg (fun m => { m with sent := m.sent + 1 }) x with
      psnNext := x.psnNext + 1, creditUsed := x.creditUsed + pkt.cost, unreceipted := x.unreceipted ++ [t] })

/-- Credit whose time has passed is not spent, and its messages ask again (R206). -/
def Session.lapse (x : Session) (now : Nat) : Session :=
  let gone := (x.lots.filter (fun e => decide (e.2 < now) && decide (x.creditUsed < e.1))).map (·.1)
  { x with
    lots := x.lots.filter (fun e => decide (now ≤ e.2))
    creditUsed := gone.foldl max x.creditUsed
    tx := if gone.isEmpty then x.tx else x.tx.map (fun m => { m with asked := false }) }

/-- Everything asked for has been sent: what is left of the credit was the rounding of whole grants, and ends with them (R207). -/
def Session.spendRest (x : Session) : Session := { x with creditUsed := x.creditLimit, lots := [] }

/-- The GET's data is known: its READ_DATA joins what waits to be sent. -/
def State.queueReply (s : State) (n : Nat) (r : Reply) : State := s.updSes n (fun x => { x with replies := x.replies ++ [r] })

/-- One READ_DATA packet of the oldest reply; the GET's ACK follows the last (Table FAB-9). -/
def State.sendReply (s : State) (n : Nat) (x : Session) (r : Reply) : State :=
  let p := max 1 x.psize
  let d := (r.data.drop (r.sent * p)).take p
  let pkt : Packet :=
    { addr := 0, w0 := s.word0 x 4 0, w1 := w64 (x.params.peerSession.toNat + x.psnNext * 2 ^ 32),
      w2 := w64 (r.msg + r.sent * 2 ^ 32 + r.len * 2 ^ 42), w3 := w64 (r.sent * p), w4 := w64 (d.length * 2 ^ 32), w5 := 0, w6 := 0,
      payload := d, tagOk := true }
  let t : TxPkt := { psn := x.psnNext, msg := r.msg, retries := 0, pkt := pkt }
  let last := decide (r.data.length ≤ (r.sent + 1) * p)
  let s1 := { s with out := s.out ++ s.copies x pkt }.updSes n (fun x => { x with
    psnNext := x.psnNext + 1, unreceipted := x.unreceipted ++ [t]
    replies := if last then x.replies.drop 1 else { r with sent := r.sent + 1 } :: x.replies.drop 1 })
  if last then s1.finishRx n { msg := r.msg, status := r.status, cls := 0, map := 0, result := 0, torn := false } none else s1

/-- What is sent next: a message begun goes on, its packets carrying consecutive PSNs (R184); then replies, then messages in order. -/
def Session.nextOut (x : Session) : Option (Reply ⊕ TxMsg) :=
  match x.tx.find? (fun m => decide (0 < m.sent) && decide (m.sent < m.count)), x.replies, x.nextTx with
  | some m, _, _ => some (.inr m)
  | none, r :: _, _ => some (.inl r)
  | none, [], some m => some (.inr m)
  | none, [], none => none

/-- The window and the PSN space let a packet go (R183, R214). -/
def Session.mayNumber (x : Session) : Bool := decide (x.psnNext < x.cumAcked + 4096) && decide (x.psnNext < 2 ^ 32)

/-- Packets leave in order of message and index, under credit and within the window (R183, R184, R205, R206, R210, R214). -/
def State.pumpTx : Nat → State → Nat → State
  | 0, s, _ => s
  | k + 1, s, n =>
    match s.ses n with
    | none => s
    | some x =>
      if x.st ≠ .open_ ∧ x.st ≠ .closing then s
      else match x.nextOut with
        | none => s.updSes n Session.spendRest
        | some (.inl r) => if x.mayNumber then pumpTx k (s.sendReply n x r) n else s
        | some (.inr m) =>
          let pkt := s.txPacket x m m.sent
          if (m.typ = 3 ∧ m.reserved = false) ∨ x.mayNumber = false then s
          else if x.creditUsed + pkt.cost ≤ x.creditLimit then pumpTx k (s.sendPacket n x m pkt) n
          else if m.asked then s
          else s.askCredit n x m

/-- Packets a session still has to send. -/
def Session.backlog (x : Session) : Nat :=
  sumOf (x.tx.map (fun m => m.count - m.sent)) + sumOf (x.replies.map (fun r => r.data.length / max 1 x.psize + 1)) + 1

def State.pumpSes (s : State) (n : Nat) : State :=
  let s := s.updSes n (fun x => x.lapse s.time)
  State.pumpTx (((s.ses n).map (·.backlog)).getD 0) s n

/-! ### Answering a GET -/

/-- A GET whose bytes are known is answered; the bytes of a poisoned line are zero (Table FAB-9). -/
def State.answerGet (s : State) (n msg : Nat) (data : List Byte) (poison : Bool) : State :=
  match (s.ses n).bind (fun x => x.rx.find? (fun m => m.msg == msg)) with
  | none => s
  | some m => (s.queueReply n { msg := msg, len := m.len, data := data, sent := 0, status := if poison then 0x09 else 0 }).pumpSes n

/-! ### Credit accounting -/

/-- Unreserved credits that are free: the pool less every tenant's reservation or larger use. -/
def State.unreservedFree (s : State) : Nat :=
  s.fld F.FAB_CREDIT.POOL_SIZE -
    sumOf (s.tenants.map (fun e => max e.2.credits (s.creditsInUse (· == e.1))))

/-- Credits left of a tenant's own reservation. -/
def State.ownCredit (s : State) (t : Nat) : Nat :=
  ((Tab.get s.tenants t).map (·.credits)).getD 0 - s.creditsInUse (· == t)

/-! ### Contexts (R188) -/

/-- Contexts that the cache holds (Table ARC-6), and how many of them tenants may take: 256 are kept for firmware (Table PRG-6). -/
def contextRoom : Nat := 16384
def tenantRoom : Nat := 16128

/-- The tenant of a context: a session's, a queue pair's. -/
def State.ctxTenant (s : State) (c : Nat) : Nat :=
  if c % 2 = 0 then s.sesTenant (c / 2) else ((Tab.get s.pe.qps (c / 2)).map (·.tenant)).getD 4096

/-- Contexts of a tenant, in order of number. -/
def State.ctxsOf (s : State) (t : Nat) : List Nat :=
  ((s.fab.sessions.filter (fun e => e.2.tenant == t)).map (fun e => 2 * e.1)) ++
  ((s.pe.qps.filter (fun e => e.2.tenant == t)).map (fun e => 2 * e.1 + 1))

/-- Among the first CONTEXTS_RESIDENT of its tenant. -/
def State.ctxKept (s : State) (c : Nat) : Bool :=
  let t := s.ctxTenant c
  decide (((s.ctxsOf t).filter (fun d => decide (d < c))).length < ((Tab.get s.tenants t).map (·.ctxResident)).getD 0)

def State.evictable (s : State) (c : Nat) : Bool :=
  !s.ctxKept c && (c % 2 == 1 || (match s.ses (c / 2) with
    | some x => x.rx.isEmpty && x.tx.isEmpty && x.parked.isEmpty
    | none => true))

/-- There is a place for the context, those of `l` being resident; `takes` are the contexts among which one may give way to it. -/
def State.ctxRoom (s : State) (l : List Nat) (c : Nat) : Bool :=
  decide (l.length < contextRoom) && (s.ctxTenant c == 0 || decide ((l.filter (fun d => s.ctxTenant d != 0)).length < tenantRoom))

/-- A context whose giving way makes a place for `c`: a tenant's, where the tenants' places are all taken. -/
def State.makesRoom (s : State) (l : List Nat) (c d : Nat) : Bool := s.evictable d && s.ctxRoom (l.filter (· != d)) c

/-- The keys of a session are derived as its context is fetched, where an epoch is agreed (R345). -/
def State.loadKeys (s : State) (n : Nat) : State :=
  s.updSes n (fun x => if x.st = .ready ∨ x.keys.isSome = true then x else { x with keys := some (s.deriveKeys x) })

/-- Contexts come and go; a session's keys go with its context, and are derived again as it comes (R345). -/
def State.setResident (s : State) (c : Nat) (out : Option Nat) (l : List Nat) : State :=
  let s1 := s.updFab (fun f => { f with resident := l })
  let s2 := match out with
    | some v => if v % 2 = 0 then s1.updSes (v / 2) (fun x => { x with keys := none }) else s1
    | none => s1
  if c % 2 = 0 then s2.loadKeys (c / 2) else s2

/-- A context is brought in, the least recently used evictable one giving way; none when there is none. -/
def State.bringContext (s : State) (c : Nat) : Option State :=
  let l := s.fab.resident.filter (· != c)
  if s.ctxRoom l c then some (s.setResident c none (l ++ [c]))
  else match l.find? (s.makesRoom l c) with
    | some v => some (s.setResident c (some v) (l.filter (· != v) ++ [c]))
    | none => none

end Sys2Proof.Machine
end

