-- ==== Sys2Proof/Machine/Ingress.lean ====
section
/-! DEFINITION. The durability contract (02): what a read returns, admission of units to the ingress buffer, ceiling
charges, mirror frames, settlement of a unit at its door, commit and failure. -/

namespace Sys2Proof.Machine

/-! ### Reading -/

def cellIn (cs : List Host.Cell) (a : Nat) : Option Byte := (cs.find? (fun c => c.1 == a)).map (·.2)

/-- Cells of the committed units and mirror copies not yet placed, newest last. -/
def State.visibleCells (s : State) : List (List Host.Cell) :=
  (s.phl.copies.filter (·.committed)).map (·.cells) ++ (s.pst.units.filter (·.committed)).map (·.cells)

/-- The committed byte at a DPA: the ingress copy over the near cache over DDR5 (R24, R46). -/
def State.byte (s : State) (a : Nat) : Byte :=
  match s.visibleCells.reverse.findSome? (fun cs => cellIn cs a) with
  | some b => b
  | none => s.backing a

/-- Bytes from a copy's first address to its last. -/
def Copy.span (c : Copy) : Nat :=
  match c.cells.getLast? with
  | some x => x.1 + 1 - c.dpa
  | none => 0

def Copy.overlaps (c : Copy) (lo n : Nat) : Bool := decide (c.dpa < lo + n) && decide (lo < c.dpa + c.span)

/-- Extents over the range, the twin's among them, that have not committed: a read that starts now returns what they will replace
(R62). -/
def State.openExtents (s : State) (lo n : Nat) : List Nat :=
  (s.pst.units.filter (fun u => u.pendingExtent && decide (u.dpa < lo + n) && decide (lo < u.dpa + u.len))).map (·.id) ++
  (s.phl.copies.filter (fun c => c.extent && !c.committed && c.overlaps lo n)).map (·.uid)

/-- A unit that a read must not see: an extent that had not committed when the read began, `bound` units having been taken in
(R62). -/
def CUnit.hiddenFrom (u : CUnit) (bound : Nat) (skip : List Nat) : Bool := u.extent && (decide (bound ≤ u.id) || skip.contains u.id)

def Copy.hiddenFrom (c : Copy) (bound : Nat) (skip : List Nat) : Bool := c.extent && (decide (bound ≤ c.uid) || skip.contains c.uid)

/-- The committed byte for a read that began when `bound` units had been taken in and the extents of `skip` had not committed. -/
def State.byteFor (s : State) (bound : Nat) (skip : List Nat) (a : Nat) : Byte :=
  match ((s.phl.copies.filter (fun c => c.committed && !c.hiddenFrom bound skip)).map (·.cells) ++
      (s.pst.units.filter (fun u => u.committed && !u.hiddenFrom bound skip)).map (·.cells)).reverse.findSome? (fun cs => cellIn cs a) with
  | some b => b
  | none => s.backing a

def State.bytesFor (s : State) (bound : Nat) (skip : List Nat) (a n : Nat) : List Byte :=
  (List.range n).map (fun i => s.byteFor bound skip (a + i))

def State.bytes (s : State) (a n : Nat) : List Byte := (List.range n).map (fun i => s.byte (a + i))

def State.word64 (s : State) (a : Nat) : Nat := leNat (s.bytes a 8)

def CUnit.overlaps (u : CUnit) (lo n : Nat) : Bool := decide (u.dpa < lo + n) && decide (lo < u.dpa + u.len)

/-- A line of the range is under repair: a demand access waits for it (R367). -/
def State.repairing (s : State) (lo n : Nat) : Bool := s.mem.repairs.any (fun x => decide (x.line < lo + n) && decide (lo < x.line + 64))

/-- A line whose newest ingress entry is not yet committed: a read that arrived when `bound` units had been taken in
waits (R46), also for a mirror copy without MCV or MDROP (R235). It does not wait for the units of `skip`. D0 writes and
extents are the exceptions (R43, R62). -/
def State.lineBlockedBut (s : State) (skip : List Nat) (lo n bound : Nat) : Bool :=
  s.pst.units.any (fun u => decide (u.id < bound) && !skip.contains u.id && !u.committed && !u.extent && u.cls != .d0 && u.overlaps lo n) ||
  s.phl.copies.any (fun c => decide (c.uid < bound) && !skip.contains c.uid && !c.committed && !c.extent && c.overlaps lo n) ||
  s.repairing lo n

def State.lineBlocked (s : State) (lo n bound : Nat) : Bool := s.lineBlockedBut [] lo n bound

/-- A line of the range is poisoned. -/
def State.poisoned (s : State) (lo n : Nat) : Bool := (linesOf lo n).any (fun l => s.poison.contains l)

/-- The ingress units replaced. -/
def State.setUnits (s : State) (l : List CUnit) : State := { s with pst := { s.pst with units := l } }

/-- One unit changed. -/
def State.updUnit (s : State) (id : Nat) (f : CUnit → CUnit) : State :=
  s.setUnits (updAll (fun x => x.id == id) f s.pst.units)

/-- One region descriptor changed. -/
def State.updRegion (s : State) (n : Nat) (f : Region → Region) : State :=
  { s with regions := Tab.upd s.regions n f }

/-- One command changed. -/
def State.updCmd (s : State) (c : Nat) (f : Cmd → Cmd) : State :=
  { s with pe := { s.pe with cmds := Tab.upd s.pe.cmds c f } }

/-- One outstanding operation of a command changed. -/
def State.updOp (s : State) (c op : Nat) (f : Op → Op) : State :=
  s.updCmd c (fun c => { c with ops := updAll (fun o => o.id == op) f c.ops })

/-! ### Mirror frames -/

/-- The bytes an atomic stores, from the eight bytes before it (R157). -/
def atomicStore (a : Atomic) (old : Nat) : Nat :=
  match a with
  | .add v => (old + v.toNat) % 2 ^ 64
  | .cas c w => if old = c.toNat then w.toNat else old

/-- Cells of units that stand one after another in region order, newest first, an atomic's as it will store them (R157). -/
def State.cellsAfter (s : State) : List CUnit → List Host.Cell → List Host.Cell
  | [], acc => acc
  | v :: l, acc =>
    match v.atomic with
    | none => s.cellsAfter l (v.cells ++ acc)
    | some a =>
      let old := leNat ((List.range 8).map (fun i => (cellIn acc (v.dpa + i)).getD (s.byte (v.dpa + i))))
      s.cellsAfter l (cellsAt v.dpa (leBytes 8 (atomicStore a old)) ++ acc)

/-- The bytes of a range just before unit `u` in its region's order. -/
def State.bytesBefore (s : State) (u : CUnit) (dpa n : Nat) : List Byte :=
  let acc := s.cellsAfter ((s.pst.units.takeWhile (fun v => v.id != u.id)).filter (fun v => v.region == u.region && v.charged)) []
  (List.range n).map (fun i => (cellIn acc (dpa + i)).getD (s.byte (dpa + i)))

/-- All bytes of a unit, a partial write's other bytes as they stand before it. -/
def State.mergedBytes (s : State) (u : CUnit) : List Byte :=
  if u.cells.length = u.len then u.cells.map (·.2)
  else
    let l := s.bytesBefore u u.dpa u.len
    (List.range u.len).map (fun i => (cellIn u.cells (u.dpa + i)).getD (l.getD i 0))

/-- The bytes a unit travels with: all it covers; for an atomic, its operands in an MFWD and what it stores in an MDATA
(Table TWN-4). -/
def State.unitData (s : State) (u : CUnit) : List Byte :=
  match u.atomic with
  | none => s.mergedBytes u
  | some a =>
    if u.away then (match a with
      | .add v => leBytes 8 v.toNat
      | .cas c w => leBytes 8 c.toNat ++ leBytes 8 w.toNat)
    else leBytes 8 (atomicStore a (leNat (s.bytesBefore u u.dpa 8)))

/-- Frames of a unit of `n` data bytes: 16,384 bytes at most in each (Table TWN-3). -/
def framesOf (n : Nat) : Nat := max 1 ((n + 16383) / 16384)

/-- AUX of an MFWD: the door in [1:0], the kind in [9:8] (Table TWN-4). -/
def mfwdAux (u : CUnit) : Nat :=
  (match u.door with
   | .strand _ _ => 0
   | .fabric _ _ _ => 1
   | .cxl _ _ => 2
   | _ => 0) +
  256 * (match u.atomic, u.record with
   | some (.add _), _ => 1
   | some (.cas _ _), _ => 2
   | none, some _ => 3
   | none, none => 0)

/-- A cell is added to runs of bytes at consecutive addresses. -/
def addRun (c : Host.Cell) : List (Nat × List Byte) → List (Nat × List Byte)
  | [] => [(c.1, [c.2])]
  | (a, l) :: r => if a = c.1 + 1 then (c.1, c.2 :: l) :: r else (c.1, [c.2]) :: (a, l) :: r

/-- Cells as runs of bytes at consecutive addresses. -/
def cellRuns (l : List Host.Cell) : List (Nat × List Byte) := l.foldr addRun []

/-- A run of bytes in frames of 16,384 bytes at most (Table TWN-3). -/
def frameSplit (e : Nat × List Byte) : List (Nat × List Byte) :=
  (List.range (framesOf e.2.length)).map (fun i => (e.1 + 16384 * i, (e.2.drop (16384 * i)).take 16384))

/-- The bytes of a unit that its pieces sent ahead leave (R61). -/
def runsLeft (ahead : List (Nat × Nat)) (dpa : Nat) (data : List Byte) : List (Nat × List Byte) :=
  if ahead.isEmpty then [(dpa, data)]
  else cellRuns ((cellsAt dpa data).filter (fun c => !ahead.any (fun p => decide (p.1 ≤ c.1) && decide (c.1 < p.1 + p.2))))

/-- What a unit's copy is sent as, in frames: 16,384 bytes each at most (Table TWN-3). A partial write that the twin orders
goes as the runs of its enabled bytes, since the others are the home's to keep (R81; DEDUCED, notes/assumptions/78.md). -/
def State.frameParts (s : State) (u : CUnit) : List (Nat × List Byte) :=
  let data := s.unitData u
  if u.away && u.atomic.isNone && u.cells.length != u.len then
    (match cellRuns u.cells with
     | [] => [(u.dpa, [])]
     | l => l)
  else (runsLeft u.ahead u.dpa data).flatMap frameSplit

/-- The unit's next frame is sent: the last brings the unit its MSN. -/
def State.sendPart (s : State) (u : CUnit) (e : Nat × List Byte) (last : Bool) : State :=
  let m := s.phl.txNext
  (s.sendFrame { Frame.mk0 (if u.away then 2 else 1) with
    cls := u.cls, last := last, region := u.region, dpa := e.1, position := u.position,
    ref := if u.away then 0 else u.xref.getD 0, aux := if u.away then mfwdAux u else 0, data := e.2 }).updUnit u.id (fun x =>
      { x with parts := x.parts + 1, first := if x.parts = 0 then m else x.first, msn := if last then some m else none })

/-- Frames of a unit, as far as credit lets them go (R224, R276). -/
def State.sendParts (s : State) (u : CUnit) : List (Nat × List Byte) → State
  | [] => s
  | e :: l => if s.dataFits e.2.length then (s.sendPart u e l.isEmpty).sendParts u l else s.updPhl (fun x => { x with stalled := true })

/-- The unit's copy goes to the twin as MDATA (R231) or, at the door that is not home, as MFWD (R238); the last of its
frames carries LAST, and its MSN is the unit's. Frames of an extent refer to its XOPEN (R61, R236; DESIGN CHOICE,
notes/assumptions/98.md). -/
def State.sendUnit (s : State) (u : CUnit) : State :=
  let s1 := s.sendParts u ((s.frameParts u).drop u.parts)
  if u.away && !s1.phl.stalled then s1.bump F.PHL_CNT2.FORWARDED else s1

/-- An extent that the twin has an XOPEN of is given up: the twin releases its part (R234, R236). -/
def State.dropXopen (s : State) (e : Extent) (st : Status) : State :=
  match e.xopen with
  | some m => s.sendFrame { Frame.mk0 5 with region := e.region, ref := m, aux := st.toNat }
  | none => s

/-- A unit the twin forwarded (R238). -/
def CUnit.forwarded (u : CUnit) : Bool :=
  match u.door with
  | .twin _ => true
  | _ => false

/-- The home answers a forwarded unit it has ordered: its position, and for an atomic the value before and the stored one
(R238). The door's acknowledgement of this frame is the unit's mirror copy. -/
def State.sendOrder (s : State) (u : CUnit) : State :=
  match u.door with
  | .twin m =>
    let old := leNat (s.bytesBefore u u.dpa 8)
    let data := match u.atomic with
      | some a => leBytes 8 old ++ leBytes 8 (atomicStore a old)
      | none => []
    (s.sendFrame { Frame.mk0 3 with cls := u.cls, region := u.region, dpa := u.dpa, position := u.position, ref := m, data := data }).updUnit
      u.id (fun x => { x with msn := some s.phl.txNext })
  | _ => s

/-- Units that have reached their D1 point and whose copy, or order, has not been sent, in order of admission (R231). -/
def State.toMirror (s : State) : List CUnit :=
  s.pst.units.filter (fun u => !u.committed && u.written && u.chained && u.msn == none && !u.inDoubt && u.hold == .none &&
    (u.away || (u.charged && (u.cls == .d2 || u.cls == .d3 || u.forwarded) && !(u.forwarded && u.record.isSome) &&
      !((u.cls == .d2 || u.cls == .d3) && s.rangeSolo u.dpa u.len))))

/-- Every copy that can be sent is sent, in order; those behind one that waits for credit wait with it, orders excepted (R276).
While no channel is live the frames wait (R65). -/
def State.pumpMirror (s : State) : State :=
  match s.channel with
  | some _ =>
    s.toMirror.foldl (fun s u => if u.forwarded then s.sendOrder u else if s.phl.stalled then s else s.sendUnit u)
      (s.updPhl (fun x => { x with stalled := false }))
  | none => s

/-! ### Ceiling zones and charges (08) -/

/-- The zone of Table CEI-3 for the present level, GREEN kept from AMBER only 5 points below SOFT_PCT. -/
def State.zoneNow (s : State) : Nat :=
  let soft := s.fld F.DST_CEIL_CTL.SOFT_PCT
  if s.poolKib < s.levelKib then 2
  else if soft * s.poolKib ≤ 100 * s.levelKib then 1
  else if s.dst.zone ≠ 0 ∧ (soft - 5) * s.poolKib ≤ 100 * s.levelKib then 1
  else 0

/-- The zone follows the level, with the records of Table CEI-3 (R272). `cause` names RED's cause: 1 a fall in C_eff. -/
def State.zoneStep (s : State) (cause : Nat) : State :=
  let z := s.zoneNow
  if z = s.dst.zone then s
  else
    let s1 := { s with dst := { s.dst with zone := z } }
    if z = 0 then s1.recState sevNotice .dst F.DST_CEIL_STATUS.ZONE
    else if z = 1 then
      let s2 := s1.bump F.DST_CNT0.AMBER_ENTRIES
      (match s.dst.lastAmber with
       | some t => if s.time < t + 10000000000 then s2
                   else { s2 with dst := { s2.dst with lastAmber := some s.time } }.recState sevWarn .dst F.DST_CEIL_STATUS.ZONE
       | none => { s2 with dst := { s2.dst with lastAmber := some s.time } }.recState sevWarn .dst F.DST_CEIL_STATUS.ZONE)
    else (s1.bump F.DST_CNT0.RED_ENTRIES).recordFull sevError .dst 1 22 0 Addr.DST_CEIL_STATUS (BitVec.ofNat 64 cause) 0

/-- Clean pages a unit of D1 or above would make dirty (R258). -/
def State.newPages (s : State) (dpa len : Nat) : List Nat :=
  (pagesOf dpa len).filter (fun p => match Tab.get s.dst.pages p with
    | some q => !q.dirty
    | none => true)

/-- The page after a unit of D1 or above was admitted to it (R257, R259). -/
def dirtied (tenant time : Nat) : Option Page → Page
  | none => { dirty := true, tenant := tenant, destaging := false, redirtied := false, since := time, written := true,
              unrestored := false, demand := false }
  | some p =>
    if p.dirty then { p with redirtied := p.redirtied || p.destaging, written := true, demand := p.demand || p.unrestored }
    else { p with dirty := true, tenant := tenant, since := time, written := true, demand := p.demand || p.unrestored }

def dirtyAll (t : Tab Page) (pages : List Nat) (tenant time : Nat) : Tab Page :=
  pages.foldl (fun t p => Tab.put t p (dirtied tenant time (Tab.get t p))) t

/-- Units that wait for a charge, in order of arrival. -/
def State.waitingCharges (s : State) : List CUnit := 
  s.pst.units.filter (fun u => !u.charged && !u.away && !u.committed && u.hold != .order && u.cls != .d0)

/-- A D0 unit of this device: it takes its position as its ingress write completes, and is visible at once (R43). -/
def CUnit.volatile (u : CUnit) : Bool := u.cls == .d0 && !u.away

/-- The unit needs no charge: D0 (R43), or ordered by the twin. -/
def CUnit.free (u : CUnit) : Bool := u.cls == .d0 || u.away

def PstState.append (p : PstState) (l : List CUnit) (u : CUnit) : PstState := { p with units := l ++ [u] }

/-- A charge is granted: the pages become dirty, the unit takes its position in region order (R56) and its place in the
order of admission. -/
def State.enroll (s : State) (u : CUnit) : State :=
  let pos := ((Tab.get s.regions u.region).map (·.nextPos)).getD 0 + 1
  { s with
    regions := Tab.upd s.regions u.region (fun r => { r with nextPos := pos, written := true })
    dst := if u.cls = .d0 then s.dst
           else { s.dst with pages := dirtyAll s.dst.pages (pagesOf u.dpa u.len) u.tenant s.time }
    pst := s.pst.append (s.pst.units.filter (fun x => x.id != u.id)) { u with charged := true, hold := .none, position := pos } }

/-- A D0 or D1 unit of a region homed here, in a channel that is out: it fails with ST_MODE (R498). -/
def State.modeOut (s : State) (u : CUnit) : Bool := !u.away && (u.cls == .d0 || u.cls == .d1) && s.rangeAway u.dpa u.len

/-- A strand write of D1 or above, intake being closed in DRAIN: it waits at admission (R458). -/
def State.closedOut (s : State) (u : CUnit) : Bool :=
  (match s.mod.mode with
   | .drain => s.mod.intakeClosed
   | _ => false) && (match u.door with
   | .strand _ _ => true
   | _ => false)

/-- Whether the charge of a waiting unit would be granted now, by itself (R273). -/
def State.chargeFits (s : State) (u : CUnit) : Bool :=
  u.free || (!s.modeOut u && !s.closedOut u && ((s.newPages u.dpa u.len).isEmpty || s.grantable u.tenant (16 * (s.newPages u.dpa u.len).length)))

/-- An earlier charge of the same tenant waits (R274: granted strictly in arrival order). -/
def State.tenantWaits (s : State) (t id : Nat) : Bool :=
  s.waitingCharges.any (fun v => v.tenant == t && decide (v.id < id) && !v.free && !s.closedOut v)

/-- The charge of a mirror copy would be granted now (R276). -/
def State.copyFits (s : State) (c : Copy) : Bool :=
  let tenant := ((Tab.get s.regions c.region).map (·.tenant)).getD 0
  (s.newPages c.dpa c.span).isEmpty || s.grantable tenant (16 * (s.newPages c.dpa c.span).length)

/-- Committed copies that wait for their charge, the oldest of each region first (R274). -/
def State.waitingCopies (s : State) : List Copy :=
  let l := s.phl.copies.filter (fun c => c.committed && !c.charged)
  let tenant (c : Copy) : Nat := ((Tab.get s.regions c.region).map (·.tenant)).getD 0
  l.filter (fun c => !(l.takeWhile (fun d => d.msn != c.msn)).any (fun d => tenant d == tenant c))

/-- A mirror copy is charged to the tenant of its region. -/
def State.chargeCopy (s : State) (c : Copy) : State :=
  let tenant := ((Tab.get s.regions c.region).map (·.tenant)).getD 0
  let s1 := { s with
    phl := { s.phl with copies := updAll (fun d => d.msn == c.msn) (fun d => { d with charged := true }) s.phl.copies }
    dst := { s.dst with pages := dirtyAll s.dst.pages (pagesOf c.dpa c.span) tenant s.time } }
  s1.zoneStep 0

def State.chargeCopiesN : Nat → State → State
  | 0, s => s
  | k + 1, s =>
    match s.waitingCopies.find? (fun c => s.copyFits c) with
    | some c => chargeCopiesN k (s.chargeCopy c)
    | none => s

/-- Every waiting copy whose charge fits is charged. -/
def State.chargeCopies (s : State) : State := s.chargeCopiesN s.phl.copies.length

/-! ### Admission -/

/-- Crossing and direction by which a door's write data reaches PST (Table ARC-2); none for PST's own writes. -/
def Door.crossing : Door → Option Nat
  | .cxl _ _ => some 0
  | .fabric _ _ _ => some 6
  | .strand _ _ => some 24
  | .twin _ => some 11
  | .journal _ _ => none
  | .completion _ => none
  | .device => none

/-- A new unit for region `n`. -/
def mkUnit (id n : Nat) (r : Region) (dpa len : Nat) (cells : List Host.Cell) (cls : Class) (door : Door) (away : Bool) :
    CUnit :=
  { id := id, region := n, tenant := r.tenant, dpa := dpa, len := len, cells := cells, cls := cls, downgrade := r.downgrade,
    wpol := r.wpol,
    door := door, written := false, charged := false, hold := .none, msn := none, copied := false, away := away,
    parts := 0, first := 0, position := 0, committed := false, reached := .d0, extent := false, atomic := none, record := none, chained := true,
    poison := false, inDoubt := false, zeros := false, pooled := none, xref := none, ahead := [] }

/-- The charge of a unit in the buffer is requested (R258): it is enrolled at once when the charge is granted or none is
needed. A D0 unit needs none and has no position yet. -/
def State.request (s : State) (u : CUnit) : State :=
  if u.volatile then s
  else if u.hold = .none ∧ s.chargeFits u ∧ (u.free ∨ s.tenantWaits u.tenant u.id = false) then
    ((s.enroll u).zoneStep 0).pumpMirror
  else if u.free ∨ u.hold = .order ∨ s.modeOut u = true then s
  else (s.bump F.DST_CNT1.CHARGE_WAITS).countEvent 0x051 1 (some u.tenant) none

/-- The unit's tenant has asked for a charge (R273). -/
def State.asks (s : State) (u : CUnit) : State :=
  if u.free ∨ u.hold = .order then s else { s with dst := { s.dst with asked := Tab.put s.dst.asked u.tenant s.time } }

/-- The twin orders the unit: its region is homed there, or its pages lie in a channel that is out here; never while this
device serves the range for the twin (R54, R498). -/
def State.awayAt (s : State) (u : CUnit) : Bool :=
  !s.rangeSolo u.dpa u.len && (u.away || ((u.cls == .d2 || u.cls == .d3) && !u.forwarded && s.rangeAway u.dpa u.len))

/-- A unit enters the ingress buffer: its data starts across its crossing, and its charge is requested. -/
def State.admitUnit (s : State) (u : CUnit) : State :=
  let u := { u with id := s.pst.nextUnit, written := u.door.crossing == none, away := s.awayAt u }
  let s1 := { s with
    pst := { s.pst with units := s.pst.units ++ [u], nextUnit := s.pst.nextUnit + 1 }
    xing := match u.door.crossing with
      | some k => Tab.put s.xing k ((Tab.get s.xing k).getD [] ++ [XItem.write u.id])
      | none => s.xing }
  (s1.asks u).request u

/-! ### Turns of a fabric session (R210) -/

/-- A packet whose message's turn has come asks for its charge and its place in region order. -/
def State.takeTurn (s : State) (u : CUnit) : State :=
  let u := { u with hold := .none }
  ((s.updUnit u.id (fun x => { x with hold := .none })).asks u).request u

/-- A message of the session is refused: it has no effect. -/
def refusal (msg : Nat) (st : Status) : AckInfo := { msg := msg, status := st, cls := 0, map := 0, result := 0, torn := true }

/-- A SUBMIT writes its entry at the tail of the SQ ring and advances SQ_TAIL (Table FAB-9). -/
def State.submitEntry (s : State) (n : Nat) (m : RxMsg) (q : Qp) : State :=
  let dpa := q.sqBase + 64 * q.sqTail
  match s.regionAt dpa with
  | none => s.finishRx n (refusal m.msg ST.bounds) none
  | some (k, r) =>
    let id := s.pst.nextUnit
    let s1 := s.updSes n (updMsg m.msg (fun m => { m with entry := [], units := [{ idx := 0, unit := id, settle := .pending }] }))
    let q' := { q with sqTail := (q.sqTail + 1) % q.depth }
    { s1 with pe := { s1.pe with qps := Tab.put s1.pe.qps m.base q' } }.admitUnit
      (mkUnit id k r dpa 64 (cellsAt dpa m.entry) .d0 (.fabric n m.msg false) (!s.isHome r))

/-- A SUBMIT whose turn has come (R201). -/
def State.submit (s : State) (n : Nat) (m : RxMsg) : State :=
  match Tab.get s.pe.qps m.base with
  | none => s.finishRx n (refusal m.msg ST.rights) none
  | some q =>
    if q.tenant ≠ s.sesTenant n then s.finishRx n (refusal m.msg ST.rights) none
    else if (q.sqTail + 1) % q.depth = q.sqHead then s.finishRx n (refusal m.msg ST.busy) none
    else s.submitEntry n m q

/-- A unit of the session that waits for its turn, and has it. -/
def State.turnUnit (s : State) (n : Nat) : Option CUnit :=
  s.pst.units.find? (fun u => u.hold == .order && (match u.door with
    | .fabric k msg f => k == n && s.fabricTurn n msg f u.id
    | _ => false))

/-- A SUBMIT of the session whose turn has come. -/
def State.turnSubmit (s : State) (n : Nat) : Option RxMsg :=
  (s.ses n).bind (fun x => x.rx.find? (fun m => !m.entry.isEmpty && s.fabricTurn n m.msg m.final.isSome s.pst.nextUnit))

def State.runTurns : Nat → State → Nat → State
  | 0, s, _ => s
  | k + 1, s, n =>
    match s.turnUnit n, s.turnSubmit n with
    | some u, _ => runTurns k (s.takeTurn u) n
    | none, some m => runTurns k (s.submit n m) n
    | none, none => s

/-- Every packet and SUBMIT of the session whose turn has come proceeds. -/
def State.turns (s : State) (n : Nat) : State :=
  s.runTurns (s.pst.units.length + ((s.ses n).map (·.rx.length)).getD 0 + 1) n

/-! ### The doors hear of a unit -/

/-- First failure of an LD since its last CLEAR (Table HST-4). -/
def LdState.fail (l : LdState) (dpa : Nat) (st : Status) : LdState :=
  { l with
    status := if l.status = 0 then st else l.status
    failCount := min (2 ^ 64 - 1) (l.failCount + 1)
    firstFail := if l.status = 0 then dpa else l.firstFail }

def LdState.settle (l : LdState) (id dpa : Nat) (r : Settle) : LdState :=
  let l := { l with taken := updAll (fun t => t.id == id) (fun t => { t with settle := r }) l.taken }
  match r with
  | .failed st => l.fail dpa st
  | _ => l

def State.setLd (s : State) (p : Port) (ld : Nat) (l : LdState) : State :=
  { s with hst := { s.hst with lds := Tab.put s.hst.lds (ldKey p ld) l } }

/-- The door of a unit learns what became of it. -/
def State.settleDoor (s : State) (u : CUnit) (r : Settle) : State :=
  match u.door with
  | .cxl p ld => s.setLd p ld ((s.ld p ld).settle u.id u.dpa r)
  | .strand c _ => s.updCmd c (fun c =>
      { c with hist := updAll (fun h => h.id == u.id) (fun h => { h with settle := r }) c.hist })
  | .journal c st => (match r with
      | .reached _ => s.updCmd c (fun c =>
          { c with accepted := true, closed := c.closed || st == JState.durable.code || st == JState.failed.code })
      | _ => s)
  | .fabric ses msg _ => (s.settleFabric ses msg u.id r).turns ses
  | .twin m => (match r, u.msn with
      | .failed st, none => s.sendFrame { Frame.mk0 3 with region := u.region, ref := m, aux := st.toNat }
      | _, _ => s)
  | .completion _ | .device => s

/-! ### CXL reads that waited -/

/-- DevLoad of an LD (Table HST-4a). -/
def State.devLoad (s : State) (p : Port) (ld : Nat) : Nat :=
  let t := s.fld (F.HST_LD_MAP.TENANT p ld)
  let held := s.pst.units.any (fun u => u.hold != .none && u.door == .cxl p ld)
  let lt := 16 * s.tenantPages t
  let share := s.share t * 1024
  if held || !s.hst.headroom.contains t then 3
  else if share * s.fld (F.HST_ADM_CTL.MOD_PCT p) ≤ 100 * lt then 2
  else if share * s.fld (F.HST_ADM_CTL.LIGHT_PCT p) ≤ 100 * lt then 1
  else 0

/-- A read can be answered: its snapshot is complete, or no pending entry meets it and its pages are restored. -/
def State.readReady (s : State) (q : ReadReq) : Bool :=
  match q.snap with
  | some _ => q.pend.isEmpty
  | none => !s.lineBlockedBut q.pend q.dpa q.len q.bound && !s.awaitsRestore q.dpa q.len

/-- The committed byte without the units admitted from `bound` on and those of `skip`. -/
def State.byteAsOf (s : State) (bound : Nat) (skip : List Nat) (a : Nat) : Byte :=
  match ((s.phl.copies.filter (fun c => c.committed && decide (c.uid < bound) && !skip.contains c.uid)).map (·.cells) ++
      (s.pst.units.filter (fun u => u.committed && decide (u.id < bound) && !skip.contains u.id)).map (·.cells)).reverse.findSome?
        (fun cs => cellIn cs a) with
  | some b => b
  | none => s.backing a

/-- The bytes a read returns: a GET's at its position (R199), any other's now. A read that waits keeps in `pend` the extents
that had not committed when it came (R62). -/
def State.readBytes (s : State) (q : ReadReq) : List Byte :=
  match q.snap, q.reader with
  | some l, _ => l
  | none, .get _ _ => (List.range q.len).map (fun i => s.byteAsOf q.bound q.pend (q.dpa + i))
  | none, _ => s.bytesFor q.bound q.pend q.dpa q.len

/-- The bytes of poisoned lines replaced by zero (Table FAB-9). -/
def State.maskPoison (s : State) (dpa : Nat) (l : List Byte) : List Byte :=
  (l.zip (List.range l.length)).map (fun e => if s.poison.contains (lineOf (dpa + e.2)) then 0 else e.1)

/-- Reads that return poison are counted (R379). -/
def State.poisonRead (s : State) (bad : Bool) : State := if bad then s.bump F.MEM_CNT2.POISON_READS else s

def State.answerRead (s : State) (q : ReadReq) : State :=
  match q.reader with
  | .cxl p ld tag =>
    let bad := s.poisoned q.dpa q.len
    let data := if bad then List.replicate q.len 0 else s.readBytes q
    (s.poisonRead bad).emit (.cxlData p ld tag data bad (s.devLoad p ld))
  | .get n msg => ((s.poisonRead (s.poisoned q.dpa q.len)).answerGet n msg (s.maskPoison q.dpa (s.readBytes q)) (s.poisoned q.dpa q.len)).turns n
  | .twin msn => (s.poisonRead (s.poisoned q.dpa q.len)).emit (.twinData msn (s.readBytes q) (s.poisoned q.dpa q.len))

/-- Every waiting read that can be answered is answered, in order of arrival. -/
def State.serveReads (s : State) : State :=
  (s.hst.reads.filter (fun q => s.readReady q)).foldl (fun t q => t.answerRead q)
    { s with hst := { s.hst with reads := s.hst.reads.filter (fun q => !s.readReady q) } }

/-- A GET at its position takes the bytes of an earlier unit that commits after its arrival, and forgets one that
fails (R199). -/
def snapUnit (u : CUnit) (cells : List Host.Cell) (ok : Bool) (q : ReadReq) : ReadReq :=
  if q.snap.isSome && q.pend.contains u.id then
    { q with
      pend := q.pend.filter (· != u.id)
      snap := q.snap.map (fun l => if ok then
        (l.zip (List.range l.length)).map (fun e => (cellIn cells (q.dpa + e.2)).getD e.1) else l) }
  else q

def State.snapUnits (s : State) (u : CUnit) (cells : List Host.Cell) (ok : Bool) : State :=
  { s with hst := { s.hst with reads := s.hst.reads.map (snapUnit u cells ok) } }

/-! ### RwD credit of the host ports (R27, R84, R85, R91) -/

def State.setPort (s : State) (p : Port) (q : PortState) : State :=
  match p with
  | .hp0 => { s with hst := { s.hst with hp0 := q } }
  | .hp1 => { s with hst := { s.hst with hp1 := q } }

/-- One RwD credit goes back to the host: not while the link is down, whose next training grants afresh (R91), nor after intake
stop (R31); withheld while mirror traffic backs up (R27). -/
def State.giveCredit (s : State) (p : Port) : State :=
  let q := s.port p
  if q.link ≠ 2 ∨ s.mod.mode = .save then s
  else if s.mirrorBacklog then s.setPort p { q with owed := q.owed + 1 }
  else (s.setPort p { q with credits := q.credits + 1 }).emit (.cxlCredits p 1)

/-- The credits withheld for mirror traffic go back once it no longer backs up (R27). -/
def State.payCredits (s : State) (p : Port) : State :=
  let q := s.port p
  if q.owed = 0 ∨ q.link ≠ 2 ∨ s.mod.mode = .save ∨ s.mirrorBacklog = true then s
  else (s.setPort p { q with credits := q.credits + q.owed, owed := 0 }).emit (.cxlCredits p q.owed)

/-- A place in the hold pool falls free: the oldest write held in the space of its credit moves in, and that credit is
returned (Table HST-3, row 3). -/
def State.poolFreed (s : State) (p : Port) : State :=
  match (s.heldIn p .credit).head? with
  | some v => (s.updUnit v.id (fun u => { u with hold := .pool })).giveCredit p
  | none => s

/-- A CXL write has left the place where it was held. -/
def State.leaveHold (s : State) (u : CUnit) : State :=
  match u.door, u.hold with
  | .cxl p _, .pool => s.poolFreed p
  | .cxl p _, .credit => s.giveCredit p
  | _, _ => s

/-! ### Commit and failure -/

/-- The class a unit can reach now: none while it must wait (Table DUR-1, R65, R66, R254). -/
def State.reachable (s : State) (u : CUnit) : Option Class :=
  match u.cls with
  | .d0 => some .d0
  | .d1 => some .d1
  | c =>
    if s.rangeSolo u.dpa u.len then (if u.downgrade then some .d1 else none)
    else match s.phl.twin with
    | .alone | .absent => if u.downgrade then some .d1 else none
    | .resyncOut =>
      if u.copied && !(pagesOf u.dpa u.len).any (fun p => s.phl.resyncLeft.contains p) then some c else none
    | _ => if u.copied then some c else none

/-- Every unit of the region admitted before `u` has committed or failed (R56). -/
def State.regionTurn (s : State) (u : CUnit) : Bool :=
  !((s.pst.units.takeWhile (fun v => v.id != u.id)).any (fun v => v.region == u.region && v.charged && !v.committed))

/-- The door's own order (Table DUR-5). -/
def State.doorTurn (s : State) (u : CUnit) : Bool :=
  match u.door with
  | .fabric ses msg f => s.fabricTurn ses msg f u.id
  | _ => true

/-- A unit may reach its commit point. -/
def State.commitReady (s : State) (u : CUnit) : Bool :=
  !u.committed && u.written && u.charged && !u.away && !u.inDoubt && u.chained && (s.reachable u).isSome &&
  s.regionTurn u && s.doorTurn u

/-- The value before an atomic goes to the operation that issued it. -/
def State.giveOld (s : State) (u : CUnit) (old : Nat) : State :=
  match u.door with
  | .strand c op => s.updOp c op (fun o => { o with y := BitVec.ofNat 64 old })
  | .fabric ses msg _ => s.fabricResult ses msg (BitVec.ofNat 64 old)
  | _ => s

/-- Marks of the separation bitmap while serving alone (R252). -/
def markPages (l : List Nat) (pages : List Nat) : List Nat := l ++ pages.filter (fun p => !l.contains p)

/-- A unit reaches its commit point at class `c` (R45, R46). -/
def State.commit (s : State) (u : CUnit) (c : Class) : State :=
  let old := s.word64 u.dpa
  let cells := match u.atomic with
    | some a => cellsAt u.dpa (leBytes 8 (atomicStore a old))
    | none => u.cells
  let lines := linesOf u.dpa u.len
  let marked := markPages s.phl.separation (pagesOf u.dpa u.len)
  let s0 := s.updUnit u.id (fun x => { x with committed := true, reached := c, cells := cells })
  let s1 := { s0 with
    poison := if u.poison then s.poison ++ lines.filter (fun l => !s.poison.contains l)
              else s.poison.filter (fun l => !(decide (u.cells.length = u.len) && decide (u.dpa ≤ l) && decide (l + 64 ≤ u.dpa + u.len)))
    phl := if (s.phl.twin = Twin.alone ∨ s.phl.twin = Twin.absent ∨ s.rangeSolo u.dpa u.len = true) ∧ u.cls ≠ Class.d0 then { s.phl with separation := marked } else s.phl }
  let s2 := if u.atomic.isSome then s1.giveOld u old else s1
  let s3 := if c = .d1 ∧ (u.cls = .d2 ∨ u.cls = .d3) then
      let s' := s2.bump F.PST_DUR_CNT0.DOWNGRADED
      match Tab.get s.regions u.region with
      | some r => if r.warned then s' else
          (s'.updRegion u.region (fun r => { r with warned := true })).record sevWarn .pst 3 0 u.region Addr.PST_DUR_CNT0
      | none => s'
    else s2
  let s4 := match u.msn, u.door with
    | none, .twin m => if c = Class.d1 ∧ (u.cls = Class.d2 ∨ u.cls = Class.d3) then
        s3.sendFrame { Frame.mk0 3 with cls := .d1, region := u.region, dpa := u.dpa, position := u.position, ref := m } else s3
    | none, _ => s3
    | some m, _ => if c = Class.d2 ∨ c = Class.d3 then
        s3.sendFrame { Frame.mk0 4 with region := u.region, aux := m, data := leBytes 64 1 } else s3
  let s5 := match c with
    | .d0 => s4
    | .d1 => s4.countEvent 0x040 1 (some u.tenant) none
    | .d2 => s4.countEvent 0x041 1 (some u.tenant) none
    | .d3 => s4.countEvent 0x042 1 (some u.tenant) none
  let s6 := match u.record with
    | some id => s5.sealCommit u.region id c
    | none => s5
  ((s6.snapUnits u cells true).settleDoor u (.reached c)).serveReads

/-- The units an earlier failure takes with it: uncommitted atomics of the region after it (R157), and after a record or
checkpoint every later one (R354). -/
def State.failsWith (s : State) (u : CUnit) : List CUnit :=
  if u.position = 0 then []
  else ((s.pst.units.dropWhile (fun v => v.id != u.id)).drop 1).filter
    (fun v => v.region == u.region && !v.committed && v.charged &&
      (v.atomic.isSome || (u.record.isSome && v.record.isSome)))

/-- A unit that fails for want of a mirror copy is counted (R66, R77). -/
def State.refused (s : State) (st : Status) : State := if st = ST.nomirror then s.bump F.PST_DUR_CNT0.REFUSED else s

/-- REF of the MDROP for a unit that the twin has a part of: the first of its frames, an extent's XOPEN (R234, R236). -/
def CUnit.dropRef (u : CUnit) : Option Nat :=
  if u.away then none
  else match u.xref with
    | some m => some m
    | none => if u.parts = 0 then none else some u.first

/-- One unit fails with a status: it has no effect, its door hears of it, the twin drops its copy (R234). -/
def State.failOne (s : State) (u : CUnit) (st : Status) : State :=
  let s1 := s.setUnits (s.pst.units.filter (fun x => x.id != u.id))
  let s2 := match u.dropRef with
    | some m => s1.sendFrame { Frame.mk0 5 with region := u.region, ref := m, aux := st.toNat }
    | none => s1
  (((s2.refused st).leaveHold u).snapUnits u [] false).settleDoor u (.failed st)

/-- A unit fails, and with it the atomics positioned after it. -/
def State.failUnit (s : State) (u : CUnit) (st : Status) : State :=
  let s1 := (s.failsWith u).foldl (fun s v => s.failOne v st) (s.failOne u st)
  (if u.record.isSome then s1.sealFail u.region else s1).serveReads

def State.failAll (s : State) (us : List CUnit) (st : Status) : State :=
  us.foldl (fun s u => if u.record.isSome then (s.failOne u st).sealFail u.region else s.failOne u st) s

/-- R66: on entry to ALONE every waiting unit that needs D2 or D3 in a REFUSE region fails; the others may now commit
at D1. -/
def State.soloPolicy (s : State) : State :=
  ((s.pst.units.filter (fun u => !u.committed && (u.cls == .d2 || u.cls == .d3) && !u.downgrade)).foldl
    (fun t u => if t.pst.units.any (fun v => v.id == u.id && !v.committed) then t.failUnit u ST.nomirror else t) s).serveReads

/-- Every unit of the region admitted before `u` for a line of `u` has committed or failed (R59). -/
def State.linesTurn (s : State) (u : CUnit) : Bool :=
  !((s.pst.units.takeWhile (fun v => v.id != u.id)).any (fun v =>
    v.region == u.region && v.charged && !v.committed && v.overlaps u.dpa u.len))

/-- A D0 unit whose ingress write is complete takes its position and is visible at once (R43); a fabric packet in its turn only, a
forwarded unit once its order has gone out, and a unit for a line of an earlier one after it (R57, R59, R238). Of R43 and R56 the
former is followed where they differ: a D0 unit waits for no unit of other lines (DEDUCED, R46, notes/assumptions/82.md). -/
def State.landD0 (s : State) (id : Nat) : State :=
  match s.pst.units.find? (fun u => u.id == id) with
  | none => s
  | some u =>
    if !(u.volatile && u.written && !u.committed && u.chained && u.hold == .none && s.doorTurn u) then s
    else if s.modeOut u then s.failUnit u ST.mode
    else
      let s1 := if u.charged then s else (s.enroll u).pumpMirror
      match s1.pst.units.find? (fun v => v.id == id) with
      | some v => if (v.forwarded && v.msn.isNone) || !s1.linesTurn v then s1 else s1.commit v .d0
      | none => s1

/-- A unit of the device itself crosses nothing: it is in the buffer at once. -/
def State.admitOwn (s : State) (u : CUnit) : State := (s.admitUnit u).landD0 s.pst.nextUnit

/-! ### Space of PH0_RESERVE -/

/-- Credit of a frame that came over PH0 goes back (R224). -/
def State.returnCredit (s : State) (n : Nat) : State := if s.phl.ph0.up ∧ 0 < n then s.emit (.phCredit n) else s

/-- What a frame brought still takes space of PH0_RESERVE: a copy, a forwarded unit, a record on its way. Pieces of an extent
take the space of its reservation (R224, R236; DEDUCED, notes/assumptions/43.md). -/
def State.holdsSpace (s : State) (m : Nat) : Bool :=
  s.phl.copies.any (fun c => c.msn == m && c.ref.isNone) || s.pst.units.any (fun u => u.door == .twin m) ||
  s.cip.logs.any (fun e => e.2.items.any (fun it => it.door == .twin m))

/-- Credit goes back for the frames whose space has been released (R224). -/
def State.releaseSpace (s : State) : State :=
  let s1 : State := { s with phl := { s.phl with rxHeld := s.phl.rxHeld.filter (fun e => s.holdsSpace e.1) } }
  s1.returnCredit (sumOf ((s.phl.rxHeld.filter (fun e => !s.holdsSpace e.1)).map (·.2)))

/-- The waiting charge that capacity goes to first: of tenants below their guarantee, then the others, each tenant's in
order of arrival (R274). -/
def State.nextCharge (s : State) : Option CUnit :=
  let heads := s.waitingCharges.filter (fun u => !s.tenantWaits u.tenant u.id && s.chargeFits u)
  match heads.find? (fun u => decide (16 * s.tenantPages u.tenant < s.guarantee u.tenant)) with
  | some u => some u
  | none => heads.head?

/-- The status a write gets for its region and requested class (R40, R41, R250); none when it may be admitted. -/
def writeCheck (r : Region) (req : Class) (append : Bool) : Option Status :=
  if r.sealed && !append then some ST.sealed
  else if r.floor = .d0 ∧ req ≠ .d0 then some ST.rights
  else if req = .d3 ∧ r.sealed = false then some ST.rights
  else none

/-- The class of a write: the higher of the class it requests and its region's floor (R40). -/
def Class.max (a b : Class) : Class := if a.code < b.code then b else a

end Sys2Proof.Machine
end

