-- ==== Sys2Proof/Machine/Host.lean ====
section
/-! DEFINITION. The CXL host ports (03_host_ports): reads, writes, holds, links, the commit-fence window, Global
Persistent Flush. -/

namespace Sys2Proof.Machine

/-- The port carries requests: HST runs and its link is in L0. -/
def State.portUp (s : State) (p : Port) : Bool := s.running .hst && (s.port p).link == 2

def State.ldTenant (s : State) (p : Port) (ld : Nat) : Nat := s.fld (F.HST_LD_MAP.TENANT p ld)

/-- The LD can be reached: LD 0 always, the others only through a switch with MLD ports, as an MLD (R79). -/
def State.ldPresent (s : State) (p : Port) (ld : Nat) : Bool :=
  ld == 0 || ((s.port p).mldSwitch && s.on (F.HST_PORT_CTL.MLD p))

def State.ldEnabled (s : State) (p : Port) (ld : Nat) : Bool := s.ldPresent p ld && s.on (F.HST_LD_MAP.ENABLE p ld)

/-! ### HDM decoders (R78, Table HST-1) -/

/-- Ways and granularity that the port supports. -/
def hdmWays : List Nat := [1, 2, 4, 8, 16]
def hdmGrans : List Nat := [256, 512, 1024, 2048, 4096, 8192, 16384]

/-- The decoder can be committed. -/
def hdmOk (d : Hdm) : Bool := hdmWays.contains d.ways.toNat && hdmGrans.contains d.gran.toNat && decide (d.index.toNat < d.ways.toNat)

/-- The device address of a host address, where the decoder translates it on this device: of each granule cycle over the ways
the device holds its own granule, one after another (PRESUMED, notes/assumptions/79.md). -/
def hdmTranslate (d : Hdm) (hpa : Nat) : Option Nat :=
  let off := hpa - d.base.toNat
  if d.base.toNat ≤ hpa ∧ off < d.size.toNat ∧ off / d.gran.toNat % d.ways.toNat = d.index.toNat then
    some (d.dpa.toNat + off / (d.gran.toNat * d.ways.toNat) * d.gran.toNat + off % d.gran.toNat)
  else none

/-- The device address that a decoder of the LD gives a host address. -/
def State.hdmDpa (s : State) (p : Port) (ld hpa : Nat) : Option Nat :=
  s.hst.decoders.findSome? (fun e => if e.1 = p ∧ e.2.ld.toNat = ld then hdmTranslate e.2 hpa else none)

/-- A message of the host has come in a flit of its own (R89). -/
def State.flitIn (s : State) (p : Port) : State := s.setPort p { s.port p with rxSeq := ((s.port p).rxSeq + 1) % 1024 }

/-- A write message spends an RwD credit (R84). -/
def State.writeFlit (s : State) (p : Port) : State :=
  (s.flitIn p).setPort p { (s.flitIn p).port p with credits := (s.port p).credits - 1 }

/-- First byte of an LD's fence window, while it is enabled (R92). -/
def State.fenceWindow (s : State) (p : Port) (ld : Nat) : Option Nat :=
  if s.on (F.HST_LD_FENCE.ENABLE p ld) then some (4096 * s.fld (F.HST_LD_FENCE.DPA_PAGE p ld)) else none

/-- The DPA lies in the LD's own enabled fence window. -/
def State.inOwnFence (s : State) (p : Port) (ld dpa : Nat) : Bool :=
  match s.fenceWindow p ld with
  | some b => decide (b ≤ dpa) && decide (dpa < b + 4096)
  | none => false

/-- The DPA lies in some enabled fence window. -/
def State.inAnyFence (s : State) (dpa : Nat) : Bool :=
  [Port.hp0, Port.hp1].any (fun p => (List.range 16).any (fun n => s.inOwnFence p n dpa))

/-- What Table HST-2 makes of a request, own fence window apart. -/
inductive AddrCase where
  | fault (st : Status)
  | region (n : Nat) (r : Region)

/-- Table HST-2 from its second row, with HALT (Table MOD-3) and the regions without data (R250). -/
def State.addrCase (s : State) (p : Port) (ld dpa : Nat) (write : Bool) : AddrCase :=
  if s.mod.mode = .halt then .fault ST.mode
  else if s.inAnyFence dpa then .fault ST.rights
  else match s.regionAt dpa with
    | none => .fault ST.bounds
    | some (n, r) =>
      if s.installedMib * 1048576 ≤ dpa then .fault ST.bounds
      else if r.tenant ≠ s.ldTenant p ld then .fault ST.rights
      else if write ∧ r.sealed then .fault ST.sealed
      else if s.noDataAt r dpa 64 then .fault ST.nomirror
      else .region n r

/-- A write that is consumed and not applied (R80). The once-a-second NOTICE is counted by port (DESIGN CHOICE,
notes/assumptions/80.md). -/
def State.addrFault (s : State) (p : Port) (ld dpa : Nat) (st : Status) : State :=
  let l := s.ld p ld
  let t : Taken := { id := s.pst.nextUnit, dpa := dpa, settle := .failed st }
  let s1 := s.setLd p ld ({ l with taken := l.taken ++ [t] }.fail dpa st)
  let s2 := { s1 with pst := { s1.pst with nextUnit := s1.pst.nextUnit + 1 } }
  ((s2.bump (F.HST_CNT2.ADDR_FAULTS p)).flag (F.HST_ERR.ADDR_FAULT p)).noticeOnce (20 + p.idx) .hst
    (F.HST_CNT2.ADDR_FAULTS p) (16 * p.idx + ld) (BitVec.ofNat 64 dpa)

/-- An unrestored page is raised to demand priority (R297). -/
def State.raiseDemand (s : State) (page : Nat) : State :=
  match Tab.get s.dst.pages page with
  | some q =>
    if q.unrestored && !q.demand then
      ({ s with dst := { s.dst with pages := Tab.put s.dst.pages page { q with demand := true },
                                    demandOut := s.dst.demandOut + 1 } }).bump F.DST_CNT2.DEMAND_RESTORES
    else s
  | none => s

/-- Room in the port's hold pool for one more line. -/
def State.poolRoom (s : State) (p : Port) : Bool :=
  decide (64 * ((s.heldIn p .pool).length + 1) ≤ 65536 * s.fld (F.HST_ADM_CTL.HOLD_POOL p))

/-- The LD has held writes. -/
def State.ldHolds (s : State) (p : Port) (ld : Nat) : Bool :=
  s.pst.units.any (fun u => u.hold != .none && u.door == .cxl p ld)

/-- Where a write that must be held goes (Table HST-3, rows 2 and 3). -/
def State.holdPlace (s : State) (p : Port) : Hold := if s.poolRoom p then .pool else .credit

/-- The counters of a hold: HELD, and CREDIT_STALLS when withholding begins. -/
def State.countHold (s : State) (p : Port) (h : Hold) : State :=
  let s1 := (s.bump (F.HST_CNT0.HELD p)).countEvent 0x012 1 none (some p.idx)
  if h = .credit ∧ (s.heldIn p .credit).isEmpty then s1.bump (F.HST_CNT0.CREDIT_STALLS p) else s1

/-- The unit a write is refused a charge for becomes held (R85, last sentences). -/
def State.holdRefused (s : State) (p : Port) (id : Nat) : State :=
  match s.pst.units.find? (fun u => u.id == id) with
  | some u =>
    if !u.charged && u.hold == .none && !u.free then
      (s.countHold p (s.holdPlace p)).updUnit id (fun u => { u with hold := s.holdPlace p })
    else s
  | none => s

/-- A write the address check let through is taken in: held or admitted (Table HST-3, rows 2 to 4). -/
def State.takeWrite (s : State) (p : Port) (ld n : Nat) (r : Region) (dpa : Nat) (cells : List Host.Cell) (poison : Bool) :
    State :=
  let id := s.pst.nextUnit
  let l := s.ld p ld
  let hold := s.ldHolds p ld || (r.floor != .d0 && !s.hst.headroom.contains r.tenant)
  let place := if hold then s.holdPlace p else Hold.none
  let s1 := s.setLd p ld { l with taken := l.taken ++ [{ id := id, dpa := dpa, settle := .pending }] }
  let s2 := if hold then s1.countHold p place else s1
  let u := { mkUnit id n r dpa 64 cells r.floor (.cxl p ld) (!s.isHome r) with hold := place, poison := poison }
  let s3 := (s2.admitUnit u).countEvent 0x043 1 (some r.tenant) none
  let s4 := s3.holdRefused p id
  if r.floor ≠ .d0 ∧ s.unrestored dpa then (s4.raiseDemand (pageOf dpa)).bump (F.HST_CNT1.UNRESTORED_WRITES p) else s4

/-- The last write taken in on the port keeps its credit's space (Table HST-3, row 3). -/
def State.creditKept (s : State) (id : Nat) : Bool := s.pst.units.any (fun u => u.id == id && u.hold == .credit)

/-- The commit-fence window's CLEAR (Table HST-4). -/
def State.clearFence (s : State) (p : Port) (ld : Nat) : State :=
  s.setLd p ld { s.ld p ld with status := 0, failCount := 0, firstFail := 0 }

/-- A write to an LD that does not serve (R82). -/
def State.writeUnserved (s : State) (p : Port) : State :=
  (((s.bump (F.HST_CNT2.ADDR_FAULTS p)).flag (F.HST_ERR.ADDR_FAULT p)).giveCredit p).emit (.unsupported p 0)

/-- A CXL write message: decided on and completed, and its credit returned but in row 3 of Table HST-3 (R84, R86). -/
def State.hostWrite (s : State) (p : Port) (ld dpa : Nat) (cells : List Host.Cell) (poison : Bool) : State :=
  if !s.ldEnabled p ld then s.writeUnserved p
  else
    let s1 := s.countEvent 0x010 1 (some (s.ldTenant p ld)) (some p.idx)
    let s2 :=
      if s.inOwnFence p ld dpa then (if dpa % 4096 = 0x80 then s1.clearFence p ld else s1)
      else match s.addrCase p ld dpa true with
        | .fault st => s1.addrFault p ld dpa st
        | .region n r => s1.takeWrite p ld n r dpa cells poison
    let s3 := if s2.creditKept s.pst.nextUnit then s2 else s2.giveCredit p
    s3.emit (.cxlCmp p ld (s3.devLoad p ld))

/-- The 64 bytes of a line, byte 0 in the low bits. -/
def lineBytes (d : Line) : List Byte := leBytes 64 d.toNat

/-- A write message under a credit (R19). An address that no decoder of the LD translates is not claimed (R78, R80). -/
def State.writeMessage (s : State) (p : Port) (ld hpa : Nat) (cells : Nat → List Host.Cell) (poison : Bool) : Res :=
  let s1 := s.writeFlit p
  when_ (s.portUp p && decide (0 < (s.port p).credits)) s
    (if !s.ldEnabled p ld then s1.writeUnserved p
     else match s.hdmDpa p ld hpa with
      | none => s1.giveCredit p
      | some dpa => s1.hostWrite p ld dpa (cells dpa) poison)

def execMemWr (p : Port) (ld : BitVec 4) (line : BitVec 46) (data : Line) (poison : Bool) (s : State) : Res :=
  s.writeMessage p ld.toNat (64 * line.toNat) (fun dpa => cellsAt dpa (lineBytes data)) poison

/-- R81: the bytes with a byte enable only. -/
def execMemWrPtl (p : Port) (ld : BitVec 4) (line : BitVec 46) (data : Line) (be : BitVec 64) (poison : Bool) (s : State) :
    Res :=
  s.writeMessage p ld.toNat (64 * line.toNat)
    (fun dpa => (cellsAt dpa (lineBytes data)).filter (fun c => be.getLsbD (c.1 - dpa))) poison

/-- The oldest held write of an LD. -/
def State.oldestHeld (s : State) (p : Port) (ld : Nat) : Option CUnit :=
  s.pst.units.find? (fun u => u.hold != .none && u.door == .cxl p ld)

/-- R85: the oldest held write of the LD leaves once its charge fits, or at once when it needs none. -/
def execHeldWriteRelease (p : Port) (ld : BitVec 4) (s : State) : Res :=
  match s.oldestHeld p ld.toNat with
  | none => .next s
  | some u =>
    let s1 := if u.volatile then s.updUnit u.id (fun x => { x with hold := .none }) else (s.enroll u).zoneStep 0
    when_ (u.free || (s.chargeFits u && !s.tenantWaits u.tenant u.id)) s ((s1.leaveHold u).pumpMirror.landD0 u.id)

/-- The read of one line (R46, R80, R101, R235). -/
def State.hostRead (s : State) (p : Port) (ld line tag : Nat) : State :=
  let dpa := 64 * line
  let bad : Out := .cxlData p ld tag [] true (s.devLoad p ld)
  if !s.ldEnabled p ld then s.emit (.unsupported p tag)
  else
    let s1 := s.countEvent 0x011 1 (some (s.ldTenant p ld)) (some p.idx)
    match s.addrCase p ld dpa false with
    | .fault _ => s1.emit bad
    | .region _ r =>
      if s.readAtTwin r dpa 64 then
        { s1 with hst := { s1.hst with forwarded := s1.hst.forwarded ++ [Forwarded.mk p ld tag line] } }.emit (.cxlForward p ld tag line)
      else
        let q : ReadReq := { reader := .cxl p ld tag, dpa := 64 * line, len := 64, bound := s.pst.nextUnit, snap := none, pend := s.openExtents dpa 64 }
        let s2 := if r.floor ≠ .d0 ∧ s.unrestored dpa then (s1.raiseDemand (pageOf dpa)).bump (F.HST_CNT1.UNRESTORED_READS p)
                  else s1.tierRead dpa 64
        if s.readReady q then s2.answerRead q
        else { s2 with hst := { s2.hst with reads := s2.hst.reads ++ [q] } }

/-- The read came in on a host port. -/
def ReadReq.onPort (q : ReadReq) (p : Port) : Bool :=
  match q.reader with
  | .cxl r _ _ => r == p
  | _ => false

/-- Reads outstanding on a port, those that the home twin answers among them (R88). -/
def State.readsOut (s : State) (p : Port) : Nat :=
  (s.hst.reads.filter (fun q => q.onPort p)).length + (s.hst.forwarded.filter (fun f => f.port == p)).length

/-- Fence reads waiting on a port (R97: 256 at most). -/
def State.fencesOut (s : State) (p : Port) : Nat :=
  sumOf ((List.range 16).map (fun n => (s.ld p n).waiting.length))

/-! The commit-fence window. -/

/-- The 64-byte result (Table HST-4) over the writes below `bound`. -/
def fenceBytes (l : LdState) (seq bound : Nat) (incomplete : Bool) (time : Nat) : List Byte :=
  let cov := l.taken.filter (fun t => decide (t.id < bound))
  let cls := match lowestClass (cov.map (·.settle)) with
    | some c => c.code
    | none => 3
  leBytes 8 seq ++ leBytes 8 cov.length ++ [BitVec.ofNat 8 (cls + if incomplete then 128 else 0), l.status] ++
  leBytes 6 0 ++ leBytes 8 l.failCount ++ leBytes 8 l.firstFail ++ leBytes 8 time ++ leBytes 16 0

/-- No covered write is pending. -/
def LdState.settled (l : LdState) (bound : Nat) : Bool :=
  l.taken.all (fun t => decide (bound ≤ t.id) || t.settle != .pending)

def FenceReq.reply (q : FenceReq) (p : Port) (ld : Nat) (bytes : List Byte) (dl : Nat) : Out :=
  .cxlData p ld q.tag ((bytes.drop q.off).take q.len) false dl

/-- A fence read arrives and waits (R94). -/
def State.fenceArrive (s : State) (p : Port) (ld off len tag : Nat) : State :=
  let l := s.ld p ld
  s.setLd p ld { l with waiting := l.waiting ++ [{ bound := s.pst.nextUnit, off := off, len := len, tag := tag }] }

/-- The window's current state, without waiting (Table HST-4, offset 0x040). -/
def State.fenceStatus (s : State) (p : Port) (ld tag : Nat) : State :=
  let l := s.ld p ld
  s.emit (.cxlData p ld tag (fenceBytes l l.seq s.pst.nextUnit (!l.settled s.pst.nextUnit) s.time) false (s.devLoad p ld))

/-- The fence window exists for the LD: its enable, and the LD serves on a port that is up. -/
def State.fenceOpen (s : State) (p : Port) (ld : Nat) : Bool :=
  s.portUp p && s.ldEnabled p ld && (s.fenceWindow p ld).isSome

/-- A read in the LD's own window by its line: 0 the fence, 1 the state, the rest zero (R93). -/
def State.windowRead (s : State) (p : Port) (ld dpa tag : Nat) : State :=
  if dpa % 4096 = 0 then s.fenceArrive p ld 0 64 tag
  else if dpa % 4096 = 0x40 then s.fenceStatus p ld tag
  else s.emit (.cxlData p ld tag (leBytes 64 0) false (s.devLoad p ld))

def State.lineRead (s : State) (p : Port) (ld line tag : Nat) : State :=
  if s.ldEnabled p ld && s.inOwnFence p ld (64 * line) then s.windowRead p ld (64 * line) tag
  else s.hostRead p ld line tag

/-- A Req credit is out: fewer than 512 reads are outstanding on the port (R88), and, for a fence read, fewer than 256 of its
kind (R97). -/
def State.reqCredit (s : State) (p : Port) (fence : Bool) : Bool :=
  s.portUp p && decide (s.readsOut p + s.fencesOut p < 512) && (!fence || decide (s.fencesOut p < 256))

/-- A line address is a fence of the LD. -/
def State.isFence (s : State) (p : Port) (ld dpa : Nat) : Bool := s.ldEnabled p ld && s.inOwnFence p ld dpa && dpa % 4096 == 0

/-- A read message. An address that no decoder of the LD translates is not claimed (R78, R80). -/
def State.readMessage (s : State) (p : Port) (ld hpa tag : Nat) : Res :=
  let s1 := s.flitIn p
  if !s.ldEnabled p ld then when_ (s.reqCredit p false) s (s1.emit (.unsupported p tag))
  else match s.hdmDpa p ld hpa with
    | none => when_ (s.reqCredit p false) s s1
    | some dpa => when_ (s.reqCredit p (s.isFence p ld dpa)) s (s1.lineRead p ld (dpa / 64) tag)

def execMemRd (p : Port) (ld : BitVec 4) (line : BitVec 46) (tag : BitVec 16) (s : State) : Res :=
  s.readMessage p ld.toNat (64 * line.toNat) tag.toNat

/-- Served like a read (R78). -/
def execMemRdData (p : Port) (ld : BitVec 4) (line : BitVec 46) (tag : BitVec 16) (s : State) : Res :=
  s.readMessage p ld.toNat (64 * line.toNat) tag.toNat

/-- Completed without effect, with the LD's load (R78, R87); an LD that does not serve gives an unsupported request (R82). -/
def execMemInv (p : Port) (ld : BitVec 4) (_ : BitVec 46) (tag : BitVec 16) (s : State) : Res :=
  when_ (s.portUp p) s ((s.flitIn p).emit
    (if s.ldEnabled p ld.toNat then .cxlInv p ld.toNat tag.toNat (s.devLoad p ld.toNat) else .unsupported p tag.toNat))

/-- R78: an unsupported-request completion on CXL.io; on CXL.mem the request is not claimed. -/
def execUnsupportedRequest (p : Port) (io : Bool) (tag : BitVec 16) (s : State) : Res :=
  when_ (s.portUp p && io) s (s.emit (.unsupported p tag.toNat))

/-- R78: logged, and acted on as a link error: the link enters recovery. -/
def execViral (p : Port) (s : State) : Res :=
  when_ (s.portUp p) s
    ((s.setPort p { s.port p with link := 3 }).recState sevWarn .hst (F.HST_PORT_STATUS.LINK p))

/-- The flit of this sequence number has been taken in: it is one of the 512 before the next one (R89). -/
def PortState.flitSeen (q : PortState) (seq : Nat) : Bool := decide (1 ≤ (q.rxSeq + 1024 - seq % 1024) % 1024) && decide ((q.rxSeq + 1024 - seq % 1024) % 1024 ≤ 512)

/-- R89: a flit that its sequence number shows to have been taken in is not admitted again. -/
def execLinkLevelRetry (p : Port) (seq : BitVec 10) (s : State) : Res :=
  when_ (s.portUp p && (s.port p).flitSeen seq.toNat) s (s.bump (F.HST_CNT2.REPLAY_DISCARDS p))

/-- The requests a lost link leaves without an answer are dropped; the writes stay (R91). -/
def State.dropRequests (s : State) (p : Port) : State :=
  { s with hst := { s.hst with
    reads := s.hst.reads.filter (fun q => !q.onPort p)
    forwarded := s.hst.forwarded.filter (fun f => f.port != p)
    lds := s.hst.lds.map (fun e => if e.1 / 16 = p.idx then (e.1, { e.2 with waiting := [] }) else e) } }

/-- A read that the home twin answers has its line back over crossing 26 (R235); `bad` where both copies of the item failed. -/
def State.forwardedBack (s : State) (data : List Byte) (bad : Bool) : State :=
  match s.hst.forwarded with
  | [] => s
  | f :: rest =>
    ({ s with hst := { s.hst with forwarded := rest } }.poisonRead bad).emit
      (.cxlData f.port f.ld f.tag (if bad then List.replicate 64 0 else data.take 64) bad (s.devLoad f.port f.ld))

/-- The link of a port is down. -/
def State.linkOff (s : State) (p : Port) : State :=
  (s.setPort p { s.port p with link := 0, width := 0, speed := 0, gpf := none, closing := false, credits := 0, owed := 0,
                               rxSeq := 0 }).dropRequests p

/-- A link-down event (R91). -/
def State.linkDowned (s : State) (p : Port) : State :=
  ((s.linkOff p).bump (F.HST_CNT2.LINK_DOWNS p)).recFlag sevWarn .hst (F.HST_ERR.LINK_DOWN p) p.idx

def execLinkDown (p : Port) (s : State) : Res :=
  when_ (s.running .hst && decide ((s.port p).link ≠ 0)) s (s.linkDowned p)

/-- The mode lets a host link come up: not COLD (held in training) or SAVE, nor HALT after HALT_HOLD unless KEEP_HST
(Table MOD-3, R459). -/
def State.linkAllowed (s : State) : Bool :=
  match s.mod.mode with
  | .cold | .save => false
  | .halt => !s.mod.haltHeld || s.on F.MOD_CTL.KEEP_HST
  | _ => true

/-- What a port advertises (Table HST-1, R79, R99). -/
def hostCaps (mld : Bool) : CxlCaps :=
  { lds := if mld then 16 else 1, decoders := 16, ways := hdmWays, grans := hdmGrans, gpfNs := 100000, gpfMw := 0 }

/-- RwD credits a link that trains is granted: 1,024 less one for each write held in the space of its own credit (R91). -/
def State.upCredits (s : State) (p : Port) : Nat := 1024 - (s.heldIn p .credit).length

/-- The decoders of a port replaced: the first sixteen that can be committed (Table HST-1). -/
def State.setDecoders (s : State) (p : Port) (l : List Hdm) : State :=
  { s with hst := { s.hst with decoders := s.hst.decoders.filter (fun e => e.1 != p) ++ ((l.filter hdmOk).take 16).map (fun d => (p, d)) } }

/-- The link is in L0: what it advertises, its credits, and the host's decoders. -/
def State.hostTrained (s : State) (p : Port) (wide : Bool) (speed : Nat) (sw : Bool) (decoders : List Hdm) : State :=
  let s1 := s.setPort p { s.port p with link := 2, width := if wide then 16 else 8, speed := speed, credits := s.upCredits p, owed := 0,
                                        rxSeq := 0, mldSwitch := sw }
  ((s1.setDecoders p decoders).emit (.cxlAdvert p (hostCaps (sw && s.on (F.HST_PORT_CTL.MLD p))))).emit (.cxlCredits p (s.upCredits p))

/-- R91. -/
def execLinkUp (p : Port) (wide : Bool) (speed : BitVec 3) (mldSwitch : Bool) (decoders : List Hdm) (s : State) : Res :=
  when_ (s.running .hst && s.on (F.HST_PORT_CTL.ENABLE p) && decide ((s.port p).link ≠ 2) && s.linkAllowed &&
      s.lanesTrained 3 p.idx && decide (3 ≤ speed.toNat) && decide (speed.toNat ≤ 6)) s
    (s.hostTrained p wide speed.toNat mldSwitch decoders)

/-- R275: DST publishes each tenant's headroom bit to the doors. -/
def execHeadroomRefresh (s : State) : Res :=
  when_ (s.running .dst) s
    { s with hst := { s.hst with headroom := (s.tenants.map (·.1)).filter (fun t => s.headroomOf t) } }

/-- A read of the LD's window: the LD serves and has one, or it does not serve, which is an unsupported request (R82). -/
def State.fenceAccess (s : State) (p : Port) (ld : Nat) (t unserved : State) : State :=
  if !s.ldEnabled p ld then unserved else if (s.fenceWindow p ld).isSome then t else s

def execFenceRead (p : Port) (ld : BitVec 4) (off : BitVec 6) (len : BitVec 7) (tag : BitVec 16) (s : State) : Res :=
  let s1 := s.flitIn p
  when_ (s.reqCredit p true) s (s.fenceAccess p ld.toNat (s1.fenceArrive p ld.toNat off.toNat len.toNat tag.toNat)
    (s1.emit (.unsupported p tag.toNat)))

/-- R94: the oldest waiting fence read of the LD, once every covered write has committed or failed. -/
def execFenceComplete (p : Port) (ld : BitVec 4) (s : State) : Res :=
  let l := s.ld p ld.toNat
  match l.waiting with
  | [] => .next s
  | q :: rest =>
    let l' := { l with seq := l.seq + 1, waiting := rest, taken := l.taken.filter (fun t => decide (q.bound ≤ t.id)) }
    let reply := q.reply p ld.toNat (fenceBytes l (l.seq + 1) q.bound false s.time) (s.devLoad p ld.toNat)
    when_ (s.portUp p && l.settled q.bound) s
      (((s.setLd p ld.toNat l').emit reply).countEvent 0x013 1 none (some p.idx))

/-- R95: MAX_WAIT has passed for the oldest waiting fence read. -/
def execFenceTimeout (p : Port) (ld : BitVec 4) (s : State) : Res :=
  let l := s.ld p ld.toNat
  match l.waiting with
  | [] => .next s
  | q :: rest =>
    let reply := q.reply p ld.toNat (fenceBytes l l.seq q.bound true s.time) (s.devLoad p ld.toNat)
    when_ (s.portUp p && !l.settled q.bound) s
      (((s.setLd p ld.toNat { l with waiting := rest }).emit reply).bump (F.HST_CNT2.FENCE_TIMEOUTS p))

def execFenceStatusRead (p : Port) (ld : BitVec 4) (tag : BitVec 16) (s : State) : Res :=
  let s1 := s.flitIn p
  when_ (s.reqCredit p false) s (s.fenceAccess p ld.toNat (s1.fenceStatus p ld.toNat tag.toNat) (s1.emit (.unsupported p tag.toNat)))

/-- A write in the window: CLEAR (Table HST-4). -/
def execFenceClear (p : Port) (ld : BitVec 4) (s : State) : Res :=
  let s1 := s.writeFlit p
  let s2 := (s1.clearFence p ld.toNat).giveCredit p
  when_ (s.portUp p && decide (0 < (s.port p).credits)) s
    (s.fenceAccess p ld.toNat (s2.emit (.cxlCmp p ld.toNat (s2.devLoad p ld.toNat))) (s1.writeUnserved p))

/-- Every write the port took in below `bound` has settled. -/
def State.portSettled (s : State) (p : Port) (bound : Nat) : Bool :=
  (List.range 16).all (fun n => (s.ld p n).settled bound)

def State.gpfDone (s : State) (p : Port) : State := (s.setPort p { s.port p with gpf := none }).emit (.gpfDone p)

/-- R99: phase 2 begins; it completes when every earlier write of the port has settled. -/
def execGpfFlush (p : Port) (s : State) : Res :=
  match (s.port p).gpf with
  | none =>
    when_ (s.portUp p) s
      (if s.portSettled p s.pst.nextUnit then s.gpfDone p
       else s.setPort p { s.port p with gpf := some s.pst.nextUnit })
  | some b => when_ (s.portUp p && s.portSettled p b) s (s.gpfDone p)

/-- R100: 100 µs after phase 2 began, covered writes being still pending. -/
def execGpfLate (p : Port) (s : State) : Res :=
  match (s.port p).gpf with
  | none => .next s
  | some b => when_ (s.portUp p && !s.portSettled p b) s ((s.gpfDone p).recFlag sevWarn .hst (F.HST_ERR.GPF_LATE p) p.idx)

/-- Writes of the port that have not yet reached PST. -/
def State.portCrossing (s : State) (p : Port) : Bool :=
  s.pst.units.any (fun u => !u.written && (match u.door with
    | .cxl q _ => q == p
    | _ => false))

/-- HST_PORT_CTL.ENABLE set or cleared (R103): training is allowed, or the link is taken down once the writes taken in
have reached PST. A link taken down so is no link-down event: it counts nothing and writes no record (DESIGN CHOICE,
notes/assumptions/81.md). -/
def State.portEnable (s : State) (p : Port) (on : Bool) : State :=
  let s1 := s.setFld (F.HST_PORT_CTL.ENABLE p) (b2n on)
  if on then (if (s.port p).link = 0 then s1.setPort p { s.port p with link := 1, closing := false }
              else s1.setPort p { s.port p with closing := false })
  else if s.portCrossing p then s1.setPort p { s.port p with closing := true }
  else s1.linkOff p

def execHstPortEnable (p : Port) (on : Bool) (s : State) : Res := when_ (s.running .hst) s (s.portEnable p on)

end Sys2Proof.Machine
end

