-- ==== Sys2Proof/Machine/Isa.lean ====
section
/-! DEFINITION. The Mbarath instruction word (05): its fields (Tables ISA-1, ISA-2), the encoder and decoder between the
word's bits and its fields, the opcode map (Table ISA-20) and the fields each opcode uses (R140, R142). -/

namespace Sys2Proof.Machine

/-- Table ISA-1, with bits 11 and 15 kept apart; `hi` is imm64 or the extended operand block. -/
structure IWord where
  op : BitVec 8
  w : Bool
  q : Bool
  f : Bool
  z11 : Bool
  cls : BitVec 2
  m : Bool
  z15 : Bool
  d : BitVec 5
  a : BitVec 5
  b : BitVec 5
  ext : Bool
  imm32 : BitVec 32
  hi : BitVec 64
  deriving DecidableEq, Repr

/-- The fields of a 128-bit word (Table ISA-1). -/
def IWord.ofBits (x : BitVec 128) : IWord :=
  { op := x.extractLsb' 0 8, w := x.getLsbD 8, q := x.getLsbD 9, f := x.getLsbD 10, z11 := x.getLsbD 11,
    cls := x.extractLsb' 12 2, m := x.getLsbD 14, z15 := x.getLsbD 15, d := x.extractLsb' 16 5,
    a := x.extractLsb' 21 5, b := x.extractLsb' 26 5, ext := x.getLsbD 31, imm32 := x.extractLsb' 32 32,
    hi := x.extractLsb' 64 64 }

/-- The word of an instruction's fields (Table ISA-1). -/
def IWord.toBits (i : IWord) : BitVec 128 :=
  i.hi ++ i.imm32 ++ BitVec.ofBool i.ext ++ i.b ++ i.a ++ i.d ++ BitVec.ofBool i.z15 ++ BitVec.ofBool i.m ++ i.cls ++
  BitVec.ofBool i.z11 ++ BitVec.ofBool i.f ++ BitVec.ofBool i.q ++ BitVec.ofBool i.w ++ i.op

/-- Fields of the extended operand block (Table ISA-2), within `hi`. -/
def IWord.hp (i : IWord) : Nat := i.hi.toNat % 16
def IWord.hs (i : IWord) : Nat := i.hi.toNat / 2 ^ 4 % 16
def IWord.pi (i : IWord) : Bool := i.hi.getLsbD 8
def IWord.xp (i : IWord) : Nat := i.hi.toNat / 2 ^ 9 % 32
def IWord.xs (i : IWord) : Nat := i.hi.toNat / 2 ^ 14 % 32
def IWord.lreg (i : IWord) : Bool := i.hi.getLsbD 19
def IWord.simm (i : IWord) : Nat := i.hi.toNat / 2 ^ 20 % 2 ^ 24
def IWord.len (i : IWord) : Nat := i.hi.toNat / 2 ^ 44

/-- Iteration bound of a branch (R149). -/
def IWord.bound (i : IWord) : Nat := i.hi.toNat % 2 ^ 16

/-- Index + imm32, sign-extended, for a branch at `pc` (R149). -/
def IWord.target (i : IWord) (pc : Nat) : Int := pc + i.imm32.toInt

/-- An offset of zero or less is a backward branch (R149). -/
def IWord.backward (i : IWord) : Bool := decide (i.imm32.toInt ≤ 0)

/-- Which operand fields an opcode uses. -/
structure Uses where
  d : Bool := false
  a : Bool := false
  b : Bool := false
  imm32 : Bool := false
  /-- imm64, of a form I instruction. -/
  imm64 : Bool := false
  /-- HP, PI and XP. -/
  hp : Bool := false
  hs : Bool := false
  xs : Bool := false
  simm : Bool := false
  lreg : Bool := false
  len : Bool := false
  q : Bool := false
  f : Bool := false
  cls : Bool := false
  m : Bool := false

/-- A row of the opcode map: form M or form I, and the fields used. -/
structure OpRow where
  formM : Bool
  uses : Uses

def rowI (u : Uses) : Option OpRow := some { formM := false, uses := u }
def rowM (u : Uses) : Option OpRow := some { formM := true, uses := u }

/-- Primary address: HP, a, imm32 (R141). -/
def Uses.prim (u : Uses) : Uses := { u with hp := true, a := true, imm32 := true }
/-- Secondary address: HS, XS, SIMM. -/
def Uses.sec (u : Uses) : Uses := { u with hs := true, xs := true, simm := true }
/-- Length: LREG, b, LEN. -/
def Uses.length (u : Uses) : Uses := { u with lreg := true, b := true, len := true }

def usesNone : Uses := {}
def usesInt : Uses := { d := true, a := true, b := true, imm32 := true }
def usesRange : Uses := usesNone.prim.length

/-- Rows 0x0_ and 0x1_ of the opcode map (Tables ISA-6, ISA-8). -/
def opRowControl (op : Nat) : Option OpRow :=
  match op with
  | 0x00 => rowI usesNone
  | 0x01 => rowI { imm32 := true, imm64 := true }
  | 0x02 => rowI { d := true, a := true, imm32 := true, imm64 := true }
  | 0x03 => rowI { imm32 := true }
  | 0x04 => rowI { d := true, a := true }
  | 0x05 => rowI usesNone
  | 0x06 => rowI { imm32 := true }
  | 0x07 => rowI { a := true, b := true, imm32 := true }
  | 0x08 => rowI usesNone
  | 0x09 => rowI { imm32 := true }
  | 0x10 => rowI usesInt
  | 0x11 => rowI usesInt
  | 0x12 => rowI usesInt
  | 0x13 => rowI usesInt
  | 0x14 => rowI usesInt
  | 0x15 => rowI usesInt
  | 0x16 => rowI usesInt
  | 0x17 => rowI { d := true, imm64 := true }
  | 0x18 => rowI usesInt
  | 0x19 => rowI { d := true, a := true }
  | _ => none

/-- Rows 0x2_ to 0x4_ (Tables ISA-9 to ISA-12). -/
def opRowMemory (op : Nat) : Option OpRow :=
  match op with
  | 0x20 => rowM { usesNone.prim with d := true, len := true }
  | 0x21 => rowM { usesNone.prim with b := true, simm := true, len := true, q := true, cls := true }
  | 0x22 => rowM { usesRange.sec with d := true, q := true, cls := true }
  | 0x23 => rowM { usesRange with d := true, q := true, cls := true }
  | 0x24 => rowM { usesRange with q := true, cls := true }
  | 0x25 => rowM { usesRange.sec with d := true }
  | 0x28 => rowM { usesNone.prim with d := true, b := true, cls := true }
  | 0x29 => rowM { usesNone.prim with d := true, b := true, xs := true, cls := true }
  | 0x30 => rowM usesNone
  | 0x31 => rowM { d := true, hp := true }
  | 0x32 => rowM { d := true, hp := true, imm32 := true }
  | 0x38 => rowM { usesNone.sec.length with d := true, hp := true, q := true, cls := true }
  | 0x39 => rowM { d := true, hp := true, cls := true }
  | 0x3A => rowM { d := true, hp := true, a := true, b := true, imm32 := true }
  | 0x40 => rowM { d := true, a := true, b := true, imm32 := true }
  | 0x41 => rowM { usesRange.sec with d := true, cls := true, m := true }
  | 0x42 => rowM { usesRange.sec with d := true, cls := true, m := true }
  | 0x43 => rowM { usesRange.sec with cls := true }
  | 0x44 => rowM { usesRange.sec with d := true, cls := true }
  | _ => none

/-- Rows 0x5_ to 0x8_ (Tables ISA-13 and ISA-14, R168, R171). APP, LRLS and RFNC name a primary handle alone: their a and imm32 are
unused (DESIGN CHOICE, notes/assumptions/85.md). -/
def opRowRemote (op : Nat) : Option OpRow :=
  match op with
  | 0x50 => rowM { usesRange.sec with q := true, f := true, cls := true }
  | 0x51 => rowM { usesRange.sec with cls := true }
  | 0x52 => rowM { usesNone.prim with d := true, b := true, cls := true }
  | 0x53 => rowM { usesNone.prim with d := true, b := true, xs := true, cls := true }
  | 0x54 => rowM { hp := true }
  | 0x60 => rowM usesRange
  | 0x61 => rowM usesRange
  | 0x62 => rowM usesRange
  | 0x63 => rowM usesRange
  | 0x64 => rowM usesRange
  | 0x65 => rowM { d := true, hp := true, len := true }
  | 0x66 => rowM { hp := true }
  | 0x70 => rowM usesRange
  | 0x71 => rowM { usesRange with d := true }
  | 0x72 => rowM usesRange
  | 0x73 => rowM { usesRange with q := true, cls := true }
  | 0x74 => rowM { usesRange with d := true }
  | 0x75 => rowM usesRange
  | 0x80 => rowM { usesNone.prim.sec with d := true }
  | 0x81 => rowM { usesNone.prim.sec with d := true }
  | 0x82 => rowM usesNone.prim.sec
  | 0x83 => rowM { usesNone.prim.sec with d := true }
  | _ => none

/-- The opcode map (Table ISA-20); a code not listed is reserved (R175). -/
def opRow (op : Nat) : Option OpRow :=
  if op < 0x20 then opRowControl op else if op < 0x50 then opRowMemory op else opRowRemote op

def isPrivOp (op : Nat) : Bool := decide (0x80 ≤ op) && decide (op ≤ 0x83)

/-- A field that is not used holds zero. -/
def unusedZero (used : Bool) (v : Nat) : Bool := used || v == 0

/-- Operand fields within the opcode's own ranges (R149, R151, R162, Tables ISA-6, ISA-7, ISA-11,
ISA-12). -/
def IWord.partsOk (i : IWord) : Bool :=
  match i.op.toNat with
  | 0x01 => decide (i.hi.toNat < 2 ^ 16) && (i.backward || i.bound == 0)
  | 0x02 => decide (i.hi.toNat < 2 ^ 16) && (i.backward || i.bound == 0) && decide (i.d.toNat < 12)
  | 0x03 => decide (i.imm32.toNat < 4096)
  | 0x06 => decide (i.imm32.toNat < 65536)
  | 0x07 => decide (i.imm32.toNat < 3)
  | 0x3A => decide (i.imm32.toNat < 2)
  | 0x40 => decide (i.d.toNat < 8) && (i.imm32 &&& 0xFF00FCFC#32 == 0) && i.imm32.extractLsb' 8 2 != 3
  | 0x41 => decide (i.d.toNat < 8)
  | 0x42 => decide (i.d.toNat < 8)
  | 0x44 => decide (i.d.toNat < 8)
  | _ => true

/-- R140: the word's form, modifiers and unused fields are as its opcode allows (rule 1 of R131 holds of it). XP must be zero where PI = 0;
b beside LREG = 0 and LEN beside LREG = 1 need not be (DESIGN CHOICE, notes/assumptions/85.md). -/
def IWord.wf (i : IWord) : Bool :=
  match opRow i.op.toNat with
  | none => false
  | some r =>
    let u := r.uses
    let dZero := i.d.toNat == 0
    i.ext == r.formM && !i.z11 && !i.z15 && (!i.q || (u.q && dZero)) && (!i.f || u.f) && (u.cls || i.cls == 0) &&
    (!i.m || u.m) && unusedZero u.d i.d.toNat && unusedZero u.a i.a.toNat && unusedZero u.b i.b.toNat &&
    unusedZero u.imm32 i.imm32.toNat &&
    (if r.formM then
      (if u.hp then (if i.pi then i.hp == 0 else i.xp == 0) else i.hp == 0 && !i.pi && i.xp == 0) &&
      unusedZero u.hs i.hs && unusedZero u.xs i.xs && unusedZero u.simm i.simm && unusedZero u.lreg (if i.lreg then 1 else 0) &&
      unusedZero u.len i.len
     else unusedZero u.imm64 i.hi.toNat) && i.partsOk

/-- The instruction at an index of a program. -/
def wordAt (p : List (BitVec 128)) (n : Nat) : Option IWord := (p[n]?).map IWord.ofBits

/-- The 16-byte words of an image, little-endian (R139). -/
def wordsOf : Nat → List (BitVec 8) → List (BitVec 128)
  | 0, _ => []
  | n + 1, l =>
    let v := (l.take 16).foldr (fun b acc => b.toNat + 256 * acc) 0
    BitVec.ofNat 128 v :: wordsOf n (l.drop 16)

end Sys2Proof.Machine
end

