-- ==== Sys2Proof/Machine/Flags.lean ====
section
/-! DEFINITION. The results and conditions a strand computes with: CMP's result bits, BRC's conditions (Table ISA-7), the
integer operations (Table ISA-8), and the status word of s31 (Table ISA-4). -/

namespace Sys2Proof.Machine

/-- CMP's result bits. -/
def cmpBits (a b : Word) : Word :=
  (if a = b then 1 else 0) ||| (if a.slt b then 2 else 0) ||| (if b.slt a then 4 else 0) ||| (if a.ult b then 8 else 0) |||
  (if b.ult a then 16 else 0)

/-- BRC's conditions; 12 to 31 are reserved and never execute. -/
def brcHolds (cond : Nat) (v : Word) : Bool :=
  match cond with
  | 0 => bit v 0
  | 1 => !bit v 0
  | 2 => bit v 1
  | 3 => !bit v 1
  | 4 => bit v 2
  | 5 => !bit v 2
  | 6 => bit v 3
  | 7 => !bit v 3
  | 8 => bit v 4
  | 9 => !bit v 4
  | 10 => v == 0
  | 11 => v != 0
  | _ => false

/-- Operand B: s[b] + imm32, sign-extended (R141). -/
def operandB (sb : Word) (imm32 : BitVec 32) : Word := sb + imm32.signExtend 64

/-- Shift amount: B[5:0]. -/
def shiftOf (b : Word) : Nat := b.toNat % 64

/-- s31 as the device writes it (Table ISA-4). -/
def s31Word (st : Status) (cls : Nat) : Word := BitVec.ofNat 64 (st.toNat + 256 * (if st = 0 then cls % 4 else 0))

/-- A status as a command reports it: reserved codes become ST_FAULT (R127). -/
def reportedStatus (st : Status) : Status :=
  if st = 0x01 ∨ (0x12 ≤ st.toNat ∧ st.toNat ≤ 0xFE) then 0x0E else st

end Sys2Proof.Machine
end

