-- ==== Sys2Proof/Machine/Operands.lean ====
section
/-! DEFINITION. Operands of strand instructions (R141): registers, handles, primary and secondary addresses, lengths; the
registers an instruction reads and writes (R146); and the issue checks of Table ISA-5. -/

namespace Sys2Proof.Machine

/-! ### Registers -/

/-- s[n]; s0 reads as zero (R125). -/
def Strand.reg (st : Strand) (n : Nat) : Word := if n = 0 then 0 else st.s.getD n 0

/-- s[n] written; a write to s0 is discarded. -/
def Strand.setReg (st : Strand) (n : Nat) (v : Word) : Strand :=
  if n = 0 then st else { st with s := (List.range 32).map (fun m => if m = n then v else st.s.getD m 0) }

def IWord.opn (i : IWord) : Nat := i.op.toNat
def IWord.dn (i : IWord) : Nat := i.d.toNat

/-- Opcodes whose d is a source or no register at all: BRC, FIL, DRV, ENC, DEC, MAC. -/
def dIsDest (op : Nat) : Bool :=
  !(op == 0x02 || op == 0x23 || op == 0x40 || op == 0x41 || op == 0x42 || op == 0x44)

/-- Opcodes whose b is an operand in itself, and not a register length. -/
def bIsOperand (op : Nat) : Bool :=
  decide (op < 0x20) || op == 0x21 || op == 0x28 || op == 0x29 || op == 0x3A || op == 0x40 || op == 0x52 || op == 0x53

/-- Registers an instruction reads. -/
def IWord.reads (i : IWord) : List Nat :=
  [i.a.toNat] ++ (if bIsOperand i.opn || i.lreg then [i.b.toNat] else []) ++
  (if i.ext then (if i.pi then [i.xp] else []) ++ [i.xs] else []) ++ (if i.opn = 0x23 then [i.dn] else [])

/-- The register an instruction writes: d, or s1 for TRAP and ADMIT (Table ISA-6, R171); that an ADMIT writes it only when it is
refused makes no difference to who waits (DESIGN CHOICE, notes/assumptions/87.md). 0: none. -/
def IWord.dest (i : IWord) : Nat := if i.opn = 0x82 ∨ i.opn = 0x09 then 1 else if dIsDest i.opn then i.dn else 0

/-- The key slot an instruction names. -/
def IWord.keySlots (i : IWord) : List Nat :=
  if i.opn = 0x40 ∨ i.opn = 0x41 ∨ i.opn = 0x42 ∨ i.opn = 0x44 then [i.dn % 8] else []

/-- R146 and R162: an outstanding operation has yet to write a register the instruction reads or writes, or uses its key
slot. s31 never causes the wait. -/
def hazard (ops : List Op) (i : IWord) : Bool :=
  ops.any (fun o =>
    (o.dest != 0 && o.dest != 31 && ((i.dest :: i.reads).contains o.dest)) ||
    (o.keys.any (fun q => i.keySlots.contains q) && (o.opcode == 0x40 || i.opn == 0x40)))

/-! ### Handles (Table PRG-4) -/

inductive HKind where
  | empty | local_ | remote | scratch
  deriving DecidableEq, Repr

def hKind (h : Word) : HKind :=
  match bitsOf h 0 2 with
  | 0 => .empty
  | 1 => .local_
  | 2 => .remote
  | _ => .scratch

def hRights (h : Word) : Nat := bitsOf h 2 4
def hRegion (h : Word) : Nat := bitsOf h 8 16
def hSession (h : Word) : Nat := bitsOf h 24 20

def rightR : Nat := 1
def rightW : Nat := 2
def rightAtom : Nat := 4
def rightAppend : Nat := 8

/-- `need` is part of `have_`. -/
def hasRights (have_ need : Nat) : Bool := have_ &&& need == need

/-- Primary handle number (R141). -/
def Strand.primHandle (st : Strand) (i : IWord) : Nat := if i.pi then (st.reg i.xp).toNat % 16 else i.hp

/-- Primary offset; for ENC and DEC imm32 alone (Table ISA-12). -/
def Strand.primOff (st : Strand) (i : IWord) : Nat :=
  if i.opn = 0x41 ∨ i.opn = 0x42 then i.imm32.toNat else ((st.reg i.a.toNat).toNat + i.imm32.toNat) % 2 ^ 64

def Strand.secOff (st : Strand) (i : IWord) : Nat := ((st.reg i.xs).toNat + i.simm) % 2 ^ 64

def Strand.length (st : Strand) (i : IWord) : Nat := if i.lreg then (st.reg i.b.toNat).toNat else i.len + 1

/-- What a remote handle reaches: a session's KEY_RING entry for the region (R197), or a loan (R166, R320). -/
structure Remote where
  /-- None: over the PH1 ring. -/
  session : Option Nat
  loan : Option Nat
  region : Nat
  /-- Offsets allowed, and what is added to a handle's offset. -/
  lo : Nat
  hi : Nat
  shift : Nat
  key : Nat
  rights : Nat
  expired : Bool

/-- A KEY_RING entry's EXPIRY against the latest key epoch the peer reported (R197). -/
def ringExpired (x : Session) (e : RingKey) : Bool := decide (e.expiry.toNat < x.peerKeyEpoch)

def State.remoteOf (s : State) (st : Strand) (n : Nat) : Option Remote :=
  match Tab.get st.loanH n with
  | some l => (Tab.get s.tir.loansIn l).bind (fun x =>
      if x.st = .reserving then none
      else some { session := x.session, loan := some l, region := x.region, lo := 0, hi := x.bytes, shift := x.offset,
                  key := x.key, rights := 3, expired := false })
  | none =>
    let h := st.h.getD n 0
    (s.ses (hSession h)).bind (fun x =>
      (x.params.ring.find? (fun e => e.region.toNat == hRegion h)).map (fun e =>
        { session := some (hSession h), loan := none, region := hRegion h, lo := e.offset.toNat,
          hi := e.offset.toNat + e.len.toNat, shift := 0, key := e.key.toNat, rights := e.rights.toNat,
          expired := ringExpired x e }))

/-! ### Issue checks (Table ISA-5) -/

/-- What an access may name: check 4. -/
inductive Want where
  | local_ | localOrScratch | remote
  deriving DecidableEq, Repr

/-- One operand range of an instruction. -/
structure Acc where
  h : Nat
  want : Want
  off : Nat
  len : Nat
  rights : Nat
  /-- It writes, other than by APP or SEAL: check 8. -/
  writes : Bool
  /-- The class it requests: check 10, for a local write. -/
  cls : Option Class
  /-- Check 7 fails for want of room, or outside the records there are (R353, R357). -/
  short : Bool := false
  /-- Check 10 fails unless the region is SEALED (R160). -/
  sealedOnly : Bool := false

def firstSome (l : List (Option Status)) : Option Status := l.findSome? id

def failIf (b : Bool) (st : Status) : Option Status := if b then some st else none

/-- R173: an instruction that the present mode refuses. -/
def modeRefuses (m : Mode) (op : Nat) : Bool :=
  match m with
  | .restore => op == 0x65 || op == 0x74 || op == 0x83
  | .drain => op == 0x65 || op == 0x63 || op == 0x61 || op == 0x74
  | .service => op == 0x83
  | _ => false

/-- The handle register: a loan handle that has been emptied reads as empty. -/
def Strand.handle (st : Strand) (n : Nat) : Word := st.h.getD n 0

def kindOk (k : HKind) (w : Want) : Bool :=
  match k, w with
  | .local_, .local_ => true
  | .local_, .localOrScratch => true
  | .scratch, .localOrScratch => true
  | .remote, .remote => true
  | _, _ => false

def State.boundsBad (s : State) (st : Strand) (a : Acc) : Bool :=
  match hKind (st.handle a.h) with
  | .scratch => decide (3072 < a.off + a.len)
  | .remote => (match s.remoteOf st a.h with
      | some r => decide (a.off < r.lo) || decide (r.hi < a.off + a.len)
      | none => true)
  | _ => (match Tab.get s.regions (hRegion (st.handle a.h)) with
      | some r => decide (r.len < a.off + a.len)
      | none => true)

/-- The local region an access names. -/
def State.accRegion (s : State) (st : Strand) (a : Acc) : Option Region :=
  if hKind (st.handle a.h) = .local_ then Tab.get s.regions (hRegion (st.handle a.h)) else none

def State.rightsBad (s : State) (st : Strand) (a : Acc) : Bool :=
  !hasRights (hRights (st.handle a.h)) a.rights ||
  (match hKind (st.handle a.h) with
   | .local_ => (match s.accRegion st a with
      | some r => !hasRights (bitsOf r.grant 0 4) a.rights
      | none => false)
   | .remote => (match s.remoteOf st a.h with
      | some r => !hasRights r.rights a.rights
      | none => false)
   | _ => false)

/-- Check 10 (R41). -/
def classBad (r : Region) (c : Class) : Bool := (r.floor == .d0 && c != .d0) || (c == .d3 && !r.sealed)

/-- The checks of Table ISA-5 from 3 to 10, for accesses in order; `keyOk` and `lenOk` are the opcode's own parts of
checks 5 and 6. -/
def State.checks (s : State) (st : Strand) (accs : List Acc) (keyOk lenOk : Bool) : Option Status :=
  firstSome
    [ firstSome (accs.map (fun a => failIf (hKind (st.handle a.h) == .empty) ST.bounds)),
      firstSome (accs.map (fun a => failIf (!kindOk (hKind (st.handle a.h)) a.want) ST.rights)),
      failIf (!keyOk) ST.key,
      firstSome (accs.map (fun a => failIf (hKind (st.handle a.h) == .remote && (match s.remoteOf st a.h with
        | some r => r.expired
        | none => (Tab.get st.loanH a.h).isNone)) ST.key)),
      failIf (!lenOk) ST.length,
      firstSome (accs.map (fun a => failIf (a.writes && (match s.accRegion st a with
        | some r => r.atomic && !r.sealed && decide (1048576 < a.len)
        | none => false)) ST.length)),
      firstSome (accs.map (fun a => failIf (a.short || s.boundsBad st a) ST.bounds)),
      firstSome (accs.map (fun a => failIf (a.writes && (match s.accRegion st a with
        | some r => r.sealed
        | none => false)) ST.sealed)),
      firstSome (accs.map (fun a => failIf (s.rightsBad st a) ST.rights)),
      firstSome (accs.map (fun a => failIf (match a.cls, s.accRegion st a with
        | some c, some r => classBad r c
        | _, _ => false) ST.rights)),
      firstSome (accs.map (fun a => failIf (a.sealedOnly && !((s.accRegion st a).map (·.sealed)).getD false) ST.rights)) ]

/-- First byte of a local access. -/
def State.accDpa (s : State) (st : Strand) (a : Acc) : Nat :=
  ((s.accRegion st a).map (·.base)).getD 0 + a.off

end Sys2Proof.Machine
end

