-- ==== Sys2Proof/Machine/Strand.lean ====
section
/-! DEFINITION. How a strand issues, branches, ends and faults, and how its outstanding operations are held and completed
(04_strand_programming R104 to R109, R118, R121, R127 to R135; 05 R143 to R146, R150). -/

namespace Sys2Proof.Machine

def State.updPe (s : State) (f : PeState → PeState) : State := { s with pe := f s.pe }

def State.strandAt (s : State) (k : Nat) : Option Strand := Tab.get s.pe.strands k

def State.updStrand (s : State) (k : Nat) (f : Strand → Strand) : State :=
  s.updPe (fun p => { p with strands := Tab.upd p.strands k f })

def State.cmdOf (s : State) (c : Nat) : Option Cmd := Tab.get s.pe.cmds c

/-- The words of a program. -/
def State.progWords (s : State) : Prog → List (BitVec 128)
  | .inline ws => ws
  | .proc n => ((Tab.get s.pe.procs n).map (·.words)).getD []

/-- The index and word of a strand's next instruction. -/
def State.nextWord (s : State) (st : Strand) : Option (Nat × IWord) :=
  match st.frames with
  | [] => none
  | f :: _ => (wordAt (s.progWords f.prog) f.pc).map (fun i => (f.pc, i))

/-- The device's mode admits commands (Table MOD-3). -/
def State.admitsCommands (s : State) : Bool :=
  match s.mod.mode with
  | .restore | .serve | .solo | .drain | .service => true
  | _ => false

/-! ### Issue -/

/-- The instruction must wait for operations of its own strand: W, WAIT, R146. -/
def stageBlocked (c : Cmd) (i : IWord) : Bool :=
  hazard c.ops i || (i.w && c.ops.any (fun o => !o.quiet)) || (i.opn == 0x05 && !c.ops.isEmpty)

/-- The instruction takes a tracker (R105). PFT completes at issue. -/
def needsTracker (op : Nat) : Bool := decide (0x20 ≤ op) && op != 0x60

/-- Trackers in use in an engine. -/
def State.trackersOf (s : State) (e : Nat) : Nat :=
  sumOf (s.pe.cmds.map (fun x => (x.2.ops.filter (fun o => o.engine == e)).length))

def State.trackerFree (s : State) (k : Nat) (c : Cmd) (i : IWord) : Bool :=
  !needsTracker i.opn || (decide (c.ops.length < 16) && decide (s.trackersOf (k / 64) < 128))

/-- The strand could issue now. -/
def State.strandReady (s : State) (k : Nat) (st : Strand) : Bool :=
  !st.spilled && !st.delaying &&
  (match s.cmdOf st.cmd, s.nextWord st with
   | some c, some (_, i) => !stageBlocked c i && s.trackerFree k c i
   | _, _ => false)

def State.qpClass (s : State) (q : Nat) : Nat := ((Tab.get s.pe.qps q).map (·.cls)).getD 3

/-- Whether strand `a` issues before strand `b`: aged strands first, then by class, then by turn (R107). -/
def State.goesBefore (s : State) (a b : Strand) : Bool :=
  if a.aged != b.aged then a.aged
  else if s.qpClass a.qp ≠ s.qpClass b.qp then decide (s.qpClass a.qp < s.qpClass b.qp)
  else decide (a.turn < b.turn)

/-- No ready strand of the same engine goes before it. -/
def State.isFirst (s : State) (k : Nat) (st : Strand) : Bool :=
  !s.pe.strands.any (fun e => e.1 != k && decide (e.1 < 4096) && e.1 / 64 == k / 64 && s.strandReady e.1 e.2 &&
    s.goesBefore e.2 st)

/-- What an instruction works with: its slot, strand, command, word and index. -/
structure Iss where
  k : Nat
  st : Strand
  c : Cmd
  i : IWord
  pc : Nat

/-- One step is counted, and the strand takes its turn (R107, R131). -/
def State.counted (s : State) (k cmd : Nat) : State :=
  ((s.updPe (fun p => { p with issues := p.issues + 1 })).updStrand k (fun st =>
    { st with turn := s.pe.issues + 1, aged := false, stageWait := false })).updCmd cmd
    (fun c => { c with steps := c.steps + 1 })

/-- A stage wait begins (R133). -/
def State.beginStage (s : State) (k : Nat) : State :=
  match s.strandAt k with
  | some st =>
    if st.stageWait then s
    else (s.updStrand k (fun st => { st with stageWait := true })).countEvent 0x081 1 none (some (k / 64))
  | none => s

/-! ### Ending -/

/-- A loan ends with its strand (Table TIR-8). -/
def State.endLoans (s : State) (l : List (Nat × Nat)) : State :=
  l.foldl (fun s e => { s with tir := { s.tir with loansIn := Tab.del s.tir.loansIn e.2 },
                               out := s.out ++ [Out.loanReturn e.2] }) s

/-- A live-service procedure ends with a status and a record (R494). -/
def State.svcEnd (s : State) (st : Status) : State :=
  let s1 := { s with svc := { s.svc with proc := 0, phase := if s.svc.chOut.isEmpty then 0 else 2 } }
  ((s1.setFld F.SVC_CMD.BUSY 0).setFld F.SVC_CMD.STATUS st.toNat).recordFull (if st = ST.ok then sevNotice else sevError) .ctl 1 F.SVC_STATUS.PROC.lsb
    s.svc.unit Addr.SVC_STATUS (BitVec.ofNat 64 s.svc.proc) 0

/-- No slot of the engine is busy (R109). -/
def State.engineDrained (s : State) (e : Nat) : Bool := !s.pe.strands.any (fun x => decide (x.1 < 4096) && x.1 / 64 == e)

def State.enableEngine (s : State) (e : Nat) (on : Bool) : State := { s with regs := putFld s.regs ⟨Addr.PE_ENGINE_EN, e, 1⟩ (if on then 1 else 0) }

/-- A swap whose engine has drained: the engine loads its microcode from the running image (R497). -/
def State.swapCheck (s : State) : State :=
  let e := s.svc.unit
  if s.svc.proc = 2 ∧ s.engineDrained e = true then
    let s1 := (s.enableEngine e true).bump F.SVC_CNT0.SWAPS
    { s1 with svc := { s1.svc with mcode := s1.svc.mcode ||| BitVec.ofNat 64 (2 ^ e) } }.svcEnd ST.ok
  else s

/-- The strand ends and its slot is released (R121). Its outstanding operations go on. -/
def State.endStrand (s : State) (k : Nat) : State :=
  match s.strandAt k with
  | none => s
  | some st =>
    State.swapCheck <| ((s.updPe (fun p => { p with strands := Tab.del p.strands k })).updCmd st.cmd (fun c =>
      { c with ended := true, lastStatus := (st.reg 31).setWidth 8, result := st.reg 1 })).endLoans st.loanH

/-- A terminating fault (R128). -/
def State.faultStrand (s : State) (k : Nat) (status : Status) (op pc : Nat) : State :=
  match s.strandAt k with
  | none => s
  | some st =>
    let s1 := s.updCmd st.cmd (fun c => { c with faulted := true, status := status, faultOp := op, faultPc := pc })
    (s1.noticeOnce (100000 + st.qp) .pe F.PE_CNT2.FAILED st.qp (BitVec.ofNat 64 (op + 256 * status.toNat))).endStrand k

/-- Invocations that have run past their last instruction return (R150). -/
def State.dropFinished (s : State) : List Invocation → List Invocation
  | [] => []
  | f :: r => if f.pc < (s.progWords f.prog).length then f :: r else s.dropFinished r

/-- The strand goes on with the given invocations, or ends. -/
def State.setFrames (s : State) (k : Nat) (fs : List Invocation) : State :=
  let fs := s.dropFinished fs
  if fs.isEmpty then s.endStrand k else s.updStrand k (fun st => { st with frames := fs })

/-- The strand's next instruction is `pc` of its innermost program. -/
def State.goto (s : State) (k pc : Nat) : State :=
  match s.strandAt k with
  | none => s
  | some st =>
    match st.frames with
    | [] => s
    | f :: r => s.setFrames k ({ f with pc := pc } :: r)

/-- An instruction that is complete at issue writes d. -/
def State.finishInt (s : State) (x : Iss) (v : Word) : State :=
  (s.updStrand x.k (fun st => st.setReg x.i.dn v)).goto x.k (x.pc + 1)

/-- A completion reaches the strand: the value goes to `dest`, then the status to s31 (R127, R144). After issue every status
but ST_INTERNAL continues (R148). -/
def State.deliver_ (s : State) (k dest : Nat) (r : OpDone) (op pc : Nat) : State :=
  if r.st = ST.internal then s.faultStrand k r.st op pc
  else s.updStrand k (fun st =>
    (match r.val with
     | some v => st.setReg dest v
     | none => st).setReg 31 (s31Word r.st r.cls))

/-- An instruction that completes at issue with a status; a quiet one writes neither d nor s31 (R143). -/
def State.finishNow (s : State) (x : Iss) (r : OpDone) : State :=
  if ST.ends r.st then s.faultStrand x.k r.st x.i.opn x.pc
  else (if x.i.q then s else s.deliver_ x.k x.i.dest r x.i.opn x.pc).goto x.k (x.pc + 1)

def OpDone.ok (v : Option Word) : OpDone := { st := 0, val := v, cls := 0 }
def OpDone.err (st : Status) : OpDone := { st := st, val := none, cls := 0 }

/-- A failed issue check: it ends the strand, or, for the continuing statuses the block decides, completes it. -/
def State.failIssue (s : State) (x : Iss) (st : Status) : State := s.finishNow x (OpDone.err st)

/-- R132: the budget is spent. -/
def State.budgetFault (s : State) (k op pc : Nat) : State := (s.bump F.PE_CNT1.BUDGET_FAULTS).faultStrand k ST.fault op pc

/-- What `issue` finds: nothing to do, a stage wait, the budget spent, or an instruction that issues. -/
inductive Ready where
  | no
  | wait
  | spent (op pc : Nat)
  | go (x : Iss)

/-- Whether the strand in slot `k` issues an instruction with opcode `op` now. -/
def State.ready (s : State) (k op : Nat) : Ready :=
  match s.strandAt k with
  | none => .no
  | some st =>
    match s.cmdOf st.cmd, s.nextWord st with
    | some c, some (pc, i) =>
      if !(s.running .pe && !s.pe.stopped && s.admitsCommands && i.opn == op && !st.spilled && !st.delaying) then .no
      else if stageBlocked c i then .wait
      else if !s.trackerFree k c i || !s.isFirst k st then .no
      else if 1048576 ≤ c.steps then .spent op pc
      else .go { k := k, st := st, c := c, i := i, pc := pc }
    | _, _ => .no

/-- A strand instruction with opcode `op` issues in slot `k` (R104, R105, R107, R132). -/
def State.issue (s : State) (k : SlotNo) (op : Nat) (body : Iss → State → State) : Res :=
  match s.ready k.toNat op with
  | .no => .next s
  | .wait => .next (s.beginStage k.toNat)
  | .spent op pc => .next (s.budgetFault k.toNat op pc)
  | .go x => .next (body x ((s.counted k.toNat x.st.cmd).countEvent 0x080 1 none (some (k.toNat / 64))))

/-! ### Outstanding operations -/

/-- An operation of the issuing instruction; its number is the command's next. -/
def Iss.op (x : Iss) (s : State) : Op :=
  { id := x.c.nextOp, engine := x.k / 64, word := x.i.toBits, opcode := x.i.opn, pc := x.pc, dest := x.i.dest,
    keys := x.i.keySlots, quiet := x.i.q, phase := .source, region := 65536, prim := 0, sec := 0, len := 0, x := 0, y := 0,
    key := none, far := false, bound := s.pst.nextUnit, cls := Class.ofCode x.i.cls.toNat, units := [], extent := none,
    skip := s.openExtents 0 (2 ^ 44), pages := [], link := 0, done := none, input := none, cip := .none, out := 0 }

/-- The operation becomes outstanding and the strand goes on (R105). -/
def State.addOp (s : State) (x : Iss) (o : Op) : State :=
  (s.updCmd x.st.cmd (fun c => { c with ops := c.ops ++ [o], nextOp := c.nextOp + 1 })).goto x.k (x.pc + 1)

def State.opOf (s : State) (c op : Nat) : Option Op := (s.cmdOf c).bind (fun x => x.ops.find? (fun o => o.id == op))

/-- What an operation completes with is known. -/
def State.opDone (s : State) (c op : Nat) (d : OpDone) : State :=
  (s.poisonRead (d.st == ST.poison)).updOp c op (fun o => { o with phase := .ready, done := some d })

/-- The slot of a command's strand, while it runs or is spilled. -/
def State.slotOf (s : State) (c : Nat) : Option Nat := (s.pe.strands.find? (fun e => e.2.cmd == c)).map (·.1)

/-- The records of an operation's units. -/
def Op.hist (o : Op) (c : Cmd) : List UnitRec := c.hist.filter (fun h => o.units.contains h.id)

/-- Everything the operation writes has been admitted. -/
def Op.admitted (o : Op) : Bool :=
  o.phase != .source && o.extent.isNone && !((o.opcode == 0x38 || o.opcode == 0x39) && o.units.isEmpty && o.done.isNone)

/-- Opcodes that bring units of their own: the writes, APP, SEAL. -/
def writesRegion (op : Nat) : Bool :=
  op == 0x21 || op == 0x22 || op == 0x23 || op == 0x24 || op == 0x28 || op == 0x29 || op == 0x38 || op == 0x39 || op == 0x41 ||
  op == 0x42 || op == 0x43 || op == 0x44 || op == 0x51 || op == 0x73 || op == 0x80 || op == 0x83

/-- The operation writes a region of this device; HMAP and PLAN where they have a result block (R168). -/
def Op.writes (o : Op) : Bool := writesRegion o.opcode && decide (o.region < 65536)

/-- The first failure in program order: of the operation issued first, its units in the order of their admission (R127,
R158). -/
def programFailure (l : List UnitRec) : Option Status :=
  (l.foldl (fun (best : Option (Nat × Status)) h =>
    match h.settle, best with
    | .failed st, none => some (h.op, st)
    | .failed st, some (k, st') => if h.op < k then some (h.op, st) else some (k, st')
    | _, _ => best) none).map (·.2)

/-- What a unit-admitting operation completes with once its units have settled: its own status, else its units' first
failure; an atomic's value is the one before it (R157). -/
def Op.unitOutcome (o : Op) (c : Cmd) : Option OpDone :=
  let l := (o.hist c).map (·.settle)
  if !o.admitted || l.contains .pending then none
  else
    let own := (o.done.map (·.st)).getD 0
    let st := if own = 0 then (firstFailure l).getD 0 else own
    let val := match o.done with
      | some d => d.val
      | none => none
    some { st := st, cls := ((lowestClass l).map (·.code)).getD 0,
           val := if o.opcode = 0x28 ∨ o.opcode = 0x29 then (if st = 0 then some o.y else none) else val }

/-- What it completes with now, if it can complete. -/
def Op.outcome (o : Op) (c : Cmd) : Option OpDone :=
  match o.phase with
  | .source => none
  | .units => o.unitOutcome c
  | .external => none
  | .ready => if (o.hist c).any (fun h => h.settle == .pending) then none else o.done

/-- The operation leaves its tracker; its units' failures have reached s31 unless it was quiet (R127, R143). -/
def State.removeOp (s : State) (c op : Nat) : State :=
  s.updCmd c (fun c =>
    let us := ((c.ops.find? (fun o => o.id == op)).map (fun o => if o.quiet then [] else o.units)).getD []
    { c with ops := c.ops.filter (fun o => o.id != op),
             hist := updAll (fun h => us.contains h.id) (fun h => { h with reported := true }) c.hist })

/-- R145: an operation completes; it writes d and s31 while its strand lasts. -/
def State.completeOp (s : State) (c : Nat) (o : Op) (d : OpDone) : State :=
  match s.slotOf c with
  | none => s.updCmd c (fun c => { c with ops := c.ops.filter (fun x => x.id != o.id) })
  | some k =>
    let s1 := s.removeOp c o.id
    if o.quiet then s1 else s1.deliver_ k o.dest d o.opcode o.pc

/-! ### Reading and writing regions -/

/-- A source can be read: no pending entry meets it and its pages are restored (R46, R155). -/
def State.srcReady (s : State) (dpa len bound : Nat) : Bool := !s.lineBlocked dpa len bound && !s.awaitsRestore dpa len

/-- An earlier write of the same strand to the region has still to be admitted: a read of it waits for its entry (R155). -/
def Cmd.ownWrite (c : Cmd) (op region : Nat) : Bool :=
  c.ops.any (fun f => decide (f.id < op) && f.region == region && f.writes && !f.admitted)

/-- The source ranges of an operation that has still to read them. -/
def Op.sources (o : Op) : List (Nat × Nat) :=
  if o.phase != .source || o.input.isSome then []
  else match o.opcode with
    | 0x20 => [(o.prim, o.len)]
    | 0x22 => [(o.sec, o.len)]
    | 0x25 => [(o.prim, o.len), (o.sec, o.len)]
    | 0x38 => [(o.sec, o.len)]
    | 0x41 => [(o.sec, o.len)]
    | 0x42 => [(o.sec, o.len)]
    | 0x43 => [(o.sec, o.len)]
    | 0x44 => [(o.sec, o.len)]
    | 0x50 => [(o.x.toNat, o.y.toNat / 2 ^ 32)]
    | _ => []

/-- A page the receiver of a resync wants is asked for (R253). -/
def State.wantPage (s : State) (p : Nat) : State :=
  if s.phl.twin = .resyncIn ∧ s.phl.resyncLeft.contains p ∧ !s.phl.unconfirmed.any (fun f => f.ty == 9 && f.dpa == 16384 * p) then
    (s.sendFrame { Frame.mk0 9 with dpa := 16384 * p }).bump F.PHL_CNT2.DEMAND_PAGES
  else s

/-- Demand for the unrestored pages of a range (R297). -/
def State.demandRange (s : State) (dpa len : Nat) : State :=
  (pagesOf dpa len).foldl (fun s p =>
    match Tab.get s.dst.pages p with
    | some q =>
      if q.unrestored && !q.demand then
        { s with dst := { s.dst with pages := Tab.put s.dst.pages p { q with demand := true },
                                     demandOut := s.dst.demandOut + 1 } }.bump F.DST_CNT2.DEMAND_RESTORES
      else s
    | none => s) s

/-- A fence of the strand, earlier than the operation, holds its writes (R158). -/
def fenceHolds (c : Cmd) (o : Op) : Bool :=
  c.ops.any (fun f => decide (f.id < o.id) && (f.opcode == 0x30 || (f.opcode == 0x31 && f.region == o.region)))

/-- Units to one region are admitted in program order (Table DUR-5). -/
def earlierWrite (c : Cmd) (o : Op) : Bool :=
  c.ops.any (fun f => decide (f.id < o.id) && f.region == o.region && f.writes && !f.admitted)

/-- The operation's writes may be admitted now: its command's ACCEPTED entry has committed and no fence or earlier write holds
them (R74, R158), crossing 12 gives ready (R16), and the ingress buffer has room (R26). -/
def State.mayAdmit (s : State) (c : Cmd) (o : Op) : Bool :=
  c.accepted && !fenceHolds c o && !earlierWrite c o && s.xingReady (xingKey 12 true .pe) && s.ingressRoom o.len

/-- Pieces of a range that do not cross a 4 KiB boundary (R154): first byte and length. -/
def splitRange (dpa len : Nat) : List (Nat × Nat) :=
  if len = 0 then []
  else (List.range ((dpa + len - 1) / 4096 - dpa / 4096 + 1)).map (fun i =>
    let b := (dpa / 4096 + i) * 4096
    let lo := max dpa b
    (lo, min (dpa + len) (b + 4096) - lo))

/-- A unit of an operation is admitted and joins its command's history. -/
def State.admitFor (s : State) (c op : Nat) (u : CUnit) : State :=
  let id := s.pst.nextUnit
  let u := { u with pooled := s.getTenant c op }
  let s1 := s.updCmd c (fun c => { c with hist := c.hist ++ [{ id := id, op := op, region := u.region, settle := .pending, reported := false }] })
  ((s1.updOp c op (fun o => { o with units := o.units ++ [id] })).admitUnit u).countEvent 0x043 ((u.len + 63) / 64) (some u.tenant)
    none

/-- The class a write is admitted at (R40). -/
def Op.classFor (o : Op) (r : Region) : Class := Class.max o.cls r.floor

/-- The extent's reservation fits, and the twin has granted its part (R64, R236). -/
def State.extentFits (s : State) (e : Extent) : Bool :=
  s.kibFits (extentKib e.declared) && (e.granted || e.xopen.isNone)

/-- A D2 or D3 extent asks the twin for its part while a twin mirrors (R236). -/
def State.needsXopen (s : State) (cls : Class) : Bool :=
  (cls == .d2 || cls == .d3) && (match s.phl.twin with
    | .paired | .fallback | .resyncOut => true
    | _ => false)

/-- The unit of an extent whose data is complete. -/
def extentUnit (s : State) (e : Extent) (r : Region) : CUnit :=
  { mkUnit s.pst.nextUnit e.region r e.dpa e.declared e.arrived e.cls e.door (!s.isHome r) with
    extent := true, xref := e.xopen, ahead := e.sent }

/-- A strand's extent opens and, its data being at hand, takes its position (R61). -/
def State.openStrandExtent (s : State) (id c op : Nat) (e : Extent) : State :=
  let s1 := { s with pst := { s.pst with extents := Tab.del s.pst.extents id } }.updOp c op (fun o => { o with extent := none })
  match Tab.get s.regions e.region with
  | some r => s1.admitFor c op (extentUnit s e r)
  | none => s1.opDone c op (OpDone.err ST.bounds)

/-- One piece of a write (R154, R167). -/
def Op.piece (o : Op) (c n : Nat) (r : Region) (p : Nat × Nat) (cells : List Host.Cell) (cls : Class) (s : State) : CUnit :=
  { mkUnit s.pst.nextUnit n r p.1 p.2 (cells.filter (fun x => decide (p.1 ≤ x.1) && decide (x.1 < p.1 + p.2))) cls (.strand c o.id)
      (!s.isHome r) with zeros := o.opcode == 0x73 }

/-- A strand writes `cells` from `dpa`: pieces, or one extent in an ATOMIC region (R154). -/
def State.writeUnits (s : State) (c : Nat) (o : Op) (n : Nat) (r : Region) (dpa len : Nat) (cells : List Host.Cell) : State :=
  let cls := o.classFor r
  if len = 0 then s
  else if r.atomic && !r.sealed then
    let asks := s.needsXopen cls
    let e : Extent :=
      { region := n, dpa := dpa, declared := len, arrived := cells, got := len, cls := cls, door := .strand c o.id, opened := false,
        xopen := if asks then some s.phl.txNext else none, granted := false, sent := [] }
    let id := s.pst.nextExtent
    let s1 := { s with pst := { s.pst with extents := Tab.put s.pst.extents id e, nextExtent := id + 1 } }
    let s2 := s1.updOp c o.id (fun o => { o with extent := some id })
    let s3 := if asks then s2.sendFrame { Frame.mk0 6 with region := n, cls := cls, aux := extentKib len / 4 } else s2
    if s.extentFits e && !s.pst.extents.any (fun x => !x.2.opened && (match x.2.door with
        | .strand _ _ => true
        | _ => false))
    then s3.openStrandExtent id c o.id e else s3
  else (splitRange dpa len).foldl (fun s p =>
    s.admitFor c o.id (o.piece c n r p cells cls s)) s

/-- The units of an operation fail with a status. -/
def State.failOp (s : State) (c op : Nat) (st : Status) : State :=
  match s.opOf c op with
  | some o => s.failAll (s.pst.units.filter (fun u => o.units.contains u.id && !u.committed)) st
  | none => s

/-- A write of data this device does not hold while it serves alone (R250): its units are admitted and fail with ST_NOMIRROR
(R148). -/
def State.refuseWrite (s : State) (c : Nat) (o : Op) (n : Nat) (r : Region) (dpa len : Nat) (cells : List Host.Cell) : State :=
  ((splitRange dpa len).foldl (fun s p => s.admitFor c o.id (o.piece c n r p cells (o.classFor r) s)) s).failOp c o.id ST.nomirror

/-- The bytes an operation writes, once its source can be read. -/
inductive Src where
  | wait
  /-- It completes so, and admits nothing. -/
  | fail (d : OpDone)
  /-- It writes these bytes from a DPA, and completes so when its units have settled. -/
  | data (dpa : Nat) (bytes : List Byte) (d : OpDone)

/-- An operation that writes a region takes its effect, if it may (R154). -/
def State.runWrite (s : State) (c : Nat) (o : Op) (src : Src) : State :=
  match s.cmdOf c, Tab.get s.regions o.region with
  | some cm, some r =>
    if !s.mayAdmit cm o then s
    else match src with
      | .wait => s
      | .fail d => s.opDone c o.id d
      | .data dpa bytes d =>
        let s1 := s.updOp c o.id (fun o => { o with phase := .units, done := some d })
        if s.noDataAt r dpa bytes.length then s1.refuseWrite c o o.region r dpa bytes.length (cellsAt dpa bytes)
        else s1.writeUnits c o o.region r dpa bytes.length (cellsAt dpa bytes)
  | _, _ => s.opDone c o.id (OpDone.err ST.bounds)

/-- Bytes before the first poisoned line of a range. -/
def State.cleanPrefix (s : State) (dpa len : Nat) : Nat :=
  match (linesOf dpa len).find? (fun l => s.poison.contains l) with
  | some l => min len (l - dpa)
  | none => len

end Sys2Proof.Machine
end

