-- ==== Sys2Proof/Machine/Integer.lean ====
section
/-! DEFINITION. The integer instructions (Table ISA-8): each writes s[d] and completes at issue. -/

namespace Sys2Proof.Machine

/-- s[a] and operand B of an integer instruction (R141). -/
def Iss.sa (x : Iss) : Word := x.st.reg x.i.a.toNat

def Iss.sb (x : Iss) : Word := x.st.reg x.i.b.toNat

def Iss.opB (x : Iss) : Word := operandB x.sb x.i.imm32

/-- An integer instruction with opcode `op` and result `f`. -/
def State.integer (s : State) (k : SlotNo) (op : Nat) (f : Iss → Word) : Res := s.issue k op (fun x s => s.finishInt x (f x))

def execAdd (k : SlotNo) (s : State) : Res := s.integer k 0x10 (fun x => x.sa + x.opB)
def execSub (k : SlotNo) (s : State) : Res := s.integer k 0x11 (fun x => x.sa - x.opB)
def execAnd (k : SlotNo) (s : State) : Res := s.integer k 0x12 (fun x => x.sa &&& x.opB)
def execOr (k : SlotNo) (s : State) : Res := s.integer k 0x13 (fun x => x.sa ||| x.opB)
def execXor (k : SlotNo) (s : State) : Res := s.integer k 0x14 (fun x => x.sa ^^^ x.opB)
def execShl (k : SlotNo) (s : State) : Res := s.integer k 0x15 (fun x => x.sa <<< shiftOf x.opB)
def execShr (k : SlotNo) (s : State) : Res := s.integer k 0x16 (fun x => x.sa >>> shiftOf x.opB)
def execLi (k : SlotNo) (s : State) : Res := s.integer k 0x17 (fun x => x.i.hi)
def execCmp (k : SlotNo) (s : State) : Res := s.integer k 0x18 (fun x => cmpBits x.sa x.opB)
def execMov (k : SlotNo) (s : State) : Res := s.integer k 0x19 (fun x => x.sa)

end Sys2Proof.Machine
end

