-- ==== Sys2Proof/Machine/Control.lean ====
section
/-! DEFINITION. The control instructions (Table ISA-6, R149 to R151), the branch counters and call depth of R132. -/

namespace Sys2Proof.Machine

def execNop (k : SlotNo) (s : State) : Res := s.issue k 0x00 (fun x s => s.goto x.k (x.pc + 1))

/-- The innermost invocation of a strand changed. -/
def Strand.updTop (st : Strand) (f : Invocation → Invocation) : Strand :=
  match st.frames with
  | [] => st
  | i :: r => { st with frames := f i :: r }

/-- The branch is taken: a backward one counts, and ends the strand when its bound is passed (R132, R149). -/
def State.takeBranch (s : State) (x : Iss) : State :=
  let n := ((x.st.frames.head?).map (fun f => (Tab.get f.counters x.pc).getD 0)).getD 0
  let target := (x.i.target x.pc).toNat
  if x.i.backward then
    if n = x.i.bound then (s.bump F.PE_CNT3.BOUND_FAULTS).faultStrand x.k ST.fault x.i.opn x.pc
    else (s.updStrand x.k (fun st => st.updTop (fun f => { f with counters := Tab.put f.counters x.pc (n + 1) }))).goto x.k target
  else s.goto x.k target

/-- The branch falls through: its counter returns to zero. -/
def State.fallThrough (s : State) (x : Iss) : State :=
  (s.updStrand x.k (fun st => st.updTop (fun f => { f with counters := Tab.del f.counters x.pc }))).goto x.k (x.pc + 1)

def execBr (k : SlotNo) (s : State) : Res := s.issue k 0x01 (fun x s => s.takeBranch x)

def execBrc (k : SlotNo) (s : State) : Res :=
  s.issue k 0x02 (fun x s => if brcHolds x.i.dn x.sa then s.takeBranch x else s.fallThrough x)

/-- The procedures a program calls. -/
def callsOf (ws : List (BitVec 128)) : List Nat :=
  ws.filterMap (fun w => let i := IWord.ofBits w
    if i.opn = 0x03 then some (i.imm32.toNat % 4096) else none)

/-- A program, or a procedure it reaches in `n` levels of CALL, contains a privileged opcode. -/
def State.reachesPriv (s : State) : Nat → List (BitVec 128) → Bool
  | 0, ws => ws.any (fun w => isPrivOp (IWord.ofBits w).opn)
  | n + 1, ws => ws.any (fun w => isPrivOp (IWord.ofBits w).opn) ||
      (callsOf ws).any (fun p => s.reachesPriv n (s.progWords (.proc p)))

def State.qpPriv (s : State) (q : Nat) : Bool := ((Tab.get s.pe.qps q).map (·.priv)).getD false

/-- R150: CALL; a retired procedure ends the strand with ST_BUSY (R130), depth 8 with ST_FAULT (R132). -/
def execCall (k : SlotNo) (s : State) : Res :=
  s.issue k 0x03 (fun x s =>
    let p := x.i.imm32.toNat % 4096
    if !s.qpPriv x.st.qp && s.reachesPriv 8 (s.progWords (.proc p)) then s.failIssue x ST.rights
    else match Tab.get s.pe.procs p with
      | none => s.faultStrand x.k ST.fault x.i.opn x.pc
      | some q =>
        if q.retired then s.faultStrand x.k ST.busy x.i.opn x.pc
        else if 9 ≤ x.st.frames.length then (s.bump F.PE_CNT3.BOUND_FAULTS).faultStrand x.k ST.fault x.i.opn x.pc
        else match x.st.frames with
          | [] => s
          | f :: r => s.setFrames x.k ({ prog := .proc p, pc := 0, counters := [] } :: { f with pc := x.pc + 1 } :: r))

/-- RET: s[d] ← s[a], then the caller resumes, or the strand ends. -/
def execRet (k : SlotNo) (s : State) : Res :=
  s.issue k 0x04 (fun x s =>
    (s.updStrand x.k (fun st => st.setReg x.i.dn x.sa)).setFrames x.k (x.st.frames.drop 1))

def execWait (k : SlotNo) (s : State) : Res := s.issue k 0x05 (fun x s => s.goto x.k (x.pc + 1))

/-- Strands in the spill area stand at keys 4,096 and above. -/
def spillBase : Nat := 4096

/-- The spill area of 4,096 entries is full (R134). -/
def State.spillFull (s : State) : Bool := decide (4096 ≤ (s.pe.strands.filter (fun e => decide (spillBase ≤ e.1))).length)

/-- The lowest free spill entry. -/
def State.spillSlot (s : State) : Nat := Tab.fresh (s.pe.strands.filter (fun e => decide (spillBase ≤ e.1))) spillBase

/-- A strand's state goes to the spill area and its slot is released (R134, R151). -/
def State.spill (s : State) (k : Nat) (delay : Bool) : State :=
  match s.strandAt k with
  | none => s
  | some st =>
    State.swapCheck <| (s.updPe (fun p =>
      { p with strands := Tab.put (Tab.del p.strands k) s.spillSlot { st with spilled := true, delaying := delay } })).bump
      F.PE_CNT1.YIELDS

/-- YLD: behind the ready strands of its class, or spilled for a delay; with the spill area full it acts as with a
delay of 0 (R151). -/
def execYld (k : SlotNo) (s : State) : Res :=
  s.issue k 0x06 (fun x s =>
    let s1 := s.goto x.k (x.pc + 1)
    if x.i.imm32 = 0 ∨ s1.spillFull then s1 else s1.spill x.k true)

/-- R151: at most 16 SIG records a queue pair and second; the next one written carries the number dropped. One below MIN_SEV is
no record (R472). -/
def State.sigRecord (s : State) (x : Iss) : State :=
  match Tab.get s.pe.qps x.st.qp with
  | none => s
  | some q =>
    let now := s.time / 1000000000
    let n := if q.sigSecond = now then q.sigCount else 0
    if x.i.imm32.toNat < s.fld F.REC_CTL.MIN_SEV then s
    else if n < 16 then
      let proc := match (x.st.frames.head?).map (·.prog) with
        | some (.proc p) => p
        | _ => 0
      let v := BitVec.ofNat 64 (proc + (min 65535 q.sigDropped) * 2 ^ 48)
      let r := { s.mkRecord x.i.imm32.toNat .pe 8 x.i.imm32.toNat x.st.qp 0 x.sa x.sb with value := v }
      let q' := { q with sigSecond := now, sigCount := n + 1, sigDropped := 0 }
      let s1 := s.updPe (fun p => { p with qps := Tab.put p.qps x.st.qp q' })
      s1.pushRecord .pe r
    else
      let q' := { q with sigDropped := q.sigDropped + 1 }
      s.updPe (fun p => { p with qps := Tab.put p.qps x.st.qp q' })

def execSig (k : SlotNo) (s : State) : Res := s.issue k 0x07 (fun x s => (s.sigRecord x).goto x.k (x.pc + 1))

def execHlt (k : SlotNo) (s : State) : Res := s.issue k 0x08 (fun x s => s.endStrand x.k)

/-- TRAP: s1 ← imm32, and the strand ends with ST_FAULT. -/
def execTrap (k : SlotNo) (s : State) : Res :=
  s.issue k 0x09 (fun x s =>
    (s.updStrand x.k (fun st => st.setReg 1 (x.i.imm32.setWidth 64))).faultStrand x.k ST.fault x.i.opn x.pc)

/-! ### Spilled and aging strands -/

/-- A spilled strand takes a slot again (R134). -/
def State.unspill (s : State) (e : Nat) (st : Strand) : State :=
  match s.placeSlot (s.qpPriv st.qp) with
  | none => s
  | some k =>
    s.updPe (fun p => { p with strands := Tab.put (Tab.del p.strands e) k { st with spilled := false, delaying := false } })

/-- The strand's operations have all completed. -/
def State.opsDone (s : State) (st : Strand) : Bool := ((s.cmdOf st.cmd).map (fun c => c.ops.isEmpty)).getD true

/-- R134: a yielded strand resumes once its last outstanding operation has completed. -/
def execStrandResume (spill : BitVec 12) (s : State) : Res :=
  let e := spillBase + spill.toNat
  match s.strandAt e with
  | none => .next s
  | some st => when_ (s.running .pe && !st.delaying && s.opsDone st) s (s.unspill e st)

/-- R151: the delay of a spilled YLD has passed. -/
def execYldResume (spill : BitVec 12) (s : State) : Res :=
  let e := spillBase + spill.toNat
  match s.strandAt e with
  | none => .next s
  | some st => when_ (s.running .pe && st.delaying) s (s.unspill e st)

/-- R107: a ready strand that has not issued for AGE_LIMIT goes ahead of every class, once. -/
def execStrandAging (k : SlotNo) (s : State) : Res :=
  match s.strandAt k.toNat with
  | none => .next s
  | some st => when_ (s.running .pe && s.strandReady k.toNat st) s (s.updStrand k.toNat (fun x => { x with aged := true }))

end Sys2Proof.Machine
end

