-- ==== Sys2Proof/Machine/Access.lean ====
section
/-! DEFINITION. What the memory, durability, sealing, crypto, remote and tier instructions share: their accesses, their
issue, and reading a source (R141, R147, R153 to R156). -/

namespace Sys2Proof.Machine

/-! ### Accesses of an instruction -/

def Iss.cls (x : Iss) : Class := Class.ofCode x.i.cls.toNat

def Iss.primAcc (x : Iss) (want : Want) (len rights : Nat) (writes : Bool) (cls : Option Class) : Acc :=
  { h := x.st.primHandle x.i, want := want, off := x.st.primOff x.i, len := len, rights := rights, writes := writes, cls := cls }

def Iss.secAcc (x : Iss) (want : Want) (len rights : Nat) (writes : Bool) (cls : Option Class) : Acc :=
  { h := x.i.hs, want := want, off := x.st.secOff x.i, len := len, rights := rights, writes := writes, cls := cls }

def Iss.len (x : Iss) : Nat := x.st.length x.i

/-- A register length of zero (R141). -/
def Iss.zeroLen (x : Iss) : Bool := x.i.lreg && x.len == 0

/-- Region number of an access. -/
def Iss.region (x : Iss) (a : Acc) : Nat := hRegion (x.st.handle a.h)

/-- An instruction passes its issue checks, becomes outstanding, and makes what progress it can. -/
def State.begin_ (s : State) (x : Iss) (accs : List Acc) (keyOk lenOk : Bool) (o : Op) (adv : State → Nat → Op → State) : State :=
  if modeRefuses s.mod.mode x.i.opn then s.failIssue x ST.mode
  else match s.checks x.st accs keyOk lenOk with
    | some st => s.failIssue x st
    | none =>
      if x.zeroLen then s.finishNow x (OpDone.ok none)
      else adv (s.addOp x o) x.st.cmd o

/-- A length of 1 to 1,048,576 bytes, or a register length of zero (R153). -/
def Iss.lenOk (x : Iss) : Bool := decide (x.len ≤ 1048576)

/-- Alignment to, and a width of, 1, 2, 4 or 8 bytes. -/
def widthOk (off len : Nat) : Bool := (len == 1 || len == 2 || len == 4 || len == 8) && off % len == 0

/-! ### Sources -/

/-- A deliberate promotion is bringing in a block of the range (R315). -/
def State.promoting (s : State) (dpa len : Nat) : Bool :=
  s.tir.moves.any (fun m => m.held && m.kind != .dem && (blocksOf dpa len).any (fun b =>
    b / 16 == (m.left.headD 0) / 16 && m.left.contains b &&
    (match Tab.get s.nc.lines b with
     | some l => l.filling != 0
     | none => false)))

/-- What reading a source range gives now. -/
inductive SrcRead where
  | wait
  /-- It is to be read at the twin. -/
  | twin
  | fail (st : Status)
  /-- Its bytes, and how many come before the first poisoned line. -/
  | bytes (l : List Byte) (clean : Nat)

/-- An earlier write of the operation's strand to region `n` has still to be admitted (R155). -/
def State.ownWrite (s : State) (c : Nat) (o : Op) (n : Nat) : Bool := ((s.cmdOf c).map (fun x => x.ownWrite o.id n)).getD false

/-- R155: a source of an operation; `far` are its bytes when they came from the twin. -/
def State.readSrc (s : State) (c : Nat) (o : Op) (n dpa len : Nat) (far : Option (List Byte)) : SrcRead :=
  match Tab.get s.regions n with
  | none => .fail ST.bounds
  | some r =>
    if s.noDataAt r dpa len then .fail ST.nomirror
    else if s.readAtTwin r dpa len then (match far with
      | none => .twin
      | some l => if l.length = len then .bytes l len else .wait)
    else if !s.srcReady dpa len o.bound || (s.promoting dpa len && !o.far) || s.ownWrite c o n then .wait
    else .bytes (s.bytesFor o.bound o.skip dpa len) (s.cleanPrefix dpa len)

/-- The operation waits for bytes from the twin. -/
def State.askTwin (s : State) (c : Nat) (o : Op) (dpa len : Nat) : State :=
  (pagesOf dpa len).foldl (fun s p => s.wantPage p)
    ((s.updOp c o.id (fun o => { o with phase := .external })).emit (.twinRead c o.id dpa len))

/-- What a source's reading means for a write of the region `o.region`. -/
def SrcRead.toSrc (q : SrcRead) (f : List Byte → Nat → Src) : Src :=
  match q with
  | .wait => .wait
  | .twin => .wait
  | .fail st => .fail (OpDone.err st)
  | .bytes l clean => f l clean

/-- An operation with a source and a written range moves on: it asks the twin, waits, or writes. -/
def State.advCopy (s : State) (c : Nat) (o : Op) (n dpa len : Nat) (far : Option (List Byte)) (f : List Byte → Nat → Src) : State :=
  match s.readSrc c o n dpa len far with
  | .twin => s.askTwin c o dpa len
  | .wait => s.demandRange dpa len
  | q => (s.tierRead dpa len).runWrite c o (q.toSrc f)

end Sys2Proof.Machine
end

