-- ==== Sys2Proof/Machine/MemoryOps.lean ====
section
/-! DEFINITION. Memory instructions (Table ISA-9, R153 to R157) and durability instructions (Table ISA-10, R158, R159). -/

namespace Sys2Proof.Machine

/-- The operation of an instruction on a primary and a secondary local range. -/
def Iss.opOn (x : Iss) (s : State) (a : Acc) : Op :=
  { x.op s with region := x.region a, prim := s.accDpa x.st a, len := x.len }

/-- The same with a secondary range; `sec` is its DPA and its region number stands in `link`. -/
def Iss.opOn2 (x : Iss) (s : State) (a b : Acc) : Op :=
  { x.opOn s a with sec := s.accDpa x.st b, link := x.region b }

/-! ### LD and ST -/

/-- A load takes its bytes (Table ISA-9). -/
def State.advLd (s : State) (c : Nat) (o : Op) (far : Option (List Byte)) : State :=
  match s.readSrc c o o.region o.prim o.len far with
  | .wait => s.demandRange o.prim o.len
  | .twin => s.askTwin c o o.prim o.len
  | .fail st => s.opDone c o.id (OpDone.err st)
  | .bytes l clean =>
    if clean < o.len then s.opDone c o.id (OpDone.err ST.poison)
    else (s.tierRead o.prim o.len).opDone c o.id (OpDone.ok (some (BitVec.ofNat 64 (leNat l))))

/-- LD from scratch completes at once. -/
def State.loadScratch (s : State) (x : Iss) (a : Acc) : State :=
  s.finishNow x (OpDone.ok (some (BitVec.ofNat 64 (leNat (x.st.scratch.readN a.off a.len)))))

def execLd (k : SlotNo) (s : State) : Res :=
  s.issue k 0x20 (fun x s =>
    let a := x.primAcc .localOrScratch x.len rightR false none
    if hKind (x.st.handle a.h) = .scratch then
      match s.checks x.st [a] true (widthOk a.off a.len) with
      | some st => s.failIssue x st
      | none => s.loadScratch x a
    else s.begin_ x [a] true (widthOk a.off a.len) (x.opOn s a) (fun s c o => s.advLd c o none))

/-- The low bytes of s[b] + SIMM. -/
def Iss.storeBytes (x : Iss) : List Byte := leBytes x.len ((x.sb.toNat + x.i.simm) % 2 ^ 64)

def State.advSt (s : State) (c : Nat) (o : Op) : State :=
  s.runWrite c o (.data o.prim (leBytes o.len o.x.toNat) (OpDone.ok none))

/-- ST to scratch takes effect at once and admits no unit (R153). -/
def State.storeScratch (s : State) (x : Iss) (a : Acc) : State :=
  (s.updStrand x.k (fun st => { st with scratch := st.scratch.writeCells (cellsAt a.off x.storeBytes) })).finishNow x
    (OpDone.ok none)

def execSt (k : SlotNo) (s : State) : Res :=
  s.issue k 0x21 (fun x s =>
    let a := x.primAcc .localOrScratch x.len rightW true (some x.cls)
    if hKind (x.st.handle a.h) = .scratch then
      match s.checks x.st [a] true (widthOk a.off a.len) with
      | some st => s.failIssue x st
      | none => s.storeScratch x a
    else s.begin_ x [a] true (widthOk a.off a.len)
      { x.opOn s a with x := BitVec.ofNat 64 ((x.sb.toNat + x.i.simm) % 2 ^ 64) } (fun s c o => s.advSt c o))

/-! ### CPY, FIL, ZRO, CMPM -/

def State.atomicRegion (s : State) (n : Nat) : Bool := ((Tab.get s.regions n).map (fun r => r.atomic && !r.sealed)).getD false

/-- CPY: nothing from the first poisoned source line onward is written; an atomic extent is abandoned (R156). -/
def State.advCpy (s : State) (c : Nat) (o : Op) (far : Option (List Byte)) : State :=
  s.advCopy c o o.link o.sec o.len far (fun l clean =>
    let n : Option Word := some (BitVec.ofNat 64 clean)
    if clean < o.len then
      let d : OpDone := { st := ST.poison, val := n, cls := 0 }
      if s.atomicRegion o.region then .fail d else .data o.prim (l.take clean) d
    else .data o.prim l (OpDone.ok n))

def execCpy (k : SlotNo) (s : State) : Res :=
  s.issue k 0x22 (fun x s =>
    let a := x.primAcc .local_ x.len rightW true (some x.cls)
    let b := x.secAcc .local_ x.len rightR false none
    s.begin_ x [a, b] true x.lenOk (x.opOn2 s a b) (fun s c o => s.advCpy c o none))

/-- Byte i of a fill is byte i mod 8 of the register. -/
def fillBytes (v : Word) (len : Nat) : List Byte :=
  (List.range len).map (fun i => BitVec.ofNat 8 (v.toNat / 256 ^ (i % 8)))

def State.advFil (s : State) (c : Nat) (o : Op) : State :=
  s.runWrite c o (.data o.prim (fillBytes o.x o.len) (OpDone.ok none))

def execFil (k : SlotNo) (s : State) : Res :=
  s.issue k 0x23 (fun x s =>
    let a := x.primAcc .local_ x.len rightW true (some x.cls)
    s.begin_ x [a] true x.lenOk { x.opOn s a with x := x.st.reg x.i.dn } (fun s c o => s.advFil c o))

def State.advZro (s : State) (c : Nat) (o : Op) : State :=
  s.runWrite c o (.data o.prim (List.replicate o.len 0) (OpDone.ok none))

def execZro (k : SlotNo) (s : State) : Res :=
  s.issue k 0x24 (fun x s =>
    let a := x.primAcc .local_ x.len rightW true (some x.cls)
    s.begin_ x [a] true x.lenOk (x.opOn s a) (fun s c o => s.advZro c o))

/-- Offset of the first differing byte; all ones when equal. -/
def firstDiff (a b : List Byte) : Word :=
  match (List.range a.length).find? (fun i => a.getD i 0 != b.getD i 0) with
  | some i => BitVec.ofNat 64 i
  | none => BitVec.allOnes 64

/-- CMPM: bytes from the twin are those of the primary range, then those of the secondary, where each lies there. Poison anywhere
in either range completes it with ST_POISON, also beyond the first difference (R156; DESIGN CHOICE,
notes/assumptions/88.md). -/
def State.advCmpm (s : State) (c : Nat) (o : Op) (far : Option (List Byte)) : State :=
  let pTwin := match s.readSrc c o o.region o.prim o.len none with
    | .twin => true
    | _ => false
  match s.readSrc c o o.region o.prim o.len (far.map (·.take o.len)),
        s.readSrc c o o.link o.sec o.len (far.map (·.drop (if pTwin then o.len else 0))) with
  | .fail st, _ => s.opDone c o.id (OpDone.err st)
  | _, .fail st => s.opDone c o.id (OpDone.err st)
  | .twin, .twin => (s.askTwin c o o.prim o.len).emit (.twinRead c o.id o.sec o.len)
  | .twin, _ => s.askTwin c o o.prim o.len
  | _, .twin => s.askTwin c o o.sec o.len
  | .bytes l m, .bytes l' m' =>
    let s1 := (s.tierRead o.prim o.len).tierRead o.sec o.len
    if m < o.len ∨ m' < o.len then s1.opDone c o.id (OpDone.err ST.poison)
    else s1.opDone c o.id (OpDone.ok (some (firstDiff l l')))
  | _, _ => (s.demandRange o.prim o.len).demandRange o.sec o.len

def execCmpm (k : SlotNo) (s : State) : Res :=
  s.issue k 0x25 (fun x s =>
    let a := x.primAcc .local_ x.len rightR false none
    let b := x.secAcc .local_ x.len rightR false none
    s.begin_ x [a, b] true x.lenOk (x.opOn2 s a b) (fun s c o => s.advCmpm c o none))

/-! ### Atomics -/

/-- An atomic is admitted as a unit of eight bytes, and performed at its position in region order (R157). -/
def State.advAtomic (s : State) (c : Nat) (o : Op) (a : Atomic) : State :=
  match s.cmdOf c, Tab.get s.regions o.region with
  | some cm, some r =>
    if !s.mayAdmit cm o then s
    else
      let u := mkUnit s.pst.nextUnit o.region r o.prim 8 [] (o.classFor r) (.strand c o.id) (!s.isHome r)
      let s1 := (s.updOp c o.id (fun o => { o with phase := .units })).admitFor c o.id { u with atomic := some a }
      if s.noDataAt r o.prim 8 then s1.failOp c o.id ST.nomirror else s1
  | _, _ => s.opDone c o.id (OpDone.err ST.bounds)

def execAadd (k : SlotNo) (s : State) : Res :=
  s.issue k 0x28 (fun x s =>
    let a := x.primAcc .local_ 8 rightAtom true (some x.cls)
    s.begin_ x [a] true (a.off % 8 == 0) { x.opOn s a with len := 8, x := x.sb } (fun s c o => s.advAtomic c o (.add o.x)))

def execAcas (k : SlotNo) (s : State) : Res :=
  s.issue k 0x29 (fun x s =>
    let a := x.primAcc .local_ 8 rightAtom true (some x.cls)
    s.begin_ x [a] true (a.off % 8 == 0) { x.opOn s a with len := 8, x := x.sb, y := x.st.reg x.i.xs }
      (fun s c o => s.advAtomic c o (.cas o.x o.y)))

/-! ### FNC, CMT, MIRW -/

/-- The fence covers the region. -/
def Op.covers (o : Op) (region : Nat) : Bool := o.opcode == 0x30 || o.region == region

/-- R158: a fence completes once every covered unit admitted earlier, and every earlier write, has settled. With nothing to cover
its class is 0b11, which Table ISA-10 says of CMT and the model takes for FNC (DESIGN CHOICE, notes/assumptions/86.md). -/
def Op.fenceOutcome (o : Op) (c : Cmd) : Option OpDone :=
  let cov := c.hist.filter (fun h => decide (h.op < o.id) && o.covers h.region)
  if c.ops.any (fun f => decide (f.id < o.id) && f.writes && o.covers f.region && !f.admitted) ||
      cov.any (fun h => h.settle == .pending) then none
  else
    let cls := match lowestClass (cov.map (·.settle)) with
      | some c => c.code
      | none => 3
    some { st := (programFailure cov).getD 0, cls := cls,
           val := if o.opcode = 0x31 then some (BitVec.ofNat 64 cls) else none }

/-- The failures a fence reports have reached s31. -/
def State.fenceReported (s : State) (c : Nat) (o : Op) : State :=
  s.updCmd c (fun c => { c with hist := updAll (fun h => decide (h.op < o.id) && o.covers h.region) (fun h => { h with reported := true }) c.hist })

def execFnc (k : SlotNo) (s : State) : Res :=
  s.issue k 0x30 (fun x s => s.begin_ x [] true true (x.op s) (fun s _ _ => s))

def execCmt (k : SlotNo) (s : State) : Res :=
  s.issue k 0x31 (fun x s =>
    let a : Acc := { x.primAcc .local_ 0 0 false none with off := 0 }
    s.begin_ x [a] true true { x.op s with region := x.region a } (fun s _ _ => s))

/-- Pages of a region that were committed at D1 and are not yet copied to the twin (R159, R252). -/
def State.uncopied (s : State) (r : Region) : List Nat :=
  (s.phl.separation ++ s.phl.resyncLeft).filter (fun p => r.overlaps (16384 * p) 16384)

def execMirw (k : SlotNo) (s : State) : Res :=
  s.issue k 0x32 (fun x s =>
    let a : Acc := { x.primAcc .local_ 0 0 false none with off := 0 }
    match s.checks x.st [a] true true, s.accRegion x.st a with
    | some st, _ => s.failIssue x st
    | none, none => s.failIssue x ST.bounds
    | none, some r =>
      if r.floor = .d0 ∨ r.floor = .d1 then s.finishNow x (OpDone.ok (some (BitVec.ofNat 64 r.floor.code)))
      else if x.i.imm32 = 0 then s.finishNow x (OpDone.ok (some (if (s.uncopied r).isEmpty then 2 else 1)))
      else s.addOp x { x.op s with region := x.region a, pages := s.uncopied r })

/-- MIRW completes once the pages of its region that were to copy when it issued have been copied. -/
def State.mirwOutcome (s : State) (o : Op) : Option OpDone :=
  match Tab.get s.regions o.region with
  | some r => if o.pages.any (fun p => (s.uncopied r).contains p) then none else some (OpDone.ok (some 2))
  | none => some (OpDone.err ST.bounds)

/-- R159: the time limit of a MIRW passes. -/
def execMirwTimeLimit (c op : BitVec 32) (s : State) : Res :=
  match s.opOf c.toNat op.toNat with
  | none => .next s
  | some o =>
    when_ (s.running .pe && o.opcode == 0x32 && (s.mirwOutcome o).isNone) s
      (s.completeOp c.toNat o { st := ST.timeout, val := some 1, cls := 0 })

end Sys2Proof.Machine
end

