-- ==== Sys2Proof/Machine/SealOps.lean ====
section
/-! DEFINITION. Sealed logs (10 R350 to R357, 05 R160, R161): APP, SEAL, VRFY, the position of a record, the chain step,
checkpoints. -/

namespace Sys2Proof.Machine

/-- The key of purpose 0x30 (Table CIP-6). -/
def State.sealKey (s : State) (region tenant : Nat) : List Byte :=
  kdf (beBytes 32 ((s.cip.sealRoot.map (·.toNat)).getD 0)) (keyLabel 0x30 tenant region s.evenNode 0) 2 []

/-- Its reference, by which device work too looks a key up in the cache (R344). -/
def State.sealRef (s : State) (region tenant : Nat) : KeyRef :=
  { root := 3, use := 2, purpose := 0x30, tenant := tenant, region := region, node := s.evenNode, epoch := 0 }

/-- A checkpoint entry (Table CIP-9). -/
structure Ckpt where
  flags : Nat
  no : Nat
  seqEnd : Nat
  nextOff : Nat
  time : Nat
  head : List Byte
  signer : Nat
  region : Nat
  tenant : Nat

/-- Bytes 0 to 31 and 64 to 95: all but the head. -/
def Ckpt.first (c : Ckpt) : List Byte :=
  leBytes 2 2 ++ leBytes 2 c.flags ++ leBytes 4 c.no ++ leBytes 8 c.seqEnd ++ leBytes 8 c.nextOff ++ leBytes 8 c.time

def Ckpt.third (c : Ckpt) : List Byte := leBytes 4 c.signer ++ leBytes 4 (c.region + c.tenant * 2 ^ 16) ++ leBytes 24 0

/-- Bytes 0 to 127: what the signature covers. -/
def Ckpt.signed (c : Ckpt) (key : List Byte) : List Byte :=
  let b := c.first ++ c.head ++ c.third
  b ++ hmac key b

def Ckpt.bytes (c : Ckpt) (key sig : List Byte) : List Byte :=
  let b := c.signed key ++ sig ++ leBytes 28 0
  b ++ leBytes 4 (crc32c b).toNat

/-- H_0 (R352). -/
def Ckpt.h0 (c : Ckpt) : List Byte := sha256 (c.first ++ c.third)

/-- Start of the record area. -/
def Region.recordArea (r : Region) : Nat := 65536 * r.sealCfg.ckptArea

/-- Checkpoint 0 of a region (R355). -/
def State.ckpt0 (s : State) (n : Nat) (r : Region) : Ckpt :=
  { flags := 0, no := 0, seqEnd := 0, nextOff := r.recordArea, time := s.time, head := [], signer := s.node, region := n,
    tenant := r.tenant }

/-- A region becomes SEALED: its log begins, and its home writes checkpoint 0 (R355). -/
def State.startLog (s : State) (n : Nat) (r : Region) : State :=
  let c := s.ckpt0 n r
  let c := { c with head := c.h0 }
  let log : SealLog :=
    { items := [], nextId := 0, seq := 0, off := r.recordArea, head := c.head, ckpt := 1, doneSeq := 0, doneOff := r.recordArea,
      doneHead := c.head, doneCkpt := 1, soloRecord := false, covered := 0, doneCovered := 0, autoStopped := false }
  let bytes := c.bytes (s.sealKey n r.tenant) (leBytes 96 0)
  let s1 := s.updCip (fun x => { x with logs := Tab.put x.logs n log })
  if s.isHome r then s1.admitUnit (mkUnit s.pst.nextUnit n r r.base 256 (cellsAt r.base bytes) .d3 .device false) else s1

/-! ### Appending -/

/-- Bytes of the region promised to records that have no position yet. -/
def SealLog.promised (l : SealLog) : Nat :=
  sumOf ((l.items.filter (fun x => x.unit.isNone && !x.ckpt)).map (fun x => storedSize x.len))

/-- The record does not fit the region's remaining space (R353). -/
def State.logShort (s : State) (n : Nat) (r : Region) (len : Nat) : Bool :=
  match s.log n with
  | some l => decide (r.len < l.off + l.promised + storedSize len)
  | none => false

/-- A new item of a region's log. -/
def SealLog.add (l : SealLog) (it : SealItem) : SealLog :=
  { l with items := l.items ++ [{ it with id := l.nextId }], nextId := l.nextId + 1 }

def newItem (len : Nat) (door : Door) (source : Nat) (cls : Class) : SealItem :=
  { id := 0, ckpt := false, payload := [], door := door, source := source, cls := cls, len := len, ready := false, xref := none, unit := none,
    seq := 0, no := 0, off := 0, time := 0, linked := false, head := [] }

/-- The item of a door. -/
def SealLog.itemOf (l : SealLog) (d : Door) : Option SealItem := l.items.find? (fun x => x.door == d)

/-- An item that has no position is given up: its space returns. -/
def State.dropItem (s : State) (n id : Nat) : State :=
  s.updLog n (fun l => { l with items := l.items.filter (fun x => x.id != id) })

/-- The record's last byte has arrived. -/
def State.itemReady (s : State) (n : Nat) (d : Door) (payload : List Byte) : State :=
  s.updLog n (fun l => { l with items := updAll (fun x => x.door == d) (fun x => { x with payload := payload, ready := true }) l.items })

/-- A unit that carries a record to the home (R238). -/
def recordAway (id n : Nat) (r : Region) (bytes : List Byte) (door : Door) : CUnit :=
  { mkUnit id n r r.base bytes.length (cellsAt r.base bytes) .d3 door true with record := some 0 }

/-- An operation that CIP works for takes in its source, once it can be read; `fail` is what it comes to where it cannot. -/
def State.takeInput (s : State) (c : Nat) (o : Op) (far : Option (List Byte)) (fail : OpDone → State) : State :=
  match s.readSrc c o o.link o.sec o.len far with
  | .wait => s.demandRange o.sec o.len
  | .twin => s.askTwin c o o.sec o.len
  | .fail st => fail (OpDone.err st)
  | .bytes l clean =>
    if clean < o.len then fail (OpDone.err ST.poison)
    else (s.tierRead o.sec o.len).updOp c o.id (fun o => { o with input := some l, phase := .source })

/-- APP reads its payload, and once it may and its digest is done takes its place in the log (R164, R353); at the door that is not home
the record goes to the home. -/
def State.advApp (s : State) (c : Nat) (o : Op) (far : Option (List Byte)) : State :=
  let give (d : OpDone) : State :=
    (match (s.log o.region).bind (fun l => l.itemOf (.strand c o.id)) with
     | some it => s.dropItem o.region it.id
     | none => s).opDone c o.id d
  match s.cmdOf c, Tab.get s.regions o.region, o.input with
  | some _, some _, none => s.takeInput c o far give
  | some cm, some r, some l =>
    if !s.mayAdmit cm o then s
    else if s.isHome r then
      (if o.cip == .done then
        (s.updOp c o.id (fun o => { o with phase := .units })).itemReady o.region (.strand c o.id) l
       else s)
    else
      (s.updOp c o.id (fun o => { o with phase := .units })).admitFor c o.id
        (recordAway s.pst.nextUnit o.region r l (.strand c o.id))
  | _, _, _ => give (OpDone.err ST.bounds)

/-- APP at the home reserves the record's space at issue (R353). -/
def State.startApp (s : State) (x : Iss) (o : Op) (home : Bool) : State :=
  let s1 := if home then s.updLog o.region (fun l => l.add (newItem o.len (.strand x.st.cmd o.id) s.node .d3)) else s
  (s1.addOp x o).advApp x.st.cmd o none

def execApp (k : SlotNo) (s : State) : Res :=
  s.issue k 0x38 (fun x s =>
    let a0 : Acc := { x.primAcc .local_ 0 rightAppend false (some x.cls) with off := 0, sealedOnly := true }
    let r := s.accRegion x.st a0
    let home := (r.map (fun r => s.isHome r)).getD true
    let short := (r.map (fun r => home && s.logShort (x.region a0) r x.len)).getD false
    let a := { a0 with short := short }
    let b := x.secAcc .local_ x.len rightR false none
    let o := { x.opOn2 s a b with cls := .d3 }
    match s.checks x.st [a, b] true x.lenOk with
    | some st => s.failIssue x st
    | none => if x.zeroLen then s.finishNow x (OpDone.ok none) else s.startApp x o home)

/-- Doors whose records go in order: one strand's, one session's (Table DUR-5). -/
def sameStream : Door → Door → Bool
  | .strand c _, .strand d _ => c == d
  | .fabric n _ _, .fabric m _ _ => n == m
  | .twin _, .twin _ => true
  | _, _ => false

/-- The record that takes the next position: the first whose bytes are all there and whose door's earlier records have
theirs (R353). -/
def State.nextRecord (s : State) (l : SealLog) : Option SealItem :=
  (l.items.filter (fun x => x.unit.isNone && !x.ckpt && x.ready && (match x.door with
    | .fabric n msg f => s.fabricTurn n msg f s.pst.nextUnit
    | _ => true))).find? (fun x =>
    !((l.items.takeWhile (fun y => y.id != x.id)).any (fun y => y.unit.isNone && sameStream y.door x.door)))

/-- The unit of a record at its offset: the payload and its padding stand where they will, the header is still to come. -/
def recordUnit (id n : Nat) (r : Region) (l : SealLog) (it : SealItem) : CUnit :=
  let size := storedSize it.len
  let cells := cellsAt (r.base + l.off) (List.replicate 64 0 ++ it.payload ++ List.replicate (size - 64 - it.len) 0)
  { mkUnit id n r (r.base + l.off) size cells it.cls it.door false with record := some it.id, chained := false, xref := it.xref }

/-- A log's unit is admitted for the door of its item. -/
def State.admitItem (s : State) (it : SealItem) (u : CUnit) : State :=
  match it.door with
  | .strand c op => s.admitFor c op u
  | .fabric n msg _ =>
    (s.updSes n (updMsg msg (fun m => { m with units := m.units ++ [{ idx := 0, unit := u.id, settle := .pending }] }))).admitUnit u
  | _ => s.admitUnit u

/-- The number an append answers with. -/
def State.itemResult (s : State) (it : SealItem) (v : Nat) : State :=
  match it.door with
  | .strand c op => s.updOp c op (fun o => { o with done := some (OpDone.ok (some (BitVec.ofNat 64 v))) })
  | .fabric n msg _ => s.fabricResult n msg (BitVec.ofNat 64 v)
  | _ => s

/-- Position and charge are one step: the record takes SEQ, offset and TIME (R353). -/
def State.positionRecord (s : State) (n : Nat) (r : Region) (l : SealLog) (it : SealItem) : State :=
  let u := recordUnit s.pst.nextUnit n r l it
  let it' := { it with unit := some u.id, seq := l.seq + 1, off := l.off, time := s.time }
  let items := l.items.filter (fun x => x.id != it.id) ++ [it']
  let log' := { l with seq := l.seq + 1, off := l.off + storedSize it.len, items := items }
  ((s.updLog n (fun _ => log')).admitItem it' u).itemResult it' (l.seq + 1)

/-- An automatic checkpoint is due: AUTO_RECORDS records since the newest (Table CIP-7). -/
def SealLog.autoDue (l : SealLog) (cfg : SealCfg) : Bool :=
  cfg.autoRecords != 0 && decide (l.covered + cfg.autoRecords ≤ l.seq)

/-- No entry of the checkpoint area is free (R356). -/
def ckptFull (r : Region) (l : SealLog) : Bool := decide (256 * r.sealCfg.ckptArea ≤ l.ckpt)

/-- A checkpoint takes its position in region order (R161): its unit waits for its contents. -/
def State.positionCkpt (s : State) (n : Nat) (r : Region) (l : SealLog) (door : Door) : State :=
  let dpa := r.base + 256 * l.ckpt
  let u := { mkUnit s.pst.nextUnit n r dpa 256 [] .d3 door false with record := some l.nextId, chained := false }
  let it := { newItem 0 door s.node .d3 with ckpt := true, unit := some u.id, seq := l.seq, no := l.ckpt, off := l.off,
                                             time := s.time }
  ((s.updLog n (fun l => { l.add it with ckpt := l.ckpt + 1, covered := l.seq })).admitItem it u).itemResult it l.ckpt

/-- AUTO_RECORDS reached, or AUTO_MS passed with the newest record uncovered: a checkpoint is made, or automatic
checkpoints stop for want of an entry (R356). -/
def State.autoCheckpoint (s : State) (n : Nat) (r : Region) (l : SealLog) : State :=
  if ckptFull r l then
    if l.autoStopped then s
    else (s.updLog n (fun l => { l with autoStopped := true })).record sevError .cip 2 0 n Addr.CIP_ERR
  else s.positionCkpt n r l .device

def execRecordPosition (region : RegionNo) (s : State) : Res :=
  let n := region.toNat
  match Tab.get s.regions n, s.log n with
  | some r, some l =>
    (match s.nextRecord l with
     | none => .next s
     | some it =>
       let u := recordUnit s.pst.nextUnit n r l it
       let s1 := s.positionRecord n r l it
       let s2 := match s1.log n with
         | some l1 => if l1.autoDue r.sealCfg then s1.autoCheckpoint n r l1 else s1
         | none => s1
       when_ (s.running .pst && s.running .cip && s.isHome r && s.chargeFits u && !s.tenantWaits u.tenant u.id) s s2)
  | _, _ => .next s

/-! ### The chain -/

/-- Header bytes 0 to 23 of a record. -/
def recordHead (len seq time : Nat) : List Byte := leBytes 2 1 ++ leBytes 2 0 ++ leBytes 4 len ++ leBytes 8 seq ++ leBytes 8 time

/-- H_n (R352). -/
def chainHead (prev payload hdr : List Byte) : List Byte := sha256 (prev ++ sha256 payload ++ hdr)

/-- The 64 header bytes of a record (Table CIP-8). -/
def recordHeader (it : SealItem) (link : List Byte) : List Byte :=
  let b := recordHead it.len it.seq it.time ++ link ++ leBytes 4 it.source
  b ++ leBytes 4 (crc32c (b ++ it.payload)).toNat

/-- The item whose step is next: the positioned one of lowest unit that is not linked. -/
def SealLog.nextLink (l : SealLog) : Option SealItem :=
  (l.items.filter (fun x => x.unit.isSome && !x.linked)).foldl (fun (m : Option SealItem) x =>
    match m with
    | none => some x
    | some y => if x.unit.getD 0 < y.unit.getD 0 then some x else some y) none

/-- The cells of an item's unit are complete. -/
def State.fillUnit (s : State) (id dpa : Nat) (bytes : List Byte) : State :=
  s.updUnit id (fun u => { u with cells := cellsAt dpa bytes, chained := true })

/-- The home answers a forwarded append or SEAL with the header or the entry (R238). -/
def State.answerForward (s : State) (it : SealItem) (n : Nat) (bytes : List Byte) : State :=
  match it.door with
  | .twin msn =>
    match s.pst.units.find? (fun u => some u.id == it.unit) with
    | some u => (s.sendFrame { Frame.mk0 3 with
        region := n, cls := .d3, dpa := u.dpa, position := u.position, ref := msn, data := bytes }).updUnit u.id
        (fun x => { x with msn := some s.phl.txNext })
    | none => s
  | _ => s

/-- The chain step of a record. -/
def State.linkRecord (s : State) (n : Nat) (r : Region) (l : SealLog) (it : SealItem) : State :=
  let h := chainHead l.head it.payload (recordHead it.len it.seq it.time)
  let hdr := recordHeader it h
  let bytes := hdr ++ it.payload ++ List.replicate (storedSize it.len - 64 - it.len) 0
  let items := updAll (fun x => x.id == it.id) (fun x => { x with linked := true, head := h }) l.items
  (((s.updLog n (fun l => { l with head := h, items := items })).fillUnit (it.unit.getD 0) (r.base + it.off) bytes).answerForward it n hdr).pumpMirror

/-- The home makes and signs a checkpoint (R356). -/
def State.signCkpt (s : State) (n : Nat) (r : Region) (l : SealLog) (it : SealItem) : State :=
  let c : Ckpt :=
    { flags := if l.soloRecord then 1 else 0, no := it.no, seqEnd := it.seq, nextOff := it.off, time := it.time, head := l.head,
      signer := s.node, region := n, tenant := r.tenant }
  let key := s.sealKey n r.tenant
  let bytes := c.bytes key (beBytes 96 (Config.ecdsaSign (c.signed key)).toNat)
  (((s.updLog n (fun l =>
      { l with items := updAll (fun x => x.id == it.id) (fun x => { x with linked := true, head := l.head }) l.items })).fillUnit
    (it.unit.getD 0) (r.base + 256 * it.no) bytes).answerForward it n bytes).pumpMirror.useKey (s.sealRef n r.tenant)

/-- R352, R356: the chain step of the next record; or, once every earlier record has committed, so that FLAGS is known, the
next checkpoint. -/
def execChainStep (region : RegionNo) (s : State) : Res :=
  let n := region.toNat
  match Tab.get s.regions n, s.log n with
  | some r, some l =>
    (match l.nextLink with
     | none => .next s
     | some it =>
       when_ (s.running .cip && (!it.ckpt || !l.items.any (fun x => !x.ckpt && x.linked && decide (x.unit.getD 0 < it.unit.getD 0))))
         s (if it.ckpt then s.signCkpt n r l it else s.linkRecord n r l it))
  | _, _ => .next s

/-! ### SEAL and automatic checkpoints -/

def State.advSeal (s : State) (c : Nat) (o : Op) : State :=
  match s.cmdOf c, Tab.get s.regions o.region, s.log o.region with
  | some cm, some r, l =>
    if !s.mayAdmit cm o then s
    else
      let s1 := s.updOp c o.id (fun o => { o with phase := .units })
      if s.isHome r then (match l with
        | some l => s1.positionCkpt o.region r l (.strand c o.id)
        | none => s.opDone c o.id (OpDone.err ST.bounds))
      else s1.admitFor c o.id (recordAway s.pst.nextUnit o.region r [] (.strand c o.id))
  | _, _, _ => s.opDone c o.id (OpDone.err ST.bounds)

def execSeal (k : SlotNo) (s : State) : Res :=
  s.issue k 0x39 (fun x s =>
    let a0 : Acc := { x.primAcc .local_ 0 rightAppend false (some x.cls) with off := 0, sealedOnly := true }
    let short := match s.accRegion x.st a0, s.log (x.region a0) with
      | some r, some l => s.isHome r && ckptFull r l
      | _, _ => false
    s.begin_ x [{ a0 with short := short }] true true { x.op s with region := x.region a0, cls := .d3 }
      (fun s c o => s.advSeal c o))

/-- The first checkpoint of a log that is not signed. -/
def SealLog.unsigned (l : SealLog) : Option SealItem := l.items.find? (fun x => x.ckpt && !x.linked && x.unit.isSome)

/-- A checkpoint that could not be signed in time vacates its position and consumes no number: the later ones of the region, none of
which is signed yet, take the numbers and entries before theirs (R161, R354). -/
def State.vacate (s : State) (n : Nat) (it : SealItem) : State :=
  let id := it.unit.getD 0
  let later := (((s.log n).map (·.items)).getD []).filter (fun x => x.ckpt && decide (it.no < x.no))
  let s1 := later.foldl (fun t x => (t.updUnit (x.unit.getD 0) (fun u => { u with dpa := u.dpa - 256 })).itemResult x (x.no - 1))
    (s.setUnits (s.pst.units.filter (fun u => u.id != id)))
  s1.updLog n (fun l =>
    let items := l.items.filter (fun x => x.id != it.id)
    { l with
      items := updAll (fun x => x.ckpt && decide (it.no < x.no)) (fun x => { x with no := x.no - 1 }) items
      ckpt := l.ckpt - 1
      covered := if items.any (fun x => x.ckpt) then l.covered else l.doneCovered })

/-- R161, R356: CTL has not signed within 10 ms. -/
def execSealTimeout (region : RegionNo) (s : State) : Res :=
  let n := region.toNat
  match (s.log n).bind (·.unsigned) with
  | none => .next s
  | some it =>
    let s1 := (s.vacate n it).bump F.CIP_CNT3.SEAL_TIMEOUTS
    when_ (s.running .cip) s
      (match it.door with
       | .strand c op => (s1.updCmd c (fun c => { c with hist := c.hist.filter (fun h => some h.id != it.unit) })).opDone c op
           (OpDone.err ST.timeout)
       | .twin msn => s1.sendFrame { Frame.mk0 3 with region := n, ref := msn, aux := ST.timeout.toNat }
       | _ => s1.recFlag sevWarn .cip F.CIP_ERR.SEAL_LATE n)

/-- R356: AUTO_MS has passed with the newest record uncovered, or the last automatic checkpoint was not made. -/
def execAutoCheckpoint (region : RegionNo) (s : State) : Res :=
  let n := region.toNat
  match Tab.get s.regions n, s.log n with
  | some r, some l =>
    when_ (s.running .cip && s.isHome r && (r.sealCfg.autoMs != 0 || r.sealCfg.autoRecords != 0) && decide (l.covered < l.seq)) s
      (s.autoCheckpoint n r l)
  | _, _ => .next s

/-! ### VRFY -/

/-- A record as it stands in memory. -/
structure RecView where
  len : Nat
  seq : Nat
  link : List Byte
  crcOk : Bool
  payload : List Byte
  hdr : List Byte

def State.viewRecord (s : State) (dpa : Nat) : RecView :=
  let h := s.bytes dpa 64
  let len := leNat ((h.drop 4).take 4)
  let p := s.bytes (dpa + 64) len
  { len := len, seq := leNat ((h.drop 8).take 8), link := (h.drop 24).take 32,
    crcOk := leNat (h.drop 60) == (crc32c (h.take 60 ++ p)).toNat, payload := p, hdr := h.take 24 }

/-- A checkpoint of the range fails one of its checks. -/
def State.ckptBad (s : State) (r : Region) (n : Nat) (link e : List Byte) (sigs : Bool) : Bool :=
  leNat (e.drop 252) != (crc32c (e.take 252)).toNat || (e.drop 32).take 32 != link ||
  (e.drop 96).take 32 != hmac (s.sealKey n r.tenant) (e.take 96) ||
  (sigs && !Config.ecdsaVerify (Config.certKey (leNat ((e.drop 64).take 4) % 2 ^ 18)) (e.take 128) ((e.drop 128).take 96))

/-- Committed checkpoints whose SEQ_END is `seq`. -/
def State.ckptsAt (s : State) (r : Region) (count seq : Nat) : List (List Byte) :=
  ((List.range count).map (fun i => s.bytes (r.base + 256 * i) 256)).filter (fun e => leNat ((e.drop 8).take 8) == seq)

/-- The walk of VRFY from the record at `off`, whose predecessor's head is `prev`: records before `first` are passed over.
The result: the status and the value of s[d]. -/
def State.verify (s : State) (n : Nat) (r : Region) (ckpts first : Nat) (sigs : Bool) : Nat → Nat → Nat → List Byte → OpDone
  | 0, _, _, _ => OpDone.ok (some (BitVec.allOnes 64))
  | k + 1, seq, off, prev =>
    let v := s.viewRecord (r.base + off)
    let bad (st : Status) : OpDone := { st := st, val := some (BitVec.ofNat 64 seq), cls := 0 }
    if seq < first then s.verify n r ckpts first sigs k (seq + 1) (off + storedSize v.len) v.link
    else if s.poisoned (r.base + off) (64 + v.len) then bad ST.poison
    else if !v.crcOk || v.seq != seq || v.link != chainHead prev v.payload v.hdr then bad ST.integrity
    else if (s.ckptsAt r ckpts seq).any (fun e => s.ckptBad r n v.link e sigs) then bad ST.integrity
    else s.verify n r ckpts first sigs k (seq + 1) (off + storedSize v.len) v.link

/-- H_0 of a region from its checkpoint 0. -/
def State.regionH0 (s : State) (r : Region) : List Byte :=
  let e := s.bytes r.base 256
  sha256 (e.take 32 ++ (e.drop 64).take 32)

/-- SEQ_END, NEXT_OFFSET and HEAD of a checkpoint entry. -/
def ckptEnd (e : List Byte) : Nat × Nat × List Byte :=
  (leNat ((e.drop 8).take 8), leNat ((e.drop 16).take 8), (e.drop 32).take 32)

/-- Where the walk of VRFY to record `first` begins: the record after the latest committed checkpoint before it, its offset and the
head there; the region's first record against H_0 (R357). -/
def State.walkStart (s : State) (r : Region) (count first : Nat) : Nat × Nat × List Byte :=
  ((List.range count).map (fun i => ckptEnd (s.bytes (r.base + 256 * i) 256))).foldl (fun m e =>
    if decide (e.1 < first) && decide (m.1 ≤ e.1) && decide (0 < e.1) then (e.1 + 1, e.2) else m) (1, r.recordArea, s.regionH0 r)

def State.advVrfy (s : State) (c : Nat) (o : Op) : State :=
  match Tab.get s.regions o.region, s.log o.region with
  | some r, some l =>
    if !s.srcReady r.base l.doneOff o.bound then s.demandRange r.base l.doneOff
    else if o.cip != .done then s
    else
      let w := s.walkStart r l.doneCkpt o.prim
      let d := s.verify o.region r l.doneCkpt o.prim (o.sec == 1) (o.prim + o.len - w.1) w.1 w.2.1 w.2.2
      let s1 := s.useKey (s.sealRef o.region r.tenant)
      (if d.st = ST.integrity then s1.bump F.CIP_CNT3.VRFY_FAILS else s1).opDone c o.id d
  | _, _ => s.opDone c o.id (OpDone.err ST.bounds)

/-- R357; `prim`, `len` and `sec` hold the first SEQ, the count and imm32 bit 0. -/
def execVrfy (k : SlotNo) (s : State) : Res :=
  s.issue k 0x3A (fun x s =>
    let first := x.sa.toNat
    let count := x.sb.toNat
    let a0 : Acc := { x.primAcc .local_ 0 rightR false none with off := 0, sealedOnly := true }
    let last := ((s.log (x.region a0)).map (·.doneSeq)).getD 0
    let short := count != 0 && (first == 0 || decide (last < first + count - 1))
    match s.checks x.st [{ a0 with short := short }] true true with
    | some st => s.failIssue x st
    | none =>
      if count = 0 then s.finishNow x (OpDone.ok (some (BitVec.allOnes 64)))
      else
        let o := { x.op s with region := x.region a0, prim := first, len := count, sec := x.i.imm32.toNat % 2 }
        (s.addOp x o).advVrfy x.st.cmd o)

end Sys2Proof.Machine
end

