-- ==== Sys2Proof/Machine/CipherOps.lean ====
section
/-! DEFINITION. Crypto instructions (Table ISA-12, R162 to R164), the key cache, and the scheduler, parity and quarantine of
the CIP units (10 R329 to R349). -/

namespace Sys2Proof.Machine

/-! ### Keys -/

/-- The bytes of a root by its selector (Table CIP-4); blank fuses read as zero. -/
def State.rootBytes (s : State) (sel : Nat) : List Byte :=
  beBytes 32 (match sel with
    | 0 => Config.deviceRoot.toNat
    | 1 => Config.storageRoot.toNat
    | 2 => (s.cip.fabricRoot.map (·.toNat)).getD 0
    | _ => (s.cip.sealRoot.map (·.toNat)).getD 0)

/-- The derived key a reference names (R344). -/
def State.keyBytes (s : State) (k : KeyRef) : List Byte :=
  kdf (s.rootBytes k.root) (keyLabel k.purpose k.tenant k.region k.node k.epoch) k.use []

/-! ### DRV -/

def Iss.keyRef (x : Iss) (s : State) : KeyRef :=
  { root := bitsOf (x.i.imm32.setWidth 64) 0 2, use := bitsOf (x.i.imm32.setWidth 64) 8 2, purpose := bitsOf (x.i.imm32.setWidth 64) 16 8,
    tenant := ((Tab.get s.pe.qps x.st.qp).map (·.tenant)).getD 0, region := bitsOf x.sa 0 16, node := bitsOf x.sa 16 18,
    epoch := bitsOf x.sb 0 32 }

/-- R162, R342: purposes below 0x80 are the device's; an ordinary queue has the storage root alone. -/
def drvRefused (priv : Bool) (k : KeyRef) : Bool := decide (k.purpose < 0x80) || (!priv && k.root != 1)

def execDrv (k : SlotNo) (s : State) : Res :=
  s.issue k 0x40 (fun x s =>
    let key := x.keyRef s
    if drvRefused (s.qpPriv x.st.qp) key then s.failIssue x ST.rights
    else
      let o := { x.op s with key := some key, phase := .external }
      if s.cip.cache.contains key then (s.cacheKey key).addOp x { o with phase := .ready, done := some (OpDone.ok none) }
      else (s.bump F.CIP_CNT1.KEY_MISSES).addOp x o)

/-- R346: the KDU completes a derivation; a third mismatch in succession fails it. -/
def execKeyDerivation (c op : BitVec 32) (mismatches : BitVec 2) (s : State) : Res :=
  match s.opOf c.toNat op.toNat with
  | none => .next s
  | some o =>
    match o.key with
    | none => .next s
    | some key =>
      let m := mismatches.toNat
      let s1 := s.bumpBy F.CIP_CNT3.KDU_RERUNS (min 2 m)
      let s2 := if m = 0 then s1 else s1.record sevNotice .cip 3 48 0 F.CIP_CNT3.KDU_RERUNS.addr
      when_ (s.running .cip && o.opcode == 0x40 && o.phase == .external) s
        (if m = 3 then (s2.record sevCritical .cip 3 48 0 F.CIP_CNT3.KDU_RERUNS.addr).opDone c.toNat op.toNat (OpDone.err ST.internal)
         else (s2.cacheKey key).opDone c.toNat op.toNat (OpDone.ok none))

/-- The key slot of a completed DRV takes its reference. -/
def State.setKeySlot (s : State) (c : Nat) (o : Op) : State :=
  match s.slotOf c with
  | some k => s.updStrand k (fun st => { st with k := st.k.set (o.keys.headD 0) o.key })
  | none => s

/-! ### ENC and DEC -/

/-- The reference in a key slot, where its use is the wanted one (R162). -/
def Iss.key (x : Iss) (use : Nat) : Option KeyRef := ((x.st.k.getD (x.i.dn % 8) none)).filter (fun k => k.use == use)

/-- Lengths of R163 and, in AS8200 mode, of Table CIP-3. -/
def cipherLenOk (enc gcm as8200 : Bool) (n : Nat) : Bool :=
  match gcm, as8200 with
  | false, false => decide (16 ≤ n) && decide (n ≤ 1048576) && n % 16 == 0
  | false, true => n == 512 || n == 4096
  | true, false => if enc then decide (1 ≤ n) && decide (n ≤ 1048576) else decide (16 ≤ n) && decide (n ≤ 1048592)
  | true, true => if enc then decide (1 ≤ n) && decide (n ≤ 65536) else decide (16 ≤ n) && decide (n ≤ 65552)

/-- AES-256-XTS over one data unit (R163). -/
def xts (key : List Byte) (tweak : Word) (enc : Bool) (l : List Byte) : List Byte :=
  let k1 := aesKeys (key.take 32)
  let t := aesBlock (aesKeys ((key.drop 32).take 32)) (leBytes 16 tweak.toNat)
  xtsBlocks (fun b => if enc then aesBlock k1 b else aesInvBlock k1 b) (l.length / 16) t l

/-- The IV: the key's salt, then s[a]. -/
def gcmIv (key : List Byte) (ctr : Word) : List Byte := (key.drop 32).take 4 ++ leBytes 8 ctr.toNat

/-- What an ENC or DEC writes; none when a tag does not verify. -/
def cipherBytes (key : List Byte) (x : Word) (enc gcm : Bool) (l : List Byte) : Option (List Byte) :=
  if !gcm then some (xts key x enc l)
  else if enc then (let r := gcmSeal (key.take 32) (gcmIv key x) [] l
    some (r.1 ++ r.2))
  else gcmOpen (key.take 32) (gcmIv key x) [] (l.take (l.length - 16)) (l.drop (l.length - 16))

/-- What a cipher operation's input becomes. -/
def State.cipherOut (s : State) (o : Op) (l : List Byte) : Option (List Byte) :=
  match o.key with
  | some k => cipherBytes (s.keyBytes k) o.x (o.opcode == 0x41) (k.use == 1) l
  | none => none

/-- ENC and DEC take in their source; once their message has run, they write what CIP has not released before (R163, R164, R347). -/
def State.advCipher (s : State) (c : Nat) (o : Op) (far : Option (List Byte)) : State :=
  match o.input with
  | none => s.takeInput c o far (fun d => s.opDone c o.id d)
  | some l =>
    if o.cip != .done then s
    else match s.cipherOut o l with
      | none => s.runWrite c o (.fail (OpDone.err ST.integrity))
      | some b => s.runWrite c o (.data (o.prim + o.out) (b.drop o.out) (OpDone.ok none))

/-- Output comes piece by piece: of ENC, and of DEC with XTS; DEC with GCM gives nothing before its tag has verified (R163). -/
def Op.streams (o : Op) : Bool :=
  o.opcode == 0x41 || (o.opcode == 0x42 && (match o.key with
    | some k => k.use == 0
    | none => false))

/-- CIP releases the first `upto` bytes of an operation's output; an atomic extent is written as one (R347, R60). -/
def State.releaseOut (s : State) (c : Nat) (o : Op) (upto : Nat) : State :=
  match s.cmdOf c, Tab.get s.regions o.region, o.input.bind (fun l => s.cipherOut o l) with
  | some cm, some r, some b =>
    if o.streams && !r.atomic && decide (o.out < upto) && s.mayAdmit cm o && !s.noDataAt r o.prim b.length then
      (s.writeUnits c o o.region r (o.prim + o.out) (upto - o.out) (cellsAt (o.prim + o.out) ((b.drop o.out).take (upto - o.out)))).updOp
        c o.id (fun o => { o with out := upto })
    else s
  | _, _, _ => s

/-- ENC and DEC issue: primary ← cipher of the secondary. -/
def State.startCipher (s : State) (x : Iss) (enc : Bool) : State :=
  let gcm := x.i.m
  let mode := ((Tab.get s.pe.qps x.st.qp).map (·.as8200)).getD false
  let n := x.len
  let out := if gcm then (if enc then n + 16 else n - 16) else n
  let ok := x.zeroLen || cipherLenOk enc gcm mode n
  let a := x.primAcc .local_ out rightW true (some x.cls)
  let b := x.secAcc .local_ n rightR false none
  let key := x.key (if gcm then 1 else 0)
  let s1 := if mode && !ok && cipherLenOk enc gcm false n then s.bump F.CIP_CNT1.COMPAT_LENGTH else s
  let o := { x.opOn2 s1 a b with x := x.sa, key := key }
  s1.begin_ x [a, b] key.isSome ok o (fun s c o => s.advCipher c o none)

def execEnc (k : SlotNo) (s : State) : Res := s.issue k 0x41 (fun x s => s.startCipher x true)
def execDec (k : SlotNo) (s : State) : Res := s.issue k 0x42 (fun x s => s.startCipher x false)

/-! ### DIG and MAC -/

/-- DIG and MAC: 32 bytes at the primary address, once their message has run (R164). -/
def State.advDigest (s : State) (c : Nat) (o : Op) (far : Option (List Byte)) : State :=
  match o.input with
  | none => s.takeInput c o far (fun d => s.opDone c o.id d)
  | some l =>
    if o.cip != .done then s
    else s.runWrite c o (.data o.prim (match o.key with
      | some k => hmac (s.keyBytes k) l
      | none => sha256 l) (OpDone.ok none))

def execDig (k : SlotNo) (s : State) : Res :=
  s.issue k 0x43 (fun x s =>
    let a := x.primAcc .local_ 32 rightW true (some x.cls)
    let b := x.secAcc .local_ x.len rightR false none
    s.begin_ x [a, b] true x.lenOk (x.opOn2 s a b) (fun s c o => s.advDigest c o none))

def execMac (k : SlotNo) (s : State) : Res :=
  s.issue k 0x44 (fun x s =>
    let a := x.primAcc .local_ 32 rightW true (some x.cls)
    let b := x.secAcc .local_ x.len rightR false none
    s.begin_ x [a, b] (x.key 2).isSome x.lenOk { x.opOn2 s a b with key := x.key 2 } (fun s c o => s.advDigest c o none))

/-! ### The scheduler (R331 to R334) -/

def CipUnit.idle : CipUnit := { running := none, suspended := [], errors := [] }

def State.cipUnit (s : State) (u : Nat) : CipUnit := (Tab.get s.cip.units u).getD CipUnit.idle

def State.setCipUnit (s : State) (u : Nat) (x : CipUnit) : State := s.updCip (fun c => { c with units := Tab.put c.units u x })

/-- Units of a message's kind that may run it: in service, and none that met its parity errors. -/
def State.unitsFor (s : State) (m : CipMsg) : List Nat := (s.unitsInService m.lane).filter (fun u => !m.bad.contains u)

/-- Among units running a lower class with a free suspend slot, the one with the lowest class and then most bytes left
(R333). -/
def State.preemptee (s : State) (m : CipMsg) : Option (Nat × CipMsg) :=
  (s.unitsFor m).foldl (fun (best : Option (Nat × CipMsg)) u =>
    let x := s.cipUnit u
    match x.running with
    | none => best
    | some r =>
      if decide (m.cls < r.cls) && decide (x.suspended.length < 4) then
        match best with
        | none => some (u, r)
        | some (_, b) => if b.cls < r.cls || (b.cls == r.cls && b.left < r.left) then some (u, r) else best
      else best) none

/-- A message arrives at the scheduler (R332, R333). -/
def State.schedule (s : State) (m : CipMsg) : State :=
  match (s.unitsFor m).find? (fun u => (s.cipUnit u).running.isNone) with
  | some u => s.setCipUnit u { s.cipUnit u with running := some m }
  | none =>
    match s.preemptee m with
    | some (u, r) =>
      let x := s.cipUnit u
      ((s.setCipUnit u { x with running := some m, suspended := x.suspended ++ [r] }).bump F.CIP_CNT0.SUSPENDS).countEvent 0x072 1
        none (some u)
    | none => s.updCip (fun c => { c with waiting := c.waiting ++ [m] })

/-- A page being destaged keeps its charge, and is destaged again later. -/
def State.failDestage (s : State) : State :=
  match s.dst.pages.find? (fun e => e.2.destaging) with
  | some e => { s with dst := { s.dst with pages := Tab.put s.dst.pages e.1 { e.2 with destaging := false } } }
  | none => s

/-- The requester of a message that fails acts: an operation completes with ST_INTERNAL, destage retries its page later (R348, R349). -/
def State.failOwner (s : State) (m : CipMsg) : State :=
  match m.work with
  | .strand c op => s.opDone c.toNat op.toNat (OpDone.err ST.internal)
  | .destage => s.failDestage
  | _ => s

/-- The kind of unit that an instruction's message runs on: a digest lane or an AES core (R164, Table CIP-2). -/
def cipLane (opcode : Nat) : Option Bool :=
  match opcode with
  | 0x41 | 0x42 => some false
  | 0x38 | 0x3A | 0x43 | 0x44 => some true
  | _ => none

/-- Class of a queue pair's strands (R107). -/
def State.classOf (s : State) (c : Nat) : Nat :=
  ((s.cmdOf c).bind (fun cm => (Tab.get s.pe.qps cm.qp).map (·.cls))).getD 2

/-- The input of an operation's message is there: its source has been taken in, or the records that VRFY walks can be read. -/
def State.inputReady (s : State) (o : Op) : Bool :=
  if o.opcode = 0x3A then (match Tab.get s.regions o.region, s.log o.region with
    | some r, some l => s.srcReady r.base l.doneOff o.bound
    | _, _ => false)
  else o.input.isSome

/-- The message of a strand's operation: one for each, of its queue pair's class (R107, R164). -/
def State.strandMsg (s : State) (c op : Nat) (w : CipWork) : Option CipMsg :=
  match s.opOf c op with
  | none => none
  | some o =>
    match cipLane o.opcode with
    | none => none
    | some lane =>
      if o.phase == .source && o.cip == .none && s.inputReady o then
        let n := if o.opcode = 0x3A then ((s.log o.region).map (·.doneOff)).getD 0 else o.len
        some { id := s.cip.nextMsg, work := w, lane := lane, cls := s.classOf c, left := n, len := n, bad := [] }
      else none

/-- Unit and class of device work (Table CIP-2). -/
def deviceWork (w : CipWork) (zone : Nat) : Bool × Nat :=
  match w with
  | .packet | .save | .demandRestore => (false, 0)
  | .chainStep => (true, 0)
  | .restore => (false, 1)
  | .appendDigest => (true, 1)
  | .destage => (false, if zone = 0 then 2 else 1)
  | .strand _ _ => (false, 2)

/-- The message that a CIP_MESSAGE presents. -/
def State.cipMsg (s : State) (w : CipWork) (bytes : Nat) : Option CipMsg :=
  match w with
  | .strand c op => s.strandMsg c.toNat op.toNat w
  | w => some { id := s.cip.nextMsg, work := w, lane := (deviceWork w s.dst.zone).1, cls := (deviceWork w s.dst.zone).2, left := bytes,
                len := bytes, bad := [] }

/-- Crossing by which work comes, and its depth (Table ARC-2). -/
def workCrossing : CipWork → Nat × Nat
  | .packet | .appendDigest => (2, 256)
  | .save | .demandRestore | .restore | .destage => (11, 128)
  | .chainStep | .strand _ _ => (14, 128)

/-- The source's crossing has room: beyond its depth the source holds its work back (R16, R29). -/
def State.cipRoom (s : State) (w : CipWork) : Bool :=
  decide ((s.cip.waiting.filter (fun m => (workCrossing m.work).1 == (workCrossing w).1)).length < (workCrossing w).2)

/-- An operation's message has started: its key is looked up (R344). -/
def State.startMsg (s : State) (w : CipWork) : State :=
  let s1 := s.updCip (fun c => { c with nextMsg := c.nextMsg + 1 })
  match w with
  | .strand c op =>
    let s2 := s1.updOp c.toNat op.toNat (fun o => { o with cip := .running })
    (match (s.opOf c.toNat op.toNat).bind (·.key) with
     | some k => s2.useKey k
     | none => s2)
  | _ => s1

/-- An operation's message has run to its end. -/
def State.endMsg (s : State) (m : CipMsg) : State :=
  match m.work with
  | .strand c op => s.updOp c.toNat op.toNat (fun o => { o with cip := .done })
  | _ => s

/-- A message arrives from its source and runs, preempts or waits (R331 to R333). -/
def execCipMessage (work : CipWork) (bytes : BitVec 36) (s : State) : Res :=
  match s.cipMsg work bytes.toNat with
  | none => .next s
  | some m =>
    when_ (s.running .cip && s.cipRoom work) s
      (if s.noUnit m.lane then (s.startMsg work).failOwner m else (s.startMsg work).schedule m)

/-- The message a unit takes next: the highest class; at equal class its own suspended ones first, then the one that has
waited longest (R332). -/
def nextMsg (own waiting : List CipMsg) : Option CipMsg :=
  (own ++ waiting).foldl (fun (best : Option CipMsg) m =>
    match best with
    | none => some m
    | some b => if m.cls < b.cls then some m else best) none

/-- The unit is free and takes its next message. -/
def State.unitNext (s : State) (u : Nat) : State :=
  let x := s.cipUnit u
  let mine := s.cip.waiting.filter (fun m => m.lane == decide (32 ≤ u) && !m.bad.contains u)
  match nextMsg x.suspended mine with
  | none => s.setCipUnit u { x with running := none }
  | some m =>
    (s.setCipUnit u { x with running := some m, suspended := x.suspended.filter (fun y => y.id != m.id) }).updCip
      (fun c => { c with waiting := c.waiting.filter (fun y => y.id != m.id) })

def execCipUnitFree (unit : BitVec 6) (s : State) : Res :=
  let u := unit.toNat
  match (s.cipUnit u).running with
  | none => .next s
  | some m =>
    when_ (s.running .cip) s
      (((s.countEvent (if m.lane then 0x071 else 0x070) ((m.left + 63) / 64) none (some (if m.lane then u - 32 else u))).unitNext
        u).endMsg m)

/-- R332: raised one class, to HIGH at most. -/
def CipMsg.age (m : CipMsg) : CipMsg := if 1 < m.cls then { m with cls := m.cls - 1 } else m

def execCipAging (msg : BitVec 32) (s : State) : Res :=
  let id := msg.toNat
  let all := s.cip.waiting ++ s.cip.units.flatMap (fun e => e.2.suspended)
  let f := updAll (fun m => m.id == id) CipMsg.age
  when_ (s.running .cip && all.any (fun m => m.id == id && decide (1 < m.cls))) s
    ((s.updCip (fun c => { c with waiting := f c.waiting, units := c.units.map (fun e => (e.1, { e.2 with suspended := f e.2.suspended })) })).bump
      F.CIP_CNT0.AGED)

/-! ### Parity and quarantine (R348, R349) -/

/-- A message is replayed on another unit, or fails when it has met errors on three. -/
def State.replay (s : State) (u : Nat) (m : CipMsg) : State :=
  let m' := { m with bad := m.bad ++ [u] }
  if 3 ≤ m'.bad.length ∨ s.noUnit m.lane then s.failOwner m' else (s.bump F.CIP_CNT2.PARITY_REPLAYS).schedule m'

/-- Everything that waits for a kind with no unit left completes with ST_INTERNAL. -/
def State.drainKind (s : State) (lane : Bool) : State :=
  (s.cip.waiting.filter (fun m => m.lane == lane)).foldl (fun s m => s.failOwner m)
    (s.updCip (fun c => { c with waiting := c.waiting.filter (fun m => m.lane != lane) }))

/-- R349: the unit takes no more work. -/
def State.quarantine (s : State) (u : Nat) : State :=
  let x := s.cipUnit u
  let lane := decide (32 ≤ u)
  let s1 := { s with regs := putFld s.regs ⟨Addr.CIP_QUAR, u, 1⟩ 1 }
  let s2 := ((s1.setCipUnit u { x with running := none, suspended := [] }).bump F.CIP_CNT2.QUARANTINES).recFlag sevError .cip
    F.CIP_ERR.QUARANTINE u
  let s3 := (x.suspended ++ x.running.toList).foldl (fun s m => s.replay u m) s2
  if s3.noUnit lane then ((s3.drainKind lane).recFlag sevCritical .cip F.CIP_ERR.NO_CORE u) else s3

/-- A running message's last checkpoint, `pieces` of 4 KiB after the one it started from: what comes before it is released, and a replay
starts there (R347, R348). -/
def CipMsg.checkpoint (m : CipMsg) (pieces : Nat) : CipMsg := { m with left := m.left - 4096 * min pieces (m.left / 4096) }

def State.releaseTo (s : State) (m : CipMsg) : State :=
  match m.work with
  | .strand c op => (match s.opOf c.toNat op.toNat with
      | some o => s.releaseOut c.toNat o (m.len - m.left)
      | none => s)
  | _ => s

/-- R348: the running message, or every message the unit holds, is replayed elsewhere. -/
def State.parityError (s : State) (u : Nat) (shared : Bool) (pieces : Nat) : State :=
  let x := s.cipUnit u
  let day := (s.time :: x.errors).filter (fun t => decide (s.time < t + 86400000000000))
  let n := min 3 day.length
  let log := putFld (putFld (putFld s.regs F.CIP_PAR_LOG.UNIT u) F.CIP_PAR_LOG.ERRORS_24H n) F.CIP_PAR_LOG.TIME s.time
  let s1 := ({ s with regs := log }.setCipUnit u { running := none, suspended := if shared then [] else x.suspended, errors := day }).recFlag
    sevNotice .cip F.CIP_ERR.PARITY u
  let run := x.running.toList.map (fun m => m.checkpoint pieces)
  let s2 := (run ++ (if shared then x.suspended else [])).foldl (fun s m => s.replay u m) (run.foldl (fun s m => s.releaseTo m) s1)
  if 3 ≤ day.length ∧ s.on F.CIP_CTL.QUAR_EN then s2.quarantine u
  else if (s2.cipUnit u).running.isNone then s2.unitNext u else s2

def execCipParityError (unit : BitVec 6) (shared : Bool) (pieces : BitVec 24) (s : State) : Res :=
  let u := unit.toNat
  when_ (s.running .cip && (s.unitsInService (decide (32 ≤ u))).contains u) s (s.parityError u shared pieces.toNat)

/-- CIP_CTX_MODE.AS8200 for the queue pair in CIP_CTX_SEL (R335). -/
def State.setAs8200 (s : State) (on : Bool) : State :=
  s.updPe (fun p => { p with qps := Tab.upd p.qps (s.fld F.CIP_CTX_SEL.QP) (fun q => { q with as8200 := on }) })

def execAs8200Mode (on : Bool) (s : State) : Res := when_ (s.running .cip) s (s.setAs8200 on)

end Sys2Proof.Machine
end

