-- ==== Sys2Proof/Machine/RemoteOps.lean ====
section
/-! DEFINITION. Remote instructions (Table ISA-13) and the initiator's side of a session: messages, credit, retransmission,
answers (06 R196, R197, R202, R205, R209, R210, R214). -/

namespace Sys2Proof.Machine

/-! ### Messages -/

/-- A message joins its session with the next message number; the session's context is in use (R188). -/
def State.queueMsg (s : State) (n : Nat) (m : TxMsg) : State :=
  match s.ses n with
  | none => s
  | some x =>
    let m := { m with msg := x.msgNext, count := m.packets (max 1 x.psize) }
    (((s.bringContext (2 * n)).getD s).updSes n (fun x => { x with tx := x.tx ++ [m], msgNext := (x.msgNext + 1) % 2 ^ 32 })).pumpSes n

/-! ### Answers -/

/-- Far statuses that complete an instruction with ST_REMOTE (R196). -/
def isViolation (st : Status) : Bool :=
  st == ST.bounds || st == ST.rights || st == ST.key || st == ST.sealed || st == ST.length || st == ST.mode

/-- A message leaves its session. -/
def State.dropTx (s : State) (n msg : Nat) : State :=
  (s.updSes n (fun x => { x with tx := x.tx.filter (fun m => m.msg != msg) })).closeIfDone n

/-- A message's operation completes so; a GET keeps its message until its data has been written. -/
def State.answerTx (s : State) (n : Nat) (m : TxMsg) (st : Status) (cls : Nat) (v : Word) : State :=
  let far := isViolation st
  let s1 := if far then
      (s.updSes n (fun x => { x with lastFar := st.toNat })).noticeOnce (200000 + n) .fab F.FAB_SESS_INFO.LAST_FAR n (w64 st.toNat)
    else s
  let st' := if far then ST.remote else st
  if m.typ = 3 ∧ st' = 0 then s1.updSes n (updTx m.msg (fun m => { m with answer := some (st', cls, v) }))
  else
    (s1.dropTx n m.msg).opDone m.cmd m.op
      { st := st', cls := cls, val := if st' = 0 ∧ m.typ = 5 then some v else none }

/-- Every operation a session started completes with ST_TIMEOUT (R202). -/
def State.timeoutAll (s : State) (n : Nat) : State :=
  match s.ses n with
  | none => s
  | some x =>
    (x.tx.foldl (fun s m => s.opDone m.cmd m.op (OpDone.err ST.timeout)) s).updSes n
      (fun x => { x with tx := [], unreceipted := [] })

/-! ### Issue -/

/-- An earlier operation of the command has yet to send on the same session, or is an RFNC on it (R166); an FNC holds every remote
write after it (R158). -/
def remoteHeld (c : Cmd) (o : Op) : Bool :=
  c.ops.any (fun f => decide (f.id < o.id) && decide (0x50 ≤ f.opcode) && decide (f.opcode ≤ 0x54) && f.link == o.link &&
    (f.phase == .source || (f.opcode == 0x54 && o.opcode != 0x54 && o.opcode != 0x51))) ||
  (o.opcode != 0x51 && o.opcode != 0x54 && c.ops.any (fun f => decide (f.id < o.id) && f.opcode == 0x30))

/-- What a remote operation sends. -/
def mkMsg (c : Nat) (o : Op) (typ len : Nat) (data : List Byte) : TxMsg :=
  { msg := 0, typ := typ, cls := o.cls, final := (IWord.ofBits o.word).f, subop := o.opcode == 0x53, region := o.region,
    offset := o.prim, key := o.sec, len := len, data := data, op0 := o.x, op1 := o.y, cmd := c, op := o.id, count := 0, sent := 0,
    reserve := 0, reserved := false, back := [], asked := false, answer := none }

/-- The session lets the operation start: OPEN, or READY, where it waits; FAILED and CLOSING refuse it (Table FAB-6). -/
def State.sesRefuses (s : State) (n : Nat) : Bool :=
  match s.ses n with
  | some x => x.st == .failed || x.st == .closing
  | none => true

/-- An access to loaned memory goes over the PH1 ring; while PH1 is down, over the fabric, with an ERROR record (R35). -/
def State.sendRing (s : State) (loan off : Nat) (m : TxMsg) : State :=
  let far := !s.phl.ph1.up
  let s1 := s.emit (if m.typ = 3 then .loanRead far loan off m.len else .loanWrite far loan off m.data)
  if far then s1.record sevError .phl 3 1 (((Tab.get s.tir.loansIn loan).map (·.lender)).getD 0) Addr.PHL_ERR else s1

/-- The operation's message is sent, or, over the ring, its bytes go to the lender. -/
def State.sendRemote (s : State) (c : Nat) (o : Op) (ring : Bool) (m : TxMsg) : State :=
  let s1 := s.updOp c o.id (fun o => { o with phase := .external })
  if ring then s1.sendRing (o.len % 2 ^ 20 - 1) o.prim m
  else if s.sesRefuses o.link then s.opDone c o.id (OpDone.err ST.timeout)
  else s1.queueMsg o.link m

/-- Operations over the PH1 ring name no session. -/
def ringLink : Nat := 2 ^ 20

/-- A loan as PUT and GET keep it in `len`: its number plus one; 0 where there is none. -/
def loanTag (r : Remote) : Nat :=
  match r.loan with
  | some l => l + 1
  | none => 0

/-- The remote side of an operation: session, region, first offset, key (`link`, `region`, `prim`, `sec`). -/
def Op.toRemote (o : Op) (r : Remote) (off : Nat) : Op :=
  { o with link := r.session.getD ringLink, region := r.region, prim := off + r.shift, sec := r.key }

/-- PUT: the source is read, then the message is sent. `x` holds the source's DPA, `y` its region and, in the upper half,
its length. -/
def State.advPut (s : State) (c : Nat) (o : Op) (far : Option (List Byte)) : State :=
  match s.cmdOf c with
  | none => s
  | some cm =>
    let n := o.y.toNat / 2 ^ 32
    if remoteHeld cm o || o.phase != .source then s
    else match s.readSrc c o (o.y.toNat % 2 ^ 32) o.x.toNat n far with
      | .wait => s.demandRange o.x.toNat n
      | .twin => s.askTwin c o o.x.toNat n
      | .fail st => s.opDone c o.id (OpDone.err st)
      | .bytes l clean =>
        if clean < n then s.opDone c o.id (OpDone.err ST.poison)
        else (s.tierRead o.x.toNat n).sendRemote c o (o.link == ringLink) { mkMsg c o 1 n l with op0 := 0, op1 := 0 }

/-- The remote handle an instruction reaches through handle `h`. -/
def State.reach (s : State) (x : Iss) (h : Nat) : Option Remote := s.remoteOf x.st h

/-- A class above D0 cannot be given over a loan (R3, R41). -/
def loanClassBad (r : Option Remote) (c : Class) : Bool := ((r.bind (·.loan)).isSome) && c != .d0

def execPut (k : SlotNo) (s : State) : Res :=
  s.issue k 0x50 (fun x s =>
    let a := x.primAcc .remote x.len rightW false none
    let b := x.secAcc .local_ x.len rightR false none
    match s.checks x.st [a, b] true x.lenOk, s.reach x a.h with
    | some st, _ => s.failIssue x st
    | none, none => s.failIssue x ST.key
    | none, some r =>
      if loanClassBad (some r) x.cls then s.failIssue x ST.rights
      else if x.zeroLen then s.finishNow x (OpDone.ok none)
      else
        let o := { (x.op s).toRemote r a.off with len := loanTag r, x := w64 (s.accDpa x.st b), y := w64 (x.region b + x.len * 2 ^ 32) }
        (s.addOp x o).advPut x.st.cmd o none)

/-- GET issues its READ_REQ once its READ_DATA reservation fits in this device's own pool: in what is left of its tenant's reservation and
of the unreserved credits (R204, R209). -/
def State.getFits (s : State) (n : Nat) (m : TxMsg) : Bool :=
  decide (creditsOf m.len ≤ s.ownCredit (s.sesTenant n) + s.unreservedFree)

def State.advGetSend (s : State) (c : Nat) (o : Op) (n : Nat) : State :=
  match s.cmdOf c with
  | none => s
  | some cm =>
    if remoteHeld cm o || o.phase != .source then s
    else
      let m := { mkMsg c o 3 n [] with region := o.len / 2 ^ 20, op0 := 0, op1 := 0, reserve := creditsOf n, cls := .d0,
                                       final := false }
      s.sendRemote c o (o.link == ringLink) { m with reserved := s.getFits o.link m }

/-- GET: session, offset and key stand in `link`, `prim`, `sec`, the loan and the remote region in `len`; the local range
in `region`, `x` (DPA) and `y` (region, length). -/
def execGet (k : SlotNo) (s : State) : Res :=
  s.issue k 0x51 (fun x s =>
    let a := x.primAcc .local_ x.len rightW true (some x.cls)
    let b := x.secAcc .remote x.len rightR false none
    match s.checks x.st [a, b] true x.lenOk, s.reach x b.h with
    | some st, _ => s.failIssue x st
    | none, none => s.failIssue x ST.key
    | none, some r =>
      if x.zeroLen then s.finishNow x (OpDone.ok none)
      else
        let o := { (x.op s).toRemote r b.off with
          region := x.region a, len := loanTag r + r.region * 2 ^ 20, x := w64 (s.accDpa x.st a),
          y := w64 (x.region a + x.len * 2 ^ 32) }
        (s.addOp x o).advGetSend x.st.cmd o x.len)

/-- The bytes a GET has back, once they are all there. -/
def TxMsg.assembled (m : TxMsg) : Option (List Byte) :=
  let n := sumOf (m.back.map (fun e => e.2.length))
  if n < m.len then none
  else some ((List.range m.len).map (fun i =>
    ((m.back.find? (fun e => decide (e.1 ≤ i) && decide (i < e.1 + e.2.length))).map (fun e => e.2.getD (i - e.1) 0)).getD 0))

/-- The returned bytes are written to the local range (R154); their units hold the reservation until they are placed (R209). -/
def State.writeGet (s : State) (c : Nat) (o : Op) (bytes : List Byte) : State :=
  s.runWrite c o (.data o.x.toNat bytes (OpDone.ok none))

/-- A GET moves on: it sends its READ_REQ, or writes what has come back. -/
def State.advGet (s : State) (c : Nat) (o : Op) (far : Option (List Byte)) : State :=
  let n := o.y.toNat / 2 ^ 32
  if o.phase = .source then s.advGetSend c o n
  else if o.link = ringLink then (match far with
    | some l => if l.length = n then s.writeGet c o l else s
    | none => s)
  else match (s.ses o.link).bind (fun x => x.tx.find? (fun m => m.cmd == c && m.op == o.id)) with
    | none => s
    | some m =>
      match m.answer, m.assembled with
      | some _, some l =>
        (match s.cmdOf c with
         | some cm => if s.mayAdmit cm o then (s.dropTx o.link m.msg).writeGet c o l else s
         | none => s)
      | _, _ => s

/-- R209: the reservation of the oldest waiting GET of the session with that message fits now. -/
def execGetCreditReserve (session : SessionNo) (msg : BitVec 32) (s : State) : Res :=
  let n := session.toNat
  match (s.ses n).bind (fun x => x.tx.find? (fun m => m.msg == msg.toNat)) with
  | none => .next s
  | some m =>
    when_ (s.running .fab && m.typ == 3 && !m.reserved && s.getFits n m) s
      ((s.updSes n (updTx m.msg (fun m => { m with reserved := true }))).pumpSes n)

/-- RADD, RCAS and RFNC: one packet with no payload. -/
def State.advSmall (s : State) (c : Nat) (o : Op) : State :=
  match s.cmdOf c with
  | none => s
  | some cm =>
    if remoteHeld cm o || o.phase != .source then s
    else if o.link = ringLink then
      -- RFNC over the ring: every earlier operation on it has been answered; what it covered reached D0 (R3, R166)
      (if cm.ops.any (fun f => decide (f.id < o.id) && decide (0x50 ≤ f.opcode) && decide (f.opcode ≤ 0x54) && f.link == ringLink) then s
       else s.opDone c o.id { st := 0, val := none, cls := o.x.toNat })
    else s.sendRemote c o false (mkMsg c o (if o.opcode = 0x54 then 6 else 5) 8 [])

/-- RADD and RCAS issue. -/
def State.startRemoteAtomic (s : State) (x : Iss) (y : Word) : State :=
  let a := x.primAcc .remote 8 rightAtom false none
  match s.checks x.st [a] true (a.off % 8 == 0), s.reach x a.h with
  | some st, _ => s.failIssue x st
  | none, none => s.failIssue x ST.key
  | none, some r =>
    let o := { (x.op s).toRemote r a.off with x := x.sb, y := y }
    (s.addOp x o).advSmall x.st.cmd o

def execRadd (k : SlotNo) (s : State) : Res := s.issue k 0x52 (fun x s => s.startRemoteAtomic x 0)
def execRcas (k : SlotNo) (s : State) : Res := s.issue k 0x53 (fun x s => s.startRemoteAtomic x (x.st.reg x.i.xs))

def execRfnc (k : SlotNo) (s : State) : Res :=
  s.issue k 0x54 (fun x s =>
    let a : Acc := { x.primAcc .remote 0 0 false none with off := 0 }
    let a := { a with off := ((s.reach x a.h).map (·.lo)).getD 0 }
    match s.checks x.st [a] true true, s.reach x a.h with
    | some st, _ => s.failIssue x st
    | none, none => s.failIssue x ST.key
    | none, some r =>
      let covers := x.c.ops.any (fun f => f.opcode == 0x50 && f.link == ringLink)
      let o := { (x.op s).toRemote r 0 with cls := .d0, x := if covers then 0 else 3 }
      (s.addOp x o).advSmall x.st.cmd o)

end Sys2Proof.Machine
end

