-- ==== Sys2Proof/Machine/Moves.lean ====
section
/-! DEFINITION. Deliberate moves between DDR5 and the near cache (09 R308, R311, R312, R315, R316): chunk locks, promotion,
demotion, locking. -/

namespace Sys2Proof.Machine

def State.updTir (s : State) (f : TirState → TirState) : State := { s with tir := f s.tir }

/-! ### Locks on blocks -/

/-- The region of a block, its PIN bit (Table TIR-3). -/
def Region.pinned (r : Region) : Bool := bit r.placement 0

def State.blockRegion (s : State) (b : Nat) : Option Region := (s.regionAt (4096 * b)).map (·.2)

/-- The block belongs to a region with PIN = 1, whose locks are reserved (R308). -/
def State.inPinned (s : State) (b : Nat) : Bool := ((s.blockRegion b).map (·.pinned)).getD false

/-- Blocks of [lo, hi) that map to a set. -/
def blocksInSet (lo hi set : Nat) : Nat := (hi + 524287 - set) / 524288 - (lo + 524287 - set) / 524288

/-- Locks of a set: reserved for pinned regions, or held elsewhere (R308, R311). -/
def State.setLocks (s : State) (set : Nat) : Nat :=
  sumOf (s.regions.map (fun e => if e.2.pinned then blocksInSet (e.2.base / 4096) ((e.2.base + e.2.len) / 4096) set else 0)) +
  (s.nc.lines.filter (fun e => setOf e.1 == set && e.2.locked && !s.inPinned e.1)).length

/-- Bytes of a tenant's near-cache share in use (R304). -/
def State.shareUse (s : State) (t : Nat) : Nat :=
  sumOf (s.regions.map (fun e => if e.2.pinned && e.2.tenant == t then e.2.len else 0)) +
  4096 * (s.nc.lines.filter (fun e => e.2.locked && !s.inPinned e.1 && ((s.blockRegion e.1).map (·.tenant)) == some t)).length

def State.ncShare (s : State) (t : Nat) : Nat := 1048576 * ((Tab.get s.tenants t).map (·.ncMib)).getD 0

/-- A new lock of the block fits its set and its tenant's share (R311, R312). -/
def State.lockFits (s : State) (b : Nat) : Bool :=
  s.inPinned b ||
  (decide (s.setLocks (setOf b) < 12) && (match s.blockRegion b with
    | some r => decide (s.shareUse r.tenant + 4096 ≤ s.ncShare r.tenant)
    | none => false))

/-- One lock bit is set on a resident block, or refused. -/
def State.lockBlock (s : State) (pin : Bool) (b : Nat) : State × Bool :=
  match Tab.get s.nc.lines b with
  | none => (s, false)
  | some l =>
    if l.locked || s.lockFits b then
      (s.updLine b (fun l => if pin then { l with pin := true } else { l with wlk := true }), true)
    else (s.bump F.NC_CNT1.LOCK_REFUSALS, false)

/-! ### Moves -/

def lockOf (chunk : Nat) : Nat := (Config.chunkHash (BitVec.ofNat 28 chunk)).toNat

/-- Chunk of the first block left. -/
def Move.chunk (m : Move) : Nat := m.left.headD 0 / 16

/-- Blocks left in that chunk. -/
def Move.part (m : Move) : List Nat := m.left.filter (fun b => b / 16 == m.chunk)

def Move.promotes (m : Move) : Bool := m.kind != .dem

/-- The move that holds the lock which `m` needs. -/
def State.lockHolder (s : State) (m : Move) : Option Move :=
  s.tir.moves.find? (fun x => x.id != m.id && x.held && !x.left.isEmpty && lockOf x.chunk == lockOf m.chunk)

def State.updMove (s : State) (id : Nat) (f : Move → Move) : State :=
  s.updTir (fun t => { t with moves := updAll (fun m => m.id == id) f t.moves })

def State.resident (s : State) (b : Nat) : Bool :=
  match Tab.get s.nc.lines b with
  | some l => l.valid == BitVec.allOnes 16
  | none => false

/-- A promotion brings a block in: from the victim buffer, or by a fill. -/
def State.bringIn (s : State) (b : Nat) : State :=
  let s1 := s.recall b
  match Tab.get s1.nc.lines b with
  | some l => if l.valid ||| l.filling = BitVec.allOnes 16 then s1 else s1.startFill b (BitVec.allOnes 16)
  | none => s1.startFill b (BitVec.allOnes 16)

/-- A move ends: its operation completes (R312, R316). -/
def State.endMove (s : State) (m : Move) (busy : Bool) : State :=
  let s1 := s.updTir (fun t => { t with moves := t.moves.filter (fun x => x.id != m.id) })
  match m.owner with
  | none => s1
  | some (c, op) => s1.opDone c op
      { st := if busy then ST.busy else 0, cls := 0, val := if m.kind = .wlk then some (BitVec.ofNat 64 m.locked) else none }

/-- A demotion of one block (R316): written back, and dropped unless it is locked. -/
def State.demoteBlock (s : State) (b : Nat) : State × Bool :=
  match Tab.get s.nc.lines b, s.nc.inVictim b with
  | some l, _ => if l.locked then (s.cleanBlock b, false) else (((s.cleanBlock b).dropBlock b).bump F.TIR_CNT0.DEMOTIONS, true)
  | none, some _ => (((s.cleanBlock b).dropBlock b).bump F.TIR_CNT0.DEMOTIONS, true)
  | none, none => (s, true)

/-- The effect of a move on the blocks of a chunk whose data stands ready. -/
def State.chunkEffect (s : State) (m : Move) : State × Nat × Bool :=
  m.part.foldl (fun (a : State × Nat × Bool) b =>
    match m.kind with
    | .dem => let r := a.1.demoteBlock b; (r.1, a.2.1, a.2.2 || !r.2)
    | .pin | .fill => let r := a.1.lockBlock true b; (r.1, a.2.1 + (if r.2 then 1 else 0), a.2.2 || !r.2)
    | .wlk => let r := a.1.lockBlock false b; (r.1, a.2.1 + (if r.2 then 1 else 0), a.2.2 || !r.2)
    | .pro | .pft => a) (s, 0, false)

/-- The chunk is ready: a promotion's blocks are resident, an eviction's are not being filled (Table TIR-4). -/
def State.chunkReady (s : State) (m : Move) : Bool :=
  m.part.all (fun b => if m.promotes then s.resident b
    else match Tab.get s.nc.lines b with
      | some l => l.filling == 0
      | none => true)

/-- One step of a move: it ends, takes the lock of its next chunk, or finishes the chunk whose lock it holds. -/
def State.stepMove (s : State) (id : Nat) : State :=
  match s.tir.moves.find? (fun m => m.id == id) with
  | none => s
  | some m =>
    if m.left.isEmpty then
      s.endMove m (m.refused || (m.kind == .pro && !m.blocks.all s.resident))
    else if s.nc.st != .on && (m.promotes || s.nc.st != .draining) then s.endMove m m.promotes
    else if m.held then
      if s.chunkReady m then
        let r := s.chunkEffect m
        (r.1.updMove id (fun m => { m with
          left := m.left.filter (fun b => b / 16 != m.chunk), held := false, waited := false, reeval := false,
          locked := m.locked + r.2.1, refused := m.refused || r.2.2 }))
      else if m.promotes then m.part.foldl (fun s b => s.bringIn b) s
      else s
    else match s.lockHolder m with
      | some h =>
        let s1 := if m.waited then s else s.bump F.TIR_CNT1.CHUNK_WAITS
        s1.updMove id (fun m => { m with waited := true, reeval := m.reeval || (m.kind == .dem && h.promotes) })
      | none =>
        let s1 := if m.reeval then s.bump F.TIR_CNT1.EVICT_REEVALS else s
        let s2 := s1.updMove id (fun m => { m with held := true })
        if m.promotes then
          (m.part.foldl (fun s b => s.bringIn b) s2).bumpBy F.TIR_CNT0.PROMOTIONS
            (m.part.filter (fun b => !s.resident b)).length
        else s2

/-- Every move goes as far as it can. -/
def State.pumpMoves : Nat → State → State
  | 0, s => s
  | n + 1, s => State.pumpMoves n (s.tir.moves.foldl (fun s m => s.stepMove m.id) s)

/-- Steps after which no move can go further at once. -/
def State.moveFuel (s : State) : Nat := 3 * sumOf (s.tir.moves.map (fun m => m.left.length + 1))

def State.runMoves (s : State) : State := s.pumpMoves s.moveFuel

/-- A move is created and goes as far as it can. -/
def State.startMove (s : State) (kind : MoveKind) (owner : Option (Nat × Nat)) (tenant : Nat) (blocks : List Nat) : State :=
  let m : Move := { id := s.tir.nextMove, kind := kind, owner := owner, tenant := tenant, blocks := blocks, left := blocks,
                    held := false, waited := false, reeval := false, locked := 0, refused := false }
  (s.updTir (fun t => { t with moves := t.moves ++ [m], nextMove := m.id + 1 })).runMoves

/-! ### Events of the near cache -/

/-- R317: a fill completes; the moves that waited for it go on. -/
def execFillComplete (block : BitVec 32) (s : State) : Res :=
  when_ (s.running .nc && (match Tab.get s.nc.lines block.toNat with
      | some l => l.filling != 0
      | none => false)) s (s.fillDone block.toNat).runMoves

/-- A victim-buffer block's dirty sectors are in DDR5 (R313); while the near cache drains, those of a block in its way too
(Table TIR-5). -/
def execVictimWriteBack (block : BitVec 32) (s : State) : Res :=
  match s.nc.inVictim block.toNat with
  | none => when_ (s.running .nc && s.nc.st == .draining) s (s.cleanBlock block.toNat)
  | some v =>
    when_ (s.running .nc && v.pending) s
      ((s.writeBack v.block v.dirty).updNc (fun n =>
        { n with victim := n.victim.map (fun x => if x.block = v.block then { x with dirty := 0 } else x) })).runMoves

/-- R308: the background fill of a pinned region takes up its next chunk that is not wholly locked. -/
def execPinFill (region : RegionNo) (s : State) : Res :=
  match Tab.get s.regions region.toNat with
  | none => .next s
  | some r =>
    match (blocksOf r.base r.len).find? (fun b => !((Tab.get s.nc.lines b).map (·.pin)).getD false) with
    | none => .next s
    | some b =>
      when_ (s.running .tir && s.nc.st == .on && r.pinned && !s.tir.moves.any (fun m => m.kind == .fill)) s
        (s.startMove .fill none r.tenant ((blocksOf r.base r.len).filter (fun x => x / 16 == b / 16)))

/-- Locks and reservation of a region with PIN are released (R308). -/
def State.unpinRegion (s : State) (lo n : Nat) : State :=
  s.updNc (fun nc => { nc with lines := nc.lines.map (fun e =>
    if lo ≤ 4096 * e.1 ∧ 4096 * e.1 < lo + n then (e.1, { e.2 with pin := false }) else e) })

/-- PIN of a range of a tenant fits its share and the set limit (R308), `old` being a pinned range it replaces. -/
def State.pinFits (s : State) (t lo n : Nat) : Bool :=
  let inside := (s.nc.lines.filter (fun e => e.2.locked && !s.inPinned e.1 && decide (lo ≤ 4096 * e.1) &&
    decide (4096 * e.1 < lo + n)))
  decide (s.shareUse t + n ≤ s.ncShare t + 4096 * inside.length) &&
  (List.range (min 524288 (n / 4096))).all (fun i =>
    let set := setOf (lo / 4096 + i)
    decide (s.setLocks set + blocksInSet (lo / 4096) ((lo + n) / 4096) set ≤
      12 + (inside.filter (fun e => setOf e.1 == set)).length))

end Sys2Proof.Machine
end

