-- ==== Sys2Proof/Machine/TierOps.lean ====
section
/-! DEFINITION. Tier and cache-maintenance instructions (Table ISA-14, R167; 09), and loans (R320 to R323). -/

namespace Sys2Proof.Machine

/-- The access of a tier instruction: its primary range. -/
def Iss.tierAcc (x : Iss) (rights : Nat) : Acc := x.primAcc .local_ x.len rights false none

/-- The operation of a tier instruction on its range. -/
def Iss.tierOp (x : Iss) (s : State) (a : Acc) : Op := x.opOn s a

def Op.blocks (o : Op) : List Nat := blocksOf o.prim o.len

/-- Tenant of a command. -/
def State.cmdTenant (s : State) (c : Nat) : Nat :=
  (((s.cmdOf c).bind (fun x => Tab.get s.pe.qps x.qp)).map (·.tenant)).getD 4096

/-- An instruction that is carried out as a move. -/
def State.issueMove (s : State) (x : Iss) (kind : MoveKind) : State :=
  let a := x.tierAcc rightR
  s.begin_ x [a] true true { x.tierOp s a with phase := .external } (fun s c o =>
    s.startMove kind (some (c, o.id)) (s.cmdTenant c) o.blocks)

def execPro (k : SlotNo) (s : State) : Res := s.issue k 0x61 (fun x s => s.issueMove x .pro)
def execDem (k : SlotNo) (s : State) : Res := s.issue k 0x62 (fun x s => s.issueMove x .dem)
def execPin (k : SlotNo) (s : State) : Res := s.issue k 0x63 (fun x s => s.issueMove x .pin)
def execWlk (k : SlotNo) (s : State) : Res := s.issue k 0x74 (fun x s => s.issueMove x .wlk)

/-- PFT completes at issue; it is dropped when the fill queue is full (R312). -/
def execPft (k : SlotNo) (s : State) : Res :=
  s.issue k 0x60 (fun x s =>
    let a := x.tierAcc rightR
    match s.checks x.st [a] true true with
    | some st => s.failIssue x st
    | none =>
      let s1 := s.finishNow x (OpDone.ok none)
      if x.zeroLen || decide (Config.fillQueue ≤ (s.tir.moves.filter (fun m => m.kind == .pft)).length) || s.nc.st != .on then s1
      else s1.startMove .pft none (s.cmdTenant x.st.cmd) (blocksOf (s.accDpa x.st a) x.len))

/-! ### Maintenance by address (Table TIR-4) -/

/-- A block of the range is being filled. -/
def State.rangeFilling (s : State) (o : Op) : Bool :=
  o.blocks.any (fun b => ((Tab.get s.nc.lines b).map (fun l => l.filling != 0)).getD false)

/-- CLN, UNPIN and WUL apply after the fills of their range. -/
def State.afterFill (s : State) (c : Nat) (o : Op) (f : State → State) : State :=
  if s.rangeFilling o then s else (f s).opDone c o.id (OpDone.ok none)

def State.advCln (s : State) (c : Nat) (o : Op) : State :=
  s.afterFill c o (fun s => o.blocks.foldl (fun s b => s.cleanBlock b) s)

def execCln (k : SlotNo) (s : State) : Res :=
  s.issue k 0x70 (fun x s => s.begin_ x [x.tierAcc rightW] true true (x.tierOp s (x.tierAcc rightW)) (fun s c o => s.advCln c o))

/-- A lock bit is cleared on the blocks of the range that lie in regions of the strand's tenant; the blocks of a region
with PIN = 1 keep their PIN bit (R308, R311). -/
def State.clearLock (s : State) (pin : Bool) (tenant : Nat) (blocks : List Nat) : State :=
  blocks.foldl (fun s b =>
    if ((s.blockRegion b).map (·.tenant)) == some tenant && !(pin && s.inPinned b) then
      s.updLine b (fun l => if pin then { l with pin := false } else { l with wlk := false })
    else s) s

def State.advUnlock (s : State) (pin : Bool) (c : Nat) (o : Op) : State :=
  s.afterFill c o (fun s => s.clearLock pin (s.cmdTenant c) o.blocks)

def execUnpin (k : SlotNo) (s : State) : Res :=
  s.issue k 0x64 (fun x s => s.begin_ x [x.tierAcc rightR] true true (x.tierOp s (x.tierAcc rightR))
    (fun s c o => s.advUnlock true c o))

def execWul (k : SlotNo) (s : State) : Res :=
  s.issue k 0x75 (fun x s => s.begin_ x [x.tierAcc rightR] true true (x.tierOp s (x.tierAcc rightR))
    (fun s c o => s.advUnlock false c o))

/-- INV of a block: lines with dirty sectors are left; a fill without them is cancelled. -/
def State.invBlock (s : State) (b : Nat) : State × Nat :=
  let dirty := match Tab.get s.nc.lines b, s.nc.inVictim b with
    | some l, _ => l.dirty
    | none, some v => v.dirty
    | none, none => 0
  let filling := ((Tab.get s.nc.lines b).map (fun l => l.filling != 0)).getD false
  if dirty != 0 then (s, 1)
  else ((if filling then s.bump F.NC_CNT0.FILL_CANCELS else s).dropBlock b, 0)

def State.invRange (s : State) (blocks : List Nat) : State × Nat :=
  blocks.foldl (fun a b => let r := a.1.invBlock b; (r.1, a.2 + r.2)) (s, 0)

/-- The near cache is looked up only while ON or DRAINING (Table TIR-5). -/
def State.advInv (s : State) (c : Nat) (o : Op) : State :=
  if s.nc.serving then
    let r := s.invRange o.blocks
    r.1.opDone c o.id (OpDone.ok (some (BitVec.ofNat 64 r.2)))
  else s.opDone c o.id (OpDone.ok (some 0))

def execInv (k : SlotNo) (s : State) : Res :=
  s.issue k 0x71 (fun x s => s.begin_ x [x.tierAcc rightR] true true (x.tierOp s (x.tierAcc rightR)) (fun s c o => s.advInv c o))

def State.cliBlock (s : State) (b : Nat) : State :=
  let filling := ((Tab.get s.nc.lines b).map (fun l => l.filling != 0)).getD false
  ((if filling then s.bump F.NC_CNT0.FILL_CANCELS else s).cleanBlock b).dropBlock b

def State.advCli (s : State) (c : Nat) (o : Op) : State :=
  (if s.nc.serving then o.blocks.foldl (fun s b => s.cliBlock b) s else s).opDone c o.id (OpDone.ok none)

def execCli (k : SlotNo) (s : State) : Res :=
  s.issue k 0x72 (fun x s => s.begin_ x [x.tierAcc rightW] true true (x.tierOp s (x.tierAcc rightW)) (fun s c o => s.advCli c o))

/-! ### ZLN (R314) -/

/-- Zeros are written as a write; under WRITE_BACK and WRITE_THROUGH their sectors are allocated without a fetch when they
are placed, which a whole sector's write does. -/
def State.advZln (s : State) (c : Nat) (o : Op) : State :=
  s.runWrite c o (.data o.prim (List.replicate o.len 0) (OpDone.ok none))

def execZln (k : SlotNo) (s : State) : Res :=
  s.issue k 0x73 (fun x s =>
    let a := x.primAcc .local_ x.len rightW true (some x.cls)
    s.begin_ x [a] true (a.off % 256 == 0 && x.len % 256 == 0 && x.lenOk) (x.opOn s a) (fun s c o => s.advZln c o))

/-! ### Loans (R320 to R323) -/

/-- An entry of a list of lenders in falling order of what they offer. -/
def insertLender (e : Nat × Nat) : List (Nat × Nat) → List (Nat × Nat)
  | [] => [e]
  | f :: l => if f.2 < e.2 then e :: f :: l else f :: insertLender e l

/-- Lenders other than ring neighbours, by most capacity: those that advertise any; under planned placement those of the BORROW
entries (R320, R326). -/
def State.otherLenders (s : State) : List (Nat × Nat) :=
  ((if s.on F.TIR_PLACE_CTL.PLANNED then (s.tir.plan.map (·.borrow)).getD [] else s.tir.adverts).filter (fun e => decide (0 < e.2))).foldr
    insertLender []

/-- The lender that a LOAN asks after `k` have refused: ring neighbours by fewest hops, then the others (R320). -/
def State.lenderAt (s : State) (k : Nat) : Option Lender :=
  if s.phl.ph1.up && (k == 0 || decide (k + 1 < Config.boardDevices)) then some (.ring (k + 1))
  else (s.otherLenders[k - (if s.phl.ph1.up then max 1 (Config.boardDevices - 1) else 0)]?).map (fun e => .node e.1)

/-- Borrowed from a node, in MiB. -/
def State.borrowedFrom (s : State) (node : Nat) : Nat :=
  (sumOf (s.tir.loansIn.map (fun e => if e.2.lender = node ∧ e.2.st ≠ .reserving then e.2.bytes else 0)) + 1048575) / 1048576

/-- The lowest loan number not in use. -/
def State.freshLoan (s : State) : Nat := Tab.fresh s.tir.loansIn 0

def execLoan (k : SlotNo) (s : State) : Res :=
  s.issue k 0x65 (fun x s =>
    if modeRefuses s.mod.mode 0x65 then s.failIssue x ST.mode
    else if (x.i.len + 1) % 4096 ≠ 0 then s.failIssue x ST.length
    else match s.lenderAt 0, decide (65536 ≤ s.tir.loansIn.length) with
    | none, _ | some _, true => (s.addOp x { x.op s with phase := .ready, done := some (OpDone.err ST.busy) }).bump F.TIR_CNT2.LOANS_REFUSED
    | some lender, false =>
      let n := s.freshLoan
      let l : LoanIn := { cmd := x.st.cmd, op := x.c.nextOp, st := .reserving, bytes := x.i.len + 1, lender := 0, session := none,
                          region := 0, offset := 0, key := 0, tried := 0 }
      ((s.addOp x { x.op s with phase := .external, len := x.i.len + 1, link := n, x := BitVec.ofNat 64 (x.st.primHandle x.i) }).updTir
        (fun t => { t with loansIn := Tab.put t.loansIn n l })).emit (.loanAsk n (x.i.len + 1) lender))

/-- The handle register of a granted LOAN takes the loan when LOAN completes (R320). -/
def State.setLoanHandle (s : State) (c : Nat) (o : Op) : State :=
  match s.slotOf c, Tab.get s.tir.loansIn o.link with
  | some k, some l =>
    if l.st = .reserving then s
    else s.updStrand k (fun st => { st with
      h := st.h.set o.x.toNat (BitVec.ofNat 64 (2 + 4 * 3 + l.region * 2 ^ 8 + (l.session.getD 0) * 2 ^ 24))
      loanH := Tab.put st.loanH o.x.toNat o.link })
  | _, _ => s

/-- LRLS releases a loan and empties its handle (Table TIR-8); any other handle is of the wrong kind. -/
def execLrls (k : SlotNo) (s : State) : Res :=
  s.issue k 0x66 (fun x s =>
    let h := x.st.primHandle x.i
    match Tab.get x.st.loanH h with
    | some l =>
      let s1 := s.addOp x { x.op s with phase := .ready, done := some (OpDone.ok none) }
      ((s1.updTir (fun t => { t with loansIn := Tab.del t.loansIn l })).updStrand x.k (fun st =>
        { st with h := st.h.set h 0, loanH := Tab.del st.loanH h })).emit (.loanReturn l)
    | none => s.failIssue x (if hKind (x.st.handle h) = .empty then ST.bounds else ST.rights))

/-- Every handle of the loan becomes empty (R167). -/
def State.emptyLoanHandles (s : State) (l : Nat) : State :=
  s.updPe (fun p => { p with strands := p.strands.map (fun e =>
    (e.1, { e.2 with h := (List.range e.2.h.length).map (fun i =>
                       if Tab.get e.2.loanH i = some l then 0 else e.2.h.getD i 0)
                     loanH := e.2.loanH.filter (fun q => q.2 != l) })) })

/-- The operation is a PUT or GET through loan `l`. -/
def Op.usesLoan (o : Op) (l : Nat) : Bool := (o.opcode == 0x50 || o.opcode == 0x51) && o.len % 2 ^ 20 == l + 1

/-- Messages that the loan's operations have sent leave their session. -/
def State.dropLoanMsgs (s : State) (l : Nat) : State :=
  s.updFab (fun f => { f with sessions := f.sessions.map (fun e => (e.1, { e.2 with
    tx := e.2.tx.filter (fun m => !((s.opOf m.cmd m.op).map (fun o => o.usesLoan l)).getD false) })) })

/-- Operations that use a loan and are not complete (R321): those whose handle reaches it. -/
def State.failLoanOps (s : State) (l : Nat) : State :=
  (s.dropLoanMsgs l).updPe (fun p => { p with cmds := p.cmds.map (fun e => (e.1, { e.2 with ops := e.2.ops.map (fun o =>
    if o.usesLoan l && o.phase != .ready && o.phase != .units then
      { o with phase := .ready, done := some (OpDone.err ST.timeout) } else o) })) })

/-- Table TIR-7: a loan of the borrower is released. -/
def State.releaseIn (s : State) (l : Nat) : State :=
  (s.emptyLoanHandles l).updTir (fun t => { t with loansIn := Tab.del t.loansIn l })

/-- A lender refuses a LOAN: the next is asked; once every lender has refused, LOAN completes with ST_BUSY (R320). -/
def State.refuseLoan (s : State) (l : Nat) (x : LoanIn) : State :=
  match s.lenderAt (x.tried + 1) with
  | some lender =>
    (s.updTir (fun t => { t with loansIn := Tab.put t.loansIn l { x with tried := x.tried + 1 } })).emit (.loanAsk l x.bytes lender)
  | none => ((s.opDone x.cmd x.op (OpDone.err ST.busy)).updTir (fun t => { t with loansIn := Tab.del t.loansIn l })).bump
    F.TIR_CNT2.LOANS_REFUSED

/-- What this device may still lend, in MiB: within LEND_MAX_GIB and the unreserved DDR5 (R320). -/
def State.lendRoom (s : State) : Nat :=
  min (1024 * s.fld F.TIR_PLACE_CTL.LEND_MAX_GIB - s.lentMib) (s.usableMib - s.reservedMib - s.lentMib)

def State.lendsNow (s : State) : Bool :=
  s.on F.TIR_PLACE_CTL.LEND_EN && (s.mod.mode == .serve || s.mod.mode == .solo)

/-- Most MiB that a plan's entry lets a node have. -/
def planMost (planned : Bool) (t : Tab Nat) (node : Nat) : Option Nat :=
  if planned then some (1024 * (Tab.get t node).getD 0) else none

def withinPlan (most : Option Nat) (mib : Nat) : Bool :=
  match most with
  | some m => decide (mib ≤ m)
  | none => true

def State.lentTo (s : State) (node : Nat) : Nat :=
  sumOf (s.tir.loansOut.map (fun e => if e.2.borrower = node then e.2.mib else 0))

/-- The session may carry loans: one of tenant 0 (R320). -/
def State.loanSession (s : State) (n : Option (BitVec 20)) : Bool :=
  match n with
  | none => s.phl.ph1.up
  | some n => ((s.ses n.toNat).map (fun x => x.tenant == 0)).getD false

/-- Table TIR-8, RESERVING to ACTIVE. -/
def execLoanGrant (lend : Bool) (loan : BitVec 17) (node : NodeId) (mib : BitVec 24) (session : Option SessionNo)
    (region : RegionNo) (offset : BitVec 44) (key : BitVec 32) (s : State) : Res :=
  let planned := s.on F.TIR_PLACE_CTL.PLANNED
  if lend then
    when_ (s.running .tir && s.lendsNow && decide (0 < mib.toNat) && decide (mib.toNat ≤ s.lendRoom) &&
        decide (s.tir.loansOut.length < 65536) && !Tab.has s.tir.loansOut loan.toNat &&
        withinPlan (planMost planned ((s.tir.plan.map (·.lend)).getD []) node.toNat) (s.lentTo node.toNat + mib.toNat)) s
      (let l : LoanOut := { borrower := node.toNat, mib := mib.toNat, notice := false }
       s.updTir (fun t => { t with loansOut := Tab.put t.loansOut loan.toNat l }))
  else
    match Tab.get s.tir.loansIn loan.toNat with
    | none => .next s
    | some l =>
      let l' : LoanIn := { l with st := .active, lender := node.toNat, session := session.map (·.toNat), region := region.toNat,
                                  offset := offset.toNat, key := key.toNat }
      let s1 := (s.updTir (fun t => { t with loansIn := Tab.put t.loansIn loan.toNat l' })).opDone l.cmd l.op
        (OpDone.ok (some (BitVec.ofNat 64 loan.toNat)))
      when_ (s.running .tir && l.st == .reserving && s.loanSession session &&
          withinPlan (planMost planned ((s.tir.plan.map (·.borrow)).getD []) node.toNat)
            (s.borrowedFrom node.toNat + (l.bytes + 1048575) / 1048576)) s
        (if (s.slotOf l.cmd).isSome then s1
         else (s1.updTir (fun t => { t with loansIn := Tab.del t.loansIn loan.toNat })).emit (.loanReturn loan.toNat))

/-- Loans are marked NOTICE, newest first, until `need` MiB are on their way back (R322). -/
def State.reclaimSome (s : State) (need : Nat) : State :=
  (s.tir.loansOut.reverse.foldl (fun (a : State × Nat) e =>
    if e.2.notice ∨ need ≤ a.2 then a
    else ((a.1.updTir (fun t => { t with loansOut := Tab.put t.loansOut e.1 { e.2 with notice := true } })).emit
            (.loanNotice e.1 e.2.borrower), a.2 + e.2.mib)) (s, 0)).1

def State.reclaimAll (s : State) : State := s.reclaimSome (s.lentMib + 1)

/-- Table TIR-8, ACTIVE to NOTICE: at the lender the newest loan, when a condition of R322 holds; at the borrower. -/
def execReclaim (lend : Bool) (loan : BitVec 17) (s : State) : Res :=
  if lend then
    let excess := s.lentMib - 1024 * s.fld F.TIR_PLACE_CTL.LEND_MAX_GIB
    when_ (s.running .tir) s
      (if !s.on F.TIR_PLACE_CTL.LEND_EN || s.mod.mode == .drain || s.mod.mode == .service then s.reclaimAll else s.reclaimSome excess)
  else
    match Tab.get s.tir.loansIn loan.toNat with
    | none => .next s
    | some l => when_ (s.running .tir && l.st == .active) s
        (s.updTir (fun t => { t with loansIn := Tab.put t.loansIn loan.toNat { l with st := .notice } }))

/-- Table TIR-8, NOTICE to RELEASED. -/
def execReclaimExpiry (lend : Bool) (loan : BitVec 17) (s : State) : Res :=
  if lend then
    match Tab.get s.tir.loansOut loan.toNat with
    | none => .next s
    | some l => when_ (s.running .tir && l.notice) s
        ((s.updTir (fun t => { t with loansOut := Tab.del t.loansOut loan.toNat })).bump F.TIR_CNT2.RECLAIMS)
  else
    match Tab.get s.tir.loansIn loan.toNat with
    | none => .next s
    | some l => when_ (s.running .tir && l.st == .notice) s ((s.releaseIn loan.toNat).bump F.TIR_CNT2.RECLAIMS)

/-- Table TIR-8: the lender is unreachable. A LOAN that waits for it goes on to the next. -/
def execLoanLost (loan : BitVec 17) (s : State) : Res :=
  match Tab.get s.tir.loansIn loan.toNat with
  | none => .next s
  | some l =>
    when_ (s.running .tir) s
      (if l.st = .reserving then s.refuseLoan loan.toNat l
       else (((s.failLoanOps loan.toNat).releaseIn loan.toNat).bump F.TIR_CNT2.LOANS_LOST).recFlag sevWarn .tir F.TIR_ERR.LOAN_LOST
         loan.toNat)

/-- R323: in runtime placement a lender broadcasts its free capacity; a member's broadcast enters the directory of 64. -/
def execLoanAdvertisement (sender : Option (NodeId × BitVec 24)) (s : State) : Res :=
  match sender with
  | none => when_ (s.running .tir && s.lendsNow && !s.on F.TIR_PLACE_CTL.PLANNED) s (s.emit (.advert s.lendRoom))
  | some (n, mib) =>
    when_ (s.running .tir && s.isMember n.toNat &&
        (Tab.has s.tir.adverts n.toNat || decide (s.tir.adverts.length < 64))) s
      (s.updTir (fun t => { t with adverts := Tab.put t.adverts n.toNat mib.toNat }))

/-- TIR_PLACE_CTL.LEND_EN written: 0 reclaims every loan with notice (R322). -/
def State.lendEn (s : State) (on : Bool) : State :=
  let s1 := s.setFld F.TIR_PLACE_CTL.LEND_EN (b2n on)
  if on then s1 else s1.reclaimAll

def execLendEn (on : Bool) (s : State) : Res := when_ (s.running .tir) s (s.lendEn on)

end Sys2Proof.Machine
end

