-- ==== Sys2Proof/Machine/Regions.lean ====
section
/-! DEFINITION. Region descriptors (02 R50 to R53; 05 R168, R169, Table ISA-15; 09 R303, R305 to R308; 10 R350; 11 R376):
the parameter block, its checks, and what creating, changing and deleting a region does. -/

namespace Sys2Proof.Machine

/-! ### The parameter block -/

/-- The i-th 64-bit word of a block. -/
def blkWord (b : List Byte) (i : Nat) : Nat := leNat ((b.drop (8 * i)).take 8)

/-- Fields of the HMAP parameter block (Table ISA-15) and of its attribute word (Table DUR-3). -/
structure HBlock where
  region : Nat
  any : Bool
  base : Nat
  /-- In 4 KiB units. -/
  units : Nat
  attr : Nat
  grant : Nat
  sealWord : Nat
  place : Nat
  /-- A bit that the block marks zero is not zero. -/
  stray : Bool

def HBlock.ofBytes (b : List Byte) : HBlock :=
  let w := blkWord b
  { region := w 0 % 2 ^ 16, any := w 0 / 2 ^ 16 % 2 == 1, base := w 1, units := w 2, attr := w 3, grant := w 4, sealWord := w 5,
    place := w 6,
    stray := decide (2 ^ 17 ≤ w 0) || w 1 % 4096 != 0 || decide (2 ^ 44 ≤ w 1) || decide (2 ^ 4 ≤ w 4) || w 7 != 0 }

def HBlock.len (b : HBlock) : Nat := 4096 * b.units
def HBlock.floor (b : HBlock) : Class := Class.ofCode b.attr
def HBlock.sealed (b : HBlock) : Bool := b.attr / 2 ^ 3 % 2 == 1
def HBlock.wpol (b : HBlock) : Nat := b.attr / 2 ^ 6 % 8
def HBlock.tenant (b : HBlock) : Nat := b.attr / 2 ^ 16 % 2 ^ 12
def HBlock.homeOdd (b : HBlock) : Bool := b.attr / 2 ^ 5 % 2 == 1
def HBlock.pin (b : HBlock) : Bool := b.place % 2 == 1
def HBlock.cfg (b : HBlock) : SealCfg :=
  { ckptArea := b.sealWord % 2 ^ 8, autoRecords := b.sealWord / 2 ^ 16 % 2 ^ 16, autoMs := b.sealWord / 2 ^ 32 % 2 ^ 16 }

/-- A region's words as the block gives them. -/
def SealCfg.word (c : SealCfg) : Nat := c.ckptArea + c.autoRecords * 2 ^ 16 + c.autoMs * 2 ^ 32

def Region.attr (r : Region) : Nat :=
  r.floor.code + (if r.atomic then 2 ^ 2 else 0) + (if r.sealed then 2 ^ 3 else 0) + (if r.downgrade then 2 ^ 4 else 0) +
  (if r.homeOdd then 2 ^ 5 else 0) + r.wpol * 2 ^ 6 + r.tenant * 2 ^ 16

/-- The block of a region, with its number (HMAP READ, CTRL HMAP). -/
def Region.block (r : Region) (n : Nat) : List Byte :=
  leBytes 8 n ++ leBytes 8 r.base ++ leBytes 8 (r.len / 4096) ++ leBytes 8 r.attr ++ leBytes 8 r.grant.toNat ++
  leBytes 8 r.sealCfg.word ++ leBytes 8 r.placement.toNat ++ leBytes 8 0

/-- The region a block describes. -/
def HBlock.toRegion (b : HBlock) : Region :=
  { base := b.base, len := b.len, floor := b.floor, atomic := b.attr / 2 ^ 2 % 2 == 1, sealed := b.sealed,
    downgrade := b.attr / 2 ^ 4 % 2 == 1, homeOdd := b.homeOdd, wpol := b.wpol, tenant := b.tenant,
    grant := BitVec.ofNat 64 b.grant, sealCfg := b.cfg, placement := BitVec.ofNat 64 b.place, written := false, nextPos := 0,
    warned := false }

/-- R168: the form of a CREATE or MODIFY. -/
def HBlock.malformed (b : HBlock) (create : Bool) : Bool :=
  b.stray || (b.any && (!create || b.region != 0)) || b.units == 0 || decide (2 ^ 31 < b.units) ||
  b.attr / 2 ^ 9 % 2 ^ 7 != 0 || decide (2 ^ 28 ≤ b.attr) || decide (4 < b.wpol) || decide (2 ^ 3 ≤ b.place) ||
  (b.pin && b.wpol == 4) || (!b.sealed && b.sealWord != 0) || b.sealWord / 2 ^ 8 % 2 ^ 8 != 0 || decide (2 ^ 48 ≤ b.sealWord)

/-- R168: a DELETE or READ names a region and nothing else. -/
def HBlock.notBare (b : HBlock) : Bool :=
  b.stray || b.any || b.base != 0 || b.units != 0 || b.attr != 0 || b.grant != 0 || b.sealWord != 0 || b.place != 0

/-- R51 and R350: FLOOR D3 with SEALED alone, a checkpoint area, room for records behind it. -/
def HBlock.sealBad (b : HBlock) : Bool :=
  (b.sealed != (b.floor == .d3)) || (b.sealed && (b.cfg.ckptArea == 0 || decide (b.len ≤ 65536 * b.cfg.ckptArea + 65536)))

/-- R169: W or ATOM granted on a SEALED region. -/
def HBlock.grantBad (b : HBlock) : Bool := b.sealed && b.grant / 2 % 4 != 0

/-! ### Space -/

/-- Lengths of a tenant's regions (R303). -/
def State.tenantDdr (s : State) (t : Nat) : Nat := sumOf (s.regions.map (fun e => if e.2.tenant = t then e.2.len else 0))

/-- Lengths of all regions. -/
def State.ddrUsed (s : State) : Nat := sumOf (s.regions.map (fun e => e.2.len))

/-- The tenant's DDR reservation does not hold `more` bytes (R303). -/
def State.ddrShort (s : State) (t more : Nat) : Bool :=
  decide (1048576 * ((Tab.get s.tenants t).map (·.ddrMib)).getD 0 < s.tenantDdr t + more)

/-- Lent capacity is needed for `more` bytes (R322). -/
def State.needsLent (s : State) (more : Nat) : Bool :=
  decide (0 < s.lentMib) && decide (1048576 * (s.usableMib - s.lentMib) < s.ddrUsed + more)

/-- The range meets a region other than `self`, an enabled fence window, or what lies beyond the usable DDR5. A window that is still
staged does not count (DESIGN CHOICE, notes/assumptions/83.md). -/
def State.spaceBad (s : State) (self : Option Nat) (lo n : Nat) : Bool :=
  s.regions.any (fun e => some e.1 != self && e.2.overlaps lo n) ||
  [Port.hp0, Port.hp1].any (fun p => (List.range 16).any (fun ld => match s.fenceWindow p ld with
    | some w => decide (w < lo + n) && decide (lo < w + 4096)
    | none => false)) ||
  decide (1048576 * s.installedMib < lo + n) || decide (262144 * s.mem.limit < lo + n)

/-- What a privileged operation comes to: a status with no effect, a refusal that starts the reclaim of loans (R322), or
the new state and a value. -/
inductive Applied where
  | fail (st : Status)
  | reclaim (mask : Nat)
  | done (s : State) (val : Nat)

/-! ### Dropping a range -/

/-- Some region with a floor above D0 owns a block of the page. -/
def State.pageOwned (s : State) (page : Nat) : Bool :=
  (s.pageFloors page).any (fun f => match f with
    | some .d0 => false
    | some _ => true
    | none => false)

def outside (lo n a : Nat) : Bool := decide (a < lo) || decide (lo + n ≤ a)

def cellsOutside (lo n : Nat) (cs : List Host.Cell) : List Host.Cell := cs.filter (fun c => outside lo n c.1)

/-- A range that has left every region: its contents, its dirty pages and their charges, its near-cache sectors and its
NAND copies are gone, and it reads as zero (R169, R258). -/
def State.dropRange (s : State) (lo n : Nat) : State :=
  let gone := (pagesOf lo n).filter (fun p => !s.pageOwned p)
  let keep (p : Nat) : Bool := !gone.contains p
  let asked := (s.dst.pages.filter (fun e => !keep e.1 && e.2.demand)).length
  let s1 := (blocksOf lo n).foldl (fun s b => if (Tab.get s.nc.lines b).isSome || (s.nc.inVictim b).isSome then s.dropBlock b else s) s
  let dst := s1.dst
  let dst' : DstState := { dst with
    pages := dst.pages.filter (fun e => keep e.1)
    map := dst.map.filter (fun e => keep e.1)
    nand := dst.nand.clear lo n
    nandPoison := dst.nandPoison.filter (outside lo n)
    demandOut := dst.demandOut - asked }
  let units := s1.pst.units.map (fun u => if u.committed then { u with cells := cellsOutside lo n u.cells } else u)
  let copies := s1.phl.copies.map (fun c => { c with cells := cellsOutside lo n c.cells })
  { s1 with
    ddr := s1.ddr.clear lo n
    poison := s1.poison.filter (outside lo n)
    pst := { s1.pst with units := units.filter (fun u => !u.committed || !u.cells.isEmpty) }
    phl := { s1.phl with copies := copies.filter (fun c => !c.cells.isEmpty) }
    dst := dst' }.zoneStep 0

/-! ### Creating -/

/-- Whether a CREATE fails, and with what, in the order of R169. `fw`: a plan entry or firmware, to which R324 does not
apply. -/
def State.createStatus (s : State) (b : HBlock) (fw : Bool) : Option Status :=
  firstSome
    [ failIf (!fw && b.tenant != 0 && s.planMissing) ST.mode,
      failIf (b.malformed true) ST.fault,
      failIf (!Tab.has s.tenants b.tenant || b.sealBad || (b.sealed && s.cip.sealRoot.isNone) || b.grantBad) ST.rights,
      failIf (s.spaceBad none b.base b.len) ST.bounds,
      failIf (decide (65536 ≤ s.regions.length) || (!b.any && Tab.has s.regions b.region) || s.ddrShort b.tenant b.len ||
        (b.pin && !s.pinFits b.tenant b.base b.len)) ST.busy ]

/-- The region stands in the table; a sealed one gets checkpoint 0 from its home (R355). -/
def State.addRegion (s : State) (n : Nat) (r : Region) : State :=
  let s1 := { s with regions := Tab.put s.regions n r }.dropRange r.base r.len
  if r.sealed then s1.startLog n r else s1

def State.createRegion (s : State) (b : HBlock) (fw : Bool) : Applied :=
  match s.createStatus b fw with
  | some st => .fail st
  | none =>
    if s.needsLent b.len then .reclaim 1
    else
      let n := if b.any then Tab.fresh s.regions 0 else b.region
      .done (s.addRegion n b.toRegion) n

/-! ### Changing -/

/-- Fields whose change is a fence on the region (R52, R169). -/
def fencesChange (r : Region) (b : HBlock) : Bool :=
  r.atomic != (b.attr / 2 ^ 2 % 2 == 1) || r.sealed != b.sealed || r.homeOdd != b.homeOdd || r.len != b.len

/-- Under planned placement a MODIFY leaves LENGTH, HOME, TENANT and PLACE alone (R326); in SERVICE it leaves HOME alone
(Table ISA-18). -/
def State.modifyMode (s : State) (r : Region) (b : HBlock) : Bool :=
  (s.on F.TIR_PLACE_CTL.PLANNED && (r.len != b.len || r.homeOdd != b.homeOdd || r.tenant != b.tenant ||
    r.placement.toNat != b.place)) ||
  (s.mod.mode == .service && r.homeOdd != b.homeOdd)

/-- A MODIFY fails with ST_RIGHTS: BASE or TENANT changed, SEALED cleared or set on a written region, a checkpoint area
changed, the conditions of R51 and R350 broken, W or ATOM granted on a SEALED region. -/
def State.modifyRights (s : State) (r : Region) (b : HBlock) : Bool :=
  r.base != b.base || r.tenant != b.tenant || (r.sealed && !b.sealed) || (!r.sealed && b.sealed && r.written) || b.sealBad ||
  (!r.sealed && b.sealed && s.cip.sealRoot.isNone) || (r.sealed && b.sealed && r.sealCfg.ckptArea != b.cfg.ckptArea) || b.grantBad

/-- PIN, or a longer pinned region, fits (R308); the range it has pinned already counts no more. -/
def State.modifyPin (s : State) (n : Nat) (r : Region) (b : HBlock) : Bool :=
  !b.pin || { s with regions := Tab.put s.regions n { r with placement := 0 } }.pinFits b.tenant b.base b.len

def State.modifyStatus (s : State) (n : Nat) (r : Region) (b : HBlock) (fw : Bool) : Option Status :=
  firstSome
    [ failIf (!fw && s.modifyMode r b) ST.mode,
      failIf (b.malformed false) ST.fault,
      failIf (s.modifyRights r b) ST.rights,
      failIf (s.spaceBad (some n) b.base b.len) ST.bounds,
      failIf (s.ddrShort b.tenant (b.len - r.len) || !s.modifyPin n r b) ST.busy ]

/-- The new descriptor; what is written, positions and the SOLO_POLICY episode go on. -/
def HBlock.over (b : HBlock) (r : Region) : Region := { b.toRegion with written := r.written, nextPos := r.nextPos, warned := r.warned }

/-- The descriptor is replaced: space beyond a new end is dropped, space gained reads as zero, pins that end are
released. -/
def State.changeRegion (s : State) (n : Nat) (r : Region) (b : HBlock) : State :=
  let s1 := { s with regions := Tab.put s.regions n (b.over r) }
  let s2 := if r.pinned && !b.pin then s1.unpinRegion r.base r.len else s1
  let s3 := if b.len < r.len then s2.dropRange (r.base + b.len) (r.len - b.len)
            else if r.len < b.len then s2.dropRange (r.base + r.len) (b.len - r.len) else s2
  if !r.sealed && b.sealed then s3.startLog n (b.over r) else s3

def State.modifyRegion (s : State) (b : HBlock) (fw : Bool) : Applied :=
  match Tab.get s.regions b.region with
  | none => .fail (if b.malformed false then ST.fault else ST.bounds)
  | some r =>
    match s.modifyStatus b.region r b fw with
    | some st => .fail st
    | none => if s.needsLent (b.len - r.len) then .reclaim 1 else .done (s.changeRegion b.region r b) 0

/-! ### Deleting -/

/-- The AUDIT record of a deleted SEALED region: the region and the first 16 bytes of its last chain head (R169). -/
def State.sealedGone (s : State) (n : Nat) : State :=
  let h := ((s.log n).map (·.doneHead)).getD []
  s.recordFull sevAudit .cip 7 0 n 0 (BitVec.ofNat 64 (leNat (h.take 8))) (BitVec.ofNat 64 (leNat ((h.drop 8).take 8)))

/-- The region leaves the table with its contents. -/
def State.removeRegion (s : State) (n : Nat) (r : Region) : State :=
  let s1 := if r.sealed then (s.sealedGone n).updCip (fun c => { c with logs := Tab.del c.logs n }) else s
  let s2 := if r.pinned then s1.unpinRegion r.base r.len else s1
  { s2 with regions := Tab.del s2.regions n }.dropRange r.base r.len

def State.deleteRegion (s : State) (b : HBlock) : Applied :=
  if b.notBare then .fail ST.fault
  else match Tab.get s.regions b.region with
    | none => .fail ST.bounds
    | some r => .done (s.removeRegion b.region r) 0

/-- A fence on the region (R52): a unit of it, the twin's copies among them, has neither committed nor failed. -/
def State.regionBusy (s : State) (n : Nat) : Bool :=
  s.pst.units.any (fun u => u.region == n && !u.committed) || s.pst.extents.any (fun e => e.2.region == n) ||
  s.phl.copies.any (fun c => c.region == n && !c.committed)

/-- An HMAP change that must wait for such a fence. -/
def State.mustFence (s : State) (op : Nat) (b : HBlock) : Bool :=
  match Tab.get s.regions b.region with
  | none => false
  | some r => s.regionBusy b.region && (op == 2 || (op == 1 && fencesChange r b))

/-! ### The twin -/

/-- A CTRL HMAP frame of region `n` (Table TWN-4): its block, or for a region that is gone a block with LENGTH 0. One that answers
the twin's refers to it. -/
def State.hmapFrame (s : State) (n ref : Nat) : State :=
  match s.phl.twin with
  | .paired | .fallback | .resyncIn | .resyncOut | .unconfirmed =>
    s.sendFrame { Frame.mk0 13 with region := n, ref := ref, aux := 1, data := match Tab.get s.regions n with
      | some r => r.block n
      | none => leBytes 8 n ++ leBytes 56 0 }
  | _ => s

/-- A change of region `n` goes to the twin; until the twin answers, it may not hold it yet (R53; DESIGN CHOICE,
notes/assumptions/99.md). -/
def State.sendHmap (s : State) (n : Nat) : State :=
  match s.phl.twin with
  | .paired | .fallback | .resyncIn | .resyncOut | .unconfirmed =>
    ({ s with phl := { s.phl with hmapOut := s.phl.hmapOut ++ [s.phl.txNext], told := s.phl.told ++ [(0, n)] } }).hmapFrame n 0
  | _ => s

/-- `a` is at or before `b` among 32-bit MSNs (R230). -/
def msnLe (a b : Nat) : Bool := decide ((b + 2 ^ 32 - a) % 2 ^ 32 < 2 ^ 31)

/-- The twin has processed the frame with that MSN and answered every change of a region up to it, or this device serves alone
(R53, R65). -/
def State.twinHolds (s : State) (msn : Option Nat) : Bool :=
  match msn, s.phl.twin with
  | none, _ => true
  | some _, .alone => true
  | some _, .absent => true
  | some _, .lost => true
  | some m, _ => !s.phl.unconfirmed.any (fun f => f.msn == m) && !s.phl.hmapOut.any (fun x => msnLe x m)

/-- Management requests complete once the twin holds their change, or this device serves alone (R53, R541). -/
def State.settleTwinWait (s : State) : State :=
  let done (e : Path × Nat × List Byte) : Bool := s.twinHolds (some e.2.1)
  let l := s.phl.twinWait
  { s with phl := { s.phl with twinWait := l.filter (fun e => !done e) }
           out := s.out ++ (l.filter done).map (fun e => Out.result e.1 ST.ok e.2.2) }

/-- A management request has made its change; `before` is the MSN that the next frame would have had. -/
def State.answerHeld (s : State) (path : Path) (before : Nat) (res : List Byte) : State :=
  if s.phl.txNext = before then s.emit (.result path ST.ok res)
  else { s with phl := { s.phl with
    twinWait := s.phl.twinWait ++ [(path, (s.phl.txNext + 2 ^ 32 - 1) % 2 ^ 32, res)] } }.settleTwinWait

/-- A change of another table goes to the twin: an opcode of Table ISA-15's family, its operation, a number and its block, in pieces
(R168; DESIGN CHOICE, notes/assumptions/100.md). -/
def State.sendChange (s : State) (op sel n : Nat) (body : List Byte) : State :=
  let l := leBytes 1 op ++ leBytes 1 sel ++ leBytes 2 n ++ body
  let p := chunks ((l.length + 16383) / 16384) 16384 l
  (p.zip (List.range p.length)).foldl (fun t e =>
    t.mirrorMeta (3 + (if e.2 = 0 then 2 ^ 8 else 0) + (if e.2 + 1 = p.length then 2 ^ 9 else 0)) e.1) s

/-- A CTRL HMAP frame applies the same change here (R53). -/
def State.applyHmap (s : State) (b : HBlock) : State :=
  match Tab.get s.regions b.region, b.units with
  | some r, 0 => s.removeRegion b.region r
  | none, 0 => s
  | some r, _ =>
    if r.base = b.base ∧ r.tenant = b.tenant then s.changeRegion b.region r b
    else (s.removeRegion b.region r).addRegion b.region b.toRegion
  | none, _ => s.addRegion b.region b.toRegion

/-- The change is a fence on its region here too, and units of that region are still open (R52). -/
def State.hmapFenced (s : State) (b : HBlock) : Bool :=
  match Tab.get s.regions b.region with
  | none => false
  | some r => s.regionBusy b.region && (b.units == 0 || r.base != b.base || r.tenant != b.tenant || fencesChange r b)

/-- A change of the twin's takes effect here and is answered, once its fence and the changes before it allow. -/
def State.hmapStep (s : State) (e : Nat × List Byte) : State :=
  let b := HBlock.ofBytes e.2
  if s.phl.hmapIn.any (fun x => (HBlock.ofBytes x.2).region == b.region) || s.hmapFenced b then
    { s with phl := { s.phl with hmapIn := s.phl.hmapIn ++ [e] } }
  else (s.applyHmap b).hmapFrame b.region e.1

/-- The changes of the twin's that waited. -/
def State.runHmaps (s : State) : State :=
  s.phl.hmapIn.foldl (fun t e => t.hmapStep e) { s with phl := { s.phl with hmapIn := [] } }

/-- A CTRL HMAP frame: the twin's answer to a change of this device, or a change of its own. -/
def State.takeHmap (s : State) (msn ref : Nat) (data : List Byte) : State :=
  if ref ≠ 0 ∨ s.phl.hmapOut.contains ref = true then { s with phl := { s.phl with hmapOut := s.phl.hmapOut.filter (· != ref) } }
  else ({ s with phl := { s.phl with told := s.phl.told ++ [(0, (HBlock.ofBytes data).region)] } }).hmapStep (msn, data)

end Sys2Proof.Machine
end

