-- ==== Sys2Proof/Machine/Verify.lean ====
section
/-! DEFINITION. Verification of programs (04 R131), resident procedures (R130) and queue pairs (R110, R126, Tables PRG-1,
PRG-4, ISA-16; 17 R482, R483). -/

namespace Sys2Proof.Machine

/-! ### Verification -/

/-- Longest chain of CALLs from a procedure, counted to `fuel`. -/
def State.callDepth (s : State) : Nat → Nat → Nat
  | 0, _ => 0
  | n + 1, p => ((callsOf (s.progWords (.proc p))).map (fun q => 1 + s.callDepth n q)).foldl max 0

/-- Longest chain of CALLs that ends at a procedure. -/
def State.callerDepth (s : State) : Nat → Nat → Nat
  | 0, _ => 0
  | n + 1, p => ((s.pe.procs.filter (fun e => e.1 != p && (callsOf e.2.words).contains p)).map
      (fun e => 1 + s.callerDepth n e.1)).foldl max 0

/-- Procedure `p` is reached from `q` within `fuel` CALLs. -/
def State.callReaches (s : State) (p : Nat) : Nat → Nat → Bool
  | 0, q => q == p
  | n + 1, q => q == p || (callsOf (s.progWords (.proc q))).any (fun r => s.callReaches p n r)

/-- The lowest-numbered rule of R131 that the instruction at `pc` of a program of `n` instructions breaks; `self` is the
number it is loaded under. -/
def State.ruleOf (s : State) (self : Option Nat) (priv : Bool) (n pc : Nat) (i : IWord) : Option Nat :=
  let branch := i.opn == 0x01 || i.opn == 0x02
  let target := i.target pc
  let q := i.imm32.toNat % 4096
  let before := (self.map (fun p => s.callerDepth 9 p)).getD 0
  if !i.wf then some 1
  else if branch && (decide (target < 0) || decide ((n : Int) ≤ target)) then some 2
  else if branch && i.backward && i.bound == 0 then some 3
  else if i.opn == 0x03 && !Tab.has s.pe.procs q then some 4
  else if i.opn == 0x03 && ((match self with
      | some p => s.callReaches p 9 q
      | none => false) || decide (8 < before + 1 + s.callDepth 9 q)) then some 5
  else if isPrivOp i.opn && !priv then some 6
  else none

/-- The first instruction that breaks a rule, with the rule. -/
def State.firstRule (s : State) (self : Option Nat) (priv : Bool) (ws : List (BitVec 128)) : Option (Nat × Nat) :=
  ((ws.zip (List.range ws.length)).findSome? (fun e =>
    (s.ruleOf self priv ws.length e.2 (IWord.ofBits e.1)).map (fun r => (r, e.2))))

/-- What verification of an image finds: the rule broken and the instruction's index. -/
def State.verifyImage (s : State) (p : Nat) (image : List Byte) : Option (Nat × Nat) :=
  if 65536 < image.length ∨ image.length % 16 ≠ 0 then some (7, 0)
  else s.firstRule (some p) true (wordsOf (image.length / 16) image)

/-! ### Resident procedures -/

/-- An invocation of the procedure is running, or a command that names it has been fetched. -/
def State.procRuns (s : State) (p : Nat) : Bool :=
  s.pe.strands.any (fun e => e.2.frames.any (fun f => f.prog == .proc p)) ||
  s.pe.cmds.any (fun e => !e.2.inline && e.2.proc == p && !e.2.rejected && !e.2.ended)

/-- PE_LOAD_STATUS. -/
def State.loadStatus (s : State) (p : Nat) (st : Status) (rule off : Nat) : State :=
  (((s.setFld F.PE_LOAD_STATUS.PROC p).setFld F.PE_LOAD_STATUS.STATUS st.toNat).setFld F.PE_LOAD_STATUS.OFFSET off).setFld
    F.PE_LOAD_STATUS.RULE rule

/-- PROC_LOAD of an image (R130, R131): the state and the status. -/
def State.loadProc (s : State) (p : Nat) (image : List Byte) : State × Status :=
  let held := match Tab.get s.pe.procs p with
    | some q => !q.retired || s.procRuns p
    | none => false
  if held then (s.loadStatus p ST.busy 0 0, ST.busy)
  else match s.verifyImage p image with
    | some (rule, off) => ((s.loadStatus p ST.fault rule off).flag F.PE_ERR.LOAD_REJECT, ST.fault)
    | none =>
      let q : Proc := { words := wordsOf (image.length / 16) image, retired := false }
      ((s.updPe (fun x => { x with procs := Tab.put x.procs p q })).loadStatus p ST.ok 0 0, ST.ok)

/-! ### Queue pairs -/

/-- Contexts of a tenant in use: one for each queue pair and each session (Table PRG-8). -/
def State.contextsUsed (s : State) (t : Nat) : Nat :=
  (s.pe.qps.filter (fun e => e.2.tenant == t)).length + (s.fab.sessions.filter (fun e => e.2.tenant == t)).length

def State.contextFree (s : State) (t : Nat) : Bool :=
  match Tab.get s.tenants t with
  | some x => decide (s.contextsUsed t < x.contexts)
  | none => false

/-- A handle set entry that Table PRG-4 or R126 forbids to tenant `t`; `i` is its place. -/
def State.handleBad (s : State) (t i : Nat) (h : Word) : Bool :=
  match hKind h with
  | .empty => false
  | .scratch => i != 15
  | .remote => (match s.ses (hSession h) with
      | some x => x.tenant != t
      | none => true)
  | .local_ => (match Tab.get s.regions (hRegion h) with
      | some r => r.tenant != t || !hasRights (bitsOf r.grant 0 4) (hRights h) || (r.sealed && hRights h / 2 % 4 != 0)
      | none => true)

/-- A bit that Table PRG-4 marks zero is not zero. -/
def handleStray (h : Word) : Bool := bitsOf h 6 2 != 0 || bitsOf h 44 20 != 0 || (hKind h == .local_ && hSession h != 0)

/-- The sixteen entries of a QCTL block (bytes 64 to 191). -/
def handlesOf (b : List Byte) : List Word := (List.range 16).map (fun i => BitVec.ofNat 64 (blkWord b (8 + i)))

def State.handlesBad (s : State) (t : Nat) (hs : List Word) : Bool :=
  (hs.zip (List.range 16)).any (fun e => s.handleBad t e.2 e.1)

/-- The range lies inside one D0 region of the tenant. -/
def State.inD0 (s : State) (t lo n : Nat) : Bool :=
  match s.regionAt lo with
  | some (_, r) => r.tenant == t && r.floor == .d0 && decide (lo + n ≤ r.base + r.len)
  | none => false

/-- Bytes of a journal: 4,096 entries of 64 (R74). -/
def journalLen : Nat := 262144

/-- Fields of a QCTL CREATE (Table ISA-16). -/
structure QBlock where
  tenant : Nat
  log2 : Nat
  cls : Nat
  maxStrands : Nat
  wait : Nat
  sq : Nat
  cq : Nat
  journal : Nat
  priv : Bool
  handles : List Word
  stray : Bool

def QBlock.ofBytes (b : List Byte) : QBlock :=
  let w := blkWord b
  { tenant := w 0 % 2 ^ 12, log2 := w 0 / 2 ^ 12 % 16, cls := w 0 / 2 ^ 16 % 4, maxStrands := w 0 / 2 ^ 32 % 2 ^ 13,
    wait := w 0 / 2 ^ 48, sq := w 1, cq := w 2, journal := w 3, priv := w 4 % 2 == 1, handles := handlesOf b,
    stray := w 0 / 2 ^ 18 % 2 ^ 14 != 0 || w 0 / 2 ^ 45 % 8 != 0 || decide (2 ≤ w 4) || w 5 != 0 || w 6 != 0 || w 7 != 0 ||
      (handlesOf b).any handleStray }

def QBlock.depth (q : QBlock) : Nat := 2 ^ q.log2

/-- Whether a CREATE fails, and with what (R168, then Table PRG-1 in its order). -/
def State.qctlStatus (s : State) (q : QBlock) : Option Status :=
  let d := q.depth
  firstSome
    [ failIf q.stray ST.fault,
      failIf (!Tab.has s.tenants q.tenant) ST.rights,
      failIf (decide (q.log2 < 6) || decide (12 < q.log2)) ST.length,
      failIf (q.sq % 64 != 0 || !s.inD0 q.tenant q.sq (64 * d)) ST.rights,
      failIf (q.cq % 32 != 0 || !s.inD0 q.tenant q.cq (32 * d) ||
        (decide (q.sq < q.cq + 32 * d) && decide (q.cq < q.sq + 64 * d))) ST.rights,
      failIf (q.journal % 4096 != 0 || s.spaceBad none q.journal journalLen) ST.bounds,
      failIf (q.maxStrands == 0 || decide (d < q.maxStrands)) ST.fault,
      failIf (q.priv && q.tenant != 0) ST.rights,
      failIf (s.handlesBad q.tenant q.handles) ST.rights,
      failIf (!s.contextFree q.tenant || s.ddrShort q.tenant journalLen || decide (65536 ≤ s.regions.length) ||
        decide (16384 ≤ Tab.fresh s.pe.qps 16)) ST.busy ]

/-- The journal region of a new queue pair (R74): D2, DOWNGRADE, homed here, granted for reading. -/
def State.journalRegion (s : State) (tenant base : Nat) : Region :=
  { base := base, len := journalLen, floor := .d2, atomic := false, sealed := false, downgrade := true, homeOdd := s.odd, wpol := 0,
    tenant := tenant, grant := 1, sealCfg := { ckptArea := 0, autoRecords := 0, autoMs := 0 }, placement := 0, written := false,
    nextPos := 0, warned := false }

/-- The CRC of a FREE entry with FSEQ 0. -/
def freeCrc : List Byte := leBytes 4 (crc32c (List.replicate 60 0)).toNat

/-- Every entry of a new journal is written FREE, with FSEQ 0 (R483), as units of 64 entries. -/
def State.freeJournal (s : State) (n : Nat) (r : Region) : State :=
  (List.range 64).foldl (fun s i =>
    let dpa := r.base + 4096 * i
    let cells := ((List.range 64).map (fun j => cellsAt (dpa + 64 * j + 60) freeCrc)).flatten
    s.admitOwn (mkUnit s.pst.nextUnit n r dpa 4096 cells .d2 .device false)) s

def mkQp (q : QBlock) (jRegion : Nat) : Qp :=
  { tenant := q.tenant, depth := q.depth, sqBase := q.sq, cqBase := q.cq, jBase := q.journal, jRegion := jRegion, cls := q.cls,
    maxStrands := q.maxStrands, defWait := q.wait, priv := q.priv, handles := q.handles, sqTail := 0, sqHead := 0, cqTail := 0,
    cqHead := 0, phase := true, posted := [], turn := 0, fseq := 0, life := .active, destroyer := [], as8200 := false, sigSecond := 0,
    sigCount := 0, sigDropped := 0 }

/-- A queue pair with number `n` and its journal. -/
def State.addQp (s : State) (n : Nat) (q : QBlock) : State :=
  let j := Tab.fresh s.regions 0
  let r := s.journalRegion q.tenant q.journal
  ((s.addRegion j r).freeJournal j r).updPe (fun p => { p with qps := Tab.put p.qps n (mkQp q j) })

def State.createQp (s : State) (q : QBlock) : Applied :=
  match s.qctlStatus q with
  | some st => .fail st
  | none => if s.needsLent journalLen then .reclaim 1 else .done (s.addQp (Tab.fresh s.pe.qps 16) q) (Tab.fresh s.pe.qps 16)

/-- The change is made here; the instruction completes once the twin holds it too (R53, R168). `before` is the MSN that the
next frame would have had. -/
def State.finishPriv (s : State) (c : Nat) (o : Nat) (before : Nat) (d : OpDone) : State :=
  if s.phl.txNext = before then s.opDone c o d
  else s.updOp c o (fun o => { o with phase := .external, sec := (s.phl.txNext + 2 ^ 32 - 1) % 2 ^ 32, done := some d })

/-- The first of this device's privileged regions: the twins use numbers of their own (R53, R112; DESIGN CHOICE,
notes/assumptions/21.md). -/
def privFirst (odd : Bool) : Nat := if odd then 65502 else 65519

/-- A region that this device made for its privileged queues. -/
def State.ownPriv (s : State) (n : Nat) : Bool := decide (privFirst s.odd ≤ n) && decide (n < privFirst s.odd + 17)

/-- The queue pair's context, journal region and handle set are freed, here and on the twin, and its DESTROY completes (R111). -/
def State.freeQp (s : State) (n : Nat) : State :=
  match Tab.get s.pe.qps n with
  | none => s
  | some q =>
    let s1 := s.updPe (fun p => { p with qps := Tab.del p.qps n })
    let s2 := s1.updFab (fun f => { f with resident := f.resident.filter (· != 2 * n + 1) })
    let s3 := match Tab.get s2.regions q.jRegion with
      | some r => (s2.removeRegion q.jRegion r).sendHmap q.jRegion
      | none => s2
    let s4 := s3.sendChange 0x81 1 n []
    q.destroyer.foldl (fun t e => t.finishPriv e.1 e.2 s.phl.txNext (OpDone.ok none)) s4

/-- A queue pair under destruction goes once its last command has posted and its journal is quiet (R111). -/
def State.reapQp (s : State) (n : Nat) : State :=
  match Tab.get s.pe.qps n with
  | some q => if q.life == .destroying && (s.qpCmds n).isEmpty && !s.regionBusy q.jRegion then s.freeQp n else s
  | none => s

end Sys2Proof.Machine
end

