-- ==== Sys2Proof/Machine/Tenants.lean ====
section
/-! DEFINITION. Tenants and their reservations (04 R136 to R138, 05 R171, 06 R204, 08 R277, 09 R303, R304, R322), and
planned placement (09 R324 to R328). -/

namespace Sys2Proof.Machine

/-! ### ADMIT -/

def Tenant.none_ : Tenant :=
  { ddrMib := 0, ncMib := 0, ceilMib := 0, credits := 0, contexts := 0, ctxResident := 0, strandsMin := 0, strandsMax := 0 }

/-- The ADMIT block (Table ISA-17): tenant, reservations, and whether a bit outside its fields is set. -/
def admitBlock (b : List Byte) : Nat × Tenant × Bool :=
  let w := blkWord b
  (w 0 % 2 ^ 12,
   { ddrMib := w 1, ncMib := w 2, ceilMib := w 3, credits := w 4 % 2 ^ 32, contexts := w 5 % 2 ^ 21,
     ctxResident := w 5 / 2 ^ 32 % 2 ^ 15, strandsMin := w 6 % 2 ^ 13, strandsMax := w 6 / 2 ^ 16 % 2 ^ 13 },
   decide (2 ^ 12 ≤ w 0) || decide (2 ^ 32 ≤ w 4) || w 5 / 2 ^ 21 % 2 ^ 11 != 0 || decide (2 ^ 47 ≤ w 5) ||
     w 6 / 2 ^ 13 % 2 ^ 3 != 0 || decide (2 ^ 29 ≤ w 6) || w 7 != 0)

/-- A sum over the tenants with `t`'s part replaced. -/
def State.sumWith (s : State) (t : Nat) (f : Tenant → Nat) (x : Tenant) : Nat :=
  sumOf ((s.tenants.filter (fun e => e.1 != t)).map (fun e => f e.2)) + f x

/-- The mask of R136: the reservations that cannot be met. -/
def State.admitMask (s : State) (t : Nat) (x : Tenant) : Nat :=
  let ceil := s.sumWith t (·.ceilMib) x
  let min_ := s.sumWith t (·.strandsMin) x
  (if s.usableMib - s.lentMib < s.sumWith t (·.ddrMib) x then 1 else 0) +
  (if 24576 < s.sumWith t (·.ncMib) x then 2 else 0) +
  (if s.shareSum < ceil ∧ s.fld F.DST_CEIL_CTL.OVERBOOK * s.poolKib < ceil * 1024 then 4 else 0) +
  (if s.fld F.FAB_CREDIT.POOL_SIZE < s.sumWith t (·.credits) x then 8 else 0) +
  (if 1048576 < s.sumWith t (·.contexts) x ∨ 16128 < s.sumWith t (·.ctxResident) x then 16 else 0) +
  (if 4032 < min_ ∨ x.strandsMax < x.strandsMin ∨ x.strandsMin + (4032 - min_) < x.strandsMax then 32 else 0)

/-- The ADMIT fails for lent capacity alone (R322). -/
def State.admitLent (s : State) (t : Nat) (x : Tenant) : Bool :=
  decide (0 < s.lentMib) && decide (s.sumWith t (·.ddrMib) x ≤ s.usableMib)

/-- The tenant owns a region, a queue pair or a session (R171). -/
def State.tenantOwns (s : State) (t : Nat) : Bool :=
  s.regions.any (fun e => e.2.tenant == t) || s.pe.qps.any (fun e => e.2.tenant == t) || s.fab.sessions.any (fun e => e.2.tenant == t)

/-- R171: a block of zeros releases a tenant. -/
def State.releaseTenant (s : State) (t : Nat) : Applied :=
  if t = 0 then .fail ST.rights
  else if s.tenantOwns t then .fail ST.busy
  else .done { s with tenants := Tab.del s.tenants t } 0

/-- R136: all reservations, or none; on failure the mask. -/
def State.admitTenant (s : State) (t : Nat) (x : Tenant) : Applied :=
  let m := s.admitMask t x
  if m = 0 then .done { s with tenants := Tab.put s.tenants t x } 0 else .reclaim m

/-- ADMIT of a block after its form check: what it does, and on failure what it leaves: the WARN record and the reclaim it
starts. -/
def State.admitOr (s : State) (t : Nat) (x : Tenant) : Applied :=
  if x = Tenant.none_ then s.releaseTenant t else s.admitTenant t x

/-- A refused ADMIT writes a WARN record and starts the reclaim of loans it needs (R136, R322). -/
def State.admitRefused (s : State) (t : Nat) (x : Tenant) (mask : Nat) : State :=
  let s1 := s.recordFull sevWarn .pe 4 0 t 0 (BitVec.ofNat 64 mask) 0
  if mask % 2 = 1 ∧ s.admitLent t x then
    s1.reclaimSome (s.sumWith t (·.ddrMib) x - (s.usableMib - s.lentMib))
  else s1

/-! ### Plan entries (Table TIR-10) -/

/-- Bits of a little-endian payload. -/
def payBits (n lsb width : Nat) : Nat := n / 2 ^ lsb % 2 ^ width

/-- The payload of an entry as a number: bit 0 is bit 0 of byte 8. -/
def entryPay (e : List Byte) : Nat := leNat ((e.drop 8).take 56)

/-- A TENANT entry's reservations. -/
def entryTenant (p : Nat) : Tenant :=
  { ddrMib := 1024 * payBits p 12 16, ncMib := payBits p 28 16, ceilMib := payBits p 44 20, credits := payBits p 64 12,
    contexts := payBits p 76 21, ctxResident := payBits p 97 15, strandsMin := payBits p 112 13, strandsMax := payBits p 125 13 }

/-- A REGION entry as an HMAP block. -/
def entryRegion (p : Nat) : HBlock :=
  { region := payBits p 0 16, any := false, base := 4096 * payBits p 16 32, units := payBits p 48 32, attr := payBits p 80 28,
    grant := payBits p 108 4, sealWord := payBits p 176 64, place := payBits p 112 64, stray := false }

/-- Payload bits of a kind. -/
def entryWidth (kind : Nat) : Nat :=
  match kind with
  | 1 => 138
  | 2 => 240
  | _ => 34

/-- A reserved KIND or ACTION, or a bit outside the entry's fields. -/
def entryStray (e : List Byte) : Bool :=
  let w := blkWord e 0
  let kind := w % 2 ^ 8
  kind == 0 || decide (4 < kind) || w / 2 ^ 8 % 4 == 3 || decide (2 ^ 10 ≤ w) || decide (2 ^ entryWidth kind ≤ entryPay e)

/-- The loan limits of a plan. -/
def Plan.setLimit (p : Plan) (lend : Bool) (node gib action : Nat) : Plan :=
  if lend then { p with lend := if action = 2 then Tab.del p.lend node else Tab.put p.lend node gib }
  else { p with borrow := if action = 2 then Tab.del p.borrow node else Tab.put p.borrow node gib }

/-- Loans to a borrower whose LEND entry is gone are reclaimed (R322). -/
def State.reclaimFrom (s : State) (node : Nat) : State :=
  (s.tir.loansOut.reverse).foldl (fun s e =>
    if e.2.borrower = node ∧ e.2.notice = false then
      (s.updTir (fun t => { t with loansOut := Tab.put t.loansOut e.1 { e.2 with notice := true } })).emit (.loanNotice e.1 node)
    else s) s

/-- The plan's count of entries after one more. -/
def Plan.counted (p : Plan) (e : List Byte) : Plan :=
  let action := blkWord e 0 / 2 ^ 8 % 4
  { p with entries := if action = 0 then p.entries + 1 else if action = 2 then p.entries - 1 else p.entries }

/-- A plan as its slice begins it. -/
def Plan.ofSlice (b : List Byte) : Plan :=
  { id := BitVec.ofNat 64 (blkWord b 0), amend := 0, entries := 0, bytes := b, lend := [], borrow := [] }

/-- One entry applied as the instruction it stands for (R327); the plan's counts go with it. -/
def State.applyEntry (s : State) (plan : Plan) (e : List Byte) : Applied × Plan :=
  let w := blkWord e 0
  let action := w / 2 ^ 8 % 4
  let p := entryPay e
  let plan' := plan.counted e
  if entryStray e then (.fail ST.fault, plan)
  else match w % 2 ^ 8 with
    | 1 => (if action = 2 then s.releaseTenant (payBits p 0 12) else s.admitOr (payBits p 0 12) (entryTenant p), plan')
    | 2 =>
      let b := entryRegion p
      (match action with
       | 0 => s.createRegion b true
       | 1 => s.modifyRegion b true
       | _ => s.deleteRegion b, plan')
    | k =>
      let node := payBits p 0 18
      (.done (if k = 3 ∧ action = 2 then s.reclaimFrom node else s) 0, plan'.setLimit (k == 3) node (payBits p 18 16) action)

/-- The result of applying entries in order: the new state and plan, or the failing entry (from 1) and its status. -/
inductive PlanRun where
  | ok (s : State) (p : Plan)
  | bad (entry : Nat) (st : Status)

def applyEntries (s : State) (p : Plan) : Nat → List (List Byte) → PlanRun
  | _, [] => .ok s p
  | i, e :: r =>
    match s.applyEntry p e with
    | (.done s1 _, p1) => applyEntries s1 p1 (i + 1) r
    | (.fail st, _) => .bad (i + 1) st
    | (.reclaim _, _) => .bad (i + 1) ST.busy

/-- Entries of a block that follow its 64-byte header. -/
def planEntries (b : List Byte) (count : Nat) : List (List Byte) :=
  (List.range count).map (fun i => (b.drop (64 + 64 * i)).take 64)

/-- COUNT of an amendment or slice header. -/
def planCount (b : List Byte) : Nat := leNat ((b.drop 12).take 2)

/-- Length of a block with `count` entries (Table TIR-11). -/
def planLen (count : Nat) : Nat := 64 + 64 * count + 96

/-- The signature over all bytes before it verifies under the plan key. -/
def State.planSigned (s : State) (b : List Byte) : Bool :=
  Config.ecdsaVerify s.tir.planKey (b.take (b.length - 96)) (b.drop (b.length - 96))

/-- Regions that the entries name. -/
def planRegions (b : List Byte) (count : Nat) : List (Nat × Nat) :=
  (planEntries b count).filterMap (fun e => if blkWord e 0 % 2 ^ 8 = 2 then some (entryPay e % 2 ^ 16, blkWord e 0 / 2 ^ 8 % 4) else none)

/-- The CTRL HMAP frames of the regions that a plan block touched. -/
def State.sendRegions (s : State) (l : List Nat) : State := l.foldl (fun s n => s.sendHmap n) s

/-- A rejected amendment (R327). -/
def State.planReject (s : State) (entry : Nat) (st : Status) : State :=
  (((s.setFld F.TIR_PLAN_STATUS.BAD_ENTRY entry).setFld F.TIR_PLAN_STATUS.REASON st.toNat).bump F.TIR_CNT2.PLAN_REJECTS).recFlag
    sevWarn .tir F.TIR_ERR.PLAN_REJECT 0

/-- The plan is in force. -/
def State.setPlan (s : State) (p : Plan) : State := s.updTir (fun t => { t with plan := some p, planBad := false })

/-- Bytes of the plan store. -/
def planStore : Nat := 8388608

/-- What an amendment comes to: its status, and the state. -/
def State.amend (s : State) (b : List Byte) : State × OpDone :=
  match s.tir.plan with
  | none => (s, OpDone.err ST.mode)
  | some p =>
    let count := planCount b
    if blkWord b 0 ≠ p.id.toNat ∨ leNat ((b.drop 8).take 4) ≠ p.amend + 1 ∨ s.planSigned b = false then
      (s.planReject 0 ST.integrity, OpDone.err ST.integrity)
    else if planStore < p.bytes.length + b.length then (s, OpDone.err ST.busy)
    else match applyEntries s p 0 (planEntries b count) with
      | .bad i st => (s.planReject i st, OpDone.err ST.integrity)
      | .ok s1 p1 =>
        let p2 := { p1 with amend := p.amend + 1, bytes := p.bytes ++ b }
        ((((s1.setPlan p2).recordFull sevAudit .tir 7 0 0 Addr.TIR_PLAN_STATUS (BitVec.ofNat 64 p2.amend) 0).sendRegions
          ((planRegions b count).map (·.1))).sendChange 0x83 0 0 b, OpDone.ok (some (BitVec.ofNat 64 p2.amend)))

/-- KiB of the plan store in use. -/
def State.planKib (s : State) : Nat := (((s.tir.plan.map (·.bytes.length)).getD 0) + 1023) / 1024

/-- The QUERY block (Table TIR-12). -/
def State.planQuery (s : State) : List Byte :=
  let p := s.tir.plan
  let n := (p.map (·.bytes)).getD []
  leBytes 8 ((p.map (·.id.toNat)).getD 0) ++ leBytes 4 ((p.map (·.amend)).getD 0) ++ leBytes 4 s.memberList.length ++
  leBytes 4 ((p.map (·.entries)).getD 0) ++ leBytes 4 s.planKib ++ leBytes 8 0 ++
  (if p.isSome then sha256 n else List.replicate 32 0)

/-- R325: a signed slice is installed while tenant 0 is the only one admitted. -/
def State.installPlan (s : State) (b : List Byte) : State × Status :=
  let count := planCount b
  if s.tenants.any (fun e => e.1 != 0) then (s, ST.busy)
  else if b.length ≠ planLen count ∨ planStore < b.length then (s, ST.length)
  else if s.planSigned b = false then (s.planReject 0 ST.integrity, ST.integrity)
  else
    let p := Plan.ofSlice b
    if (planEntries b count).any (fun e => blkWord e 0 / 2 ^ 8 % 4 != 0) then (s.planReject 0 ST.fault, ST.integrity)
    else match applyEntries s p 0 (planEntries b count) with
      | .bad i st => (s.planReject i st, ST.integrity)
      | .ok s1 p1 =>
        (((((s1.setPlan p1).setFld F.TIR_PLACE_CTL.PLANNED 1).setFld F.TIR_PLAN_STATUS.VALID 1).sendRegions
          ((planRegions b count).map (·.1))).sendChange 0x83 1 0 b, ST.ok)

/-- The management request, and its result block: status and PLAN_ID (Table REG-5). An install completes when both twins hold it
(R325). -/
def execPlanInstall (path : Path) (slice : List Byte) (s : State) : Res :=
  let r := s.installPlan slice
  s.onCtl (.planInstall path slice)
    (if s.running .ctl && s.running .tir then
      (let id := leBytes 8 (((r.1.tir.plan).map (·.id.toNat)).getD 0)
       .next (if r.2 = ST.ok then r.1.answerHeld path s.phl.txNext id else r.1.emit (.result path r.2 id)))
     else .next (s.emit (.result path ST.mode [])))

end Sys2Proof.Machine
end

