-- ==== Sys2Proof/Machine/Metadata.lean ====
section
/-! DEFINITION. What the twin holds of this device's tables beside its regions (05 R168, 09 R325): tenants, queue pairs, programs and the
plan, as changes that firmware sends in CTRL SESSION frames (DESIGN CHOICE, notes/assumptions/100.md). -/

namespace Sys2Proof.Machine

/-- The ADMIT block of a tenant (Table ISA-17). -/
def Tenant.block (x : Tenant) (t : Nat) : List Byte :=
  [t, x.ddrMib, x.ncMib, x.ceilMib, x.credits, x.contexts + x.ctxResident * 2 ^ 32, x.strandsMin + x.strandsMax * 2 ^ 16, 0].flatMap (leBytes 8)

/-- The QCTL CREATE block of a queue pair (Table ISA-16). -/
def Qp.block (q : Qp) : List Byte :=
  [q.tenant + q.depth.log2 * 2 ^ 12 + q.cls * 2 ^ 16 + q.maxStrands * 2 ^ 32 + q.defWait * 2 ^ 48, q.sqBase, q.cqBase, q.jBase,
    b2n q.priv, 0, 0, 0].flatMap (leBytes 8) ++
  (List.range 16).flatMap (fun i => leBytes 8 (q.handles.getD i 0).toNat)

/-- The image of a program. -/
def Proc.image (p : Proc) : List Byte := p.words.flatMap (fun w => leBytes 16 w.toNat)

/-! ### The twin's changes -/

def State.hear (s : State) (kind n : Nat) : State := { s with phl := { s.phl with told := s.phl.told ++ [(kind, n)] } }

/-- The twin has admitted, changed or released a tenant. -/
def State.followTenant (s : State) (b : List Byte) : State :=
  let a := admitBlock b
  ({ s with tenants := if a.2.1 = Tenant.none_ ∧ a.1 ≠ 0 then Tab.del s.tenants a.1 else Tab.put s.tenants a.1 a.2.1 }).hear 1 a.1

/-- A queue pair that the twin has destroyed goes here too, once no command of it runs. -/
def State.followDestroy (s : State) (n : Nat) : State :=
  if (s.qpCmds n).isEmpty then
    (s.updPe (fun p => { p with qps := Tab.del p.qps n })).updFab (fun f => { f with resident := f.resident.filter (· != 2 * n + 1) })
  else s.updPe (fun p => { p with qps := Tab.upd p.qps n (fun q => { q with life := .destroying }) })

/-- A QCTL of the twin: its operation, the queue pair or program, and its block or image. -/
def State.followQctl (s : State) (sel n : Nat) (b : List Byte) : State :=
  match sel with
  | 0 =>
    let q := QBlock.ofBytes b
    (if Tab.has s.pe.qps n then s
     else s.updPe (fun p => { p with qps := Tab.put p.qps n (mkQp q (((s.regionAt q.journal).map (·.1)).getD 0)) })).hear 2 n
  | 1 => s.followDestroy n
  | 2 => s.updPe (fun p => { p with qps := Tab.upd p.qps n (fun q => { q with handles := handlesOf b }) })
  | 3 => s.updPe (fun p => { p with procs := Tab.put p.procs n { words := wordsOf (b.length / 16) b, retired := false } })
  | _ => s.updPe (fun p => { p with procs := Tab.upd p.procs n (fun q => { q with retired := true }) })

/-- An entry of the twin's plan: its region came in a frame of its own. -/
def followEntry (e : List Byte) (x : State × Plan) : State × Plan :=
  if blkWord e 0 % 2 ^ 8 = 2 then (x.1, x.2.counted e)
  else match x.1.applyEntry x.2 e with
    | (.done s1 _, p) => (s1, p)
    | (_, p) => (x.1, p)

/-- A slice, or an amendment, that the twin has applied (R325, R327). -/
def State.followPlan (s : State) (slice : Bool) (b : List Byte) : State :=
  let es := planEntries b (planCount b)
  if slice then
    let r := es.foldl (fun x e => followEntry e x) (s, Plan.ofSlice b)
    ((r.1.setPlan r.2).setFld F.TIR_PLACE_CTL.PLANNED 1).setFld F.TIR_PLAN_STATUS.VALID 1
  else match s.tir.plan with
    | none => s
    | some p =>
      let r := es.foldl (fun x e => followEntry e x) (s, p)
      r.1.setPlan { r.2 with amend := p.amend + 1, bytes := p.bytes ++ b }

/-- A whole change takes effect. -/
def State.follow (s : State) (l : List Byte) : State :=
  let sel := leNat ((l.drop 1).take 1)
  match leNat (l.take 1) with
  | 0x81 => s.followQctl sel (leNat ((l.drop 2).take 2)) (l.drop 4)
  | 0x82 => s.followTenant (l.drop 4)
  | _ => s.followPlan (sel == 1) (l.drop 4)

/-- A piece of a change of the twin's. -/
def State.takeChange (s : State) (first last : Bool) (data : List Byte) : State :=
  let l := (if first then [] else s.phl.changeIn) ++ data
  if last then ({ s with phl := { s.phl with changeIn := [] } }).follow l else { s with phl := { s.phl with changeIn := l } }

/-! ### All tables, at the start of a resync -/

/-- The slice and the amendments of a plan, one after another. -/
def planParts : Nat → List Byte → List (List Byte)
  | 0, _ => []
  | k + 1, b => if b.isEmpty then [] else b.take (planLen (planCount b)) :: planParts k (b.drop (planLen (planCount b)))

def State.sendPlan (s : State) : State :=
  match s.tir.plan with
  | none => s
  | some p =>
    let l := planParts (p.amend + 1) p.bytes
    (l.drop 1).foldl (fun t b => t.sendChange 0x83 0 0 b) (s.sendChange 0x83 1 0 (l.headD []))

/-- The plan, tenants, regions, programs and queue pairs that both twins hold (R53, R168, R325). -/
def State.sendShared (s : State) : State :=
  let s1 := s.tenants.foldl (fun t e => t.sendChange 0x82 0 0 (e.2.block e.1)) s.sendPlan
  let s2 := s.regions.foldl (fun t e => t.sendHmap e.1) s1
  let s3 := (s.pe.procs.filter (fun e => !e.2.retired)).foldl (fun t e => t.sendChange 0x81 3 e.1 e.2.image) s2
  (s.pe.qps.filter (fun e => decide (16 ≤ e.1))).foldl (fun t e => t.sendChange 0x81 0 e.1 e.2.block) s3

/-- What the source of a resync has not named is gone: regions but this device's privileged ones, tenants, queue pairs (R53). -/
def State.dropUntold (s : State) : State :=
  let told (kind n : Nat) : Bool := s.phl.told.contains (kind, n)
  let s1 := (s.regions.filter (fun e => !told 0 e.1 && !s.ownPriv e.1)).foldl (fun t e => t.removeRegion e.1 e.2) s
  let s2 := { s1 with tenants := s1.tenants.filter (fun e => e.1 == 0 || told 1 e.1) }
  (s.pe.qps.filter (fun e => decide (16 ≤ e.1) && !told 2 e.1)).foldl (fun t e => t.followDestroy e.1) s2

end Sys2Proof.Machine
end

