-- ==== Sys2Proof/Machine/PrivOps.lean ====
section
/-! DEFINITION. The privileged instructions HMAP, QCTL, ADMIT and PLAN (05 R168 to R173). -/

namespace Sys2Proof.Machine

/-! ### Selection and issue -/

/-- The operation imm32 names, of the `n` an instruction defines (R168). -/
def privSel (n : Nat) (i : IWord) : Option Nat := if i.imm32.toNat < n then some i.imm32.toNat else none

/-- The instruction issues if its next instruction's operation satisfies `p`. -/
def State.issueSel (s : State) (k : SlotNo) (op : Nat) (p : IWord → Bool) (body : Iss → State → State) : Res :=
  match (s.strandAt k.toNat).bind (fun st => s.nextWord st) with
  | some (_, i) => if p i then s.issue k op body else .next s
  | none => .next s

/-- The parameter block's access. -/
def Iss.blkAcc (x : Iss) (len : Nat) : Acc := x.secAcc .local_ len rightR false none

/-- The result block's access. -/
def Iss.resAcc (x : Iss) : Acc := x.primAcc .local_ 64 rightW true (some x.cls)

/-- The operation of a privileged instruction: its block at `sec` in region `link`, its result at `prim` in `region`, its
selector in `x`. -/
def Iss.privOp (x : Iss) (s : State) (len : Nat) (result : Bool) : Op :=
  let b := x.blkAcc len
  let o := { x.op s with sec := s.accDpa x.st b, link := x.region b, len := len, x := x.i.imm32.setWidth 64, cls := .d0 }
  if result then { o with region := x.region x.resAcc, prim := s.accDpa x.st x.resAcc } else o

/-- The checks that come before those of Table ISA-5's third row: mode, form, privilege (R168, R112); `mode` is the
instruction's own mode condition. -/
def State.privCheck (s : State) (x : Iss) (mode formOk : Bool) : Option Status :=
  firstSome
    [ failIf (modeRefuses s.mod.mode x.i.opn || mode) ST.mode, failIf (!formOk) ST.fault, failIf (!s.qpPriv x.st.qp) ST.rights ]

/-! ### Completion -/

/-- A breach of form or mode ends the strand, as Table PRG-7 says of ST_MODE and ST_FAULT; these two come before every other check
(R168, R173). -/
def State.privFault (s : State) (c : Nat) (o : Op) (st : Status) : State :=
  match s.slotOf c with
  | some k => (s.removeOp c o.id).faultStrand k st o.opcode o.pc
  | none => s.opDone c o.id (OpDone.err st)

/-- What a privileged instruction comes to when it fails. -/
def State.privFail (s : State) (c : Nat) (o : Op) (st : Status) : State :=
  if st = ST.mode ∨ st = ST.fault then s.privFault c o st else s.opDone c o.id (OpDone.err st)

/-- What an HMAP or QCTL CREATE comes to; `tell` sends the twin the change. -/
def State.conclude (s : State) (c : Nat) (o : Op) (more : Nat) (tell : Nat → State → State) (value : Bool) : Applied → State
  | .fail st => s.privFail c o st
  | .reclaim _ =>
    (s.reclaimSome ((s.ddrUsed + more + 1048575) / 1048576 - (s.usableMib - s.lentMib))).opDone c o.id (OpDone.err ST.busy)
  | .done s1 v =>
    (tell v s1).finishPriv c o.id s1.phl.txNext (OpDone.ok (if value then some (BitVec.ofNat 64 v) else none))

/-! ### HMAP -/

/-- HMAP READ writes the block to the primary address (R169). -/
def State.readHmap (s : State) (c : Nat) (o : Op) (b : HBlock) : State :=
  if b.notBare then s.privFail c o ST.fault
  else match Tab.get s.regions b.region with
    | none => s.opDone c o.id (OpDone.err ST.bounds)
    | some r => s.runWrite c o (.data o.prim (r.block b.region) (OpDone.ok none))

def State.applyHmapOp (s : State) (c : Nat) (o : Op) (b : HBlock) : State :=
  if s.mustFence o.x.toNat b then s
  else match o.x.toNat with
    | 0 => s.conclude c o b.len (fun v t => t.sendHmap v) true (s.createRegion b false)
    | 1 => s.conclude c o b.len (fun _ t => t.sendHmap b.region) false (s.modifyRegion b false)
    | 2 => s.conclude c o 0 (fun _ t => t.sendHmap b.region) false (s.deleteRegion b)
    | _ => s.readHmap c o b

/-! ### QCTL -/

/-- The words of a block from `k` on are zero. -/
def wordsZero (b : List Byte) (k : Nat) : Bool := (b.drop (8 * k)).all (· == 0)

/-- Operations that name a queue pair alone in word 0. -/
def qpOnly (b : List Byte) : Bool := decide (blkWord b 0 < 2 ^ 14)

def State.destroyQp (s : State) (c : Nat) (o : Op) (b : List Byte) : State :=
  let n := blkWord b 0
  if !qpOnly b || !wordsZero b 1 then s.privFail c o ST.fault
  else match Tab.get s.pe.qps n with
    | none => s.opDone c o.id (OpDone.err ST.bounds)
    | some q =>
      ((s.updPe (fun p => { p with qps := Tab.put p.qps n { q with life := .destroying, destroyer := q.destroyer ++ [(c, o.id)] } })).updOp c
        o.id (fun o => { o with phase := .external, prim := n })).reapQp n

def State.setHandles (s : State) (c : Nat) (o : Op) (b : List Byte) : State :=
  let n := blkWord b 0
  let hs := handlesOf b
  if !qpOnly b || !wordsZero (b.take 64) 1 || hs.any handleStray then s.privFail c o ST.fault
  else match Tab.get s.pe.qps n with
    | none => s.opDone c o.id (OpDone.err ST.bounds)
    | some q =>
      if s.handlesBad q.tenant hs then s.opDone c o.id (OpDone.err ST.rights)
      else ((s.updPe (fun p => { p with qps := Tab.put p.qps n { q with handles := hs } })).sendChange 0x81 2 n b).finishPriv c o.id
        s.phl.txNext (OpDone.ok none)

/-- PROC_LOAD: the image is read once it can be, then verified (R130, R131). -/
def State.procLoad (s : State) (c : Nat) (o : Op) (b : List Byte) : State :=
  let p := blkWord b 0
  let dpa := blkWord b 1
  let len := blkWord b 2
  if 2 ^ 12 ≤ p ∨ wordsZero b 3 = false then s.privFail c o ST.fault
  else if len ≤ 65536 ∧ s.srcReady dpa len o.bound = false then s.demandRange dpa len
  else
    let image := if len ≤ 65536 then s.bytes dpa len else List.replicate 65537 0
    let r := s.loadProc p image
    (if r.2 = ST.ok then r.1.sendChange 0x81 3 p image else r.1).finishPriv c o.id s.phl.txNext { st := r.2, val := none, cls := 0 }

def State.procRetire (s : State) (c : Nat) (o : Op) (b : List Byte) : State :=
  let p := blkWord b 0
  if 2 ^ 12 ≤ p ∨ wordsZero b 1 = false then s.privFail c o ST.fault
  else match Tab.get s.pe.procs p with
    | none => s.privFail c o ST.fault
    | some q => ((s.updPe (fun x => { x with procs := Tab.put x.procs p { q with retired := true } })).sendChange 0x81 4 p []).finishPriv
        c o.id s.phl.txNext (OpDone.ok none)

def State.applyQctl (s : State) (c : Nat) (o : Op) (b : List Byte) : State :=
  match o.x.toNat with
  | 0 => s.conclude c o journalLen (fun v t => (t.sendHmap (((Tab.get t.pe.qps v).map (·.jRegion)).getD 65535)).sendChange 0x81 0 v b)
    true (s.createQp (QBlock.ofBytes b))
  | 1 => s.destroyQp c o b
  | 2 => s.setHandles c o b
  | 3 => s.procLoad c o b
  | _ => s.procRetire c o b

/-! ### ADMIT and PLAN -/

def State.applyAdmit (s : State) (c : Nat) (o : Op) (b : List Byte) : State :=
  let a := admitBlock b
  if a.1 ≠ 0 ∧ s.planMissing then s.privFail c o ST.mode
  else if a.2.2 then s.privFail c o ST.fault
  else match s.admitOr a.1 a.2.1 with
    | .fail st => s.privFail c o st
    | .reclaim m => (s.admitRefused a.1 a.2.1 m).opDone c o.id { st := ST.busy, val := some (BitVec.ofNat 64 m), cls := 0 }
    | .done s1 _ => (s1.sendChange 0x82 0 0 b).finishPriv c o.id s1.phl.txNext (OpDone.ok none)

/-- The amendment's form (R168): a COUNT of 1 to 1,024, zeros in bytes 14 to 63, and entries without a reserved field. -/
def planForm (b : List Byte) : Bool :=
  decide (1 ≤ planCount b) && decide (planCount b ≤ 1024) && ((b.drop 14).take 50).all (· == 0) &&
  (planEntries b (planCount b)).all (fun e => !entryStray e)

def State.applyAmend (s : State) (c : Nat) (o : Op) (b : List Byte) : State :=
  if planForm b = false ∨ b.length ≠ planLen (planCount b) then s.privFail c o ST.fault
  else if (planRegions b (planCount b)).any (fun e => e.2 != 0 && s.regionBusy e.1) then s
  else
    let r := s.amend b
    r.1.finishPriv c o.id s.phl.txNext r.2

/-! ### Progress -/

/-- The command's ACCEPTED entry has committed: what its strand does may become visible (R74). -/
def State.acceptedCmd (s : State) (c : Nat) : Bool := ((s.cmdOf c).map (·.accepted)).getD false

/-- A privileged instruction reads its block and takes its effect, in one step, once it can; never before its command's ACCEPTED
entry has committed (R74). -/
def State.advPriv (s : State) (c : Nat) (o : Op) (far : Option (List Byte)) : State :=
  if o.phase != .source || !s.acceptedCmd c then s
  else if o.opcode = 0x83 ∧ o.x = 1 then s.runWrite c o (.data o.prim s.planQuery (OpDone.ok none))
  else match s.readSrc c o o.link o.sec o.len far with
    | .wait => s.demandRange o.sec o.len
    | .twin => s.askTwin c o o.sec o.len
    | .fail st => s.opDone c o.id (OpDone.err st)
    | .bytes l clean =>
      if clean < o.len then s.opDone c o.id (OpDone.err ST.poison)
      else match o.opcode with
        | 0x80 => s.applyHmapOp c o (HBlock.ofBytes l)
        | 0x81 => s.applyQctl c o l
        | 0x82 => s.applyAdmit c o l
        | _ => s.applyAmend c o l

/-- The twin holds the change of a privileged instruction (R65, R168). -/
def State.privHeld (s : State) (c : Nat) (o : Op) : State :=
  match o.done with
  | some d => if s.twinHolds (some o.sec) then s.opDone c o.id d else s
  | none => s

/-- A privileged instruction issues. -/
def State.startPriv (s : State) (x : Iss) (mode formOk : Bool) (len : Nat) (accs : List Acc) (result : Bool) : State :=
  match s.privCheck x mode formOk with
  | some st => s.failIssue x st
  | none => s.begin_ x accs true (accs.all (fun a => a.rights != rightR || a.off % 64 == 0)) (x.privOp s len result) (fun s c o => s.advPriv c o none)

def State.planned (s : State) : Bool := s.on F.TIR_PLACE_CTL.PLANNED

/-- HMAP CREATE; it also answers an imm32 that names no HMAP operation (R168). -/
def execHmapCreate (k : SlotNo) (s : State) : Res :=
  s.issueSel k 0x80 (fun i => privSel 4 i == some 0 || privSel 4 i == none)
    (fun x s => s.startPriv x (privSel 4 x.i == some 0 && s.planned) (privSel 4 x.i).isSome 64 [x.blkAcc 64] false)

def execHmapModify (k : SlotNo) (s : State) : Res :=
  s.issueSel k 0x80 (fun i => privSel 4 i == some 1) (fun x s => s.startPriv x false true 64 [x.blkAcc 64] false)

def execHmapDelete (k : SlotNo) (s : State) : Res :=
  s.issueSel k 0x80 (fun i => privSel 4 i == some 2) (fun x s => s.startPriv x s.planned true 64 [x.blkAcc 64] false)

def execHmapRead (k : SlotNo) (s : State) : Res :=
  s.issueSel k 0x80 (fun i => privSel 4 i == some 3) (fun x s => s.startPriv x false true 64 [x.resAcc, x.blkAcc 64] true)

/-- QCTL CREATE; it also answers an imm32 that names no QCTL operation (R168). -/
def execQctlCreate (k : SlotNo) (s : State) : Res :=
  s.issueSel k 0x81 (fun i => privSel 5 i == some 0 || privSel 5 i == none)
    (fun x s => s.startPriv x false (privSel 5 x.i).isSome 192 [x.blkAcc 192] false)

def execDestroy (k : SlotNo) (s : State) : Res :=
  s.issueSel k 0x81 (fun i => privSel 5 i == some 1) (fun x s => s.startPriv x false true 192 [x.blkAcc 192] false)

def execHandles (k : SlotNo) (s : State) : Res :=
  s.issueSel k 0x81 (fun i => privSel 5 i == some 2) (fun x s => s.startPriv x false true 192 [x.blkAcc 192] false)

def execProcLoad (k : SlotNo) (s : State) : Res :=
  s.issueSel k 0x81 (fun i => privSel 5 i == some 3) (fun x s => s.startPriv x false true 192 [x.blkAcc 192] false)

def execProcRetire (k : SlotNo) (s : State) : Res :=
  s.issueSel k 0x81 (fun i => privSel 5 i == some 4) (fun x s => s.startPriv x false true 192 [x.blkAcc 192] false)

def execAdmit (k : SlotNo) (s : State) : Res :=
  s.issue k 0x82 (fun x s => s.startPriv x s.planned (privSel 1 x.i).isSome 64 [x.blkAcc 64] false)

/-- Length of an amendment as its header stands at issue. -/
def State.amendLen (s : State) (x : Iss) : Nat :=
  let n := planCount (s.bytes (s.accDpa x.st (x.blkAcc 64)) 64)
  if 1 ≤ n ∧ n ≤ 1024 then planLen n else 64

/-- PLAN AMEND; it also answers an imm32 that names no PLAN operation (R168). -/
def execPlanAmend (k : SlotNo) (s : State) : Res :=
  s.issueSel k 0x83 (fun i => privSel 2 i == some 0 || privSel 2 i == none)
    (fun x s => s.startPriv x (privSel 2 x.i == some 0 && !s.planned) (privSel 2 x.i).isSome (s.amendLen x) [x.blkAcc (s.amendLen x)]
      false)

def execPlanQuery (k : SlotNo) (s : State) : Res :=
  s.issueSel k 0x83 (fun i => privSel 2 i == some 1) (fun x s => s.startPriv x false true 64 [x.resAcc] true)

end Sys2Proof.Machine
end

