-- ==== Sys2Proof/Machine/Queue.lean ====
section
/-! DEFINITION. Queue pairs and commands (04 R107 to R124, R133 to R135; 02 R74, R76; 17 R482): doorbells, fetching,
starting, the journal, completion entries, the wait limit, and the completion of instructions. -/

namespace Sys2Proof.Machine

def State.updQp (s : State) (q : Nat) (f : Qp → Qp) : State := s.updPe (fun p => { p with qps := Tab.upd p.qps q f })

/-! ### Doorbells -/

/-- A doorbell write for a queue pair of another tenant is dropped (R114). -/
def State.foreignDoorbell (s : State) (q : Nat) : State :=
  let s1 := (s.bump F.PE_CNT3.FETCH_REJECTS).flag F.PE_ERR.DB_FOREIGN
  if s1.firstInSecond 30 then (s1.mark 30).record sevNotice .pe 2 0 q F.PE_ERR.DB_FOREIGN.addr else s1

def State.rangeDoorbell (s : State) : State := s.flag F.PE_ERR.DB_RANGE

/-- A queue pair's SQ_TAIL. -/
def State.ringSq (s : State) (n : Nat) (q : Qp) (v : Nat) : State :=
  if q.depth ≤ v then s.rangeDoorbell else s.updQp n (fun q => { q with sqTail := v })

/-- Entries from the consumer's head to `v`, in ring order. -/
def ringGap (depth head v : Nat) : Nat := (v + depth - head) % depth

/-- A queue pair's CQ_HEAD: it may not move past the device's CQ tail (R114). -/
def State.ringCq (s : State) (n : Nat) (q : Qp) (v : Nat) : State :=
  if q.depth ≤ v ∨ q.posted.length < ringGap q.depth q.cqHead v then s.rangeDoorbell
  else s.updQp n (fun x => { x with cqHead := v, posted := x.posted.drop (ringGap q.depth q.cqHead v) })

/-- A BAR2 doorbell of an LD: queue pairs 0 to 15 are never live there (R114). -/
def State.doorbell (s : State) (p : Port) (ld n : Nat) (f : State → Qp → State) : State :=
  match Tab.get s.pe.qps n with
  | none => s.foreignDoorbell n
  | some q => if n < 16 ∨ q.tenant ≠ s.ldTenant p ld then s.foreignDoorbell n else f s q

/-- A read of a BAR2 doorbell gives `f` of the queue pair, the SQ head or the CQ tail (R113); queue pairs 0 to 15 and those that
are not there read zero (R114). -/
def State.readDoorbell (s : State) (p : Port) (n : Nat) (f : Qp → Nat) : State :=
  s.emit (.doorbell p (match Tab.get s.pe.qps n with
    | some q => if n < 16 then 0 else BitVec.ofNat 64 (f q)
    | none => 0))

/-- An access to BAR2: a write of `v`, or a read. -/
def State.bar2 (s : State) (p : Port) (ld : BitVec 4) (n : Nat) (value : Option (BitVec 64)) (write : Nat → State → Qp → State)
    (read : Qp → Nat) : Res :=
  when_ (s.portUp p && s.ldEnabled p ld.toNat && s.running .pe) s
    (match value with
     | some v => s.doorbell p ld.toNat n (write v.toNat)
     | none => s.readDoorbell p n read)

def execSqTail (p : Port) (ld : BitVec 4) (qp : BitVec 14) (value : Option (BitVec 64)) (s : State) : Res :=
  s.bar2 p ld qp.toNat value (fun v s q => s.ringSq qp.toNat q v) (fun q => q.sqHead)

def execCqHead (p : Port) (ld : BitVec 4) (qp : BitVec 14) (value : Option (BitVec 64)) (s : State) : Res :=
  s.bar2 p ld qp.toNat value (fun v s q => s.ringCq qp.toNat q v) (fun q => q.cqTail)

/-- PE_PQ_DBn holds the value written and rings both doorbells of privileged queue `n` (R112). -/
def State.pqDoorbell (s : State) (n : Nat) (v : Nat) : State :=
  let tail := v % 2 ^ 12
  let head := v / 2 ^ 16 % 2 ^ 12
  let s1 := (s.setFld (F.PE_PQ_DB.SQ_TAIL n) tail).setFld (F.PE_PQ_DB.CQ_HEAD n) head
  match Tab.get s1.pe.qps n with
  | none => s1
  | some q =>
    let s2 := s1.ringSq n q tail
    match Tab.get s2.pe.qps n with
    | some q => s2.ringCq n q head
    | none => s2

/-! ### The journal (Table REC-5) -/

/-- The class field of an entry: the lowest class of the units that committed; 0b11 when none did. -/
def Cmd.clsCode (c : Cmd) : Nat := ((lowestClass (c.hist.map (·.settle))).map (·.code)).getD 3

def Cmd.noUnits (c : Cmd) : Bool := (lowestClass (c.hist.map (·.settle))).isNone

/-- An entry as it is written in state `st`. -/
def Cmd.journalBytes (c : Cmd) (st : JState) : List Byte :=
  let final := st == .durable || st == .failed || st == .done
  let b := leBytes 8 c.fseq ++ leBytes 1 (st.code + (if final then c.clsCode * 8 + (if c.noUnits then 32 else 0) else 0)) ++
    leBytes 1 (if final then c.status.toNat else 0) ++ leBytes 2 c.tag ++ leBytes 2 c.sqIndex ++
    leBytes 2 (if c.inline then 0 else c.proc) ++ leBytes 8 c.cookie ++ leBytes 8 (if final then c.result.toNat else 0) ++
    leBytes 8 c.tAccept ++ leBytes 8 (if final then c.tEnd else 0) ++ leBytes 4 (min c.steps (2 ^ 21 - 1)) ++
    leBytes 1 c.faultOp ++ leBytes 2 c.faultPc ++ leBytes 5 0
  b ++ leBytes 4 (crc32c b).toNat

/-- The command's entry is rewritten whole, as one D2 unit (R482). -/
def State.journal (s : State) (n : Nat) (st : JState) : State :=
  match s.cmdOf n with
  | none => s
  | some c =>
    let s1 := s.updCmd n (fun c => { c with state := st })
    match Tab.get s1.pe.qps c.qp with
    | none => s1
    | some q =>
      match Tab.get s1.regions q.jRegion with
      | none => s1
      | some r =>
        let dpa := q.jBase + 64 * ((c.fseq + 4095) % 4096)
        s1.admitUnit (mkUnit s1.pst.nextUnit q.jRegion r dpa 64 (cellsAt dpa (c.journalBytes st)) .d2 (.journal n st.code) (!s1.isHome r))

/-! ### Fetching -/

/-- The four conditions of R116, and an entry that waits. -/
def State.fetchable (s : State) (n : Nat) (q : Qp) : Bool :=
  q.life == .active && q.sqHead != q.sqTail && s.mayFetch n q

/-- Queue pairs with entries that may be fetched are served by class, then in turn (R116). -/
def State.fetchTurn (s : State) (n : Nat) (q : Qp) : Bool :=
  !s.pe.qps.any (fun e => e.1 != n && s.fetchable e.1 e.2 &&
    (decide (e.2.cls < q.cls) || (e.2.cls == q.cls && decide (e.2.turn < q.turn))))

/-- A queue entry (Table PRG-2). -/
structure QEntry where
  kind : Nat
  ninstr : Nat
  onYield : Bool
  barrier : Bool
  tag : Nat
  proc : Nat
  waitLimit : Nat
  cookie : Nat
  words : List (BitVec 128)
  args : List Word
  stray : Bool

def QEntry.ofBytes (b : List Byte) : QEntry :=
  let w := blkWord b 0
  let kind := w % 2 ^ 8
  let n := w / 2 ^ 8 % 4
  let call := kind == 2
  { kind := kind, ninstr := n, onYield := w / 2 ^ 10 % 2 == 1, barrier := w / 2 ^ 11 % 2 == 1, tag := w / 2 ^ 16 % 2 ^ 16,
    proc := w / 2 ^ 32 % 2 ^ 12, waitLimit := w / 2 ^ 48, cookie := blkWord b 1,
    words := if call then [] else wordsOf n (b.drop 16),
    args := if call then (List.range 4).map (fun i => BitVec.ofNat 64 (blkWord b (2 + i))) else [],
    stray := w / 2 ^ 12 % 16 != 0 || w / 2 ^ 44 % 16 != 0 || (call && (n != 0 || blkWord b 6 != 0 || blkWord b 7 != 0)) ||
      (kind == 1 && (n == 0 || w / 2 ^ 32 % 2 ^ 12 != 0)) }

/-- A program with a privileged opcode of its own. -/
def usesPriv (ws : List (BitVec 128)) : Bool := ws.any (fun w => isPrivOp (IWord.ofBits w).opn)

/-- The fetch checks of Table PRG-3. -/
def State.fetchCheck (s : State) (q : Qp) (e : QEntry) : Option Status :=
  let call := e.kind == 2
  firstSome
    [ failIf ((e.kind != 1 && e.kind != 2) || e.stray) ST.fault,
      failIf (!call && (match s.firstRule none true e.words with
        | some _ => true
        | none => false)) ST.fault,
      failIf (call && !Tab.has s.pe.procs e.proc) ST.fault,
      failIf (call && ((Tab.get s.pe.procs e.proc).map (·.retired)).getD false) ST.busy,
      failIf (!q.priv && usesPriv (if call then s.progWords (.proc e.proc) else e.words)) ST.rights,
      failIf (!s.admitsCommands) ST.mode ]

/-- The command of an entry. -/
def mkCmd (n : Nat) (q : Qp) (e : QEntry) (time : Nat) (rej : Option Status) : Cmd :=
  let bad := rej.isSome
  { qp := n, fseq := if bad then 0 else q.fseq + 1, sqIndex := q.sqHead, sqHead := (q.sqHead + 1) % q.depth, tag := e.tag,
    cookie := e.cookie, inline := e.kind == 1, proc := e.proc, words := e.words, args := e.args, onYield := e.onYield,
    barrier := e.barrier, waitLimit := if e.waitLimit = 0 then q.defWait else e.waitLimit, rejected := bad, state := .free,
    accepted := false, started := bad, ended := bad, closing := bad, closed := bad, status := rej.getD 0, faulted := false, hist := [],
    ops := [], nextOp := 0, lastStatus := 0, result := 0, steps := 0, faultOp := 0, faultPc := 0, tAccept := time, tEnd := 0 }

/-- A D0 write of the range has not yet become visible: the fetch waits for it (R43). -/
def State.d0Pending (s : State) (lo n : Nat) : Bool :=
  s.pst.units.any (fun u => !u.committed && u.cls == .d0 && u.overlaps lo n)

/-- The entry is fetched and checked, and its ACCEPTED entry written (R116, R119). -/
def State.fetchEntry (s : State) (n : Nat) (q : Qp) : State :=
  let e := QEntry.ofBytes (s.bytes (q.sqBase + 64 * q.sqHead) 64)
  let rej := s.fetchCheck q e
  let id := s.pe.nextCmd
  let c := mkCmd n q e s.time rej
  let q' := { q with sqHead := (q.sqHead + 1) % q.depth, turn := s.pe.fetches + 1, fseq := if rej.isSome then q.fseq else q.fseq + 1 }
  let s1 := s.updPe (fun p => { p with
    cmds := Tab.put p.cmds id c, nextCmd := id + 1, fetches := p.fetches + 1, qps := Tab.put p.qps n q' })
  let s2 := (s1.bringContext (2 * n + 1)).getD s1
  if rej.isSome then s2.bump F.PE_CNT3.FETCH_REJECTS else s2.journal id .accepted

/-- The mode lets PE fetch at all (Table MOD-3). -/
def State.fetches (s : State) : Bool :=
  s.running .pe && s.on F.PE_CTL.ENABLE && !s.pe.stopped && s.mod.mode != .cold && s.mod.mode != .save

def execCommandFetch (qp : BitVec 14) (s : State) : Res :=
  match Tab.get s.pe.qps qp.toNat with
  | none => .next s
  | some q =>
    when_ (s.fetches && s.fetchable qp.toNat q && s.fetchTurn qp.toNat q && !s.d0Pending (q.sqBase + 64 * q.sqHead) 64) s
      (s.fetchEntry qp.toNat q)

/-! ### Starting -/

/-- Commands of a queue pair start in SQ order; a BARRIER waits for every earlier one (R120). -/
def State.mayStart (s : State) (n : Nat) (c : Cmd) : Bool :=
  !((s.qpCmds c.qp).any (fun e => decide (e.1 < n) && (!e.2.started || (c.barrier && !e.2.closed))))

/-- The strand a command starts with (R118). -/
def State.newStrand (s : State) (n : Nat) (c : Cmd) (q : Qp) : Strand :=
  { cmd := n, qp := c.qp,
    frames := [{ prog := if c.inline then .inline c.words else .proc c.proc, pc := 0, counters := [] }],
    s := (List.range 32).map (fun i => if 1 ≤ i ∧ i ≤ 4 then c.args.getD (i - 1) 0 else 0), h := q.handles, loanH := [],
    k := List.replicate 8 none, scratch := [], stageWait := false, aged := false, turn := s.pe.issues, spilled := false,
    delaying := false }

/-- The strand takes a slot, and EXECUTING is written (R108, R120). A program without instructions ends at once. -/
def State.startStrand (s : State) (n k : Nat) (c : Cmd) (q : Qp) : State :=
  let s1 := (s.updPe (fun p => { p with strands := Tab.put p.strands k (s.newStrand n c q) })).updCmd n
    (fun c => { c with started := true })
  (s1.journal n .executing).goto k 0

def execStrandStart (cmd : BitVec 32) (s : State) : Res :=
  let n := cmd.toNat
  match s.cmdOf n with
  | none => .next s
  | some c =>
    match Tab.get s.pe.qps c.qp with
    | none => .next s
    | some q =>
      match s.placeSlot q.priv with
      | none => .next s
      | some k =>
        when_ (s.running .pe && !s.pe.stopped && !c.started && s.mayStart n c && s.qpSlot q) s
          (s.startStrand n k c q)

/-! ### Ending -/

/-- The command's status (R127). -/
def Cmd.finalStatus (c : Cmd) : Status :=
  if c.faulted then c.status
  else match programFailure (c.hist.filter (fun h => !h.reported)) with
    | some st => st
    | none => reportedStatus c.lastStatus

/-- FAILED: a terminating fault, or a unit that failed (Table DUR-7). -/
def Cmd.failed (c : Cmd) : Bool := c.faulted || (firstFailure (c.hist.map (·.settle))).isSome

/-- The strand has ended, nothing of it is outstanding and every unit has settled (R121). -/
def Cmd.settled (c : Cmd) : Bool :=
  c.ended && c.ops.isEmpty && !c.hist.any (fun h => h.settle == .pending)

def State.closeCmd (s : State) (n : Nat) (c : Cmd) : State :=
  let st := c.finalStatus
  let s1 := s.updCmd n (fun c => { c with status := st, closing := true, tEnd := s.time })
  if c.failed then (s1.bump F.PE_CNT2.FAILED).journal n .failed else s1.journal n .durable

def execCommandDurable (cmd : BitVec 32) (s : State) : Res :=
  match s.cmdOf cmd.toNat with
  | none => .next s
  | some c =>
    when_ (s.running .pe && s.mod.mode != .save && c.settled && c.accepted && !c.closing) s (s.closeCmd cmd.toNat c)

/-- The completion entry (Table PRG-6). -/
def Cmd.entry (c : Cmd) (phase : Bool) : List Byte :=
  let rej := c.rejected
  let f := if rej then 0 else c.fseq - 1
  leBytes 8 (c.tag + (if phase then 2 ^ 16 else 0) + c.clsCode * 2 ^ 17 + (if c.noUnits then 2 ^ 19 else 0) +
    (if rej then 2 ^ 20 else 0) + c.status.toNat * 2 ^ 24 + c.qp * 2 ^ 32 + c.sqHead * 2 ^ 48) ++
  leBytes 8 c.cookie ++ leBytes 8 (if rej then 0 else c.result.toNat) ++
  leBytes 8 (c.steps % 2 ^ 21 + f / 2 ^ 12 % 2 ^ 11 * 2 ^ 21 + f % 2 ^ 12 * 2 ^ 32 + c.faultOp % 2 ^ 8 * 2 ^ 44 + c.faultPc % 2 ^ 12 * 2 ^ 52)

/-- The entry is written to the CQ ring in one write (R123). -/
def State.writeEntry (s : State) (n : Nat) (c : Cmd) (q : Qp) : State :=
  let dpa := q.cqBase + 32 * q.cqTail
  match s.regionAt dpa with
  | none => s
  | some (m, r) => s.admitOwn (mkUnit s.pst.nextUnit m r dpa 32 (cellsAt dpa (c.entry q.phase)) .d0 (.completion n) (!s.isHome r))

/-- The entry is posted, and DONE written after a DURABLE one (R121). -/
def State.post (s : State) (n : Nat) (c : Cmd) (q : Qp) : State :=
  let s1 := (s.writeEntry n c q).bump F.PE_CNT2.COMMANDS
  let wrap := q.cqTail + 1 = q.depth
  let s2 := s1.updQp c.qp (fun q => { q with
    cqTail := if wrap then 0 else q.cqTail + 1, phase := if wrap then !q.phase else q.phase, posted := q.posted ++ [c.fseq] })
  let s3 := if c.state = .durable then s2.journal n .done else s2
  (s3.updPe (fun p => { p with cmds := Tab.del p.cmds n })).reapQp c.qp

def execCompletionPost (cmd : BitVec 32) (s : State) : Res :=
  match s.cmdOf cmd.toNat with
  | none => .next s
  | some c =>
    match Tab.get s.pe.qps c.qp with
    | none => .next s
    | some q => when_ (s.running .pe && s.mod.mode != .save && c.closed) s (s.post cmd.toNat c q)

/-! ### The wait limit (R133 to R135) -/

/-- A source of the operation has still to be restored. -/
def State.sourceUnrestored (s : State) (o : Op) : Bool := o.sources.any (fun e => s.awaitsRestore e.1 e.2)

/-- A tier fetch (R133): a source being promoted, not yet restored, or in loaned memory. -/
def State.tierFetch (s : State) (o : Op) : Bool :=
  o.sources.any (fun e => s.promoting e.1 e.2 && !o.far) || s.sourceUnrestored o ||
  (o.opcode == 0x51 && o.len % 2 ^ 20 != 0 && o.phase == .external)

/-- Far access: the data is read where it lies; a page not yet restored completes its fetch with ST_RESTORING (R134). -/
def State.slowPath (s : State) (c : Nat) (ops : List Op) : State :=
  (ops.foldl (fun s o =>
    if s.sourceUnrestored o then s.opDone c o.id (OpDone.err ST.restoring)
    else s.updOp c o.id (fun o => { o with far := true })) s).bump F.PE_CNT0.SLOW_PATHS

/-- Pieces of an operation still waiting for ceiling headroom (R135). -/
def State.ceilingWaits (s : State) (o : Op) : List CUnit :=
  s.pst.units.filter (fun u => o.units.contains u.id && !u.charged && !u.committed && !u.free)

/-- Those pieces are never admitted; the instruction completes with ST_CEILING. -/
def State.giveUp (s : State) (o : Op) : State :=
  let us := s.ceilingWaits o
  if us.isEmpty then s else s.failAll us ST.ceiling

def State.waitLimit (s : State) (k : Nat) (st : Strand) (c : Cmd) : State :=
  let fetches := c.ops.filter (fun o => s.tierFetch o)
  let s1 := c.ops.foldl (fun s o => s.giveUp o) s
  if fetches.isEmpty then s1
  else
    let s2 := s1.bump F.PE_CNT0.STAGE_TIMEOUTS
    if c.onYield && !s2.spillFull then s2.spill k false
    else if c.onYield then (s2.slowPath st.cmd fetches).flag F.PE_ERR.SPILL_FULL
    else s2.slowPath st.cmd fetches

/-- R133: the wait limit of a strand's stage wait, or of a write that waits for headroom, has passed. -/
def execWaitLimitExpiry (k : SlotNo) (s : State) : Res :=
  match s.strandAt k.toNat with
  | none => .next s
  | some st =>
    match s.cmdOf st.cmd with
    | none => .next s
    | some c =>
      when_ (s.running .pe && c.waitLimit != 0 && (st.stageWait || c.ops.any (fun o => !(s.ceilingWaits o).isEmpty))) s
        (s.waitLimit k.toNat st c)

/-! ### Completion of instructions (R145) -/

/-- An operation in its source phase goes as far as it can; `far` are bytes it asked the twin for. -/
def State.advance (s : State) (c : Nat) (o : Op) (far : Option (List Byte)) : State :=
  match o.opcode with
  | 0x20 => s.advLd c o far
  | 0x21 => s.advSt c o
  | 0x22 => s.advCpy c o far
  | 0x23 => s.advFil c o
  | 0x24 => s.advZro c o
  | 0x25 => s.advCmpm c o far
  | 0x28 => s.advAtomic c o (.add o.x)
  | 0x29 => s.advAtomic c o (.cas o.x o.y)
  | 0x38 => s.advApp c o far
  | 0x39 => s.advSeal c o
  | 0x3A => s.advVrfy c o
  | 0x41 => s.advCipher c o far
  | 0x42 => s.advCipher c o far
  | 0x43 => s.advDigest c o far
  | 0x44 => s.advDigest c o far
  | 0x50 => s.advPut c o far
  | 0x51 => s.advGet c o far
  | 0x52 => s.advSmall c o
  | 0x53 => s.advSmall c o
  | 0x54 => s.advSmall c o
  | 0x64 => s.advUnlock true c o
  | 0x70 => s.advCln c o
  | 0x71 => s.advInv c o
  | 0x72 => s.advCli c o
  | 0x73 => s.advZln c o
  | 0x75 => s.advUnlock false c o
  | 0x80 => s.advPriv c o far
  | 0x81 => s.advPriv c o far
  | 0x82 => s.advPriv c o far
  | 0x83 => s.advPriv c o far
  | _ => s

/-- An operation waits outside: for the twin's bytes, for what a GET brings, or for the twin to hold a change. -/
def State.advanceExternal (s : State) (c : Nat) (o : Op) (far : List Byte) : State :=
  if o.opcode = 0x51 then s.advGet c o (some far)
  else if 0x80 ≤ o.opcode ∧ o.done.isSome then s.privHeld c o
  else if o.opcode = 0x81 ∧ o.x = 1 then s.reapQp o.prim
  else if far.isEmpty then s
  else s.advance c { o with phase := .source } (some far)

/-- What an operation completes with now. -/
def State.outcomeOf (s : State) (c : Nat) (o : Op) : Option OpDone :=
  match s.cmdOf c with
  | none => none
  | some cm =>
    if o.phase == .ready then o.outcome cm
    else if o.opcode = 0x30 ∨ o.opcode = 0x31 then o.fenceOutcome cm
    else if o.opcode = 0x32 then s.mirwOutcome o
    else o.outcome cm

/-- What a completing instruction does beside writing d and s31. -/
def State.onComplete (s : State) (c : Nat) (o : Op) (d : OpDone) : State :=
  if o.opcode = 0x40 ∧ d.st = 0 then s.setKeySlot c o
  else if o.opcode = 0x65 ∧ d.st = 0 then s.setLoanHandle c o
  else if (o.opcode = 0x30 ∨ o.opcode = 0x31) ∧ d.st ≠ 0 then s.fenceReported c o
  else s

/-- The operation progresses by one event and, when it can, completes. -/
def State.progress (s : State) (c op : Nat) (far : List Byte) : State :=
  match s.opOf c op with
  | none => s
  | some o =>
    let s1 := match o.phase with
      | .source => s.advance c o none
      | .external => s.advanceExternal c o far
      | _ => s
    match s1.opOf c op with
    | none => s1
    | some o1 =>
      match s1.outcomeOf c o1 with
      | some d => (s1.onComplete c o1 d).completeOp c o1 d
      | none => s1

def execInstructionCompletion (cmd op : BitVec 32) (far : List Byte) (s : State) : Res :=
  when_ (s.running .pe && !s.mod.frozen) s (s.progress cmd.toNat op.toNat far)

/-! ### Atomic extents that wait (R64) -/

/-- R64: an extent that waits opens: its strand proceeds, or its session is granted credit at the next round. Strand
extents and fabric extents are served in order of arrival among those that fit. -/
def execExtentReservation (extent : Nat) (s : State) : Res :=
  match Tab.get s.pst.extents extent with
  | none => .next s
  | some e =>
    when_ (s.running .pst && !e.opened && s.extentFits e) s
      (match e.door with
       | .strand c op => s.openStrandExtent extent c op e
       | _ => { s with pst := { s.pst with extents := Tab.put s.pst.extents extent { e with opened := true } } })

end Sys2Proof.Machine
end

