-- ==== Sys2Proof/Machine/Durability.lean ====
section
/-! DEFINITION. Crossings, commit and placement (01_architecture R16 to R21, 02_durability_contract). -/

namespace Sys2Proof.Machine

/-- The island that takes the items modelled on a crossing: REC takes records, PST write data. -/
def XItem.receiver : XItem → Island
  | .record _ => .contrail
  | .write _ => .pst

/-- Write data has crossed: the unit stands in the ingress buffer (R17, R44); D0 data is visible at once (R43). -/
def State.unitWritten (s : State) (id : Nat) : State :=
  (s.updUnit id (fun u => { u with written := true })).pumpMirror.landD0 id

/-- A port whose last write has reached PST after ENABLE was cleared takes its link down (R103). -/
def State.finishClosing (s : State) (p : Port) : State :=
  if (s.port p).closing && !s.portCrossing p then s.linkOff p else s

/-- R17, R38: an item of crossing `x` resent once is counted; one whose resent copy fails too is recorded by its receiver. -/
def State.xerr (s : State) (x : Nat) (receiver : Island) : Parity → State
  | .good => s
  | .resentGood => s.bump F.GEN_XERR.RETRIED
  | .resentBad =>
    let s1 := (s.bump F.GEN_XERR.RETRIED).bump F.GEN_XERR.FAILED
    (s1.setFld F.GEN_XERR.LAST_XING x).record sevError receiver 3 32 x Addr.GEN_XERR

def State.deliver (s : State) (item : XItem) : State :=
  match item with
  | .record r => s.takeIn r
  | .write id => s.unitWritten id

/-- The operation an undeliverable item belongs to fails. A record belongs to none. -/
def State.undelivered (s : State) (item : XItem) : State :=
  match item with
  | .record _ => s
  | .write id => (match s.pst.units.find? (fun u => u.id == id) with
      | some u => s.failUnit u ST.internal
      | none => s)

/-! Exchanges that one command makes whole leave nothing standing in a crossing: the row that names such a crossing while its queue
is empty brings the parity event alone (DESIGN CHOICE, notes/assumptions/82.md). -/

/-- Operations whose instructions use a crossing, while they are outstanding (Table ARC-2). -/
def usesXing (x : Nat) (o : Op) : Bool :=
  o.phase != .ready && (match x with
  | 12 => o.opcode == 0x30 || o.opcode == 0x31
  | 13 => o.opcode == 0x20 || o.opcode == 0x22 || o.opcode == 0x25
  | 14 => o.opcode == 0x3A || (decide (0x40 ≤ o.opcode) && decide (o.opcode ≤ 0x44))
  | 15 => decide (0x50 ≤ o.opcode) && decide (o.opcode ≤ 0x54) && o.link != ringLink
  | 16 => decide (0x61 ≤ o.opcode) && decide (o.opcode ≤ 0x75)
  | 30 => decide (0x50 ≤ o.opcode) && decide (o.opcode ≤ 0x54) && o.link == ringLink
  | 31 => o.opcode == 0x65
  | _ => false)

/-- The oldest such operation completes with ST_INTERNAL. -/
def State.failXingOp (s : State) (x : Nat) : State :=
  match s.pe.cmds.findSome? (fun e => (e.2.ops.find? (usesXing x)).map (fun o => (e.1, o.id))) with
  | some (c, op) => s.opDone c op (OpDone.err ST.internal)
  | none => s

/-- The oldest waiting read of a kind is taken out of the list. -/
def State.failRead (s : State) (p : Reader → Bool) (f : State → ReadReq → State) : State :=
  match s.hst.reads.find? (fun q => p q.reader) with
  | some q => f { s with hst := { s.hst with reads := s.hst.reads.filter (fun r => r.reader != q.reader) } } q
  | none => s

/-- A read whose item failed twice: the host and the twin get poison, a GET fails (R17). -/
def State.spoilRead (s : State) (q : ReadReq) : State :=
  match q.reader with
  | .cxl p ld tag => (s.poisonRead true).emit (.cxlData p ld tag (List.replicate 64 0) true (s.devLoad p ld))
  | .get n msg => (s.finishRx n (refusal msg ST.internal) none).turns n
  | .twin msn => (s.poisonRead true).emit (.twinData msn (List.replicate q.len 0) true)

def Reader.isCxl : Reader → Bool
  | .cxl _ _ _ => true
  | _ => false

def Reader.isGet : Reader → Bool
  | .get _ _ => true
  | _ => false

def Reader.isTwin : Reader → Bool
  | .twin _ => true
  | _ => false

/-- A unit fails with ST_INTERNAL, where there is one. -/
def State.failSome (s : State) (u : Option CUnit) : State :=
  match u with
  | some u => s.failUnit u ST.internal
  | none => s

/-- The oldest move with an owner ends, its operation with ST_INTERNAL; what it had locked and promoted stays. -/
def State.failMove (s : State) : State :=
  match s.tir.moves.findSome? (fun m => m.owner.map (fun o => (m.id, o))) with
  | some (id, c, op) => (s.updTir (fun t => { t with moves := t.moves.filter (fun x => x.id != id) })).opDone c op (OpDone.err ST.internal)
  | none => s

/-- What a request of CTL that fails answers. -/
def CtlReq.failure : CtlReq → Out
  | .read p _ _ | .write p _ _ _ => .regValue p (BitVec.allOnes 64)
  | .mctpRead _ _ | .mctpWrite _ _ => .mctp ST.internal []
  | .drain p _ | .halt p | .resume p _ | .service p | .serve p | .fwHandover p _ | .mcodeSwap p _ | .chOut p _ | .chIn p _ _ | .retrain p _ _
  | .nandRetire p _ _ | .pathOut p _ | .pathIn p _ | .abort p | .sessionCreate p _ | .sessionDestroy p _ | .planInstall p _
  | .sidebandRead p _ _ _ _ | .fmBind p _ _ _ | .poolMembers p _ => .result p ST.internal []

/-- The oldest access or request that waits for CTL fails. -/
def State.failCtl (s : State) : State :=
  match s.svc.waiting with
  | [] => s
  | r :: l => { s with svc := { s.svc with waiting := l } }.emit r.failure

/-- R17: the operation that an item of crossing `x` belongs to completes with ST_INTERNAL, both copies of the item having failed. -/
def State.failXing (s : State) (x : Nat) : State :=
  match x with
  | 1 => s.failRead Reader.isCxl State.spoilRead
  | 4 => s.failRead Reader.isGet State.spoilRead
  | 5 | 24 => s.failSome (s.pst.units.find? (fun u => !u.committed && u.msn.isSome && !u.copied && !u.away))
  | 8 | 22 => s.failMove
  | 9 | 10 | 11 => s.failDestage
  | 17 | 29 => s.failCtl
  | 25 => s.failSome s.waitingCharges.head?
  | 26 => s.forwardedBack [] true
  | 27 => s.failRead Reader.isTwin State.spoilRead
  | _ => s.failXingOp x

/-- A read that the twin forwards is served here: DPA, length and the number its answer bears (R235; DESIGN CHOICE,
notes/assumptions/82.md). -/
def State.serveTwin (s : State) (brings : List Byte) : State :=
  let dpa := leNat (brings.take 8)
  let len := leNat ((brings.drop 8).take 4)
  let q : ReadReq :=
    { reader := .twin (leNat ((brings.drop 12).take 4)), dpa := dpa, len := len, bound := s.pst.nextUnit, snap := none
      pend := s.openExtents dpa len }
  let s1 := s.demandRange dpa len
  if s.readReady q then s1.answerRead q else { s1 with hst := { s1.hst with reads := s1.hst.reads ++ [q] } }

/-- An item of a crossing with nothing standing in it: the line that answers a forwarded read, a read that the twin forwards, or a parity
event. -/
def State.bareItem (s : State) (x : Nat) (receiver : Island) (parity : Parity) (brings : List Byte) : State :=
  let s1 := s.xerr x receiver parity
  if parity.isBad then s1.failXing x
  else if x = 26 ∧ brings ≠ [] then s1.forwardedBack brings false
  else if x = 27 ∧ brings.length = 16 then s1.serveTwin brings
  else s1

/-- The oldest item of a crossing arrives while its receiver runs (R16). -/
def execCrossingItemArrival (x : BitVec 5) (forward : Bool) (i : Island) (parity : Parity) (brings : List Byte) (s : State) : Res :=
  let key := xingKey x.toNat forward i
  match s.items key with
  | [] => when_ (s.running (keyReceiver key i)) s (s.bareItem x.toNat (keyReceiver key i) parity brings)
  | item :: rest =>
    let s1 := { s with xing := Tab.put s.xing key rest }.xerr x.toNat item.receiver parity
    let s2 := if parity.isBad then s1.undelivered item else s1.deliver item
    when_ (s.running item.receiver && (item.receiver == .pst || s.contrail.released)) s
      ((s2.finishClosing .hp0).finishClosing .hp1)

/-- R66: a unit that needs D2 or D3 in a REFUSE region fails in its turn while this device serves alone. -/
def State.unitRefused (s : State) (u : CUnit) : Bool :=
  !u.committed && u.written && u.charged && !u.away && !u.inDoubt && !u.downgrade && (u.cls == .d2 || u.cls == .d3) &&
  (s.phl.twin == .alone || s.phl.twin == .absent || s.rangeSolo u.dpa u.len) && s.regionTurn u && s.doorTurn u

/-- R56: the unit reaches its commit point once its class condition holds and its turn has come. -/
def execCommitUnit (unit : Nat) (s : State) : Res :=
  match s.pst.units.find? (fun u => u.id == unit) with
  | none => .next s
  | some u =>
    if u.volatile then when_ (s.running .pst) s (s.landD0 unit)
    else if s.modeOut u then when_ (s.running .pst && !u.committed) s (s.failUnit u ST.mode).releaseSpace
    else if u.away ∧ s.phl.twin = .alone ∧ s.rangeOut u.dpa u.len = true then when_ (s.running .pst) s (s.failUnit u ST.nomirror).releaseSpace
    else match s.reachable u with
    | none => when_ (s.running .pst && s.unitRefused u) s (s.failUnit u ST.nomirror).releaseSpace
    | some c => when_ (s.running .pst && s.commitReady u) s (s.commit u c).runHmaps

/-- A read that waits must not see the unit: it came before it, or before the unit's extent committed (R62, R199). -/
def ReadReq.holds (q : ReadReq) (u : CUnit) : Bool :=
  q.snap.isNone && u.overlaps q.dpa q.len && (match q.reader with
    | .get _ _ => decide (q.bound ≤ u.id) || q.pend.contains u.id
    | _ => u.hiddenFrom q.bound q.pend)

/-- An operation of a strand has still to read a range without the unit (R62, R155). -/
def Op.holds (o : Op) (u : CUnit) : Bool := u.hiddenFrom o.bound o.skip && o.sources.any (fun e => u.overlaps e.1 e.2)

/-- Every committed unit or mirror copy that came before it and shares a line has been placed, so that the later data wins (R59). -/
def State.placeTurn (s : State) (u : CUnit) : Bool :=
  !((s.pst.units.takeWhile (fun v => v.id != u.id)).any (fun v => v.committed && v.overlaps u.dpa u.len)) &&
  !s.phl.copies.any (fun c => c.committed && decide (c.dpa < u.dpa + u.len) && decide (u.dpa < c.dpa + c.span)) &&
  !s.hst.reads.any (fun q => q.holds u) && !s.pe.cmds.any (fun e => e.2.ops.any (fun o => o.holds u))

/-- A page of the range is not yet restored: the entry stays in the ingress buffer until it is (R297). -/
def State.unrestoredIn (s : State) (dpa len : Nat) : Bool := s.awaitsRestore dpa len

/-- A page of the range has still to come in a resync: later copies go on top, after the page (R253). -/
def State.uncopiedIn (s : State) (dpa len : Nat) : Bool :=
  s.phl.twin == .resyncIn && (pagesOf dpa len).any (fun p => s.phl.resyncLeft.contains p)

def State.placing (s : State) : Bool := s.running .pst && s.running .nc && s.running .mem

def State.placeUnit (s : State) (u : CUnit) : Res :=
  match s.placeCells u.wpol u.dpa u.len u.cells with
  | none => .next s
  | some s1 =>
    when_ (s.placing && u.committed && s.placeTurn u && !s.unrestoredIn u.dpa u.len && !s.repairing u.dpa u.len) s
      (s1.setUnits (s.pst.units.filter (fun x => x.id != u.id))).releaseSpace

/-- A mirror copy of the twin's unit, once its MCV has come (R235); copies are applied in order (R56). -/
def State.placeCopy (s : State) (c : Copy) : Res :=
  match s.placeCells (s.wpolAt c.dpa) c.dpa c.span c.cells with
  | none => .next s
  | some s1 =>
    let before := s.phl.copies.takeWhile (fun d => d.msn != c.msn)
    let left := s.phl.copies.filter (fun d => d.msn != c.msn)
    when_ (s.placing && c.committed && c.charged && !before.any (fun d => d.region == c.region) &&
        !s.unrestoredIn c.dpa c.span && !s.uncopiedIn c.dpa c.span && !s.repairing c.dpa c.span) s
      { s1 with phl := { s1.phl with copies := left } }.releaseSpace

/-- R21: a committed entry goes to the near cache or DDR5 and its ingress space is released. -/
def execPlacement (copy : Bool) (unit : Nat) (s : State) : Res :=
  if copy then
    match s.phl.copies.find? (fun c => c.msn == unit) with
    | none => .next s
    | some c => s.placeCopy c
  else
    match s.pst.units.find? (fun u => u.id == unit) with
    | none => .next s
    | some u => s.placeUnit u

end Sys2Proof.Machine
end

