-- ==== Sys2Proof/Machine/FabricRx.lean ====
section
/-! DEFINITION. Receiving AFT2 packets (06 R181 to R201, R207, R210 to R216): the checks of Table FAB-8, paths and their
errors, messages, reassembly. -/

namespace Sys2Proof.Machine

/-! ### Paths (Tables FAB-11, FAB-12) -/

def State.setPath (s : State) (p : FabPort) (f : PathState → PathState) : State :=
  s.updFab (fun x => { x with paths := x.paths.set p.idx (f (s.path p)) })

/-- Frames of the port are looked at: FAB runs, the link is up, the path is not OFF. -/
def State.fabUp (s : State) (p : FabPort) : Bool :=
  s.running .fab && s.on F.FAB_CTL.ENABLE && (s.path p).link && (s.path p).st != 3

/-- A packet is sent again on the session's ports (R214). -/
def State.resend (s : State) (n : Nat) (t : TxPkt) : State :=
  match s.ses n with
  | none => s
  | some x => { s with out := s.out ++ s.copies x t.pkt }.bump F.FAB_CNT1.RETRANSMITS |>.countEvent 0x024 1 none none

/-- The sessions of a pair that is down move to the other, and their unreceipted packets are sent there at once (R219). -/
def State.movePair (s : State) (n : Nat) : State :=
  (s.fab.sessions.filter (fun e => e.2.pairNow == n)).foldl (fun s e =>
    e.2.unreceipted.foldl (fun s t => s.resend e.1 t) (s.updSes e.1 (fun x => { x with pairNow := 1 - n }))) s

/-- What a pair going down brings; `was`: it was down before (R219). -/
def State.checkPair (s : State) (was : Bool) (n : Nat) : State :=
  if !was && s.pairDown n then
    let f := if n = 0 then F.FAB_ERR.PAIR0_DOWN else F.FAB_ERR.PAIR1_DOWN
    let s1 := s.record sevError .fab 2 f.lsb n f.addr
    if s.pairDown (1 - n) then s1.record sevCritical .fab 2 f.lsb n f.addr else s1.movePair n
  else s

/-- The path becomes FAILED. -/
def State.failPath (s : State) (p : FabPort) (sev : Option Nat) : State :=
  let s1 := (s.setPath p (fun x => { x with st := 2 })).bump (F.FAB_PATH_STATUS.FAILURES p.idx)
  let s2 := match sev with
    | some v => s1.recState v .fab (F.FAB_PATH_STATUS.STATE p.idx)
    | none => s1
  s2.checkPair (s.pairDown p.pair) p.pair

/-- An error of a path: counted, and followed by the transitions of Table FAB-12. A FAILED or OFF path's errors are not
counted. Errors older than two windows no longer matter. -/
def State.pathError (s : State) (p : FabPort) (f : Fld) : State :=
  if 2 ≤ (s.path p).st then s
  else
    let recent (t : Nat) : Bool := decide (s.time < t + 200000 * s.fld F.FAB_PATH_CTL.WINDOW)
    let s1 := (s.bump f).setPath p (fun x => { x with errors := s.time :: x.errors.filter recent })
    let e := s.errorsAt (s1.path p) s.time
    if s.fld F.FAB_PATH_CTL.FAIL_THR ≤ e then s1.failPath p (some sevError)
    else if s.fld F.FAB_PATH_CTL.SUSPECT_THR ≤ e ∧ (s.path p).st = 0 then
      (s1.setPath p (fun x => { x with st := 1 })).recState sevWarn .fab (F.FAB_PATH_STATUS.STATE p.idx)
    else s1

/-- The port's receiver is in a recalibration window: copies missing or damaged there are not counted (R417). -/
def State.portWindow (s : State) (p : FabPort) : Bool :=
  match Tab.get s.cal.units (128 + p.idx) with
  | some u => u.window
  | none => false

def State.badCopy (s : State) (p : FabPort) : State := if s.portWindow p then s else s.pathError p (F.FAB_PATH_CNT.BAD_COPY p.idx)

/-- A packet of a session fails its tag: within SKEW_WINDOW of a rekey it may be an old-epoch copy, and is not counted (R183). -/
def State.badTag (s : State) (x : Session) (p : FabPort) : State :=
  match x.rekeyedAt with
  | some t => if s.time ≤ t + 1000 * s.fld F.FAB_TIMER0.SKEW_WINDOW then s else s.badCopy p
  | none => s.badCopy p

/-! ### Steps 2 and 3 of Table FAB-8 -/

/-- Zero fields of words 0 and 1, VER and TYPE (Table FAB-2). -/
def headOk (k : Packet) : Bool :=
  k.ver == 2 && decide (1 ≤ k.typ) && decide (k.typ ≤ 14) && bitsOf k.w0 12 4 == 0 && bitsOf k.w0 52 12 == 0 &&
  bitsOf k.w1 20 12 == 0 && (!k.subop || k.typ == 5)

/-- Zero fields and lengths of a packet with a PSN. -/
def dataOk (k : Packet) : Bool :=
  bitsOf k.w3 60 4 == 0 && bitsOf k.w4 46 18 == 0 && k.plen == k.payload.length && decide (k.plen ≤ 8192) &&
  (k.typ == 5 || k.typ == 3 || (k.typ == 10 && bitsOf k.w5 14 50 == 0) || k.w5 == 0) && (k.subop || k.w6 == 0) &&
  (k.typ != 5 || (k.msgLen == 8 && k.plen == 0)) && (k.typ != 10 || (k.msgLen == 64 && k.plen == 64)) &&
  (!(k.typ == 3 || k.typ == 6) || k.plen == 0)

/-- Zero fields of a control type (Table FAB-4). -/
def ctlOk (k : Packet) : Bool :=
  k.payload.isEmpty &&
  (match k.typ with
   | 7 => bitsOf k.w2 42 22 == 0 && bitsOf k.w3 32 32 == 0
   | 8 => bitsOf k.w2 32 32 == 0 && bitsOf k.w4 32 32 == 0 && bitsOf k.w6 4 28 == 0
   | 9 => bitsOf k.w2 36 4 == 0 && bitsOf k.w3 60 4 == 0 && bitsOf k.w4 32 32 == 0 && k.w5 == 0 && k.w6 == 0
   | 11 => k.w2 == 0 && k.w3 == 0 && k.w4 == 0 && k.w6 == 0
   | 14 => k.w2 == 0 && k.w3 == 0 && k.w4 == 0 && k.w5 == 0 && k.w6 == 0
   | _ => bitsOf k.w2 47 17 == 0 && k.w3 == 0 && k.w4 == 0 && k.w5 == 0 && k.w6 == 0)

def packetOk (k : Packet) : Bool := headOk k && (if isDataType k.typ then dataOk k else ctlOk k)

def State.malformed (s : State) : State := s.bump F.FAB_CNT4.MALFORMED

/-- A frame from outside the gate: counted; the first from each source address in each second is noted (R191, R192). -/
def State.stranger (s : State) (p : FabPort) (k : Packet) : State :=
  let s1 := s.bump F.FAB_CNT0.STRANGERS
  let key := 2 ^ 64 + k.addr.toNat
  if s1.firstInSecond key then
    (s1.mark key).recordFull sevNotice .fab 3 0 p.idx Addr.FAB_CNT0 (k.addr.setWidth 64) ((k.addr >>> 64).setWidth 64)
  else s1

/-- Step 3 (R191, R242): member, destination, address, session; a credited packet needs a session that holds a grant. In READY only OPEN and OPEN_ACK pass
(Table FAB-6). -/
def State.gate (s : State) (p : FabPort) (k : Packet) : Option Session :=
  match s.ses k.session with
  | none => none
  | some x =>
    if s.isMember k.src && k.dst == s.node && x.peer == k.src && k.addr == x.addrOn p &&
        (k.typ == 12 || k.typ == 13 || x.st != .ready) &&
        (!isCredited k.typ || x.granted != 0 || s.twinWrite x k.typ) then some x
    else none

/-! ### Messages: R195 and refusals -/

/-- Packets of the message a packet belongs to. -/
def pktCount (x : Session) (k : Packet) : Nat :=
  if k.typ = 1 ∨ k.typ = 2 ∨ k.typ = 4 then max 1 ((k.msgLen + x.psize - 1) / max 1 x.psize) else 1

/-- The packet fits its message: index, length, F, and what the message's first packet said (R184). -/
def State.fits (s : State) (x : Session) (k : Packet) : Bool :=
  let parts := k.typ == 1 || k.typ == 2 || k.typ == 4
  (k.msgLen == 0 || decide (1048576 < k.msgLen) ||
    (decide (k.idx < pktCount x k) && (!parts || k.plen == min x.psize (k.msgLen - k.idx * x.psize)) &&
     (!k.final || k.idx + 1 == pktCount x k) && (!parts || decide (k.idx * x.psize ≤ k.offset)))) &&
  (k.typ == 4 || (match x.rx.find? (fun m => m.msg == k.msg) with
    | some m => m.typ == k.typ && m.len == k.msgLen &&
        (k.typ == 6 || k.typ == 10 || s.twinWrite x k.typ || (m.region == k.region &&
          (match Tab.get s.regions m.region with
           | some r => r.base + k.offset == m.base + k.idx * x.psize
           | none => false)))
    | none => true))

/-- Index and tag of an access key (R194). -/
def keyIndex (k : Nat) : Nat := k % 2 ^ 18
def keyTag (k : Nat) : Nat := k / 2 ^ 18

/-- The right a packet type needs: R 0, W 1, ATOM 2, APPEND 3. -/
def rightBit (typ : Nat) : Nat :=
  match typ with
  | 1 => 1
  | 2 => 3
  | 5 => 2
  | _ => 0

/-- First byte of a message in its region. -/
def msgBase (x : Session) (k : Packet) : Nat := if k.typ = 1 ∨ k.typ = 2 then k.offset - k.idx * x.psize else k.offset

def State.keyBad (s : State) (n : Nat) (x : Session) (e : KeyEnt) (k : Packet) : Bool :=
  !e.used || e.tag != keyTag k.key || e.region != k.region || decide (e.expiry < s.fld F.FAB_KEY_EPOCH.EPOCH) ||
  !(if e.any then ((Tab.get s.regions e.region).map (fun r => r.tenant == x.tenant)).getD false else e.session == n)

/-- The status of a message of region `r` under key `e` (R195, R41). -/
def State.keyedStatus (s : State) (n : Nat) (x : Session) (k : Packet) : Option Status :=
  match Tab.get s.fab.keys (keyIndex k.key) with
  | none => some ST.key
  | some e =>
    if s.keyBad n x e k then some ST.key
    else match Tab.get s.regions k.region with
      | none => some ST.bounds
      | some r =>
        let b := msgBase x k
        let c := Class.ofCode k.cls
        firstSome
          [ failIf (decide (b < e.offset) || decide (e.offset + e.len < b + k.msgLen) || decide (r.len < b + k.msgLen) ||
              (k.typ == 2 && s.isHome r && s.logShort k.region r k.msgLen)) ST.bounds,
            failIf (!Nat.testBit e.rights (rightBit k.typ) || (k.typ == 2 && !r.sealed) ||
              (k.typ != 3 && ((r.floor == .d0 && c != .d0) || (c == .d3 && !r.sealed)))) ST.rights,
            failIf ((k.typ == 1 || k.typ == 5) && r.sealed) ST.sealed ]

/-- A session that HALT leaves: a twin or loan session of tenant 0 (Table MOD-3). -/
def State.haltRefuses (s : State) (x : Session) : Bool := s.mod.mode == .halt && x.tenant != 0

/-- The status a message is refused with at its first packet; none when it passes (R195; R250 last). -/
def State.messageStatus (s : State) (n : Nat) (x : Session) (k : Packet) : Option Status :=
  let keyed := k.typ != 6 && k.typ != 10
  firstSome
    [ failIf (k.msgLen == 0 || decide (1048576 < k.msgLen) || (k.typ == 5 && k.offset % 8 != 0)) ST.length,
      if keyed then s.keyedStatus n x k else none,
      failIf (s.haltRefuses x) ST.mode,
      failIf (keyed && (match Tab.get s.regions k.region with
        | some r => s.noDataAt r (r.base + msgBase x k) k.msgLen
        | none => false)) ST.nomirror ]

/-- The counter of a refusal (R196). -/
def violCounter (st : Status) : Option Fld :=
  if st = ST.key then some F.FAB_CNT3.VIOL_KEY
  else if st = ST.bounds then some F.FAB_CNT3.VIOL_BOUNDS
  else if isViolation st then some F.FAB_CNT3.VIOL_RIGHTS
  else none

/-- A message is refused: counted, noted once a second for its session, answered (R196). -/
def State.refuse (s : State) (n : Nat) (k : Packet) (st : Status) : State :=
  let s1 := match violCounter st with
    | some f =>
      let s' := s.bump f
      if s'.firstInSecond (400000000 + n) then
        (s'.mark (400000000 + n)).recordFull sevNotice .fab 3 0 n Addr.FAB_CNT3 (w64 (keyIndex k.key + st.toNat * 2 ^ 32))
          (w64 k.offset)
      else s'
    | none => s
  (s1.finishRx n (refusal k.msg st) none).turns n

/-! ### Extents of the fabric (R61, R207) -/

/-- The extent reserved for a message, by its number. -/
def State.extentOf (s : State) (n msg : Nat) : Option (Nat × Extent) :=
  s.pst.extents.find? (fun e => match e.2.door with
    | .fabric k m _ => k == n && m == msg
    | _ => false)

/-- The message's credit comes from the open limit: an APPEND, or a WRITE to an ATOMIC region (R207). -/
def State.wantsWhole (s : State) (typ region : Nat) : Bool := typ == 2 || (typ == 1 && s.atomicRegion region)

/-- The extent of a message is closed: its reservation is released, or passes to its unit. -/
def State.closeExtent (s : State) (n msg : Nat) : State :=
  match s.extentOf n msg with
  | some (id, _) => { s with pst := { s.pst with extents := Tab.del s.pst.extents id } }
  | none => s

/-! ### Taking packets in (Table FAB-9) -/

/-- The unit waits while its message's turn has not come (R210). -/
def State.inTurn (s : State) (n msg : Nat) (f : Bool) (u : CUnit) : CUnit :=
  if s.fabricTurn n msg f u.id then u else { u with hold := .order }

/-- A unit of a message is admitted and noted in it. -/
def State.admitMsg (s : State) (n : Nat) (m : RxMsg) (idx : Nat) (f : Bool) (u : CUnit) : State :=
  let id := s.pst.nextUnit
  let s1 := s.updSes n (updMsg m.msg (fun m => { m with units := m.units ++ [{ idx := idx, unit := id, settle := .pending }] }))
  s1.admitUnit (s1.inTurn n m.msg f { u with id := id })

/-- The class of a message's writes (R40). -/
def msgClass (r : Region) (k : Packet) : Class := Class.max (Class.ofCode k.cls) r.floor

/-- A WRITE packet of a region without ATOMIC, or an ATOMIC, is one unit (Table DUR-2). -/
def State.takePacket (s : State) (n : Nat) (x : Session) (m : RxMsg) (k : Packet) (r : Region) : State :=
  let door : Door := .fabric n m.msg k.final
  if k.typ = 5 then
    let a : Atomic := if k.subop then .cas k.w5 k.w6 else .add k.w5
    s.admitMsg n m 0 k.final { mkUnit 0 k.region r m.base 8 [] (msgClass r k) door (!s.isHome r) with atomic := some a }
  else
    let dpa := m.base + k.idx * x.psize
    s.admitMsg n m k.idx k.final (mkUnit 0 k.region r dpa k.plen (cellsAt dpa k.payload) (msgClass r k) door (!s.isHome r))

/-- An extent has all its bytes: a write takes its place as one unit; an append is ready for its position, or goes to the
home (R61, R198, R353). -/
def State.extentWhole (s : State) (n : Nat) (m : RxMsg) (e : Extent) (r : Region) : State :=
  let f := m.final.isSome
  let s1 := s.closeExtent n m.msg
  let door : Door := .fabric n m.msg f
  if m.typ = 1 then s1.admitMsg n m 0 f { extentUnit s1 e r with door := door }
  else
    let payload := e.arrived.map (·.2)
    if s.isHome r then
      (s1.updLog m.region (fun l => { l with items := updAll (fun i => i.door == .fabric n m.msg false) (fun i =>
        { i with door := door, payload := payload, ready := true, xref := e.xopen }) l.items }))
    else s1.admitMsg n m 0 f { recordAway 0 m.region r payload door with extent := true }

/-- A piece of a D2 extent goes to the twin as it arrives, while a channel is live and has credit for it; the rest goes with the extent's position (R61). -/
def State.sendPiece (s : State) (id : Nat) (e : Extent) (dpa : Nat) (data : List Byte) : State :=
  match e.xopen with
  | some m =>
    if e.cls = .d2 ∧ s.channel.isSome = true ∧ s.dataFits data.length = true ∧ s.rangeSolo dpa data.length = false then
      { s with pst := { s.pst with extents := Tab.put s.pst.extents id { e with sent := e.sent ++ [(dpa, data.length)] } } }.sendFrame
        { Frame.mk0 1 with cls := e.cls, region := e.region, dpa := dpa, ref := m, data := data }
    else s
  | none => s

/-- A packet of an extent arrives: its bytes stay invisible until the last one is there (R61). -/
def State.takePiece (s : State) (n : Nat) (x : Session) (m : RxMsg) (k : Packet) (r : Region) : State :=
  match s.extentOf n m.msg with
  | none => s
  | some (id, e) =>
    let dpa := m.base + k.idx * x.psize
    let e' := { e with dpa := m.base, declared := m.len, cls := msgClass r k, got := e.got + k.plen,
                       arrived := insertCells e.arrived (cellsAt dpa k.payload) }
    let s1 := { s with pst := { s.pst with extents := Tab.put s.pst.extents id e' } }
    if e'.got = m.len then s1.extentWhole n m e' r else s1.sendPiece id e' dpa k.payload
where
  /-- Cells of a piece, put in order of address among those that came before. -/
  insertCells (a b : List Host.Cell) : List Host.Cell :=
    let lo := (b.head?.map (·.1)).getD 0
    a.filter (fun c => decide (c.1 < lo)) ++ b ++ a.filter (fun c => !decide (c.1 < lo))

/-- A GET takes its position (R199): the bytes there, or, while a page is not restored or lies on the twin, its bound, and what then has no
position yet, which it neither waits for nor returns. -/
def State.takeGet (s : State) (n : Nat) (m : RxMsg) (r : Region) (far : List Byte) : State :=
  if s.readAtTwin r m.base m.len then
    if far.length = m.len then (s.answerGet n m.msg far false).turns n else s
  else
    let hit (u : CUnit) : Bool := !u.committed && u.overlaps m.base m.len
    let waits := s.repairing m.base m.len || (pagesOf m.base m.len).any (fun p => s.unrestored (16384 * p)) ||
      s.phl.copies.any (fun c => !c.committed && !c.extent && c.overlaps m.base m.len)
    let q : ReadReq :=
      { reader := .get n m.msg, dpa := m.base, len := m.len, bound := s.pst.nextUnit
        snap := if waits then none else some (s.bytes m.base m.len)
        pend := (s.pst.units.filter (fun u => hit u && (if waits then u.extent || !u.charged || u.cls == .d0
          else u.charged && !u.extent && u.cls != .d0))).map (·.id) ++
          (if waits then (s.phl.copies.filter (fun c => c.extent && !c.committed && c.overlaps m.base m.len)).map (·.uid) else []) }
    ({ s with hst := { s.hst with reads := s.hst.reads ++ [q] } }.demandRange m.base m.len).serveReads

/-- A message of mirror frames is whole: its ACK carries the cumulative MACK (R242). The frames themselves are the rows of PHL
(notes/assumptions/43.md). -/
def State.twinDone (s : State) (n : Nat) (m : RxMsg) : State :=
  if m.got.length = m.count then
    s.finishRx n { msg := m.msg, status := 0, cls := 0, map := 0, result := w64 ((s.phl.rxNext + 2 ^ 32 - 1) % 2 ^ 32), torn := false } none
  else s

/-- A packet's effect, its message being open. -/
def State.takeIn9 (s : State) (n : Nat) (x : Session) (m : RxMsg) (k : Packet) (far : List Byte) : State :=
  if s.twinWrite x k.typ then s.twinDone n m
  else if k.typ = 6 then s.answerFences (x.rx.length + 1) n
  else if k.typ = 10 then s
  else match Tab.get s.regions m.region with
    | none => s
    | some r =>
      if k.typ = 3 then s.takeGet n m r far
      else if m.extent.isSome then s.takePiece n x m k r
      else s.takePacket n x m k r

/-- The message a first packet opens. -/
def State.mkRx (s : State) (n : Nat) (x : Session) (k : Packet) : RxMsg :=
  { msg := k.msg, typ := k.typ, cls := Class.ofCode k.cls, region := k.region
    base := if k.typ = 10 then bitsOf k.w5 0 14 else ((Tab.get s.regions k.region).map (·.base)).getD 0 + msgBase x k
    len := k.msgLen, count := pktCount x k, psn0 := some ((k.psn + 2 ^ 32 - k.idx) % 2 ^ 32), got := [], final := none, units := []
    extent := if s.wantsWhole k.typ k.region && !s.twinWrite x k.typ then (s.extentOf n k.msg).map (·.1) else none
    entry := if k.typ = 10 then k.payload else [], result := 0 }

/-- An append reserves its space in the log at its first packet (R353). -/
def State.openAppend (s : State) (n : Nat) (_ : Session) (m : RxMsg) : State :=
  match Tab.get s.regions m.region with
  | some r => if m.typ = 2 ∧ s.isHome r then
      s.updLog m.region (fun l => l.add (newItem m.len (.fabric n m.msg false) (s.node + 2 ^ 18) .d3)) else s
  | none => s

/-- Steps 9 and 10 for a packet whose message is open. -/
def State.joinOpen (s : State) (n : Nat) (k : Packet) (far : List Byte) : State :=
  let s1 := s.updSes n (updMsg k.msg (fun m =>
    { m with got := m.got ++ [k.idx], final := if k.final then some k.idx else m.final, psn0 := some ((k.psn + 2 ^ 32 - k.idx) % 2 ^ 32) }))
  match s1.ses n with
  | none => s1
  | some x =>
    match x.rx.find? (fun m => m.msg == k.msg) with
    | none => s1
    | some m => ((s1.takeIn9 n x m k far).checkRx n k.msg).turns n

/-- A cached acknowledgement is sent again (R200, R213). -/
def State.resendAck (s : State) (n msg : Nat) : State :=
  match (s.ses n).bind (fun x => x.acks.find? (fun a => a.msg == msg)) with
  | some a => s.sendAck n a
  | none => s

/-- A packet of a retired message (R213). -/
def State.dropRetired (s : State) (n : Nat) (x : Session) (msg : Nat) : State :=
  (s.bump (if x.torn.contains msg then F.FAB_CNT1.LATE_REMAINDER else F.FAB_CNT0.DUP_DISCARDS)).resendAck n msg

/-- Steps 9 and 10: the message's first packet decides for all of them (R195). A packet that was parked may find its message over (R196);
one that the message has already is a duplicate. -/
def State.join (s : State) (n : Nat) (k : Packet) (far : List Byte) : State :=
  match s.ses n with
  | none => s
  | some x =>
    if x.isRetired k.msg then s.dropRetired n x k.msg
    else if x.rx.any (fun m => m.msg == k.msg && m.got.contains k.idx) then s.bump F.FAB_CNT0.DUP_DISCARDS
    else if x.rx.any (fun m => m.msg == k.msg) then s.joinOpen n k far
    else match (if s.twinWrite x k.typ then none else s.messageStatus n x k) with
      | some st => (s.closeExtent n k.msg).refuse n k st
      | none =>
        let m := s.mkRx n x k
        ((s.updSes n (fun x => { x with rx := x.rx ++ [m] })).openAppend n x m).joinOpen n k far

/-! ### Parking (R189, R190) -/

/-- A packet waits behind its session's context, in PSN order (R189). -/
def park (l : List (FabPort × Packet × List Byte)) (e : FabPort × Packet × List Byte) : List (FabPort × Packet × List Byte) :=
  l.filter (fun q => decide (q.2.1.psn < e.2.1.psn)) ++ [e] ++ l.filter (fun q => !decide (q.2.1.psn < e.2.1.psn))

/-- Step 8. -/
def State.step8 (s : State) (n : Nat) (p : FabPort) (k : Packet) (far : List Byte) : State :=
  match s.ses n with
  | none => s
  | some x =>
    if s.fab.resident.contains (2 * n) && x.parked.isEmpty then ((s.bringContext (2 * n)).getD s).join n k far
    else (s.updSes n (fun x => { x with parked := park x.parked (p, k, far) })).bump F.FAB_CNT2.CTX_PARKED

/-! ### Steps 4 to 7 -/

/-- Grants give up to `need` credits where `p` holds; what is still needed, and the grants left. -/
def spendFrom (p : Grant → Bool) : Nat → List Grant → Nat × List Grant
  | need, [] => (need, [])
  | need, g :: r =>
    let k := if p g then min need g.credits else 0
    let q := spendFrom p (need - k) r
    (q.1, if p g ∧ g.credits = k then q.2 else { g with credits := g.credits - k } :: q.2)

/-- Step 5: a packet's cost within the session's unspent grant (R203, R207, R208). -/
def spend (typ msg cost : Nat) (whole : Bool) (l : List Grant) : Option (List Grant) :=
  if whole then
    let a := spendFrom (fun g => g.whole == some msg) cost l
    if a.1 = 0 then some a.2 else none
  else
    let a := spendFrom (fun g => g.whole.isNone && g.readOnly && typ == 3) cost l
    let b := spendFrom (fun g => g.whole.isNone && !g.readOnly) a.1 a.2
    if b.1 = 0 then some b.2 else none

/-- A RECEIPT after every 16 packets, and at once on a gap (R214). -/
def State.receiptDue (s : State) (n : Nat) (gap : Bool) : State :=
  match s.ses n with
  | some x => if gap || decide (16 ≤ x.sinceReceipt) then s.sendReceipt n else s
  | none => s

/-- Step 7 for a first copy: it is kept for comparison, its PSN is received, its credit spent. -/
def State.firstCopy (s : State) (n : Nat) (x : Session) (p : FabPort) (k : Packet) (grants : List Grant) : State :=
  ((s.updSes n (fun x => { (x.recvPsn k.psn) with
      kept := x.kept ++ [{ psn := k.psn, port := p, pkt := k }], grants := grants, sinceReceipt := x.sinceReceipt + 1 })).countEvent
    0x020 1 none (some p.idx)).receiptDue n (decide (x.cum < k.psn))

/-- Two copies are byte-identical from the AFT2 header onward (R183). -/
def sameCopy (a b : Packet) : Bool := { a with addr := 0 } == { b with addr := 0 }

/-- Step 7 for a copy of a PSN whose first copy is kept: the other port has delivered, whatever the copy says (R216). While a member of the
pair is FAILED or OFF nothing is compared (R219). -/
def State.secondCopy (s : State) (n : Nat) (x : Session) (p : FabPort) (k : Packet) (e : Kept) : State :=
  let s := if e.port == p then s else s.updSes n (fun x => { x with kept := x.kept.filter (fun q => q.psn != e.psn) })
  if !k.tagOk then s.badTag x p
  else if sameCopy e.pkt k || decide (2 ≤ (s.path p).st) || decide (2 ≤ (s.path p.partner).st) then s.countEvent 0x021 1 none (some p.idx)
  else ((s.pathError p (F.FAB_PATH_CNT.MISMATCH p.idx)).pathError p.partner (F.FAB_PATH_CNT.MISMATCH p.partner.idx)).record
    sevError .fab 3 16 n (Addr.FAB_PATH_CNT p.idx)

/-- A copy that comes after SKEW_WINDOW (R216). -/
def State.lateCopy (s : State) (n : Nat) (p : FabPort) (k : Packet) : State :=
  (s.updSes n (fun x => { x with missed := x.missed.filter (· != (k.psn, p)) })).pathError p (F.FAB_PATH_CNT.LATE p.idx)

/-- Step 5 for READ_DATA: within what its READ_REQ reserved (Table FAB-3, R209). -/
def readGranted (x : Session) (k : Packet) : Bool :=
  x.tx.any (fun m => m.typ == 3 && m.msg == k.msg && m.reserved && m.answer.isNone &&
    decide (sumOf (m.back.map (fun e => creditsOf e.2.length)) + k.cost ≤ m.reserve))

/-- Distance of a PSN from the window's start, modulo 2^32 (step 4). -/
def psnDist (x : Session) (psn : Nat) : Nat := (psn + 2 ^ 32 - x.cum % 2 ^ 32) % 2 ^ 32

/-- Steps 4 to 7 of a packet with a PSN. -/
def State.steps4 (s : State) (n : Nat) (x : Session) (p : FabPort) (k : Packet) (far : List Byte) : State :=
  match x.kept.find? (fun q => q.psn == k.psn) with
  | some e => s.secondCopy n x p k e
  | none =>
    if x.missed.contains (k.psn, p) then (if k.tagOk then s.lateCopy n p k else s.badTag x p)
    else if k.typ != 4 && x.isRetired k.msg then s.dropRetired n x k.msg
    else if 2 ^ 31 ≤ psnDist x k.psn ∨ x.sack.contains k.psn then (s.bump F.FAB_CNT0.DUP_DISCARDS).resendAck n k.msg
    else if 4096 ≤ psnDist x k.psn then s.malformed
    else
      let g := if s.twinWrite x k.typ then some x.grants
        else if isCredited k.typ then spend k.typ k.msg k.cost (s.wantsWhole k.typ k.region) x.grants
        else if readGranted x k then some x.grants else none
      match g with
      | none => s.bump F.FAB_CNT4.CREDIT_OVERRUNS
      | some g =>
        if !k.tagOk then s.badTag x p
        else if k.typ = 4 then s.firstCopy n x p k g
        else (s.firstCopy n x p k g).step8 n p k far

/-- A packet of type `typ` with a PSN arrives on a port. -/
def State.rxData (s : State) (p : FabPort) (k : Packet) (far : List Byte) : State :=
  if !packetOk k then s.malformed
  else match s.gate p k with
    | none => s.stranger p k
    | some x => if !s.fits x k then s.malformed else s.steps4 k.session x p k far

def State.rxRow (s : State) (typ : Nat) (p : FabPort) (k : Packet) (t : State) : Res := when_ (s.fabUp p && k.typ == typ) s t

def execWrite (p : FabPort) (pkt : Packet) (s : State) : Res := s.rxRow 1 p pkt (s.rxData p pkt [])
def execAppend (p : FabPort) (pkt : Packet) (s : State) : Res := s.rxRow 2 p pkt (s.rxData p pkt [])
def execReadReq (p : FabPort) (pkt : Packet) (far : List Byte) (s : State) : Res := s.rxRow 3 p pkt (s.rxData p pkt far)
def execAtomic (p : FabPort) (pkt : Packet) (s : State) : Res := s.rxRow 5 p pkt (s.rxData p pkt [])
def execFence (p : FabPort) (pkt : Packet) (s : State) : Res := s.rxRow 6 p pkt (s.rxData p pkt [])
def execSubmit (p : FabPort) (pkt : Packet) (s : State) : Res := s.rxRow 10 p pkt (s.rxData p pkt [])

/-- Returned data joins its GET (R209); INSTRUCTION_COMPLETION writes it once it is all there. -/
def State.takeBack (s : State) (n : Nat) (k : Packet) : State :=
  s.updSes n (updTx k.msg (fun m =>
    if m.typ = 3 ∧ m.len = k.msgLen ∧ m.back.all (fun e => e.1 != k.offset) then { m with back := m.back ++ [(k.offset, k.payload)] }
    else m))

/-- The packet's PSN is new to its session. -/
def State.newPsn (s : State) (k : Packet) : Bool :=
  match s.ses k.session with
  | some x => decide (psnDist x k.psn < 4096) && !x.sack.contains k.psn && !x.kept.any (fun q => q.psn == k.psn)
  | none => false

/-- READ_DATA: a first copy that passes the checks joins the GET it answers. -/
def State.rxReadData (s : State) (p : FabPort) (k : Packet) : State :=
  let s1 := s.rxData p k []
  if packetOk k && (s.gate p k).isSome && s.newPsn k && !s1.newPsn k && k.tagOk then s1.takeBack k.session k else s1

def execReadData (p : FabPort) (pkt : Packet) (s : State) : Res := s.rxRow 4 p pkt (s.rxReadData p pkt)

/-- R189, R190: the context of a session with parked packets arrives, or its fetch waits for an evictable one. -/
def State.fetchContext (s : State) (n : Nat) (x : Session) : State :=
  match s.bringContext (2 * n) with
  | none => if x.stalled then s
            else (s.updSes n (fun x => { x with stalled := true })).bump F.FAB_CNT2.CTX_FETCH_STALLS
  | some s1 =>
    x.parked.foldl (fun s e => s.join n e.2.1 e.2.2) (s1.updSes n (fun x => { x with parked := [], stalled := false }))

def execContextFetch (session : SessionNo) (s : State) : Res :=
  match s.ses session.toNat with
  | none => .next s
  | some x => when_ (s.running .fab && !x.parked.isEmpty) s (s.fetchContext session.toNat x)

/-! ### Torn messages (R212) -/

/-- Uncommitted units of a message. -/
def State.msgUnits (s : State) (n msg : Nat) : List CUnit :=
  s.pst.units.filter (fun u => !u.committed && (match u.door with
    | .fabric k m _ => k == n && m == msg
    | _ => false))

/-- What a message has put into the device is taken back: its extent or record, and its units that have not committed. -/
def State.undo (s : State) (n : Nat) (m : RxMsg) : State :=
  let s1 := match s.extentOf n m.msg with
    | some (_, e) => if m.extent.isSome then ((s.dropXopen e ST.torn).closeExtent n m.msg).bump F.PST_DUR_CNT1.TORN else s
    | none => s
  let s2 := if m.typ = 2 then s1.updLog m.region (fun l => { l with items := l.items.filter (fun i =>
      !(i.unit.isNone && (match i.door with
        | .fabric k j _ => k == n && j == m.msg
        | _ => false))) }) else s1
  (s2.failAll (s2.msgUnits n m.msg) ST.torn).serveReads

/-- The missing packets' PSNs count as received, so that CUM_PSN advances. -/
def Session.skip (x : Session) (m : RxMsg) : Session :=
  match m.psn0 with
  | some p => ((List.range m.count).filter (fun i => !m.got.contains i)).foldl (fun x i => x.recvPsn ((p + i) % 2 ^ 32)) x
  | none => x

/-- A message fails with ST_TORN. -/
def State.tear (s : State) (n : Nat) (m : RxMsg) : State :=
  let s1 := s.updSes n (fun x => { (x.skip m).retire m.msg with replies := x.replies.filter (fun r => r.msg != m.msg) })
  let s2 := (s1.undo n m).bump F.FAB_CNT3.TORN_MSGS
  let s3 := { s2 with hst := { s2.hst with reads := s2.hst.reads.filter (fun q => q.reader != Reader.get n m.msg) } }
  let map := if m.extent.isNone ∧ m.typ = 1 then pktMap m else 0
  (s3.finishRx n { msg := m.msg, status := ST.torn, cls := 0, map := map, result := 0, torn := true }
    (if m.typ = 1 then lowestClass (m.units.map (·.settle)) else none)).turns n

def State.rxMsg (s : State) (n msg : Nat) : Option RxMsg := (s.ses n).bind (fun x => x.rx.find? (fun m => m.msg == msg))

/-- No packet of an incomplete message has been taken in for REASM_TIMEOUT. -/
def execReasmTimeout (session : SessionNo) (msg : BitVec 32) (s : State) : Res :=
  match s.rxMsg session.toNat msg.toNat with
  | none => .next s
  | some m => when_ (s.running .fab && decide (m.got.length < m.count)) s (s.tear session.toNat m)

def execMsgLifetime (session : SessionNo) (msg : BitVec 32) (s : State) : Res :=
  match s.rxMsg session.toNat msg.toNat with
  | none => .next s
  | some m => when_ (s.running .fab) s (s.tear session.toNat m)

/-- SKEW_WINDOW has passed since a first copy: the other copy is missing, unless the peer or this device has that path
failed or OFF (R216). -/
def State.skewPsn (s : State) (n : Nat) (x : Session) (e : Kept) : State :=
  let q := e.port.partner
  let s1 := s.updSes n (fun x => { x with kept := x.kept.filter (fun k => k.psn != e.psn), missed := x.missed ++ [(e.psn, q)] })
  if Nat.testBit x.peerDown q.idx || s.portWindow q then s1 else s1.pathError q (F.FAB_PATH_CNT.MISSING q.idx)

/-- No echo of the oldest probe of a port has come (R218). -/
def State.skewProbe (s : State) (n : Nat) (p : FabPort) : State :=
  let mine (e : FabPort × Nat) : Bool := e.1 == p
  let s1 := s.updSes n (fun x => { x with
    probing := x.probing.takeWhile (fun e => !mine e) ++ (x.probing.dropWhile (fun e => !mine e)).drop 1 })
  if (s.path p).st = 2 then s1.bump (F.FAB_PATH_CNT.MISSING p.idx) else s1.pathError p (F.FAB_PATH_CNT.MISSING p.idx)

def execSkewWindowExpiry (session : SessionNo) (psn : Option (BitVec 32)) (p : FabPort) (s : State) : Res :=
  let n := session.toNat
  match s.ses n, psn with
  | none, _ => .next s
  | some x, some k =>
    (match x.kept.find? (fun e => e.psn == k.toNat) with
     | some e => when_ (s.running .fab) s (s.skewPsn n x e)
     | none => .next s)
  | some x, none => when_ (s.running .fab && x.probing.any (fun e => e.1 == p)) s (s.skewProbe n p)

end Sys2Proof.Machine
end

