-- ==== Sys2Proof/Machine/FabricOps.lean ====
section
/-! DEFINITION. The fabric beside its data (06): control packets, credit, retransmission, sessions and epochs, paths and
probes, time, management requests, access keys. -/

namespace Sys2Proof.Machine

/-! ### Control packets -/

/-- A control packet that passes steps 2, 3 and 6 (Table FAB-8). -/
def State.rxCtl (s : State) (p : FabPort) (k : Packet) (f : Session → State) : State :=
  if !packetOk k then s.malformed
  else match s.gate p k with
    | none => s.stranger p k
    | some x => if !k.tagOk then s.badTag x p else f x

/-- An ACK completes the operation whose message it names (R202). -/
def State.takeAck (s : State) (n : Nat) (x : Session) (k : Packet) : State :=
  let s1 := s.updSes n (fun x => { x with peerKeyEpoch := max x.peerKeyEpoch (bitsOf k.w3 0 32) })
  match x.tx.find? (fun m => m.msg == k.msg && m.answer.isNone) with
  | some m => s1.answerTx n m (BitVec.ofNat 8 (bitsOf k.w2 32 8)) (bitsOf k.w2 40 2) k.w6
  | none => s1

/-- The last moment at which credit of a RECEIPT may be spent: 5 µs before its expiry; GRANT_TTL from its arrival under the
unlocked rule (R206). -/
def State.creditEnd (s : State) (expiry : Nat) : Nat :=
  if expiry = 0 then s.time + 1000 * s.fld F.FAB_TIMER1.GRANT_TTL else expiry - 5000

/-- A RECEIPT: what has been received, the credit limit, the peer's paths and key epoch (R205, R214). Older ones are made
good by newer ones, never the reverse. -/
def State.takeReceipt (s : State) (n : Nat) (k : Packet) : State :=
  let cum := (bitsOf k.w2 0 32 + 1) % 2 ^ 32
  let limit := bitsOf k.w4 0 32
  (s.updSes n (fun x =>
    { x with
      cumAcked := max x.cumAcked cum
      unreceipted := x.unreceipted.filter (fun t =>
        !(decide (t.psn < cum) || (decide (cum ≤ t.psn) && decide (t.psn < cum + 64) && bit k.w3 (t.psn - cum))))
      creditLimit := max x.creditLimit limit
      lots := if x.creditLimit < limit then x.lots ++ [(limit, s.creditEnd k.w5.toNat)] else x.lots
      peerDown := bitsOf k.w6 0 4
      peerKeyEpoch := max x.peerKeyEpoch (bitsOf k.w6 32 32) })).pumpSes n |>.turns n |>.closeIfDone n

def execReceipt (p : FabPort) (pkt : Packet) (s : State) : Res :=
  s.rxRow 8 p pkt (s.rxCtl p pkt (fun _ => s.takeReceipt pkt.session pkt))

/-! ### Credit (R205 to R208) -/

/-- What a tenant's sessions may be granted now: nothing, READ_REQ credit alone, or all (R31, R208, R458, Table MOD-3). -/
inductive Granting where
  | none | reads | all
  deriving DecidableEq, Repr

def State.granting (s : State) (tenant : Nat) : Granting :=
  if !s.on F.FAB_CTL.ENABLE || s.pe.stopped || s.mirrorBacklog then .none
  else match s.mod.mode with
    | .restore | .serve | .solo | .service => .all
    | .drain => if s.mod.intakeClosed then .reads else .all
    | .halt => if tenant = 0 then .all else .none
    | _ => .none

/-- Credits a request needs: a WRITE's bytes; a whole grant's, rounded up to 4 KiB; one for any other packet. -/
def reqCredits (typ bytes : Nat) (whole : Bool) : Nat :=
  if whole then (bytes + 4095) / 4096 * 4 else if typ = 1 then creditsOf bytes else 1

/-- An extent waits for its reservation: XOPEN asks the twin for its part where the class may be D2 (R207, R236). -/
def State.reserveExtent (s : State) (n : Nat) (k : Packet) (bytes : Nat) : State :=
  match Tab.get s.regions k.region with
  | none => s
  | some r =>
    let cls := if r.sealed then Class.d3 else if r.floor = .d0 then .d0 else Class.max .d2 r.floor
    let asks := s.isHome r && s.needsXopen cls
    let e : Extent :=
      { region := k.region, dpa := r.base + k.offset, declared := bytes, arrived := [], got := 0, cls := cls,
        door := .fabric n k.msg false, opened := false, xopen := if asks then some s.phl.txNext else none, granted := false, sent := [] }
    let id := s.pst.nextExtent
    let s1 := { s with pst := { s.pst with extents := Tab.put s.pst.extents id e, nextExtent := id + 1 } }
    if asks then s1.sendFrame { Frame.mk0 6 with region := k.region, aux := (bytes + 4095) / 4096 } else s1

/-- A CREDIT_REQ is recorded for the grant engine. -/
def State.recordReq (s : State) (n : Nat) (k : Packet) (typ bytes : Nat) (whole : Bool) : State :=
  let s1 := s.updSes n (fun x => { x with requests := x.requests ++ [{ msg := k.msg, typ := typ, left := reqCredits typ bytes whole,
                                                                       whole := whole }] })
  if whole && (s.extentOf n k.msg).isNone then s1.reserveExtent n k bytes else s1

/-- A CREDIT_REQ: dropped, answered at once, or recorded. -/
def State.takeReq (s : State) (n : Nat) (x : Session) (k : Packet) : State :=
  let typ := bitsOf k.w2 32 4
  let bytes := bitsOf k.w2 40 24
  let whole := s.wantsWhole typ k.region
  if !(typ == 1 || typ == 2 || typ == 3 || typ == 5 || typ == 6 || typ == 10) then s.malformed
  else if x.isRetired k.msg then s.resendAck n k.msg
  else if s.haltRefuses x then (s.finishRx n (refusal k.msg ST.mode) none).turns n
  else if whole && decide (1048576 < bytes) then
    ((s.bump F.FAB_CNT3.VIOL_RIGHTS).finishRx n (refusal k.msg ST.length) none).turns n
  else if x.requests.any (fun r => r.msg == k.msg) then s
  else s.recordReq n k typ bytes whole

def execCreditReq (p : FabPort) (pkt : Packet) (s : State) : Res :=
  s.rxRow 9 p pkt (s.rxCtl p pkt (fun x => s.takeReq pkt.session x pkt))

/-- Up to `k` credits for the requests that `p` admits, oldest first: what is given, and what is left of the requests. -/
def giveCredits (p : CredReq → Bool) : Nat → List CredReq → Nat × List CredReq
  | _, [] => (0, [])
  | k, r :: l =>
    let g := if p r then min k r.left else 0
    let q := giveCredits p (k - g) l
    (g + q.1, if p r ∧ r.left = g then q.2 else { r with left := r.left - g } :: q.2)

def State.mayGive (s : State) (x : Session) (r : CredReq) : Bool :=
  !r.whole && (match s.granting x.tenant with
    | .all => true
    | .reads => r.typ == 3
    | .none => false)

/-- A grant of up to `k` credits of the pool to a session. -/
def State.grantTo (s : State) (n k : Nat) : State × Nat :=
  match s.ses n with
  | none => (s, 0)
  | some x =>
    let g := giveCredits (s.mayGive x) k x.requests
    if g.1 = 0 then (s, 0)
    else
      let gr : Grant := { credits := g.1, issued := s.time, readOnly := s.granting x.tenant == .reads, whole := none }
      ((s.updSes n (fun x => { x with
        requests := g.2, granted := x.granted + g.1, grants := x.grants ++ [gr], grantedAt := s.time })).countEvent
        0x022 g.1 none none, g.1)

/-- Sessions that may be granted credit, from the one whose turn it is (R205, R208). -/
def State.grantOrder (s : State) : List Nat :=
  let l := (s.fab.sessions.filter (fun e => (e.2.st == .open_ || e.2.st == .closing) && s.headroomOf e.2.tenant &&
    !e.2.requests.isEmpty)).map (·.1)
  l.filter (fun n => decide (s.fab.rr ≤ n)) ++ l.filter (fun n => decide (n < s.fab.rr))

/-- Whole grants whose reservation is held (R207). -/
def State.grantWhole (s : State) (n : Nat) : State :=
  match s.ses n with
  | none => s
  | some x =>
    let ready (r : CredReq) : Bool := r.whole && s.granting x.tenant == .all &&
      ((s.extentOf n r.msg).map (fun e => e.2.opened)).getD false
    let l := x.requests.filter ready
    if l.isEmpty then s
    else
      (s.updSes n (fun x => { x with
        requests := x.requests.filter (fun r => !ready r)
        granted := x.granted + sumOf (l.map (·.left)), grantedAt := s.time
        grants := x.grants ++ l.map (fun r => { credits := r.left, issued := s.time, readOnly := false, whole := some r.msg }) })).countEvent
          0x022 (sumOf (l.map (·.left))) none none

/-- One round: each tenant from its own reservation first, then unreserved credit, GRANT_QUANTUM a session (R205). -/
def State.grantRound (s : State) : State :=
  let order := s.grantOrder
  let q := s.fld F.FAB_CREDIT.GRANT_QUANTUM
  let s0 := order.foldl (fun s n => s.grantWhole n) s
  let one := order.foldl (fun (a : State × List (Nat × Nat)) n =>
    let g := a.1.grantTo n (min q (a.1.ownCredit (a.1.sesTenant n)))
    (g.1, a.2 ++ [(n, g.2)])) (s0, [])
  let two := one.2.foldl (fun s e => (s.grantTo e.1 (min (q - e.2) s.unreservedFree)).1) one.1
  two.updFab (fun f => { f with rr := match order with
    | n :: _ => n + 1
    | [] => f.rr })

def execGrantRound (s : State) : Res := when_ (s.running .fab) s s.grantRound

/-- A grant lapses: its credit returns to the pool, or its reservation is released (R206, R207). -/
def State.lapse (s : State) (n : Nat) (g : Grant) (keep : List Grant) : State :=
  let s1 := (s.updSes n (fun x => { x with grants := keep })).bumpBy F.FAB_CNT4.GRANT_LAPSED g.credits
  match g.whole with
  | some m => ((match s.extentOf n m with
      | some (_, e) => s1.dropXopen e ST.torn
      | none => s1)).closeExtent n m
  | none => s1

def execGrantExpiry (session : SessionNo) (msg : Option (BitVec 32)) (s : State) : Res :=
  let n := session.toNat
  match s.ses n with
  | none => .next s
  | some x =>
    let mine (g : Grant) : Bool := g.whole == msg.map (·.toNat)
    match x.grants.find? mine with
    | none => .next s
    | some g =>
      when_ (s.running .fab && !x.rx.any (fun m => some m.msg == g.whole)) s
        (s.lapse n g (x.grants.takeWhile (fun h => !mine h) ++ (x.grants.dropWhile (fun h => !mine h)).drop 1))

def execReceiptInterval (session : SessionNo) (s : State) : Res :=
  match s.ses session.toNat with
  | none => .next s
  | some x => when_ (s.running .fab && (x.st == .open_ || x.st == .closing)) s (s.sendReceipt session.toNat)

/-! ### Epochs (R183, Table FAB-7) -/

/-- OPEN or OPEN_ACK for an epoch: this device's packet size and the session's mode. -/
def State.sendOpen (s : State) (n typ epoch : Nat) : State :=
  match s.ses n with
  | none => s
  | some x => s.sendCtl n typ (w64 (epoch + 8192 / 2 ^ s.fld F.FAB_CTL.MAX_PAYLOAD * 2 ^ 32 + (if x.params.relaxed then 2 ^ 46 else 0)))
      0 0 0 0

/-- An open message of the peer fails with ST_TORN as the peer restarts: nobody is left to answer. -/
def State.tearSilently (s : State) (n : Nat) (m : RxMsg) : State :=
  (s.updSes n (fun x => { x with rx := x.rx.filter (fun r => r.msg != m.msg) })).undo n m |>.bump F.FAB_CNT3.TORN_MSGS

/-- Messages waiting to be sent, numbered from 0 at a packet size. -/
def renumber (psize : Nat) : Nat → List TxMsg → List TxMsg
  | _, [] => []
  | i, m :: l => { m with msg := i, count := m.packets psize, sent := 0, asked := false } :: renumber psize (i + 1) l

/-- The session's transport state as an epoch starts from nothing; its keys are derived afresh when next needed. -/
def Session.restart (x : Session) (epoch psize : Nat) : Session :=
  { x with
    st := .open_, keys := none, epoch := epoch, proposed := none, psize := psize, psnNext := 0, ctlNext := 0, msgNext := x.tx.length,
    cumAcked := 0, creditLimit := 0, creditUsed := 0, lots := [], tx := renumber psize 0 x.tx, unreceipted := [], replies := [], cum := 0,
    sack := [], granted := 0, grants := [], requests := [], rx := [], rxBase := 0, retired := [], acks := [], torn := [], outcomes := [],
    kept := [], missed := [], sinceReceipt := 0, parked := [], stalled := false, probing := [], closeSeen := false, rekeyedAt := none }

/-- The keys of a session whose context is resident are those of its epoch (R345). -/
def State.rekeyed (s : State) (n : Nat) : State := if s.fab.resident.contains (2 * n) then s.loadKeys n else s

/-- A twin session opens while PH0 is down: the LINK_ID of that bring-up is still to come, and this device's goes out (R225). -/
def State.twinOpened (s : State) (n : Nat) : State :=
  match s.ses n with
  | some x =>
    if s.isTwinSes x && !s.phl.ph0.up && s.on F.PHL_FB_CTL.FB_ENABLE &&
        s.running .phl then
      ({ s with phl := { s.phl with linkIdSeen := false } }).sendLinkId .fallback
    else s
  | none => s

/-- An epoch begins anew: open messages of the peer are torn, grants are void. -/
def State.startEpoch (s : State) (n epoch size : Nat) : State :=
  match s.ses n with
  | none => s
  | some x =>
    let s1 := x.rx.foldl (fun s m => s.tearSilently n m) s
    let s2 := x.requests.foldl (fun s r => if r.whole then s.closeExtent n r.msg else s) s1
    ((s2.updSes n (fun x => x.restart epoch (min size (8192 / 2 ^ s.fld F.FAB_CTL.MAX_PAYLOAD)))).rekeyed n).twinOpened n

/-- The packet with another PSN. -/
def Packet.withPsn (k : Packet) (psn : Nat) : Packet := { k with w1 := setBits k.w1 32 32 psn }

/-- A rekey: windows restart, packets not receipted go out again under new PSNs, all else carries over (R183). -/
def State.rekeyTo (s : State) (n epoch : Nat) : State :=
  match s.ses n with
  | none => s
  | some x =>
    let l := (x.unreceipted.zip (List.range x.unreceipted.length)).map (fun e =>
      { e.1 with psn := e.2, retries := 0, pkt := Packet.withPsn e.1.pkt e.2 })
    let s1 := s.updSes n (fun x => { x with
      epoch := epoch, keys := none, proposed := none, psnNext := l.length, ctlNext := 0, cumAcked := 0, unreceipted := l, cum := 0,
      sack := [], kept := [], missed := [], sinceReceipt := 0, rekeyedAt := some s.time,
      rx := x.rx.map (fun m => { m with psn0 := none }) })
    ((l.foldl (fun s t => s.resend n t) (s1.rekeyed n)).pumpSes n).turns n

/-- Firmware's control queue takes the packet (R193). -/
def State.ctrlTakes (s : State) (node : Nat) : Bool :=
  let sec := s.time / 1000000000
  let count (k : Nat) : Nat := match Tab.get s.fab.ctrl k with
    | some (t, c) => if t = sec then c else 0
    | none => 0
  decide (count node < 16) && decide (count (2 ^ 18) < 10000)

def State.ctrlCount (s : State) (node : Nat) : State :=
  let sec := s.time / 1000000000
  let put (t : Tab (Nat × Nat)) (k : Nat) : Tab (Nat × Nat) :=
    Tab.put t k (match Tab.get t k with
      | some (u, c) => if u = sec then (sec, c + 1) else (sec, 1)
      | none => (sec, 1))
  s.updFab (fun f => { f with ctrl := put (put f.ctrl node) (2 ^ 18) })

/-- Keys of a session can be derived: between AS9640s, only once the fabric root is fused (R339). -/
def State.keyable (s : State) (x : Session) : Bool := x.params.host || s.cip.fabricRoot.isSome

/-- Firmware handles an OPEN (Table FAB-7). -/
def State.openReceived (s : State) (n : Nat) (k : Packet) : State :=
  let e := bitsOf k.w2 0 32
  let size := bitsOf k.w2 32 14
  match s.ses n with
  | none => s
  | some x =>
    if !s.keyable x then s
    else match x.st with
    | .closing => s
    | .ready | .failed => ((s.startEpoch n e size).sendOpen n 13 e).pumpSes n
    | .open_ =>
      if e = x.epoch then s.sendOpen n 13 e
      else if e = x.epoch + 1 then (s.rekeyTo n e).sendOpen n 13 e
      else (((s.timeoutAll n).startEpoch n e size).sendOpen n 13 e).pumpSes n

/-- Firmware handles an OPEN_ACK: it confirms the epoch this side proposed. -/
def State.ackReceived (s : State) (n : Nat) (k : Packet) : State :=
  let e := bitsOf k.w2 0 32
  match s.ses n with
  | none => s
  | some x =>
    if x.proposed ≠ some e then s
    else match x.st with
      | .ready | .failed => (s.startEpoch n e (bitsOf k.w2 32 14)).pumpSes n
      | .open_ => s.rekeyTo n e
      | .closing => s

/-- CLOSE is sent, and nothing new starts. -/
def State.closeSession (s : State) (n : Nat) : State :=
  ((s.sendCtl n 14 0 0 0 0 0).updSes n (fun x => { x with st := .closing })).closeIfDone n

/-- The peer's CLOSE: this end closes too; it counts towards the end of a session that is closing (Table FAB-7). -/
def State.closeReceived (s : State) (n : Nat) : State :=
  match s.ses n with
  | none => s
  | some x =>
    let s1 := s.updSes n (fun x => { x with closeSeen := true })
    match x.st with
    | .open_ => s1.closeSession n
    | .closing => s1.closeIfDone n
    | _ => s

/-- Firmware handles a packet of its control queue; one for no session of this device is ignored. -/
def State.handleCtrl (s : State) (k : Packet) : State :=
  match k.typ with
  | 12 => s.openReceived k.session k
  | 13 => s.ackReceived k.session k
  | _ => s.closeReceived k.session

/-- Firmware handles what waits in its control queue, oldest first; not during a handover (R496). -/
def State.drainCtrl (s : State) : State :=
  if s.running .ctl && s.svc.proc != 1 then s.fab.ctrlQueue.foldl (fun t e => t.handleCtrl e.2) (s.updFab (fun f => { f with ctrlQueue := [] })) else s

/-- OPEN, OPEN_ACK and CLOSE go to firmware through a queue of 4,096 entries, which it takes from while CTL runs (R193). -/
def State.toFirmware (s : State) (p : FabPort) (k : Packet) : State :=
  if s.ctrlTakes k.src && decide (s.fab.ctrlQueue.length < 4096) then
    ((s.ctrlCount k.src).updFab (fun f => { f with ctrlQueue := f.ctrlQueue ++ [(p, k)] })).drainCtrl
  else s.bump F.FAB_CNT5.CTRL_DROPS

/-- An OPEN of a node that is a member reaches firmware; one for no session of this device is ignored there. -/
def State.rxOpen (s : State) (p : FabPort) (k : Packet) : State :=
  if !packetOk k then s.malformed
  else if !(s.isMember k.src && k.dst == s.node) then s.stranger p k
  else match s.ses k.session with
    | none => s.toFirmware p k
    | some _ => s.rxCtl p k (fun _ => s.toFirmware p k)

def execOpen (p : FabPort) (pkt : Packet) (s : State) : Res := s.rxRow 12 p pkt (s.rxOpen p pkt)

def execOpenAck (p : FabPort) (pkt : Packet) (s : State) : Res := s.rxRow 13 p pkt (s.rxCtl p pkt (fun _ => s.toFirmware p pkt))

def execClose (p : FabPort) (pkt : Packet) (s : State) : Res := s.rxRow 14 p pkt (s.rxCtl p pkt (fun _ => s.toFirmware p pkt))

/-- R183: the PSN or the control counter is about to wrap and everything sent is receipted: OPEN for the next epoch. -/
def execRekey (session : SessionNo) (s : State) : Res :=
  let n := session.toNat
  match s.ses n with
  | none => .next s
  | some x =>
    when_ (s.running .fab && x.st == .open_ && x.unreceipted.isEmpty && (decide (2 ^ 32 ≤ x.psnNext) || decide (2 ^ 32 - 1 ≤ x.ctlNext)))
      s ((s.updSes n (fun x => { x with proposed := some (x.epoch + 1) })).sendOpen n 12 (x.epoch + 1))

/-- Firmware proposes an epoch of its own choosing: a free value (notes/assumptions/1.md). -/
def State.propose (s : State) (n : Nat) : State :=
  match s.ses n with
  | none => s
  | some x =>
    if !s.keyable x then s
    else
      let e := s.freeVal.toNat % 2 ^ 32
      ((s.drawFree).updSes n (fun x => { x with proposed := some e })).sendOpen n 12 e

def execSessionReopen (session : SessionNo) (s : State) : Res :=
  match s.ses session.toNat with
  | none => .next s
  | some x => when_ (s.running .ctl && s.running .fab && (x.st == .failed || x.st == .ready)) s (s.propose session.toNat)

/-! ### Retransmission and failure -/

/-- The session fails: its operations complete with ST_TIMEOUT (Table FAB-7). -/
def State.failSession (s : State) (n : Nat) : State :=
  ((s.timeoutAll n).updSes n (fun x => { x with st := .failed, proposed := none })).bump F.FAB_CNT4.SESSION_FAILS
    |>.record sevWarn .fab 3 48 n Addr.FAB_CNT4

def State.retransmit (s : State) (n : Nat) (t : TxPkt) : State :=
  if s.fld F.FAB_TIMER0.MAX_RETRY ≤ t.retries ∧ ((s.ses n).map (·.st)) = some .open_ then s.failSession n
  else (s.resend n t).updSes n (fun x => { x with
    unreceipted := updAll (fun q => q.psn == t.psn) (fun q => { q with retries := q.retries + 1 }) x.unreceipted })

def execRetransmit (session : SessionNo) (psn : BitVec 32) (s : State) : Res :=
  let n := session.toNat
  match (s.ses n).bind (fun x => x.unreceipted.find? (fun t => t.psn == psn.toNat)) with
  | none => .next s
  | some t => when_ (s.running .fab) s (s.retransmit n t)

def execSessionDead (session : SessionNo) (s : State) : Res :=
  match s.ses session.toNat with
  | none => .next s
  | some x => when_ (s.running .fab && x.st == .open_ && !x.tx.isEmpty) s (s.failSession session.toNat)

/-- R202: no ACK within MSG_LIFETIME of the message's first packet. -/
def execMsgLifetimeTimeout (session : SessionNo) (msg : BitVec 32) (s : State) : Res :=
  let n := session.toNat
  match (s.ses n).bind (fun x => x.tx.find? (fun m => m.msg == msg.toNat && m.answer.isNone && decide (0 < m.sent))) with
  | none => .next s
  | some m => when_ (s.running .fab) s ((s.opDone m.cmd m.op (OpDone.err ST.timeout)).dropTx n m.msg)

/-! ### Paths, probes and links -/

/-- Errors in the sliding window stayed below SUSPECT_THR for a whole window up to now: at its start, and at each error since (Table
FAB-12). -/
def State.cleanWindow (s : State) (p : PathState) : Bool :=
  let w := 100000 * s.fld F.FAB_PATH_CTL.WINDOW
  ((s.time - w) :: p.errors.filter (fun e => decide (s.time < e + w))).all (fun t =>
    decide (s.errorsAt p t < s.fld F.FAB_PATH_CTL.SUSPECT_THR))

def execPathWindow (p : FabPort) (s : State) : Res :=
  when_ (s.running .fab && (s.path p).st == 1 && s.cleanWindow (s.path p)) s
    ((s.setPath p (fun x => { x with st := 0 })).recState sevNotice .fab (F.FAB_PATH_STATUS.STATE p.idx))

/-- A PROBE on one port, with its timestamp. -/
def State.sendProbe (s : State) (n : Nat) (x : Session) (p : FabPort) (stamp : BitVec 64) : State :=
  if 2 ^ 32 - 1 ≤ x.ctlNext then s
  else (s.emit (.aft2 p (s.datagram x p (s.ctlPacket x 11 0 0 0 stamp 0)))).updSes n (fun x => { x with ctlNext := x.ctlNext + 1 })

/-- A PROBE is the echo of one of this device's, or is echoed on the same plane (R218). -/
def State.takeProbe (s : State) (n : Nat) (x : Session) (p : FabPort) (k : Packet) : State :=
  let stamp := k.w5.toNat
  if x.probing.contains (p, stamp) then
    (s.updSes n (fun x => { x with probing := x.probing.filter (· != (p, stamp)) })).setPath p
      (fun q => { q with rtt := min (2 ^ 24 - 1) (s.time - stamp) })
  else s.sendProbe n x p k.w5

def execProbe (p : FabPort) (pkt : Packet) (s : State) : Res :=
  s.rxRow 11 p pkt (s.rxCtl p pkt (fun x => s.takeProbe pkt.session x p pkt))

def execProbeInt (session : SessionNo) (p : FabPort) (s : State) : Res :=
  let n := session.toNat
  match s.ses n with
  | none => .next s
  | some x =>
    when_ (s.fabUp p && x.params.probe && x.st == .open_ &&
        (p.pair == x.pairNow || p.pair == x.params.pair.toNat)) s
      ((s.updSes n (fun x => { x with probing := x.probing ++ [(p, s.time)] })).sendProbe n x p (w64 s.time))

/-- A FAILED path returns to UP. The sessions of the other pair, should that be down, move to this one (R219). -/
def State.returnPath (s : State) (p : FabPort) : State :=
  if (s.path p).st = 2 then
    let s1 := (s.setPath p (fun x => { x with st := 0, errors := [] })).recState sevNotice .fab (F.FAB_PATH_STATUS.STATE p.idx)
    if s.pairDown p.pair && s.pairDown (1 - p.pair) then s1.movePair (1 - p.pair) else s1
  else s

def execPathReturnTime (p : FabPort) (s : State) : Res :=
  when_ (s.running .fab && s.on F.FAB_CTL.AUTO_RETURN && (s.path p).link) s (s.returnPath p)

def State.linkLost (s : State) (p : FabPort) : State :=
  let s1 := s.setPath p (fun x => { x with link := false })
  if (s.path p).st ≤ 1 then s1.failPath p (some sevError) else s1

def execFabricLinkDown (p : FabPort) (s : State) : Res := when_ (s.running .fab && (s.path p).link) s (s.linkLost p)

/-- R178: a member that trains at a rate other than its partner's is held down. -/
def State.linkTrained (s : State) (p : FabPort) (rate : Nat) : State :=
  let q := s.path p.partner
  if q.link ∧ q.rate ≠ rate then
    (s.setPath p (fun x => { x with held := true, rate := rate })).recFlag sevError .fab F.FAB_ERR.RATE_MISMATCH p.idx
  else s.setPath p (fun x => { x with link := true, held := false, rate := rate })

def execFabricLinkTrained (p : FabPort) (rate : BitVec 2) (s : State) : Res :=
  when_ (s.running .fab && s.on F.FAB_CTL.ENABLE && s.lanesTrained 4 p.idx) s (s.linkTrained p rate.toNat)

/-- FAB_PATH_CTL.OFF of a port is written (Table FAB-12). -/
def State.pathOff (s : State) (p : FabPort) (off : Bool) : State :=
  let s1 := s.setFld ⟨Addr.FAB_PATH_CTL, p.idx, 1⟩ (b2n off)
  if off ∧ (s.path p).st ≠ 3 then
    ((s1.setPath p (fun x => { x with st := 3 })).recState sevNotice .fab (F.FAB_PATH_STATUS.STATE p.idx)).checkPair (s.pairDown p.pair) p.pair
  else if !off ∧ (s.path p).st = 3 then s1.failPath p none
  else s1

def execFabPathOff (p : FabPort) (off : Bool) (s : State) : Res := when_ (s.running .fab) s (s.pathOff p off)

def execReturn (p : FabPort) (s : State) : Res := when_ (s.running .fab) s (s.returnPath p)

/-- No valid copy for 10 × PROBE_INT while the partner delivers (Table FAB-12). -/
def execNoValidCopy (p : FabPort) (s : State) : Res :=
  when_ (s.running .fab && decide ((s.path p).st ≤ 1) && s.pathSends p.partner) s (s.failPath p (some sevError))

/-- FAB_CTL.ENABLE is cleared: no grant is made, and the links drop (Table FAB-1, FAB_CTL). -/
def State.fabDisable (s : State) : State :=
  [FabPort.fa0, .fb0, .fa1, .fb1].foldl (fun s p => s.setPath p (fun x => { x with link := false, held := false })) s

/-! ### Time and other frames (R177, R179) -/

/-- Firmware's Delay_Req in the default profile, with its two-step transmit timestamp; one for each event message received (DESIGN CHOICE,
notes/assumptions/94.md). -/
def State.delayReq (s : State) (p : FabPort) (seq : Nat) : State :=
  if s.running .ctl then (s.emit (.ptp p seq)).updFab (fun f => { f with txStamps := (p.idx, seq, s.time) :: f.txStamps }) else s

def execPtpEventMessage (p : FabPort) (seq : BitVec 16) (s : State) : Res :=
  when_ (s.fabUp p) s ((s.updFab (fun f => { f with stamps := (p.idx, seq.toNat, s.time) :: f.stamps })).delayReq p seq.toNat)

def execPtpLock (s : State) : Res := when_ (s.running .ctl) s (s.updFab (fun f => { f with ptpLocked := true }))

/-- A frame that fails FEC or FCS is dropped by the MAC; one that fails step 2 is counted (R191). -/
def execMalformedFrame (p : FabPort) (atMac : Bool) (s : State) : Res := when_ (s.fabUp p) s (if atMac then s else s.malformed)

def execPausePfcFrame (p : FabPort) (s : State) : Res := when_ (s.fabUp p) s (s.bump F.FAB_CNT5.PAUSE_RX)

def execNeighbourDiscovery (p : FabPort) (asker : BitVec 128) (s : State) : Res :=
  when_ (s.fabUp p && s.running .ctl) s (s.emit (.neighbour p asker))

/-! ### Management requests (R185 to R187, Table REG-5) -/

/-- The status of a SESSION_CREATE (Table FAB-5). -/
def State.sessionStatus (s : State) (a : SessionParams) : Option Status :=
  let pair := a.pair.toNat
  firstSome
    [ failIf (s.ses a.session.toNat).isSome ST.busy,
      failIf (!Tab.has s.tenants a.tenant.toNat) ST.rights,
      failIf (!s.contextFree a.tenant.toNat) ST.busy,
      failIf (!s.isMember a.peerNode.toNat) ST.bounds,
      failIf (decide (2 ^ 20 ≤ a.peerSession.toNat)) ST.bounds,
      failIf (decide (2 ≤ pair)) ST.fault,
      failIf (a.probe && decide (64 ≤ (s.fab.sessions.filter (fun e => e.2.params.probe && e.2.params.pair == a.pair)).length)) ST.busy,
      failIf (decide (a.entropy.toNat < 0xC000)) ST.fault,
      failIf (decide (8 < a.ring.length)) ST.length ]

def mkSession (a : SessionParams) (psize : Nat) : Session :=
  { params := a, secret := [], keys := none, st := .ready, epoch := 0, proposed := none, psize := psize, lastFar := 0, peerKeyEpoch := 0,
    pairNow := a.pair.toNat, psnNext := 0, ctlNext := 0, msgNext := 0, cumAcked := 0, creditLimit := 0, creditUsed := 0, lots := [],
    peerDown := 0, tx := [], unreceipted := [], replies := [], closeSeen := false, rekeyedAt := none, cum := 0, sack := [], granted := 0,
    grants := [], grantedAt := 0, requests := [], rx := [], rxBase := 0, retired := [], acks := [], torn := [], outcomes := [], kept := [],
    missed := [], sinceReceipt := 0, parked := [], stalled := false, probing := [] }

/-- The parameters as a SESSION frame carries them: the fields of Table FAB-5 in its order, little-endian. -/
def ringBytes (k : RingKey) : List Byte :=
  leBytes 2 k.region.toNat ++ leBytes 4 k.key.toNat ++ leBytes 6 k.offset.toNat ++ leBytes 6 k.len.toNat ++ leBytes 1 k.rights.toNat ++
  leBytes 4 k.expiry.toNat

def sessionBytes (a : SessionParams) : List Byte :=
  leBytes 4 a.session.toNat ++ leBytes 2 a.tenant.toNat ++ leBytes 4 a.peerNode.toNat ++ leBytes 4 a.peerSession.toNat ++
  leBytes 16 a.addrA.toNat ++ leBytes 16 a.addrB.toNat ++ leBytes 1 a.pair.toNat ++ leBytes 1 (b2n a.relaxed) ++ leBytes 1 (b2n a.host) ++
  leBytes 1 (b2n a.probe) ++ leBytes 2 a.entropy.toNat ++ leBytes 1 a.ring.length ++ (a.ring.map ringBytes).flatten

/-- The session definition goes into the mirrored metadata, a host endpoint's wrapped secret with it (R185, R187). -/
def State.mirrorSession (s : State) (a : SessionParams) : State :=
  s.mirrorMeta 0 (sessionBytes a ++ (Tab.get s.fab.secrets a.session.toNat).getD [])

/-- The wrapping key of host-endpoint secrets (purpose 0x05, Table CIP-6). -/
def wrapKey : List Byte := kdf (beBytes 32 Config.storageRoot.toNat) (keyLabel 0x05 0 0 0 0) 1 []

/-- A secret as it is kept with the definition: IV, ciphertext and tag. The IV is the key's salt and a number drawn for it (DESIGN CHOICE,
notes/assumptions/95.md). -/
def wrapSecret (iv : Word) (secret : List Byte) : List Byte :=
  let c := gcmSeal (wrapKey.take 32) ((wrapKey.drop 32).take 4 ++ leBytes 8 iv.toNat) [] secret
  leBytes 8 iv.toNat ++ c.1 ++ c.2

def unwrapSecret (b : List Byte) : List Byte :=
  (gcmOpen (wrapKey.take 32) ((wrapKey.drop 32).take 4 ++ b.take 8) [] ((b.drop 8).take 32) (b.drop 40)).getD []

/-- A session in READY, with its secret: a host endpoint's is unwrapped from where it is kept (R185). -/
def State.freshSession (s : State) (a : SessionParams) : Session :=
  { mkSession a (8192 / 2 ^ s.fld F.FAB_CTL.MAX_PAYLOAD) with
    secret := if a.host then unwrapSecret ((Tab.get s.fab.secrets a.session.toNat).getD []) else s.poolSecret a }

def State.putSession (s : State) (a : SessionParams) : State :=
  let x := s.freshSession a
  s.updFab (fun f => { f with
    sessions := Tab.put f.sessions a.session.toNat x, defs := f.defs.filter (fun d => d.session != a.session) ++ [a] })

/-- 256 random bits: the secret of a host endpoint (R185). -/
def State.drawSecret (s : State) : State × List Byte :=
  let s1 := s.drawFree
  let s2 := s1.drawFree
  let s3 := s2.drawFree
  (s3.drawFree, leBytes 8 s.freeVal.toNat ++ leBytes 8 s1.freeVal.toNat ++ leBytes 8 s2.freeVal.toNat ++ leBytes 8 s3.freeVal.toNat)

def State.createSession (s : State) (path : Path) (a : SessionParams) : State :=
  match s.sessionStatus a with
  | some st => s.emit (.result path st [])
  | none =>
    if a.host then
      let d := s.drawSecret
      let s1 := (d.1.drawFree).updFab (fun f => { f with secrets := Tab.put f.secrets a.session.toNat (wrapSecret d.1.freeVal d.2) })
      ((((s1.putSession a).updSes a.session.toNat (fun x => { x with secret := d.2 })).mirrorSession a).emit (.result path ST.ok d.2)).propose
        a.session.toNat
    else (((s.putSession a).mirrorSession a).emit (.result path ST.ok [])).propose a.session.toNat

/-- A management request while CTL does not run completes with ST_MODE (R517). -/
def State.request_ (s : State) (path : Path) (t : State) : Res :=
  .next (if s.running .ctl then t else s.emit (.result path ST.mode []))

def execSessionCreate (path : Path) (params : SessionParams) (s : State) : Res :=
  s.onCtl (.sessionCreate path params) (s.request_ path (s.createSession path params))

/-- The definition of a session goes, here and on the twin (R187). -/
def State.dropDef (s : State) (n : Nat) : State :=
  (s.updFab (fun f => { f with defs := f.defs.filter (fun d => d.session.toNat != n), secrets := Tab.del f.secrets n })).mirrorMeta 1
    (leBytes 4 n)

/-- SESSION_DESTROY (Table FAB-7); a session in state FREE answers ST_BOUNDS, with no effect (R517, Table REG-5). -/
def State.destroySession (s : State) (path : Path) (n : Nat) : State :=
  match s.ses n with
  | none => s.emit (.result path ST.bounds [])
  | some x =>
    (match x.st with
     | .open_ => (s.dropDef n).closeSession n
     | .closing => s.dropDef n
     | .ready | .failed => (s.timeoutAll n).freeSession n).emit (.result path ST.ok [])

def execSessionDestroy (path : Path) (session : SessionNo) (s : State) : Res :=
  s.onCtl (.sessionDestroy path session) (s.request_ path (s.destroySession path session.toNat))

/-! ### Access keys (R194) -/

def State.keyStatus (s : State) (st : Status) : State := s.setFld F.FAB_KEY_CMD.STATUS st.toNat

/-- The entry the DATA registers describe. -/
def State.keyData (s : State) (tag : Nat) : KeyEnt :=
  { used := true, tag := tag, region := s.fld F.FAB_KEY_DATA0.REGION, offset := s.fld F.FAB_KEY_DATA1.OFFSET,
    len := s.fld F.FAB_KEY_DATA2.LENGTH, rights := s.fld F.FAB_KEY_DATA0.RIGHTS, expiry := s.fld F.FAB_KEY_DATA0.EXPIRY,
    any := s.on F.FAB_KEY_DATA0.ANY_SESSION, session := s.fld F.FAB_KEY_DATA1.SESSION }

def keyRoom : Nat := 2 ^ 18

/-- The lowest free index, and the tag it takes. -/
def State.freeKey (s : State) : Nat × Nat :=
  let used := (s.fab.keys.filter (fun e => e.2.used)).map (·.1)
  let i := skipOver used used.length 0
  (i, match Tab.get s.fab.keys i with
    | some e => (e.tag + 1) % 2 ^ 14
    | none => 0)

def State.keyRefused (s : State) (e : KeyEnt) : Option Status :=
  match Tab.get s.regions e.region with
  | none => some ST.bounds
  | some r =>
    firstSome
      [ failIf (e.len == 0 || decide (r.len < e.offset + e.len)) ST.bounds,
        failIf (decide (keyRoom ≤ (s.freeKey).1)) ST.busy,
        failIf ((!e.any && s.sesTenant e.session != r.tenant) || !hasRights (bitsOf r.grant 0 4) e.rights) ST.rights ]

def State.keyCreate (s : State) : State :=
  let k := s.freeKey
  let e := s.keyData k.2
  match s.keyRefused e with
  | some st => if st = ST.busy then (s.keyStatus st).flag F.FAB_ERR.KEY_FULL else s.keyStatus st
  | none =>
    (((s.updFab (fun f => { f with keys := Tab.put f.keys k.1 e })).keyStatus ST.ok).setFld F.FAB_KEY_CMD.INDEX k.1).setFld
      F.FAB_KEY_CMD.KEY (k.1 + k.2 * 2 ^ 18)

def execKeyCreate (s : State) : Res := when_ (s.running .fab) s s.keyCreate

/-- The entry in use at an index. -/
def State.usedKey (s : State) (i : Nat) : Option KeyEnt := (Tab.get s.fab.keys i).filter (·.used)

def State.keyRevoke (s : State) (i : Nat) : State :=
  let s0 := s.setFld F.FAB_KEY_CMD.INDEX i
  match s.usedKey i with
  | none => s0.keyStatus ST.key
  | some e => (s0.updFab (fun f => { f with keys := Tab.put f.keys i { e with used := false } })).keyStatus ST.ok

def execKeyRevoke (index : BitVec 18) (s : State) : Res := when_ (s.running .fab) s (s.keyRevoke index.toNat)

def State.keyRead (s : State) (i : Nat) : State :=
  let s0 := s.setFld F.FAB_KEY_CMD.INDEX i
  match s.usedKey i with
  | none => s0.keyStatus ST.key
  | some e =>
    let s1 := (((s0.setFld F.FAB_KEY_DATA0.REGION e.region).setFld F.FAB_KEY_DATA0.ANY_SESSION (b2n e.any)).setFld
      F.FAB_KEY_DATA0.RIGHTS e.rights).setFld F.FAB_KEY_DATA0.EXPIRY e.expiry
    let s2 := ((s1.setFld F.FAB_KEY_DATA1.OFFSET e.offset).setFld F.FAB_KEY_DATA1.SESSION e.session).setFld F.FAB_KEY_DATA2.LENGTH e.len
    (s2.keyStatus ST.ok).setFld F.FAB_KEY_CMD.KEY (i + e.tag * 2 ^ 18)

def execKeyRead (index : BitVec 18) (s : State) : Res := when_ (s.running .fab) s (s.keyRead index.toNat)

end Sys2Proof.Machine
end

