-- ==== Sys2Proof/Machine/ModeCore.lean ====
section
/-! DEFINITION. Mode changes that follow the twin state (16_operating_modes, Table MOD-2), and what every change of mode
does (R456). -/

namespace Sys2Proof.Machine

def State.updMod (s : State) (f : ModState → ModState) : State := { s with mod := f s.mod }

def State.updDst (s : State) (f : DstState → DstState) : State := { s with dst := f s.dst }

/-- Entries to SOLO and HALT are counted. -/
def State.countMode (s : State) : Mode → State
  | .solo => s.bump F.MOD_CNT0.SOLO_ENTRIES
  | .halt => s.bump F.MOD_CNT0.HALT_ENTRIES
  | _ => s

/-- The mode changes: MOD_STATUS.PREV_MODE, MOD_ENTER_TIME, the record (R456). -/
def State.toMode (s : State) (m : Mode) (sev : Nat) : State :=
  ((s.updMod (fun x => { x with mode := m, prev := x.mode, enteredAt := s.time, intakeClosed := false, haltHeld := false,
                                resumed := false })).countMode m).recState sev .ctl F.MOD_STATUS.MODE

/-- SAVE and HALT end what is lent without notice (R322). -/
def State.endLent (s : State) : State := { s with tir := { s.tir with loansOut := [] } }

/-- HALT with its cause: 1 a command, 2 a drain, 3 a lease loss (R459). -/
def State.toHalt (s : State) (cause sev : Nat) : State := ((s.updMod (fun x => { x with haltCause := cause })).endLent).toMode .halt sev

/-- SERVE or SOLO by twin state. -/
def State.serveOrSolo (s : State) : Mode :=
  match s.phl.twin with
  | .alone | .absent | .resyncOut => .solo
  | _ => .serve

/-- Firmware re-creates every session of the kept definitions in READY at the end of restore (R187). -/
def State.recreateSessions (s : State) : State :=
  s.fab.defs.foldl (fun t a => if Tab.has t.fab.sessions a.session.toNat then t
    else t.updFab (fun f => { f with sessions := Tab.put f.sessions a.session.toNat (t.freshSession a) })) s

/-- RESTORE is over: the sessions are there again (R187), and a test that a power failure cut short is told of (R269). -/
def State.endRestore (s : State) : State :=
  let s1 := s.recreateSessions
  let s2 := if s1.dst.testCut then (s1.updDst (fun d => { d with testCut := false })).record sevNotice .dst 3 48 0 Addr.DST_CNT0 else s1
  s2.toMode s.serveOrSolo sevNotice

/-- The transition of Table MOD-2 that the twin state and the pages left to restore now call for. -/
def State.settleMode (s : State) : State :=
  match s.mod.mode, s.phl.twin with
  | .restore, .lost => s.toHalt 3 sevError
  | .serve, .lost => s.toHalt 3 sevError
  | .solo, .lost => s.toHalt 3 sevError
  | .drain, .lost => s.toHalt 3 sevError
  | .service, .lost => s.toHalt 3 sevError
  | .halt, .resyncIn => s.toMode .restore sevNotice
  | .halt, .paired => if s.mod.resumed then s.toMode .serve sevNotice else s
  | .halt, .fallback => if s.mod.resumed then s.toMode .serve sevNotice else s
  | .halt, .alone => if s.mod.resumed then s.toMode .solo sevNotice else s
  | .halt, .resyncOut => if s.mod.resumed then s.toMode .solo sevNotice else s
  | .serve, .alone => s.toMode .solo sevWarn
  | .solo, .paired => s.toMode .serve sevNotice
  | .restore, .resyncIn => s
  | .restore, .linking => s
  | .restore, .unconfirmed => s
  | .restore, _ => if s.unrestoredPages.isEmpty then s.endRestore else s
  | _, _ => s

/-- The twin state changes, with its record (Table TWN-9), and the mode follows. -/
def State.setTwin (s : State) (t : Twin) (sev : Nat) : State :=
  ((s.updPhl (fun x => { x with twin := t })).recState sev .phl F.PHL_STATUS.TWIN_STATE).settleMode

/-- Extents that have not taken their position fail with a status: a strand's instruction completes so, a fabric message
is answered so. -/
def State.failExtents (s : State) (p : Extent → Bool) (st : Status) : State :=
  (s.pst.extents.filter (fun e => p e.2)).foldl (fun t e =>
    let t1 := { t with pst := { t.pst with extents := Tab.del t.pst.extents e.1 } }.refused st
    match e.2.door with
    | .strand c op => t1.opDone c op (OpDone.err st)
    | .fabric n msg _ =>
      (t1.finishRx n { refusal msg st with torn := false } none).turns n
    | _ => t1) s

/-- Records that have no position yet fail with a status. -/
def State.failItems (s : State) (st : Status) : State :=
  s.cip.logs.foldl (fun t e => (e.2.items.filter (fun x => x.unit.isNone)).foldl (fun t it =>
    let t1 := (t.dropItem e.1 it.id).refused st
    match it.door with
    | .strand c op => t1.opDone c op (OpDone.err st)
    | .fabric n msg _ => (t1.finishRx n { refusal msg st with torn := false } none).turns n
    | _ => t1) t) s

/-- R67: the device halts, its twin serving or about to. What it sent without an acknowledgement stays in doubt until the
twins link again; everything else that has not committed fails with ST_NOMIRROR (R240). -/
def State.yieldUnits (s : State) : State :=
  let sent (u : CUnit) : Bool := u.msn.isSome && !u.forwarded && !s.phl.txWait.any (fun f => some f.msn == u.msn)
  let open_ := s.pst.units.filter (fun u => !u.committed)
  let s1 := s.failAll (open_.filter (fun u => !sent u)) ST.nomirror
  let s2 := s1.setUnits (s1.pst.units.map (fun u => if !u.committed && sent u then { u with inDoubt := true } else u))
  ((s2.failExtents (fun _ => true) ST.nomirror).failItems ST.nomirror).serveReads

/-- No frame is outstanding, in either direction. -/
def PhlState.quiet (x : PhlState) : PhlState := { x with unacked := [], txWait := [], stalled := false, sentAt := [], fwdParts := [], rxHeld := [], hmapOut := [], changeIn := [] }

/-- LOST: the lease is given up, the units are settled, HALT is entered (R249, R459). -/
def State.enterLost (s : State) (byCommand : Bool) (cause sev : Nat) : State :=
  let s1 := (s.yieldUnits).updPhl (fun x =>
    { x.quiet with twin := .lost, primary := false, leaseRunning := false, guardPassed := false, linkIdSeen := false,
                   lostByCommand := byCommand })
  let s2 := { s1 with pst := { s1.pst with xreqs := [] } }.recState sev .phl F.PHL_STATUS.TWIN_STATE
  (if s2.mod.mode = .halt then s2 else s2.toHalt cause (if byCommand then sevNotice else sevError)).settleTwinWait.runHmaps

end Sys2Proof.Machine
end

