-- ==== Sys2Proof/Machine/Frames.lean ====
section
/-! DEFINITION. Mirror frames as they arrive (07 R228 to R238): acknowledgement, copies, forwarded units and their orders,
commit and drop, extents, resync pages. -/

namespace Sys2Proof.Machine

/-- The device has a partner (R34): the other position of its pair exists on the board. -/
def State.hasPartner (s : State) : Bool := s.odd || decide (s.seq.position + 1 < Config.boardDevices)

/-- A twin session is open (R241). -/
def State.twinSession (s : State) : Bool :=
  s.on F.PHL_FB_CTL.FB_ENABLE && s.running .fab &&
  s.fab.sessions.any (fun e => s.isTwinSes e.2 && e.2.st == .open_)

/-- The channel a frame came over is up. -/
def State.channelUp (s : State) (fallback : Bool) : Bool := if fallback then s.twinSession else s.phl.ph0.up

/-- Mirror frames take effect in these states. -/
def Twin.linked : Twin → Bool
  | .resyncIn | .resyncOut | .paired | .fallback | .unconfirmed => true
  | _ => false

/-- R229: the sender's epoch is below this device's. -/
def State.stale (s : State) (f : MFrame) : Bool :=
  let d := (s.phl.epoch % 65536 + 65536 - f.epoch.toNat) % 65536
  decide (1 ≤ d) && decide (d ≤ 32768)

/-- The frames that still wait for an acknowledgement go out again on the live channel, and those that waited to be sent follow
(R242). -/
def State.resendFrames (s : State) : State :=
  match s.channel with
  | some fb => { s with out := s.out ++ s.phl.unacked.map (fun f => Out.phFrame (chanOf fb) (s.wire f)) }.sendFrames
  | none => s

/-- A channel confirms (R247). -/
def State.confirmed (s : State) : State :=
  if s.phl.twin = .unconfirmed then ((s.setTwin s.phl.before sevNotice).resendFrames).pumpMirror else s

/-- A page as RPAGE carries it, with the region order of its region at the snapshot (R253). -/
def State.sendPage (s : State) (page : Nat) : State :=
  match ((List.range 4).findSome? (fun i => s.regionAt (page * 16384 + i * 4096))) with
  | none => s
  | some (n, r) =>
    let open_ := s.pst.units.filter (fun u => u.region == n && u.charged && !u.committed)
    let pos := minOf (r.nextPos + 1) (open_.map (·.position)) - 1
    s.sendFrame { Frame.mk0 8 with region := n, dpa := page * 16384, position := pos, data := s.bytes (page * 16384) 16384 }

/-- The page's RPAGE is on its way. -/
def PhlState.sending (x : PhlState) (page : Nat) : Bool := x.unconfirmed.any (fun f => f.ty == 8 && f.dpa == page * 16384)

/-- Pages go out while there is credit for them, behind the copies that wait (R224, R276). -/
def State.pumpPages (s : State) : State :=
  if s.phl.twin = .resyncOut then
    (s.phl.resyncLeft.filter (fun p => !s.phl.sending p)).foldl (fun t p =>
      if t.dataFits 16384 && !t.phl.stalled then t.sendPage p else t) s
  else s

/-- Link credit withheld for mirror traffic goes back where that no longer backs up (R27). -/
def State.payBoth (s : State) : State := (s.payCredits .hp0).payCredits .hp1

/-- Credit comes back: what waited for it is sent (R224, R276). -/
def State.takeCredit (s : State) (n : Nat) : State :=
  ((({ s with phl := { s.phl with credit := s.phl.credit + n } }.sendFrames).pumpMirror).pumpPages).payBoth

/-- A cumulative acknowledgement up to MSN `a` (R230, R231). -/
def State.takeMack (s : State) (a : Nat) : State :=
  let new := s.phl.unacked.filter (fun f => msnLe f.msn a)
  if new.isEmpty then s
  else
    let trips := new.map (fun f => s.time - (Tab.get s.phl.sentAt f.msn).getD s.time)
    let pages := (new.filter (fun f => f.ty == 8)).map (fun f => f.dpa / 16384)
    let s1 := s.updPhl (fun x => { x with
      unacked := x.unacked.filter (fun f => !msnLe f.msn a), txAcked := a
      sentAt := x.sentAt.filter (fun e => !msnLe e.1 a)
      resyncLeft := if x.twin = .resyncOut then x.resyncLeft.filter (fun p => !pages.contains p) else x.resyncLeft })
    let s2 := s1.setUnits (updAll (fun u => !u.away && (match u.msn with
      | some m => msnLe m a
      | none => false)) (fun u => { u with copied := true }) s1.pst.units)
    (((((s2.countEvent 0x031 new.length none none).countEvent 0x032 (sumOf trips) none none).confirmed).pumpPages).payBoth).settleTwinWait

/-- An ACK on a twin session carries the cumulative MACK in its RESULT, and gives back the credit of the frames it covers (R242; DESIGN
CHOICE, notes/assumptions/43.md). -/
def State.takeTwinAck (s : State) (x : Session) (k : Packet) : State :=
  if s.isTwinSes x && s.phl.twin.linked then
    let a := bitsOf k.w6 0 32
    (s.takeMack a).takeCredit (sumOf ((s.phl.unacked.filter (fun f => msnLe f.msn a)).map (fun f => frameCredits f.data.length)))
  else s

def execAck (p : FabPort) (pkt : Packet) (s : State) : Res :=
  s.rxRow 7 p pkt (s.rxCtl p pkt (fun x => (s.takeAck pkt.session x pkt).takeTwinAck x pkt))

/-- The acknowledgement of what came: over PH0 in the flit header or, with ENCRYPT = 1, in a frame of its own; over a twin session in an
ACK (R230, R239, R242). -/
def State.ackFrame (s : State) (fallback : Bool) : State :=
  let a := (s.phl.rxNext + 2 ^ 32 - 1) % 2 ^ 32
  if fallback then s.emit (.phMack .fallback a)
  else if s.on F.PHL_CTL.ENCRYPT then s.sendFrame { Frame.mk0 12 with aux := a }
  else s.emit (.phMack .ph0 (a % 2 ^ 24))

/-- A flit of PH0 that follows a bad one: only the replay, which begins with the next frame, is taken (R222). -/
def State.discards (s : State) (f : MFrame) : Bool := !f.fallback && s.phl.ph0.discarding && f.msn.toNat != s.phl.rxNext

/-- The next frame of the stream is taken in: over PH0 it holds its credit's space, and ends a discard. -/
def PhlState.takeFrame (x : PhlState) (f : MFrame) : PhlState :=
  { x with
    rxNext := (x.rxNext + 1) % 2 ^ 32
    rxHeld := if f.fallback then x.rxHeld else Tab.put x.rxHeld f.msn.toNat (frameCredits f.data.length)
    ph0 := if f.fallback then x.ph0 else { x.ph0 with discarding := false } }

/-- A frame arrives: discarded when its epoch is below (R229); taken in MSN order, each once (R230, R242). -/
def State.rxFrame (s : State) (f : MFrame) (ack : Bool) (body : State → State) : Res :=
  when_ (s.running .phl && s.channelUp f.fallback && !s.discards f) s
    (if s.stale f then (s.bump F.PHL_CNT0.STALE_FRAMES).returnCredit (if f.fallback then 0 else frameCredits f.data.length)
     else if s.phl.twin.linked && f.msn.toNat == s.phl.rxNext then
       let s1 := ((body (s.updPhl (fun x => x.takeFrame f))).runHmaps).releaseSpace
       if ack then s1.ackFrame f.fallback else s1
     else s)

/-- R230: the low 24 bits extended against the sender's own count; ignored with ENCRYPT = 1. The credit counts in either case. -/
def execMack (ack : BitVec 24) (credit : BitVec 8) (s : State) : Res :=
  let last := (s.phl.txNext + 2 ^ 32 - 1) % 2 ^ 32
  let back := (last % 2 ^ 24 + 2 ^ 24 - ack.toNat) % 2 ^ 24
  let s1 := s.takeCredit credit.toNat
  when_ (s.running .phl && s.phl.ph0.up && s.phl.twin.linked) s
    (if s.on F.PHL_CTL.ENCRYPT then s1 else s1.takeMack ((last + 2 ^ 32 - back) % 2 ^ 32))

/-- R239. -/
def execMackf (f : MFrame) (s : State) : Res :=
  s.rxFrame f false (fun s => if s.on F.PHL_CTL.ENCRYPT then s.takeMack f.aux.toNat else s)

/-! ### Copies -/

/-- Only units of these regions take more than one frame apart from their length (R60, Table TWN-3). -/
def State.pieced (s : State) (region : Nat) : Bool :=
  match Tab.get s.regions region with
  | some r => r.atomic || r.sealed
  | none => false

/-- A copy is held in ingress, and its region has been written (R51); a page that has still to come in a resync is asked for (R232,
R253). -/
def State.holdCopy (s : State) (c : Copy) : State :=
  (pagesOf c.dpa c.span).foldl (fun t p => t.wantPage p)
    ((s.updPhl (fun x => { x with copies := x.copies ++ [c] })).updRegion c.region (fun r => { r with written := true }))

/-- The unit that a frame of MDATA adds to: its extent's, or that of the frames before it which still want their last. -/
def PhlState.unitOf (x : PhlState) (ref : Option Nat) : Option Nat :=
  match ref with
  | some m => (x.copies.find? (fun c => c.ref == some m)).map (·.uid)
  | none => (match (x.copies.filter (fun c => c.ref.isNone)).getLast? with
      | some c => if c.last then none else some c.uid
      | none => none)

/-- The last frame of an extent brings its position: all its copies take it, and stand behind those that came before (R61). -/
def PhlState.settleExtent (x : PhlState) (c : Copy) : PhlState :=
  if c.ref.isSome && c.last then
    { x with copies := x.copies.filter (fun d => d.uid != c.uid) ++
                       (x.copies.filter (fun d => d.uid == c.uid)).map (fun d => { d with position := c.position }) }
  else x

/-- R231: a copy, or a piece of an extent, is written into ingress. -/
def execMdata (f : MFrame) (s : State) : Res :=
  s.rxFrame f true (fun s =>
    let ref := if f.ref = 0 then none else some f.ref.toNat
    let c : Copy :=
      { uid := (s.phl.unitOf ref).getD s.pst.nextUnit, msn := f.msn.toNat, extent := ref.isSome, ref := ref, region := f.region.toNat,
        dpa := f.dpa.toNat, cls := Class.ofCode f.cls.toNat, position := f.position.toNat
        last := f.last || (ref.isNone && !s.pieced f.region.toNat), cells := cellsAt f.dpa.toNat f.data, committed := false, charged := false }
    ({ s with pst := { s.pst with nextUnit := s.pst.nextUnit + 1 } }.holdCopy c).updPhl (fun x => x.settleExtent c))

/-- MSNs of the copies of the unit that the frame `m` belongs to, or that the XOPEN `m` opened. -/
def PhlState.unitMsns (x : PhlState) (m : Nat) : List Nat :=
  match x.copies.find? (fun c => c.msn == m || c.ref == some m) with
  | some c => (x.copies.filter (fun d => d.uid == c.uid)).map (·.msn)
  | none => []

/-- A unit of the twin is over: the part of the open limit that its extent held is free again (R236). -/
def State.copyOver (s : State) (msns : List Nat) : State :=
  let refs := (s.phl.copies.filter (fun c => msns.contains c.msn)).filterMap (·.ref)
  { s with pst := { s.pst with xreqs := s.pst.xreqs.filter (fun x => !refs.contains x.msn) } }

/-- A write taken in at this door, which the twin orders, has committed (R238). -/
def State.awayDone (s : State) (u : CUnit) : State :=
  (((s.setUnits (s.pst.units.filter (fun x => x.id != u.id))).updRegion u.region (fun r => { r with written := true })).leaveHold
    u).settleDoor u (.reached u.cls)

/-- One unit of an MCV's bitmap (R234). -/
def State.commitCopy (s : State) (m : Nat) : State :=
  let ms := s.phl.unitMsns m
  let s1 := (s.copyOver ms).updPhl (fun x => { x with
    copies := updAll (fun c => ms.contains c.msn) (fun c => { c with committed := true }) x.copies })
  match s1.pst.units.find? (fun u => u.away && decide (u.position ≠ 0) && u.msn == some m) with
  | some u => s1.awayDone u
  | none => s1

/-- MSNs of the set bits of a bitmap. -/
def bitmapMsns (base : Nat) (data : List Byte) : List Nat :=
  ((List.range (8 * data.length)).filter (fun i => (data.getD (i / 8) 0).getLsbD (i % 8))).map (fun i => (base + i) % 2 ^ 32)

/-- R234, R276: the copies commit, ask for their charges, and those that must wait are counted. -/
def execMcv (f : MFrame) (s : State) : Res :=
  s.rxFrame f true (fun s =>
    let waited := (s.phl.copies.filter (fun c => c.committed && !c.charged)).length
    let s1 := ((bitmapMsns f.aux.toNat f.data).foldl (fun t m => t.commitCopy m) s).chargeCopies
    let waiting := (s1.phl.copies.filter (fun c => c.committed && !c.charged)).length
    (s1.bumpBy F.DST_CNT1.COPY_WAITS (waiting - waited)).serveReads)

/-- The copies of a unit are discarded, and the unit at this door fails; or an extent the twin gave up is released. -/
def State.dropCopy (s : State) (m : Nat) (st : Status) : State :=
  let ms := s.phl.unitMsns m
  let s1 := (s.copyOver ms).updPhl (fun x => { x with copies := x.copies.filter (fun c => !ms.contains c.msn) })
  let s2 := { s1 with pst := { s1.pst with xreqs := s1.pst.xreqs.filter (fun x => x.msn != m) } }
  match s2.pst.units.find? (fun u => u.away && decide (u.position ≠ 0) && u.msn == some m) with
  | some u => s2.failUnit u st
  | none => s2.serveReads

def execMdrop (f : MFrame) (s : State) : Res :=
  s.rxFrame f true (fun s => s.dropCopy f.ref.toNat (BitVec.ofNat 8 f.aux.toNat))

/-! ### Forwarded units (R238) -/

/-- A failing MORD. -/
def State.refuseForward (s : State) (region m : Nat) (st : Status) : State :=
  s.sendFrame { Frame.mk0 3 with region := region, ref := m, aux := st.toNat }

/-- The record source of a forwarded append (Table CIP-8). -/
def State.farSource (s : State) (door : Nat) : Nat := s.phl.peerNode + door * 2 ^ 18

/-- A forwarded append or SEAL. -/
def State.orderRecord (s : State) (n m door : Nat) (r : Region) (payload : List Byte) : State :=
  match s.log n with
  | none => s.refuseForward n m ST.bounds
  | some l =>
    if payload.isEmpty then (if ckptFull r l then s.refuseForward n m ST.bounds else s.positionCkpt n r l (.twin m))
    else if s.logShort n r payload.length then s.refuseForward n m ST.bounds
    else s.updLog n (fun l => l.add
      { newItem payload.length (.twin m) (s.farSource door) .d3 with payload := payload, ready := true })

/-- A forwarded unit, all its frames being there, is ordered, written and charged at the home: `parts` are the first addresses
and bytes of its frames. A CXL write is a line, and brings the bytes it enabled (R81). -/
def State.orderUnit (s : State) (n m door kind : Nat) (cls : Class) (parts : List (Nat × List Byte)) : State :=
  let data := parts.flatMap (·.2)
  let first := (parts.head?.map (·.1)).getD 0
  let dpa := if door = 2 then lineOf first else first
  match Tab.get s.regions n with
  | none => s.refuseForward n m ST.bounds
  | some r =>
    let c := Class.max cls r.floor
    let u := mkUnit s.pst.nextUnit n r dpa (if door = 2 then 64 else data.length) (parts.flatMap (fun e => cellsAt e.1 e.2)) c (.twin m) false
    if kind = 3 then s.orderRecord n m door r data
    else if kind = 0 then s.admitUnit { u with extent := r.atomic && !r.sealed && decide (door ≠ 2) }
    else
      let a : Atomic := if kind = 1 then .add (BitVec.ofNat 64 (leNat (data.take 8)))
        else .cas (BitVec.ofNat 64 (leNat (data.take 8))) (BitVec.ofNat 64 (leNat (data.drop 8)))
      s.admitUnit { u with len := 8, cells := [], atomic := some a }

/-- A frame of a forwarded unit: kept until its last. -/
def State.takeForward (s : State) (f : MFrame) : State :=
  let n := f.region.toNat
  let door := f.aux.toNat % 4
  let kind := f.aux.toNat / 256 % 4
  let whole := f.last || !(kind == 3 || door == 2 || s.pieced n)
  let part := { Frame.mk0 2 with msn := f.msn.toNat, dpa := f.dpa.toNat, data := f.data }
  if whole then
    let parts := s.phl.fwdParts ++ [part]
    (s.updPhl (fun x => { x with fwdParts := [] })).orderUnit n f.msn.toNat door kind (Class.ofCode f.cls.toNat)
      (parts.map (fun e => (e.dpa, e.data)))
  else s.updPhl (fun x => { x with fwdParts := x.fwdParts ++ [part] })

def execMfwd (f : MFrame) (s : State) : Res := s.rxFrame f true (fun s => s.takeForward f)

/-- What the home's answer makes of the unit's bytes, and the value the door answers with: an atomic's stored value and the
value before, a record with its header and SEQ, a checkpoint entry and its number. -/
def ordered (u : CUnit) (data : List Byte) : List Byte × Option Word :=
  if u.atomic.isSome then (data.drop 8, some (BitVec.ofNat 64 (leNat (data.take 8))))
  else if u.record.isSome && data.length == 64 then
    (data ++ u.cells.map (·.2) ++ List.replicate (storedSize u.len - 64 - u.len) 0,
      some (BitVec.ofNat 64 (leNat ((data.drop 8).take 8))))
  else if u.record.isSome then (data, some (BitVec.ofNat 64 (leNat ((data.drop 4).take 4))))
  else (u.cells.map (·.2), none)

/-- The value goes to the strand's operation or the fabric message: an atomic's when it completes, a record's number. -/
def State.giveValue (s : State) (u : CUnit) (v : Word) : State :=
  if u.atomic.isSome then s.giveOld u v.toNat
  else match u.door with
    | .strand c op => s.updOp c op (fun o => { o with done := some (OpDone.ok (some v)) })
    | .fabric n msg _ => s.fabricResult n msg v
    | _ => s

/-- The home has ordered a unit of this door. One that the home committed at D1, serving alone for a channel that is out here,
is over at that class (R498). For D2 and D3 it becomes a mirror copy, acknowledged with this frame; for D0
and D1 it is over (R54, R238). -/
def State.takeOrder (s : State) (f : MFrame) (u : CUnit) : State :=
  let v := ordered u f.data
  let s1 := match v.2 with
    | some w => s.giveValue u w
    | none => s
  if f.cls.toNat = 1 ∧ (u.cls = .d2 ∨ u.cls = .d3) then
    ((s1.setUnits (s1.pst.units.filter (fun x => x.id != u.id))).settleDoor u (.reached .d1)).serveReads
  else if u.cls = .d2 ∨ u.cls = .d3 then
    let made := u.atomic.isSome || u.record.isSome
    let dpa := if u.record.isSome then f.dpa.toNat else u.dpa
    (s1.updUnit u.id (fun x => { x with
      position := f.position.toNat, msn := some f.msn.toNat, dpa := dpa, len := if made then v.1.length else u.len, cells := [] })).holdCopy
      { uid := u.id, msn := f.msn.toNat, extent := u.extent, ref := none, region := u.region, dpa := dpa, cls := u.cls,
        position := f.position.toNat, last := true, cells := if made then cellsAt dpa v.1 else u.cells, committed := false,
        charged := false }
  else (s1.awayDone u).serveReads

def execMord (f : MFrame) (s : State) : Res :=
  s.rxFrame f true (fun s =>
    match s.pst.units.find? (fun u => u.away && decide (u.position = 0) && u.msn == some f.ref.toNat) with
    | none => s
    | some u =>
      if f.aux.toNat % 256 = 0 then s.takeOrder f u else s.failUnit u (BitVec.ofNat 8 f.aux.toNat))

/-! ### Extents (R236) -/

/-- The reservation fits the open limit in force. -/
def State.xreqFits (s : State) (units : Nat) : Bool := s.kibFits (4 * units)

def State.sendGrant (s : State) (x : XReq) (st : Status) : State :=
  s.sendFrame { Frame.mk0 7 with region := x.region, ref := x.msn, aux := st.toNat }

def execXopen (f : MFrame) (s : State) : Res :=
  s.rxFrame f true (fun s =>
    let ok := s.xreqFits f.aux.toNat && s.pst.xreqs.all (·.granted)
    let x : XReq := { msn := f.msn.toNat, region := f.region.toNat, units4k := f.aux.toNat, granted := ok }
    { s with pst := { s.pst with xreqs := s.pst.xreqs ++ [x] } }.sendGrant x (if ok then ST.ok else ST.busy))

def execXgrant (f : MFrame) (s : State) : Res :=
  s.rxFrame f true (fun s =>
    if f.aux.toNat % 256 = 0 then
      { s with pst := { s.pst with extents := s.pst.extents.map (fun e =>
        if e.2.xopen = some f.ref.toNat then (e.1, { e.2 with granted := true }) else e) } }
    else s)

/-- The oldest refused XOPEN fits now. -/
def execXopenQueuedGrant (s : State) : Res :=
  match s.pst.xreqs.find? (fun x => !x.granted) with
  | none => .next s
  | some x =>
    when_ (s.running .phl && s.phl.twin.linked && s.xreqFits x.units4k) s
      ({ s with pst := { s.pst with
          xreqs := updAll (fun y => y.msn == x.msn) (fun y => { y with granted := true }) s.pst.xreqs } }.sendGrant x ST.ok)

/-! ### Resync pages (R253) -/

/-- The copies that a page snapshot already holds give up their bytes of the page: those of its region up to the snapshot's
position, and every copy that had committed. -/
def afterPage (page region pos : Nat) (c : Copy) : Copy :=
  if c.committed || (c.region == region && decide (c.position ≠ 0) && decide (c.position ≤ pos)) then
    { c with cells := c.cells.filter (fun x => x.1 / 16384 != page) } else c

/-- Blocks of a page that the twin also holds, by first byte: those of D2 and D3 regions (R538). -/
def State.mirrorBlocks (s : State) (page : Nat) : List Nat :=
  (List.range 4).filterMap (fun i => match s.regionAt (page * 16384 + i * 4096) with
    | some (_, r) => if r.floor = .d2 ∨ r.floor = .d3 then some (page * 16384 + i * 4096) else none
    | none => none)

/-- Blocks of D1 regions homed here: this device's NAND alone holds them (R538). -/
def State.ownBlocks (s : State) (page : Nat) : List Nat :=
  (List.range 4).filterMap (fun i => match s.regionAt (page * 16384 + i * 4096) with
    | some (_, r) => if r.floor = .d1 ∧ r.homeOdd = s.odd then some (page * 16384 + i * 4096) else none
    | none => none)

/-- An address lies in one of the blocks. -/
def inBlocks (bs : List Nat) (a : Nat) : Bool := bs.contains (a / 4096 * 4096)

/-- The page holds its restored contents. -/
def State.pageReady (s : State) (page : Nat) : State :=
  let asked := (s.dst.pages.filter (fun e => e.1 == page && e.2.unrestored && e.2.demand)).length
  s.updDst (fun d => { d with
    pages := Tab.upd d.pages page (fun p => { p with unrestored := false, demand := false }), demandOut := d.demandOut - asked })

/-- The blocks of a page that the source supplies replace this device's. A page with blocks of its own stays UNRESTORED until
those have come from NAND too (R538). -/
def State.loadPage (s : State) (page region pos : Nat) (data : List Byte) : State :=
  let bs := s.mirrorBlocks page
  let s1 := bs.foldl (fun t b => t.dropBlock (b / 4096)) s
  let s2 := { s1 with
    ddr := (bs.foldl (fun m b => Memory.clear m b 4096) s1.ddr).writeCells ((cellsAt (page * 16384) data).filter (fun c => inBlocks bs c.1))
    poison := s1.poison.filter (fun l => !inBlocks bs l)
    phl := { s1.phl with
      copies := (s1.phl.copies.map (afterPage page region pos)).filter (fun c => !(c.committed && c.cells.isEmpty))
      resyncLeft := s1.phl.resyncLeft.filter (· != page) }
    svc := { s1.svc with filling := s1.svc.filling.filter (· != page) } }.initPage page
  let tenant := ((Tab.get s.regions region).map (·.tenant)).getD 0
  let s3 := (s2.updDst (fun d => { d with pages := dirtyAll d.pages [page] tenant s.time })).updRegion region (fun r =>
    { r with written := r.written || pos != 0 })
  (if (s.phl.twin = Twin.resyncIn ∨ s.svc.filling.contains page = true) ∧ !(s.ownBlocks page).isEmpty then s3 else s3.pageReady page).zoneStep 0

def execRpage (f : MFrame) (s : State) : Res :=
  s.rxFrame f true (fun s =>
    if s.phl.twin = .resyncIn ∨ s.unrestored f.dpa.toNat = true ∨ s.svc.filling.contains (pageOf f.dpa.toNat) = true then
      ((s.loadPage (pageOf f.dpa.toNat) f.region.toNat f.position.toNat f.data).serveReads).settleMode
    else s)

/-- A page wanted at demand priority goes out at once. -/
def execRreq (f : MFrame) (s : State) : Res := s.rxFrame f true (fun s => s.sendPage (pageOf f.dpa.toNat))

/-! ### Control frames -/

/-- R53. -/
def execCtrlHmap (f : MFrame) (s : State) : Res := s.rxFrame f true (fun s => (s.takeHmap f.msn.toNat f.ref.toNat f.data).settleTwinWait)

/-- R226: the twin that does not hold the lease takes the holder's time base. A step of more than 1 µs ends PTP lock (R179; DEDUCED,
notes/assumptions/94.md). -/
def State.takeTime (s : State) (t : Nat) : State :=
  let near := decide (t ≤ s.time + 1000) && decide (s.time ≤ t + 1000)
  ({ s with time := t }).updFab (fun f => { f with ptpLocked := f.ptpLocked && near })

def execCtrlTime (f : MFrame) (s : State) : Res :=
  s.rxFrame f true (fun s => if s.phl.primary then s else s.takeTime (leNat (f.data.take 8)))

/-- The node IDs of a piece of a member list. -/
def memberIds (l : List Byte) : List Nat := (chunks (l.length / 4) 4 l).map leNat

/-- What the twin's firmware says of the mirrored session metadata (R187, R541): a definition, which replaces an earlier one of that session;
that one is gone; a piece of the member list, or of another table's change (R168), which takes effect with its last piece. AUX[15:8]
tells them apart (DESIGN CHOICE, notes/assumptions/96.md). -/
def State.takeMeta (s : State) (aux : Nat) (data : List Byte) (params : SessionParams) : State :=
  match aux / 256 % 256 with
  | 0 => s.updFab (fun x => { x with
      twinDefs := x.twinDefs.filter (fun a => a.session != params.session) ++ [params]
      twinSecrets := Tab.put x.twinSecrets params.session.toNat (data.drop (sessionBytes params).length) })
  | 1 =>
    let n := leNat (data.take 4)
    s.updFab (fun x => { x with twinDefs := x.twinDefs.filter (fun a => a.session.toNat != n), twinSecrets := Tab.del x.twinSecrets n })
  | 3 => s.takeChange (aux.testBit 16) (aux.testBit 17) data
  | _ =>
    let l := (if aux.testBit 16 then [] else s.fab.membersIn) ++ memberIds data
    s.updFab (fun x => if aux.testBit 17 then { x with members := l, membersIn := [] } else { x with membersIn := l })

def execCtrlSession (f : MFrame) (params : SessionParams) (s : State) : Res :=
  s.rxFrame f true (fun s => s.takeMeta f.aux.toNat f.data params)

/-- R498. -/
def execChannelServed (f : MFrame) (s : State) : Res :=
  s.rxFrame f true (fun s => s.updPhl (fun x =>
    let ch := f.aux.toNat / 256 % 256
    { x with twinChOut := if x.twinChOut.contains ch then x.twinChOut else x.twinChOut ++ [ch] }))

/-- R499. -/
def execChannelReturned (f : MFrame) (s : State) : Res :=
  s.rxFrame f true (fun s => s.updPhl (fun x => { x with twinChOut := x.twinChOut.filter (· != f.aux.toNat / 256 % 256) }))

end Sys2Proof.Machine
end

