-- ==== Sys2Proof/Machine/Twin.lean ====
section
/-! DEFINITION. The Parhelion ports, the lease and the twin state (07 R220 to R226, R239 to R255). -/

namespace Sys2Proof.Machine

/-! ### Ports -/

def State.ph (s : State) (p : PhPort) : PhState :=
  match p with
  | .ph0 => s.phl.ph0
  | .ph1 => s.phl.ph1

def State.setPh (s : State) (p : PhPort) (q : PhState) : State :=
  match p with
  | .ph0 => s.updPhl (fun x => { x with ph0 := q })
  | .ph1 => s.updPhl (fun x => { x with ph1 := q })

/-- Bring-up of a port whose lanes CAL has trained (Table ARC-10): the flit layer starts afresh (R229), and LINK_ID is sent. The port is
up once its neighbour's LINK_ID agrees (R225). -/
def execPhLinkUp (p : PhPort) (wide : Bool) (s : State) : Res :=
  let s1 := s.setPh p { PhState.reset with trained := true, width := if wide then 8 else 4 }
  when_ (s.running .phl && s.on F.PHL_CTL.ENABLE && !(s.ph p).trained && s.lanesTrained 5 p.idx) s
    ((match p with
      | .ph0 => s1.updPhl (fun x => { x with linkIdSeen := false })
      | .ph1 => s1).sendLinkId p.chan)

/-- FALLBACK begins: every frame from the last MACK goes out over a twin session (R242). -/
def State.enterFallback (s : State) : State :=
  ((s.setTwin .fallback sevWarn).bump F.PHL_CNT1.FALLBACK_ENTRIES).resendFrames

/-- A port declares itself failed (R223). -/
def State.failPort (s : State) (p : PhPort) : State :=
  let s1 := s.setPh p { PhState.reset with failed := true }
  match p with
  | .ph0 =>
    let s2 := s1.recFlag sevError .phl F.PHL_ERR.PH0_FAIL 0
    if s.phl.twin = .paired then s2.enterFallback else s2.resendFrames
  | .ph1 => s1.recFlag sevError .phl F.PHL_ERR.PH1_FAIL 1

def execPortFailed (p : PhPort) (s : State) : Res := when_ (s.running .phl && (s.ph p).trained) s (s.failPort p)

/-- Replay counts of the `count` flits from `first`, each raised by one; FACK covers every flit before them. -/
def replayed (l : List (Nat × Nat)) (first count : Nat) : List (Nat × Nat) :=
  (List.range count).map (fun i => (first + i, ((l.find? (fun e => e.1 == first + i)).map (·.2)).getD 0 + 1))

/-- R222, R223: the last 256 flits are kept; a flit replayed 8 times fails the port. -/
def execFlitReplay (p : PhPort) (first : BitVec 64) (count : BitVec 9) (s : State) : Res :=
  let q := s.ph p
  let l := replayed q.flits first.toNat count.toNat
  let s1 := (s.setPh p { q with flits := l, fack := first.toNat }).bumpBy F.PHL_CNT0.REPLAYS count.toNat
  when_ (s.running .phl && q.trained && decide (count.toNat ≤ 256) && decide (q.fack ≤ first.toNat)) s (if l.any (fun e => decide (8 ≤ e.2)) then s1.failPort p else s1)

/-- R222: a flit that fails its FEC or CRC, and every later one, is discarded until the sender replays. -/
def execFlitError (p : PhPort) (s : State) : Res :=
  when_ (s.running .phl && (s.ph p).trained) s (s.setPh p { s.ph p with discarding := true })

/-- R223: the port retrains at width 4 on its other half. -/
def execWidthDegrade (p : PhPort) (s : State) : Res :=
  when_ (s.running .phl && (s.ph p).trained && (s.ph p).width == 8) s
    (((s.setPh p { s.ph p with width := 4 }).bump F.PHL_CNT1.DEGRADES).record sevError .phl 3 32
      p.idx Addr.PHL_CNT1)

/-- R223: every 10 ms. Whether training succeeds is the PH_LINK_UP that may follow. -/
def execPortTrainingRetry (p : PhPort) (s : State) : Res :=
  when_ (s.running .phl && s.on F.PHL_CTL.ENABLE && (s.ph p).failed) s (s.setPh p { s.ph p with failed := false })

/-- R244. -/
def execFallbackExit (s : State) : Res :=
  when_ (s.running .phl && s.phl.twin == .fallback && s.phl.ph0.up && s.phl.linkIdSeen) s
    (s.setTwin .paired sevNotice).pumpMirror

/-- R35: a ring frame for another position goes on over PH1, or over the fabric with an ERROR record while PH1 is down; of N devices
it makes N − 1 hops at most. -/
def execRingFrameForward (dest hops : BitVec 3) (frame : List Byte) (s : State) : Res :=
  when_ (s.running .phl && decide (dest.toNat ≠ s.seq.position) && decide (hops.toNat + 1 < Config.boardDevices)) s
    (if s.phl.ph1.up then s.emit (.ring false dest.toNat (hops.toNat + 1) frame)
     else (s.emit (.ring true dest.toNat (hops.toNat + 1) frame)).record sevError .phl 3 1 dest.toNat Addr.PHL_ERR)

/-! ### Serving alone -/

/-- Copies in order of their units' last frames, one list for each unit. -/
def PhlState.byUnit (x : PhlState) : List (List Copy) :=
  ((x.copies.map (·.uid)).eraseDups).map (fun n => x.copies.filter (fun c => c.uid == n))

/-- Units whose copies here are complete, and the MSNs of those that are not. -/
def PhlState.wholeUnits (x : PhlState) : List (List Copy) × List Nat :=
  let l := x.byUnit
  let whole (u : List Copy) : Bool := match u.getLast? with
    | some c => c.last
    | none => false
  (l.filter whole, ((l.filter (fun u => !whole u)).flatten).map (·.msn))

/-- The copies are settled here: complete ones commit in region order, others are discarded (R240). -/
def State.settleCopies (s : State) : State :=
  let w := s.phl.wholeUnits
  let new := w.1.filter (fun u => u.any (fun c => !c.committed))
  let dropped := (s.phl.copies.filter (fun c => w.2.contains c.msn)).map (·.region)
  ((s.updPhl (fun x => { x with copies :=
      (x.copies.filter (fun c => !w.2.contains c.msn)).map (fun c => { c with committed := true }) })).bumpBy
    F.PHL_CNT3.IN_DOUBT_COMMITTED new.length).bumpBy F.PHL_CNT3.IN_DOUBT_DROPPED dropped.eraseDups.length

/-- Writes taken in here that the twin has ordered have committed with their copies. -/
def State.settleOrdered (s : State) : State :=
  (s.pst.units.filter (fun u => u.away && decide (u.position ≠ 0))).foldl (fun t u => t.awayDone u) s

/-- A forwarded unit goes to the log of its region as a record of its own door. -/
def State.ownRecord (s : State) (u : CUnit) : State :=
  let bytes := u.cells.map (·.2)
  let s1 := s.setUnits (s.pst.units.filter (fun x => x.id != u.id))
  match s.log u.region, Tab.get s.regions u.region with
  | some l, some r =>
    if bytes.isEmpty then (if ckptFull r l then s1.settleDoor u (.failed ST.bounds) else s1.positionCkpt u.region r l u.door)
    else if s.logShort u.region r bytes.length then s1.settleDoor u (.failed ST.bounds)
    else s1.updLog u.region (fun l => l.add { newItem bytes.length u.door s.node .d3 with payload := bytes, ready := true })
  | _, _ => s1.settleDoor u (.failed ST.bounds)

/-- A write that waited for the twin to order it is ordered here (R54). -/
def State.ownUnit (s : State) (u : CUnit) : State :=
  if u.record.isSome then s.ownRecord u
  else
    let u' := { u with away := false, charged := false, msn := none, parts := 0, copied := false }
    ((s.updUnit u.id (fun _ => u')).asks u').request u'

def State.ownUnits (s : State) : State :=
  (s.pst.units.filter (fun u => u.away && !u.inDoubt)).foldl (fun t u => t.ownUnit u) s

/-- What the twin forwarded has no door any more: it stays, and follows its region's policy like every waiting unit (R66, R70). -/
def State.orphanForwarded (s : State) : State :=
  let s1 := s.setUnits (s.pst.units.map (fun u => if !u.committed && u.forwarded then { u with door := .device } else u))
  s1.updCip (fun c => { c with logs := c.logs.map (fun (e : Nat × SealLog) => (e.1, { e.2 with items := e.2.items.map (fun it =>
    match it.door with
    | .twin _ => { it with door := .device }
    | _ => it) })) })

/-- A record of a sealed log as it stands in memory: it continues the log after `l`. -/
def State.nextStored (s : State) (r : Region) (l : SealLog) : Option RecView :=
  if r.len ≤ l.doneOff then none
  else
    let v := s.viewRecord (r.base + l.doneOff)
    if v.crcOk && v.seq == l.doneSeq + 1 && v.link == chainHead l.doneHead v.payload v.hdr then some v else none

/-- The records of a log read one after another. -/
def State.readLog (s : State) (r : Region) : Nat → SealLog → SealLog
  | 0, l => l
  | k + 1, l =>
    match s.nextStored r l with
    | none => l
    | some v => readLog s r k { l with doneSeq := v.seq, doneOff := l.doneOff + storedSize v.len, doneHead := v.link }

/-- Checkpoints that stand in the area, from the first: their count and the last one's SEQ_END. -/
def State.readCkpts (s : State) (r : Region) : Nat → Nat → Nat → Nat × Nat
  | 0, n, covered => (n, covered)
  | k + 1, n, covered =>
    let e := s.bytes (r.base + 256 * n) 256
    if leNat (e.drop 252) = (crc32c (e.take 252)).toNat ∧ leNat ((e.drop 4).take 4) = n then
      readCkpts s r k (n + 1) (leNat ((e.drop 8).take 8))
    else (n, covered)

/-- A log as its region's contents give it: the home reads it where the twin kept it before (R237). -/
def State.rescanLog (s : State) (r : Region) : SealLog :=
  let c := s.readCkpts r (256 * r.sealCfg.ckptArea) 0 0
  let l0 : SealLog :=
    { items := [], nextId := 0, seq := 0, off := r.recordArea, head := [], ckpt := c.1, doneSeq := 0, doneOff := r.recordArea,
      doneHead := s.regionH0 r, doneCkpt := c.1, soloRecord := false, covered := c.2, doneCovered := c.2, autoStopped := false }
  let l := s.readLog r (r.len / 64) l0
  { l with seq := l.doneSeq, off := l.doneOff, head := l.doneHead }

/-- The logs of the sealed regions `p` are read again. -/
def State.rescanLogs (s : State) (p : Region → Bool) : State :=
  (s.regions.filter (fun e => e.2.sealed && p e.2)).foldl (fun t e =>
    t.updCip (fun c => { c with logs := Tab.put c.logs e.1 { s.rescanLog e.2 with
      items := ((t.log e.1).map (·.items)).getD [], nextId := ((t.log e.1).map (·.nextId)).getD 0 } })) s

/-- The position after the last copy of each region that the twin ordered. -/
def State.takePositions (s : State) : State :=
  s.phl.copies.foldl (fun t c => t.updRegion c.region (fun r => { r with nextPos := max r.nextPos c.position, written := true })) s

/-- Extents that wait for the twin's XGRANT follow their region's SOLO_POLICY (R66, R236). -/
def State.soloExtents (s : State) : State :=
  let needs (e : Extent) : Bool := !e.opened && !((Tab.get s.regions e.region).map (·.downgrade)).getD false &&
    (e.cls == .d2 || e.cls == .d3)
  let s1 := s.failExtents needs ST.nomirror
  let l : Tab Extent := s1.pst.extents.map (fun (e : Nat × Extent) => (e.1, { e.2 with xopen := none, sent := [] }))
  { s1 with pst := { s1.pst with xreqs := [], extents := l } }

/-- ALONE: the epoch advances, the lease is this device's, in-doubt units are settled here, waiting units follow
SOLO_POLICY (R66, R240, R248). -/
def State.enterAlone (s : State) (sev : Nat) : State :=
  let s1 := (((s.settleCopies).settleOrdered).orphanForwarded).takePositions
  let s2 := (s1.rescanLogs (fun r => r.homeOdd != s.odd)).updPhl (fun x =>
    { x.quiet with epoch := (x.epoch + 1) % 2 ^ 32, primary := true, leaseRunning := true, guardPassed := false,
                   servedAlone := true, linkIdSeen := false, resyncLeft := [], resyncKind := 0, receiver := false })
  let s3 := s2.setUnits (s2.pst.units.map (fun u => if u.committed then u else { u with msn := none, parts := 0, copied := false, xref := none, ahead := [] }))
  let s4 := { s3 with regions := s3.regions.map (fun (e : Nat × Region) => (e.1, { e.2 with warned := false })) }
  ((((((s4.setTwin .alone sev).chargeCopies).ownUnits).soloExtents).soloPolicy).serveReads).settleTwinWait.runHmaps

/-! ### Arbitration (Table TWN-10) -/

/-- What Table TWN-10 gives now: none while the device waits. -/
inductive Verdict where
  | alone | lost | bothHalted

/-- R464: a receiver whose source falls silent never takes the lease. -/
def State.verdict (s : State) : Option Verdict :=
  if s.phl.before = .resyncIn then some .lost
  else if s.phl.primary then
    match s.phl.hbIn with
    | .low => some .alone
    | .toggling => if s.phl.guardPassed then some .bothHalted else none
    | .high => if s.phl.leaseRunning then none else some .lost
  else
    match s.phl.hbIn with
    | .low => some .alone
    | .toggling => some .lost
    | .high => if s.phl.guardPassed then some .alone else none

/-- UNCONFIRMED decides, where it can. -/
def State.arbitrate (s : State) : State :=
  if s.phl.twin = .unconfirmed then
    match s.verdict with
    | none => s
    | some .alone => (s.bump F.PHL_CNT1.ARBITRATIONS).enterAlone sevError
    | some .lost => (s.bump F.PHL_CNT1.ARBITRATIONS).enterLost false 3 sevError
    | some .bothHalted =>
      ((s.bump F.PHL_CNT1.ARBITRATIONS).recFlag sevCritical .phl F.PHL_ERR.BOTH_HALTED 0).enterLost false 3 sevError
  else s

/-- No channel confirms (R247). -/
def State.enterUnconfirmed (s : State) : State :=
  ((s.updPhl (fun x => { x with before := x.twin })).setTwin .unconfirmed sevError).arbitrate

/-- The states in which silence leads to UNCONFIRMED (Table TWN-9). -/
def Twin.watched : Twin → Bool
  | .resyncIn | .resyncOut | .paired | .fallback => true
  | _ => false

/-- R247: the count runs while a frame is unacknowledged, or, without the lease, from a LEASE request that is overdue. -/
def execFbConfirmExpiry (s : State) : Res :=
  when_ (s.running .phl && s.phl.twin.watched && (!s.phl.unacked.isEmpty || !s.phl.primary)) s s.enterUnconfirmed

def execLeaseExpiry (s : State) : Res :=
  when_ (s.running .phl && s.phl.leaseRunning) s
    (s.updPhl (fun x => { x with leaseRunning := false, twinMode := 15 })).arbitrate

def execLeaseGuardExpiry (s : State) : Res :=
  when_ (s.running .phl && !s.phl.leaseRunning && !s.phl.guardPassed) s
    (s.updPhl (fun x => { x with guardPassed := true })).arbitrate

/-- The HB_IN that the pin now gives is taken (Table TWN-7). -/
def State.setHb (s : State) (h : Hb) : State :=
  let s1 := s.updPhl (fun x => { x with hbIn := h })
  (if h == .high && s.phl.ph0.up then s1.recFlag sevWarn .phl F.PHL_ERR.HB_FAULT 0 else s1).arbitrate

/-- R245: the pin has held a level for HB_STATIC. -/
def execHbStatic (level : Level) (s : State) : Res :=
  let h : Hb := match level with
    | .low => .low
    | .high => .high
  when_ (s.run .aon == .running && s.phl.hbIn != h) s (s.setHb h)

/-- Table TWN-9. -/
def execLinkWait (s : State) : Res :=
  when_ (s.running .phl && s.phl.twin == .linking && s.phl.heldAtSave && !s.phl.linkIdSeen) s (s.enterAlone sevWarn)

/-- PHL_CTL.FORCE_ALONE (Table TWN-9). -/
def State.forceAlone (s : State) (path : Path) : State :=
  if s.phl.twin = .linking then (s.enterAlone sevWarn).recordFull sevAudit .phl 1 0 path.code Addr.PHL_STATUS 0 0 else s

def execForceAlone (path : Path) (s : State) : Res := when_ (s.running .phl && s.phl.twin == .linking) s (s.forceAlone path)

/-! ### The lease (R246) -/

/-- TERM, as LEASE frames carry it. -/
def State.termAux (s : State) : Nat := s.fld F.PHL_LEASE.TERM * 65536

/-- A LEASE frame on every live channel. -/
def State.sendLease (s : State) (grant : Bool) (no : Nat) : State :=
  let s1 := s.sendFrame { Frame.mk0 10 with ref := no, aux := b2n grant + s.termAux }
  match s.channel, s1.phl.unacked.getLast? with
  | some false, some f => if s.twinSession then s1.emit (.phFrame .fallback (s1.wire f)) else s1
  | _, _ => s1

/-- The lease holder's time base goes to the twin while PH0 is up (R226), with each renewal (DESIGN CHOICE, notes/assumptions/92.md). -/
def State.sendTime (s : State) : State :=
  if s.phl.ph0.up then s.sendFrame { Frame.mk0 13 with aux := 2, data := leBytes 8 s.time } else s

/-- Every TERM ÷ 4 the primary asks for a renewal. -/
def execLeaseRenewal (s : State) : Res :=
  when_ (s.running .phl && s.phl.primary && s.phl.twin.linked) s
    (((s.updPhl (fun x => { x with leaseNo := (x.leaseNo + 1) % 2 ^ 32 })).sendLease false ((s.phl.leaseNo + 1) % 2 ^ 32)).sendTime)

def State.startTerm (s : State) : State := s.updPhl (fun x => { x with leaseRunning := true, guardPassed := false })

/-- The twin grants each request; a grant of the latest request renews the lease, and confirms (R247). -/
def State.takeLease (s : State) (f : MFrame) (mode : Nat) : State :=
  let s1 := s.updPhl (fun x => { x with twinMode := mode })
  if f.aux.getLsbD 0 then
    (if s.phl.primary && f.ref.toNat == s.phl.leaseNo then (s1.startTerm).confirmed else s1)
  else if s.phl.primary then s1
  else (s1.startTerm).sendLease true f.ref.toNat

/-- A device that is not linked grants nothing, but learns its twin's mode (R459, R463). -/
def execLease (f : MFrame) (mode : BitVec 3) (s : State) : Res :=
  if s.phl.twin.linked then s.rxFrame f true (fun s => s.takeLease f mode.toNat)
  else when_ (s.running .phl && s.channelUp f.fallback && !s.stale f) s (s.updPhl (fun x => { x with twinMode := mode.toNat }))

/-! ### Linking and resync -/

/-- Pages of the regions mirrored (R251). -/
def State.mirroredPages (s : State) : List Nat :=
  ((s.regions.filter (fun e => e.2.floor == .d2 || e.2.floor == .d3)).flatMap (fun e => pagesOf e.2.base e.2.len)).eraseDups

/-- All credit of PH0_RESERVE, in 256-byte units; the twins' reserves are taken to be alike (R224). -/
def State.fullCredit (s : State) : Nat := 256 * s.fld F.PHL_CTL.PH0_RESERVE

/-- The twin's part of the stream starts anew: what LINK_ID says of it is taken (R225), and the lease term starts (R246). -/
def State.linked_ (s : State) (id : LinkId) : State :=
  (s.updPhl (fun x => { x.quiet with
    rxNext := (id.sent.toNat + 1) % 2 ^ 32, peerReceived := id.received.toNat, lostByCommand := false, credit := s.fullCredit,
    primary := x.primary || (!id.primary && !s.odd), twinChOut := [] })).startTerm

/-- The twin learns of the regions of this device's privileged queues (R53). -/
def State.sendPriv (s : State) : State := (s.regions.filter (fun e => s.ownPriv e.1)).foldl (fun t e => t.sendHmap e.1) s

/-- The twin is told which channels are out here (R498). -/
def State.tellOut (s : State) : State := s.svc.chOut.foldl (fun t k => t.sendFrame { Frame.mk0 13 with aux := 6 + 256 * k }) s

/-- Committed units become copies, older than any that the twin orders from now on. -/
def State.unitsToCopies (s : State) (p : CUnit → Bool) : State :=
  let l := s.pst.units.filter (fun u => u.committed && p u)
  let s1 := s.setUnits (s.pst.units.filter (fun u => !(u.committed && p u)))
  s1.updPhl (fun x => { x with copies := x.copies ++ l.map (fun u =>
    { uid := u.id, msn := 2 ^ 32 + u.id, extent := u.extent, ref := none, region := u.region, dpa := u.dpa, cls := u.cls, position := u.position, last := true,
      cells := u.cells, committed := true, charged := true }) })

/-- The loser's in-doubt units are settled by what the winner holds (R240). -/
def State.settleInDoubt (s : State) (received : Nat) : State :=
  (s.pst.units.filter (fun u => u.inDoubt)).foldl (fun t u =>
    let held := match u.msn with
      | some m => msnLe m received
      | none => false
    if held then
      if u.away then (t.awayDone u).bump F.PHL_CNT3.IN_DOUBT_COMMITTED
      else
        let t1 := t.updUnit u.id (fun x => { x with inDoubt := false, msn := none })
        (t1.commit { u with inDoubt := false, msn := none } .d2).bump F.PHL_CNT3.IN_DOUBT_COMMITTED
    else (t.failUnit u ST.nomirror).bump F.PHL_CNT3.IN_DOUBT_DROPPED) s

/-- Copies without an MCV bit are discarded (R240, R252). -/
def State.discardCopies (s : State) : State :=
  s.updPhl (fun x => { x with copies := x.copies.filter (·.committed) })

/-- The session that firmware keeps with the twin on a port pair: numbered from the top alike on both twins (R241; DESIGN CHOICE,
notes/assumptions/97.md). -/
def State.twinParams (s : State) (pair : Nat) : SessionParams :=
  { session := BitVec.ofNat 20 (2 ^ 20 - 1 - pair), tenant := 0, peerNode := BitVec.ofNat 18 s.phl.peerNode,
    peerSession := BitVec.ofNat 24 (2 ^ 20 - 1 - pair), addrA := Config.twinAddr pair false, addrB := Config.twinAddr pair true,
    pair := BitVec.ofNat 8 pair, relaxed := true, host := false, probe := true, entropy := 0xC000, ring := [] }

/-- At pairing firmware creates the twin sessions that are not there, and opens them (R241). -/
def State.twinSessions (s : State) : State :=
  if s.running .fab && s.running .ctl then
    [0, 1].foldl (fun t pair =>
      if t.fab.sessions.any (fun e => t.isTwinSes e.2 && e.2.params.pair.toNat == pair) || (t.ses (2 ^ 20 - 1 - pair)).isSome then t
      else (t.updFab (fun f => { f with
        sessions := Tab.put f.sessions (2 ^ 20 - 1 - pair) (t.freshSession (t.twinParams pair)) })).propose (2 ^ 20 - 1 - pair)) s
  else s

/-- PAIRED, or FALLBACK at once while PH0 is down. -/
def State.enterPaired (s : State) : State :=
  let s1 := (s.setTwin .paired sevNotice).twinSessions
  (if s.phl.ph0.up then s1 else s1.enterFallback).pumpMirror

/-- LINKING ends with neither side having served alone: the home settles its in-doubt units (R240). -/
def State.pairUp (s : State) (id : LinkId) : State :=
  let open_ := s.pst.units.filter (fun u => !u.committed && (u.inDoubt || u.msn.isSome))
  let s1 := (s.failAll open_ ST.nomirror).bumpBy F.PHL_CNT3.IN_DOUBT_DROPPED open_.length
  (((((s1.discardCopies).linked_ id).updPhl (fun x => { x with servedAlone := false })).tellOut).enterPaired).sendPriv.serveReads

/-- The receiver of a resync (R251, R252). -/
def State.enterReceiver (s : State) (id : LinkId) (full : Bool) : State :=
  let kept := s.keptImage && !full
  let s1 := ((s.settleInDoubt id.received.toNat).discardCopies).unitsToCopies (fun _ => true)
  let s2 := s1.setUnits (s1.pst.units.map (fun u => { u with away := true, charged := false, msn := none, parts := 0, position := 0, xref := none, ahead := [] }))
  let s3 := (s2.linked_ id).updPhl (fun x => { x with
    epoch := id.epoch.toNat, primary := false, receiver := true, resyncKind := if kept then 1 else 2, servedAlone := false,
    resyncLeft := s.mirroredPages })
  (((s3.setTwin .resyncIn sevNotice).sendPriv.tellOut).pumpMirror).serveReads

/-- Tables and session definitions go to the twin: both hold the same (R53, R187). -/
def State.sendTables (s : State) : State :=
  (s.fab.defs.foldl (fun t a => t.mirrorSession a) s.sendShared).sendMembers s.fab.members

/-- The source of a resync (Table TWN-12). -/
def State.enterSource (s : State) (id : LinkId) (full : Bool) : State :=
  let inc := id.imageKept && !full
  let s1 := (s.linked_ id).updPhl (fun x => { x with
    primary := true, receiver := false, resyncKind := if inc then 1 else 2
    resyncLeft := if inc then s.mirroredPages.filter (fun p => x.separation.contains p) else s.mirroredPages })
  let s2 := ((s1.setTwin .resyncOut sevNotice).sendFrame { Frame.mk0 13 with aux := 3 }).sendTables.tellOut
  (s2.pumpPages).pumpMirror

/-- R465: both served alone. -/
def State.splitSeen (s : State) (loser : Bool) : State :=
  let s1 := s.flag F.MOD_ERR.SPLIT_SEEN
  if loser then
    (s.regions.filter (fun e => e.2.homeOdd != s.odd)).foldl (fun t e => t.record sevCritical .ctl 2 0 e.1 Addr.MOD_ERR) s1
  else s1

/-- The first LINK_ID after a bring-up decides (Table TWN-9). -/
def State.decideLink (s : State) (id : LinkId) : State :=
  let e := id.epoch.toNat
  match s.phl.twin with
  | .linking =>
    if s.phl.epoch < e then s.enterReceiver id false
    else if e < s.phl.epoch ∨ (id.imageKept = true ∧ s.keptImage = false) then s.enterSource id false
    else s.pairUp id
  | .alone =>
    if id.primary then
      (if s.phl.epoch < e ∨ (e = s.phl.epoch ∧ s.odd = true) then
        ((s.splitSeen true).enterLost false 3 sevError).enterReceiver id true
       else (s.splitSeen false).enterSource id true)
    else s.enterSource id false
  | .lost => if s.phl.lostByCommand then s else s.enterReceiver id false
  | .absent => s
  | _ =>
    if s.phl.epoch < e then
      ((s.bump F.PHL_CNT1.ARBITRATIONS).enterLost false 3 sevError).enterReceiver id false
    else ((s.takeMack id.received.toNat).resendFrames).pumpMirror

/-- The cascade position of the pair partner (R34). -/
def State.isPartner (s : State) (position : Nat) : Bool :=
  s.hasPartner && position == (if s.odd then s.seq.position - 1 else s.seq.position + 1)

/-- R225: position, product or ENCRYPT differ. -/
def State.linkMismatch (s : State) (id : LinkId) : State :=
  let s1 := if !s.isPartner id.position.toNat || id.product.toNat != s.fld F.GEN_ID.PRODUCT then
    s.recFlag sevError .phl F.PHL_ERR.PEER_MISMATCH 0 else s
  if id.encrypt ≠ s.on F.PHL_CTL.ENCRYPT then s1.recFlag sevError .phl F.PHL_ERR.ENC_MISMATCH 0 else s1

def State.matches_ (s : State) (id : LinkId) : Bool :=
  s.isPartner id.position.toNat && id.product.toNat == s.fld F.GEN_ID.PRODUCT && id.encrypt == s.on F.PHL_CTL.ENCRYPT

/-- What LINK_ID says of the twin is kept; over PH0 the port is up, with all credit but that of the frames still outstanding. -/
def State.knowPeer (s : State) (fallback : Bool) (id : LinkId) : State :=
  s.updPhl (fun x => { x with
    linkIdSeen := true, linkEpoch := (x.linkEpoch + 1) % 2 ^ 32, peerEpoch := id.epoch.toNat, peerNode := id.node.toNat, peerKnown := true,
    peerKept := id.imageKept, peerPrimary := id.primary, peerReceived := id.received.toNat, peerSent := id.sent.toNat
    ph0 := if fallback then x.ph0 else { x.ph0 with up := true }
    credit := if fallback then x.credit else s.fullCredit - sumOf (x.unacked.map (fun f => frameCredits f.data.length))
    rxHeld := if fallback then x.rxHeld else [] })

/-- The mode lets the twin state follow a link: in COLD and SAVE it is decided later, at RESTORE entry (Table MOD-1, Table TWN-9). -/
def State.decidesLink (s : State) : Bool := s.phl.twin != .absent && s.mod.mode != .cold && s.mod.mode != .save

/-- A LINK_ID that is the first after its bring-up. With ENCRYPT = 1 and no fabric root the link stays down (R339). -/
def State.takeLinkId (s : State) (fallback : Bool) (id : LinkId) : State :=
  if s.matches_ id then
    if s.on F.PHL_CTL.ENCRYPT && s.cip.fabricRoot.isNone then s
    else if s.decidesLink then (s.knowPeer fallback id).decideLink id else s.knowPeer fallback id
  else
    let s1 := s.linkMismatch id
    if fallback then s1 else s1.setPh .ph0 PhState.reset

/-- The ring neighbour's LINK_ID: PH1 is up unless another product is found (R4). -/
def State.takeRingId (s : State) (id : LinkId) : State :=
  if id.product.toNat = s.fld F.GEN_ID.PRODUCT then s.setPh .ph1 { s.phl.ph1 with up := true }
  else (s.recFlag sevError .phl F.PHL_ERR.PEER_MISMATCH 1).setPh .ph1 PhState.reset

/-- The twin's last LINK_ID, as far as it has to be known later. -/
def PhlState.lastId (x : PhlState) : LinkId :=
  { position := 0, node := BitVec.ofNat 18 x.peerNode, product := 0, encrypt := false, epoch := BitVec.ofNat 32 x.peerEpoch,
    primary := x.peerPrimary, sent := BitVec.ofNat 32 x.peerSent, acked := 0, received := BitVec.ofNat 32 x.peerReceived,
    saveComplete := true, imageKept := x.peerKept }

/-- RESTORE entry: a link made in COLD is decided now (Table MOD-1). -/
def State.decideKept (s : State) : State :=
  if s.phl.twin = .linking ∧ s.phl.linkIdSeen = true then s.decideLink s.phl.lastId else s

/-- R225: the first LINK_ID after a bring-up. -/
def execLinkId (ch : LinkChan) (id : LinkId) (s : State) : Res :=
  match ch with
  | .ph0 => when_ (s.running .phl && s.phl.ph0.trained && !s.phl.ph0.up) s (s.takeLinkId false id)
  | .ph1 => when_ (s.running .phl && s.phl.ph1.trained && !s.phl.ph1.up) s (s.takeRingId id)
  | .fallback => when_ (s.running .phl && s.twinSession && !s.phl.linkIdSeen) s (s.takeLinkId true id)

/-- R251: the receiver holds no page until it has come, and takes the source's tables anew. -/
def execResyncStart (f : MFrame) (s : State) : Res :=
  s.rxFrame f true (fun s => if s.phl.twin = .resyncIn then
      (s.updPhl (fun x => { x with resyncLeft := s.mirroredPages, told := [] })).updFab (fun f => { f with twinDefs := [], twinSecrets := [] })
    else s)

/-- A resync is over on this device: homes return to their descriptor values, both twins are PAIRED (R255). -/
def State.endResync (s : State) : State :=
  let s1 := (s.unitsToCopies (fun u => match Tab.get s.regions u.region with
    | some r => r.homeOdd != s.odd
    | none => false)).updPhl (fun x =>
    { x with receiver := false, resyncKind := 0, resyncLeft := [], separation := [], servedAlone := false })
  ((s1.bump F.PHL_CNT1.RESYNCS).enterPaired).serveReads

def execResyncEnd (f : MFrame) (s : State) : Res :=
  s.rxFrame f true (fun s =>
    if s.phl.twin = .resyncIn then
      ((s.dropUntold.takePositions.updPhl (fun x => { x with resyncLeft := [] })).rescanLogs (fun r => r.homeOdd == s.odd)).endResync
    else s)

/-- Units and extents of regions that return to the twin: the fence of R52. -/
def State.returning (s : State) : Bool :=
  let away (n : Nat) : Bool := match Tab.get s.regions n with
    | some r => r.homeOdd != s.odd
    | none => false
  s.pst.units.any (fun u => !u.committed && away u.region) || s.pst.extents.any (fun e => away e.2.region)

def execResyncComplete (s : State) : Res :=
  when_ (s.running .phl && s.phl.twin == .resyncOut && s.phl.resyncLeft.isEmpty && !s.phl.unconfirmed.any (fun f => f.ty == 8) &&
      !s.returning) s
    ((s.sendFrame { Frame.mk0 13 with aux := 4 }).endResync)

end Sys2Proof.Machine
end

