-- ==== Sys2Proof/Machine/Destage.lean ====
section
/-! DEFINITION. Ceiling, charges, destage, NAND upkeep and the hold-up test (08 R256 to R285). -/

namespace Sys2Proof.Machine

/-! ### The ceiling (R261 to R264, R270, R272) -/

/-- C_eff from its terms, the energy and save-zone terms, and the limiter. -/
def State.ceilingTerms (s : State) (hup : Nat) : DstState :=
  let prog := s.fld F.DST_CEIL_CTL.PROG_CEIL
  let energy := if hup = 4095 then 0 else s.energyAt (s.bankVolt hup) (bitsOf s.freeVal 0 20)
  let save := s.dst.saveErased - 2048
  let c := min prog (min energy save)
  { s.dst with hupCode := hup, energyTerm := energy, saveTerm := save, ceff := c
               limiter := if hup = 4095 then 1 else if c = prog then 0 else if c = energy then 1 else 2 }

/-- HUP_SENSE reads full scale: its divider is wrong (R525). -/
def State.dividerRecord (s : State) (before : Nat) : State :=
  if s.dst.hupCode = 4095 ∧ before ≠ 4095 then s.record sevError .dst 1 22 0 Addr.DST_CEIL_STATUS else s

def execCeilingRecompute (hup : BitVec 12) (s : State) : Res :=
  let s1 := { s with dst := s.ceilingTerms hup.toNat, seq := { s.seq with codes := s.seq.codes.set 8 hup.toNat } }.drawFree
  when_ (s.running .dst) s ((s1.zoneStep 1).dividerRecord s.dst.hupCode)

/-- The oldest waiting charge of a held CXL write leaves its hold with it (R85). -/
def State.grantHeld (s : State) (u : CUnit) : State :=
  let s1 := (s.enroll u).zoneStep 0
  (s1.leaveHold u).pumpMirror

/-- R274: tenants below their guarantee first, then mirror copies, then the others in order of arrival. -/
def execChargeGrant (s : State) : Res :=
  let copy := s.waitingCopies.find? (fun c => s.copyFits c)
  match s.nextCharge, copy with
  | some u, none => when_ (s.running .dst) s (s.grantHeld u)
  | none, some c => when_ (s.running .dst) s (s.chargeCopy c)
  | some u, some c =>
    when_ (s.running .dst) s
      (if 16 * s.tenantPages u.tenant < s.guarantee u.tenant then s.grantHeld u else s.chargeCopy c)
  | none, none => .next s

/-! ### Destage -/

/-- Dirty near-cache sectors of a page written back to DDR5 (R278). -/
def State.cleanPage (s : State) (page : Nat) : State := (blocksOf (page * 16384) 16384).foldl (fun t b => t.cleanBlock b) s

/-- Poisoned lines of a page. -/
def State.pagePoison (s : State) (page : Nat) : List Nat := s.poison.filter (fun l => pageOf l == page)

/-- An ingress entry of the page has still to be placed: DDR5 does not hold its current contents. -/
def State.ingressHolds (s : State) (page : Nat) : Bool :=
  s.pst.units.any (fun u => u.cls != .d0 && u.overlaps (page * 16384) 16384) ||
  s.phl.copies.any (fun c => decide (c.dpa < (page + 1) * 16384) && decide (page * 16384 < c.dpa + c.span))

/-- The entry of a page in the map changes, and its segment has a change to write (R280). -/
def State.putMap (s : State) (page : Nat) (e : MapEntry) : State :=
  let seg := page / 131072
  s.updDst (fun d => { d with
    map := Tab.put d.map page e, destageSeq := d.destageSeq + 1
    dirtySegs := Tab.put d.dirtySegs seg (match Tab.get d.dirtySegs seg with
      | some (n, t) => (n + 1, t)
      | none => (1, s.time)) })

/-- The page's layers in save images are superseded; an image with none left is erased (R270, R296). -/
def State.dropImagePage (s : State) (page : Nat) : State :=
  let imgs := s.dst.images.map (fun i => { i with pages := i.pages.filter (· != page) })
  let gone := imgs.filter (fun i => i.pages.isEmpty)
  s.updDst (fun d => { d with images := imgs.filter (fun i => !i.pages.isEmpty), saveErased := d.saveErased + sumOf (gone.map (·.mib)) })

/-- The page's bit in the near-cache-dirty bitmap clears, unless a sector has become dirty meanwhile (R370). -/
def State.clearDirtyBit (s : State) (page : Nat) : State :=
  if s.nc.lines.any (fun e => e.1 / 4 == page && e.2.dirty != 0) || s.nc.victim.any (fun v => v.block / 4 == page && v.dirty != 0) then s
  else s.updNc (fun n => { n with dirtyMap := n.dirtyMap.filter (· != page) })

/-- The page is on NAND: its charge is released unless a unit came meanwhile (R258, R259, R271). -/
def State.pageDone (s : State) (page : Nat) : State :=
  let f (p : Page) : Page := if p.redirtied then { p with destaging := false, redirtied := false, since := s.time }
    else { p with destaging := false, dirty := false }
  (((s.updDst (fun d => { d with pages := Tab.upd d.pages page f })).dropImagePage page).clearDirtyBit page).zoneStep 0

/-- All zero: no program, ZERO in the map, the charge released at once (R279). -/
def State.mapZero (s : State) (page : Nat) : State :=
  let e : MapEntry := { valid := false, zero := true, poisonAny := false, channel := 0, ce := 0, lun := 0, block := 0, page := 0,
                        seq := s.dst.destageSeq % 2 ^ 20 }
  ((s.updDst (fun d => { d with
    nand := d.nand.clear (page * 16384) 16384, nandPoison := d.nandPoison.filter (fun l => pageOf l != page) })).putMap page e).pageDone page

/-- The page's channel has lost its contents (R362). -/
def State.chLostAt (s : State) (page : Nat) : Bool := ((s.mem.chans[channelOf page]?).map (·.lost)).getD false

/-- A page may be destaged now (R272, R282, R283, R297, R369, R458). -/
def State.mayDestage (s : State) (page : Nat) : Bool :=
  match Tab.get s.dst.pages page with
  | none => false
  | some p =>
    p.dirty && !p.destaging && !p.unrestored && !s.dst.nandShort && !s.dst.segReload.contains (page / 131072) &&
    s.mod.mode != .save && !s.ingressHolds page && !s.chLostAt page &&
    (s.dst.zone != 0 || s.mod.mode == .drain || decide (p.since + 1000000 * s.fld F.DST_CEIL_CTL.MIN_AGE ≤ s.time))

/-- Destage takes the oldest pages first; outside GREEN, those of tenants above their cap before the others (Table CEI-3). -/
def State.destageFirst (s : State) (page : Nat) : Bool :=
  match Tab.get s.dst.pages page with
  | none => false
  | some p =>
    let above (t : Nat) : Bool := s.dst.zone != 0 && decide (1024 * s.cap t < 16 * s.tenantPages t)
    !s.dst.pages.any (fun e => s.mayDestage e.1 &&
      (if above e.2.tenant = above p.tenant then decide (e.2.since < p.since) else above e.2.tenant))

/-- The storage keys of a page's blocks, one for each of its regions (R278, Table CIP-6). -/
def State.pageKeys (s : State) (page : Nat) : List KeyRef :=
  ((s.keptBlocks page).filterMap (fun i => (s.regionAt (page * 16384 + i * 4096)).map (fun e =>
    ({ root := 1, use := 0, purpose := 0x01, tenant := e.2.tenant, region := e.1, node := s.node, epoch := 0 } : KeyRef)))).eraseDups

/-- Destage, save and restore look their keys up in the cache (R344). -/
def State.usePageKeys (s : State) (page : Nat) : State := (s.pageKeys page).foldl (fun t k => t.useKey k) s

def State.startDestage (s : State) (page : Nat) : State :=
  let s1 := s.cleanPage page
  if (s1.pageImage page).isEmpty ∧ (s1.pagePoison page).isEmpty then s1.mapZero page
  else ((s1.ddrReads page (64 * (s1.keptBlocks page).length)).usePageKeys page).updDst (fun d =>
    { d with pages := Tab.upd d.pages page (fun p => { p with destaging := true, redirtied := false }) })

def execDestageStart (page : BitVec 30) (s : State) : Res :=
  when_ (s.running .dst && s.running .mem && s.mayDestage page.toNat && s.destageFirst page.toNat) s (s.startDestage page.toNat)

/-- Number of a NAND block. -/
def nandKey (a : NandAddr) : Nat :=
  ((a.channel.toNat * 8 + a.ce.toNat) * 4 + a.lun.toNat) * 2 ^ 18 + a.block.toNat

def mapEntryAt (a : NandAddr) (seq : Nat) (poison : Bool) : MapEntry :=
  { valid := true, zero := false, poisonAny := poison, channel := a.channel.toNat, ce := a.ce.toNat, lun := a.lun.toNat,
    block := a.block.toNat, page := a.page.toNat, seq := seq % 2 ^ 20 }

def MapEntry.key (e : MapEntry) : Nat := ((e.channel * 8 + e.ce) * 4 + e.lun) * 2 ^ 18 + e.block

/-- DST_WEAR follows the blocks (R285). -/
def DstState.wear (d : DstState) : DstState :=
  let erases := sumOf (d.blocks.map (fun e => e.2.erases))
  { d with avgPe := erases * 1000 / (Config.dataBlocks * Config.ratedErases)
           spareLeft := (Config.spareBlocks - d.retired) * 100 / Config.spareBlocks }

/-- Records of falling spare, each once as its threshold is passed (R285). -/
def State.spareRecords (s : State) (before : Nat) : State :=
  if s.dst.spareLeft < 10 ∧ 10 ≤ before then s.recFlag sevError .dst F.DST_ERR.SPARE_LOW 0
  else if s.dst.spareLeft < 25 ∧ 25 ≤ before then s.record sevWarn .dst 3 10 0 Addr.DST_WEAR
  else s

/-- The wear before a block has been retired: all spare is left. -/
def DstState.spare (d : DstState) : Nat := if d.retired = 0 then 100 else d.spareLeft

def putBlock (t : Tab NandBlock) (k : Nat) (f : NandBlock → NandBlock) : Tab NandBlock :=
  Tab.put t k (f ((Tab.get t k).getD { erases := 0, refreshed := false, retired := false }))

/-- A block is retired, with a NOTICE record (R285). -/
def State.retireBlock (s : State) (k : Nat) : State :=
  let before := s.dst.spare
  let s1 := s.updDst (fun d => { d with blocks := putBlock d.blocks k (fun b => { b with retired := true }), retired := d.retired + 1 }.wear)
  (s1.record sevNotice .dst 3 20 (k % 2 ^ 32) Addr.DST_WEAR).spareRecords before

/-- Blocks in use are retired together: a die's or a package's (R285, Table CAL-5). -/
def DstState.retireAll (d : DstState) (mine : Nat → Bool) : DstState :=
  ({ d with
    blocks := d.blocks.map (fun (e : Nat × NandBlock) => if mine e.1 then (e.1, { e.2 with retired := true }) else e)
    retired := d.retired + (d.blocks.filter (fun e => mine e.1 && !e.2.retired)).length } : DstState).wear

/-- The page's one copy on NAND lies on a FAILED die. -/
def State.onDeadDie (s : State) (page : Nat) : Bool :=
  !s.dst.images.any (fun i => i.pages.contains page) && (match Tab.get s.dst.map page with
    | some e => e.valid && s.cal.deadDies.contains (e.key / 2 ^ 18)
    | none => false)

/-- The valid pages of a block move to another. -/
def State.moveBlock (s : State) (k : Nat) (to_ : NandAddr) : State :=
  (s.dst.map.filter (fun e => e.2.valid && e.2.key == k)).foldl (fun t e =>
    t.putMap e.1 { mapEntryAt to_ t.dst.destageSeq e.2.poisonAny with page := e.2.page }) s

/-- A block that the spec does not name: the erased block of least wear (R284). -/
def State.freeAddr (s : State) : NandAddr :=
  { channel := s.freeVal.setWidth 5, ce := (s.freeVal >>> 5).setWidth 3, lun := (s.freeVal >>> 8).setWidth 2,
    block := (s.freeVal >>> 10).setWidth 18, page := (s.freeVal >>> 28).setWidth 12 }

/-- The program has succeeded and the map holds the page (R271), or it has failed and the block goes (R285). -/
def State.finishDestage (s : State) (page : Nat) (at_ : NandAddr) (ok : Bool) : State :=
  if ok then
    let img := s.pageImage page
    let bad := s.pagePoison page
    (((s.updDst (fun d => { d with
      nand := (d.nand.clear (page * 16384) 16384).writeCells img
      nandPoison := d.nandPoison.filter (fun l => pageOf l != page) ++ bad })).putMap page
        (mapEntryAt at_ s.dst.destageSeq (!bad.isEmpty))).pageDone page).countEvent 0x050 1 none (some at_.channel.toNat)
  else
    (((s.updDst (fun d => { d with pages := Tab.upd d.pages page (fun p => { p with destaging := false, redirtied := false }) })).moveBlock
      (nandKey at_) s.freeAddr).drawFree).retireBlock (nandKey at_)

/-- In SAVE a program that fails sends its stream to another block (R290). -/
def execDestageComplete (page : BitVec 30) (at_ : NandAddr) (ok : Bool) (s : State) : Res :=
  if s.dst.saving && !ok then when_ (s.running .dst) s (s.bump F.DST_CNT3.SAVE_PROG_FAILS)
  else when_ (s.running .dst && ((Tab.get s.dst.pages page.toNat).map (·.destaging)).getD false) s (s.finishDestage page.toNat at_ ok)

/-- R280: 4,096 changes, or 60 s after the first. -/
def execMapSegmentWrite (segment : BitVec 12) (s : State) : Res :=
  match Tab.get s.dst.dirtySegs segment.toNat with
  | none => .next s
  | some (n, t) =>
    when_ (s.running .dst && (decide (4096 ≤ n) || decide (t + 60000000000 ≤ s.time))) s
      (s.updDst (fun d => { d with dirtySegs := Tab.del d.dirtySegs segment.toNat }))

/-- R369: destage and restore of the segment's pages resume. -/
def execMapSegmentReload (segment : BitVec 12) (s : State) : Res :=
  when_ (s.running .dst && s.dst.segReload.contains segment.toNat) s
    (s.updDst (fun d => { d with segReload := d.segReload.filter (· != segment.toNat) }))

/-- The valid pages of a block move away, and it returns to the free pool, erased. -/
def State.freeBlock (s : State) (k : Nat) (to_ : NandAddr) : State :=
  (s.moveBlock k to_).updDst (fun d => { d with blocks := putBlock d.blocks k (fun b => { b with erases := b.erases + 1 }) }.wear)

/-- Valid pages of a block. -/
def State.validIn (s : State) (k : Nat) : Nat := (s.dst.map.filter (fun e => e.2.valid && e.2.key == k)).length

/-- The block with the fewest valid pages, of those that hold any (R281). -/
def State.gcVictim (s : State) : Option Nat :=
  let keys := (s.dst.map.filter (fun e => e.2.valid)).map (fun e => e.2.key)
  keys.find? (fun k => keys.all (fun j => decide (s.validIn k ≤ s.validIn j)))

/-- R281: with the erased blocks of the data zone in tenths of a percent. -/
def execGarbageCollection (erased : BitVec 10) (to_ : NandAddr) (s : State) : Res :=
  let s1 := s.updDst (fun d => { d with gcRunning := decide (erased.toNat < 30) })
  when_ (s.running .dst && s.mod.mode != .save) s
    (match s.gcVictim with
     | some k => if erased.toNat < 30 ∧ k ≠ nandKey to_ then s1.freeBlock k to_ else s1
     | none => s1)

/-- R284: the erase count of a block is 500 below the average of its channel's blocks in use (DESIGN CHOICE: blocks never erased
do not count, notes/assumptions/101.md). -/
def State.wearLow (s : State) (k : Nat) : Bool :=
  let l := (s.dst.blocks.filter (fun e => e.1 / 2 ^ 23 == k / 2 ^ 23)).map (fun e => e.2.erases)
  !l.isEmpty && decide ((((Tab.get s.dst.blocks k).map (·.erases)).getD 0 + 500) * l.length ≤ sumOf l)

def execWearMove (from_ to_ : NandAddr) (s : State) : Res :=
  when_ (s.running .dst && s.mod.mode != .save && (nandKey from_) != (nandKey to_) && s.wearLow (nandKey from_)) s
    (s.freeBlock (nandKey from_) to_)

/-- A patrol read of a data-zone block finds its worst codeword (R285). -/
def State.patrolBlock (s : State) (k worst : Nat) (to_ : NandAddr) : State :=
  if s.fld F.DST_NAND_CFG.REFRESH_PCT < worst then
    let before := ((Tab.get s.dst.blocks k).map (·.refreshed)).getD false
    let s1 := ((s.freeBlock k to_).updDst (fun d => { d with blocks := putBlock d.blocks k (fun b => { b with refreshed := true }) })).bump
      F.DST_CNT3.REFRESHES
    if before ∧ s.fld F.DST_NAND_CFG.RETIRE_PCT < worst then s1.retireBlock k else s1
  else s

/-- An erased block of the save zone fails its erase-verify: the zone is smaller by it (R270, R285). -/
def State.retireSave (s : State) (k : Nat) : State :=
  (s.updDst (fun d => { d with saveErased := d.saveErased - Config.saveBlockMib })).retireBlock k

def execPatrol (at_ : NandAddr) (save : Bool) (worst : BitVec 7) (verified : Bool) (to_ : NandAddr) (s : State) : Res :=
  when_ (s.running .dst && s.mod.mode != .save) s
    (if save then (if verified then s else s.retireSave (nandKey at_)) else s.patrolBlock (nandKey at_) worst.toNat to_)

/-! ### The hold-up test (R265 to R269) -/

/-- Bank voltage after the four discharges of a test, each of the slope R265 gives. -/
def State.voltAfter (s : State) : Nat :=
  let v := s.bankVolt s.dst.hupCode
  v - 4 * v * s.fld F.DST_HUP_CTL.TEST_MS * 10 / (s.fld F.DST_HUP_CTL.R_TEST * s.bankC)

/-- The energy term would fall below L + 10 % (R267). -/
def State.testTooDear (s : State) : Bool :=
  decide (10240 * s.energyAt s.voltAfter (bitsOf s.freeVal 0 20) < 11 * s.levelKib)

/-- A test starts, or is deferred. -/
def State.startTest (s : State) : State :=
  if s.testTooDear then
    let late := s.dst.deferred ≠ 0 ∧ s.dst.deferSince + 3600000000000 * s.fld F.DST_HUP_CTL.TEST_PERIOD ≤ s.time
    let s1 := (s.bump F.DST_CNT0.TESTS_DEFERRED).updDst (fun d =>
      { d with deferred := if late then 2 else max 1 d.deferred, deferSince := if d.deferred = 0 then s.time else d.deferSince })
    if late ∧ s.dst.deferred = 1 then s1.record sevError .dst 3 48 0 Addr.DST_CNT0 else s1
  else { s with dst := { s.dst with testing := true, deferred := 0 }, seq := { s.seq with hupTestEn := true } }

/-- AON drives HUP_TEST_EN in UP alone (R404). -/
def State.mayTest (s : State) : Bool := s.running .dst && s.seq.st == .up && !s.dst.testing && s.mod.mode != .save

def execHoldUpTest (s : State) : Res := when_ s.mayTest s s.startTest.drawFree

/-- DST_HUP_CTL.TEST_NOW reads 1 until the test ends. -/
def execTestNow (s : State) : Res := when_ s.mayTest s (s.setFld F.DST_HUP_CTL.TEST_NOW 1).startTest.drawFree

def execTestRetry (s : State) : Res := when_ (s.mayTest && decide (s.dst.deferred ≠ 0)) s s.startTest.drawFree

/-- A result lies outside the limits of R268. -/
def State.implausible (s : State) (c esr : Nat) : Bool :=
  let rc := s.fld F.DST_HUP_RATED.RATED_C
  decide (10 * c < rc) || decide (2 * rc < c) || decide (10 * s.fld F.DST_HUP_RATED.RATED_ESR < esr)

def State.weak (s : State) (c esr : Nat) : Bool :=
  decide (100 * c < 80 * s.fld F.DST_HUP_RATED.RATED_C) || decide (2 * s.fld F.DST_HUP_RATED.RATED_ESR < esr)

/-- The test is over: the pin falls, TEST_NOW clears. -/
def State.endTest (s : State) : State :=
  { s with dst := { s.dst with testing := false }, seq := { s.seq with hupTestEn := false } }.setFld F.DST_HUP_CTL.TEST_NOW 0

/-- A valid result is kept (R268). -/
def State.takeMeasure (s : State) (c esr : Nat) : State :=
  let s1 := (s.updDst (fun d => { d with measC := c, measEsr := esr, measValid := true, measTime := s.time })).bump F.DST_CNT0.TESTS_DONE
  let s2 := if s.weak c esr then s1.recFlag sevWarn .dst F.DST_ERR.HUP_WEAK 0 else s1
  s2.recordFull sevInfo .dst 3 32 0 Addr.DST_CNT0 (BitVec.ofNat 64 (c + esr * 65536))
    (BitVec.ofNat 64 (s1.energyAt (s1.bankVolt s1.dst.hupCode) (bitsOf s.freeVal 0 20)))

def execHupTestResult (c esr : BitVec 16) (s : State) : Res :=
  when_ (s.running .dst && s.dst.testing) s
    (if s.implausible c.toNat esr.toNat then s.endTest.recFlag sevError .dst F.DST_ERR.HUP_IMPLAUSIBLE 0
     else (s.endTest.takeMeasure c.toNat esr.toNat).drawFree)

/-! ### Page query -/

/-- DST_PAGE_Q reports the page (R260). -/
def State.queryPage (s : State) (page : Nat) : State :=
  let poison := s.poison.any (fun l => pageOf l == page) || s.dst.nandPoison.any (fun l => pageOf l == page)
  (((s.setFld F.DST_PAGE_Q.PAGE page).setFld F.DST_PAGE_Q.STATE (s.pageState page)).setFld F.DST_PAGE_Q.POISON_ANY (b2n poison)).setFld
    F.DST_PAGE_Q.IN_SAVE_IMAGE (b2n (s.dst.images.any (fun i => i.complete && i.pages.contains page)))

def execPageQuery (page : BitVec 30) (s : State) : Res := when_ (s.running .dst) s (s.queryPage page.toNat)

end Sys2Proof.Machine
end

