-- ==== Sys2Proof/Machine/PowerCore.lean ====
section
/-! DEFINITION. What a loss of power or a reset of the islands takes and what it leaves (01 R31, R32, 02 R43 to R47, R70 to
R75, 08 R286 to R293). -/

namespace Sys2Proof.Machine

def State.setRun (s : State) (i : Island) (r : Run) : State := { s with isl := s.isl.set i.code r }

def State.setRuns (s : State) (l : List Island) (r : Run) : State := l.foldl (fun t i => t.setRun i r) s

/-- Windows that AON serves (19): GEN, SEQ, LPS, DBG. -/
def aonWindow (w : Nat) : Bool := w == 0 || w == 1 || w == 2 || w == 18

/-- Every island but AON. -/
def otherIslands : List Island := [.ctl, .pe, .hst, .fab, .phl, .pst, .dst, .nc, .tir, .cip, .mem, .cal, .cfl, .contrail]

/-! ### What survives -/

/-- A queue pair as it is re-created: its rings lie in D0 memory and are empty. -/
def Qp.fresh (q : Qp) : Qp :=
  { q with sqTail := 0, sqHead := 0, cqTail := 0, cqHead := 0, phase := true, posted := [], turn := 0, as8200 := false, sigSecond := 0,
           sigCount := 0, sigDropped := 0, destroyer := [] }

/-- NAND and what it holds, the last measurements of the bank (R264). -/
def DstState.kept (d : DstState) : DstState :=
  { DstState.reset with
    map := d.map, nand := d.nand, nandPoison := d.nandPoison, images := d.images, saveNo := d.saveNo, destageSeq := d.destageSeq,
    measC := d.measC, measEsr := d.measEsr, measValid := d.measValid, measTime := d.measTime, blocks := d.blocks, avgPe := d.avgPe,
    retired := d.retired, spareLeft := d.spareLeft, saveErased := d.saveErased, lastIncomplete := d.lastIncomplete,
    testCut := d.testCut }

/-- Queue pairs, the journal states of commands cut short (R75), and the program store. -/
def PeState.kept (p : PeState) : PeState :=
  { PeState.reset with qps := p.qps.map (fun e => (e.1, e.2.fresh)), cmds := p.cmds, nextCmd := p.nextCmd, procs := p.procs }

/-- Epoch, separation bitmap, and whether the lease was held (Table TWN-9). -/
def PhlState.kept (x : PhlState) : PhlState :=
  { PhlState.reset with epoch := x.epoch, separation := x.separation, heldAtSave := x.primary, servedAlone := x.servedAlone, hbIn := x.hbIn }

/-- Remap words, retired pages and erase masks of a channel (R377), and that it is out (R500). -/
def MemCh.kept (c : MemCh) : MemCh := { MemCh.reset with remap := c.remap, redirects := c.redirects, spare := c.spare, erased := c.erased,
                                                               out := c.out, lost := c.out }

def RecState.kept (c : RecState) : RecState :=
  { RecState.reset with log := c.log, reserve := c.reserve, nextNo := c.nextNo, clearPoint := c.clearPoint, clearMask := c.clearMask }

/-- Logs after their last committed record and checkpoint; nothing is in progress. -/
def CipState.kept (c : CipState) : CipState :=
  { CipState.reset with fabricRoot := c.fabricRoot, sealRoot := c.sealRoot
                        logs := c.logs.map (fun e => (e.1, { e.2.rollback with items := [] })) }

def CalState.kept (c : CalState) : CalState := { CalState.reset with seeds := c.seeds, offsets := c.offsets, deadDies := c.deadDies }

def CflState.kept (c : CflState) : CflState :=
  { c with bank0 := Bank.reset, bank1 := Bank.reset, busy := false, stopped := false }

/-- AON's registers, the quarantine mask of the calibration store (R349), and the restored ROLLED_BACK count (R77). -/
def keptRegs (t : Tab Word) : Tab Word :=
  let r := t.filter (fun e => aonWindow (windowOf e.1) || e.1 == Addr.CIP_QUAR)
  putFld r F.PST_DUR_CNT1.ROLLED_BACK
    (bitsOf ((Tab.get t Addr.PST_DUR_CNT1).getD 0) F.PST_DUR_CNT1.ROLLED_BACK.lsb F.PST_DUR_CNT1.ROLLED_BACK.width)

/-- Every island but AON loses its state. Kept are AON, what NAND and the configuration flash hold, fuses, and the metadata
image: regions, seal state, session definitions, queue pairs, separation bitmap. Loans have ended (R322). D0 bytes read as zero
again (R43). -/
def State.islandsLost (s : State) (r : Run) : State :=
  { State.reset with
    pending := s.pending, time := s.time, freeCtr := s.freeCtr, boot := s.boot, marks := s.marks, out := s.out
    regs := keptRegs s.regs, staged := s.staged.filter (fun x => aonWindow (windowOf x.addr))
    isl := s.run .aon :: List.replicate 14 r, clocks := s.clocks, lost := s.lost, early := s.early
    regions := s.regions.map (fun e => (e.1, { e.2 with warned := false })), tenants := s.tenants
    pst := { units := [], nextUnit := s.pst.nextUnit, extents := [], nextExtent := s.pst.nextExtent, xreqs := [] }
    phl := s.phl.kept, dst := s.dst.kept, pe := s.pe.kept, seq := s.seq, contrail := s.contrail.kept
    tir := { TirState.reset with nextLoan := s.tir.nextLoan, plan := s.tir.plan, planKey := s.tir.planKey }
    cip := s.cip.kept
    fab := { FabState.reset with defs := s.fab.defs, twinDefs := s.fab.twinDefs, members := s.fab.members, secrets := s.fab.secrets,
                                 twinSecrets := s.fab.twinSecrets }
    mem := { MemState.reset with chans := s.mem.chans.map MemCh.kept, removed := s.mem.removed }
    cal := s.cal.kept, cfl := s.cfl.kept, lps := { s.lps with st := 0, ready := 0, cleanCurrent := false, latched := 0, held := 0, waiting := [] }, dbg := s.dbg
    svc := { SvcState.reset with migrating := s.svc.migrating, chOut := s.svc.chOut }
    eid := s.eid, jtagPins := s.jtagPins }

/-! ### The save image (R286) -/

/-- Pages with dirty contents in DDR5 or the near cache; a page not yet restored keeps its sources on NAND (R300). -/
def State.savePages (s : State) : List Nat := (s.dst.pages.filter (fun e => e.2.dirty && !e.2.unrestored)).map (·.1)

/-- A copy as it is kept over a power loss: its number does not meet one of a later link. -/
def Copy.stored (c : Copy) : Copy := { c with msn := 2 ^ 33 + c.msn % 2 ^ 33 }

/-- The image of the persistence domain (R44, R286). -/
def State.saveImage (s : State) : SaveImage :=
  let pages := s.savePages.filter (fun p => s.dst.dirtyChannels.contains (channelOf p))
  let s1 := pages.foldl (fun t p => t.cleanPage p) s
  { no := s.dst.saveNo + 1, complete := true
    units := s.pst.units.filter (fun u => u.cls != .d0), extents := (s.pst.extents.map (·.2)).filter (·.opened)
    copies := s.phl.copies.map Copy.stored, frames := s.phl.unacked ++ s.phl.fwdParts, pages := pages
    ddr := pages.flatMap (fun p => s1.pageImage p)
    poison := s.poison.filter (fun l => pages.contains (pageOf l))
    mib := s.saveMib }

/-- Images whose pages have not all been taken and destaged stay (R270, R300). -/
def DstState.addImage (d : DstState) (i : SaveImage) : DstState :=
  { d with images := d.images.filter (fun x => !x.pages.isEmpty) ++ [i], saveNo := i.no, saveErased := d.saveErased - i.mib }

/-- An image that says only which pages were lost. -/
def SaveImage.lost (no : Nat) (pages : List Nat) : SaveImage :=
  { no := no, complete := false, units := [], extents := [], copies := [], frames := [], pages := pages, ddr := [],
    poison := [], mib := 0 }

/-- Nothing has been admitted since power-up (R461). -/
def State.nothingAdmitted (s : State) : Bool :=
  match s.mod.mode with
  | .cold => true
  | .save => s.mod.prev == .cold
  | _ => false

/-- A save that ran to its end (R72). A save from COLD found nothing admitted and leaves the previous image current (R461).
Pages of a channel whose switch was lost meanwhile were not saved, and the save has no completion record (R398). -/
def State.savedImage (s : State) : State :=
  let lost := s.savePages.filter (fun p => !s.dst.dirtyChannels.contains (channelOf p))
  if s.nothingAdmitted then s
  else if lost.isEmpty then s.updDst (fun d => { d.addImage s.saveImage with lastIncomplete := false })
  else s.updDst (fun d => { (d.addImage s.saveImage).addImage (SaveImage.lost (s.dst.saveNo + 2) lost) with lastIncomplete := true })

/-- No completion record: the dirty pages are lost (R72, R292). -/
def State.unsavedImage (s : State) : State :=
  if s.nothingAdmitted then s
  else s.updDst (fun d => { d.addImage (SaveImage.lost (s.dst.saveNo + 1) s.savePages) with lastIncomplete := true })

/-! ### Intake stop -/

/-- An interrupting recalibration window is open. -/
def State.windowOpen (s : State) : Bool := s.cal.units.any (fun e => e.2.window)

/-- HST, FAB and PE stop taking work in; CTL, PE and TIR are held in reset, and CAL once no window is open; the mode is SAVE
(R31, R32, R456). -/
def State.enterSave (s : State) : State :=
  let s1 := (((s.updPe (fun p => { p with stopped := true })).endLent).toMode .save sevCritical)
  (s1.setRuns (if s.windowOpen then [.ctl, .pe, .tir] else [.ctl, .pe, .tir, .cal]) .inReset).updMod (fun m => { m with intakeClosed := true, frozen := false })

end Sys2Proof.Machine
end

