-- ==== Sys2Proof/Machine/Dram.lean ====
section
/-! DEFINITION. The DRAM subsystem: population, sensors, error correction, repair, retirement, fills and the Drift scrubber
(11 R358 to R380). -/

namespace Sys2Proof.Machine

def State.updMem (s : State) (f : MemState → MemState) : State := { s with mem := f s.mem }

/-- One channel changed. -/
def State.updCh (s : State) (k : Nat) (f : MemCh → MemCh) : State :=
  s.updMem (fun m => { m with chans := m.chans.modify k f })

def State.ch (s : State) (k : Nat) : MemCh := (s.mem.chans[k]?).getD MemCh.reset

/-! ### Population (R358 to R360) -/

/-- RDIMMs the check counts: a channel recorded as out is exempt (R500). -/
def State.popDimms (s : State) (l : List Dimm) : List Dimm := l.filter (fun d => !s.svc.chOut.contains d.channel.toNat)

/-- The first rule of Table MEM-1 that fails: channel, slot and rule number. -/
def State.popFault (s : State) (all : List Dimm) : Option (Nat × Nat × Nat) :=
  let l := s.popDimms all
  let count (k : Nat) : Nat := (l.filter (fun d => d.channel.toNat == k)).length
  let chans := (List.range 16).filter (fun k => !s.svc.chOut.contains k)
  let per := count (chans.headD 0)
  let gib := (l.head?.map (fun d => d.gib.toNat)).getD 0
  let at_ (rule : Nat) (d : Dimm) : Nat × Nat × Nat := (d.channel.toNat, d.slot.toNat, rule)
  List.findSome? id
    [ (chans.find? (fun k => count k == 0)).map (fun k => (k, 0, 1)),
      (chans.find? (fun k => count k != per || decide (2 < count k))).map (fun k => (k, 1, 2)),
      (l.find? (fun d => !d.typeOk)).map (at_ 3),
      (l.find? (fun d => d.gib.toNat != gib || !([64, 96, 128, 192, 256].contains d.gib.toNat))).map (at_ 4),
      (l.find? (fun d => d.speed == 0)).map (at_ 5),
      (l.find? (fun d => !d.sideOk)).map (at_ 6) ]

/-- Highest rate every RDIMM supports, as MEM_POP.SPEED (R360). -/
def popSpeed (l : List Dimm) : Nat := l.foldl (fun m d => min m d.speed.toNat) 3

def MemState.withPresent (m : MemState) (l : List Dimm) : MemState :=
  { m with chans := (m.chans.zip (List.range 16)).map (fun e => { e.1 with present := l.any (fun d => d.channel.toNat == e.2) }) }

/-- The population is accepted: capacity, rate, and the top of usable DPA (R376). -/
def State.takePopulation (s : State) (l : List Dimm) : State :=
  let c := s.popDimms l
  let per := (c.filter (fun d => d.channel == (c.head?.map (·.channel)).getD 0)).length
  let gib := (c.head?.map (fun d => d.gib.toNat)).getD 0
  let s1 := s.updMem (fun m => { m with
    valid := true, invalid := false, dpc := per, gib := gib, speed := popSpeed c, limit := 16 * per * gib * 4096 - m.removed })
  if popSpeed c < 3 then s1.record sevWarn .mem 1 27 0 Addr.MEM_POP else s1

def State.checkPopulation (s : State) (l : List Dimm) : State :=
  let s1 := s.updMem (fun m => m.withPresent l)
  match s1.popFault l with
  | none => s1.takePopulation l
  | some (ch, slot, rule) =>
    (s1.updMem (fun m => { m with valid := false, invalid := true })).recordFull sevFatal .mem 2 0 ch Addr.MEM_ERR
      (BitVec.ofNat 64 (ch + 256 * slot)) (BitVec.ofNat 64 rule)

def execPopulationCheck (dimms : List Dimm) (s : State) : Res :=
  when_ (s.running .mem && s.mod.mode == .cold && s.seq.st == .up) s (s.checkPopulation dimms)

/-! ### Sensors (R361, R362) -/

/-- MEM acts on a channel's hottest sensor. -/
def State.sensorRead (s : State) (k temp : Nat) : State :=
  let limit := s.fld F.MEM_CTL.TEMP_THROTTLE
  let was := (s.ch k).throttled
  let now := decide (limit ≤ temp) || (was && decide (limit < temp + 5))
  let s1 := s.updCh k (fun c => { c with temp := temp, fastRefresh := decide (85 ≤ temp), throttled := now })
  if now && !was then s1.recFlag sevWarn .mem F.MEM_ERR.TEMP_HIGH k else s1

def execThermalSensorRead (ch : BitVec 4) (temp : BitVec 8) (s : State) : Res :=
  when_ (s.running .mem && s.mem.valid && !(s.ch ch.toNat).lost) s (s.sensorRead ch.toNat temp.toNat)

/-! ### A channel goes out of service -/

/-- Regions whose D2 and D3 pages have no data on either device (R500). -/
def State.noDataRecords (s : State) : State :=
  (s.regions.filter (fun e => e.2.floor == .d2 || e.2.floor == .d3)).foldl (fun t e =>
    t.record sevCritical .ctl 3 8 e.1 Addr.SVC_STATUS) s

/-- The channel is out: the twin is told, and serves its pages (R498). -/
def State.takeChOut (s : State) (k : Nat) (lost : Bool) : State :=
  let s1 := s.updCh k (fun c => { c with out := true, lost := c.lost || lost })
  let s2 := { s1 with svc := { s1.svc with
    chOut := if s1.svc.chOut.contains k then s1.svc.chOut else s1.svc.chOut ++ [k]
    filling := s1.svc.filling.filter (fun p => channelOf p != k) } }
  if s2.phl.twin.linked then s2.sendFrame { Frame.mk0 13 with aux := 6 + 256 * k }
  else if s2.phl.twin = .alone then s2.noDataRecords else s2

/-- What a channel held without being emptied first is gone: dirty pages of D1 regions homed here are poisoned, and D0 blocks
read as zero. -/
def State.loseChannel (s : State) (k : Nat) : State :=
  let dirty := ((s.dst.pages.filter (fun e => e.2.dirty && channelOf e.1 == k)).map (·.1)).flatMap (fun p => s.ownBlocks p)
  let bad := (dirty.flatMap (fun b => linesOf b 4096)).filter (fun l => !s.poison.contains l)
  let blank (a : Nat) : Bool := channelOf (pageOf a) == k && (match s.regionAt a with
    | some (_, r) => r.floor == .d0
    | none => true)
  { s with ddr := s.ddr.filter (fun c => !blank c.1), poison := s.poison ++ bad }

/-- A rail of the channel's RDIMMs is lost (R362, Table PWR-7). -/
def State.chLost (s : State) (k : Nat) : State :=
  if (s.ch k).lost then s else ((s.loseChannel k).takeChOut k true)

def execPmicRead (ch : BitVec 4) (fault : Bool) (s : State) : Res :=
  when_ (s.running .mem && fault && !(s.ch ch.toNat).out) s
    ((s.chLost ch.toNat).record sevError .mem 1 27 ch.toNat Addr.MEM_CH_STATUS)

/-! ### Hard lines, remap and retirement (R374 to R376) -/

def overlap (a n b m : Nat) : Bool := decide (a < b + m) && decide (b < a + n)

/-- DPA of a line's first byte. -/
def lineDpa (line : BitVec 38) : Nat := 64 * line.toNat

def lineCh (dpa : Nat) : Nat := channelOf (pageOf dpa)

/-- A line is found hard: it takes a free remap word, unless it is the third of its page. -/
def State.hardLine (s : State) (dpa : Nat) : State :=
  let k := lineCh dpa
  let c := s.ch k
  if c.hard.contains dpa then s
  else
    let n := (c.hard.filter (fun l => pageOf l == pageOf dpa)).length
    s.updCh k (fun c => { c with
      hard := c.hard ++ [dpa]
      remap := if c.remap.length < 8 ∧ n < 2 then Tab.put c.remap (Tab.fresh c.remap 0) dpa else c.remap })

/-- A page must be retired: three of its lines are hard, or one has found no remap word. -/
def State.retireDue (s : State) (page : Nat) : Bool :=
  let c := s.ch (channelOf page)
  let l := c.hard.filter (fun d => pageOf d == page)
  decide (3 ≤ l.length) || l.any (fun d => !c.remap.any (fun e => e.2 == d))

/-- The highest 256 KiB group below LIMIT lies in no region and no enabled fence window. -/
def State.groupFree (s : State) : Bool :=
  let lo := (s.mem.limit - 1) * 262144
  decide (0 < s.mem.limit) && !s.regions.any (fun e => e.2.overlaps lo 262144) &&
  !([Port.hp0, Port.hp1].any (fun p => (List.range 16).any (fun ld => match s.fenceWindow p ld with
    | some a => decide (lo ≤ a) && decide (a < lo + 262144)
    | none => false)))

/-- Sixteen replacement pages, one in each channel, come from the top of DPA. -/
def State.takeGroup (s : State) : State :=
  s.updMem (fun m => { m with limit := m.limit - 1, removed := m.removed + 1, chans := m.chans.map (fun c => { c with spare := c.spare + 1 }) })

/-- The page moves to a replacement page, and the remap words of its lines are free. -/
def State.redirect (s : State) (page : Nat) : State :=
  let k := channelOf page
  ((s.updCh k (fun c => { c with
    spare := c.spare - 1, redirects := if c.redirects.contains page then c.redirects else c.redirects ++ [page]
    hard := c.hard.filter (fun d => pageOf d != page), remap := c.remap.filter (fun e => pageOf e.2 != page) })).bump
      F.MEM_CNT2.RETIRED_PAGES).record sevNotice .mem 3 16 page Addr.MEM_CNT2

def State.retirePage (s : State) (page : Nat) : State :=
  let c := s.ch (channelOf page)
  if c.redirects.length < 1024 ∧ 0 < c.spare then s.redirect page
  else if c.redirects.length < 1024 ∧ s.groupFree = true then s.takeGroup.redirect page
  else s.recFlag sevError .mem F.MEM_ERR.RETIRE_FULL page

def execPageRetirement (page : BitVec 30) (s : State) : Res :=
  when_ (s.running .mem && s.retireDue page.toNat) s (s.retirePage page.toNat)

/-! ### Corrected errors (R365, R366) -/

/-- Number of a device position within its channel. -/
def posCode (rank sub device : Nat) : Nat := (2 * rank + sub) * 16 + device

/-- Lines in which a position has been corrected in this pass. -/
def MemCh.hits (c : MemCh) (pos : Nat) : Nat := (c.corrected.filter (fun e => e.1 == pos)).length

/-- The position reaches DEV_THR: its rank and subchannel go to erase mode, or are there already, perhaps for another device. -/
def State.deviceFailed (s : State) (k rank sub device : Nat) : State :=
  if !s.on F.MEM_CTL.DEV_ERASE_EN then s
  else
    let arg : Word := BitVec.ofNat 64 (k + 256 * (rank / 2) + 65536 * rank + 16777216 * device)
    match Tab.get (s.ch k).erased (2 * rank + sub) with
    | some d => if d = device then s else s.recordFull sevCritical .mem 2 1 k Addr.MEM_ERR arg 0
    | none =>
      (((s.updCh k (fun c => { c with erased := Tab.put c.erased (2 * rank + sub) device })).flag F.MEM_ERR.DEVICE_FAILED).recordFull
        sevError .mem 2 1 k Addr.MEM_ERR arg 0)

/-- A correction is attributed to its device position. -/
def State.attribute_ (s : State) (dpa rank device : Nat) : State :=
  let k := lineCh dpa
  let pos := posCode rank (dpa / 64 % 2) device
  if (s.ch k).corrected.contains (pos, dpa) then s
  else
    let s1 := s.updCh k (fun c => { c with corrected := c.corrected ++ [(pos, dpa)] })
    if (s1.ch k).hits pos = s.fld F.MEM_CTL.DEV_THR then s1.deviceFailed k rank (dpa / 64 % 2) device else s1

/-- The re-read decides: soft, or hard. -/
def State.judge (s : State) (again : Bool) : State := if again then s.bump F.MEM_CNT0.HARD else s.bump F.MEM_CNT0.CORRECTED

/-- A block's way is out of use until the next power-up, its dirty sectors written back first (R365). -/
def State.disableWay (s : State) (b : Nat) : State :=
  match Tab.get s.nc.lines b with
  | none => s
  | some l => ((s.cleanBlock b).dropBlock b).updNc (fun n => { n with disabled := n.disabled ++ [(setOf b, l.way)] })

/-- A write waits for the line: a committed unit or a copy yet to be placed. -/
def State.writeWaits (s : State) (dpa : Nat) : Bool :=
  s.pst.units.any (fun u => u.committed && overlap u.dpa u.len dpa 64) || s.phl.copies.any (fun c => c.committed && overlap c.dpa c.span dpa 64)

/-- A corrected DDR5 line: written back and read again, unless the scrubber drops its write-back for a write that waits (R368). -/
def State.correctLine (s : State) (again scrub : Bool) (dpa rank device : Nat) : State :=
  let s1 := (s.attribute_ dpa rank device).countEvent 0x092 1 none (some (lineCh dpa))
  if scrub && s.writeWaits dpa then s1.bump F.MEM_CNT3.SCRUB_CANCELS
  else if again then (s1.judge true).hardLine dpa else s1.judge false

def State.correct (s : State) (again : Bool) : CeSite → State
  | .ddr line rank device scrub => s.correctLine again scrub (lineDpa line) rank.toNat device.toNat
  | .nearCache b => if again then (s.judge true).disableWay b.toNat else s.judge false
  | .other => s.judge again

def execCorrectedError (site : CeSite) (again : Bool) (s : State) : Res := when_ (s.running .mem) s (s.correct again site)

/-! ### Uncorrectable errors (R367 to R370) -/

/-- MEM_ERR_LOG: line, source and outcome. -/
def State.errLog (s : State) (dpa source outcome : Nat) : State :=
  (((s.setFld F.MEM_ERR_LOG.LINE (dpa / 64)).setFld F.MEM_ERR_LOG.CHANNEL (lineCh dpa)).setFld F.MEM_ERR_LOG.SOURCE source).setFld
    F.MEM_ERR_LOG.OUTCOME outcome

/-- No source is left: the line is poisoned, with an ERROR record once per channel per second. -/
def State.poisonLine (s : State) (dpa : Nat) : State :=
  let s1 := if s.poison.contains dpa then s else { s with poison := s.poison ++ [dpa] }.bump F.MEM_CNT2.POISONED
  let s2 := s1.setFld F.MEM_ERR_LOG.OUTCOME 3
  let k := 300 + lineCh dpa
  if s2.firstInSecond k then
    (s2.mark k).recordFull sevError .mem 3 0 (((s.regionAt dpa).map (·.1)).getD 0) Addr.MEM_CNT2 (BitVec.ofNat 64 dpa) 0
  else s2

/-- The twin can supply the line: it holds the region, and serves. -/
def State.twinSupplies (s : State) (dpa : Nat) : Bool :=
  (s.phl.twin == .paired || s.phl.twin == .fallback) && (match s.regionAt dpa with
    | some (_, r) => r.floor == .d2 || r.floor == .d3
    | none => false)

/-- NAND can: the page is DESTAGED on a die that reads, and the line lies outside its D0 blocks. -/
def State.nandSupplies (s : State) (dpa : Nat) : Bool :=
  s.pageState (pageOf dpa) == 1 && !s.onDeadDie (pageOf dpa) && (s.keptBlocks (pageOf dpa)).contains (dpa / 4096 % 4)

def State.startRepair (s : State) (dpa : Nat) (fromTwin : Bool) : State :=
  s.updMem (fun m => { m with repairs := m.repairs ++ [{ line := dpa, fromTwin := fromTwin, demand := true }] })

def State.lineError (s : State) (dpa : Nat) (nand : Bool) : State :=
  if s.repairing dpa 64 then s
  else if s.on F.MEM_CTL.REPAIR_EN && s.twinSupplies dpa then (s.startRepair dpa true).emit (.repairRead dpa)
  else if s.on F.MEM_CTL.REPAIR_EN && nand && s.nandSupplies dpa then s.startRepair dpa false
  else (s.poisonLine dpa).serveReads

/-- The ERROR record of an error outside DDR5 names the structure in ARG0, in the order of Table MEM-4 (R369). -/
def State.structError (s : State) (code obj dpa source : Nat) : State :=
  ((s.bump F.MEM_CNT1.UNCORRECTED).errLog dpa source 3).recordFull sevError .mem 3 0 obj Addr.MEM_CNT1 (BitVec.ofNat 64 code) 0

/-- Bytes of a way that hold nothing known: free values. -/
def freeBytes (ctr : Nat) (a n : Nat) : List Host.Cell :=
  (List.range n).map (fun i => (a + i, (Config.free (ctr + i)).setWidth 8))

/-- The bytes of a way: valid sectors as held, the others free. -/
def State.wayBytes (s : State) (held : Option (Nat × NcLine)) (b : Nat) : Memory :=
  ((List.range 4096).filterMap (fun i => match held with
    | some (a, l) => if l.valid.getLsbD (i / 256) then some (b * 4096 + i, s.nc.data.read (a * 4096 + i)) else none
    | none => none)) ++
  ((freeBytes s.freeCtr 0 4096).filterMap (fun c => match held with
    | some (_, l) => if l.valid.getLsbD (c.1 / 256) then none else some (b * 4096 + c.1, c.2)
    | none => some (b * 4096 + c.1, c.2)))

/-- Blocks that may have been in a way whose tag is lost: of pages marked in the near-cache-dirty bitmap, mapping to the set,
and in no other way of it (R370). -/
def State.tagCandidates (s : State) (set way : Nat) : List Nat :=
  (s.nc.dirtyMap.flatMap (fun p => (List.range 4).map (fun i => 4 * p + i))).filter (fun b =>
    setOf b == set && !(match Tab.get s.nc.lines b with
      | some l => l.way != way
      | none => false))

def State.tagLost (s : State) (set way : Nat) : State :=
  let held := (s.nc.setLines set).find? (fun e => e.2.way == way)
  let empty := match held with
    | some (b, _) => s.dropBlock b
    | none => s
  let out (t : State) : State := t.updNc (fun n => { n with disabled := n.disabled ++ [(set, way)] })
  match s.tagCandidates set way with
  | [] => out empty
  | [b] =>
    let l : NcLine := { way := way, valid := 0xFFFF, dirty := 0xFFFF, pin := false, wlk := false, filling := 0 }
    { (empty.updNc (fun n => { n with
        lines := Tab.put n.lines b l
        data := (n.data.clear (b * 4096) 4096).writeCells (s.wayBytes held b) })) with freeCtr := s.freeCtr + 4096 }
  | bs => (bs.flatMap (fun b => linesOf (b * 4096) 4096)).foldl (fun t l => t.poisonLine l) (out empty)

/-- Table MEM-4, near-cache data: a clean sector is filled again; the line of a dirty one is repaired from the twin, or
poisoned. -/
def State.ncError (s : State) (dpa : Nat) : State :=
  match Tab.get s.nc.lines (blockOf dpa) with
  | some l => if l.dirty.getLsbD (sectorOf dpa) then s.lineError dpa false else s.fetchSectors (blockOf dpa) (oneSector (sectorOf dpa))
  | none => (match s.nc.inVictim (blockOf dpa) with
    | some v => if v.dirty.getLsbD (sectorOf dpa) then s.lineError dpa false else s
    | none => s)

/-- An ingress entry. -/
def State.ingressError (s : State) (id : Nat) : State :=
  match s.pst.units.find? (fun u => u.id == id) with
  | none => s
  | some u =>
    if !u.committed then s.failUnit u ST.internal
    else if (u.cls == .d2 || u.cls == .d3) && (s.phl.twin == .paired || s.phl.twin == .fallback) && u.reached != .d1 then s
    else { s with poison := markPages s.poison (linesOf u.dpa u.len) }

/-- A word of the dirty bitmap: its 64 pages are dirty, charged to no tenant. -/
def State.dirtyWord (s : State) (i : Nat) : State :=
  let pages := ((List.range 64).map (· + 64 * i)).filter (fun p => !s.volatilePage p && decide (p < 16 * s.mem.limit))
  (s.updDst (fun d => { d with pages := dirtyAll d.pages pages 4096 s.time })).zoneStep 2

/-- Seal state of a region is read again from its last committed record; items with a position keep theirs (Table MEM-4). -/
def State.sealStateLost (s : State) (n : Nat) : State :=
  match Tab.get s.regions n with
  | none => s
  | some r =>
    let h := (s.rescanLog r).doneHead
    s.updLog n (fun l => { l with
      doneHead := h, head := ((l.items.filter (fun x => x.unit.isSome && !x.ckpt)).getLast?.map (·.head)).getD h })

/-- Strands whose program is procedure `n` end as they fetch from it. -/
def State.procError (s : State) (n : Nat) : State :=
  let s1 := s.updPe (fun p => { p with procs := Tab.upd p.procs n (fun x => { x with retired := true }) })
  s1.pe.strands.foldl (fun t e => match e.2.frames with
    | f :: _ => (match f.prog with
      | .proc m => if m = n then t.faultStrand e.1 ST.internal 0 f.pc else t
      | .inline _ => t)
    | [] => t) s1

def State.uncorrectable (s : State) : UeSite → State
  | .ddr line => ((s.bump F.MEM_CNT1.UNCORRECTED).errLog (lineDpa line) 0 0).lineError (lineDpa line) true
  | .nearCache line => (s.structError 1 0 (lineDpa line) 1).ncError (lineDpa line)
  | .tag set way => (((s.structError 3 0 0 1).bump F.MEM_CNT2.TAG_LOSSES).flag F.MEM_ERR.TAG_LOST).tagLost set.toNat way.toNat
  | .ingress unit => (s.structError 4 0 0 2).ingressError unit
  | .mapEntry page => (s.structError 6 page.toNat 0 1).updDst (fun d => { d with segReload := markPages d.segReload [page.toNat / 131072] })
  | .dirtyWord i => (s.structError 7 0 0 1).dirtyWord i.toNat
  | .sealState region => (s.structError 8 region.toNat 0 1).sealStateLost region.toNat
  | .programStore proc => (s.structError 9 proc.toNat 0 1).procError proc.toNat
  | .session n => (s.structError 10 n.toNat 0 1).failSession n.toNat
  | .queuePair qp => (s.structError 11 qp.toNat 0 1).updPe (fun p => { p with
      qps := Tab.upd p.qps qp.toNat (fun q => if q.life = .active then { q with life := .stopped } else q) })
  | .strand k => (s.structError 12 k.toNat 0 2).faultStrand k.toNat ST.internal 0 0
  | .spare line => ((s.structError 13 0 (lineDpa line) 1).errLog (lineDpa line) 1 0).lineError (lineDpa line) true

def execUncorrectableError (site : UeSite) (s : State) : Res := when_ (s.running .mem) s (s.uncorrectable site)

/-- 64 bytes into the near cache where it holds their sector, else into DDR5. -/
def State.repairBytes (s : State) (dpa : Nat) (l : List Byte) : State :=
  if s.nc.serving && (s.nc.validOf (blockOf dpa)).getLsbD (sectorOf dpa) then
    s.updNc (fun n => { n with data := n.data.writeCells (cellsAt dpa l) })
  else { s with ddr := s.ddr.writeCells (cellsAt dpa l) }

/-- The source's data is written and the line is checked again. -/
def State.repaired (s : State) (r : Repair) (twin : List Byte) (again : Bool) : State :=
  let bytes := if r.fromTwin then twin else s.dst.nand.readN r.line 64
  let bad := !r.fromTwin && s.dst.nandPoison.contains r.line
  let s1 := (s.repairBytes r.line bytes).updMem (fun m => { m with repairs := m.repairs.filter (fun x => x.line != r.line) })
  let s2 := { s1 with poison := s1.poison.filter (· != r.line) ++ (if bad then [r.line] else []) }
  let s3 := ((s2.setFld F.MEM_ERR_LOG.OUTCOME (if r.fromTwin then 1 else 2)).bump F.MEM_CNT1.REPAIRED).judge again
  (if again then s3.hardLine r.line else s3).serveReads

def execRepairComplete (line : BitVec 38) (data : Line) (again : Bool) (s : State) : Res :=
  match s.mem.repairs.find? (fun r => r.line == lineDpa line) with
  | none => .next s
  | some r => when_ (s.running .mem) s (s.repaired r (lineBytes data) again)

/-- A read that waits gets poison for the part that lies in [lo, lo + n). -/
def State.answerPoison (s : State) (lo n : Nat) (q : ReadReq) : State :=
  let l := ((s.readBytes q).zip (List.range q.len)).map (fun e => if lo ≤ q.dpa + e.2 ∧ q.dpa + e.2 < lo + n then 0 else e.1)
  let s1 := s.poisonRead true
  match q.reader with
  | .cxl p ld tag => s1.emit (.cxlData p ld tag (List.replicate q.len 0) true (s.devLoad p ld))
  | .get m msg => (s1.answerGet m msg l true).turns m
  | .twin msn => s1.emit (.twinData msn l true)

/-- Everything that waits for a range is answered with poison: CXL reads and GETs, and a strand's sources (R298, R367). -/
def State.poisonWaiting (s : State) (lo n : Nat) : State :=
  let hit (q : ReadReq) : Bool := q.snap.isNone && overlap q.dpa q.len lo n
  let s1 := { s with hst := { s.hst with reads := s.hst.reads.filter (fun q => !hit q) } }
  let s2 := (s.hst.reads.filter hit).foldl (fun t q => t.answerPoison lo n q) s1
  s2.pe.cmds.foldl (fun t e => e.2.ops.foldl (fun t o =>
    if o.sources.any (fun r => overlap r.1 r.2 lo n) then t.opDone e.1 o.id (OpDone.err ST.poison) else t) t) s2

/-- R367: 120 µs after detection. The repair goes on. -/
def execRepairDeadline (line : BitVec 38) (s : State) : Res :=
  let d := lineDpa line
  when_ (s.running .mem && s.mem.repairs.any (fun r => r.line == d && r.demand)) s
    ((s.poisonWaiting d 64).updMem (fun m => { m with
      repairs := updAll (fun r => r.line == d) (fun r => { r with demand := false }) m.repairs }))

/-! ### Fills (R371 to R373) -/

/-- A stack has trained. -/
def State.stackTrained (s : State) (n : Nat) : Bool :=
  match Tab.get s.cal.units (32 + n) with
  | some u => u.st == 2
  | none => false

def execInitialFill (stacked : Bool) (s : State) : Res :=
  if stacked then
    when_ (s.running .mem && s.stackTrained 0 && s.stackTrained 1) s (s.updMem (fun m => { m with stackDone := true }))
  else when_ (s.running .mem && s.seq.good.getLsbD 1) s (s.updMem (fun m => { m with sramDone := true }))

/-- From RESTORE entry until SAVE. -/
def State.filling (s : State) : Bool := s.mod.mode != .cold && s.mod.mode != .save

def execBackgroundFill (page : BitVec 30) (s : State) : Res :=
  let p := page.toNat
  when_ (s.running .mem && s.filling && decide (p < 16 * s.mem.limit) && !s.mem.init.contains p && !s.unrestored (16384 * p)) s
    ({ s with ddr := s.ddr.clear (16384 * p) 16384 }.updMem (fun m => { m with init := p :: m.init }))

/-! ### Drift (R378) -/

/-- Pages of a channel below LIMIT. -/
def State.passPages (s : State) : Nat := s.mem.limit

/-- Drift reads an initialised page that is not UNRESTORED. -/
def State.driftRead (s : State) (page : Nat) : State :=
  if s.mem.init.contains page && !s.unrestored (16384 * page) then s.countEvent 0x090 256 none (some (channelOf page)) else s

/-- Drift walks the next page of every channel; the errors it meets are commands of their own. -/
def State.driftStep (s : State) : State :=
  ((List.range 16).foldl (fun (t : State) i => t.driftRead (16 * s.mem.scrubPos + i)) s).updMem (fun m =>
    let start := if m.scrubPos = 0 then s.time else m.scrubStart
    let per := if m.scrubPos = 0 then s.fld F.MEM_SCRUB_CTL.PERIOD_H else m.scrubPeriod
    if m.scrubPos + 1 < s.passPages then { m with scrubPos := m.scrubPos + 1, scrubStart := start, scrubPeriod := per }
    else { m with
      scrubPos := 0, scrubStart := start, scrubPeriod := per, passes := min 65535 (m.passes + 1), behind := false
      lastHours := min 65535 ((s.time - start) / 3600000000000), chans := m.chans.map (fun c => { c with corrected := [] }) })

def State.scrubs (s : State) : Bool := s.running .mem && s.filling && s.on F.MEM_SCRUB_CTL.ENABLE

/-- A DDR5 recalibration window is open: Drift pauses (Table CAL-7). -/
def State.ddrWindow (s : State) : Bool := s.cal.units.any (fun e => decide (e.1 < 32) && e.2.window)

def execDriftScrub (s : State) : Res := when_ (s.scrubs && !s.ddrWindow) s s.driftStep

def execScrubBehind (s : State) : Res :=
  when_ (s.scrubs && decide (s.mem.scrubPos ≠ 0) && !s.mem.behind &&
      decide (s.mem.scrubStart + s.mem.scrubPeriod * 3960000000000 ≤ s.time)) s
    ((s.updMem (fun m => { m with behind := true })).recFlag sevWarn .mem F.MEM_ERR.SCRUB_BEHIND 0)

end Sys2Proof.Machine
end

