-- ==== Sys2Proof/Machine/Flash.lean ====
section
/-! DEFINITION. The configuration flash: array, status words, commands, margin reads, write protection, and the boot ROM's
reading of it (14 R421 to R441). -/

namespace Sys2Proof.Machine

def State.updCfl (s : State) (f : CflState → CflState) : State := { s with cfl := f s.cfl }

/-- A byte of the array, which is kept inverted: an erased byte reads 0xFF (R421). -/
def State.norByte (s : State) (fa : Nat) : Byte := ~~~(s.cfl.array.read fa)

def State.norBytes (s : State) (fa n : Nat) : List Byte := (List.range n).map (fun i => s.norByte (fa + i))

def State.norWord (s : State) (fa n : Nat) : Nat := leNat (s.norBytes fa n)

def norBank (fa : Nat) : Nat := fa / 2 ^ 25 % 2

def State.updSector (s : State) (n : Nat) (f : Sector → Sector) : State :=
  s.updCfl (fun c => { c with sectors := Tab.put c.sectors n (f (s.sector n)) })

def CflState.bank (c : CflState) (b : Nat) : Bank := if b = 0 then c.bank0 else c.bank1

def CflState.setBank (c : CflState) (b : Nat) (x : Bank) : CflState := if b = 0 then { c with bank0 := x } else { c with bank1 := x }

def State.updBank (s : State) (b : Nat) (f : Bank → Bank) : State := s.updCfl (fun c => c.setBank b (f (c.bank b)))

/-- Bytes of the array replaced. -/
def State.putNor (s : State) (fa : Nat) (l : List Byte) : State :=
  s.updCfl (fun c => { c with array := c.array.writeCells (cellsAt fa (l.map (fun b => ~~~b))) })

/-- The page, or sector, is erased. -/
def State.norBlank (s : State) (fa n : Nat) : Bool := (s.cfl.array.slice fa n).isEmpty

/-- Partition of Table CFL-1 that a sector lies in, in its order. -/
def partitionOf (n : Nat) : Nat :=
  if n < 16 then 0 else if n < 3088 then 1 else if n < 3344 then 2 else if n < 5392 then 3 else if n < 5904 then 4
  else if n < 8192 then 5 else if n < 8208 then 6 else if n < 11280 then 7 else if n < 11344 then 8 else if n < 13392 then 9 else 10

/-- A sector becomes WORN (R440). -/
def State.markWorn (s : State) (n : Nat) : State :=
  if (s.sector n).worn then s
  else ((s.updSector n (fun x => { x with worn := true })).flag F.CFL_ERR.WEAR).recordFull sevWarn .cfl 2 2 n Addr.CFL_ERR
    (BitVec.ofNat 64 (partitionOf n)) 0

/-- A request that reads or programs a bank suspends the erase that runs there (R426, R427). -/
def State.yieldErase (s : State) (b : Nat) : State :=
  match (s.cfl.bank b).running with
  | some o =>
    if o.op = 3 then
      (((s.updBank b (fun x => { x with running := none, suspended := some (norSector o.fa) })).updSector (norSector o.fa)
        (fun x => { x with st := 2 })).bump F.CFL_CNT1.SUSPENDS)
    else s
  | none => s

/-- The sector is being erased, or its erase is suspended. -/
def State.erasing (s : State) (fa : Nat) : Bool :=
  let b := s.cfl.bank (norBank fa)
  b.suspended == some (norSector fa) || (match b.running with
    | some o => o.op == 3 && norSector o.fa == norSector fa
    | none => false)

/-! ### Commands -/

/-- A command is over: CFL_CMD reports it. -/
def State.cflDone (s : State) (st : Status) : State :=
  ({ s with cfl := { s.cfl with busy := false } }.setFld F.CFL_CMD.STATUS st.toNat).setFld F.CFL_CMD.BUSY 0

/-- An array operation is handed to its bank; CFL_CMD reads BUSY until it ends. -/
def State.cflStart (s : State) (op fa : Nat) : State :=
  (((s.yieldErase (norBank fa)).updBank (norBank fa) (fun x => { x with running := some { op := op, fa := fa } })).updCfl
    (fun c => { c with busy := true })).setFld F.CFL_CMD.BUSY 1

/-- A CFL_CMD write that is not ignored. -/
def State.cflCmd (s : State) (fa : Nat) (t : State → State) : Res :=
  when_ (s.running .cfl && !s.cfl.busy && !s.cfl.stopped) s (t (s.setFld F.CFL_CMD.ADDR fa))

/-- A protected sector refuses the operation (R437). -/
def State.wpViolation (s : State) (n : Nat) : State :=
  (((s.flag F.CFL_ERR.WP_VIOLATION).bump F.CFL_CNT1.WP_VIOLATIONS).noticeOnce 40 .cfl F.CFL_CNT1.WP_VIOLATIONS n 0).cflDone ST.rights

def fromCtl (p : Path) : Bool := p == .ctl

/-- Only CTL operates the array otherwise than by reads (R438, R512). -/
def State.cflDenied (s : State) (p : Path) : State := (s.deny p Addr.CFL_CMD 28).cflDone ST.rights

def execCflRead (_ : Path) (fa : BitVec 26) (s : State) : Res :=
  s.cflCmd fa.toNat (fun s =>
    if fa.toNat % 256 ≠ 0 then s.cflDone ST.fault
    else if s.erasing fa.toNat then s.cflDone ST.busy
    else s.cflStart 1 fa.toNat)

def execCflProgram (path : Path) (fa : BitVec 26) (s : State) : Res :=
  s.cflCmd fa.toNat (fun s =>
    let n := norSector fa.toNat
    if !fromCtl path then s.cflDenied path
    else if fa.toNat % 256 ≠ 0 then s.cflDone ST.fault
    else if s.wpBit n then s.wpViolation n
    else if (s.sector n).st = 3 ∨ (s.sector n).incomplete = true then s.cflDone ST.fault
    else if s.erasing fa.toNat then s.cflDone ST.busy
    else if !s.norBlank fa.toNat 256 then s.cflDone ST.fault
    else s.cflStart 2 fa.toNat)

/-- An erase begins: its count rises and its state is ERASING before its first pulse (R430). -/
def State.beginErase (s : State) (fa : Nat) : State :=
  let n := norSector fa
  let s1 := (s.updSector n (fun x => { x with erases := min (2 ^ 20 - 1) (x.erases + 1), st := 1 })).cflStart 3 fa
  if 100000 ≤ (s1.sector n).erases then s1.markWorn n else s1

def execCflErase (path : Path) (fa : BitVec 26) (s : State) : Res :=
  s.cflCmd fa.toNat (fun s =>
    let n := norSector fa.toNat
    let b := s.cfl.bank (norBank fa.toNat)
    if !fromCtl path then s.cflDenied path
    else if fa.toNat % 4096 ≠ 0 then s.cflDone ST.fault
    else if s.wpBit n then s.wpViolation n
    else if (s.sector n).st = 3 then s.cflDone ST.fault
    else if b.suspended.isSome || (match b.running with
      | some o => o.op == 3
      | none => false) then s.cflDone ST.busy
    else s.beginErase fa.toNat)

/-- SUSPEND is taken although the erase it stops is the command that is busy; that command is then over. -/
def execEraseSuspend (path : Path) (fa : BitVec 26) (s : State) : Res :=
  let s0 := s.setFld F.CFL_CMD.ADDR fa.toNat
  when_ (s.running .cfl && !s.cfl.stopped) s
    (if !fromCtl path then (if s.cfl.busy then s else s0.cflDenied path)
     else if fa.toNat % 2 ^ 25 ≠ 0 then (if s.cfl.busy then s else s0.cflDone ST.fault)
     else (s0.yieldErase (norBank fa.toNat)).cflDone ST.ok)

/-- A suspended erase goes on (R426). -/
def State.resumeErase (s : State) (b : Nat) : State :=
  match (s.cfl.bank b).running, (s.cfl.bank b).suspended with
  | none, some n =>
    (s.updBank b (fun _ => { running := some { op := 3, fa := n * 4096 }, suspended := none })).updSector n (fun x => { x with st := 1 })
  | _, _ => s

def execEraseResume (path : Path) (fa : BitVec 26) (s : State) : Res :=
  s.cflCmd fa.toNat (fun s =>
    let b := s.cfl.bank (norBank fa.toNat)
    if !fromCtl path then s.cflDenied path
    else if fa.toNat % 2 ^ 25 ≠ 0 then s.cflDone ST.fault
    else if b.running.isNone && b.suspended.isSome then
      ((s.resumeErase (norBank fa.toNat)).updCfl (fun c => { c with busy := true })).setFld F.CFL_CMD.BUSY 1
    else s.cflDone ST.ok)

def execAutoResume (bank : BitVec 1) (s : State) : Res :=
  when_ (s.running .cfl && !s.cfl.stopped && s.on F.CFL_CTL.AUTO_RESUME) s (s.resumeErase bank.toNat)

/-- A margin read of a page or a sector; of a sector under erase it is refused as any read is (R426). -/
def State.marginCmd (s : State) (op size fa : Nat) : State :=
  if fa % size ≠ 0 then s.cflDone ST.fault else if s.erasing fa then s.cflDone ST.busy else s.cflStart op fa

def execPvMargin (_ : Path) (fa : BitVec 26) (s : State) : Res :=
  s.cflCmd fa.toNat (fun s => s.marginCmd 6 256 fa.toNat)

def execEvMargin (_ : Path) (fa : BitVec 26) (s : State) : Res :=
  s.cflCmd fa.toNat (fun s => s.marginCmd 7 4096 fa.toNat)

def execReadFrow (_ : Path) (fa : BitVec 26) (s : State) : Res := s.cflCmd fa.toNat (fun s => s.cflStart 8 fa.toNat)

/-- The page buffer (CFL_BUFn) as bytes, and filled. -/
def State.cflBuf (s : State) : List Byte := (List.range 32).flatMap (fun n => leBytes 8 (s.raw (Addr.CFL_BUF n)).toNat)

def State.setCflBuf (s : State) (l : List Byte) : State :=
  (List.range 32).foldl (fun t n => t.setRaw (Addr.CFL_BUF n) (BitVec.ofNat 64 (leNat ((l.drop (8 * n)).take 8)))) s

/-- Contents of `n` bytes that the spec leaves undefined. -/
def State.norFree (s : State) (fa n : Nat) : State :=
  { s.putNor fa ((freeBytes s.freeCtr 0 n).map (·.2)) with freeCtr := s.freeCtr + n }

/-- A program ends (R429, R440). -/
def State.endProgram (s : State) (fa : Nat) (ok : Bool) (pulses : Nat) : State :=
  let n := norSector fa
  let used := if ok then pulses else 16
  let s1 := (s.setFld F.CFL_CMD.PULSES used).updSector n (fun x => { x with pvp := max x.pvp used })
  let s2 := if s.fld F.CFL_CTL.PVP_LIMIT ≤ used then (s1.bump F.CFL_CNT1.PULSE_LIMITS).markWorn n else s1
  if ok then ((s2.putNor fa s.cflBuf).bump F.CFL_CNT0.PROGRAMS).cflDone ST.ok
  else (((s2.norFree fa 256).updSector n (fun x => { x with st := 3 })).recFlag sevError .cfl F.CFL_ERR.PROG_FAIL n).cflDone ST.fault

/-- What a sector held is gone; among it may be the wrapped administration key. -/
def State.sectorGone (s : State) (n : Nat) : State :=
  { s with dbg := { s.dbg with adminKey := if n = Config.adminSector then none else s.dbg.adminKey } }

/-- An erase ends (R430, R432). -/
def State.endErase (s0 : State) (fa : Nat) (ok : Bool) : State :=
  let n := norSector fa
  let s := s0.sectorGone n
  if ok then
    (((s.updCfl (fun c => { c with array := c.array.clear fa 4096 })).updSector n (fun x =>
      { x with st := 0, incomplete := false, pvp := 0 })).bump F.CFL_CNT0.ERASES).cflDone ST.ok
  else (((s.norFree fa 4096).updSector n (fun x => { x with st := 3 })).recFlag sevError .cfl F.CFL_ERR.ERASE_FAIL n).cflDone ST.fault

/-- A margin read has found `bits` failing cells (R431, R440). -/
def State.marginRead (s : State) (n bits : Nat) : State := if bits = 0 then s else (s.bump F.CFL_CNT1.MARGIN_FAILS).markWorn n

/-- The operation in a bank ends. -/
def State.cflEnd (s : State) (o : CflOp) (ok : Bool) (pulses bits : Nat) : State :=
  match o.op with
  | 1 => (s.setCflBuf (s.norBytes o.fa 256)).cflDone ST.ok
  | 2 => s.endProgram o.fa ok pulses
  | 3 => s.endErase o.fa ok
  | 8 => (s.setCflBuf ((List.range 256).map (fun i => Config.factoryRow (256 * (o.fa / 256 % 4) + i)))).cflDone ST.ok
  | _ => ((s.setFld F.CFL_CMD.FAIL_BITS bits).marginRead (norSector o.fa) bits).cflDone ST.ok

/-- The program of a Contrail page fails while a flush goes on: the page is skipped and its sector, one of the log's, is
BAD (R474). -/
def State.flushFails (s : State) : State :=
  if s.contrail.flushing && s.running .contrail && s.contrail.released then
    ((s.updSector (11344 + s.freeVal.toNat % 2016) (fun x => { x with st := 3 })).flag F.REC_ERR.FLUSH_FAIL).drawFree
  else s

/-- With nothing running in the bank, a failed completion is that of a page REC programs. -/
def execCflOperationComplete (bank : BitVec 1) (ok : Bool) (pulses : BitVec 5) (failBits : BitVec 11) (s : State) : Res :=
  match (s.cfl.bank bank.toNat).running with
  | none => when_ (s.running .cfl && bank == 1 && !ok) s s.flushFails
  | some o => when_ (s.running .cfl) s
      ((s.updBank bank.toNat (fun x => { x with running := none })).cflEnd o ok pulses.toNat failBits.toNat)

/-- R441: a page that is not blank, or a sector that is. -/
def execMarginPatrol (pv : Bool) (fa : BitVec 26) (failBits : BitVec 11) (s : State) : Res :=
  let n := norSector fa.toNat
  let fits := if pv then !s.norBlank (fa.toNat / 256 * 256) 256 else s.norBlank (n * 4096) 4096
  when_ (s.running .cfl && !s.cfl.stopped && fits) s ((s.yieldErase (norBank fa.toNat)).marginRead n failBits.toNat)

/-! ### Write protection (R436 to R438) -/

/-- First sector of a firmware slot, and sectors it holds. -/
def slotFirst (slot : Nat) : Nat := if slot = 0 then 16 else 8208

/-- Bits of CFL_WPn for the sectors that satisfy `p`. -/
def wpMask (n : Nat) (p : Nat → Bool) : Word := BitVec.ofNat 64 (sumOf ((List.range 64).map (fun b => if p (64 * n + b) then 2 ^ b else 0)))

def State.wpUpdate (s : State) (f : Nat → Word → Word) : State :=
  (List.range 256).foldl (fun t n => t.setRaw (Addr.CFL_WP n) (f n (s.raw (Addr.CFL_WP n)))) s

def execWpClr (path : Path) (sector : BitVec 14) (count : BitVec 16) (s : State) : Res :=
  let lo := sector.toNat
  let hi := lo + count.toNat
  let booted := slotFirst s.cfl.bootedSlot
  when_ (s.running .cfl && (!fromCtl path || (decide (count.toNat ≠ 0) && decide (hi ≤ 16384)))) s
    (if !fromCtl path then s.deny path Addr.CFL_WP_CLR 0
     else if lo < booted + 3072 ∧ booted < hi then s.flag F.CFL_ERR.WP_CLR_REFUSED
     else s.wpUpdate (fun n w => w &&& ~~~(wpMask n (fun x => decide (lo ≤ x) && decide (x < hi)))))

def execWpSet (_ : Path) (n : BitVec 8) (mask : BitVec 64) (s : State) : Res :=
  when_ (s.running .cfl) s
    (s.setRaw (Addr.CFL_WP n.toNat) (s.raw (Addr.CFL_WP n.toNat) ||| (mask &&& ~~~(wpMask n.toNat neverProtected))))

/-! ### The boot ROM (R432 to R436) -/

/-- The scan of the status words: unfinished erases make their sectors INCOMPLETE; the failing-bit count of each is a free
value of its NOTICE record. -/
def State.bootScan (s : State) : State :=
  let bad := (s.cfl.sectors.filter (fun e => e.2.st == 1 || e.2.st == 2)).map (·.1)
  let s1 := bad.foldl (fun t n =>
    ((t.updSector n (fun x => { x with incomplete := true })).flag F.CFL_ERR.INCOMPLETE_FOUND |>.recordFull sevNotice .cfl 6 3 n
      Addr.CFL_SECT_INFO (t.freeVal &&& 0x7FF) 0).drawFree) s
  s1.updCfl (fun c => { c with incomplete := min 2 bad.length })

/-- First byte of a header copy. -/
def hdrBase (copy : Nat) : Nat := copy * 2 ^ 25

/-- R434. -/
def State.hdrValid (s : State) (copy : Nat) : Bool :=
  let x := s.sector (norSector (hdrBase copy))
  s.norWord (hdrBase copy) 4 == 0x96400B01 &&
  s.norWord (hdrBase copy + 4092) 4 == (crc32c (s.norBytes (hdrBase copy) 4092)).toNat && !x.incomplete && x.st != 3

/-- `a` is later than `b`, modulo 2^32. -/
def seqLater (a b : Nat) : Bool := decide ((a + 2 ^ 32 - b) % 2 ^ 32 ≠ 0) && decide ((a + 2 ^ 32 - b) % 2 ^ 32 < 2 ^ 31)

/-- The copy the boot ROM takes. -/
def State.hdrPick (s : State) : Option Nat :=
  match s.hdrValid 0, s.hdrValid 1 with
  | true, true => if seqLater (s.norWord (hdrBase 1 + 4) 4) (s.norWord (hdrBase 0 + 4) 4) then some 1 else some 0
  | true, false => some 0
  | false, true => some 1
  | false, false => none

/-- Header values into a run of registers; bits outside `mask` keep their reset values. -/
def State.loadRegs (s : State) (base fa n : Nat) (mask : Nat → Word) : State :=
  (List.range n).foldl (fun t i =>
    let r := resetValue (base + 8 * i)
    t.setRaw (base + 8 * i) ((r &&& ~~~(mask i)) ||| (BitVec.ofNat 64 (s.norWord (fa + 8 * i) 8) &&& mask i))) s

/-- Writable bits of SEQ_CHn_CFG (R384). -/
def chCfgMask (n : Nat) : Word := if n < 2 then 0x000001FFFFFF0FC0 else 0x000001FFFFFF0FFF

/-- The protect bits from POLICY. -/
def State.loadPolicy (s : State) (p : Nat → Bool) : State := s.wpUpdate (fun n _ => wpMask n (fun x => p x && !neverProtected x))

/-- Channel table, sense windows, reset outputs, SEQ_CTL, SEQ_CASC and POLICY from the header (R384, R436). -/
def State.loadHeader (s : State) : State :=
  match s.hdrPick with
  | some c =>
    let b := hdrBase c
    let s1 := s.loadRegs (Addr.SEQ_CH_CFG 0) (b + 16) 32 chCfgMask
    let s2 := s1.loadRegs (Addr.SEQ_SNS 0) (b + 272) 8 (fun _ => 0xFFFFFFFFFFFFFFFF)
    let s3 := s2.loadRegs (Addr.SEQ_RST 0) (b + 336) 4 (fun _ => 0x7FF3F)
    let s4 := (s3.loadRegs Addr.SEQ_CTL (b + 368) 1 (fun _ => 0x7FFFF03)).loadRegs Addr.SEQ_CASC (b + 376) 1 (fun _ => 0x1F01)
    let s5 := s4.loadPolicy (fun n => (s.norByte (b + 1024 + n / 8)).getLsbD (n % 8))
    let s6 := s5.updCfl (fun x => { x with activeSlot := (s.norByte (b + 8)).toNat % 2, hdrCopy := c })
    let s7 := { s6 with seq := { s6.seq with hdrDefault := false } }
    if s.hdrValid (1 - c) then s7 else s7.recFlag sevWarn .cfl F.CFL_ERR.HDR_BAD (1 - c)
  | none =>
    let zero : Nat → Word := fun _ => 0
    let s1 := ((s.loadRegs (Addr.SEQ_CH_CFG 0) 0 32 zero).loadRegs (Addr.SEQ_SNS 0) 0 8 zero).loadRegs (Addr.SEQ_RST 0) 0 4 zero
    let s2 := (s1.loadRegs Addr.SEQ_CTL 0 1 zero).loadRegs Addr.SEQ_CASC 0 1 zero
    let s3 := s2.loadPolicy (fun n => decide (n < 3088) || (decide (8192 ≤ n) && decide (n < 11280)))
    ({ s3.updCfl (fun x => { x with activeSlot := 0, hdrCopy := 0 }) with seq := { s3.seq with hdrDefault := true } }.flag
      F.CFL_ERR.HDR_BAD).record sevError .aon 6 2 0 Addr.CFL_STATUS

/-- A sector of the used range of a slot satisfies `p`. -/
def State.slotHas (s : State) (slot : Nat) (p : Sector → Bool) : Bool :=
  let first := slotFirst slot
  let len := min (3072 * 4096) (512 + s.norWord (first * 4096 + 8) 4)
  s.cfl.sectors.any (fun e => decide (first ≤ e.1) && decide (e.1 < first + (len + 4095) / 4096) && p e.2)

/-- The used range of a slot holds no INCOMPLETE or BAD sector (R435). -/
def State.slotSound (s : State) (slot : Nat) : Bool := !s.slotHas slot (fun x => x.incomplete || x.st == 3)

end Sys2Proof.Machine
end

