-- ==== Sys2Proof/Machine/Rails.lean ====
section
/-! DEFINITION. The sequencer: channels and steps, on and off requests, the cascade, rail faults, power failure, reset outputs,
rail fault records, thermal supervision (12 R381 to R406, 01 R36, 20 R534). -/

namespace Sys2Proof.Machine

def State.updSeq (s : State) (f : SeqState → SeqState) : State := { s with seq := f s.seq }

/-! ### Channels -/

def chBit (n : Nat) : BitVec 32 := BitVec.ofNat 32 (2 ^ n)

/-- Channels 0 and 1 are always sequenced, at steps 0 and 1 (R384). -/
def State.chEnabled (s : State) (n : Nat) : Bool := decide (n < 2) || s.on (F.SEQ_CH_CFG.ENABLE n)

def State.chStep (s : State) (n : Nat) : Nat := if n < 2 then n else s.fld (F.SEQ_CH_CFG.STEP n)

def State.chClass (s : State) (n : Nat) : Nat := s.fld (F.SEQ_CH_CFG.CLASS n)

def State.chOn (s : State) (n : Nat) : Bool := s.seq.en.getLsbD n

def State.chGood (s : State) (n : Nat) : Bool := s.seq.good.getLsbD n

/-- SEQ_EN has fallen and the channel has not finished. -/
def State.chFalling (s : State) (n : Nat) : Bool := !s.chOn n && !s.seq.finished.getLsbD n

/-- Enabled channels of a step (R383). -/
def State.stepChans (s : State) (k : Nat) : List Nat := (List.range 32).filter (fun n => s.chEnabled n && s.chStep n == k)

/-- The next step upwards that has an enabled channel. -/
def State.nextStep (s : State) (k : Nat) : Option Nat := (List.range 32).find? (fun j => decide (k < j) && !(s.stepChans j).isEmpty)

/-- Channels of a step whose SEQ_EN is high. -/
def State.stepOn (s : State) (k : Nat) : List Nat := (List.range 32).filter (fun n => s.chOn n && s.chStep n == k)

/-- The highest step with a channel on or still falling. -/
def State.busyStep (s : State) : Option Nat :=
  ((List.range 32).reverse).find? (fun k => (List.range 32).any (fun n => s.chStep n == k && (s.chOn n || s.chFalling n)))

def State.raiseChans (s : State) (l : List Nat) : State :=
  l.foldl (fun t n => t.updSeq (fun q => { q with en := q.en ||| chBit n, finished := q.finished &&& ~~~(chBit n) })) s

def State.lowerChans (s : State) (l : List Nat) : State := l.foldl (fun t n => t.updSeq (fun q => { q with en := q.en &&& ~~~(chBit n) })) s

def State.setGood (s : State) (n : Nat) (v : Bool) : State :=
  s.updSeq (fun q => { q with good := if v then q.good ||| chBit n else q.good &&& ~~~(chBit n) })

/-! ### Reset outputs (R405) -/

/-- The source condition of output `n`. -/
def State.rstSource (s : State) (n : Nat) : Bool :=
  let src := s.fld (F.SEQ_RST.SRC n)
  if src < 32 then s.chGood src else if src = 32 then s.seq.ctlReleased else s.seq.st == .up

/-- What a change of the source condition from `was` does. -/
def RstOut.follow (o : RstOut) (was now : Bool) : RstOut :=
  if !now then { o with asserted := true, stretching := false }
  else if !was && o.asserted then { o with stretching := true }
  else o

/-- The outputs after a step, from what their sources were before it. -/
def State.settleRst (old new : State) : State :=
  new.updSeq (fun q => { q with
    rst := (q.rst.zip (List.range 4)).map (fun e => e.1.follow (old.rstSource e.2) (new.rstSource e.2)) })

/-- An assert event: every output that enables it goes low. -/
def State.assertEvent (s : State) (enabled : Nat → Fld) : State :=
  s.updSeq (fun q => { q with
    rst := (q.rst.zip (List.range 4)).map (fun e => if s.on (enabled e.2) then { e.1 with asserted := true, stretching := false } else e.1) })

/-- An assert event of output `n` is active. -/
def State.assertActive (s : State) (n : Nat) : Bool :=
  match s.seq.st with
  | .rampDown => s.on (F.SEQ_RST.ON_PWRDOWN n)
  | .saveHold => s.on (F.SEQ_RST.ON_SAVE n)
  | .latched => s.on (F.SEQ_RST.ON_LATCH n)
  | _ => false

def State.updRst (s : State) (n : Nat) (f : RstOut → RstOut) : State := s.updSeq (fun q => { q with rst := q.rst.modify n f })

def execStretchExpiry (n : BitVec 2) (s : State) : Res :=
  let o := (s.seq.rst[n.toNat]?).getD RstOut.reset
  when_ (s.running .aon && o.stretching) s
    (s.updRst n.toNat (fun o => if s.assertActive n.toNat then { o with stretching := false }
      else { asserted := false, stretching := false, pulsing := false }))

/-- A stretch that runs already is not shortened. -/
def execPulse (_ : Path) (n : BitVec 2) (s : State) : Res :=
  when_ (s.running .aon) s
    (s.updRst n.toNat (fun o => { asserted := true, pulsing := true, stretching := o.stretching || s.rstSource n.toNat }))

/-! ### Rail fault records (R406) -/

/-- The 60 bytes of a rail fault record before its CRC (Table PWR-8). -/
def FaultRec.body (r : FaultRec) : List Byte :=
  leBytes 8 r.time ++ leBytes 4 r.no ++ leBytes 1 r.ch ++ leBytes 1 r.kind ++ leBytes 1 r.phase ++
  leBytes 1 (b2n r.first + 2 * b2n r.timeoutPath + 4 * b2n r.latched) ++ leBytes 2 r.sns ++ leBytes 1 r.step ++ leBytes 1 r.position ++
  leBytes 4 r.en.toNat ++ leBytes 4 r.good.toNat ++ leBytes 2 r.hup ++ leBytes 2 r.v12 ++ leBytes 28 0

def FaultRec.bytes (r : FaultRec) : List Byte := r.body ++ leBytes 4 (crc32c r.body).toNat

/-- The list without its oldest record that is not FIRST. -/
def dropNotFirst : List FaultRec → Option (List FaultRec)
  | [] => none
  | r :: l => if r.first then (dropNotFirst l).map (r :: ·) else some l

/-- The AON fault buffer holds 16 records. -/
def pushFault (l : List FaultRec) (r : FaultRec) : List FaultRec :=
  if l.length < 16 then l ++ [r]
  else match dropNotFirst l with
    | some l' => l' ++ [r]
    | none => l

/-- ADC code of an input. -/
def State.adc (s : State) (n : Nat) : Nat := s.seq.codes.getD n 0

/-- Code of the sense bound to a channel. -/
def State.chCode (s : State) (n : Nat) : Nat := if s.fld (F.SEQ_CH_CFG.SNS n) = 0 then 0 else s.adc (s.fld (F.SEQ_CH_CFG.SNS n) - 1)

def firstKind (kind : Nat) : Bool := kind != 5 && kind != 6

def State.mkFault (s : State) (ch kind phase : Nat) : FaultRec :=
  { time := s.time, no := s.seq.nextFault % 2 ^ 32, ch := ch, kind := kind, phase := phase, first := firstKind kind && !s.seq.firstDone
    timeoutPath := s.seq.timeoutPath, latched := s.seq.failPath, sns := s.chCode ch, step := s.seq.step
    position := if s.seq.posValid then s.seq.position else 0xFF, en := s.seq.en, good := s.seq.good, hup := s.adc 8
    v12 := s.adc (s.fld F.SEQ_CTL.SNS_12V) }

/-- SEQ_FAULT and SEQ_FAULT_TIME copy the first failure of a sequence. -/
def State.copyFault (s : State) (r : FaultRec) : State :=
  if r.first then
    (((((s.setFld F.SEQ_FAULT.CH r.ch).setFld F.SEQ_FAULT.KIND r.kind).setFld F.SEQ_FAULT.PHASE r.phase).setFld F.SEQ_FAULT.VALID 1).setFld
      F.SEQ_FAULT.SNS_CODE r.sns).setFld F.SEQ_FAULT_TIME.TIME r.time
  else s

/-- A rail fault record is written to the buffer, with its Contrail record. -/
def State.railFault (s : State) (ch kind phase sev : Nat) : State :=
  let r := s.mkFault ch kind phase
  let s1 := s.updSeq (fun q => { q with buffer := pushFault q.buffer r, nextFault := q.nextFault + 1, firstDone := q.firstDone || firstKind kind })
  let s2 := (s1.copyFault r).bump F.SEQ_FAULT.COUNT
  let s3 := if kind = 5 then s2.bump F.SEQ_CNT0.DISCHARGE_TIMEOUTS else if firstKind kind then s2.bump F.SEQ_CNT0.RAIL_FAILS else s2
  s3.record sev .aon 5 kind ch Addr.SEQ_FAULT

/-! ### Going down -/

/-- A channel command that a change of state cuts short ends with ST_MODE. -/
def State.abortChCmd (s : State) : State :=
  match s.seq.chCmd with
  | some _ => ((s.updSeq (fun q => { q with chCmd := none })).setFld F.SEQ_CH_CMD.BUSY 0).setFld F.SEQ_CH_CMD.STATUS ST.mode.toNat
  | none => s

/-- HUP_TEST_EN falls, and the test is discarded (R269, R404). -/
def State.cutTest (s : State) : State := if s.dst.testing || s.seq.hupTestEn then s.endTest else s

/-- The latch. BYPASS_ON_LATCH lets the devices after this one come up once the 100 ms are over (R391). -/
def State.bypass (s : State) : State :=
  match s.seq.st with
  | .latched => s.updSeq (fun q => { q with cascOut := q.cascOut || (!q.fltDrive && s.on F.SEQ_CASC.BYPASS_ON_LATCH) })
  | _ => s

def SeqState.netHigh (q : SeqState) : Bool := q.fltHigh && !q.fltDrive

/-- CASC_WAIT: the position is decoded anew (R389). -/
def State.enterCascWait (s : State) : State :=
  s.updSeq (fun q => { q with
    st := .cascWait, posValid := false, posError := false, timeoutPath := false, failPath := false, firstDone := false, onPending := false
    offPending := false, released := false, ctlReleased := false, bootPhase := 1, bootFail := 0, fallback := false })

/-- The last step is off (Table PWR-3). -/
def State.endDown (s : State) : State :=
  let s1 := s.setRuns otherIslands .off
  if s.seq.failPath then
    ((s1.updSeq (fun q => { q with st := .latched, onPending := false, bootPhase := 0xF, bootFail := 5 })).assertEvent F.SEQ_RST.ON_LATCH).bypass
  else if s.seq.onPending && s.seq.netHigh then s1.enterCascWait
  else s1.updSeq (fun q => { q with st := .off, onPending := false })

/-- The channels of a step are switched off. CFL stops with channel 1. -/
def State.lowerStep (s : State) (k : Nat) : State :=
  let s1 := s.lowerChans (s.stepOn k)
  if (s.stepOn k).contains 1 then s1.setRun .cfl .off else s1

/-- On the failure path channel 1 waits for the fault buffer to be copied (R392). -/
def State.holdsCh1 (s : State) (k : Nat) : Bool := s.seq.failPath && (s.stepOn k).contains 1 && !s.seq.buffer.isEmpty

/-- The power-down goes on with the highest step that is not off; a step that has been switched off is waited for. -/
def State.descend (s : State) : State :=
  match s.busyStep with
  | none => s.endDown
  | some k =>
    let s1 := s.updSeq (fun q => { q with step := k })
    if s1.holdsCh1 k then s1 else s1.lowerStep k

/-- RAMP_DOWN: every island is stopped, but CFL, which runs on while channel 1 is good. -/
def State.startDown (s : State) (timeout latch : Bool) : State :=
  let s1 := (s.cutTest.abortChCmd.islandsLost .inReset).setRun .cfl (s.run .cfl)
  let s2 := s1.updSeq (fun q => { q with
    st := .rampDown, timeoutPath := q.timeoutPath || timeout, failPath := q.failPath || latch, cascOut := false, offPending := false, hupTestEn := false
    ctlReleased := false })
  (s2.assertEvent F.SEQ_RST.ON_PWRDOWN).descend

/-- R392: a channel fails to come up. -/
def State.failurePath (s : State) (ch kind : Nat) : State :=
  let s1 := s.updSeq (fun q => { q with timeoutPath := true, failPath := true, fltDrive := true, hupTestEn := false })
  (s1.railFault ch kind 0 sevFatal).startDown true true

/-! ### Requests (Table PWR-4) -/

def State.onRequest (s : State) : State :=
  match s.seq.st with
  | .off => if s.seq.netHigh && s.seq.tripHold == 0 then s.enterCascWait else s
  | .rampDown => if s.seq.tripHold = 0 then s.updSeq (fun q => { q with onPending := true }) else s
  | _ => s

/-- An off request outside UP. In RAMP_UP it takes effect at the next stable point (R396), which is now when no channel of
the step has been switched on. -/
def State.offRequest (s : State) : State :=
  match s.seq.st with
  | .cascWait => s.updSeq (fun q => { q with st := .off, onPending := false })
  | .rampUp =>
    let s1 := s.updSeq (fun q => { q with onPending := false, offPending := true })
    if (s.stepOn s.seq.step).isEmpty then s1.startDown false false else s1
  | _ => s

def execPfailDebounce (s : State) : Res :=
  let s1 := s.updSeq (fun q => { q with pfailHigh := true })
  when_ (s.running .aon) s (if s.on F.SEQ_CTL.AUTO_ON then s1.onRequest else s1)

def execOn (_ : Path) (s : State) : Res := when_ (s.running .aon) s s.onRequest

/-- In P2, P3 and a wake before its step 5 the clean image is current (R453). -/
def LpsState.deep (l : LpsState) : Bool := decide (2 ≤ l.st) && l.cleanCurrent

/-- Every stopped clock runs again, a vote is abandoned, a wake completes in hardware (R453, Table LPS-6). -/
def State.wakeClocks (s : State) : State :=
  let l := s.isl.map (fun r => if r = .gated then .running else r)
  { s with isl := l, lps := { s.lps with st := 0, ready := 0, latched := 0 } }

/-- OFF in HALT: the persistence domain is saved first, from the main supply, and the rails ramp down as the save ends (R71). In COLD,
and where nothing is dirty, there is nothing to save. -/
def State.offCommand (s : State) : State :=
  match s.seq.st with
  | .cascWait => s.offRequest
  | .rampUp => s.offRequest
  | .up =>
    if s.nothingAdmitted || (s.savePages.isEmpty && s.pst.units.isEmpty && s.phl.copies.isEmpty) then s.startDown false false
    else ((s.updSeq (fun q => { q with offPending := true })).wakeClocks.cutTest).enterSave
  | _ => s

def execOff (_ : Path) (s : State) : Res :=
  when_ (s.running .aon) s
    (match s.mod.mode with
     | .cold => s.offCommand
     | .halt => s.offCommand
     | _ => s.record sevNotice .aon 4 F.SEQ_CMD.OFF.lsb 0 Addr.SEQ_CMD)

/-! ### Coming up -/

/-- AON leaves reset: the boot ROM starts. -/
def execAonResetRelease (s : State) : Res :=
  match s.run .aon with
  | .inReset => .next (s.setRun .aon .running)
  | _ => .next s

def execOnDelay (s : State) : Res :=
  let q := s.seq
  when_ (s.running .aon && q.st == .rampUp && !q.offPending && (s.stepOn q.step).isEmpty) s (s.raiseChans (s.stepChans q.step))

/-- Step 1 is good: CFL and MEM start, and the boot ROM reads the status words and the boot header (R384, R432). -/
def State.bootFlash (s : State) : State :=
  let s1 := (((s.setRuns otherIslands .inReset).setRun .cfl .running).setRun .mem .running).bootScan
  let s2 := { s1.loadHeader with dbg := { s1.loadHeader.dbg with adminHeld := s1.dbg.adminKey } }
  s2.updSeq (fun q => { q with bootPhase := 2 })

/-- Islands that start as the step becomes good. -/
def State.stepIslands (s : State) (k : Nat) : State :=
  if k = 1 then s.bootFlash
  else if 2 ≤ k ∧ s.run .cal = .inReset then (s.setRun .cal .running).updSeq (fun q => { q with bootPhase := max 3 q.bootPhase })
  else s

/-- CASC_OUT is released once every step up to RELEASE_STEP is good (R390). -/
def State.cascade (s : State) (k : Nat) : State :=
  let due := match s.nextStep k with
    | none => true
    | some j => decide (s.fld F.SEQ_CASC.RELEASE_STEP < j)
  if due then s.updSeq (fun q => { q with cascOut := true, released := true }) else s

/-- The running step is good. -/
def State.stepUp (s : State) : State :=
  let k := s.seq.step
  let s1 := ((s.stepChans k).foldl (fun t n => t.setGood n true) s).stepIslands k
  let s2 := s1.cascade k
  if s2.seq.offPending then s2.startDown false false
  else match s2.nextStep k with
    | some j => s2.updSeq (fun q => { q with step := j })
    | none => s2.updSeq (fun q => { q with st := .up, bootPhase := 4 })

/-- SEQ_CH_CMD completes. -/
def State.endChCmd (s : State) (st : Status) : State :=
  ((s.updSeq (fun q => { q with chCmd := none })).setFld F.SEQ_CH_CMD.BUSY 0).setFld F.SEQ_CH_CMD.STATUS st.toNat

/-- The step, or the channel that SEQ_CH_CMD switches on, has been good for 50 µs. -/
def execStepGood (s : State) : Res :=
  let q := s.seq
  match q.st, q.chCmd with
  | .rampUp, _ => when_ (s.running .aon && (s.stepChans q.step).all (fun n => s.chOn n)) s (State.settleRst s s.stepUp)
  | .up, some (n, true) => when_ (s.running .aon && s.chOn n) s (State.settleRst s ((s.setGood n true).endChCmd ST.ok))
  | _, _ => .next s

/-! ### The cascade -/

/-- A release is decoded: the position, and RAMP_UP at step 0; each power-up is counted in the fuses (Table REC-1). -/
def State.decodePosition (s : State) (pulses : Nat) : State :=
  let s1 := s.updSeq (fun q => { q with cascIn := true })
  if 8 ≤ pulses then
    if s.seq.posError then s1
    else (s1.updSeq (fun q => { q with posError := true, bootPhase := 0xF, bootFail := 4 })).record sevFatal .aon 1
      F.SEQ_STATUS.POS_ERROR.lsb 0 Addr.SEQ_STATUS
  else { s1 with boot := s.boot + 1, seq := { s1.seq with
    position := pulses, posValid := true, posError := false, st := .rampUp, step := 0, bootPhase := 1, bootFail := 0 } }

def execCascRelease (pulses : BitVec 8) (s : State) : Res :=
  when_ (s.running .aon && s.seq.st == .cascWait) s (s.decodePosition pulses.toNat)

def execCascFltN (level : Level) (s : State) : Res :=
  let low (t : State) : State := t.updSeq (fun q => { q with fltHigh := false })
  match level with
  | .high => when_ (s.running .aon) s (s.updSeq (fun q => { q with fltHigh := true }))
  | .low =>
    when_ (s.running .aon) s
      (match s.seq.st with
       | .up => (low s).recFlag sevNotice .aon F.SEQ_STATUS.FLT_SEEN 0
       | .saveHold => (low s).recFlag sevNotice .aon F.SEQ_STATUS.FLT_SEEN 0
       | _ => State.settleRst s (low s).offRequest)

def execCascFltRelease (s : State) : Res :=
  when_ (s.running .aon && s.seq.fltDrive) s (s.updSeq (fun q => { q with fltDrive := false })).bypass

/-- R390: recorded, where this device's own release has been sent. -/
def execCascInFall (s : State) : Res :=
  let s1 := s.updSeq (fun q => { q with cascIn := false })
  when_ (s.running .aon && s.seq.cascIn) s
    (if s.seq.released then s1.record sevNotice .aon 1 F.SEQ_STATUS.CASC_IN.lsb 0 Addr.SEQ_STATUS else s1)

/-! ### A rail that does not come up -/

/-- CH_IN fails: the switch goes off again, and the channel stays out (R499). -/
def State.chInFails (s : State) : State :=
  let s1 := { s.lowerChans [14 + s.svc.unit] with cal := { s.cal with cmd := none } }
  (s1.flag F.SVC_ERR.CH_IN_FAIL).svcEnd ST.fault

/-- CH_IN has been waiting for this switch. -/
def State.chInLost (s : State) (n : Nat) : State := if s.svc.proc = 4 ∧ n = 14 + s.svc.unit then s.chInFails else s

/-- SEQ_CH_CMD cannot switch the channel on (R399). -/
def State.chCmdFails (s : State) (n kind : Nat) : State :=
  let s1 := (s.lowerChans [n]).setFld F.SEQ_CH_FAILED.FAILED (s.fld F.SEQ_CH_FAILED.FAILED ||| 2 ^ n)
  ((s1.railFault n kind 4 sevError).endChCmd ST.fault).chInLost n

def execPgTimeout (ch : BitVec 5) (s : State) : Res :=
  let n := ch.toNat
  match s.seq.st with
  | .rampUp =>
    when_ (s.running .aon && s.chOn n && !s.chGood n && s.chStep n == s.seq.step) s (State.settleRst s (s.failurePath n 1))
  | .up => when_ (s.running .aon && s.seq.chCmd == some (n, true) && !s.chGood n) s (s.chCmdFails n 1)
  | _ => .next s

/-! ### Switching off (R394, R395) -/

/-- Phase of a record made while a channel is off (Table PWR-8). -/
def State.offPhase (s : State) : Nat :=
  match s.seq.st with
  | .saveHold => 2
  | .up => if s.seq.chCmd.isSome then 4 else 1
  | _ => 3

/-- Blocks of a channel's pages leave the near cache, their dirty sectors written back (R498). -/
def State.dropChBlocks (s : State) (k : Nat) : State :=
  ((s.nc.lines.map (·.1) ++ s.nc.victim.map (·.block)).filter (fun b => channelOf (b / 4) == k)).foldl (fun t b => (t.cleanBlock b).dropBlock b) s

/-- CH_OUT is complete once its switch is off. -/
def State.chOutDone (s : State) (n : Nat) : State :=
  if s.svc.proc = 3 ∧ n = 14 + s.svc.unit then s.svcEnd ST.ok else s

/-- A channel has finished: the command that switched it off, or the step, may be complete. -/
def State.finishCh (s : State) (n : Nat) : State :=
  let s1 := (s.updSeq (fun q => { q with finished := q.finished ||| chBit n })).setGood n false
  let s2 := if s1.seq.chCmd = some (n, false) then (s1.endChCmd ST.ok).chOutDone n else s1
  match s2.seq.st with
  | .rampDown => s2.descend
  | _ => s2

/-- The path on which every channel finishes at its timeout. -/
def State.onTimeout (s : State) : Bool := s.seq.timeoutPath && s.seq.st == .rampDown

def State.timeoutCh (s : State) (n : Nat) : State :=
  if s.onTimeout ∨ s.fld (F.SEQ_CH_CFG.OFF_MODE n) = 1 then s.finishCh n
  else if s.fld (F.SEQ_CH_CFG.OFF_MODE n) = 2 then (s.railFault n 5 s.offPhase sevNotice).finishCh n
  else s

/-- Also the 5 ms for which channel 1 waits on the failure path. -/
def execOffTimeout (ch : BitVec 5) (s : State) : Res :=
  let n := ch.toNat
  let waits := s.seq.st == .rampDown && n == 1 && s.seq.step == s.chStep 1 && s.holdsCh1 (s.chStep 1)
  when_ (s.running .aon && (s.chFalling n || waits)) s
    (State.settleRst s (if waits then s.lowerStep (s.chStep 1) else s.timeoutCh n))

def execChannelDischarged (ch : BitVec 5) (s : State) : Res :=
  let n := ch.toNat
  when_ (s.running .aon && s.chFalling n) s
    (State.settleRst s (if s.onTimeout ∨ s.fld (F.SEQ_CH_CFG.OFF_MODE n) = 1 then s.setGood n false else s.finishCh n))

def execStuck (ch : BitVec 5) (s : State) : Res :=
  let n := ch.toNat
  when_ (s.running .aon && s.chFalling n && !s.onTimeout && decide (s.fld (F.SEQ_CH_CFG.OFF_MODE n) = 0)) s
    ((s.updSeq (fun q => { q with stuck := true })).railFault n 6 s.offPhase sevWarn)

/-! ### Power failure (R31, R36, R400 to R404, R453) -/

/-- SAVE_HOLD begins: HUP_TEST_EN falls, a channel command ends, reset outputs follow. A test cut short is told of after restore
(R269). -/
def State.holdEntry (s : State) : State :=
  (((s.updDst (fun d => { d with testCut := d.testCut || d.testing })).cutTest.abortChCmd).updSeq (fun q => { q with st := .saveHold })).assertEvent F.SEQ_RST.ON_SAVE

/-- CFL takes no erase and no firmware command from here on, and REC flushes (R427, R474). -/
def State.flashForSave (s : State) : State :=
  (((s.yieldErase 0).yieldErase 1).updCfl (fun c => { c with stopped := true })).startFlush true

/-- Nothing is written, and no island is woken. -/
def State.cleanDown (s : State) : State :=
  (s.holdEntry.updDst (fun d => { d with lastIncomplete := false })).startDown s.seq.failPath false

/-- An accepted power failure. -/
def State.powerFail (s : State) : State :=
  match s.seq.st with
  | .cascWait => s.offRequest
  | .rampUp => s.offRequest
  | .up =>
    if s.lps.deep then s.cleanDown
    else
      let s1 := (s.wakeClocks.updMod (fun m => { m with frozen := false })).holdEntry
      let s2 := match s.mod.mode with
        | .save => s1
        | _ => s1.enterSave
      s2.flashForSave
  | _ => s

/-- With its record of category 9. -/
def State.powerEvent (s : State) (sev inst : Nat) : State := s.powerFail.record sev .aon 9 inst 0 Addr.SEQ_STATUS

def State.acceptPfail (s : State) : State :=
  ((s.updSeq (fun q => { q with pfailHigh := false })).bump F.SEQ_CNT0.PFAIL_ACCEPTS).powerEvent sevCritical 0

/-- A low shorter than PFAIL_FILTER is a glitch. -/
def execPfailNAccept (cycles : BitVec 16) (s : State) : Res :=
  when_ (s.running .aon) s
    (if s.fld F.SEQ_CTL.PFAIL_FILTER ≤ cycles.toNat then State.settleRst s s.acceptPfail else s.bump F.SEQ_CNT0.PFAIL_GLITCHES)

/-- SerDes links drop: host, fabric and Parhelion (R36). -/
def State.serdesDrop (s : State) : State :=
  let host (t : State) (p : Port) : State := if t.running .hst && decide ((t.port p).link ≠ 0) then t.linkDowned p else t
  let fab (t : State) (p : FabPort) : State := if t.running .fab && (t.path p).link then t.linkLost p else t
  let s1 := ([.fa0, .fb0, .fa1, .fb1] : List FabPort).foldl fab (host (host s .hp0) .hp1)
  s1.updPhl (fun x => { x with ph0 := { PhState.reset with failed := x.ph0.failed }, ph1 := { PhState.reset with failed := x.ph1.failed } })

/-- R36: the loss is a power failure; the PLLs' holdover leaves no state. -/
def execRefclkLoss (s : State) : Res :=
  when_ (s.running .aon) s (State.settleRst s (s.powerEvent sevFatal 2).serdesDrop)

/-! ### Rail loss (R392, R395, R398) -/

/-- NAND channels leave service, and the terms of the ceiling follow (R263, R270). -/
def State.nandOff (s : State) (gone : List Nat) : State :=
  let new := gone.filter (fun c => !s.dst.nandOut.contains c)
  let left := s.dst.channels - new.length
  let s1 := s.updDst (fun d => { d with nandOut := d.nandOut ++ new, channels := left, saveErased := d.saveErased * left / max 1 d.channels })
  ({ s1 with dst := s1.ceilingTerms s1.dst.hupCode }.zoneStep 1).drawFree

def State.markFailed (s : State) (n : Nat) : State := s.setFld F.SEQ_CH_FAILED.FAILED (s.fld F.SEQ_CH_FAILED.FAILED ||| 2 ^ n)

/-- NAND VCC group `k`: its four channels. -/
def State.nandGroupLost (s : State) (k : Nat) : State := s.nandOff ((List.range 4).map (· + 4 * k))

/-- Handled as a device rail. -/
def State.deviceRail (s : State) (n : Nat) : Bool := s.chClass n == 0 || (s.chClass n == 3 && s.on (F.SEQ_CH_CFG.AUX_FATAL n))

/-- Table PWR-7. -/
def State.lossInUp (s : State) (n kind : Nat) : State :=
  if n = 2 then
    ((s.updSeq (fun q => { q with failPath := true })).railFault n kind 1 sevFatal).powerFail.serdesDrop
  else if s.deviceRail n then
    (s.updSeq (fun q => { q with timeoutPath := true, failPath := true })).unsavedImage.startDown true true |>.railFault n kind 1 sevFatal
  else
    match s.chClass n with
    | 1 => (((s.lowerChans [n]).nandGroupLost (n - 6)).markFailed n).railFault n kind 1 sevError
    | 2 => (((s.lowerChans [n]).chLost (n - 14)).markFailed n).railFault n kind 1 sevError
    | _ => (s.markFailed n).railFault n kind 1 sevWarn

def State.lossInSave (s : State) (n kind : Nat) : State :=
  if s.deviceRail n then (s.unsavedImage.startDown true false).railFault n kind 2 sevError
  else
    match s.chClass n with
    | 1 => ((s.lowerChans [n]).nandGroupLost (n - 6)).railFault n kind 2 sevError
    | 2 => (((s.lowerChans [n]).updCh (n - 14) (fun c => { c with lost := true })).updDst (fun d =>
        { d with dirtyChannels := d.dirtyChannels.filter (· != n - 14) })).railFault n kind 2 sevError
    | _ => s.railFault n kind 2 sevWarn

def State.railLost (s : State) (n kind : Nat) : State :=
  let s0 := s.setGood n false
  match s.seq.st with
  | .rampUp => s0.failurePath n kind
  | .up => if s.seq.chCmd = some (n, true) then s0.chCmdFails n kind else s0.lossInUp n kind
  | .saveHold => s0.lossInSave n kind
  | .rampDown => (s0.updSeq (fun q => { q with timeoutPath := true })).railFault n kind 3 sevError
  | _ => s0

/-- A loss the sequencer acts on: an enabled channel that was good, or one still coming up whose sense is above its window
(R392). -/
def State.lossSeen (s : State) (n kind : Nat) : Bool := s.chOn n && (s.chGood n || kind == 4)

/-- KIND of Table PWR-8: by SEQ_PG, or by a bound sense. -/
def lossKind (k : Nat) (bound : Bool) : Nat := if bound && k == 1 then 3 else if bound && k == 2 then 4 else 2

def State.setCode (s : State) (input code : Nat) : State :=
  let s1 := s.updSeq (fun q => { q with codes := q.codes.set input code })
  if input = 8 then s1.updDst (fun d => { d with hupCode := code }) else s1

def execRailLoss (ch : BitVec 5) (kind : BitVec 2) (code : BitVec 12) (s : State) : Res :=
  let n := ch.toNat
  let sns := s.fld (F.SEQ_CH_CFG.SNS n)
  let k := lossKind kind.toNat (decide (sns ≠ 0))
  let s1 := if sns = 0 then s else s.setCode (sns - 1) code.toNat
  when_ (s.running .aon && s.lossSeen n k) s (State.settleRst s (s1.railLost n k))

/-- Rail voltage at an input, mV. -/
def State.senseMv (s : State) (n code : Nat) : Nat := code * s.fld (F.SEQ_SNS.SCALE n) / 1000

def State.senseLow (s : State) (n code : Nat) : Bool :=
  s.fld (F.SEQ_SNS.UV_MV n) != 0 && decide (s.senseMv n code < s.fld (F.SEQ_SNS.UV_MV n))

def State.senseHigh (s : State) (n code : Nat) : Bool :=
  s.fld (F.SEQ_SNS.OV_MV n) != 0 && decide (s.fld (F.SEQ_SNS.OV_MV n) < s.senseMv n code)

/-- R402: the 12 V bus is low while PFAIL_N is high. -/
def State.missedPfail (s : State) (n code : Nat) : State :=
  if s.on F.SEQ_CTL.V12_PFAIL && s.fld F.SEQ_CTL.SNS_12V == n && s.senseLow n code && s.seq.pfailHigh then
    (s.bump F.SEQ_CNT0.PFAIL_ACCEPTS).powerEvent sevError 1
  else s

/-- An input after two conversions. Channels 0 and 1 are judged on SEQ_PG alone (R384). -/
def State.sensed (s : State) (n code : Nat) : State :=
  let s1 := s.setCode n code
  if n = 8 then s1
  else
    let kind := if s1.senseHigh n code then 4 else 3
    let s2 := if s1.senseLow n code || s1.senseHigh n code then
        ((List.range 32).filter (fun c => decide (2 ≤ c) && s.fld (F.SEQ_CH_CFG.SNS c) == n + 1)).foldl (fun t c =>
          if t.lossSeen c kind then t.railLost c kind else t) s1
      else s1
    s2.missedPfail n code

def execSenseOutOfWindow (input : BitVec 4) (code : BitVec 12) (s : State) : Res :=
  when_ (s.running .aon && decide (input.toNat ≤ 8)) s (State.settleRst s (s.sensed input.toNat code.toNat))

/-! ### SEQ_CH_CMD (R399) -/

/-- A NAND group or DIMM switch is switched off by command: what was not moved away is lost. -/
def State.chSwitchOff (s : State) (n : Nat) : State :=
  let s1 := s.lowerChans [n]
  match s.chClass n with
  | 1 => s1.nandGroupLost (n - 6)
  | _ => if (s.ch (n - 14)).out then ((s.dropChBlocks (n - 14)).lowerChans [n] |>.loseChannel (n - 14)).updCh (n - 14) (fun c => { c with lost := true }) else s1.chLost (n - 14)

def State.chCommand (s : State) (n : Nat) (on : Bool) : State :=
  let s0 := s.setFld F.SEQ_CH_CMD.CH n
  let busy (t : State) : State := (t.updSeq (fun q => { q with chCmd := some (n, on) })).setFld F.SEQ_CH_CMD.BUSY 1
  if s.chClass n = 0 ∨ s.chClass n = 3 then s0.endChCmd ST.rights
  else if s.seq.st ≠ .up then s0.endChCmd ST.mode
  else if on ∧ (s.fld F.SEQ_CH_FAILED.FAILED).testBit n = true then s0.endChCmd ST.fault
  else if on then (if s.chOn n then s0.endChCmd ST.ok else (busy s0).raiseChans [n])
  else if s.chOn n then (busy s0).chSwitchOff n
  else s0.endChCmd ST.ok

def State.mayChCmd (s : State) : Bool := s.running .aon && s.seq.chCmd.isNone

def execChannelOn (_ : Path) (ch : BitVec 5) (s : State) : Res := when_ s.mayChCmd s (s.chCommand ch.toNat true)

def execChannelOff (_ : Path) (ch : BitVec 5) (s : State) : Res := when_ s.mayChCmd s (State.settleRst s (s.chCommand ch.toNat false))

/-! ### The fault buffer -/

/-- The rail fault record partition is a ring of 4,096 records; a step that waited for the copy goes on. -/
def State.copyBuffer (s : State) : State :=
  let s1 := s.updSeq (fun q => { q with flash := (q.flash ++ q.buffer).drop (q.flash.length + q.buffer.length - 4096), buffer := [] })
  match s.seq.st with
  | .rampDown => if s.holdsCh1 (s.chStep 1) && s.seq.step == s.chStep 1 then s1.lowerStep (s.chStep 1) else s1
  | _ => s1

def execFaultBufferCopy (s : State) : Res :=
  when_ (s.running .aon && s.running .cfl && s.chGood 1 && s.cfl.bank0.running.isNone && s.cfl.bank1.running.isNone) s s.copyBuffer

/-! ### Thermal supervision (R534) -/

def State.tripNow (s : State) : Bool :=
  match s.seq.st with
  | .saveHold => false
  | .rampDown => false
  | _ => true

/-- Two consecutive readings at or above 115 °C. -/
def State.trip (s : State) : State :=
  if s.tripNow then
    ((s.updSeq (fun q => { q with tripHold := 1 })).powerFail).recFlag sevCritical .aon F.GEN_THERM.TRIPPED 0
  else s

def State.readTemp (s : State) (t : BitVec 8) : State :=
  let warnAt : Int := s.fld F.GEN_THERM.WARN_C
  let hot := decide (115 ≤ t.toInt)
  let s1 := s.updSeq (fun q => { q with
    temp := t, tempMax := if q.tempMax.toInt < t.toInt then t else q.tempMax, hot := hot && !q.hot
    tripHold := if q.tripHold = 2 ∧ t.toInt < 95 then 0 else q.tripHold })
  let s2 := if s.seq.temp.toInt < warnAt ∧ warnAt ≤ t.toInt then s1.recState sevWarn .aon F.GEN_THERM.WARN else s1
  if hot && s.seq.hot then s2.trip else s2

def execThermalRead (temp : BitVec 8) (s : State) : Res := when_ (s.running .aon) s (State.settleRst s (s.readTemp temp))

def execThermalTripHold (s : State) : Res :=
  when_ (s.running .aon && s.seq.tripHold == 1) s
    (s.updSeq (fun q => { q with tripHold := if q.temp.toInt < 95 then 0 else 2 }))

/-! ### Loss of the standby rail (R381) -/

/-- What fuses and flash keep of AON's own state; the nonce is drawn anew. -/
def State.aonLost (s : State) : State :=
  let s1 := s.islandsLost .off
  { s1 with
    time := 0, freeCtr := s.freeCtr + 1, regs := s1.regs.filter (fun e => !aonWindow (windowOf e.1)), staged := [], marks := []
    isl := .inReset :: List.replicate 14 .off, clocks := List.replicate 15 0, lost := List.replicate 15 0, early := []
    seq := { SeqState.reset with flash := s.seq.flash, nextFault := ((s.seq.flash.getLast?).map (fun r => r.no + 1)).getD 0 }
    lps := LpsState.reset, dbg := { DbgState.reset with nonce := s.freeCtr, adminKey := s.dbg.adminKey, adminDone := s.dbg.adminDone }
    eid := 0, jtagPins := 0 }

def execStandbyRailLoss (s : State) : Res :=
  match s.mod.mode with
  | .cold => .next s.aonLost
  | _ => .next s.unsavedImage.aonLost

end Sys2Proof.Machine
end

