-- ==== Sys2Proof/Machine/Calib.lean ====
section
/-! DEFINITION. Training, seeds, eyes, recalibration windows, gap-fitted changes and retrains (13 R407 to R420). A unit has the
key 32 × IFACE + UNIT, with the codes of CAL_SEL. -/

namespace Sys2Proof.Machine

def State.updCal (s : State) (f : CalState → CalState) : State := { s with cal := f s.cal }

def State.updUnitCal (s : State) (k : Nat) (f : CalUnit → CalUnit) : State :=
  s.updCal (fun c => { c with units := Tab.put c.units k (f (c.unit k)) })

/-- Port of a fabric unit. -/
def fabPortOf (unit : Nat) : FabPort := ([.fa0, .fb0, .fa1, .fb1] : List FabPort).getD unit .fa0

/-! ### Quality figures (R410, R411) -/

def eyeTab (l : List Eye) : Tab (Nat × Nat) := l.foldl (fun t e => Tab.put t (2 * e.lane.toNat + e.dir.toNat) (e.w.toNat, e.h.toNat)) []

/-- R412: a result turns WEAK, or FAILED. -/
def State.judgeUnit (s : State) (wasWeak wasFailed : Bool) (iface unit : Nat) : State :=
  let k := unitKey iface unit
  let s1 := if s.unitWeak iface unit && !wasWeak then
      let s0 := s.bump F.CAL_CNT0.WEAK_EVENTS
      if (match (s.calUnit k).weakAt with
        | some t => decide (t + 3600000000000 ≤ s.time)
        | none => true) then (s0.updUnitCal k (fun u => { u with weakAt := some s.time })).recFlag sevWarn .cal F.CAL_ERR.WEAK k
      else s0
    else s
  if s.unitFailed iface unit && !wasFailed then s1.record sevError .cal 1 19 k Addr.CAL_RESULT else s1

/-! ### Seeds (R408, R409) -/

/-- A seed is written into the calibration store, where the configuration flash takes programs. -/
def State.storeSeed (s : State) (k : Nat) (r : TrainResult) : State :=
  if s.running .cfl && !s.cfl.stopped then
    (s.updCal (fun c => { c with seeds := Tab.put c.seeds k { settings := r.settings, temp := r.temp, ident := r.ident } })).updUnitCal k
      (fun u => { u with seedAt := some s.time })
  else s.recFlag sevNotice .cal F.CAL_ERR.SEED_WRITE_FAIL k

/-- Table CAL-3: the identity is compared but for a stack. -/
def State.seedFits (s : State) (iface : Nat) (x : Seed) (r : TrainResult) : Bool :=
  s.on F.CAL_CTL.SEED_EN && decide ((x.temp.toInt - r.temp.toInt).natAbs ≤ s.fld F.CAL_CTL.SEED_TEMP) && (iface == 1 || x.ident == r.ident)

/-- The attempt that ends started from the unit's seed. -/
def State.seededTry (s : State) (iface unit : Nat) (r : TrainResult) : Bool :=
  let u := s.calUnit (unitKey iface unit)
  u.tries == 0 && u.fromSeed && (match Tab.get s.cal.seeds (unitKey iface unit) with
    | some x => s.seedFits iface x r
    | none => false)

/-- A seed was held and was not used. -/
def State.seedRejected (s : State) (iface unit : Nat) (r : TrainResult) : Bool :=
  let u := s.calUnit (unitKey iface unit)
  u.tries == 0 && u.fromSeed && Tab.has s.cal.seeds (unitKey iface unit) && !s.seededTry iface unit r

/-! ### Training (R407, R413, R414) -/

/-- A NAND channel is back in service: the terms of the ceiling follow. -/
def State.nandBack (s : State) (c : Nat) : State :=
  if s.dst.nandOut.contains c then
    let n := s.dst.channels + 1
    let s1 := s.updDst (fun d => { d with nandOut := d.nandOut.filter (· != c), channels := n, saveErased := d.saveErased * n / max 1 d.channels })
    ({ s1 with dst := s1.ceilingTerms s1.dst.hupCode }.zoneStep 1).drawFree
  else s

/-- The unit's rails are good, and what enables it is set (Table CAL-1, Table ARC-10); a retrain of a port runs while it is
disabled (Table SVC-2). -/
def State.trainable (s : State) (iface unit : Nat) : Bool :=
  match iface with
  | 0 => s.running .ctl && s.mem.valid && s.chGood 3 && s.chGood (14 + unit)
  | 1 => s.chGood 4
  | 2 => s.running .ctl && s.chGood 5 && s.chGood (6 + unit / 4)
  | 3 => s.chGood 2 && (s.cal.cmd == some (96 + unit) || s.on (F.HST_PORT_CTL.ENABLE (if unit = 0 then .hp0 else .hp1)))
  | 4 => s.chGood 2 && s.on F.FAB_CTL.ENABLE
  | 5 => s.chGood 2 && s.on F.PHL_CTL.ENABLE
  | _ => false

/-- A training is awaited; a link trains as often as it comes up. -/
def State.awaits (s : State) (iface unit : Nat) : Bool := decide (3 ≤ iface) || decide ((s.calUnit (unitKey iface unit)).st < 2)

/-! ### Units return to service (18 R499, R501) -/

/-- D1 pages of a channel that this device's NAND alone holds. -/
def State.nandOnly (s : State) (k : Nat) : List Nat :=
  ((s.dst.map.filter (fun e => e.2.valid)).map (·.1)).filter (fun p => channelOf p == k && !(s.ownBlocks p).isEmpty)

/-- The channel has trained, and its pages are to be filled; at CH_IN nothing is in its new RDIMM. -/
def State.fillChannel (s : State) (k : Nat) (fresh : Bool) : State :=
  let s1 := { s with svc := { s.svc with phase := 3, filling := s.mirroredPages.filter (fun p => channelOf p == k) } }
  if fresh then
    let s2 := (s1.updCh k (fun c => { c with remap := [], erased := [], hard := [], corrected := [], lost := false })).updMem (fun m =>
      { m with init := m.init.filter (fun p => channelOf p != k) })
    s2.updDst (fun d => { d with pages := (s.nandOnly k).foldl (fun t p => Tab.put t p { (dirtied 0 s.time (Tab.get t p)) with
      dirty := false, unrestored := true, redirtied := false }) d.pages })
  else s1

/-- The unit that RETRAIN took out returns (Table SVC-2). -/
def State.returnUnit (s : State) (iface unit : Nat) : State :=
  match iface with
  | 0 => s.fillChannel unit false
  | 3 => (s.portEnable (if unit = 0 then .hp0 else .hp1) true).svcEnd ST.ok
  | 4 => ((s.pathOff (fabPortOf unit) false).returnPath (fabPortOf unit)).svcEnd ST.ok
  | 5 => ((s.setPh (if unit = 0 then .ph0 else .ph1) { s.ph (if unit = 0 then .ph0 else .ph1) with failed := false })).svcEnd ST.ok
  | _ => s.svcEnd ST.ok

/-- The training that a procedure waits for has ended. -/
def State.svcTrained (s : State) (k : Nat) (st : Status) : State :=
  if s.svc.proc = 5 ∧ k = unitKey s.svc.iface s.svc.unit then
    (if st = ST.ok then s.returnUnit s.svc.iface s.svc.unit else s.svcEnd ST.fault)
  else if s.svc.proc = 4 ∧ k = s.svc.unit then (if st = ST.ok then s.fillChannel k true else s.chInFails)
  else s

/-- CAL_CMD completes when its unit's training ends. -/
def State.endCalCmd (s : State) (k : Nat) (st : Status) : State :=
  if s.cal.cmd = some k then
    (((s.updCal (fun c => { c with cmd := none })).setFld F.CAL_CMD.BUSY 0).setFld F.CAL_CMD.STATUS st.toNat).svcTrained k st
  else s

def putOffsets (t : Tab Word) (ch : Nat) (l : List (BitVec 5 × BitVec 64)) : Tab Word :=
  l.foldl (fun t e => Tab.put t (32 * ch + e.1.toNat) e.2) t

/-- A NAND channel has trained: its dies' read offsets; a die that cannot be read is FAILED, and its blocks are retired (R411,
Table CAL-5). -/
def State.nandTrained (s : State) (unit : Nat) (r : TrainResult) : State :=
  let dead := r.deadDies.map (fun d => 32 * unit + d.toNat)
  ((s.updCal (fun c => { c with
    offsets := putOffsets c.offsets unit r.offsets, deadDies := c.deadDies.filter (fun d => d / 32 != unit) ++ dead })).updDst (fun d =>
      if dead.isEmpty then d else d.retireAll (fun k => dead.contains (k / 2 ^ 18)))).nandBack unit

/-- A successful training: final settings and eyes, a seed. -/
def State.trained (s : State) (iface unit : Nat) (r : TrainResult) (seeded : Bool) : State :=
  let k := unitKey iface unit
  let s1 := s.updUnitCal k (fun u => { u with st := 2, tries := 0, fromSeed := true, seeded := seeded, settings := r.settings, eyes := eyeTab r.eyes })
  let s2 := if iface = 2 then s1.nandTrained unit r else s1
  ((s2.storeSeed k r).judgeUnit (s.unitWeak iface unit) (s.unitFailed iface unit) iface unit).endCalCmd k ST.ok

/-- A DDR5 channel trains with the failing device position of its ranks erased (R365, R413). -/
def State.trainedErased (s : State) (unit : Nat) (r : TrainResult) (l : List (BitVec 3 × BitVec 4)) : State :=
  let s1 := s.updCh unit (fun c => { c with erased := l.foldl (fun t e => Tab.put t e.1.toNat e.2.toNat) c.erased })
  (s1.trained 0 unit { r with eyes := r.eyes.filter (fun e => !(decide (e.w.toNat < 12) || decide (e.h.toNat < 35))) } false).record
    sevError .cal 1 0 unit Addr.CAL_STATUS

/-- A twin serves: the twins are linked, or in COLD, where no link is decided, its heartbeat is seen. -/
def State.twinServes (s : State) : Bool := s.phl.twin.linked || s.phl.hbIn == .toggling

/-- Consequences of a failure (Table CAL-5). -/
def State.unitLost (s : State) (iface unit : Nat) : State :=
  match iface with
  | 0 =>
    if s.twinServes then (s.takeChOut unit true).record sevError .cal 2 1 unit Addr.CAL_ERR
    else s.record sevFatal .cal 2 1 unit Addr.CAL_ERR
  | 1 => s.updSeq (fun q => { q with bootPhase := 0xF, bootFail := 2 })
  | 2 => (s.nandOff [unit]).record sevError .cal 2 2 unit Addr.CAL_ERR
  | 5 => s.setPh (if unit = 0 then .ph0 else .ph1) PhState.reset
  | _ => s

/-- Every attempt has failed. -/
def State.trainFailed (s : State) (iface unit : Nat) : State :=
  let k := unitKey iface unit
  ((s.updUnitCal k (fun u => { u with st := 3, tries := 0, fromSeed := true, seeded := false, eyes := [] })).unitLost iface unit).endCalCmd k ST.fault

/-- An attempt fails: a seed it used is discarded, and the unit is trained in full, three attempts in all. -/
def State.tryAgain (s : State) (iface unit : Nat) (seeded : Bool) : State :=
  let k := unitKey iface unit
  let s1 := if seeded then s.updCal (fun c => { c with seeds := Tab.del c.seeds k }) else s
  s1.updUnitCal k (fun u => { u with st := 1, tries := u.tries + 1, fromSeed := false })

/-- The channel has trained at the next lower rate: every channel is retrained at it (R413). -/
def State.speedDown (s : State) (unit : Nat) : State :=
  let s1 := (s.updMem (fun m => { m with speed := m.speed - 1 })).recFlag sevWarn .cal F.CAL_ERR.SPEED_DOWN unit
  ((List.range 16).filter (fun k => k != unit && !s.chanOut k)).foldl (fun t k =>
    t.updUnitCal k (fun u => { u with st := 1, tries := 0, fromSeed := true, seeded := false, eyes := [] })) s1

/-- An attempt ends. -/
def State.endTry (s : State) (iface unit : Nat) (r : TrainResult) : State :=
  let seeded := s.seededTry iface unit r
  let tries := (s.calUnit (unitKey iface unit)).tries
  let s1 := if s.seedRejected iface unit r then s.bump F.CAL_CNT0.SEED_REJECTS else s
  if r.ok && !(s.judged iface unit && eyeFailed iface (eyeTab r.eyes)) then
    let s2 := s1.trained iface unit r seeded
    if tries = 3 then s2.speedDown unit else s2
  else if tries < 2 then s1.tryAgain iface unit seeded
  else match iface, r.oneDevice with
    | 0, some l => s1.trainedErased unit r l
    | 0, none => if tries = 2 ∧ 1 < s.mem.speed then s1.tryAgain 0 unit seeded else s1.trainFailed 0 unit
    | _, _ => s1.trainFailed iface unit

def execTraining (iface : BitVec 3) (unit : BitVec 5) (result : TrainResult) (s : State) : Res :=
  let i := iface.toNat
  let u := unit.toNat
  when_ (s.running .cal && s.mod.mode != .save && isUnit i u && s.trainable i u && s.awaits i u) s (s.endTry i u result)

/-! ### Recalibration (R415 to R419) -/

/-- CAL_CTL lets the class of windows run. -/
def State.recalOn (s : State) : Nat → Bool
  | 0 => s.on F.CAL_CTL.DDR_RECAL_EN
  | 1 => s.on F.CAL_CTL.SK_RECAL_EN
  | 2 => s.on F.CAL_CTL.NAND_RECAL_EN
  | 4 => s.on F.CAL_CTL.FAB_RECAL_EN
  | _ => false

/-- The unit is powered, in service and out of self-refresh: its pads are not latched (R415, R450). -/
def State.unitServes (s : State) (iface unit : Nat) : Bool :=
  match iface with
  | 0 => !s.chanOut unit && !s.lps.latched.getLsbD 0
  | 2 => !s.dst.nandOut.contains unit && !s.lps.latched.getLsbD 1
  | 4 => (s.path (fabPortOf unit)).link
  | _ => true

/-- At most one unit of an interface is out at a time, of the stacked DRAM one in each stack. -/
def State.otherWindow (s : State) (iface unit : Nat) : Bool :=
  iface != 1 && s.cal.units.any (fun e => e.1 / 32 == iface && e.1 != unitKey iface unit && e.2.window)

/-- Demand work waits on a NAND channel: a page wanted at once, or a repair from NAND (R418). -/
def State.nandDemand (s : State) (unit : Nat) : Bool :=
  s.dst.pages.any (fun e => e.2.unrestored && e.2.demand && (match Tab.get s.dst.map e.1 with
    | some m => m.channel == unit
    | none => false)) ||
  s.mem.repairs.any (fun r => r.demand && !r.fromTwin && (match Tab.get s.dst.map (pageOf r.line) with
    | some m => m.channel == unit
    | none => false))

/-- The window is put off (R417, R418). -/
def State.putOff (s : State) (iface unit : Nat) : Bool :=
  (iface == 2 && s.nandDemand unit) || (iface == 4 && decide (2 ≤ (s.path (fabPortOf unit).partner).st))

def State.openWindow (s : State) (k : Nat) : State := s.updUnitCal k (fun u => { u with window := true, deferred := false })

def State.mayWindow (s : State) (iface unit : Nat) : Bool :=
  let u := s.calUnit (unitKey iface unit)
  s.running .cal && s.mod.mode != .save && isUnit iface unit && s.recalOn iface && u.st == 2 && !u.window && s.unitServes iface unit &&
  !s.otherWindow iface unit

def execRecalWindow (iface : BitVec 3) (unit : BitVec 5) (s : State) : Res :=
  let i := iface.toNat
  let k := unitKey i unit.toNat
  when_ (s.mayWindow i unit.toNat) s
    (if s.putOff i unit.toNat then (s.updUnitCal k (fun u => { u with deferred := true })).bump F.CAL_CNT0.WINDOWS_DEFERRED
     else s.openWindow k)

/-- What a recalibration leaves: settings, eyes, and a seed where a setting moved by more than 2 steps, at most once an hour. -/
def State.recalibrated (s : State) (iface unit : Nat) (moved : Bool) (r : TrainResult) : State :=
  let k := unitKey iface unit
  let s1 := s.updUnitCal k (fun u => { u with settings := r.settings, eyes := eyeTab r.eyes })
  let s2 := if iface = 2 then s1.updCal (fun c => { c with offsets := putOffsets c.offsets unit r.offsets }) else s1
  let due := match (s.calUnit k).seedAt with
    | some t => decide (t + 3600000000000 ≤ s.time)
    | none => true
  (if moved && due then s2.storeSeed k r else s2).judgeUnit (s.unitWeak iface unit) (s.unitFailed iface unit) iface unit

/-- In SAVE, CAL is held in reset once its last window has run to its end (Table ARC-12). -/
def State.calRests (s : State) : State :=
  match s.mod.mode with
  | .save => if s.windowOpen then s else s.setRun .cal .inReset
  | _ => s

def execRecalWindowEnd (iface : BitVec 3) (unit : BitVec 5) (moved : Bool) (result : TrainResult) (s : State) : Res :=
  let k := unitKey iface.toNat unit.toNat
  let s1 := s.updUnitCal k (fun u => { u with window := false })
  when_ (s.running .cal && (s.calUnit k).window) s
    ((if (s.calUnit k).st = 2 then s1.recalibrated iface.toNat unit.toNat moved result else s1).calRests)

/-- Lanes that are adjusted in gaps: CXL and Parhelion. -/
def gapLanes (iface : Nat) : Bool := iface == 3 || iface == 5

def State.mayGap (s : State) (iface unit : Nat) : Bool :=
  s.running .cal && s.mod.mode != .save && gapLanes iface && isUnit iface unit && s.on F.CAL_CTL.GAP_EN && (s.calUnit (unitKey iface unit)).st == 2

def execGapFittedChange (iface : BitVec 3) (unit : BitVec 5) (settings : BitVec 64) (s : State) : Res :=
  when_ (s.mayGap iface.toNat unit.toNat) s
    (s.updUnitCal (unitKey iface.toNat unit.toNat) (fun u => { u with settings := settings, gapWait := false }))

def execGapDeferral (iface : BitVec 3) (unit : BitVec 5) (tenfold : Bool) (s : State) : Res :=
  let k := unitKey iface.toNat unit.toNat
  when_ (s.mayGap iface.toNat unit.toNat && (s.calUnit k).gapWait == tenfold) s
    (if tenfold then s.record sevNotice .cal 3 F.CAL_CNT0.GAP_DEFERRALS.lsb k Addr.CAL_CNT0
     else (s.updUnitCal k (fun u => { u with gapWait := true })).bump F.CAL_CNT0.GAP_DEFERRALS)

/-- After 100 ms the window runs, and demand work waits for it. -/
def execNandWindowDeferral (unit : BitVec 5) (s : State) : Res :=
  when_ (s.mayWindow 2 unit.toNat && (s.calUnit (unitKey 2 unit.toNat)).deferred) s (s.openWindow (unitKey 2 unit.toNat))

def execFabricWindowDeferral (unit : BitVec 5) (s : State) : Res :=
  when_ (s.running .cal && isUnit 4 unit.toNat && (s.calUnit (unitKey 4 unit.toNat)).deferred) s
    (s.record sevWarn .cal 3 F.CAL_CNT0.WINDOWS_DEFERRED.lsb (unitKey 4 unit.toNat) Addr.CAL_CNT0)

/-! ### CAL_CMD (R420) -/

/-- The unit is out of service. -/
def State.unitOut (s : State) (iface unit : Nat) : Bool :=
  match iface with
  | 0 => s.chanOut unit
  | 2 => s.dst.nandOut.contains unit
  | 3 => (s.port (if unit = 0 then .hp0 else .hp1)).link == 0
  | 4 => !(s.path (fabPortOf unit)).link || !s.on F.FAB_CTL.ENABLE
  | 5 => !(s.ph (if unit = 0 then .ph0 else .ph1)).trained
  | _ => false

/-- A retrain starts, at the end of an open window where there is one (Table CAL-7). -/
def State.startRetrain (s : State) (k : Nat) (fromSeed : Bool) : State :=
  ((s.updUnitCal k (fun u => { u with st := 1, tries := 0, fromSeed := fromSeed, seeded := false })).updCal (fun c =>
    { c with cmd := some k })).setFld F.CAL_CMD.BUSY 1

def State.calCmd (s : State) (iface unit : Nat) (fromSeed : Bool) : State :=
  let s0 := (s.setFld F.CAL_CMD.IFACE iface).setFld F.CAL_CMD.UNIT unit
  if !isUnit iface unit then s0.setFld F.CAL_CMD.STATUS ST.fault.toNat
  else if !s.unitOut iface unit then s0.setFld F.CAL_CMD.STATUS ST.busy.toNat
  else s0.startRetrain (unitKey iface unit) fromSeed

/-- IFACE 6 and 7 are ignored, as is a write while BUSY = 1. -/
def State.mayRetrain (s : State) (iface : Nat) : Bool := s.running .cal && s.cal.cmd.isNone && decide (iface < 6)

def execRetrainFromSeed (_ : Path) (iface : BitVec 3) (unit : BitVec 5) (s : State) : Res :=
  when_ (s.mayRetrain iface.toNat) s (s.calCmd iface.toNat unit.toNat true)

def execFullRetrain (_ : Path) (iface : BitVec 3) (unit : BitVec 5) (s : State) : Res :=
  when_ (s.mayRetrain iface.toNat) s (s.calCmd iface.toNat unit.toNat false)

end Sys2Proof.Machine
end

