-- ==== Sys2Proof/Machine/Save.lean ====
section
/-! DEFINITION. SAVE and RESTORE (02 R70 to R77, 08 R286 to R300, 16 R456, R461, 17 R483). -/

namespace Sys2Proof.Machine

/-! ### SAVE -/

/-- The links drop: HST, FAB and PHL are gated, what they took in having crossed (Table ARC-12, R18). Mirror copies they handed over
stay. -/
def State.gateDoors (s : State) : State :=
  let s1 := s.setRuns [.hst, .fab, .phl] .off
  { s1 with
    hst := { s1.hst with hp0 := PortState.reset, hp1 := PortState.reset }
    fab := { s1.fab with paths := List.replicate 4 PathState.reset }
    phl := { s1.phl with ph0 := PhState.reset, ph1 := PhState.reset, hbIn := s1.phl.hbIn } }

/-- Channels with dirty pages (R287). -/
def State.dirtyChans (s : State) : List Nat := (List.range 16).filter (fun k => s.savePages.any (fun p => channelOf p == k))

/-- The switches of the other channels are turned off, on a power failure. -/
def State.dropClean (s : State) : State :=
  match s.seq.st with
  | .saveHold => s.lowerChans ((List.range 16).filterMap (fun k =>
      if s.chOn (14 + k) && s.chClass (14 + k) == 2 && !s.dst.dirtyChannels.contains k then some (14 + k) else none))
  | _ => s

/-- SAVE begins: a destage in progress leaves its page dirty (R288). -/
def State.saveBegin (s : State) : State :=
  let s1 := s.gateDoors
  (s1.updDst (fun d => { d with
    saving := true, dirtyChannels := s1.dirtyChans, gcRunning := false
    pages := d.pages.map (fun (e : Nat × Page) => (e.1, { e.2 with destaging := false, redirtied := false })) })).dropClean

def State.inSave (s : State) : Bool :=
  match s.mod.mode with
  | .save => true
  | _ => false

/-- The save begins once arrivals under granted credit have crossed into PST (R32). -/
def execSaveEntry (s : State) : Res := when_ (s.running .dst && s.inSave && !s.dst.saving && s.deliveredTo .pst) s s.saveBegin

/-- Every record in the crossings reaches the ring, and the ring the flash (R289, R474). -/
def State.flushAll (s : State) : State :=
  let go (t : State) (i : Nat) : State :=
    (recordsOf ((Tab.get t.xing (64 + i)).getD [])).foldl (fun t r => t.takeIn r) { t with xing := Tab.del t.xing (64 + i) }
  let s1 := if s.recUp then (List.range 15).foldl go s else s
  s1.contrail.unflushed.foldl (fun t n => t.flushOne n) s1

/-- After a reset save the islands are reset, and the device is in COLD at once (Table MOD-2). -/
def State.resetIslands (s : State) : State :=
  ((s.islandsLost .inReset).setRuns [.cfl, .mem, .cal] .running).updSeq (fun q => { q with ctlReleased := false, bootPhase := 3, bootFail := 0 })

def State.endSave (s : State) : State :=
  let s1 := s.flushAll.savedImage
  match s1.seq.st with
  | .saveHold => s1.startDown s1.seq.failPath false
  | _ => if s1.seq.offPending then s1.startDown false false else s1.resetIslands

def execSaveComplete (s : State) : Res := when_ (s.running .dst && s.inSave && s.dst.saving) s (State.settleRst s s.endSave)

/-- R292, R403: the save ends without its completion record. -/
def State.vMin (s : State) : State := (s.unsavedImage.startDown true false).railFault 0 7 2 sevCritical

def execVMin (s : State) : Res :=
  match s.seq.st with
  | .saveHold => when_ (s.running .aon) s (State.settleRst s s.vMin)
  | _ => .next s

/-- A reset request with main power present (R71, R293): intake stops, and the save follows. -/
def State.resetSave (s : State) : State := ((s.wakeClocks.updMod (fun m => { m with frozen := false })).cutTest).enterSave

def State.mayReset (s : State) : Bool :=
  s.running .aon && !s.inSave && !s.lps.deep && (match s.seq.st with
    | .up => true
    | _ => false)

def execResetSave (s : State) : Res := when_ s.mayReset s s.resetSave

/-! ### RESTORE entry -/

/-- Training that RESTORE waits for (Table ARC-10): every DDR5 channel in service, and every NAND channel that is not out. -/
def State.memoryTrained (s : State) : Bool :=
  (List.range 16).all (fun k => s.chanOut k || (s.calUnit k).st == 2) &&
  (List.range 32).any (fun c => (s.calUnit (unitKey 2 c)).st == 2) && (List.range 32).all (fun c => (s.calUnit (unitKey 2 c)).st != 1)

def State.mayRestore (s : State) : Bool :=
  s.running .ctl && s.running .pst && s.running .dst && s.running .mem && s.mem.stackDone && s.mem.valid && s.memoryTrained &&
  (s.svc.chOut.isEmpty || s.twinServes) && (match s.mod.mode with
    | .cold => true
    | _ => false)

/-- R283, in GiB: 4 × raw against 5 × installed + 12 × SAVE_ZONE + 96. -/
def State.rawShort (s : State) (raw : Nat) : Bool := decide (4 * raw < 5 * (s.installedMib / 1024) + 12 * s.fld F.DST_NAND_CFG.SAVE_ZONE + 96)

/-- A page that holds data of this device. -/
def State.restorable (s : State) (page : Nat) : Bool := !(s.ownBlocks page ++ s.mirrorBlocks page).isEmpty && !s.chanOut (channelOf page)

def State.pageTenant (s : State) (page : Nat) : Nat :=
  ((List.range 4).findSome? (fun i => (s.regionAt (page * 16384 + i * 4096)).map (fun e => e.2.tenant))).getD 0

/-- The page is UNRESTORED; charged when a complete image holds a layer of it (R295). -/
def State.markUnrestored (s : State) (page : Nat) : State :=
  let dirty := s.dst.images.any (fun i => i.complete && i.pages.contains page)
  let e : Page := { dirty := dirty, tenant := s.pageTenant page, destaging := false, redirtied := false, since := s.time, written := true,
                    unrestored := true, demand := false }
  s.updDst (fun d => { d with pages := Tab.put d.pages page e })

/-- Pages with a source on NAND. -/
def State.nandPages (s : State) : List Nat :=
  (((s.dst.map.filter (fun e => e.2.valid)).map (fun e => e.1) ++ s.dst.images.flatMap (fun i => i.pages)).eraseDups).filter (fun p => s.restorable p)

/-- A committed unit as the ingress image gives it back: no door waits for it. -/
def CUnit.reloaded (u : CUnit) : CUnit :=
  { u with door := .device, hold := .none, msn := none, inDoubt := false, away := false, written := true, charged := true }

/-- Uncommitted entries and open extents of an ingress image (R47). -/
def SaveImage.rolled (i : SaveImage) : Nat := (i.units.filter (fun u => !u.committed)).length + i.extents.length

/-- The ingress images go back into the ingress buffer; what was uncommitted in them is counted (R47, R295). -/
def State.reloadIngress (s : State) : State :=
  let l : List SaveImage := s.dst.images.filter (fun (i : SaveImage) => i.complete)
  let units : List CUnit := ((l.flatMap (fun i => i.units)).filter (·.committed)).map CUnit.reloaded
  let s1 := { s with
    pst := { s.pst with units := s.pst.units ++ units }
    phl := { s.phl with copies := s.phl.copies ++ l.flatMap (fun (i : SaveImage) => i.copies) } }
  let imgs : List SaveImage := s.dst.images.map (fun (i : SaveImage) => { i with units := [], extents := [], copies := [], frames := [] })
  let pages : Tab Page := units.foldl (fun t (u : CUnit) => dirtyAll t (pagesOf u.dpa u.len) u.tenant s.time) s.dst.pages
  (s1.updDst (fun d => { d with images := imgs, pages := pages })).bumpBy F.PST_DUR_CNT1.ROLLED_BACK (sumOf (l.map SaveImage.rolled))

/-- The entry of a command cut short: STATE, STATUS and T_END change (R75, R483). -/
def Cmd.tornBytes (c : Cmd) (time : Nat) : List Byte :=
  let b := c.journalBytes .executing
  let body := b.take 8 ++ leBytes 1 JState.failed.code ++ leBytes 1 ST.torn.toNat ++ (b.drop 10).take 30 ++ leBytes 8 time ++ (b.drop 48).take 12
  body ++ leBytes 4 (crc32c body).toNat

def State.tearEntry (s : State) (c : Cmd) : State :=
  match Tab.get s.pe.qps c.qp with
  | none => s
  | some q =>
    match Tab.get s.regions q.jRegion with
    | none => s
    | some r =>
      let dpa := q.jBase + 64 * ((c.fseq + 4095) % 4096)
      s.admitUnit (mkUnit s.pst.nextUnit q.jRegion r dpa 64 (cellsAt dpa (c.tornBytes s.time)) .d2 .device (!s.isHome r))

def State.tearCommands (s : State) : State :=
  let l := (s.pe.cmds.map (·.2)).filter (fun c => c.accepted && !c.rejected && !c.closed)
  (l.foldl (fun t c => t.tearEntry c) s).updPe (fun p => { p with cmds := [] })

/-- A FATAL record names each region with pages that an incomplete save lost (R72). -/
def State.lossRecords (s : State) : State :=
  let lost := (s.dst.images.filter (fun i => !i.complete)).flatMap (·.pages)
  (s.regions.filter (fun e => lost.any (fun p => e.2.overlaps (16384 * p) 16384) && e.2.floor != .d0)).foldl (fun t e =>
    t.record sevFatal .dst 2 F.DST_ERR.LAST_SAVE_INCOMPLETE.lsb e.1 Addr.DST_ERR) s

/-- R328: the slice is in force again, unless its signature no longer verifies. -/
def State.planAgain (s : State) : State :=
  match s.tir.plan with
  | none => s
  | some p =>
    if s.planSigned (p.bytes.take (planLen (planCount p.bytes))) then (s.setFld F.TIR_PLACE_CTL.PLANNED 1).setFld F.TIR_PLAN_STATUS.VALID 1
    else (s.updTir (fun t => { t with plan := none, planBad := true })).record sevError .tir 7 F.TIR_ERR.NO_PLAN.lsb 0 Addr.TIR_ERR

def State.beginRestore (s : State) (erased channels raw : Nat) : State :=
  let s1 := s.updDst (fun d => { d with saveErased := erased, channels := channels, rawGib := raw })
  let s2 := s1.nandPages.foldl (fun t p => t.markUnrestored p) s1
  ((((((s2.planAgain).reloadIngress).lossRecords).toMode .restore sevNotice).tearCommands).decideKept).settleMode

def execRestoreEntry (saveErased : BitVec 20) (channels : BitVec 6) (rawGib : BitVec 20) (s : State) : Res :=
  when_ s.mayRestore s
    (if s.rawShort rawGib.toNat then
      (if s.dst.nandShort then s else (s.updDst (fun d => { d with nandShort := true })).record sevFatal .dst 2 F.DST_ERR.NAND_SHORT.lsb 0 Addr.DST_ERR)
     else s.beginRestore saveErased.toNat channels.toNat rawGib.toNat)

/-! ### A page is rebuilt (R295 to R299) -/

/-- Blocks that come from this device's NAND: those the twin supplies in a resync, or at a channel's return, are skipped
(Table CEI-8, R499). -/
def State.nandBlocks (s : State) (page : Nat) : List Nat :=
  if s.svc.filling.contains page then s.ownBlocks page
  else match s.phl.twin with
  | .resyncIn => s.ownBlocks page
  | _ => s.ownBlocks page ++ s.mirrorBlocks page

/-- The newest save that held or lost the page lost it. -/
def DstState.lostPage (d : DstState) (page : Nat) : Bool :=
  match (d.images.filter (fun i => i.pages.contains page)).getLast? with
  | some i => !i.complete
  | none => false

/-- The layers of a page: its data-zone copy, then each save image in order. -/
def DstState.pageBytes (d : DstState) (page : Nat) : Memory :=
  match (d.images.filter (fun i => i.complete && i.pages.contains page)).getLast? with
  | some i => i.ddr.slice (page * 16384) 16384
  | none => (match Tab.get d.map page with
    | some e => if e.valid then d.nand.slice (page * 16384) 16384 else []
    | none => [])

def DstState.pagePoisoned (d : DstState) (page : Nat) : List Nat :=
  match (d.images.filter (fun i => i.complete && i.pages.contains page)).getLast? with
  | some i => i.poison.filter (fun l => pageOf l == page)
  | none => d.nandPoison.filter (fun l => pageOf l == page)

/-- The blocks `bs` take their bytes from NAND. -/
def State.loadBlocks (s : State) (page : Nat) (bs : List Nat) : State :=
  let cells := (s.dst.pageBytes page).filter (fun c => inBlocks bs c.1)
  { s with
    ddr := (bs.foldl (fun m b => Memory.clear m b 4096) s.ddr).writeCells cells
    poison := s.poison.filter (fun l => !inBlocks bs l) ++ (s.dst.pagePoisoned page).filter (fun l => inBlocks bs l) }

/-- No source is left for the blocks: their lines are poisoned (R299). -/
def State.poisonBlocks (s : State) (page : Nat) (bs : List Nat) : State :=
  let lines := (bs.flatMap (fun b => linesOf b 4096)).filter (fun l => !s.poison.contains l)
  let region := ((List.range 4).findSome? (fun i => (s.regionAt (page * 16384 + i * 4096)).map (·.1))).getD 0
  if bs.isEmpty then s
  else
    ({ s with poison := s.poison ++ lines }.bumpBy F.DST_CNT2.POISONED_LINES lines.length).recordFull sevError .dst 3 F.DST_CNT2.POISONED_LINES.lsb
      region Addr.DST_CNT2 (BitVec.ofNat 64 page) 0

/-- A twin holds the page's D2 and D3 blocks. -/
def State.twinSource (s : State) : Bool :=
  match s.phl.twin with
  | .paired | .fallback | .resyncIn => true
  | _ => false

/-- The page's contents cannot be had from NAND: its mirrored blocks are asked of the twin. -/
def State.loseFromNand (s : State) (page : Nat) : State :=
  match s.phl.twin with
  | .resyncIn => s.poisonBlocks page (s.ownBlocks page)
  | _ =>
    if s.twinSource && !(s.mirrorBlocks page).isEmpty then
      (s.poisonBlocks page (s.ownBlocks page)).sendFrame { Frame.mk0 9 with dpa := 16384 * page }
    else s.poisonBlocks page (s.ownBlocks page ++ s.mirrorBlocks page)

/-- The page stays UNRESTORED until the twin has sent its part. -/
def State.awaitsTwin (s : State) (page : Nat) (lost : Bool) : Bool :=
  !(s.mirrorBlocks page).isEmpty && (s.svc.filling.contains page || match s.phl.twin with
    | .resyncIn => s.phl.resyncLeft.contains page
    | .paired | .fallback => lost
    | _ => false)

def State.restorePage (s : State) (page : Nat) (readable : Bool) : State :=
  let lost := !readable || s.dst.lostPage page || s.onDeadDie page
  let s1 := if lost then s.loseFromNand page else (s.loadBlocks page (s.nandBlocks page)).usePageKeys page
  let s2 := s1.initPage page
  ((if s.awaitsTwin page lost then s2 else s2.pageReady page).serveReads).settleMode

/-- In a resync, a page none of whose blocks is this device's alone is not read. -/
def State.mayRead (s : State) (page : Nat) : Bool :=
  s.running .dst && s.running .mem && s.unrestored (16384 * page) && !(s.nandBlocks page).isEmpty && !s.inSave

def execPageRestored (page : BitVec 30) (readable : Bool) (s : State) : Res :=
  when_ (s.mayRead page.toNat) s (s.restorePage page.toNat readable)

/-- 120 µs after its request, what waits for a page is answered with poison; recovery goes on (R298). -/
def execDemandDeadline (page : BitVec 30) (s : State) : Res :=
  let wanted := match Tab.get s.dst.pages page.toNat with
    | some p => p.unrestored && p.demand
    | none => false
  when_ (s.running .dst && wanted) s
    (((s.poisonWaiting (16384 * page.toNat) 16384).bump F.DST_CNT3.DEADLINE_POISONS).record sevError .dst 3 F.DST_CNT3.DEADLINE_POISONS.lsb page.toNat
      Addr.DST_CNT3)

def execRestoreComplete (s : State) : Res :=
  match s.mod.mode with
  | .restore => when_ (s.running .ctl) s s.settleMode
  | _ => .next s

end Sys2Proof.Machine
end

