-- ==== Sys2Proof/Machine/Boot.lean ====
section
/-! DEFINITION. The release of CTL, and the first work of firmware (01 R30, 04 R112, 14 R435 to R439). -/

namespace Sys2Proof.Machine

/-- The boot ROM's checks of a slot: what hash and signature gave, its sectors, MAGIC and LENGTH (R435). -/
def State.slotBoots (s : State) (slot : Nat) (verified : Bool) : Bool :=
  verified && s.slotSound slot && s.norWord (slotFirst slot * 4096) 4 == 0x96400F01 &&
  decide (s.norWord (slotFirst slot * 4096 + 8) 4 ≤ 12 * 1048576 - 512)

/-- The slot that boots: the active one, else the other. -/
def State.bootSlot (s : State) (okA okB : Bool) : Option Nat :=
  let act := s.cfl.activeSlot
  let ok (n : Nat) : Bool := s.slotBoots n (if n = 0 then okA else okB)
  if ok act then some act else if ok (1 - act) then some (1 - act) else none

/-- Islands that firmware releases once CTL runs. -/
def firmwareIslands : List Island := [.pst, .dst, .nc, .cip, .tir, .pe, .contrail, .hst, .fab, .phl]

def Tenant.none : Tenant :=
  { ddrMib := 0, ncMib := 0, ceilMib := 0, credits := 0, contexts := 0, ctxResident := 0, strandsMin := 0, strandsMax := 0 }

/-- Where firmware places the rings and journals of the privileged queues: an 8 MiB area, a free value within the usable DPA; the
twins' areas do not meet (DESIGN CHOICE, notes/assumptions/21.md). -/
def State.privArea (s : State) : Nat := (2 * (s.freeVal.toNat % max 1 (s.mem.limit / 64)) + b2n s.odd) * 8388608

/-- D0 region of the rings (R112). -/
def ringRegion (base : Nat) (odd : Bool) : Region :=
  { base := base, len := 524288, floor := .d0, atomic := false, sealed := false, downgrade := false, homeOdd := odd, wpol := 0, tenant := 0,
    grant := 0, sealCfg := { ckptArea := 0, autoRecords := 0, autoMs := 0 }, placement := 0, written := false, nextPos := 0, warned := false }

/-- Privileged queue `n`, of depth 256, with its journal region (R74, R112). Its handle set is empty, its class 2, MAX_STRANDS 256, its
wait limit 0 (DESIGN CHOICE, notes/assumptions/84.md). -/
def State.addPriv (s : State) (area n : Nat) : State :=
  let ring := area + 32768 * n
  let j := area + 1048576 + 262144 * n
  let q : QBlock := { tenant := 0, log2 := 8, cls := 2, maxStrands := 256, wait := 0, sq := ring, cq := ring + 16384, journal := j, priv := true,
                      handles := [], stray := false }
  let k := privFirst s.odd + n
  ({ s with regions := Tab.put s.regions k (s.journalRegion 0 j) }.updPe (fun p => { p with qps := Tab.put p.qps n (mkQp q k) })).setFld (F.PE_PQ_BASE.RING_PAGE n) (ring / 4096)

/-- The privileged queues exist, at a new place or where they were before. -/
def State.privQueues (s : State) : State :=
  if Tab.has s.pe.qps 0 then
    (List.range 16).foldl (fun t n => t.setFld (F.PE_PQ_BASE.RING_PAGE n) (((Tab.get s.pe.qps n).map (fun q => q.sqBase / 4096)).getD 0)) s
  else
    ((List.range 16).foldl (fun (t : State) n => t.addPriv s.privArea n)
      { s with regions := Tab.put s.regions (privFirst s.odd + 16) (ringRegion s.privArea s.odd) }).drawFree

/-- A blank fabric root is told of at every power-up (R339). -/
def State.rootRecord (s : State) : State :=
  if s.cip.fabricRoot.isNone then s.record sevError .cip 3 F.CIP_ERR.ROOT_BLANK.lsb 0 Addr.CIP_ERR else s

/-- Firmware starts: islands, tenant 0, privileged queues, the twin state of Table TWN-9. -/
def State.firmwareStart (s : State) : State :=
  let s1 := (s.setRun .ctl .running).setRuns firmwareIslands .running
  let s2 := s1.updRec (fun c => { c with released := true })
  let s3 := { s2 with tenants := if Tab.has s.tenants 0 then s.tenants else Tab.put s.tenants 0 Tenant.none }
  (s3.rootRecord.privQueues).setTwin (if s.hasPartner then .linking else .absent) sevNotice

/-- The image of a slot has been verified, and CTL is released. The booted slot is protected (R436); an image in a WORN sector boots with
a WARN record (R440). -/
def State.bootFrom (s : State) (slot : Nat) : State :=
  let fb := slot != s.cfl.activeSlot
  let first := slotFirst slot
  let s1 := s.updCfl (fun c => { c with bootedSlot := slot })
  let s2 := (s1.wpUpdate (fun n w => w ||| wpMask n (fun x => decide (first ≤ x) && decide (x < first + 3072)))).updSeq (fun q =>
    { q with ctlReleased := true, fallback := fb, bootPhase := 5 })
  let s3 := { s2 with svc := { s2.svc with runningSlot := slot, version := s.norWord (first * 4096 + 4) 4, mcode := BitVec.allOnes 64 } }
  let s4 := if fb then (s3.flag F.CFL_ERR.SLOT_FALLBACK).record sevError .aon 6 1 slot Addr.CFL_STATUS else s3
  (if s.slotHas slot (·.worn) then s4.record sevWarn .aon 6 4 slot Addr.CFL_STATUS else s4).firmwareStart

/-- The boot ROM checks the factory row (R439) and the slots. -/
def State.bootCheck (s : State) (okA okB rowOk : Bool) : State :=
  if !rowOk then
    ((s.updSeq (fun q => { q with bootPhase := 0xF, bootFail := 3 })).updCfl (fun c => { c with frowBad := true })).recFlag sevFatal .aon
      F.CFL_ERR.FROW_BAD 0
  else match s.bootSlot okA okB with
    | some slot => s.bootFrom slot
    | none => s.updSeq (fun q => { q with bootPhase := 0xF, bootFail := 1 })

/-- CTL waits for both fills and the verification (Table ARC-10). -/
def State.mayRelease (s : State) : Bool :=
  s.running .aon && s.running .cfl && s.mem.sramDone && s.mem.stackDone && !s.seq.ctlReleased && s.seq.bootPhase != 0xF && (match s.seq.st with
    | .up => true
    | _ => false) && (match s.mod.mode with
    | .cold => true
    | _ => false)

def execCtlRelease (slotA slotB rowOk : Bool) (s : State) : Res :=
  when_ s.mayRelease s (State.settleRst s (s.bootCheck slotA slotB rowOk))

end Sys2Proof.Machine
end

