-- ==== Sys2Proof/Machine/LowPower.lean ====
section
/-! DEFINITION. Haze, the vote, Overcast and Nightfall, retention, pads and wakes (15 R442 to R454). -/

namespace Sys2Proof.Machine

def State.updLps (s : State) (f : LpsState → LpsState) : State := { s with lps := f s.lps }

/-! ### Haze (R443) -/

/-- No host, fabric or Parhelion link is up. -/
def State.linksDown (s : State) : Bool :=
  s.hst.hp0.link == 0 && s.hst.hp1.link == 0 && !s.fab.paths.any (·.link) && !s.phl.ph0.trained && !s.phl.ph1.trained

/-- Islands of the commit path sleep only while every link is down. -/
def commitPath (i : Island) : Bool :=
  [Island.hst, .fab, .phl, .pst, .nc, .mem, .cip, .dst].contains i

/-- No item of the crossings modelled is the island's: records to REC, write data to PST. -/
def State.noItems (s : State) (i : Island) : Bool :=
  s.xing.all (fun e => e.2.isEmpty || (e.1 != 64 + i.code && (match i with
    | .contrail => decide (e.1 < 64)
    | .pst | .hst | .fab | .phl | .pe => decide (64 ≤ e.1)
    | _ => true)))

def State.isHeld (s : State) (i : Island) : Bool := s.lps.held.getLsbD i.code

def State.mayHaze (s : State) (i : Island) : Bool :=
  s.running i && i != .aon && !s.inSave && s.on F.LPS_CTL.HAZE_EN && (s.fld F.LPS_HAZE_MASK.ISLANDS).testBit (i.code - 1) && s.noItems i &&
  (!commitPath i || s.linksDown)

def execHazeEntry (i : Island) (s : State) : Res := when_ (s.mayHaze i) s (s.setRun i .gated)

def execHazeWake (i : Island) (s : State) : Res :=
  when_ (s.run i == .gated && !s.isHeld i && !s.mod.frozen) s (s.setRun i .running)

/-! ### The vote (R444 to R446) -/

/-- Stop order. -/
def stopOrder : List Island := [.pe, .tir, .pst, .phl, .hst, .fab, .dst, .cip, .nc, .mem, .cal, .contrail, .cfl, .ctl]

def State.inHalt (s : State) : Bool :=
  match s.mod.mode with
  | .halt => true
  | _ => false

/-- The first three conditions of R444. -/
def State.mayVote (s : State) : Bool :=
  s.running .aon && !s.mod.frozen && s.lps.st == 0 && s.inHalt && s.on F.LPS_CTL.DEEP_EN && decide (s.dirtyPages = 0) && s.pst.units.isEmpty

def State.startVote (s : State) : State := s.updLps (fun l => { l with st := 1, ready := 0 })

def execOvercastVote (s : State) : Res := when_ (s.mayVote && stopOrder.all (fun i => s.run i == .gated)) s s.startVote

/-- ENTER reads 1 until the vote ends. -/
def execEnter (_ : Path) (s : State) : Res := when_ s.mayVote s (s.startVote.setFld F.LPS_CMD.ENTER 1)

/-- Table LPS-2: the island refuses. -/
def State.refuses (s : State) : Island → Bool
  | .pe => !s.pe.strands.isEmpty
  | .tir => !s.tir.moves.isEmpty
  | .pst => !s.pst.units.isEmpty || !s.pst.extents.isEmpty
  | .phl => s.phl.twin == .linking || s.phl.twin == .resyncIn || s.phl.twin == .resyncOut || !s.phl.unconfirmed.isEmpty
  | .hst => s.hst.hp0.link != 0 || s.hst.hp1.link != 0
  | .fab => s.fab.paths.any (·.link)
  | .dst => decide (s.dirtyPages ≠ 0) || s.dst.gcRunning || s.dst.testing
  | .cip => !s.cip.waiting.isEmpty || !s.cip.units.isEmpty
  | .mem => !s.mem.repairs.isEmpty
  | .cfl => s.cfl.bank0.running.isSome || s.cfl.bank1.running.isSome || s.cfl.bank0.suspended.isSome || s.cfl.bank1.suspended.isSome
  | _ => false

/-- An island that may refuse for a reason outside its state: the image write fails, firmware withholds consent. -/
def mayRefuse (i : Island) : Bool := i == .dst || i == .ctl

/-- The island whose turn it is. -/
def State.voter (s : State) : Option Island := stopOrder[s.lps.ready]?

/-- Every tag of the near cache is invalid. -/
def NcState.emptied (n : NcState) : NcState := { n with lines := [], plru := [], victim := [], data := [], dirtyMap := [] }

/-- Work before READY (Table LPS-2). -/
def State.readyWork (s : State) : Island → State
  | .dst => (s.updLps (fun l => { l with cleanCurrent := true })).updDst (fun d => { d with lastIncomplete := false })
  | .nc => s.updNc NcState.emptied
  | .contrail =>
    (s.recordFull sevInfo .contrail 1 0 0 Addr.LPS_STATUS 0 0).flushAll
  | _ => s

/-- Phase 2: what still crosses to REC is delivered (R18), the retention list is saved, DRAM refreshes itself, pads are latched,
every island but AON is gated. -/
def State.enterOvercast (s : State) : State :=
  let s1 := (s.flushAll.setRuns otherIslands .off).updLps (fun l =>
    { l with st := 2, ready := 0, backoff := 0, latched := 0xF, since := s.time, waiting := [] })
  (s1.bump F.LPS_CNT0.ENTRIES).setFld F.LPS_CMD.ENTER 0

/-- CAL answers once no window is open (Table LPS-2); an island once what crosses into it has been delivered (R18), which REC's work
before READY does. -/
def State.canReady (s : State) (i : Island) : Bool :=
  !s.refuses i && (i != .cal || !s.cal.units.any (fun e => e.2.window)) && (i == .contrail || s.deliveredTo i)

def State.voting (s : State) (i : Island) : Bool := s.lps.st == 1 && !s.mod.frozen && s.voter == some i

def execIslandReady (i : Island) (s : State) : Res :=
  let s1 := (s.readyWork i).updLps (fun l => { l with ready := l.ready + 1 })
  when_ (s.voting i && s.canReady i) s (if i = .ctl then s1.enterOvercast else s1)

/-- The device stays in P0. The clean image is no longer the current one. -/
def State.refuseVote (s : State) (i : Island) : State :=
  let s1 := s.updLps (fun l => { l with
    st := 0, ready := 0, lastRefuser := i.code, backoff := min (s.fld F.LPS_CTL.BACKOFF_MAX) (l.backoff + 1), cleanCurrent := false })
  ((s1.bump F.LPS_CNT0.REFUSALS).setFld F.LPS_CMD.ENTER 0).record sevNotice .contrail 1 4 i.code Addr.LPS_STATUS

def execIslandRefuse (i : Island) (s : State) : Res := when_ (s.voting i && (s.refuses i || mayRefuse i)) s (s.refuseVote i)

def execVoteTimeout (i : Island) (s : State) : Res := when_ (s.voting i) s (s.refuseVote i)

/-! ### Nightfall -/

/-- Channels that Nightfall switches off. -/
def nightChans : List Nat := [2, 5, 6, 7, 8, 9, 10, 11, 12, 13]

def State.enterNight (s : State) : State :=
  (s.lowerChans (nightChans.filter (fun n => s.chOn n))).updLps (fun l => { l with st := 3 })

def execNightfallEntry (s : State) : Res := when_ (s.running .aon && s.lps.st == 2 && s.on F.LPS_CTL.NIGHT_EN) s s.enterNight

def execNight (_ : Path) (s : State) : Res := when_ (s.running .aon && s.lps.st == 2) s s.enterNight

/-! ### Wakes (R451, R452, R454) -/

/-- A wake event with its LPS_WAKE.SOURCE. In phase 1 it counts as a refusal by CTL; in a wake it has no effect. -/
def State.wakeBy (s : State) (src : Nat) : State :=
  if s.lps.st = 1 then s.refuseVote .ctl
  else if s.lps.st = 2 ∨ (s.lps.st = 3 ∧ src ≠ 3) then
    (s.updLps (fun l => { l with st := 4, source := src, from_ := l.st, durationMs := min (2 ^ 48 - 1) ((s.time - l.since) / 1000000) })).bump
      F.LPS_CNT0.WAKES
  else s

def State.asleep (s : State) : Bool := s.running .aon && !s.mod.frozen && decide (1 ≤ s.lps.st) && decide (s.lps.st ≤ 3)

/-- LPS_CMD.WAKE clears in P0. -/
def execWake (_ : Path) (s : State) : Res :=
  when_ s.asleep s ((s.wakeBy 2).setFld F.LPS_CMD.WAKE (if s.lps.st = 1 then 0 else 1))

def execPh0SignalDetect (s : State) : Res := when_ s.asleep s (s.wakeBy 3)

/-- An edge makes HB_IN TOGGLING (R245), and is a wake source. -/
def execTwinHbInEdge (s : State) : Res :=
  let s1 := if s.asleep then s.wakeBy 4 else s
  when_ (s.run .aon == .running) s
    (if s.phl.hbIn = .toggling then s1
     else if s.running .phl then s1.setHb .toggling else s1.updPhl (fun x => { x with hbIn := .toggling }))

/-! ### Retention (R447 to R449) -/

/-- Bank of a window (Table LPS-3). -/
def bankOf (window : Nat) : Option Nat :=
  match window with
  | 3 | 19 => some 0
  | 9 => some 1
  | 7 => some 2
  | 5 | 8 => some 3
  | 4 | 6 => some 4
  | 10 | 11 => some 5
  | 12 | 13 => some 6
  | 14 | 15 | 16 | 17 => some 7
  | _ => none

/-- Islands of a bank. -/
def bankIslands : Nat → List Island
  | 0 => [.ctl]
  | 1 => [.pe]
  | 2 => [.hst]
  | 3 => [.fab, .phl]
  | 4 => [.pst, .dst]
  | 5 => [.nc, .tir]
  | 6 => [.cip, .mem]
  | 7 => [.cal, .cfl, .contrail]
  | _ => []

/-- Fields of the retention list: RW, W1S and RC. -/
def listed (a : Access) : Bool := a == .rw || a == .w1s || a == .rc

/-- Listed bits of a register. -/
def retainMask (a : Nat) : Word :=
  match findReg a with
  | some d => d.fields.foldl (fun w f => if listed f.acc then setBits w f.lsb f.width (2 ^ f.width - 1) else w) 0
  | none => 0

def isPmuCount (a : Nat) : Bool := decide (Addr.PMU_CNT 0 ≤ a) && decide (a < Addr.PMU_CNT 512)

def windowLost (bad : BitVec 8) (w : Nat) : Bool :=
  match bankOf w with
  | some b => bad.getLsbD b
  | none => false

/-- What a register holds after the wake. -/
def retained (bad : BitVec 8) (e : Nat × Word) : Word :=
  if aonWindow (windowOf e.1) || e.1 == Addr.CIP_QUAR then e.2
  else if windowLost bad (windowOf e.1) || isPmuCount e.1 then resetValue e.1
  else (e.2 &&& retainMask e.1) ||| (resetValue e.1 &&& ~~~(retainMask e.1))

def retainRegs (bad : BitVec 8) (t : Tab Word) : Tab Word :=
  t.filterMap (fun e => if retained bad e = resetValue e.1 then none else some (e.1, retained bad e))

def badBanks (bad : BitVec 8) : List Nat := (List.range 8).filter (fun b => bad.getLsbD b)

/-- Islands that firmware must resume; CTL starts on its reset values. -/
def heldIslands (bad : BitVec 8) : List Island := ((badBanks bad).flatMap bankIslands).filter (fun i => i != .ctl)

def heldMask (bad : BitVec 8) : BitVec 15 := BitVec.ofNat 15 (sumOf ((heldIslands bad).map (fun i => 2 ^ i.code)))

/-- The islands are released: registers are restored, caches wake empty; after Nightfall SerDes and NAND are untrained. -/
def State.restoreRetained (s : State) (bad : BitVec 8) : State :=
  let s1 := { s with
    regs := retainRegs bad s.regs, staged := s.staged.filter (fun x => !windowLost bad (windowOf x.addr))
    cip := { s.cip with cache := [] }, fab := { s.fab with resident := [] } }
  let s2 := (s1.updNc NcState.emptied).updMem (fun m => { m with sramDone := true })
  let s3 := s.pe.qps.foldl (fun t (e : Nat × Qp) => if e.1 < 16 then t.setFld (F.PE_PQ_BASE.RING_PAGE e.1) (e.2.sqBase / 4096) else t) s2
  if s.lps.from_ = 3 then
    nightChans.foldl (fun t n => if s.chEnabled n then t.setGood n true else t)
      ((s3.raiseChans (nightChans.filter (fun n => s.chEnabled n))).updCal (fun c =>
        { c with units := c.units.filter (fun e => decide (e.1 < 64)) }))
  else s3

/-- Step 5 of Table LPS-5: a bank that fails its check is reported, and its islands are held. -/
def State.releaseIslands (s : State) (bad : BitVec 8) : State :=
  let s1 := (s.restoreRetained bad).setRuns otherIslands .running
  let s2 := (s1.setRuns (heldIslands bad) .gated).updLps (fun l => { l with cleanCurrent := false, held := heldMask bad })
  let s3 := (s2.setFld F.LPS_LOST.BANKS (s2.fld F.LPS_LOST.BANKS ||| bad.toNat)).bumpBy F.LPS_CNT0.BANK_FAILS (badBanks bad).length
  (badBanks bad).foldl (fun t b =>
    t.recordFull sevError .contrail 2 b b Addr.LPS_LOST (BitVec.ofNat 64 (sumOf ((bankIslands b).map (fun i => 2 ^ i.code)))) 0) s3

/-- P0 is reached once the wake has released the islands and DDR5 has left self-refresh (Table LPS-5, step 8). -/
def State.wakeEnd (s : State) : State :=
  if s.lps.st = 4 ∧ s.lps.cleanCurrent = false ∧ s.lps.latched.getLsbD 0 = false then
    ((s.updLps (fun l => { l with st := 0 })).setFld F.LPS_CMD.WAKE 0).record sevInfo .contrail 1 0 0 Addr.LPS_STATUS
  else s

def State.mayWakeEnd (s : State) : Bool := s.running .aon && !s.mod.frozen && s.lps.st == 4 && s.lps.cleanCurrent

/-! ### Pads (R450) -/

/-- Owners of a pad group: DDR, NAND, SERDES, SIDEBAND. -/
def padOwners : Nat → List Island
  | 0 => [.mem]
  | 1 => [.dst]
  | 2 => [.hst, .fab, .phl]
  | _ => [.mem]

/-- Groups of a write that can be released: their islands have been, and are not held. -/
def State.padsFree (s : State) (groups : BitVec 4) : BitVec 4 :=
  BitVec.ofNat 4 (sumOf ((List.range 4).map (fun g =>
    if groups.getLsbD g && (padOwners g).all (fun i => s.run i != .off && !s.isHeld i) then 2 ^ g else 0)))

def State.releasePads (s : State) (groups : BitVec 4) : State :=
  (s.updLps (fun l => { l with latched := l.latched &&& ~~~(s.padsFree groups) })).wakeEnd

def execPadRelease (_ : Path) (groups : BitVec 4) (s : State) : Res :=
  when_ (s.running .aon && !s.mod.frozen) s (s.releasePads groups)

/-- LPS_LOST.RESUME, from CTL alone. -/
def State.resumeHeld (s : State) (islands : BitVec 15) : State :=
  let go := otherIslands.filter (fun i => islands.getLsbD i.code && s.isHeld i)
  (s.setRuns go .running).updLps (fun l => { l with held := l.held &&& ~~~islands })

def execLpsResume (path : Path) (islands : BitVec 15) (s : State) : Res :=
  when_ (s.running .aon) s (if fromCtl path then s.resumeHeld islands else s.deny path Addr.LPS_LOST 24)

end Sys2Proof.Machine
end

