-- ==== Sys2Proof/Machine/Modes.lean ====
section
/-! DEFINITION. Mode commands, DRAIN, HALT, and the freeze (16 R456 to R469). -/

namespace Sys2Proof.Machine

/-- MOD_CMD completes. -/
def State.modDone (s : State) (st : Status) : State := s.setFld F.MOD_CMD.STATUS st.toNat

/-- SERVE or SOLO. -/
def State.serving (s : State) : Bool :=
  match s.mod.mode with
  | .serve | .solo => true
  | _ => false

def State.inDrain (s : State) : Bool :=
  match s.mod.mode with
  | .drain => true
  | _ => false

def State.inService (s : State) : Bool :=
  match s.mod.mode with
  | .service => true
  | _ => false

/-- A resync runs. -/
def State.resyncing (s : State) : Bool :=
  match s.phl.twin with
  | .resyncIn | .resyncOut => true
  | _ => false

/-- A DDR5 channel or a fabric port is out under live service (R493). -/
def State.partOut (s : State) : Bool := !s.svc.chOut.isEmpty || !s.svc.portOut.isEmpty

/-- Every dirty sector of the near cache is written back. -/
def State.cleanCache (s : State) : State :=
  ((s.nc.lines.map (·.1)) ++ s.nc.victim.map (·.block)).foldl (fun t b => t.cleanBlock b) s

/-! ### DRAIN (R458) -/

def State.enterDrain (s : State) (target : Nat) : State :=
  (((s.updMod (fun m => { m with target := target })).toMode .drain sevNotice).cleanCache).reclaimAll

def State.cmdDrain (s : State) (target : Nat) : State :=
  let s0 := s.setFld F.MOD_CMD.TARGET target
  if !s.serving then s0.modDone ST.mode
  else if target ≠ 2 ∧ target ≠ 6 ∧ target ≠ 7 then s0.modDone ST.fault
  else if s.resyncing then s0.modDone ST.busy
  else (s0.enterDrain target).modDone ST.ok

def execDrain (path : Path) (target : BitVec 3) (s : State) : Res :=
  s.onCtl (.drain path target) (when_ (s.running .ctl) s (s.cmdDrain target.toNat))

def State.closeIntake (s : State) : State := s.updMod (fun m => { m with intakeClosed := true })

/-- DIRTY_PAGES reads CLOSE_PAGES or fewer. -/
def execIntakeClose (s : State) : Res :=
  when_ (s.running .ctl && s.inDrain && !s.mod.intakeClosed && s.on F.MOD_CTL.CLOSE_PAGES && decide (s.dirtyPages ≤ s.fld F.MOD_CTL.CLOSE_PAGES)) s
    s.closeIntake

/-- DRAIN_CLOSE has passed since entry. -/
def execDrainClose (s : State) : Res :=
  when_ (s.running .ctl && s.inDrain && !s.mod.intakeClosed) s (s.closeIntake.recFlag sevWarn .ctl F.MOD_ERR.DRAIN_TIMED_OUT 0)

/-! ### HALT (R459) -/

/-- A HALT by command or drain: a twin that is linked takes over. -/
def State.haltBy (s : State) (cause : Nat) : State :=
  match s.phl.twin with
  | .paired | .fallback | .unconfirmed => s.enterLost true cause sevNotice
  | _ => s.toHalt cause sevNotice

/-- The drain is complete: DIRTY_PAGES 0, the ingress buffer empty. -/
def State.drained (s : State) : Bool := decide (s.dirtyPages = 0) && s.pst.units.isEmpty && s.phl.copies.isEmpty

def State.endDrain (s : State) : State :=
  let s1 := s.bump F.MOD_CNT0.DRAINS
  match s.mod.target with
  | 7 => s1.haltBy 2
  | 6 => s1.toMode .service sevNotice
  | _ => s1.toMode s.serveOrSolo sevNotice

/-- A drain to HALT waits for a resync to end. -/
def execDrainComplete (s : State) : Res :=
  when_ (s.running .ctl && s.inDrain && s.drained && !(s.mod.target == 7 && s.resyncing)) s s.endDrain

def State.cmdHalt (s : State) : State :=
  if !(s.serving || s.inDrain || s.inService) then s.modDone ST.mode
  else if s.resyncing || s.partOut then s.modDone ST.busy
  else (s.haltBy 1).modDone ST.ok

def execHalt (path : Path) (s : State) : Res :=
  s.onCtl (.halt path) (when_ (s.running .ctl) s s.cmdHalt)

/-- HALT_HOLD has passed: the host links, unless KEEP_HST, and the fabric links go down. -/
def State.dropLinks (s : State) : State :=
  let s1 := if s.on F.MOD_CTL.KEEP_HST then s else (s.linkOff .hp0).linkOff .hp1
  (s1.updFab (fun f => { f with paths := f.paths.map (fun (p : PathState) => { p with link := false }) })).updMod (fun m => { m with haltHeld := true })

def execHaltHold (s : State) : Res := when_ (s.running .ctl && s.inHalt && !s.mod.haltHeld) s s.dropLinks

/-! ### SERVICE, SERVE, RESUME -/

def State.cmdService (s : State) : State :=
  if !s.serving then s.modDone ST.mode
  else if s.resyncing then s.modDone ST.busy
  else ((s.toMode .service sevNotice).reclaimAll).modDone ST.ok

def execService (path : Path) (s : State) : Res :=
  s.onCtl (.service path) (when_ (s.running .ctl) s s.cmdService)

def State.cmdServe (s : State) : State :=
  if !(s.inDrain || s.inService) then s.modDone ST.mode
  else if s.partOut then s.modDone ST.busy
  else (s.toMode s.serveOrSolo sevNotice).modDone ST.ok

def execServe (path : Path) (s : State) : Res :=
  s.onCtl (.serve path) (when_ (s.running .ctl) s s.cmdServe)

/-- The mode follows the twin state from now on. -/
def State.resumes (s : State) : State := s.updMod (fun m => { m with resumed := true })

/-- PHL settles the command against the twin (R460), this device being LOST by command or drain. -/
def State.settleResume (s : State) (twinResuming : Bool) : State :=
  let x := s.phl
  if !x.linkIdSeen then
    (((s.resumes).updPhl (fun x => { x with lostByCommand := false })).setTwin .linking sevNotice).modDone ST.ok
  else if x.twinMode ≠ 7 then (s.resumes.enterReceiver x.lastId false).modDone ST.ok
  else if x.epoch < x.peerEpoch then (s.flag F.MOD_ERR.RESUME_REFUSED).modDone ST.busy
  else if x.epoch = x.peerEpoch ∧ twinResuming = true then (s.resumes.pairUp x.lastId).modDone ST.ok
  else (s.resumes.enterAlone sevWarn).modDone ST.ok

def State.cmdResume (s : State) (twinResuming : Bool) : State :=
  if !s.inHalt || s.mod.haltCause == 3 then s.modDone ST.mode
  else
    match s.phl.twin with
    | .alone | .absent => (s.toMode .solo sevNotice).modDone ST.ok
    | .lost => s.settleResume twinResuming
    | _ => s.modDone ST.ok

def execResume (path : Path) (twinResuming : Bool) (s : State) : Res :=
  s.onCtl (.resume path twinResuming) (when_ (s.running .ctl) s (s.cmdResume twinResuming))

/-! ### Stillair (R467 to R469) -/

/-- A request made while debug is locked is ignored with a NOTICE record. -/
def State.lockedOut (s : State) (f : Fld) : State := s.record sevNotice .aon 4 f.lsb 0 f.addr

/-- Every DDR5 rank and both stacks enter self-refresh, the pads are latched, every clock but AON's stops. A freeze requested
in SAVE is ignored. -/
def State.freeze (s : State) : State :=
  if s.inSave then s.record sevNotice .aon 1 F.GEN_ISLAND_STATE.FROZEN.lsb 0 Addr.GEN_ISLAND_STATE
  else if s.mod.frozen then s
  else ((s.cutTest).updMod (fun m => { m with frozen := true, frozenAt := s.time })).updLps (fun l => { l with latched := l.latched ||| 1 })

/-- STILLAIR_N falls: it requests a freeze only while PIN_EN = 1. -/
def execStillairFreeze (s : State) : Res := when_ (s.running .aon && s.on F.DBG_CTL.PIN_EN) s s.freeze

def State.cmdFreeze (s : State) : State := if s.debugOpen then s.freeze else s.lockedOut F.DBG_CTL.FREEZE

def execFreeze (_ : Path) (s : State) : Res := when_ (s.running .aon) s s.cmdFreeze

/-- The clocks restart together, and the pads that the freeze latched are released. -/
def State.unfreeze (s : State) : State :=
  (s.updMod (fun m => { m with frozen := false })).updLps (fun l => if l.st < 2 then { l with latched := l.latched &&& 0xE } else l)

/-- Thaw. After more than FB_CONFIRM the lease counts as expired, and Table TWN-10 decides (Table MOD-7). -/
def State.thaw (s : State) : State :=
  let s1 := s.unfreeze.bump F.MOD_CNT0.FREEZES
  if s.phl.twin.watched && decide (1000 * s.fld F.PHL_LEASE.FB_CONFIRM < s.time - s.mod.frozenAt) then
    (s1.updPhl (fun x => { x with leaseRunning := false, guardPassed := true })).enterUnconfirmed
  else s1

def State.cmdThaw (s : State) : State :=
  if !s.debugOpen then s.lockedOut F.DBG_CTL.THAW
  else if s.mod.frozen then s.thaw else s

def execThaw (_ : Path) (s : State) : Res := when_ (s.running .aon) s s.cmdThaw

/-- Reset from the freeze: thaw, then a reset save at once. -/
def State.cmdReset (s : State) : State :=
  if !s.debugOpen then s.lockedOut F.DBG_CTL.RESET
  else if s.mod.frozen then (if s.unfreeze.mayReset then s.unfreeze.resetSave else s.unfreeze) else s

def execReset (_ : Path) (s : State) : Res := when_ (s.running .aon) s s.cmdReset

end Sys2Proof.Machine
end

