-- ==== Sys2Proof/Machine/Debug.lean ====
section
/-! DEFINITION. Authorisation tokens and the operations they allow, debug unlock, JTAG instructions (17 R478 to R481, R490 to
R492; 10 R338, R349; 09 R325; 12 R393). -/

namespace Sys2Proof.Machine

def State.updDbg (s : State) (f : DbgState → DbgState) : State := { s with dbg := f s.dbg }

/-! ### Tokens (R478 to R480) -/

/-- DBG_NONCE. -/
def State.nonce (s : State) : Word := Config.free s.dbg.nonce

/-- A new random nonce. -/
def State.drawNonce (s : State) : State := (s.updDbg (fun d => { d with nonce := s.freeCtr })).drawFree

/-- The bytes a token covers. -/
def State.tokenText (s : State) (op operand : Nat) : List Byte :=
  leBytes 8 s.nonce.toNat ++ leBytes 2 op ++ leBytes 8 operand ++ leBytes 8 Config.serial.toNat

/-- The provisioning key with its salt (R338). -/
def provisioning : List Byte := kdf (beBytes 32 Config.deviceRoot.toNat) (keyLabel 2 0 0 0 0) 1 []

/-- What a request carries under the provisioning key. -/
def provisioned (nonce ciphertext tag : List Byte) : Option (List Byte) :=
  gcmOpen (provisioning.take 32) ((provisioning.drop 32).take 4 ++ nonce) [] ciphertext tag

/-- The 32 bytes in DBG_AUTH_TAG0 to DBG_AUTH_TAG3. -/
def State.authTag (s : State) : List Byte := (List.range 4).flatMap (fun n => leBytes 8 (s.raw (Addr.DBG_AUTH_TAG n)).toNat)

def State.authArg (s : State) : Nat := (s.raw Addr.DBG_AUTH_ARG).toNat

/-- The key that the token of ADMIN_SET is computed under, where AON holds none (R479). -/
def State.tokenKey (s : State) (op : Nat) : Option (List Byte) :=
  match s.dbg.adminHeld with
  | some k => some k
  | none => if op = 7 then some (provisioning.take 32) else none

/-- The token in the registers is good. The first ADMIN_SET needs none. -/
def State.tokenGood (s : State) (op : Nat) : Bool :=
  (op == 7 && !s.dbg.adminDone) || (match s.tokenKey op with
    | some k => hmac k (s.tokenText op s.authArg) == s.authTag
    | none => false)

def State.authDone (s : State) (st : Status) : State := s.setFld F.DBG_AUTH_CMD.STATUS st.toNat

/-- The registers of a token that has been evaluated are cleared. -/
def State.clearTag (s : State) : State := (List.range 4).foldl (fun (t : State) n => t.setRaw (Addr.DBG_AUTH_TAG n) 0) s

/-- Operations that only MCTP may bring. -/
def mctpOnly (op : Nat) : Bool := op == 3 || op == 7

/-- A command that comes less than 1 s after a refused one. -/
def State.tooSoon (s : State) : Bool :=
  match s.dbg.refusedAt with
  | some t => decide (s.time < t + 1000000000)
  | none => false

def State.accepted (s : State) (op : Nat) : State :=
  (s.recordFull sevAudit .aon 7 op 0 Addr.DBG_AUTH_CMD (BitVec.ofNat 64 s.authArg) 0).bump F.DBG_CNT0.ACCEPTED

def State.tokenRefused (s : State) (op : Nat) : State :=
  ((s.recordFull sevAudit .aon 7 (128 + op) 0 Addr.DBG_AUTH_CMD (BitVec.ofNat 64 s.authArg) 0).bump F.DBG_CNT0.REFUSED).updDbg (fun d =>
    { d with refusedAt := some s.time })

/-- DBG_AUTH_CMD. `st` is what the operation itself answers, and `act` its effect. -/
def State.authorise (s : State) (path : Path) (op : Nat) (st : Status) (act : State → State) : State :=
  if mctpOnly op && path != .mctp then s.authDone ST.rights
  else if s.tooSoon then s.authDone ST.busy
  else if !s.tokenGood op then (((s.tokenRefused op).clearTag).drawNonce).authDone ST.key
  else if st ≠ ST.ok then (((s.tokenRefused op).clearTag).drawNonce).authDone st
  else (((act (s.accepted op)).clearTag).drawNonce).authDone ST.ok

/-- The status of an operation: ST_FAULT for an operand outside its range. -/
def operandOk (ok : Bool) : Status := if ok then ST.ok else ST.fault

/-! ### The operations (Table REC-4) -/

/-- R481: the AUDIT record that the acceptance writes is the clear record; the clear takes effect once it is on flash. -/
def State.contrailClear (s : State) (path : Path) : State :=
  s.authorise path 1 (if s.recUp then operandOk (decide (s.authArg < 256)) else ST.mode) (fun t => t)

def execContrailClear (path : Path) (s : State) : Res := when_ (s.running .aon) s (s.contrailClear path)

/-- R393. -/
def State.unlatch (s : State) : State := s.updSeq (fun q => { q with st := .off, bootPhase := 0, bootFail := 0 })

def State.seqUnlatch (s : State) (path : Path) : State :=
  let latched := match s.seq.st with
    | .latched => true
    | _ => false
  s.authorise path 2 (if latched then operandOk (decide (s.authArg = 0)) else ST.mode) State.unlatch

def execSeqUnlatch (path : Path) (s : State) : Res := when_ (s.running .aon) s (State.settleRst s (s.seqUnlatch path))

/-- The root is fused. -/
def State.fuseRoot (s : State) (root : Nat) (k : List Byte) : State :=
  let v := BitVec.ofNat 256 (beNat k)
  s.updCip (fun c => if root = 2 then { c with fabricRoot := some v } else { c with sealRoot := some v })

def State.rootBlank (s : State) (root : Nat) : Bool := if root = 2 then s.cip.fabricRoot.isNone else s.cip.sealRoot.isNone

/-- R338: only while the root's fuses are blank. -/
def State.rootProvision (s : State) (path : Path) (nonce ciphertext tag : List Byte) : State :=
  let root := s.authArg
  let pt := provisioned nonce ciphertext tag
  s.authorise path 3
    (if root ≠ 2 ∧ root ≠ 3 then ST.fault
     else if !s.rootBlank root then ST.rights
     else match pt with
       | some k => operandOk (decide (k.length = 32))
       | none => ST.key)
    (fun t => t.fuseRoot root (pt.getD []))

def execRootProvision (path : Path) (nonce ciphertext tag : List Byte) (s : State) : Res :=
  when_ (s.running .aon) s (s.rootProvision path nonce ciphertext tag)

/-- Units return to service and take what waits (R349). -/
def State.unquarantine (s : State) (mask : Nat) : State :=
  let s1 := s.setRaw Addr.CIP_QUAR (s.raw Addr.CIP_QUAR &&& ~~~(BitVec.ofNat 64 mask))
  ((List.range 48).filter (fun i => mask.testBit i)).foldl (fun (t : State) u => if (t.cipUnit u).running.isNone then t.unitNext u else t) s1

/-- Bits [19:0] and [47:32]. -/
def unitMaskOk (m : Nat) : Bool := decide (m < 2 ^ 48) && decide (m / 2 ^ 20 % 2 ^ 12 = 0)

def State.quarantineClear (s : State) (path : Path) : State :=
  s.authorise path 4 (operandOk (unitMaskOk s.authArg)) (fun t => t.unquarantine s.authArg)

def execQuarantineClear (path : Path) (s : State) : Res := when_ (s.running .aon) s (s.quarantineClear path)

/-- The operand is the first 8 bytes of the digest of a key. -/
def State.namesKey (s : State) (key : List Byte) : Bool := s.authArg == leNat ((sha256 key).take 8)

/-- R325: an uncompressed P-384 public key. -/
def State.storePlanKey (s : State) (path : Path) (key : List Byte) : State :=
  s.authorise path 5 (operandOk (decide (key.length = 97) && key.head? == some 0x04 && s.namesKey key))
    (fun t => t.updTir (fun x => { x with planKey := key }))

def execPlanKey (path : Path) (key : List Byte) (s : State) : Res := when_ (s.running .aon) s (s.storePlanKey path key)

/-- R490: 0 until AON reset. -/
def State.unlockDebug (s : State) (minutes : Nat) : State :=
  s.updDbg (fun d => { d with unlocked := some (if minutes = 0 then 0 else s.time + minutes * 60000000000) })

def State.debugUnlock (s : State) (path : Path) : State :=
  s.authorise path 6 (operandOk (decide (s.authArg ≤ 1440))) (fun t => t.unlockDebug s.authArg)

def execDebugUnlock (path : Path) (s : State) : Res := when_ (s.running .aon) s (s.debugUnlock path)

/-- R479: accepted only while CFL runs; the first one blows ADMIN_DONE. -/
def State.adminSet (s : State) (path : Path) (nonce ciphertext tag : List Byte) : State :=
  let pt := provisioned nonce ciphertext tag
  s.authorise path 7
    (if !s.running .cfl then ST.mode
     else match pt with
       | some k => operandOk (decide (k.length = 32) && s.namesKey k)
       | none => ST.key)
    (fun t => t.updDbg (fun d => { d with adminKey := some (pt.getD []), adminHeld := some (pt.getD []), adminDone := true }))

def execAdminSet (path : Path) (nonce ciphertext tag : List Byte) (s : State) : Res :=
  when_ (s.running .aon) s (s.adminSet path nonce ciphertext tag)

/-- NONCE_LIFE has passed since the last draw. -/
def execNonceLife (s : State) : Res := when_ (s.running .aon) s s.drawNonce

def execUnlockExpiry (s : State) : Res :=
  match s.dbg.unlocked with
  | some t => when_ (s.running .aon && t != 0) s (s.updDbg (fun d => { d with unlocked := none }))
  | none => .next s

def State.lock (s : State) : State := s.updDbg (fun d => { d with unlocked := none })

def execLock (s : State) : Res := when_ (s.running .aon) s s.lock

/-! ### JTAG (R491, R492) -/

/-- An instruction is loaded: what it does to the pins (0 none, 1 EXTEST, 2 CLAMP, 3 HIGHZ), and what is shifted out. -/
def State.jtagLoad (s : State) (instr pins : Nat) (data : List Byte) : State := { s with jtagPins := pins }.emit (.jtag instr data)

def execBypass (s : State) : Res := .next (s.jtagLoad 0 0 [])

def execIdcode (s : State) : Res := .next (s.jtagLoad 1 0 (leBytes 4 0x19640C9F))

/-- The levels of the pins are outside this model: a free value. -/
def execSamplePreload (s : State) : Res := .next ((s.jtagLoad 2 0 (leBytes 8 s.freeVal.toNat)).drawFree)

/-- An instruction that is not allowed acts as BYPASS. -/
def State.jtagRefuse (s : State) : State := (s.jtagLoad 0 0 []).flag F.DBG_CTL.JTAG_REFUSED

/-- The sequencer is in OFF or LATCHED. -/
def State.railsDown (s : State) : Bool :=
  match s.seq.st with
  | .off | .latched => true
  | _ => false

def State.jtagPins_ (s : State) (pins : Nat) : State := if s.railsDown then s.jtagLoad (2 + pins) pins [] else s.jtagRefuse

def execExtest (s : State) : Res := .next (s.jtagPins_ 1)

def execClamp (s : State) : Res := .next (s.jtagPins_ 2)

def execHighz (s : State) : Res := .next (s.jtagPins_ 3)

/-- Unlocked and frozen. -/
def State.dumpOpen (s : State) : Bool := s.debugOpen && s.mod.frozen

/-- A chain set: its header and its data. Number, length and contents are free values. -/
def State.chainSet (s : State) (i : Nat) : List Byte :=
  let n := (Config.free (s.freeCtr + 2 * i)).toNat % 5505024
  let data := (List.range n).map (fun j => (Config.free (s.freeCtr + 30 + 5505024 * i + j)).setWidth 8)
  leBytes 4 i ++ leBytes 4 (Config.free (s.freeCtr + 2 * i + 1)).toNat ++ leBytes 4 (8 * n) ++ leBytes 4 (crc32c data).toNat ++ data

/-- The chain sets in island-code order. Reading changes nothing. -/
def State.scanDump (s : State) : State :=
  { s.jtagLoad 8 0 ((List.range 15).flatMap (fun i => s.chainSet i)) with freeCtr := s.freeCtr + 30 + 15 * 5505024 }

def execScandump (s : State) : Res := .next (if s.dumpOpen then s.scanDump else s.jtagRefuse)

/-- A word of on-die SRAM: what lies where is not described. -/
def execSramdump (_ : BitVec 27) (s : State) : Res :=
  .next (if s.dumpOpen then (s.jtagLoad 9 0 (leBytes 8 s.freeVal.toNat)).drawFree else s.jtagRefuse)

end Sys2Proof.Machine
end

