-- ==== Sys2Proof/Machine/Service.lean ====
section
/-! DEFINITION. Live update and replacement (18 R493 to R505). -/

namespace Sys2Proof.Machine

def State.updSvc (s : State) (f : SvcState → SvcState) : State := { s with svc := f s.svc }

/-! ### Commands (R493, R494) -/

/-- A command completes at once with a status. -/
def State.svcDone (s : State) (st : Status) : State := s.setFld F.SVC_CMD.STATUS st.toNat

/-- A command is accepted: BUSY, and the NOTICE record of its start. -/
def State.svcStart (s : State) (op iface unit ce phase : Nat) : State :=
  let s1 := s.updSvc (fun v => { v with proc := op, iface := iface, unit := unit, ce := ce, phase := phase })
  (s1.setFld F.SVC_CMD.BUSY 1).recordFull sevNotice .ctl 1 F.SVC_STATUS.PROC.lsb unit Addr.SVC_STATUS (BitVec.ofNat 64 op) 0

/-- A write of SVC_CMD that is not ignored: its fields are kept, and the mode must be SERVICE. -/
def State.svcCmd (s : State) (iface unit ce : Nat) (t : State → State) : State :=
  if s.svc.proc ≠ 0 then s
  else
    let s1 := ((s.setFld F.SVC_CMD.IFACE iface).setFld F.SVC_CMD.UNIT unit).setFld F.SVC_CMD.CE ce
    if s.inService then t s1 else s1.svcDone ST.mode

/-! ### Firmware handover (R495) -/

/-- The slot that does not run. -/
def State.otherSlot (s : State) : Nat := 1 - s.svc.runningSlot

/-- CTL is held in reset while the boot ROM verifies the slot. -/
def State.handOver (s : State) (verified : Bool) : State :=
  if s.slotBoots s.otherSlot verified then (s.svcStart 1 0 0 0 1).setRun .ctl .inReset else s.svcDone ST.fault

def State.cmdFwHandover (s : State) (verified : Bool) : State := s.svcCmd 0 0 0 (fun t => t.handOver verified)

def execFwHandover (path : Path) (verified : Bool) (s : State) : Res :=
  s.onCtl (.fwHandover path verified) (when_ (s.running .ctl) s (s.cmdFwHandover verified))

/-- A header copy as it is rewritten: SEQ one later, ACTIVE_SLOT new, its CRC. -/
def State.newHeader (s : State) (slot : Nat) : List Byte :=
  let old := s.norBytes (hdrBase s.cfl.hdrCopy) 4092
  let body := old.take 4 ++ leBytes 4 (leNat ((old.drop 4).take 4) + 1) ++
    [BitVec.ofNat 8 ((old.getD 8 0).toNat / 2 * 2 + slot)] ++ old.drop 9
  body ++ leBytes 4 (crc32c body).toNat

/-- The copy of the boot header that was not taken is rewritten, and the new slot is protected. -/
def State.rewriteHeader (s : State) (slot : Nat) : State :=
  let c := 1 - s.cfl.hdrCopy
  let n := norSector (hdrBase c)
  let s1 := (s.updSector n (fun x => { x with erases := min (2 ^ 20 - 1) (x.erases + 1), incomplete := false, st := 0 })).updCfl (fun f =>
    { f with array := f.array.clear (hdrBase c) 4096, activeSlot := slot })
  ((s1.putNor (hdrBase c) (s.newHeader slot)).updCfl (fun f => { f with hdrCopy := c })).wpUpdate (fun n w =>
    w ||| wpMask n (fun x => decide (slotFirst slot ≤ x) && decide (x < slotFirst slot + 3072)))

/-- The new firmware is ready: it rewrites the header, and engines are on the old microcode until they are swapped. -/
def State.handedOver (s : State) : State :=
  let slot := s.otherSlot
  let s1 := ((s.setRun .ctl .running).rewriteHeader slot).bump F.SVC_CNT0.HANDOVERS
  (s1.updSvc (fun v => { v with runningSlot := slot, version := s.norWord (slotFirst slot * 4096 + 4) 4, mcode := 0 })).svcEnd ST.ok

/-- It is not: CTL runs on the old slot again, from the same state. -/
def State.handoverFails (s : State) : State := ((s.setRun .ctl .running).flag F.SVC_ERR.HANDOVER_FAIL).svcEnd ST.fault

/-! ### Microcode swap (R497) -/

def State.cmdMcodeSwap (s : State) (engine : Nat) : State :=
  s.svcCmd 0 engine 0 (fun t =>
    if !t.engineOn engine then t.svcDone ST.fault
    else ((t.svcStart 2 0 engine 0 1).enableEngine engine false).swapCheck)

def execMcodeSwap (path : Path) (engine : BitVec 6) (s : State) : Res :=
  s.onCtl (.mcodeSwap path engine) (when_ (s.running .ctl) s (s.cmdMcodeSwap engine.toNat))

/-- The engine has not drained within DRAIN_LIMIT. -/
def execDrainLimit (s : State) : Res :=
  when_ (s.running .ctl && s.svc.proc == 2) s
    (((s.enableEngine s.svc.unit true).flag F.SVC_ERR.SWAP_TIMEOUT).svcEnd ST.busy)

/-! ### Channel out and in (R498, R499) -/

/-- The twin can take a channel over. -/
def State.twinTakes (s : State) : Bool :=
  (match s.phl.twin with
   | .paired | .fallback => true
   | _ => false) && (s.phl.twinMode == 2 || s.phl.twinMode == 6) && s.phl.twinChOut.isEmpty

/-- D0 bytes of a channel read as zero from now on. -/
def State.blankD0 (s : State) (k : Nat) : State :=
  let d0 (a : Nat) : Bool := channelOf (pageOf a) == k && (match s.regionAt a with
    | some (_, r) => r.floor == .d0
    | none => true)
  { s with ddr := s.ddr.filter (fun c => !d0 c.1) }

/-- The twin is told, and the channel's blocks leave the near cache. The destages of its dirty pages are commands of their
own, and so is the SEQ_CH_CMD with which firmware turns its switch off; CH_OUT completes with that. -/
def State.beginOut (s : State) (k : Nat) : State := ((s.takeChOut k false).dropChBlocks k).blankD0 k

def State.cmdChOut (s : State) (k : Nat) : State :=
  s.svcCmd 0 k 0 (fun t =>
    if t.chanOut k then t.svcDone ST.fault
    else if !t.twinTakes then t.svcDone ST.busy
    else (t.svcStart 3 0 k 0 1).beginOut k)

def execChOut (path : Path) (ch : BitVec 4) (s : State) : Res :=
  s.onCtl (.chOut path ch) (when_ (s.running .ctl) s (s.cmdChOut ch.toNat))

/-- The new RDIMMs of a channel meet Table MEM-1 with those of the others. -/
def State.dimmsFit (s : State) (k : Nat) (l : List Dimm) : Bool :=
  l.length == s.mem.dpc && l.all (fun d => d.channel.toNat == k && d.typeOk && d.sideOk && d.gib.toNat == s.mem.gib && decide (s.mem.speed ≤ d.speed.toNat))

/-- The switch goes on and, once it is good, the channel is trained in full. -/
def State.beginIn (s : State) (k : Nat) : State :=
  let s1 := s.chCommand (14 + k) true
  if s1.chOn (14 + k) then s1.startRetrain k false else s1.chInFails

def State.cmdChIn (s : State) (k : Nat) (fits : Bool) : State :=
  s.svcCmd 0 k 0 (fun t =>
    if !t.svc.chOut.contains k then t.svcDone ST.fault
    else
      let t1 := t.svcStart 4 0 k 0 2
      if fits then t1.beginIn k else (t1.flag F.SVC_ERR.CH_IN_FAIL).svcEnd ST.fault)

def execChIn (path : Path) (ch : BitVec 4) (dimms : List Dimm) (s : State) : Res :=
  s.onCtl (.chIn path ch dimms) (when_ (s.running .ctl) s (s.cmdChIn ch.toNat (s.dimmsFit ch.toNat dimms)))

/-- Every page of the channel has been filled; after a retrain the source has sent those written while it was out. -/
def State.filled (s : State) (k : Nat) : Bool :=
  s.svc.phase == 3 && (s.svc.proc == 5 || s.svc.filling.isEmpty) && !s.unrestoredPages.any (fun p => channelOf p == k)

/-- The twin is told, and the channel serves again. -/
def State.channelBack (s : State) (k : Nat) : State :=
  let s1 := (s.updCh k (fun c => { c with out := false, lost := false })).updSvc (fun v => { v with chOut := v.chOut.filter (· != k), filling := [] })
  let s2 := s1.sendFrame { Frame.mk0 13 with aux := 7 + 256 * k }
  ((if s.svc.proc = 4 then s2.bump F.SVC_CNT0.CHANNEL_SERVICES else s2).svcEnd ST.ok).serveReads

def execChFillComplete (s : State) : Res := when_ (s.running .ctl && s.filled s.svc.unit) s (s.channelBack s.svc.unit)

/-! ### Retraining (R501) -/

/-- The unit leaves service as Table SVC-2 gives. -/
def State.takeOut (s : State) (iface unit : Nat) : State :=
  match iface with
  | 0 => s.beginOut unit
  | 2 => s.nandOff [unit]
  | 3 => s.portEnable (if unit = 0 then .hp0 else .hp1) false
  | 4 => s.pathOff (fabPortOf unit) true
  | 5 => s.failPort (if unit = 0 then .ph0 else .ph1)
  | _ => s

def State.cmdRetrain (s : State) (iface unit : Nat) : State :=
  s.svcCmd iface unit 0 (fun t =>
    if iface = 1 ∨ isUnit iface unit = false then t.svcDone ST.fault
    else if iface = 0 ∧ (t.twinTakes = false ∨ t.chanOut unit = true) then t.svcDone ST.busy
    else ((t.svcStart 5 iface unit 0 1).takeOut iface unit).startRetrain (unitKey iface unit) false)

def execRetrain (path : Path) (iface : BitVec 3) (unit : BitVec 8) (s : State) : Res :=
  s.onCtl (.retrain path iface unit) (when_ (s.running .ctl) s (s.cmdRetrain iface.toNat unit.toNat))

/-! ### NAND package retirement (R502) -/

def State.cmdNandRetire (s : State) (ch ce : Nat) : State :=
  s.svcCmd 0 ch ce (fun t =>
    if t.rawShort (t.dst.rawGib - Config.packageGib) then t.svcDone ST.busy
    else (t.svcStart 6 0 ch ce 1).updSvc (fun v => { v with migrating := if v.migrating.contains (ch, ce) then v.migrating else v.migrating ++ [(ch, ce)] }))

def execNandRetire (path : Path) (ch : BitVec 5) (ce : BitVec 3) (s : State) : Res :=
  s.onCtl (.nandRetire path ch ce) (when_ (s.running .ctl) s (s.cmdNandRetire ch.toNat ce.toNat))

/-- A page moved off a package: where to is a free value, on another package. -/
def movedEntry (w : Word) (ch ce : Nat) (e : MapEntry) : MapEntry :=
  let c := bitsOf w 0 5
  let x := bitsOf w 5 3
  { e with channel := c, ce := if c = ch ∧ x = ce then (x + 1) % 8 else x, lun := bitsOf w 8 2, block := bitsOf w 10 18, page := bitsOf w 28 12 }

/-- Every valid page of the package is on another one. -/
def State.movePages (s : State) (ch ce : Nat) : State :=
  (s.dst.map.filter (fun e => e.2.valid && e.2.channel == ch && e.2.ce == ce)).foldl (fun (t : State) (e : Nat × MapEntry) =>
    (t.putMap e.1 (movedEntry t.freeVal ch ce e.2)).drawFree) s

/-- Its blocks are retired (R285). -/
def State.retirePackage (s : State) (ch ce : Nat) : State :=
  s.updDst (fun d => d.retireAll (fun k => k / 2 ^ 20 == ch * 8 + ce))

/-- The oldest migration ends, whether or not its command still runs after a power loss. -/
def execMigrationComplete (s : State) : Res :=
  match s.svc.migrating with
  | [] => .next s
  | (ch, ce) :: rest =>
    let s1 := (((s.movePages ch ce).retirePackage ch ce).updSvc (fun v => { v with migrating := rest })).bump F.SVC_CNT0.RETIREMENTS
    when_ (s.running .ctl && s.running .dst) s
      (if s.svc.proc = 6 ∧ s.svc.unit = ch ∧ s.svc.ce = ce then s1.svcEnd ST.ok
       else s1.record sevNotice .ctl 1 F.SVC_STATUS.PROC.lsb ch Addr.SVC_STATUS)

/-! ### Fabric ports (R503) -/

def State.cmdPathOut (s : State) (p : FabPort) : State :=
  s.svcCmd 0 p.idx 0 (fun t =>
    if (t.path p.partner).st ≠ 0 then t.svcDone ST.busy
    else (((t.svcStart 7 0 p.idx 0 1).pathOff p true).updSvc (fun v =>
      { v with portOut := if v.portOut.contains p.idx then v.portOut else v.portOut ++ [p.idx] })).svcEnd ST.ok)

def execPathOut (path : Path) (p : FabPort) (s : State) : Res :=
  s.onCtl (.pathOut path p) (when_ (s.running .ctl) s (s.cmdPathOut p))

def State.cmdPathIn (s : State) (p : FabPort) : State :=
  s.svcCmd 0 p.idx 0 (fun t =>
    if !t.svc.portOut.contains p.idx then t.svcDone ST.fault
    else (((t.svcStart 8 0 p.idx 0 3).pathOff p false).updSvc (fun v => { v with portOut := v.portOut.filter (· != p.idx) })).svcEnd ST.ok)

def execPathIn (path : Path) (p : FabPort) (s : State) : Res :=
  s.onCtl (.pathIn path p) (when_ (s.running .ctl) s (s.cmdPathIn p))

/-! ### Abort (R505) -/

/-- The filled pages are discarded, and the channel stays out. -/
def State.abortFill (s : State) (k : Nat) : State :=
  let s1 := (s.updSvc (fun v => { v with filling := [] })).updCh k (fun c => { c with lost := true })
  s1.updDst (fun d => { d with pages := d.pages.map (fun (e : Nat × Page) =>
    if channelOf e.1 = k then (e.1, { e.2 with unrestored := false, demand := false }) else e) })

def State.cmdAbort (s : State) : State :=
  let ended (t : State) : State := (t.flag F.SVC_ERR.ABORTED).svcEnd ST.ok
  match s.svc.proc with
  | 2 => ended (s.enableEngine s.svc.unit true)
  | 4 => ended ((s.abortFill s.svc.unit).updCal (fun c => { c with cmd := if c.cmd = some s.svc.unit then none else c.cmd }))
  | 5 => if s.svc.phase = 3 then ended (s.abortFill s.svc.unit) else s
  | 6 => ended (s.updSvc (fun v => { v with migrating := v.migrating.filter (· != (v.unit, v.ce)) }))
  | _ => s

def execAbort (path : Path) (s : State) : Res :=
  s.onCtl (.abort path) (when_ (s.running .ctl && s.inService) s s.cmdAbort)

end Sys2Proof.Machine
end

