-- ==== Sys2Proof/Machine/RegAccess.lean ====
section
/-! DEFINITION. Staged fields taking effect (00 R9, R20; Table SCO-6), who may reach which register (19 R506 to R513, R540),
reads (R509), and the general rules of a write (00 R7 to R9, R537; 19 R514, R515). -/

namespace Sys2Proof.Machine

/-- The state that a row's meaning leaves. -/
def State.after (s : State) (r : Res) : State :=
  match r with
  | .next t => t
  | .fault _ => s
  | .refused _ => s

/-! ### Staged fields -/

/-- Fields of the credited reservation (R20). -/
def credField (x : Staged) : Bool :=
  ([F.HST_ADM_CTL.HOLD_POOL .hp0, F.HST_ADM_CTL.HOLD_POOL .hp1, F.FAB_CREDIT.POOL_SIZE, F.PHL_CTL.PH0_RESERVE] : List Fld).any
    (fun f => f.addr == x.addr && f.lsb == x.lsb)

/-- A staged value in force. -/
def State.inForce (s : State) (x : Staged) : State :=
  { s with regs := putFld s.regs ⟨x.addr, x.lsb, x.width⟩ x.val, staged := s.staged.filter (· != x) }

/-- R20: a raise of the credited reservation waits until it fits beside the open extents. -/
def State.mayForce (s : State) (x : Staged) : Bool :=
  !credField x || decide ((s.inForce x).creditedKib ≤ s.creditedKib) || decide ((s.inForce x).creditedKib + s.openKib ≤ 16384)

/-- The fence window whose ENABLE a staged value sets. -/
def State.fenceSet (s : State) (x : Staged) : Option (Port × Nat) :=
  if x.lsb = 0 ∧ x.val = 1 ∧ bitsOf (s.raw x.addr) 0 1 = 0 then
    if Addr.HST_LD_FENCE .hp0 0 ≤ x.addr ∧ x.addr < Addr.HST_LD_FENCE .hp0 16 then some (.hp0, (x.addr - Addr.HST_LD_FENCE .hp0 0) / 8)
    else if Addr.HST_LD_FENCE .hp1 0 ≤ x.addr ∧ x.addr < Addr.HST_LD_FENCE .hp1 16 then some (.hp1, (x.addr - Addr.HST_LD_FENCE .hp1 0) / 8)
    else none
  else none

/-- One staged value takes effect. FENCE_SEQ counts from the moment a fence window's ENABLE is set (Table HST-4). -/
def State.forceOne (s : State) (x : Staged) : State :=
  if !s.mayForce x then s
  else match s.fenceSet x with
    | some (p, n) => (s.inForce x).setLd p n { s.ld p n with seq := 0 }
    | none => s.inForce x

/-- The ceiling follows the terms in force (R261). -/
def State.ceilingNow (s : State) : State := ({ s with dst := s.ceilingTerms s.dst.hupCode }.zoneStep 1).drawFree

/-- What follows from new values of a block's fields. -/
def State.followStaged (old : State) (w : Nat) (s : State) : State :=
  match w with
  | 1 => old.settleRst s
  | 6 => s.ceilingNow
  | _ => s

/-- The staged fields of window `w` that satisfy `p` take effect. A COMMIT that could not apply every field stays set until it
has. -/
def State.applyWhere (s : State) (w : Nat) (p : Staged → Bool) : State :=
  let s1 := (s.staged.filter (fun x => windowOf x.addr == w && p x)).foldl (fun (t : State) x => t.forceOne x) s
  let s2 := s.followStaged w s1
  if s2.stagePending w then s2 else s2.setRaw (w * 0x100000 + 0x10) 0

def State.commitStage (s : State) (w : Nat) : State :=
  let s1 := s.applyWhere w (fun _ => true)
  if s1.stagePending w then s1.setRaw (w * 0x100000 + 0x10) 1 else s1

/-- The island that serves a window (Table REG-1). -/
def windowIsland (w : Nat) : Island :=
  match w with
  | 3 | 19 => .ctl
  | 4 => .pst
  | 5 => .phl
  | 6 => .dst
  | 7 => .hst
  | 8 => .fab
  | 9 => .pe
  | 10 => .nc
  | 11 => .tir
  | 12 => .cip
  | 13 => .mem
  | 14 => .cal
  | 15 => .cfl
  | 16 | 17 => .contrail
  | _ => .aon

/-- A block with LOCKED fields is stopped (Table REG-3), or its island is in reset, or released and held. -/
def State.blockStopped (s : State) (a : Nat) : Bool :=
  s.run (windowIsland (windowOf a)) == .inReset || s.isHeld (windowIsland (windowOf a)) ||
  (match windowOf a with
   | 7 => let p := if a < 0x780000 then Port.hp0 else .hp1
          !s.on (F.HST_PORT_CTL.ENABLE p) && (s.port p).link == 0
   | 8 => !s.on F.FAB_CTL.ENABLE && !s.fab.paths.any (·.link)
   | 5 => !s.on F.PHL_CTL.ENABLE && !s.phl.ph0.trained && !s.phl.ph1.trained
   | 6 => (match s.mod.mode with
     | .cold => true
     | _ => false)
   | _ => false)

/-- A port holds no write, and none of its writes waits for a ceiling charge (R103). -/
def State.portQuiet (s : State) (p : Port) : Bool :=
  !s.pst.units.any (fun u => (u.hold != .none || !u.charged) && (match u.door with
    | .cxl q _ => q == p
    | _ => false))

/-- A LEASE request that this device has sent and that has not been acknowledged (R246). -/
def PhlState.leaseAsked (x : PhlState) : Bool := x.unconfirmed.any (fun f => f.ty == 10 && f.aux % 2 == 0)

/-- The window's block is at its quiescent point (Table SCO-6). FAB, PE and MOD reach theirs between any two commands. -/
def State.quiet (s : State) (w : Nat) : Bool :=
  match w with
  | 1 => (match s.seq.st with
    | .off | .up | .latched => true
    | _ => false)
  | 2 => s.lps.st != 1 && s.lps.st != 4
  | 4 => !s.pst.extents.any (fun e => !e.2.opened && e.2.xopen.isSome && !e.2.granted)
  | 5 => s.phl.twin != .unconfirmed && !(s.phl.twin == .linking && s.phl.heldAtSave) && !s.phl.leaseAsked
  | 6 => !s.dst.pages.any (fun e => e.2.destaging)
  | 10 => !s.nc.victim.any (fun v => v.dirty != 0)
  | 11 => !s.tir.loansIn.any (fun e => e.2.st == .reserving)
  | 12 => s.cip.waiting.isEmpty
  | 13 => s.mem.repairs.isEmpty
  | 14 => !s.cal.units.any (fun e => e.2.window || e.2.st == 1)
  | 15 => s.cfl.bank0.running.isNone && s.cfl.bank0.suspended.isNone && s.cfl.bank1.running.isNone && s.cfl.bank1.suspended.isNone
  | 16 => !s.contrail.flushing
  | 19 => s.svc.proc == 0
  | _ => true

/-- In HST each port has a quiescent point of its own; a raise of PH0_RESERVE, a LOCKED field, waits for PHL to be stopped (R20). -/
def State.quietField (s : State) (x : Staged) : Bool :=
  (windowOf x.addr != 7 || s.portQuiet (if x.addr < 0x780000 then .hp0 else .hp1)) &&
  (x.addr != Addr.PHL_CTL || x.lsb != F.PHL_CTL.PH0_RESERVE.lsb || s.blockStopped x.addr)

def execStagedApply (b : Block) (s : State) : Res :=
  when_ (s.running (windowIsland b.idx) && s.quiet b.idx) s (s.applyWhere b.idx s.quietField)

/-! ### Paths and windows -/

/-- The path can bring an access (Table REG-2). -/
def State.pathThere (s : State) (p : Path) : Bool :=
  match p with
  | .ctl => s.running .ctl
  | .mctp => s.running .aon
  | .bar0Hp0 => s.running .aon && s.portUp .hp0
  | .bar0Hp1 => s.running .aon && s.portUp .hp1
  | .jtag => s.running .aon && s.debugOpen

/-- GEN_PATH_CTL shuts the path. -/
def State.pathShut (s : State) (p : Path) : Bool :=
  match p with
  | .bar0Hp0 => !s.on F.GEN_PATH_CTL.BAR0_HP0
  | .bar0Hp1 => !s.on F.GEN_PATH_CTL.BAR0_HP1
  | _ => false

/-- The island is in Haze: an access wakes it. -/
def State.hazed (s : State) (i : Island) : Bool := s.run i == .gated && !s.isHeld i && !s.mod.frozen

def State.wakeFor (s : State) (w : Nat) : State := if s.hazed (windowIsland w) then s.setRun (windowIsland w) .running else s

/-- The window is served. An island held after a failed bank serves its window, so that firmware can write it (R449). -/
def State.servesWindow (s : State) (w : Nat) : Bool :=
  let i := windowIsland w
  s.running i || (s.run i == .gated && !s.mod.frozen)

/-- What becomes of an access to address `a`. -/
inductive Reach where
  | denied | firmware | unmapped | unserved | reg
  deriving DecidableEq, Repr

/-- A register is described at the address. -/
def described (a : Nat) : Bool := isBlkId a || isStage a || (findReg a).isSome

def State.regReach (s : State) (p : Path) (a : Nat) : Reach :=
  if s.pathShut p then .denied
  else if 0x1400000 ≤ a then .unmapped
  else if a.testBit 18 then (if p = .ctl then .firmware else .denied)
  else if !s.servesWindow (windowOf a) then .unserved
  else if described a then .reg else .unmapped

/-- GEN_ERR of an access that is not carried out. -/
def State.unserve (s : State) (p : Path) (a : Nat) : State := s.genErr 5 p.code a 0 (some F.GEN_CNT0.UNSERVED)
def State.unmap (s : State) (p : Path) (a : Nat) : State := s.genErr 2 p.code a 0 (some F.GEN_CNT0.UNMAPPED)
def State.misalign (s : State) (p : Path) (a : Nat) : State := s.genErr 6 p.code a 0 none

/-! ### Reads (R509) -/

/-- RC fields that lie wholly within `n` bytes from byte `lo` are cleared. -/
def State.clearRead (s : State) (a lo n : Nat) : State :=
  match findReg a with
  | none => s
  | some d =>
    let l := d.fields.filter (fun f => f.acc == .rc && decide (8 * lo ≤ f.lsb) && decide (f.lsb + f.width ≤ 8 * (lo + n)))
    { s with regs := l.foldl (fun (t : Tab Word) (f : FieldDesc) => putFld t ⟨a, f.lsb, f.width⟩ 0) s.regs }

/-- A read of `n` bytes within one register: the state after, the value, the status MCTP would report. -/
def State.readAt (s : State) (p : Path) (at_ n : Nat) : State × Word × Status :=
  let s1 := s.wakeFor (windowOf at_)
  let lo := at_ % 8
  let a := at_ - lo
  match s1.regReach p a with
  | .denied => (s1.deny p a 0, 0, ST.rights)
  | .firmware => (s1.drawFree, s1.freeVal, ST.ok)
  | .unmapped => (s1, 0, ST.ok)
  | .unserved => (s1.unserve p a, 0, ST.mode)
  | .reg => (s1.clearRead a lo n, BitVec.ofNat 64 (bitsOf (s1.reg a) (8 * lo) (8 * n)), ST.ok)

/-- A size that an access may have at an address (R509, R540). -/
def alignedAccess (a size : Nat) : Bool :=
  if size ≤ 8 then (size == 1 || size == 2 || size == 4 || size == 8) && a % size == 0
  else size % 8 == 0 && a % 8 == 0

/-- A read on a path, register by register in ascending order. -/
def State.readPath (s : State) (p : Path) (a size : Nat) : State :=
  if !s.pathThere p then s
  else if !alignedAccess a size then ((if s.pathShut p then s.deny p a 0 else s.misalign p a)).emit (.regValue p 0)
  else if size ≤ 8 then
    let r := s.readAt p a size
    r.1.emit (.regValue p r.2.1)
  else
    (List.range (size / 8)).foldl (fun (t : State) i =>
      let r := t.readAt p (a + 8 * i) 8
      r.1.emit (.regValue p r.2.1)) s

/-! ### The general rules of a write -/

/-- A field's own range. -/
def inRange (f : FieldDesc) (n : Nat) : Bool :=
  match f.chk with
  | .range lo hi => decide (lo ≤ n) && decide (n ≤ hi)
  | .below lo hi _ _ => decide (lo ≤ n) && decide (n ≤ hi)
  | .above lo hi _ _ => decide (lo ≤ n) && decide (n ≤ hi)
  | .unlocked lo hi => decide (lo ≤ n) && decide (n ≤ hi)
  | _ => true

/-- R537: the value that the field at `lsb` will read back after the write. -/
def State.readBack (s : State) (a : Nat) (d : RegDesc) (v : Word) (lsb width : Nat) : Nat :=
  match d.fields.find? (fun f => f.lsb == lsb) with
  | some f => if inRange f (bitsOf v lsb width) then bitsOf v lsb width else bitsOf (overStaged s.staged a (s.raw a)) lsb width
  | none => bitsOf (overStaged s.staged a (s.raw a)) lsb width

/-- The written value passes the field's rule. -/
def State.fieldOk (s : State) (a : Nat) (d : RegDesc) (v : Word) (f : FieldDesc) : Bool :=
  let n := bitsOf v f.lsb f.width
  inRange f n &&
  (match f.chk with
   | .below _ _ lsb w => decide (n < s.readBack a d v lsb w)
   | .above _ _ lsb w => decide (s.readBack a d v lsb w < n)
   | .poolSize => decide (256 ≤ n) && decide (n ≤ 2048) && decide (s.creditReserved ≤ n)
   | .notBelowCurrent => decide (bitsOf (s.raw a) f.lsb f.width ≤ n)
   | .seqEnable => decide (Addr.SEQ_CH_CFG 2 ≤ a)
   | .seqStep => decide (Addr.SEQ_CH_CFG 2 ≤ a) && decide (2 ≤ n)
   | .oddOnly => a / 8 % 2 == 1
   | .unlocked _ _ => s.debugOpen
   | _ => true)

/-- Bits cleared by a write of ones. -/
def w1c (cur n width : Nat) : Nat := cur &&& (n ^^^ (2 ^ width - 1))

/-- A LOCKED field takes its value at once; a raise of PH0_RESERVE that does not fit yet stays staged (R20). -/
def State.setLocked (s : State) (x : Staged) : State :=
  let s1 := { s with staged := s.staged.filter (fun y => !(y.addr == x.addr && y.lsb == x.lsb)) }
  if s1.mayForce x then s1.setFld ⟨x.addr, x.lsb, x.width⟩ x.val else { s1 with staged := putStaged s1.staged x }

/-- One field of a write, with the lowest bits of the LOCKED fields refused so far. Ranges and pairs are judged against the
state before the write; a W1S or WO bit has its effect where its register is described. -/
def State.writeField (old : State) (a : Nat) (d : RegDesc) (v : Word) (acc : State × List Nat) (f : FieldDesc) : State × List Nat :=
  let n := bitsOf v f.lsb f.width
  let g : Fld := ⟨a, f.lsb, f.width⟩
  match f.acc with
  | .w1c => (acc.1.setFld g (w1c (old.fld g) n f.width), acc.2)
  | .rw =>
    if !old.fieldOk a d v f then acc
    else match f.upd with
      | .live => (acc.1.setFld g n, acc.2)
      | .staged => ({ acc.1 with staged := putStaged acc.1.staged { addr := a, lsb := f.lsb, width := f.width, val := n } }, acc.2)
      | .locked =>
        if old.blockStopped a then (acc.1.setLocked { addr := a, lsb := f.lsb, width := f.width, val := n }, acc.2)
        else if n = old.fld g then acc
        else (acc.1, acc.2 ++ [f.lsb])
  | _ => acc

/-- A refused change of LOCKED fields (R9, R514). -/
def State.lockRefusal (s : State) (p : Path) (a : Nat) (l : List Nat) : State :=
  match l with
  | [] => s
  | x :: r =>
    let lsb := minOf x r
    (s.genErr 1 p.code a lsb (some F.GEN_CNT0.LOCKED_WRITES)).record sevNotice (windowIsland (windowOf a)) 4 lsb 0 a

/-- A write to the register's fields. -/
def State.writeFields (s : State) (p : Path) (a : Nat) (v : Word) : State :=
  match findReg a with
  | none => s
  | some d =>
    let r := d.fields.foldl (s.writeField a d v) (s, [])
    r.1.lockRefusal p a r.2

end Sys2Proof.Machine
end

