-- ==== Sys2Proof/Machine/RegWrite.lean ====
section
/-! DEFINITION. Register writes: the registers that are commands, what follows from a write of the others, MCTP messages and
management requests (19 R506 to R518, 00 R10). -/

namespace Sys2Proof.Machine

/-- Bit `n` of a written value. -/
def wbit (v : Word) (n : Nat) : Bool := bitsOf v n 1 == 1

/-- A choice that the registers do not carry: a free value. -/
def State.freeBit (s : State) : Bool := wbit s.freeVal 0

/-! ### Registers whose write is a command -/

def State.writeSeqCmd (s : State) (p : Path) (v : Word) : State :=
  let s1 := if wbit v 0 then s.after (execOn p s) else s
  if wbit v 1 then s1.after (execOff p s1) else s1

def State.writeSeqChCmd (s : State) (p : Path) (v : Word) : State :=
  let ch := BitVec.ofNat 5 (bitsOf v 0 5)
  match bitsOf v 5 2 with
  | 1 => s.after (execChannelOn p ch s)
  | 2 => s.after (execChannelOff p ch s)
  | _ => if s.seq.chCmd.isSome then s else s.setFld F.SEQ_CH_CMD.CH ch.toNat

def State.writeLpsCmd (s : State) (p : Path) (v : Word) : State :=
  let s1 := if wbit v 0 then s.after (execEnter p s) else s
  let s2 := if wbit v 1 then s1.after (execWake p s1) else s1
  if wbit v 2 then s2.after (execNight p s2) else s2

def State.writeLpsLost (s : State) (p : Path) (v : Word) : State :=
  let s1 := s.setFld F.LPS_LOST.BANKS (w1c (s.fld F.LPS_LOST.BANKS) (bitsOf v 0 8) 8)
  if bitsOf v 24 15 = 0 then s1 else s1.after (execLpsResume p (BitVec.ofNat 15 (bitsOf v 24 15)) s1)

/-- What the twin does during RESUME is not in the register. -/
def State.writeModCmd (s : State) (v : Word) : State :=
  let t := bitsOf v 3 3
  let s1 := s.setFld F.MOD_CMD.TARGET t
  match bitsOf v 0 3 with
  | 1 => s1.cmdDrain t
  | 2 => s1.cmdHalt
  | 3 => (s1.cmdResume s1.freeBit).drawFree
  | 4 => s1.cmdService
  | 5 => s1.cmdServe
  | _ => s1

def State.writeFabKeyCmd (s : State) (v : Word) : State :=
  let i := bitsOf v 0 18
  match bitsOf v 18 2 with
  | 1 => (s.setFld F.FAB_KEY_CMD.INDEX i).keyCreate
  | 2 => s.keyRevoke i
  | 3 => s.keyRead i
  | _ => s.setFld F.FAB_KEY_CMD.INDEX i

def State.writeCalCmd (s : State) (v : Word) : State :=
  let iface := bitsOf v 0 3
  let unit := bitsOf v 8 5
  if s.cal.cmd.isSome then s
  else
    match bitsOf v 13 2 with
    | 1 => if iface < 6 then s.calCmd iface unit true else s
    | 2 => if iface < 6 then s.calCmd iface unit false else s
    | _ => (if iface < 6 then s.setFld F.CAL_CMD.IFACE iface else s).setFld F.CAL_CMD.UNIT unit

def State.writeCflCmd (s : State) (p : Path) (v : Word) : State :=
  let fa := BitVec.ofNat 26 (bitsOf v 0 26)
  match bitsOf v 28 4 with
  | 1 => s.after (execCflRead p fa s)
  | 2 => s.after (execCflProgram p fa s)
  | 3 => s.after (execCflErase p fa s)
  | 4 => s.after (execEraseSuspend p fa s)
  | 5 => s.after (execEraseResume p fa s)
  | 6 => s.after (execPvMargin p fa s)
  | 7 => s.after (execEvMargin p fa s)
  | 8 => s.after (execReadFrow p fa s)
  | _ => if s.cfl.busy then s else s.setFld F.CFL_CMD.ADDR fa.toNat

/-- The operations whose further data travel in an AUTH message cannot be given by registers alone. -/
def State.writeAuthCmd (s : State) (p : Path) (v : Word) : State :=
  match bitsOf v 0 16 with
  | 1 => s.contrailClear p
  | 2 => s.settleRst (s.seqUnlatch p)
  | 3 => s.authDone (if p = .mctp then ST.fault else ST.rights)
  | 4 => s.quarantineClear p
  | 6 => s.debugUnlock p
  | 7 => s.authDone (if p = .mctp then ST.fault else ST.rights)
  | _ => s.authDone ST.fault

/-- What the boot ROM finds in the other slot, and which RDIMMs are in the sockets, are not in the register. -/
def State.writeSvcCmd (s : State) (v : Word) : State :=
  let iface := bitsOf v 4 3
  let unit := bitsOf v 8 8
  let ce := bitsOf v 16 3
  match bitsOf v 0 4 with
  | 1 => (s.cmdFwHandover s.freeBit).drawFree
  | 2 => s.cmdMcodeSwap (unit % 64)
  | 3 => s.cmdChOut (unit % 16)
  | 4 => (s.cmdChIn (unit % 16) s.freeBit).drawFree
  | 5 => s.cmdRetrain iface unit
  | 6 => s.cmdNandRetire (unit % 32) ce
  | 7 => s.cmdPathOut (fabPortOf (unit % 4))
  | 8 => s.cmdPathIn (fabPortOf (unit % 4))
  | 9 => if s.inService then s.cmdAbort else s
  | _ => if s.svc.proc ≠ 0 then s else ((s.setFld F.SVC_CMD.IFACE iface).setFld F.SVC_CMD.UNIT unit).setFld F.SVC_CMD.CE ce

/-- A management request by its code: an unlisted one is refused here; a listed one is the row that carries its parameter
block. -/
def State.writeMbox (s : State) (v : Word) : State :=
  let code := bitsOf v 0 8
  if !s.running .ctl then s.setFld F.GEN_MBOX_CMD.STATUS ST.mode.toNat
  else if code = 0 ∨ 6 < code then s.setFld F.GEN_MBOX_CMD.STATUS ST.fault.toNat
  else s

/-- A write of a register that is a command; none for any other register. -/
def State.writeCommand (s : State) (p : Path) (a : Nat) (v : Word) : Option State :=
  if a = Addr.SEQ_CMD then some (s.writeSeqCmd p v)
  else if a = Addr.SEQ_CH_CMD then some (s.writeSeqChCmd p v)
  else if a = Addr.LPS_CMD then some (s.writeLpsCmd p v)
  else if a = Addr.LPS_PAD then some (s.after (execPadRelease p (BitVec.ofNat 4 (bitsOf v 4 4)) s))
  else if a = Addr.LPS_LOST then some (s.writeLpsLost p v)
  else if a = Addr.MOD_CMD then some (s.writeModCmd v)
  else if a = Addr.FAB_KEY_CMD then some (s.writeFabKeyCmd v)
  else if a = Addr.CAL_CMD then some (s.writeCalCmd v)
  else if a = Addr.CFL_CMD then some (s.writeCflCmd p v)
  else if a = Addr.CFL_WP_CLR then some (s.after (execWpClr p (BitVec.ofNat 14 (bitsOf v 0 14)) (BitVec.ofNat 16 (bitsOf v 16 16)) s))
  else if Addr.CFL_WP 0 ≤ a ∧ a < Addr.CFL_WP 256 then some (s.after (execWpSet p (BitVec.ofNat 8 ((a - Addr.CFL_WP 0) / 8)) v s))
  else if a = Addr.DBG_AUTH_CMD then some (s.writeAuthCmd p v)
  else if Addr.DBG_AUTH_TAG 0 ≤ a ∧ a < Addr.DBG_AUTH_TAG 4 then some (s.setRaw a v)
  else if a = Addr.SVC_CMD then some (s.writeSvcCmd v)
  else if a = Addr.GEN_MBOX_CMD then some (s.writeMbox v)
  else if Addr.PE_PQ_DB 0 ≤ a ∧ a < Addr.PE_PQ_DB 16 then some (s.pqDoorbell ((a - Addr.PE_PQ_DB 0) / 8) v.toNat)
  else if a = Addr.REC_RD_SEL then some (s.readRecord (bitsOf v 0 32) (wbit v 32))
  else if a = Addr.CIP_CTX_MODE then some (s.setAs8200 (wbit v 0))
  else none

/-! ### What follows from a write -/

/-- R92: a fence window that would lie over a region. -/
def State.fenceOver (s : State) (a : Nat) (v : Word) : Option Port :=
  let lies := wbit v 0 && s.regions.any (fun e =>
    let w := 4096 * bitsOf v 12 32
    decide (e.2.base < w + 4096) && decide (w < e.2.base + e.2.len))
  if lies && decide (Addr.HST_LD_FENCE .hp0 0 ≤ a) && decide (a < Addr.HST_LD_FENCE .hp0 16) then some .hp0
  else if lies && decide (Addr.HST_LD_FENCE .hp1 0 ≤ a) && decide (a < Addr.HST_LD_FENCE .hp1 16) then some .hp1
  else none

def State.followPortCtl (old : State) (p : Port) (v : Word) (s : State) : State :=
  if old.on (F.HST_PORT_CTL.ENABLE p) == wbit v 0 then s else s.portEnable p (wbit v 0)

/-- FAB_PATH_CTL: OFF and RETURN of each port. -/
def State.followPathCtl (old : State) (v : Word) (s : State) : State :=
  ([FabPort.fa0, .fb0, .fa1, .fb1] : List FabPort).foldl (fun (t : State) q =>
    let t1 := if bitsOf (old.raw Addr.FAB_PATH_CTL) q.idx 1 == bitsOf v q.idx 1 then t else t.pathOff q (wbit v q.idx)
    if wbit v (4 + q.idx) then t1.returnPath q else t1) s

/-- PHL_CTL.ENABLE = 0 takes the ports down once no frame is unacknowledged. -/
def State.phlDown (s : State) : State :=
  if s.on F.PHL_CTL.ENABLE || !s.phl.unconfirmed.isEmpty || !(s.phl.ph0.trained || s.phl.ph1.trained) then s
  else
    let off : PhState := PhState.reset
    let s1 := s.updPhl (fun x => { x with ph0 := off, ph1 := off })
    match s.phl.twin with
    | .paired => s1.enterFallback
    | _ => s1

def State.followPhlCtl (p : Path) (v : Word) (s : State) : State :=
  (if wbit v 2 then s.forceAlone p else s).phlDown

def State.followNcCtl (old : State) (v : Word) (s : State) : State :=
  let s1 := if old.on F.NC_CTL.ENABLE == wbit v 0 then s else s.ncEnable (wbit v 0)
  if wbit v 1 then s1.invAll else s1

/-- LOCK, FREEZE, THAW, RESET, in bit order; a write of PIN_EN while debug is locked is reported. -/
def State.followDbgCtl (old : State) (v : Word) (s : State) : State :=
  let s1 := if !old.debugOpen && old.on F.DBG_CTL.PIN_EN != wbit v 2 then s.lockedOut F.DBG_CTL.PIN_EN else s
  let s2 := if wbit v 1 then s1.lock else s1
  let s3 := if wbit v 3 then s2.cmdFreeze else s2
  let s4 := if wbit v 4 then s3.cmdThaw else s3
  if wbit v 5 then s4.cmdReset else s4

/-- The effects of a write on what the fields control. -/
def State.followWrite (old : State) (p : Path) (a : Nat) (v : Word) (s : State) : State :=
  if a = Addr.HST_PORT_CTL .hp0 then old.followPortCtl .hp0 v s
  else if a = Addr.HST_PORT_CTL .hp1 then old.followPortCtl .hp1 v s
  else if a = Addr.FAB_CTL then (if old.on F.FAB_CTL.ENABLE && !wbit v 0 then s.fabDisable else s)
  else if a = Addr.FAB_PATH_CTL then old.followPathCtl v s
  else if a = Addr.FAB_CREDIT then (match findReg a with
    | some d => if (d.fields.filter (fun f => f.lsb == 0)).all (old.fieldOk a d v) then s else s.flag F.FAB_ERR.POOL_RANGE
    | none => s)
  else if a = Addr.PHL_CTL then s.followPhlCtl p v
  else if a = Addr.DST_HUP_CTL then (if wbit v 18 then s.after (execTestNow s) else s)
  else if a = Addr.TIR_PLACE_CTL then (if old.on F.TIR_PLACE_CTL.LEND_EN == wbit v 1 then s else s.lendEn (wbit v 1))
  else if a = Addr.NC_CTL then old.followNcCtl v s
  else if Addr.SEQ_RST 0 ≤ a ∧ a < Addr.SEQ_RST 4 then
    (if wbit v 19 then s.after (execPulse p (BitVec.ofNat 2 ((a - Addr.SEQ_RST 0) / 8)) s) else s)
  else if a = Addr.PMU_CTL then (if wbit v 1 then s.pmuClear else s)
  else if a = Addr.DBG_CTL then old.followDbgCtl v s
  else s

/-- A write that reaches its register. -/
def State.writeReg (s : State) (p : Path) (a : Nat) (v : Word) : State :=
  if isBlkId a then s
  else if isStage a then (if wbit v 0 then s.commitStage (windowOf a) else s)
  else if a = Addr.GEN_PATH_CTL ∧ p ≠ .ctl ∧ p ≠ .mctp then s.deny p a 0
  else match s.writeCommand p a v with
    | some t => t
    | none => match s.fenceOver a v with
      | some q => s.flag (F.HST_ERR.FENCE_OVERLAP q)
      | none => s.followWrite p a v (s.writeFields p a v)

/-- One 64-bit write: the state after, and the status MCTP would report. -/
def State.writeAt (s : State) (p : Path) (a : Nat) (v : Word) : State × Status :=
  let s1 := s.wakeFor (windowOf a)
  match s1.regReach p a with
  | .denied => (s1.deny p a 0, ST.rights)
  | .firmware => (s1, ST.ok)
  | .unmapped => (s1.unmap p a, ST.ok)
  | .unserved => (s1.unserve p a, ST.mode)
  | .reg => (s1.writeReg p a v, ST.ok)

/-- A write on a path, register by register in ascending order. -/
def State.writePath (s : State) (p : Path) (a size : Nat) (vs : List Word) : State :=
  if !s.pathThere p then s
  else if !alignedAccess a size then (if s.pathShut p then s.deny p a 0 else s.misalign p a)
  else if size < 8 then
    (match s.regReach p (a - a % 8) with
     | .reg => s.genErr 3 p.code a 0 none
     | _ => (s.writeAt p (a - a % 8) 0).1)
  else (List.range (size / 8)).foldl (fun (t : State) i => (t.writeAt p (a + 8 * i) (vs.getD i 0)).1) s

/-! ### Requests that wait -/

/-- CTL serves one of `n` registers from address `a`. -/
def ctlServes (a n : Nat) : Bool := (List.range n).any (fun i => windowIsland (windowOf (a + 8 * i)) == .ctl && decide (a + 8 * i < 0x1400000))

/-- An access waits for a handover of the firmware to end (R496). -/
def State.onWindow (s : State) (a n : Nat) (c : CtlReq) (r : Res) : Res := if ctlServes a n then s.onCtl c r else r

def execRegisterWrite (path : Path) (offset : BitVec 25) (size : BitVec 8) (values : List (BitVec 64)) (s : State) : Res :=
  s.onWindow offset.toNat (size.toNat / 8) (.write path offset size values)
    (.next (s.writePath path offset.toNat size.toNat values))

def execRegisterReadClear (path : Path) (offset : BitVec 25) (size : BitVec 8) (s : State) : Res :=
  s.onWindow (offset.toNat - offset.toNat % 8) ((size.toNat + 7) / 8) (.read path offset size)
    (.next (s.readPath path offset.toNat size.toNat))

/-- Writing COMMIT of a stage register (R10). -/
def execStageCommit (path : Path) (b : Block) (s : State) : Res :=
  execRegisterWrite path (BitVec.ofNat 25 (b.idx * 0x100000 + 0x10)) 8 [1] s

def execPrivilegedDoorbell (path : Path) (n : BitVec 4) (value : BitVec 64) (s : State) : Res :=
  execRegisterWrite path (BitVec.ofNat 25 (Addr.PE_PQ_DB n.toNat)) 8 [value] s

/-- DBGREG, as a privileged path; while debug is locked it acts as BYPASS. -/
def execDbgreg (write : Bool) (offset : BitVec 25) (value : BitVec 64) (s : State) : Res :=
  if !s.debugOpen then .next s.jtagRefuse
  else if write then execRegisterWrite .jtag offset 8 [value] s
  else execRegisterReadClear .jtag offset 8 s

/-! ### MCTP (R516) -/

/-- Reads until one is refused. -/
def State.mctpReads (s : State) : Nat → Nat → List Word → State
  | _, 0, l => s.emit (.mctp ST.ok l)
  | a, n + 1, l =>
    let r := s.readAt .mctp a 8
    if r.2.2 = ST.ok then State.mctpReads r.1 (a + 8) n (l ++ [r.2.1]) else r.1.emit (.mctp r.2.2 l)

/-- Writes until one is refused. -/
def State.mctpWrites (s : State) : Nat → List Word → State
  | _, [] => s.emit (.mctp ST.ok [])
  | a, v :: r =>
    let w := s.writeAt .mctp a v
    if w.2 = ST.ok then State.mctpWrites w.1 (a + 8) r else w.1.emit (.mctp w.2 [])

/-- A message to a window that AON does not serve wakes the device, and waits (R451). -/
def State.mctpWakes (s : State) (a n : Nat) : Bool :=
  decide (1 ≤ s.lps.st) && !s.mod.frozen &&
  (List.range n).any (fun i => decide (a + 8 * i < 0x1400000) && !aonWindow (windowOf (a + 8 * i)))

/-- A vote is only refused by such a message, and the message goes on. -/
def State.mctpGo (s : State) (a n : Nat) (item : MctpAccess) (go : State → State) : State :=
  if s.mctpWakes a n then
    let s1 := s.wakeBy 1
    if s1.lps.st = 0 then go s1 else s1.updLps (fun l => { l with waiting := l.waiting ++ [item] })
  else go s

/-- A count outside 1 to 8, or a misaligned offset, makes no access. -/
def State.mctpBad (s : State) (a : Nat) : State := (if a % 8 = 0 then s else s.misalign .mctp a).emit (.mctp ST.fault [])

def State.mctpRead (s : State) (a n : Nat) : State :=
  if a % 8 ≠ 0 ∨ n = 0 ∨ 8 < n then s.mctpBad a
  else s.mctpGo a n (.read a n) (fun t => t.mctpReads a n [])

def State.mctpWrite (s : State) (a : Nat) (vs : List Word) : State :=
  if a % 8 ≠ 0 ∨ vs.length = 0 ∨ 8 < vs.length then s.mctpBad a
  else s.mctpGo a vs.length (.write a vs) (fun t => t.mctpWrites a vs)

def execMctpRead (offset : BitVec 25) (count : BitVec 8) (s : State) : Res :=
  s.onWindow offset.toNat count.toNat (.mctpRead offset count) (when_ (s.running .aon) s (s.mctpRead offset.toNat count.toNat))

def execMctpWrite (offset : BitVec 25) (values : List (BitVec 64)) (s : State) : Res :=
  s.onWindow offset.toNat values.length (.mctpWrite offset values) (when_ (s.running .aon) s (s.mctpWrite offset.toNat values))

/-- An endpoint ID is assigned, or discovery is answered with the present one. -/
def execMctpControlMessage (eid : Option (BitVec 8)) (s : State) : Res :=
  let e := match eid with
    | some x => x.toNat
    | none => s.eid
  when_ (s.running .aon) s ({ s with eid := e }.emit (.mctpControl e))

/-! ### Management requests (R517) -/

/-- An LD is bound to a tenant and serves, or serves no longer: what writes of HST_LDn_MAP do (R82). -/
def State.bindLd (s : State) (p : Port) (ld : Nat) (tenant : Option Nat) : State :=
  match tenant with
  | some t =>
    let f := F.HST_LD_MAP.TENANT p ld
    { s with staged := putStaged s.staged { addr := f.addr, lsb := f.lsb, width := f.width, val := t } }.setFld (F.HST_LD_MAP.ENABLE p ld) 1
  | none => s.setFld (F.HST_LD_MAP.ENABLE p ld) 0

def execFmApi (p : Port) (ld : BitVec 4) (tenant : Option (BitVec 12)) (s : State) : Res :=
  when_ (s.running .aon) s
    (if s.running .hst then (s.bindLd p ld.toNat (tenant.map (·.toNat))).emit (.fmApi ST.ok) else s.emit (.fmApi ST.mode))

def execFmBind (path : Path) (p : Port) (ld : BitVec 4) (tenant : BitVec 12) (s : State) : Res :=
  s.onCtl (.fmBind path p ld tenant) (s.request_ path
    (if s.running .hst then (s.bindLd p ld.toNat (some tenant.toNat)).emit (.result path ST.ok []) else s.emit (.result path ST.mode [])))

/-- SPD bytes or a page of PMIC telemetry; MEM drives the buses. -/
def execSidebandRead (path : Path) (bus : BitVec 2) (target : BitVec 4) (page : BitVec 16) (bytes : List Byte) (s : State) : Res :=
  s.onCtl (.sidebandRead path bus target page bytes) (s.request_ path (s.emit (.result path ST.ok (bytes.take 256))))

/-- The list is replaced, and goes to the twin; the request completes when both hold it (R53, R541). -/
def State.setMembers (s : State) (path : Path) (l : List (BitVec 32)) : State :=
  if l.length = 0 ∨ 262144 < l.length then s.emit (.result path ST.length [])
  else if l.any (fun x => decide (2 ^ 18 ≤ x.toNat)) then s.emit (.result path ST.fault [])
  else
    let m := l.map (·.toNat)
    ((s.updFab (fun f => { f with members := m })).sendMembers m).answerHeld path s.phl.txNext []

def execPoolMembers (path : Path) (members : List (BitVec 32)) (s : State) : Res :=
  s.onCtl (.poolMembers path members) (s.request_ path (s.setMembers path members))

/-! ### The end of a handover, and of a wake -/

/-- A request that waited is taken up. -/
def State.takeUp (s : State) (c : CtlReq) : State :=
  s.after (match c with
    | .drain p t => execDrain p t s
    | .halt p => execHalt p s
    | .resume p t => execResume p t s
    | .service p => execService p s
    | .serve p => execServe p s
    | .fwHandover p v => execFwHandover p v s
    | .mcodeSwap p e => execMcodeSwap p e s
    | .chOut p c => execChOut p c s
    | .chIn p c d => execChIn p c d s
    | .retrain p i u => execRetrain p i u s
    | .nandRetire p c e => execNandRetire p c e s
    | .pathOut p q => execPathOut p q s
    | .pathIn p q => execPathIn p q s
    | .abort p => execAbort p s
    | .sessionCreate p a => execSessionCreate p a s
    | .sessionDestroy p n => execSessionDestroy p n s
    | .planInstall p l => execPlanInstall p l s
    | .sidebandRead p b t g l => execSidebandRead p b t g l s
    | .fmBind p q l t => execFmBind p q l t s
    | .poolMembers p l => execPoolMembers p l s
    | .read p a n => execRegisterReadClear p a n s
    | .write p a n v => execRegisterWrite p a n v s
    | .mctpRead a n => execMctpRead a n s
    | .mctpWrite a v => execMctpWrite a v s)

/-- Waiting requests go on in order. -/
def State.takeWaiting (s : State) : State :=
  s.svc.waiting.foldl (fun (t : State) c => t.takeUp c) (s.updSvc (fun v => { v with waiting := [] }))

def execFirmwareReady (s : State) : Res := when_ (s.svc.proc == 1) s s.handedOver.takeWaiting.drainCtrl

def execHandoverLimit (s : State) : Res := when_ (s.svc.proc == 1) s s.handoverFails.takeWaiting.drainCtrl

/-- A message that woke the device completes. -/
def State.mctpResume (s : State) (m : MctpAccess) : State :=
  match m with
  | .read a n => s.mctpReads a n []
  | .write a l => s.mctpWrites a l

def execWakeComplete (bad : BitVec 8) (s : State) : Res :=
  let s1 := (s.releaseIslands bad).wakeEnd
  when_ s.mayWakeEnd s
    (s1.lps.waiting.foldl (fun (t : State) m => t.mctpResume m) (s1.updLps (fun l => { l with waiting := [] })))

/-! ### The time base (R15) -/

/-- An island's copy takes AON's value. -/
def execTimeBaseResync (i : Island) (s : State) : Res :=
  when_ (s.running .aon && s.running i) s { s with clocks := s.clocks.set i.code s.time }

end Sys2Proof.Machine
end

