-- ==== Sys2Proof/Machine/Tick.lean ====
section
/-! DEFINITION. What time alone does: the step of an empty queue is one cycle of AON's 100 MHz oscillator
(notes/assumptions/3.md). -/

namespace Sys2Proof.Machine

/-- The 16 cycles of the strand engines in one AON cycle (event 0x002): a counter with a unit filter follows its engine. -/
def State.peCycles (s : State) : State :=
  let whole := s.pmuCounters 0x002 none none
  let units := (List.range 64).flatMap (fun e =>
    (s.pmuCounters 0x002 none (some e)).filter (fun n => bitsOf (s.reg (Addr.PMU_SEL n)) 29 1 == 1))
  { s with regs := (whole ++ units).foldl (fun t n => pmuAdd t n 16) s.regs }

/-- REC programs a page of the records that a flush still holds; an erase in a bank gives way (R426, R474). -/
def State.flushCycle (s : State) : State :=
  if s.contrail.flushing && s.recUp && s.running .cfl then (s.yieldErase 1).flushPage else s

/-- The copies of the time base of running islands go on with it (R15). -/
def State.clockTick (s : State) : List Nat :=
  (List.range 15).map (fun i => s.clocks.getD i 0 + (if s.isl.getD i .off = .running ∧ s.mod.frozen = false then 10 else 0))

/-- One AON cycle: the time base and its copies and the cycle counters advance, a flush goes on, and ports that are disabled go down
once nothing is unacknowledged. -/
def State.tick (s : State) : State :=
  if s.running .aon then
    let s1 := { s with time := s.time + 10, clocks := s.clockTick }.countEvent 0x001 1 none none
    ((if s1.running .pe then s1.peCycles else s1).flushCycle).phlDown
  else s

end Sys2Proof.Machine
end

