-- ==== Sys2Proof/Machine/Dispatch.lean ====
section
/-! DEFINITION. What each command does: one arm a row of spec/opcode_table.json, in the order of Instr. -/

namespace Sys2Proof.Machine

def exec (i : Instr) (s : State) : Host.Outcome State Fault Refusal :=
  match i with
  | .aonResetRelease => Sys2Proof.Machine.execAonResetRelease s
  | .timeBaseResync isl => Sys2Proof.Machine.execTimeBaseResync isl s
  | .crossingItemArrival x forward isl parity brings => Sys2Proof.Machine.execCrossingItemArrival x forward isl parity brings s
  | .pfailNAccept cycles => Sys2Proof.Machine.execPfailNAccept cycles s
  | .refclkLoss => Sys2Proof.Machine.execRefclkLoss s
  | .ringFrameForward dest hops frame => Sys2Proof.Machine.execRingFrameForward dest hops frame s
  | .placement copy unit => Sys2Proof.Machine.execPlacement copy unit s
  | .commitUnit unit => Sys2Proof.Machine.execCommitUnit unit s
  | .extentReservation extent => Sys2Proof.Machine.execExtentReservation extent s
  | .memWr p ld line data poison => Sys2Proof.Machine.execMemWr p ld line data poison s
  | .memWrPtl p ld line data be poison => Sys2Proof.Machine.execMemWrPtl p ld line data be poison s
  | .heldWriteRelease p ld => Sys2Proof.Machine.execHeldWriteRelease p ld s
  | .memRd p ld line tag => Sys2Proof.Machine.execMemRd p ld line tag s
  | .memRdData p ld line tag => Sys2Proof.Machine.execMemRdData p ld line tag s
  | .memInv p ld line tag => Sys2Proof.Machine.execMemInv p ld line tag s
  | .unsupportedRequest p io tag => Sys2Proof.Machine.execUnsupportedRequest p io tag s
  | .viral p => Sys2Proof.Machine.execViral p s
  | .linkLevelRetry p seq => Sys2Proof.Machine.execLinkLevelRetry p seq s
  | .linkDown p => Sys2Proof.Machine.execLinkDown p s
  | .linkUp p wide speed mldSwitch decoders => Sys2Proof.Machine.execLinkUp p wide speed mldSwitch decoders s
  | .headroomRefresh => Sys2Proof.Machine.execHeadroomRefresh s
  | .fenceRead p ld off len tag => Sys2Proof.Machine.execFenceRead p ld off len tag s
  | .fenceComplete p ld => Sys2Proof.Machine.execFenceComplete p ld s
  | .fenceTimeout p ld => Sys2Proof.Machine.execFenceTimeout p ld s
  | .fenceStatusRead p ld tag => Sys2Proof.Machine.execFenceStatusRead p ld tag s
  | .fenceClear p ld => Sys2Proof.Machine.execFenceClear p ld s
  | .gpfFlush p => Sys2Proof.Machine.execGpfFlush p s
  | .gpfLate p => Sys2Proof.Machine.execGpfLate p s
  | .hstPortEnable p on => Sys2Proof.Machine.execHstPortEnable p on s
  | .contrailRecord isl => Sys2Proof.Machine.execContrailRecord isl s
  | .flushMs => Sys2Proof.Machine.execFlushMs s
  | .recScan bad => Sys2Proof.Machine.execRecScan bad s
  | .recordRead no firstAt => Sys2Proof.Machine.execRecordRead no firstAt s
  | .contrailClear path => Sys2Proof.Machine.execContrailClear path s
  | .seqUnlatch path => Sys2Proof.Machine.execSeqUnlatch path s
  | .rootProvision path nonce ciphertext tag => Sys2Proof.Machine.execRootProvision path nonce ciphertext tag s
  | .quarantineClear path => Sys2Proof.Machine.execQuarantineClear path s
  | .planKey path key => Sys2Proof.Machine.execPlanKey path key s
  | .debugUnlock path => Sys2Proof.Machine.execDebugUnlock path s
  | .adminSet path nonce ciphertext tag => Sys2Proof.Machine.execAdminSet path nonce ciphertext tag s
  | .nonceLife => Sys2Proof.Machine.execNonceLife s
  | .unlockExpiry => Sys2Proof.Machine.execUnlockExpiry s
  | .lock => Sys2Proof.Machine.execLock s
  | .bypass => Sys2Proof.Machine.execBypass s
  | .idcode => Sys2Proof.Machine.execIdcode s
  | .samplePreload => Sys2Proof.Machine.execSamplePreload s
  | .extest => Sys2Proof.Machine.execExtest s
  | .clamp => Sys2Proof.Machine.execClamp s
  | .highz => Sys2Proof.Machine.execHighz s
  | .dbgreg write offset value => Sys2Proof.Machine.execDbgreg write offset value s
  | .scandump => Sys2Proof.Machine.execScandump s
  | .sramdump addr => Sys2Proof.Machine.execSramdump addr s
  | .counterWrap n => Sys2Proof.Machine.execCounterWrap n s
  | .clearAll => Sys2Proof.Machine.execClearAll s
  | .write p pkt => Sys2Proof.Machine.execWrite p pkt s
  | .append p pkt => Sys2Proof.Machine.execAppend p pkt s
  | .readReq p pkt far => Sys2Proof.Machine.execReadReq p pkt far s
  | .readData p pkt => Sys2Proof.Machine.execReadData p pkt s
  | .atomic p pkt => Sys2Proof.Machine.execAtomic p pkt s
  | .fence p pkt => Sys2Proof.Machine.execFence p pkt s
  | .ack p pkt => Sys2Proof.Machine.execAck p pkt s
  | .receipt p pkt => Sys2Proof.Machine.execReceipt p pkt s
  | .creditReq p pkt => Sys2Proof.Machine.execCreditReq p pkt s
  | .submit p pkt => Sys2Proof.Machine.execSubmit p pkt s
  | .probe p pkt => Sys2Proof.Machine.execProbe p pkt s
  | .open_ p pkt => Sys2Proof.Machine.execOpen p pkt s
  | .openAck p pkt => Sys2Proof.Machine.execOpenAck p pkt s
  | .close p pkt => Sys2Proof.Machine.execClose p pkt s
  | .rekey session => Sys2Proof.Machine.execRekey session s
  | .contextFetch session => Sys2Proof.Machine.execContextFetch session s
  | .grantRound => Sys2Proof.Machine.execGrantRound s
  | .grantExpiry session msg => Sys2Proof.Machine.execGrantExpiry session msg s
  | .receiptInterval session => Sys2Proof.Machine.execReceiptInterval session s
  | .retransmit session psn => Sys2Proof.Machine.execRetransmit session psn s
  | .skewWindowExpiry session psn p => Sys2Proof.Machine.execSkewWindowExpiry session psn p s
  | .reasmTimeout session msg => Sys2Proof.Machine.execReasmTimeout session msg s
  | .msgLifetime session msg => Sys2Proof.Machine.execMsgLifetime session msg s
  | .msgLifetimeTimeout session msg => Sys2Proof.Machine.execMsgLifetimeTimeout session msg s
  | .sessionDead session => Sys2Proof.Machine.execSessionDead session s
  | .sessionReopen session => Sys2Proof.Machine.execSessionReopen session s
  | .pathWindow p => Sys2Proof.Machine.execPathWindow p s
  | .probeInt session p => Sys2Proof.Machine.execProbeInt session p s
  | .pathReturnTime p => Sys2Proof.Machine.execPathReturnTime p s
  | .fabricLinkDown p => Sys2Proof.Machine.execFabricLinkDown p s
  | .fabricLinkTrained p rate => Sys2Proof.Machine.execFabricLinkTrained p rate s
  | .fabPathOff p off => Sys2Proof.Machine.execFabPathOff p off s
  | .return_ p => Sys2Proof.Machine.execReturn p s
  | .ptpEventMessage p seq => Sys2Proof.Machine.execPtpEventMessage p seq s
  | .ptpLock => Sys2Proof.Machine.execPtpLock s
  | .sessionCreate path params => Sys2Proof.Machine.execSessionCreate path params s
  | .sessionDestroy path session => Sys2Proof.Machine.execSessionDestroy path session s
  | .keyCreate => Sys2Proof.Machine.execKeyCreate s
  | .keyRevoke index => Sys2Proof.Machine.execKeyRevoke index s
  | .keyRead index => Sys2Proof.Machine.execKeyRead index s
  | .malformedFrame p atMac => Sys2Proof.Machine.execMalformedFrame p atMac s
  | .noValidCopy p => Sys2Proof.Machine.execNoValidCopy p s
  | .pausePfcFrame p => Sys2Proof.Machine.execPausePfcFrame p s
  | .neighbourDiscovery p asker => Sys2Proof.Machine.execNeighbourDiscovery p asker s
  | .sqTail p ld qp value => Sys2Proof.Machine.execSqTail p ld qp value s
  | .cqHead p ld qp value => Sys2Proof.Machine.execCqHead p ld qp value s
  | .privilegedDoorbell path n value => Sys2Proof.Machine.execPrivilegedDoorbell path n value s
  | .commandFetch qp => Sys2Proof.Machine.execCommandFetch qp s
  | .strandStart cmd => Sys2Proof.Machine.execStrandStart cmd s
  | .commandDurable cmd => Sys2Proof.Machine.execCommandDurable cmd s
  | .completionPost cmd => Sys2Proof.Machine.execCompletionPost cmd s
  | .waitLimitExpiry k => Sys2Proof.Machine.execWaitLimitExpiry k s
  | .strandResume spill => Sys2Proof.Machine.execStrandResume spill s
  | .strandAging k => Sys2Proof.Machine.execStrandAging k s
  | .instructionCompletion cmd op far => Sys2Proof.Machine.execInstructionCompletion cmd op far s
  | .nop k => Sys2Proof.Machine.execNop k s
  | .br k => Sys2Proof.Machine.execBr k s
  | .brc k => Sys2Proof.Machine.execBrc k s
  | .call k => Sys2Proof.Machine.execCall k s
  | .ret k => Sys2Proof.Machine.execRet k s
  | .wait k => Sys2Proof.Machine.execWait k s
  | .yld k => Sys2Proof.Machine.execYld k s
  | .yldResume spill => Sys2Proof.Machine.execYldResume spill s
  | .sig k => Sys2Proof.Machine.execSig k s
  | .hlt k => Sys2Proof.Machine.execHlt k s
  | .trap k => Sys2Proof.Machine.execTrap k s
  | .add k => Sys2Proof.Machine.execAdd k s
  | .sub k => Sys2Proof.Machine.execSub k s
  | .and k => Sys2Proof.Machine.execAnd k s
  | .or k => Sys2Proof.Machine.execOr k s
  | .xor k => Sys2Proof.Machine.execXor k s
  | .shl k => Sys2Proof.Machine.execShl k s
  | .shr k => Sys2Proof.Machine.execShr k s
  | .li k => Sys2Proof.Machine.execLi k s
  | .cmp k => Sys2Proof.Machine.execCmp k s
  | .mov k => Sys2Proof.Machine.execMov k s
  | .ld k => Sys2Proof.Machine.execLd k s
  | .st k => Sys2Proof.Machine.execSt k s
  | .cpy k => Sys2Proof.Machine.execCpy k s
  | .fil k => Sys2Proof.Machine.execFil k s
  | .zro k => Sys2Proof.Machine.execZro k s
  | .cmpm k => Sys2Proof.Machine.execCmpm k s
  | .aadd k => Sys2Proof.Machine.execAadd k s
  | .acas k => Sys2Proof.Machine.execAcas k s
  | .fnc k => Sys2Proof.Machine.execFnc k s
  | .cmt k => Sys2Proof.Machine.execCmt k s
  | .mirw k => Sys2Proof.Machine.execMirw k s
  | .mirwTimeLimit cmd op => Sys2Proof.Machine.execMirwTimeLimit cmd op s
  | .app k => Sys2Proof.Machine.execApp k s
  | .recordPosition region => Sys2Proof.Machine.execRecordPosition region s
  | .chainStep region => Sys2Proof.Machine.execChainStep region s
  | .seal k => Sys2Proof.Machine.execSeal k s
  | .sealTimeout region => Sys2Proof.Machine.execSealTimeout region s
  | .autoCheckpoint region => Sys2Proof.Machine.execAutoCheckpoint region s
  | .vrfy k => Sys2Proof.Machine.execVrfy k s
  | .drv k => Sys2Proof.Machine.execDrv k s
  | .enc k => Sys2Proof.Machine.execEnc k s
  | .dec k => Sys2Proof.Machine.execDec k s
  | .dig k => Sys2Proof.Machine.execDig k s
  | .mac k => Sys2Proof.Machine.execMac k s
  | .put k => Sys2Proof.Machine.execPut k s
  | .get k => Sys2Proof.Machine.execGet k s
  | .getCreditReserve session msg => Sys2Proof.Machine.execGetCreditReserve session msg s
  | .radd k => Sys2Proof.Machine.execRadd k s
  | .rcas k => Sys2Proof.Machine.execRcas k s
  | .rfnc k => Sys2Proof.Machine.execRfnc k s
  | .pft k => Sys2Proof.Machine.execPft k s
  | .pro k => Sys2Proof.Machine.execPro k s
  | .dem k => Sys2Proof.Machine.execDem k s
  | .pin k => Sys2Proof.Machine.execPin k s
  | .unpin k => Sys2Proof.Machine.execUnpin k s
  | .loan k => Sys2Proof.Machine.execLoan k s
  | .lrls k => Sys2Proof.Machine.execLrls k s
  | .cln k => Sys2Proof.Machine.execCln k s
  | .inv k => Sys2Proof.Machine.execInv k s
  | .cli k => Sys2Proof.Machine.execCli k s
  | .zln k => Sys2Proof.Machine.execZln k s
  | .wlk k => Sys2Proof.Machine.execWlk k s
  | .wul k => Sys2Proof.Machine.execWul k s
  | .hmapCreate k => Sys2Proof.Machine.execHmapCreate k s
  | .hmapModify k => Sys2Proof.Machine.execHmapModify k s
  | .hmapDelete k => Sys2Proof.Machine.execHmapDelete k s
  | .hmapRead k => Sys2Proof.Machine.execHmapRead k s
  | .qctlCreate k => Sys2Proof.Machine.execQctlCreate k s
  | .destroy k => Sys2Proof.Machine.execDestroy k s
  | .handles k => Sys2Proof.Machine.execHandles k s
  | .procLoad k => Sys2Proof.Machine.execProcLoad k s
  | .procRetire k => Sys2Proof.Machine.execProcRetire k s
  | .admit_ k => Sys2Proof.Machine.execAdmit k s
  | .planAmend k => Sys2Proof.Machine.execPlanAmend k s
  | .planQuery k => Sys2Proof.Machine.execPlanQuery k s
  | .fillComplete block => Sys2Proof.Machine.execFillComplete block s
  | .victimWriteBack block => Sys2Proof.Machine.execVictimWriteBack block s
  | .pinFill region => Sys2Proof.Machine.execPinFill region s
  | .ncEnable on => Sys2Proof.Machine.execNcEnable on s
  | .invAll => Sys2Proof.Machine.execInvAll s
  | .ncDrainEnd => Sys2Proof.Machine.execNcDrainEnd s
  | .invalidatingEnd => Sys2Proof.Machine.execInvalidatingEnd s
  | .loanGrant lend loan node mib session region offset key => Sys2Proof.Machine.execLoanGrant lend loan node mib session region offset key s
  | .reclaim lend loan => Sys2Proof.Machine.execReclaim lend loan s
  | .reclaimExpiry lend loan => Sys2Proof.Machine.execReclaimExpiry lend loan s
  | .loanLost loan => Sys2Proof.Machine.execLoanLost loan s
  | .loanAdvertisement sender => Sys2Proof.Machine.execLoanAdvertisement sender s
  | .lendEn on => Sys2Proof.Machine.execLendEn on s
  | .planInstall path slice => Sys2Proof.Machine.execPlanInstall path slice s
  | .cipMessage work bytes => Sys2Proof.Machine.execCipMessage work bytes s
  | .cipUnitFree unit => Sys2Proof.Machine.execCipUnitFree unit s
  | .cipAging msg => Sys2Proof.Machine.execCipAging msg s
  | .cipParityError unit shared pieces => Sys2Proof.Machine.execCipParityError unit shared pieces s
  | .keyDerivation cmd op mismatches => Sys2Proof.Machine.execKeyDerivation cmd op mismatches s
  | .as8200Mode on => Sys2Proof.Machine.execAs8200Mode on s
  | .phLinkUp p wide => Sys2Proof.Machine.execPhLinkUp p wide s
  | .flitReplay p first count => Sys2Proof.Machine.execFlitReplay p first count s
  | .portFailed p => Sys2Proof.Machine.execPortFailed p s
  | .widthDegrade p => Sys2Proof.Machine.execWidthDegrade p s
  | .portTrainingRetry p => Sys2Proof.Machine.execPortTrainingRetry p s
  | .fallbackExit => Sys2Proof.Machine.execFallbackExit s
  | .mack ack credit => Sys2Proof.Machine.execMack ack credit s
  | .mdata f => Sys2Proof.Machine.execMdata f s
  | .mfwd f => Sys2Proof.Machine.execMfwd f s
  | .mord f => Sys2Proof.Machine.execMord f s
  | .mcv f => Sys2Proof.Machine.execMcv f s
  | .mdrop f => Sys2Proof.Machine.execMdrop f s
  | .xopen f => Sys2Proof.Machine.execXopen f s
  | .xgrant f => Sys2Proof.Machine.execXgrant f s
  | .xopenQueuedGrant => Sys2Proof.Machine.execXopenQueuedGrant s
  | .rpage f => Sys2Proof.Machine.execRpage f s
  | .rreq f => Sys2Proof.Machine.execRreq f s
  | .lease f mode => Sys2Proof.Machine.execLease f mode s
  | .linkId ch id => Sys2Proof.Machine.execLinkId ch id s
  | .mackf f => Sys2Proof.Machine.execMackf f s
  | .ctrlHmap f => Sys2Proof.Machine.execCtrlHmap f s
  | .ctrlTime f => Sys2Proof.Machine.execCtrlTime f s
  | .resyncStart f => Sys2Proof.Machine.execResyncStart f s
  | .resyncEnd f => Sys2Proof.Machine.execResyncEnd f s
  | .ctrlSession f params => Sys2Proof.Machine.execCtrlSession f params s
  | .channelServed f => Sys2Proof.Machine.execChannelServed f s
  | .channelReturned f => Sys2Proof.Machine.execChannelReturned f s
  | .resyncComplete => Sys2Proof.Machine.execResyncComplete s
  | .leaseRenewal => Sys2Proof.Machine.execLeaseRenewal s
  | .leaseExpiry => Sys2Proof.Machine.execLeaseExpiry s
  | .leaseGuardExpiry => Sys2Proof.Machine.execLeaseGuardExpiry s
  | .fbConfirmExpiry => Sys2Proof.Machine.execFbConfirmExpiry s
  | .hbStatic level => Sys2Proof.Machine.execHbStatic level s
  | .twinHbInEdge => Sys2Proof.Machine.execTwinHbInEdge s
  | .linkWait => Sys2Proof.Machine.execLinkWait s
  | .forceAlone path => Sys2Proof.Machine.execForceAlone path s
  | .flitError p => Sys2Proof.Machine.execFlitError p s
  | .ceilingRecompute hup => Sys2Proof.Machine.execCeilingRecompute hup s
  | .chargeGrant => Sys2Proof.Machine.execChargeGrant s
  | .destageStart page => Sys2Proof.Machine.execDestageStart page s
  | .destageComplete page at_ ok => Sys2Proof.Machine.execDestageComplete page at_ ok s
  | .mapSegmentWrite segment => Sys2Proof.Machine.execMapSegmentWrite segment s
  | .garbageCollection erased to_ => Sys2Proof.Machine.execGarbageCollection erased to_ s
  | .wearMove from_ to_ => Sys2Proof.Machine.execWearMove from_ to_ s
  | .patrol at_ save worst verified to_ => Sys2Proof.Machine.execPatrol at_ save worst verified to_ s
  | .holdUpTest => Sys2Proof.Machine.execHoldUpTest s
  | .testNow => Sys2Proof.Machine.execTestNow s
  | .testRetry => Sys2Proof.Machine.execTestRetry s
  | .hupTestResult c esr => Sys2Proof.Machine.execHupTestResult c esr s
  | .saveEntry => Sys2Proof.Machine.execSaveEntry s
  | .saveComplete => Sys2Proof.Machine.execSaveComplete s
  | .vMin => Sys2Proof.Machine.execVMin s
  | .resetSave => Sys2Proof.Machine.execResetSave s
  | .restoreEntry saveErased channels rawGib => Sys2Proof.Machine.execRestoreEntry saveErased channels rawGib s
  | .pageRestored page readable => Sys2Proof.Machine.execPageRestored page readable s
  | .demandDeadline page => Sys2Proof.Machine.execDemandDeadline page s
  | .restoreComplete => Sys2Proof.Machine.execRestoreComplete s
  | .pageQuery page => Sys2Proof.Machine.execPageQuery page s
  | .mapSegmentReload segment => Sys2Proof.Machine.execMapSegmentReload segment s
  | .populationCheck dimms => Sys2Proof.Machine.execPopulationCheck dimms s
  | .thermalSensorRead ch temp => Sys2Proof.Machine.execThermalSensorRead ch temp s
  | .pmicRead ch fault => Sys2Proof.Machine.execPmicRead ch fault s
  | .correctedError site again => Sys2Proof.Machine.execCorrectedError site again s
  | .uncorrectableError site => Sys2Proof.Machine.execUncorrectableError site s
  | .repairComplete line data again => Sys2Proof.Machine.execRepairComplete line data again s
  | .repairDeadline line => Sys2Proof.Machine.execRepairDeadline line s
  | .pageRetirement page => Sys2Proof.Machine.execPageRetirement page s
  | .initialFill stacked => Sys2Proof.Machine.execInitialFill stacked s
  | .backgroundFill page => Sys2Proof.Machine.execBackgroundFill page s
  | .driftScrub => Sys2Proof.Machine.execDriftScrub s
  | .scrubBehind => Sys2Proof.Machine.execScrubBehind s
  | .onDelay => Sys2Proof.Machine.execOnDelay s
  | .stepGood => Sys2Proof.Machine.execStepGood s
  | .ctlRelease slotA slotB rowOk => Sys2Proof.Machine.execCtlRelease slotA slotB rowOk s
  | .senseOutOfWindow input code => Sys2Proof.Machine.execSenseOutOfWindow input code s
  | .pfailDebounce => Sys2Proof.Machine.execPfailDebounce s
  | .on path => Sys2Proof.Machine.execOn path s
  | .off path => Sys2Proof.Machine.execOff path s
  | .cascRelease pulses => Sys2Proof.Machine.execCascRelease pulses s
  | .cascFltN level => Sys2Proof.Machine.execCascFltN level s
  | .cascFltRelease => Sys2Proof.Machine.execCascFltRelease s
  | .pgTimeout ch => Sys2Proof.Machine.execPgTimeout ch s
  | .offTimeout ch => Sys2Proof.Machine.execOffTimeout ch s
  | .channelDischarged ch => Sys2Proof.Machine.execChannelDischarged ch s
  | .stuck ch => Sys2Proof.Machine.execStuck ch s
  | .railLoss ch kind code => Sys2Proof.Machine.execRailLoss ch kind code s
  | .channelOn path ch => Sys2Proof.Machine.execChannelOn path ch s
  | .channelOff path ch => Sys2Proof.Machine.execChannelOff path ch s
  | .stretchExpiry n => Sys2Proof.Machine.execStretchExpiry n s
  | .pulse path n => Sys2Proof.Machine.execPulse path n s
  | .faultBufferCopy => Sys2Proof.Machine.execFaultBufferCopy s
  | .thermalRead temp => Sys2Proof.Machine.execThermalRead temp s
  | .thermalTripHold => Sys2Proof.Machine.execThermalTripHold s
  | .standbyRailLoss => Sys2Proof.Machine.execStandbyRailLoss s
  | .cascInFall => Sys2Proof.Machine.execCascInFall s
  | .training iface unit result => Sys2Proof.Machine.execTraining iface unit result s
  | .recalWindow iface unit => Sys2Proof.Machine.execRecalWindow iface unit s
  | .recalWindowEnd iface unit moved result => Sys2Proof.Machine.execRecalWindowEnd iface unit moved result s
  | .gapFittedChange iface unit settings => Sys2Proof.Machine.execGapFittedChange iface unit settings s
  | .gapDeferral iface unit tenfold => Sys2Proof.Machine.execGapDeferral iface unit tenfold s
  | .nandWindowDeferral unit => Sys2Proof.Machine.execNandWindowDeferral unit s
  | .fabricWindowDeferral unit => Sys2Proof.Machine.execFabricWindowDeferral unit s
  | .retrainFromSeed path iface unit => Sys2Proof.Machine.execRetrainFromSeed path iface unit s
  | .fullRetrain path iface unit => Sys2Proof.Machine.execFullRetrain path iface unit s
  | .cflRead path fa => Sys2Proof.Machine.execCflRead path fa s
  | .cflProgram path fa => Sys2Proof.Machine.execCflProgram path fa s
  | .cflErase path fa => Sys2Proof.Machine.execCflErase path fa s
  | .eraseSuspend path fa => Sys2Proof.Machine.execEraseSuspend path fa s
  | .eraseResume path fa => Sys2Proof.Machine.execEraseResume path fa s
  | .autoResume bank => Sys2Proof.Machine.execAutoResume bank s
  | .pvMargin path fa => Sys2Proof.Machine.execPvMargin path fa s
  | .evMargin path fa => Sys2Proof.Machine.execEvMargin path fa s
  | .readFrow path fa => Sys2Proof.Machine.execReadFrow path fa s
  | .cflOperationComplete bank ok pulses failBits => Sys2Proof.Machine.execCflOperationComplete bank ok pulses failBits s
  | .marginPatrol pv fa failBits => Sys2Proof.Machine.execMarginPatrol pv fa failBits s
  | .wpClr path sector count => Sys2Proof.Machine.execWpClr path sector count s
  | .wpSet path n mask => Sys2Proof.Machine.execWpSet path n mask s
  | .hazeEntry isl => Sys2Proof.Machine.execHazeEntry isl s
  | .hazeWake isl => Sys2Proof.Machine.execHazeWake isl s
  | .overcastVote => Sys2Proof.Machine.execOvercastVote s
  | .enter path => Sys2Proof.Machine.execEnter path s
  | .islandReady isl => Sys2Proof.Machine.execIslandReady isl s
  | .islandRefuse isl => Sys2Proof.Machine.execIslandRefuse isl s
  | .voteTimeout isl => Sys2Proof.Machine.execVoteTimeout isl s
  | .nightfallEntry => Sys2Proof.Machine.execNightfallEntry s
  | .night path => Sys2Proof.Machine.execNight path s
  | .wake path => Sys2Proof.Machine.execWake path s
  | .ph0SignalDetect => Sys2Proof.Machine.execPh0SignalDetect s
  | .wakeComplete bad => Sys2Proof.Machine.execWakeComplete bad s
  | .padRelease path groups => Sys2Proof.Machine.execPadRelease path groups s
  | .lpsResume path islands => Sys2Proof.Machine.execLpsResume path islands s
  | .drain path target => Sys2Proof.Machine.execDrain path target s
  | .halt path => Sys2Proof.Machine.execHalt path s
  | .resume path twinResuming => Sys2Proof.Machine.execResume path twinResuming s
  | .service path => Sys2Proof.Machine.execService path s
  | .serve path => Sys2Proof.Machine.execServe path s
  | .intakeClose => Sys2Proof.Machine.execIntakeClose s
  | .drainClose => Sys2Proof.Machine.execDrainClose s
  | .drainComplete => Sys2Proof.Machine.execDrainComplete s
  | .haltHold => Sys2Proof.Machine.execHaltHold s
  | .stillairFreeze => Sys2Proof.Machine.execStillairFreeze s
  | .freeze path => Sys2Proof.Machine.execFreeze path s
  | .thaw path => Sys2Proof.Machine.execThaw path s
  | .reset path => Sys2Proof.Machine.execReset path s
  | .fwHandover path verified => Sys2Proof.Machine.execFwHandover path verified s
  | .firmwareReady => Sys2Proof.Machine.execFirmwareReady s
  | .handoverLimit => Sys2Proof.Machine.execHandoverLimit s
  | .mcodeSwap path engine => Sys2Proof.Machine.execMcodeSwap path engine s
  | .drainLimit => Sys2Proof.Machine.execDrainLimit s
  | .chOut path ch => Sys2Proof.Machine.execChOut path ch s
  | .chIn path ch dimms => Sys2Proof.Machine.execChIn path ch dimms s
  | .chFillComplete => Sys2Proof.Machine.execChFillComplete s
  | .retrain path iface unit => Sys2Proof.Machine.execRetrain path iface unit s
  | .nandRetire path ch ce => Sys2Proof.Machine.execNandRetire path ch ce s
  | .pathOut path p => Sys2Proof.Machine.execPathOut path p s
  | .pathIn path p => Sys2Proof.Machine.execPathIn path p s
  | .abort path => Sys2Proof.Machine.execAbort path s
  | .migrationComplete => Sys2Proof.Machine.execMigrationComplete s
  | .stageCommit path b => Sys2Proof.Machine.execStageCommit path b s
  | .stagedApply b => Sys2Proof.Machine.execStagedApply b s
  | .registerWrite path offset size values => Sys2Proof.Machine.execRegisterWrite path offset size values s
  | .registerReadClear path offset size => Sys2Proof.Machine.execRegisterReadClear path offset size s
  | .mctpRead offset count => Sys2Proof.Machine.execMctpRead offset count s
  | .mctpWrite offset values => Sys2Proof.Machine.execMctpWrite offset values s
  | .mctpControlMessage eid => Sys2Proof.Machine.execMctpControlMessage eid s
  | .fmApi p ld tenant => Sys2Proof.Machine.execFmApi p ld tenant s
  | .sidebandRead path bus target page bytes => Sys2Proof.Machine.execSidebandRead path bus target page bytes s
  | .fmBind path p ld tenant => Sys2Proof.Machine.execFmBind path p ld tenant s
  | .poolMembers path members => Sys2Proof.Machine.execPoolMembers path members s

end Sys2Proof.Machine
end

