-- ==== Sys2Proof/Safety.lean ====
section
/-! DEFINITION. What the claims call a sound state: memories and the register table in their one canonical form, and one
entry for every island, channel, port and output that the spec numbers. -/

namespace Sys2Proof.Machine

/-- Every register that is listed differs from its reset value; addresses rise strictly. -/
def regsCanonical (t : Tab Word) : Bool := Tab.sorted t && t.all (fun e => e.2 != resetValue e.1)

/-- The memories of the device in canonical form. -/
def State.memoriesSound (s : State) : Bool :=
  Memory.wf s.ddr && Memory.wf s.nc.data && Memory.wf s.dst.nand && Memory.wf s.cfl.array

/-- One entry for each thing that the spec numbers. -/
def State.shaped (s : State) : Bool :=
  s.isl.length == 15 && s.clocks.length == 15 && s.lost.length == 15 && s.seq.rst.length == 4 && s.seq.codes.length == 9 &&
  s.fab.paths.length == 4 && s.mem.chans.length == 16

def State.sound (s : State) : Bool := s.memoriesSound && regsCanonical s.regs && s.shaped

/-- A run is safe when it never ends: each step answers a next state. -/
def Answers (r : Host.Outcome State Fault Refusal) : Prop := ∃ t, r = .next t

/-- The command completes: it answers a next state, and that state satisfies `p`. -/
def Gives (c : Instr) (s : State) (p : State → Prop) : Prop := ∃ t, exec c s = .next t ∧ p t

/-! ### What a command leaves alone -/

/-- The counters and overflow flags of the performance monitor, which any event may raise (R486). -/
def isPmu (a : Nat) : Bool :=
  (decide (Addr.PMU_CNT 0 ≤ a) && decide (a < Addr.PMU_CNT 512)) || (decide (Addr.PMU_OVF 0 ≤ a) && decide (a < Addr.PMU_OVF 8))

/-- The parts of a state that a frame names. `regs` is every register but the performance counters (`pmu`); `bytes` is what
a read of each device address returns; `crossings` are the queues between islands that carry write data, `records` the queues
that carry event records, with their loss counts. -/
inductive Part where
  | queue | time | draws | boot | regs | pmu | staged | marks | out | islands | clocks | crossings | records | regions
  | tenants | bytes | ddr | poison | pst | hst | phl | dst | pe | mod | seq | contrail | nc | tir | cip | fab | mem | cal | cfl
  | lps | dbg | svc | pins
  deriving DecidableEq, Repr

/-- The part is the same in both states. -/
def Part.kept (p : Part) (s t : State) : Prop :=
  match p with
  | .queue => t.pending = s.pending
  | .time => t.time = s.time
  | .draws => t.freeCtr = s.freeCtr
  | .boot => t.boot = s.boot
  | .regs => ∀ a, isPmu a = false → t.raw a = s.raw a
  | .pmu => ∀ a, isPmu a = true → t.raw a = s.raw a
  | .staged => t.staged = s.staged
  | .marks => t.marks = s.marks
  | .out => t.out = s.out
  | .islands => t.isl = s.isl
  | .clocks => t.clocks = s.clocks
  | .crossings => ∀ k < 64, Tab.get t.xing k = Tab.get s.xing k
  | .records => t.early = s.early ∧ t.lost = s.lost ∧ ∀ k, 64 ≤ k → Tab.get t.xing k = Tab.get s.xing k
  | .regions => t.regions = s.regions
  | .tenants => t.tenants = s.tenants
  | .bytes => ∀ a, t.byte a = s.byte a
  | .ddr => ∀ a, Memory.read t.ddr a = Memory.read s.ddr a
  | .poison => t.poison = s.poison
  | .pst => t.pst = s.pst
  | .hst => t.hst = s.hst
  | .phl => t.phl = s.phl
  | .dst => t.dst = s.dst
  | .pe => t.pe = s.pe
  | .mod => t.mod = s.mod
  | .seq => t.seq = s.seq
  | .contrail => t.contrail = s.contrail
  | .nc => t.nc = s.nc
  | .tir => t.tir = s.tir
  | .cip => t.cip = s.cip
  | .fab => t.fab = s.fab
  | .mem => t.mem = s.mem
  | .cal => t.cal = s.cal
  | .cfl => t.cfl = s.cfl
  | .lps => t.lps = s.lps
  | .dbg => t.dbg = s.dbg
  | .svc => t.svc = s.svc
  | .pins => t.eid = s.eid ∧ t.jtagPins = s.jtagPins

/-- Nothing but the listed parts differs. -/
def OnlyParts (l : List Part) (s t : State) : Prop := ∀ p, p ∉ l → p.kept s t

/-- No register but those listed differs, the performance counters apart. -/
def RegsBut (l : List Nat) (s t : State) : Prop := ∀ a, a ∉ l → isPmu a = false → t.raw a = s.raw a

/-! ### When a strand instruction issues -/

/-- Strand `x.st` of command `x.c` in slot `k` issues the word `x.i` at index `x.pc` now: PE runs and the mode admits
commands, the strand holds its slot, nothing it waits for is outstanding, a tracker is free, its turn has come, and its step
budget is not spent (R104, R105, R107, R132, R146). -/
abbrev CanIssue (s : State) (k : SlotNo) (x : Iss) : Prop :=
  x.k = k.toNat ∧ s.strandAt x.k = some x.st ∧ s.cmdOf x.st.cmd = some x.c ∧ s.nextWord x.st = some (x.pc, x.i) ∧
  s.running .pe = true ∧ s.pe.stopped = false ∧ s.admitsCommands = true ∧ x.st.spilled = false ∧ x.st.delaying = false ∧
  stageBlocked x.c x.i = false ∧ s.trackerFree x.k x.c x.i = true ∧ s.isFirst x.k x.st = true ∧ x.c.steps < 1048576

/-- The strand's innermost program has an instruction at index `n`. -/
abbrev HasWord (s : State) (x : Iss) (n : Nat) : Prop :=
  (x.st.frames.head?).any (fun f => decide (n < (s.progWords f.prog).length)) = true

/-- The strand's invocations with the innermost one at index `n`. -/
def Iss.framesAt (x : Iss) (n : Nat) : List Invocation :=
  match x.st.frames with
  | [] => []
  | f :: r => { f with pc := n } :: r

/-- The strand is in its slot with invocations `fs` and registers `reg`, and is otherwise as it was. -/
def StrandIs (t : State) (x : Iss) (fs : List Invocation) (reg : Nat → Word) : Prop :=
  ∃ st, t.strandAt x.k = some st ∧ st.frames = fs ∧ (∀ n < 32, st.reg n = reg n) ∧ st.h = x.st.h ∧ st.loanH = x.st.loanH ∧
    st.k = x.st.k ∧ st.scratch = x.st.scratch ∧ st.cmd = x.st.cmd ∧ st.qp = x.st.qp ∧ st.spilled = false ∧ st.delaying = false

/-- The strand has ended with registers `reg`: its slot is free, and its command keeps s31[7:0] and s1. -/
def StrandEnds (t : State) (x : Iss) (reg : Nat → Word) : Prop :=
  t.strandAt x.k = none ∧ t.cmdOf x.st.cmd = some { x.c with
    steps := x.c.steps + 1, ended := true, lastStatus := (reg 31).setWidth 8, result := reg 1 }

/-- The records that wait on an island's way to REC, oldest first. -/
def State.recordsFrom (s : State) (i : Island) : List Record := recordsOf ((Tab.get s.xing (64 + i.code)).getD [])

/-- A record of severity `sev` from island `i` is taken: REC is released, the record is not below MIN_SEV, and fewer than 32
wait (R472, R473). -/
abbrev TakesRecord (s : State) (i : Island) (sev : Nat) : Prop :=
  s.contrail.released = true ∧ s.fld F.REC_CTL.MIN_SEV ≤ sev ∧ (s.recordsFrom i).length < 32

/-- One step is counted against the command's budget, and the command is otherwise as it was. -/
def Counted (t : State) (x : Iss) : Prop := t.cmdOf x.st.cmd = some { x.c with steps := x.c.steps + 1 }

/-- No other strand, no other command, no queue pair and no procedure differs. -/
def OnlySlot (s t : State) (x : Iss) : Prop :=
  (∀ j, j ≠ x.k → t.strandAt j = s.strandAt j) ∧ (∀ c, c ≠ x.st.cmd → t.cmdOf c = s.cmdOf c) ∧ t.pe.qps = s.pe.qps ∧
  t.pe.procs = s.pe.procs

/-- The strand's registers with `d` set to `v`; s0 stays zero. -/
def Iss.regs (x : Iss) (d : Nat) (v : Word) (n : Nat) : Word := if n = d ∧ d ≠ 0 then v else x.st.reg n

/-! ### Operations of a strand -/

/-- No outstanding operation of the command has the number that the next one takes. -/
abbrev FreshOp (x : Iss) : Prop := ∀ o ∈ x.c.ops, o.id ≠ x.c.nextOp

/-- The instruction passes its issue checks (Table ISA-5), the mode allows it, and its length is not a register zero. -/
abbrev Passes (s : State) (x : Iss) (accs : List Acc) (keyOk lenOk : Bool) : Prop :=
  modeRefuses s.mod.mode x.i.opn = false ∧ s.checks x.st accs keyOk lenOk = none ∧ x.zeroLen = false

/-- The instruction is outstanding as the command's newest operation, which satisfies `p`; its strand stands at the next
index with its registers as they were. -/
def Outstanding (t : State) (x : Iss) (p : Op → Prop) : Prop :=
  StrandIs t x (x.framesAt (x.pc + 1)) x.st.reg ∧
  ∃ c o, t.cmdOf x.st.cmd = some c ∧ c.steps = x.c.steps + 1 ∧ c.nextOp = x.c.nextOp + 1 ∧ c.ops = x.c.ops ++ [o] ∧
    o.id = x.c.nextOp ∧ o.opcode = x.i.op.toNat ∧ o.pc = x.pc ∧ o.dest = x.i.dest ∧ o.quiet = x.i.q ∧ p o

/-- A range of a region can be read now by the instruction that issues (R46, R155): it has data here, nothing pending meets it,
its pages are restored, no promotion is bringing it in, and no earlier write of its strand to the region has still to be
admitted. -/
abbrev Readable (s : State) (x : Iss) (n : Nat) (lo len : Nat) : Prop :=
  ((Tab.get s.regions n).any (fun r => !s.noDataAt r lo len && !s.readAtTwin r lo len)) = true ∧
  s.srcReady lo len s.pst.nextUnit = true ∧ s.promoting lo len = false ∧ x.c.ownWrite x.c.nextOp n = false

/-- What a read that begins now returns: the committed bytes, without the extents that are open (R46, R62). -/
def State.readNow (s : State) (lo len : Nat) : List Byte := s.bytesFor s.pst.nextUnit (s.openExtents 0 (2 ^ 44)) lo len

/-- No line of the range is poisoned. -/
abbrev Clean (s : State) (lo len : Nat) : Prop := ∀ l ∈ linesOf lo len, s.poison.contains l = false

/-- A read of the range starts no fill and recalls no block: the near cache holds all of it, or looks nothing up. -/
abbrev NoFill (s : State) (lo len : Nat) : Prop :=
  s.nc.serving = false ∨ ∀ b ∈ blocksOf lo len, s.nc.inVictim b = none ∧
    ((Tab.get s.nc.lines b).any (fun l => sectorsIn b (max lo (b * 4096)) (min (lo + len) (b * 4096 + 4096) - max lo (b * 4096)) &&&
      ~~~l.valid == 0)) = true

/-- Units of the ingress buffer carry different numbers, all below the next one. -/
def State.unitsNumbered (s : State) : Bool :=
  decide ((s.pst.units.map (·.id)).Nodup) && s.pst.units.all (fun u => decide (u.id < s.pst.nextUnit))

/-- One unit is taken into the ingress buffer, and not yet committed: these bytes from `lo`, at this class, from this door. -/
def AdmitsUnit (s t : State) (lo : Nat) (bytes : List Byte) (cls : Class) (door : Door) : Prop :=
  t.pst.nextUnit = s.pst.nextUnit + 1 ∧ ∃ u ∈ t.pst.units, u.id = s.pst.nextUnit ∧ u.dpa = lo ∧ u.len = bytes.length ∧
    u.cells = cellsAt lo bytes ∧ u.cls = cls ∧ u.door = door ∧ u.atomic = none ∧ u.committed = false

/-- The parts that admission of a unit may change: the unit and its charge, its mirror copy, the ceiling's zone and its
records. What any address reads as is not among them. -/
def admission : List Part := [.pst, .regions, .dst, .phl, .out, .crossings, .regs, .pmu, .records]

/-- The registers that admission may change: counters. -/
def admissionRegs : List Nat := [Addr.PHL_CNT2, Addr.DST_CNT0, Addr.DST_CNT1]

/-- The strands' crossing to PST gives ready, and the ingress buffer has room for `len` bytes more (R16, R26). -/
abbrev HasRoom (s : State) (len : Nat) : Prop := s.xingReady (xingKey 12 true .pe) = true ∧ s.ingressRoom len = true

/-- A write of `len` bytes from `lo` to region `n` is one unit: the region has data here, and the write neither is an ATOMIC extent
nor crosses 4 KiB (R154). -/
abbrev OneUnit (s : State) (n lo len : Nat) : Prop :=
  s.unitsNumbered = true ∧ 0 < len ∧ lo % 4096 + len ≤ 4096 ∧
  ((Tab.get s.regions n).any (fun r => !s.noDataAt r lo len && !(r.atomic && !r.sealed))) = true

/-- A write of a strand to `len` bytes from `lo` is admitted at once, as one unit: its command's acceptance is durable, nothing
earlier of its strand is outstanding, and there is room for it (R16, R26, R74, R154, R158). -/
abbrev WritesOne (s : State) (x : Iss) (n lo len : Nat) : Prop :=
  x.c.accepted = true ∧ x.c.ops = [] ∧ HasRoom s len ∧ OneUnit s n lo len

/-- The class a write of class `c` to region `n` is admitted at (R40). -/
def State.classAt (s : State) (n : Nat) (c : Class) : Class := ((Tab.get s.regions n).map (fun r => Class.max c r.floor)).getD c

/-- Counter `f` stands `n` higher, at most at its top. -/
def Rises (s t : State) (f : Fld) (n : Nat) : Prop := t.fld f = min (2 ^ f.width - 1) (s.fld f + n)

/-- The strand stands at the next index with its value in `d` and ST_OK at class `cls` in s31; with Q set neither is written (R143). -/
def CompletesNow (s t : State) (x : Iss) (ps : List Part) (v : Option Word) (cls : Nat) : Prop :=
  OnlySlot s t x ∧ Counted t x ∧ OnlyParts (.pe :: .pmu :: ps) s t ∧ ∃ st, t.strandAt x.k = some st ∧
    st.frames = x.framesAt (x.pc + 1) ∧ ∀ m < 32, st.reg m = (if x.i.q then x.st.reg m
      else if m = 31 then s31Word 0 cls else if m = x.i.dest ∧ m ≠ 0 then v.getD (x.st.reg m) else x.st.reg m)

/-- Operation `o` of command `c`, outstanding and not quiet, may progress now; its strand `st` is in slot `k` (R145). -/
abbrev MayProgress (s : State) (c op : BitVec 32) (o : Op) (cm : Cmd) (k : Nat) (st : Strand) : Prop :=
  s.running .pe = true ∧ s.mod.frozen = false ∧ s.cmdOf c.toNat = some cm ∧ s.opOf c.toNat op.toNat = some o ∧
  s.slotOf c.toNat = some k ∧ s.strandAt k = some st ∧ o.quiet = false

/-- The operation has completed as `d` says: it is outstanding no more, its strand has `d`'s value and status, and no other strand
differs (R127, R144). -/
def Completes (s t : State) (c op : BitVec 32) (o : Op) (k : Nat) (st : Strand) (d : OpDone) : Prop :=
  t.opOf c.toNat op.toNat = none ∧ (∀ j, j ≠ k → t.strandAt j = s.strandAt j) ∧ ∃ st', t.strandAt k = some st' ∧
    st'.frames = st.frames ∧ st'.h = st.h ∧ st'.k = st.k ∧ ∀ m < 32, st'.reg m = (if m = 31 then s31Word d.st d.cls
      else if m = o.dest ∧ m ≠ 0 then d.val.getD (st.reg m) else st.reg m)

/-! ### Moves between the tiers -/

/-- The dirty sectors of a block, in its way or in the victim buffer. -/
def NcState.dirtyOf (n : NcState) (b : Nat) : BitVec 16 :=
  match Tab.get n.lines b with
  | some l => l.dirty
  | none => ((n.inVictim b).map (·.dirty)).getD 0

/-- Only valid sectors are dirty, and none is while the near cache looks nothing up. -/
def State.dirtySound (s : State) : Prop :=
  ∀ b, s.nc.dirtyOf b &&& ~~~s.nc.validOf b = 0 ∧ (s.nc.serving = false → s.nc.dirtyOf b = 0)

/-- A clean sector that the near cache holds agrees with DDR5 at this address. -/
def State.agreesAt (s : State) (a : Nat) : Prop :=
  (s.nc.validOf (blockOf a)).getLsbD (sectorOf a) = true → (s.nc.dirtyOf (blockOf a)).getLsbD (sectorOf a) = false →
  s.nc.data.read a = s.ddr.read a

/-- The near cache is ON, no move is under way, and the range is one block, wholly resident in line `l`. -/
abbrev OneResident (s : State) (lo len b : Nat) (l : NcLine) : Prop :=
  s.nc.st = .on ∧ s.tir.moves = [] ∧ 0 < len ∧ lo / 4096 = b ∧ lo % 4096 + len ≤ 4096 ∧ Tab.get s.nc.lines b = some l ∧
  s.nc.inVictim b = none ∧ l.valid = BitVec.allOnes 16 ∧ l.filling = 0

/-- The near cache is ON, no move is under way, and the range is one block, which the near cache does not hold and for which
way `w` of its set is free. -/
abbrev OneMissing (s : State) (lo len b w : Nat) : Prop :=
  s.nc.st = .on ∧ s.tir.moves = [] ∧ 0 < len ∧ lo / 4096 = b ∧ lo % 4096 + len ≤ 4096 ∧ Tab.get s.nc.lines b = none ∧
  s.nc.inVictim b = none ∧ s.nc.pickWay (setOf b) = some w ∧ (s.nc.setLines (setOf b)).any (fun e => e.2.way == w) = false

/-- The whole of block `b` is being filled into way `w`, for a move that holds its chunk. -/
def FillStarted (s t : State) (b w : Nat) (kind : MoveKind) : Prop :=
  Tab.get t.nc.lines b = some { way := w, valid := 0, dirty := 0, pin := false, wlk := false, filling := BitVec.allOnes 16 } ∧
  (∀ c, c ≠ b → Tab.get t.nc.lines c = Tab.get s.nc.lines c) ∧ Rises s t F.TIR_CNT0.PROMOTIONS 1 ∧
  ∃ m, t.tir.moves = [m] ∧ m.kind = kind ∧ m.left = [b] ∧ m.held = true

/-! ### Privileged instructions -/

/-- A privileged instruction passes its checks, and its parameter block of `len` bytes can be read (R112, R168). -/
abbrev HasParams (s : State) (x : Iss) (accs : List Acc) (len : Nat) : Prop :=
  Passes s x accs true (accs.all (fun a => a.rights != rightR || a.off % 64 == 0)) ∧ s.qpPriv x.st.qp = true ∧
  x.c.accepted = true ∧ Readable s x (x.region (x.blkAcc len)) (s.accDpa x.st (x.blkAcc len)) len ∧ Clean s (s.accDpa x.st (x.blkAcc len)) len

/-- The parameter block. -/
def Iss.params (x : Iss) (s : State) (len : Nat) : List Byte := s.readNow (s.accDpa x.st (x.blkAcc len)) len

/-- Where a privileged instruction that has made its change stands: outstanding until the twin holds the change too, or ready
where no twin is linked (R53, R168). -/
def State.heldPhase (s : State) : Phase := if s.phl.twin.linked then .external else .ready

/-- A management request that has made its change answers its path with ST_OK and `res`: at once where no twin is linked, and
otherwise once the twin has acknowledged the change (R53, R325, R541). -/
def AnswersHeld (s t : State) (path : Path) (res : List Byte) : Prop :=
  (s.phl.twin.linked = false → t.out = s.out ++ [.result path ST.ok res]) ∧
  (s.phl.twin.linked = true → ∃ m, (path, m, res) ∈ t.phl.twinWait ∧ ∃ f ∈ t.phl.unconfirmed, f.msn = m)

/-- No other strand and no other command differs. -/
def OnlyStrand (s t : State) (x : Iss) : Prop :=
  (∀ j, j ≠ x.k → t.strandAt j = s.strandAt j) ∧ ∀ c, c ≠ x.st.cmd → t.cmdOf c = s.cmdOf c

/-- The parts that a change of the region table may touch. -/
def mapping : List Part := [.pe, .pmu, .regions, .nc, .ddr, .bytes, .poison, .pst, .phl, .dst, .out, .regs, .records]

/-- A range reads as zero, and every other address as before. -/
def ZeroedOnly (s t : State) (lo n : Nat) : Prop := ∀ a, t.byte a = if lo ≤ a ∧ a < lo + n then 0 else s.byte a

/-- Region `n` alone differs in the region table. -/
def OnlyRegion (s t : State) (n : Nat) (r : Option Region) : Prop :=
  Tab.get t.regions n = r ∧ ∀ m, m ≠ n → Tab.get t.regions m = Tab.get s.regions m

/-- A unit that stands in the buffer under number `id`. -/
def HasUnit (t : State) (id dpa : Nat) (bytes : List Byte) (cls : Class) (door : Door) : Prop :=
  ∃ u ∈ t.pst.units, u.id = id ∧ u.dpa = dpa ∧ u.len = bytes.length ∧ u.cells = cellsAt dpa bytes ∧ u.cls = cls ∧ u.door = door ∧
    u.committed = false

/-! ### Packets of the fabric -/

/-- No session but `n`, no key, no path, no definition, no secret, no member and no time stamp differs. -/
def OnlySession (s t : State) (n : Nat) : Prop :=
  (∀ m, m ≠ n → t.ses m = s.ses m) ∧ t.fab.keys = s.fab.keys ∧ t.fab.paths = s.fab.paths ∧ t.fab.defs = s.fab.defs ∧
  t.fab.twinDefs = s.fab.twinDefs ∧ t.fab.secrets = s.fab.secrets ∧ t.fab.twinSecrets = s.fab.twinSecrets ∧
  t.fab.members = s.fab.members ∧ t.fab.membersIn = s.fab.membersIn ∧ t.fab.ptpLocked = s.fab.ptpLocked ∧
  t.fab.stamps = s.fab.stamps ∧ t.fab.txStamps = s.fab.txStamps

/-- A packet with a PSN arrives for session `x`, passes the checks of Table FAB-8, and its PSN is new (R191, R216). -/
abbrev NewPacket (s : State) (p : FabPort) (k : Packet) (x : Session) (typ : Nat) : Prop :=
  s.fabUp p = true ∧ k.typ = typ ∧ packetOk k = true ∧ s.gate p k = some x ∧ s.fits x k = true ∧ k.tagOk = true ∧
  (∀ q ∈ x.kept, q.psn ≠ k.psn) ∧ x.missed.contains (k.psn, p) = false ∧ psnDist x k.psn < 4096 ∧ x.sack.contains k.psn = false

/-- The session's context is resident, and stays so without another giving way. -/
abbrev State.ContextIn (s : State) (n : Nat) : Prop :=
  s.fab.resident.contains (2 * n) = true ∧ s.ctxRoom (s.fab.resident.filter (· != 2 * n)) (2 * n) = true

/-- It is the one packet of the next message, no other message is open, the session's context is here, and the credit it
spends leaves the grants `g`. -/
abbrev NewMessage (s : State) (p : FabPort) (k : Packet) (x : Session) (typ : Nat) (g : List Grant) : Prop :=
  NewPacket s p k x typ ∧ spend typ k.msg k.cost (s.wantsWhole typ k.region) x.grants = some g ∧ x.rx = [] ∧ x.rxBase = k.msg ∧
  x.isRetired k.msg = false ∧ pktCount x k = 1 ∧ x.parked = [] ∧ s.ContextIn k.session ∧ x.st = .open_ ∧ s.twinWrite x typ = false ∧
  s.unitsNumbered = true ∧ (∀ u ∈ s.pst.units, u.hold ≠ .order)

/-- The session as the packet leaves it, which also satisfies `p`: its PSN is received. -/
def Received (t : State) (k : Packet) (x : Session) (p : Session → Prop) : Prop :=
  ∃ y, t.ses k.session = some y ∧ y.st = x.st ∧ y.cum = (x.recvPsn k.psn).cum ∧ y.sack = (x.recvPsn k.psn).sack ∧ y.tx.length = x.tx.length ∧
    y.params = x.params ∧ y.epoch = x.epoch ∧ p y

/-- A control packet arrives for session `x` and passes the checks of Table FAB-8. -/
abbrev CtlPacket (s : State) (p : FabPort) (k : Packet) (x : Session) (typ : Nat) : Prop :=
  s.fabUp p = true ∧ k.typ = typ ∧ packetOk k = true ∧ s.gate p k = some x ∧ k.tagOk = true

/-- A packet that satisfies `p` leaves on every port of the session (R180, R215). -/
def Leaves (s t : State) (x : Session) (p : Packet → Prop) : Prop :=
  ∃ k, p k ∧ ∀ q ∈ s.sendPorts x, Out.aft2 q (s.datagram x q k) ∈ t.out

/-- The control counter lets a control packet go (R183). -/
abbrev MayControl (x : Session) : Prop := x.ctlNext < 2 ^ 32 - 1

/-- The message has been answered with this acknowledgement. -/
def Answered (y : Session) (a : AckInfo) : Prop := y.acks.getLast? = some a ∧ y.isRetired a.msg = true

/-! ### Mirror frames -/

/-- A frame of the twin is taken: its channel is up, its epoch is not an old one, it is the next in MSN order, flits carry
the acknowledgement, and no change of the region table waits for a fence (R229, R230, R239, R52). -/
abbrev FrameTaken (s : State) (f : MFrame) : Prop :=
  s.running .phl = true ∧ s.channelUp f.fallback = true ∧ s.stale f = false ∧ s.phl.twin.linked = true ∧
  f.msn.toNat = s.phl.rxNext ∧ s.on F.PHL_CTL.ENCRYPT = false ∧ s.phl.hmapIn = []

/-- The link side once frame `f` has been taken and the space of all that arrived has been released in `t` (R224). -/
def PhlState.taken (x : PhlState) (f : MFrame) (t : State) : PhlState :=
  let y := x.takeFrame f
  { y with rxHeld := y.rxHeld.filter (fun e => t.holdsSpace e.1) }

/-- One frame is numbered: it takes the next MSN and is kept until acknowledged (R230). Where no earlier frame waits, it goes out
at once if a channel is live and there is credit for it, and waits otherwise (R224). -/
def Sends (s t : State) (f : Frame) : Prop :=
  let g : Frame := { f with msn := s.phl.txNext, epoch := s.phl.epoch % 65536 }
  let n := frameCredits f.data.length
  t.phl.unconfirmed = s.phl.unconfirmed ++ [g] ∧ t.phl.txNext = (s.phl.txNext + 1) % 2 ^ 32 ∧
  (s.phl.txWait = [] → (∀ fb, s.channel = some fb → n ≤ s.phl.credit →
      t.phl.unacked = s.phl.unacked ++ [g] ∧ t.phl.credit = s.phl.credit - n ∧ Out.phFrame (chanOf fb) (s.wire g) ∈ t.out) ∧
    ((s.channel = none ∨ s.phl.credit < n) → t.phl.txWait = [g] ∧ t.phl.credit = s.phl.credit))

/-- No unit, extent, record, copy or read is open, and no region is sealed. -/
abbrev Settled (s : State) : Prop :=
  s.pst.units = [] ∧ s.pst.extents = [] ∧ s.phl.copies = [] ∧ s.hst.reads = [] ∧ s.cip.logs = [] ∧
  ∀ e ∈ s.regions, e.2.sealed = false

/-- RESTORE goes on: some page is still to be restored. -/
abbrev Restoring (s : State) : Prop := s.mod.mode = .restore ∧ s.unrestoredPages ≠ []

/-! ### Power -/

/-- RAMP_DOWN has begun with step `k`: its channels are off and the others as they were, every island but AON and CFL is in
reset, and what AON holds stays. -/
def WentDown (s t : State) (k : Nat) (timeout latch : Bool) : Prop :=
  t.seq.st = .rampDown ∧ t.seq.step = k ∧ t.seq.timeoutPath = timeout ∧ t.seq.failPath = latch ∧ t.seq.ctlReleased = false ∧
  (∀ n < 32, t.chOn n = (s.chOn n && s.chStep n != k)) ∧ (∀ i, i ≠ .aon → i ≠ .cfl → t.run i = .inReset) ∧ t.mod.mode = .cold ∧
  t.time = s.time ∧ t.boot = s.boot ∧ t.dbg = s.dbg ∧ t.tenants = s.tenants

/-- Nothing of the sequencer differs but its channels' bits and its reset outputs. -/
def OnlyChannels (s t : State) : Prop :=
  t.seq = { s.seq with en := t.seq.en, good := t.seq.good, finished := t.seq.finished, chCmd := t.seq.chCmd, rst := t.seq.rst }
/-! ### Register accesses -/

/-- The path brings an aligned access of one register to it: the path is there and not shut, the island runs, a register that
is no firmware register is described there, and no handover holds its window. -/
abbrev Reaches (s : State) (path : Path) (a : Nat) : Prop :=
  s.pathThere path = true ∧ s.pathShut path = false ∧ a < 0x1400000 ∧ a % 8 = 0 ∧ a.testBit 18 = false ∧
  s.running (windowIsland (windowOf a)) = true ∧ described a = true ∧ (ctlServes a 1 = false ∨ s.svc.proc ≠ 1)

/-- The bit of GEN_ERR of a kind is set, GEN_ERR_LOG names the access, and its counter, where it has one, has counted. -/
def AccessError (ps : List Part) (s t : State) (kind : Nat) (path : Path) (a : Nat) (cnt : Option Fld) : Prop :=
  OnlyParts (ps ++ [.regs, .records, .marks]) s t ∧ RegsBut [Addr.GEN_ERR, Addr.GEN_ERR_LOG, Addr.GEN_CNT0] s t ∧
  t.fld ⟨Addr.GEN_ERR, kind - 1, 1⟩ = 1 ∧ t.fld F.GEN_ERR_LOG.OFFSET = a ∧ t.fld F.GEN_ERR_LOG.PATH = path.code ∧
  t.fld F.GEN_ERR_LOG.KIND = kind ∧ ∀ f, cnt = some f → Rises s t f 1

/-- The field refuses the write: it is LOCKED, its block runs, and its value would change. -/
def State.lockRefuses (s : State) (a : Nat) (d : RegDesc) (v : Word) (f : FieldDesc) : Bool :=
  f.acc == .rw && f.upd == .locked && s.fieldOk a d v f && !s.blockStopped a && bitsOf v f.lsb f.width != s.fld ⟨a, f.lsb, f.width⟩

/-- What a field of a written register holds. -/
def FieldWritten (s t : State) (a : Nat) (d : RegDesc) (v : Word) (f : FieldDesc) : Prop :=
  let n := bitsOf v f.lsb f.width
  let g : Fld := ⟨a, f.lsb, f.width⟩
  (f.acc = .w1c → ∀ i < f.width, Nat.testBit (t.fld g) i = (Nat.testBit (s.fld g) i && !Nat.testBit n i)) ∧
  (f.acc ≠ .w1c → f.acc ≠ .rw → t.fld g = s.fld g) ∧
  (f.acc = .rw → s.fieldOk a d v f = false → t.fld g = s.fld g) ∧
  (f.acc = .rw → s.fieldOk a d v f = true →
    (f.upd = .live → t.fld g = n) ∧
    (f.upd = .staged → t.fld g = s.fld g ∧ t.staged.find? (fun x => x.addr == a && x.lsb == f.lsb) = some ⟨a, f.lsb, f.width, n⟩) ∧
    (f.upd = .locked → let x : Staged := ⟨a, f.lsb, f.width, n⟩
      t.fld g = (if s.blockStopped a = true ∧ s.mayForce x = true then n else s.fld g) ∧
      (s.blockStopped a = true → s.mayForce x = false → t.staged.find? (fun y => y.addr == a && y.lsb == f.lsb) = some x)))

/-- Staged values belong to STAGED fields, one each, or to PH0_RESERVE, whose raise may have to wait (R20). -/
abbrev StagedWell (s : State) : Prop :=
  s.staged.Pairwise (fun x y => ¬ (x.addr = y.addr ∧ x.lsb = y.lsb)) ∧
  ∀ x ∈ s.staged, x.val < 2 ^ x.width ∧ ∃ d f, findReg x.addr = some d ∧ f ∈ d.fields ∧ f.lsb = x.lsb ∧ f.width = x.width ∧
    f.acc = .rw ∧ f.upd ≠ .live

/-- The staged values that satisfy `p` are in force, and no other register differs but those listed. -/
def TakesEffect (s t : State) (p : Staged → Bool) (rs : List Nat) : Prop :=
  t.staged = s.staged.filter (fun x => !p x) ∧ (∀ x ∈ s.staged, p x = true → t.fld ⟨x.addr, x.lsb, x.width⟩ = x.val) ∧
  RegsBut (rs ++ (s.staged.filter p).map (·.addr)) s t

end Sys2Proof.Machine
end

