-- ==== Sys2Proof/Certificates/Slice0/Obligations.lean ====
section
/-! DEFINITION. What is claimed of the model: each statement is a proposition about the device, after the rules of spec/ that
its docstring cites. -/

open Sys2Proof Sys2Proof.Machine

/-- A step of `s` with `c` in front of its queue is `exec c` on `s` with the queue's rest; with nothing waiting a step is one
cycle of AON (notes/assumptions/3.md, the model's choice). -/
def Obligations.StepTakesTheFrontCommand : Prop :=
  (∀ (c : Instr) (rest : List Instr) (s : State), step (s.withPending (c :: rest)) = exec c (s.withPending rest)) ∧
  (∀ s : State, step (s.withPending []) = .next (s.withPending []).tick)

/-- From every state every command, whatever its operands, answers a next state, and so does every step. -/
def Obligations.EveryCommandAnswers : Prop :=
  (∀ (c : Instr) (s : State), Answers (exec c s)) ∧ ∀ s : State, Answers (step s)

/-- Table ISA-8 with R141's operand B: the result of each integer instruction, where it goes, and what stays. -/
def Obligations.IntegerInstructionsWriteTheirResult : Prop :=
  ∀ (s : State) (k : SlotNo) (x : Iss), CanIssue s k x → HasWord s x (x.pc + 1) →
    let a := x.st.reg x.i.a.toNat
    let b := x.st.reg x.i.b.toNat + x.i.imm32.signExtend 64
    let writes (c : Instr) (v : Word) : Prop := Gives c s (fun t =>
      StrandIs t x (x.framesAt (x.pc + 1)) (x.regs x.i.d.toNat v) ∧ Counted t x ∧ OnlySlot s t x ∧ OnlyParts [.pe, .pmu] s t)
    (x.i.op = 0x10 → writes (.add k) (a + b)) ∧ (x.i.op = 0x11 → writes (.sub k) (a - b)) ∧
    (x.i.op = 0x12 → writes (.and k) (a &&& b)) ∧ (x.i.op = 0x13 → writes (.or k) (a ||| b)) ∧
    (x.i.op = 0x14 → writes (.xor k) (a ^^^ b)) ∧ (x.i.op = 0x15 → writes (.shl k) (a <<< (b.toNat % 64))) ∧
    (x.i.op = 0x16 → writes (.shr k) (a >>> (b.toNat % 64))) ∧ (x.i.op = 0x17 → writes (.li k) x.i.hi) ∧
    (x.i.op = 0x18 → ∃ v, writes (.cmp k) v ∧ v.toNat < 32 ∧ (bit v 0 = true ↔ a = b) ∧ (bit v 1 = true ↔ a.toInt < b.toInt) ∧
      (bit v 2 = true ↔ b.toInt < a.toInt) ∧ (bit v 3 = true ↔ a.toNat < b.toNat) ∧ (bit v 4 = true ↔ b.toNat < a.toNat)) ∧
    (x.i.op = 0x19 → writes (.mov k) a)

/-- Tables ISA-6 and ISA-7 with R132, R149 and R151: NOP, WAIT, BR, BRC, SIG. -/
def Obligations.BranchesAndPlainControl : Prop :=
  ∀ (s : State) (k : SlotNo) (x : Iss), CanIssue s k x →
    let goesTo (c : Instr) (fs : List Invocation) (ps : List Part) : Prop := Gives c s (fun t =>
      StrandIs t x fs x.st.reg ∧ Counted t x ∧ OnlySlot s t x ∧ OnlyParts ps s t)
    let target := (x.pc : Int) + x.i.imm32.toInt
    let v := x.st.reg x.i.a.toNat
    let holds := ([bit v 0, !bit v 0, bit v 1, !bit v 1, bit v 2, !bit v 2, bit v 3, !bit v 3, bit v 4, !bit v 4, v == 0,
      v != 0] : List Bool).getD x.i.d.toNat false
    let branch (c : Instr) : Prop := ∀ (f : Invocation) (r : List Invocation), x.st.frames = f :: r →
      (0 < x.i.imm32.toInt → HasWord s x target.toNat → goesTo c ({ f with pc := target.toNat } :: r) [.pe, .pmu]) ∧
      (∀ n, (Tab.get f.counters x.pc).getD 0 = n → x.i.imm32.toInt ≤ 0 → n ≠ x.i.bound → HasWord s x target.toNat →
        goesTo c ({ f with pc := target.toNat, counters := Tab.put f.counters x.pc (n + 1) } :: r) [.pe, .pmu]) ∧
      ((Tab.get f.counters x.pc).getD 0 = x.i.bound → x.i.imm32.toInt ≤ 0 → s.svc.proc ≠ 2 → Gives c s (fun t =>
        t.strandAt x.k = none ∧ (∃ cm, t.cmdOf x.st.cmd = some cm ∧ cm.ended = true ∧ cm.faulted = true ∧
          cm.status = ST.fault ∧ cm.faultOp = x.i.op.toNat ∧ cm.faultPc = x.pc) ∧
        t.fld F.PE_CNT3.BOUND_FAULTS = min (2 ^ F.PE_CNT3.BOUND_FAULTS.width - 1) (s.fld F.PE_CNT3.BOUND_FAULTS + 1) ∧
        RegsBut [Addr.PE_CNT3] s t ∧ OnlyParts [.pe, .regs, .pmu, .marks, .records, .tir, .out] s t))
    (x.i.op = 0x00 → HasWord s x (x.pc + 1) → goesTo (.nop k) (x.framesAt (x.pc + 1)) [.pe, .pmu]) ∧
    (x.i.op = 0x05 → HasWord s x (x.pc + 1) → x.c.ops = [] ∧ goesTo (.wait k) (x.framesAt (x.pc + 1)) [.pe, .pmu]) ∧
    (x.i.op = 0x01 → branch (.br k)) ∧
    (x.i.op = 0x02 → holds = true → branch (.brc k)) ∧
    (x.i.op = 0x02 → holds = false → HasWord s x (x.pc + 1) → ∀ (f : Invocation) (r : List Invocation), x.st.frames = f :: r →
      goesTo (.brc k) ({ f with pc := x.pc + 1, counters := Tab.del f.counters x.pc } :: r) [.pe, .pmu]) ∧
    (∀ q, x.i.op = 0x07 → HasWord s x (x.pc + 1) → Tab.get s.pe.qps x.st.qp = some q → q.sigSecond ≠ s.time / 1000000000 →
      TakesRecord s .pe x.i.imm32.toNat → Gives (.sig k) s (fun t =>
        StrandIs t x (x.framesAt (x.pc + 1)) x.st.reg ∧ Counted t x ∧ OnlyParts [.pe, .pmu, .records] s t ∧
        ∃ rec, t.recordsFrom .pe = s.recordsFrom .pe ++ [rec] ∧ rec.sev = x.i.imm32.toNat ∧ rec.object = x.st.qp ∧
          rec.arg0 = x.st.reg x.i.a.toNat ∧ rec.arg1 = x.st.reg x.i.b.toNat))

/-- R121, R128, R130, R150 and R151: CALL, RET, HLT, TRAP, YLD. -/
def Obligations.CallsAndStrandEnds : Prop :=
  ∀ (s : State) (k : SlotNo) (x : Iss), CanIssue s k x → s.svc.proc ≠ 2 →
    let goesTo (c : Instr) (fs : List Invocation) (reg : Nat → Word) : Prop := Gives c s (fun t =>
      StrandIs t x fs reg ∧ Counted t x ∧ OnlySlot s t x ∧ OnlyParts [.pe, .pmu] s t)
    let p := x.i.imm32.toNat % 4096
    (x.i.op = 0x03 → x.st.frames.length < 9 → (s.qpPriv x.st.qp = true ∨ s.reachesPriv 8 (s.progWords (.proc p)) = false) →
      ∀ q, Tab.get s.pe.procs p = some q → q.retired = false → q.words ≠ [] → x.st.frames ≠ [] →
        goesTo (.call k) ({ prog := .proc p, pc := 0, counters := [] } :: x.framesAt (x.pc + 1)) x.st.reg) ∧
    (x.i.op = 0x04 → ∀ (f g : Invocation) (r : List Invocation), x.st.frames = f :: g :: r →
      g.pc < (s.progWords g.prog).length → goesTo (.ret k) (g :: r) (x.regs x.i.d.toNat (x.st.reg x.i.a.toNat))) ∧
    (x.i.op = 0x04 → x.st.frames.length = 1 → Gives (.ret k) s (fun t =>
      StrandEnds t x (x.regs x.i.d.toNat (x.st.reg x.i.a.toNat)) ∧ OnlySlot s t x ∧ OnlyParts [.pe, .pmu, .tir, .out] s t)) ∧
    (x.i.op = 0x08 → Gives (.hlt k) s (fun t =>
      StrandEnds t x x.st.reg ∧ OnlySlot s t x ∧ OnlyParts [.pe, .pmu, .tir, .out] s t)) ∧
    (x.i.op = 0x09 → Gives (.trap k) s (fun t =>
      t.strandAt x.k = none ∧ OnlySlot s t x ∧ OnlyParts [.pe, .pmu, .tir, .out, .marks, .records] s t ∧
      ∃ cm, t.cmdOf x.st.cmd = some cm ∧ cm.ended = true ∧ cm.faulted = true ∧ cm.status = ST.fault ∧ cm.faultOp = 0x09 ∧
        cm.faultPc = x.pc ∧ cm.result = x.i.imm32.setWidth 64)) ∧
    (x.i.op = 0x06 → x.i.imm32 = 0 → HasWord s x (x.pc + 1) → goesTo (.yld k) (x.framesAt (x.pc + 1)) x.st.reg) ∧
    (x.i.op = 0x06 → x.i.imm32 ≠ 0 → HasWord s x (x.pc + 1) → s.spillFull = false → Gives (.yld k) s (fun t =>
      t.strandAt x.k = none ∧ Counted t x ∧ RegsBut [Addr.PE_CNT1] s t ∧ OnlyParts [.pe, .regs, .pmu] s t ∧
      t.fld F.PE_CNT1.YIELDS = min (2 ^ F.PE_CNT1.YIELDS.width - 1) (s.fld F.PE_CNT1.YIELDS + 1) ∧
      ∃ st, t.strandAt s.spillSlot = some st ∧ st.spilled = true ∧ st.delaying = true ∧ st.s = x.st.s ∧ st.h = x.st.h ∧
        st.frames = x.framesAt (x.pc + 1)))

/-- R134 and R151: a spilled strand resumes in the slot that R108 gives; R107: a ready strand ages. -/
def Obligations.YieldedStrandsResume : Prop :=
  (∀ (s : State) (n : BitVec 12) (st : Strand) (k : Nat), s.running .pe = true → s.strandAt (4096 + n.toNat) = some st →
    s.placeSlot (s.qpPriv st.qp) = some k →
    let resumes (c : Instr) : Prop := Gives c s (fun t =>
      t.strandAt (4096 + n.toNat) = none ∧ t.strandAt k = some { st with spilled := false, delaying := false } ∧
      (∀ j, j ≠ k → j ≠ 4096 + n.toNat → t.strandAt j = s.strandAt j) ∧ t.pe.cmds = s.pe.cmds ∧ OnlyParts [.pe] s t)
    (st.delaying = false → (∀ c, s.cmdOf st.cmd = some c → c.ops = []) → resumes (.strandResume n)) ∧
    (st.delaying = true → resumes (.yldResume n))) ∧
  (∀ (s : State) (k : SlotNo) (st : Strand), s.running .pe = true → s.strandAt k.toNat = some st →
    s.strandReady k.toNat st = true → Gives (.strandAging k) s (fun t =>
      t.strandAt k.toNat = some { st with aged := true } ∧ (∀ j, j ≠ k.toNat → t.strandAt j = s.strandAt j) ∧
      t.pe.cmds = s.pe.cmds ∧ OnlyParts [.pe] s t))

/-- R153: LD and ST with a SCRATCH primary complete at issue; with Q set they write no register but what ST stores (R143). -/
def Obligations.ScratchAccessesComplete : Prop :=
  ∀ (s : State) (k : SlotNo) (x : Iss), CanIssue s k x → HasWord s x (x.pc + 1) →
    hKind (x.st.handle (x.st.primHandle x.i)) = .scratch →
    let lo := x.st.primOff x.i
    (∀ n < 32, x.i.op = 0x20 →
      s.checks x.st [x.primAcc .localOrScratch x.len rightR false none] true (widthOk lo x.len) = none →
      Gives (.ld k) s (fun t => OnlyParts [.pe, .pmu] s t ∧ OnlySlot s t x ∧ Counted t x ∧ ∃ st, t.strandAt x.k = some st ∧
        st.frames = x.framesAt (x.pc + 1) ∧ st.scratch = x.st.scratch ∧ st.reg n = (if x.i.q then x.st.reg n
          else if n = 31 then 0 else if n = x.i.dest ∧ n ≠ 0 then BitVec.ofNat 64 (leNat (x.st.scratch.readN lo x.len))
          else x.st.reg n))) ∧
    (∀ n < 32, x.i.op = 0x21 →
      s.checks x.st [x.primAcc .localOrScratch x.len rightW true (some x.cls)] true (widthOk lo x.len) = none →
      Gives (.st k) s (fun t => OnlyParts [.pe, .pmu] s t ∧ OnlySlot s t x ∧ Counted t x ∧ ∃ st, t.strandAt x.k = some st ∧
        st.frames = x.framesAt (x.pc + 1) ∧ st.reg n = (if n = 31 ∧ x.i.q = false then 0 else x.st.reg n) ∧
        st.scratch = x.st.scratch.writeCells
          (cellsAt lo (leBytes x.len (((x.st.reg x.i.b.toNat).toNat + x.i.simm) % 2 ^ 64)))))

/-- Table ISA-9 and R155: LD and CMPM. -/
def Obligations.ReadingInstructionsReadCommittedBytes : Prop :=
  ∀ (s : State) (k : SlotNo) (x : Iss), CanIssue s k x → HasWord s x (x.pc + 1) → FreshOp x →
    let a := x.primAcc .localOrScratch x.len rightR false none
    let p := x.primAcc .local_ x.len rightR false none
    let q := x.secAcc .local_ x.len rightR false none
    let reads : List Part := [.pe, .pmu, .nc, .regs, .ddr, .bytes]
    (x.i.op = 0x20 → hKind (x.st.handle a.h) = .local_ → Passes s x [a] true (widthOk a.off x.len) →
      Readable s x (x.region a) (s.accDpa x.st a) x.len → Clean s (s.accDpa x.st a) x.len →
      Gives (.ld k) s (fun t => OnlySlot s t x ∧ OnlyParts reads s t ∧ RegsBut [Addr.NC_CNT0, Addr.NC_CNT1, Addr.NC_ERR] s t ∧
        (NoFill s (s.accDpa x.st a) x.len → ∀ y, t.byte y = s.byte y) ∧
        Outstanding t x (fun o => o.done = some ⟨0, some (BitVec.ofNat 64 (leNat (s.readNow (s.accDpa x.st a) x.len))), 0⟩))) ∧
    (x.i.op = 0x25 → modeRefuses s.mod.mode x.i.opn = false → s.checks x.st [p, q] true x.lenOk = none → x.zeroLen = true →
      Gives (.cmpm k) s (fun t => CompletesNow s t x [] none 0)) ∧
    (x.i.op = 0x25 → Passes s x [p, q] true x.lenOk →
      Readable s x (x.region p) (s.accDpa x.st p) x.len → Readable s x (x.region q) (s.accDpa x.st q) x.len →
      Clean s (s.accDpa x.st p) x.len → Clean s (s.accDpa x.st q) x.len →
      let l := s.readNow (s.accDpa x.st p) x.len
      let m := s.readNow (s.accDpa x.st q) x.len
      ∃ v : Word, (l = m → v = BitVec.allOnes 64) ∧
        (∀ i < x.len, l.getD i 0 ≠ m.getD i 0 → (∀ j < i, l.getD j 0 = m.getD j 0) → v = BitVec.ofNat 64 i) ∧
        Gives (.cmpm k) s (fun t => OnlySlot s t x ∧ OnlyParts reads s t ∧
          RegsBut [Addr.NC_CNT0, Addr.NC_CNT1, Addr.NC_ERR] s t ∧
          (NoFill s (s.accDpa x.st p) x.len → NoFill s (s.accDpa x.st q) x.len → ∀ y, t.byte y = s.byte y) ∧
          Outstanding t x (fun o => o.done = some ⟨0, some v, 0⟩)))

/-- Table ISA-9 with R40 and R154: ST, CPY, FIL and ZRO admit what they write; a register length of zero writes nothing (R141). -/
def Obligations.WritingInstructionsAdmitTheirBytes : Prop :=
  ∀ (s : State) (k : SlotNo) (x : Iss), CanIssue s k x → HasWord s x (x.pc + 1) →
    let a (w : Want) := x.primAcc w x.len rightW true (some x.cls)
    let n := hRegion (x.st.handle (x.st.primHandle x.i))
    let lo := s.accDpa x.st (a .local_)
    let src := x.secAcc .local_ x.len rightR false none
    let writes (c : Instr) (ps : List Part) (rs : List Nat) (l : List Byte) (v : Option Word) : Prop := Gives c s (fun t =>
      AdmitsUnit s t lo l (s.classAt n x.cls) (.strand x.st.cmd x.c.nextOp) ∧ OnlySlot s t x ∧
      Outstanding t x (fun o => o.units = [s.pst.nextUnit] ∧ o.region = n ∧ o.done = some ⟨0, v, 0⟩) ∧
      RegsBut (rs ++ admissionRegs) s t ∧ OnlyParts (.pe :: ps ++ admission) s t)
    let empty (op : BitVec 8) (c : Instr) (accs : List Acc) : Prop := x.i.op = op → modeRefuses s.mod.mode x.i.opn = false →
      s.checks x.st accs true x.lenOk = none → x.zeroLen = true → Gives c s (fun t => CompletesNow s t x [] none 0)
    empty 0x22 (.cpy k) [a .local_, src] ∧ empty 0x23 (.fil k) [a .local_] ∧ empty 0x24 (.zro k) [a .local_] ∧
    (WritesOne s x n lo x.len →
    (x.i.op = 0x21 → hKind (x.st.handle (x.st.primHandle x.i)) = .local_ →
      Passes s x [a .localOrScratch] true (widthOk (x.st.primOff x.i) x.len) →
      writes (.st k) [] [] (leBytes x.len (((x.st.reg x.i.b.toNat).toNat + x.i.simm) % 2 ^ 64)) none) ∧
    (x.i.op = 0x22 → Passes s x [a .local_, src] true x.lenOk → Readable s x (x.region src) (s.accDpa x.st src) x.len →
      Clean s (s.accDpa x.st src) x.len → NoFill s (s.accDpa x.st src) x.len →
      writes (.cpy k) [.nc] [Addr.NC_CNT0, Addr.NC_CNT1, Addr.NC_ERR] (s.readNow (s.accDpa x.st src) x.len)
        (some (BitVec.ofNat 64 x.len))) ∧
    (x.i.op = 0x23 → Passes s x [a .local_] true x.lenOk →
      writes (.fil k) [] [] ((List.range x.len).map (fun i => BitVec.ofNat 8 ((x.st.reg x.i.d.toNat).toNat / 256 ^ (i % 8)))) none) ∧
    (x.i.op = 0x24 → Passes s x [a .local_] true x.lenOk → writes (.zro k) [] [] (List.replicate x.len 0) none))

/-- R157: AADD and ACAS. -/
def Obligations.AtomicsAdmitTheirOperation : Prop :=
  ∀ (s : State) (k : SlotNo) (x : Iss), CanIssue s k x → HasWord s x (x.pc + 1) →
    let a := x.primAcc .local_ 8 rightAtom true (some x.cls)
    let n := x.region a
    let lo := s.accDpa x.st a
    let admits (c : Instr) (f : Atomic) : Prop := Gives c s (fun t =>
      t.pst.nextUnit = s.pst.nextUnit + 1 ∧ (∃ u ∈ t.pst.units, u.id = s.pst.nextUnit ∧ u.dpa = lo ∧ u.len = 8 ∧ u.atomic = some f ∧
        u.cls = s.classAt n x.cls ∧ u.door = .strand x.st.cmd x.c.nextOp ∧ u.committed = false) ∧ OnlySlot s t x ∧
      Outstanding t x (fun o => o.units = [s.pst.nextUnit] ∧ o.done = none) ∧ RegsBut admissionRegs s t ∧
      OnlyParts (.pe :: admission) s t)
    Passes s x [a] true (a.off % 8 == 0) → x.c.accepted = true → x.c.ops = [] → s.unitsNumbered = true → HasRoom s 8 →
    ((Tab.get s.regions n).any (fun r => !s.noDataAt r lo 8)) = true →
    (x.i.op = 0x28 → admits (.aadd k) (.add (x.st.reg x.i.b.toNat))) ∧
    (x.i.op = 0x29 → admits (.acas k) (.cas (x.st.reg x.i.b.toNat) (x.st.reg x.i.xs)))

/-- R158 and R159: FNC, CMT, MIRW and its time limit. -/
def Obligations.FencesAndMirrorWait : Prop :=
  (∀ (s : State) (k : SlotNo) (x : Iss), CanIssue s k x → HasWord s x (x.pc + 1) →
    let a : Acc := { x.primAcc .local_ 0 0 false none with off := 0 }
    let waits (c : Instr) (n : Nat) : Prop := Gives c s (fun t => OnlySlot s t x ∧
      Outstanding t x (fun o => o.region = n ∧ o.done = none) ∧ OnlyParts [.pe, .pmu] s t)
    let reports (v : Word) : Prop := Gives (.mirw k) s (fun t => OnlySlot s t x ∧ Counted t x ∧ OnlyParts [.pe, .pmu] s t ∧
      ∃ st, t.strandAt x.k = some st ∧ st.frames = x.framesAt (x.pc + 1) ∧ ∀ m < 32, st.reg m = (if x.i.q then x.st.reg m
        else if m = 31 then 0 else if m = x.i.dest ∧ m ≠ 0 then v else x.st.reg m))
    (x.i.op = 0x30 → modeRefuses s.mod.mode 0x30 = false → x.zeroLen = false → waits (.fnc k) 65536) ∧
    (x.i.op = 0x31 → Passes s x [a] true true → waits (.cmt k) (x.region a)) ∧
    (∀ r, x.i.op = 0x32 → s.checks x.st [a] true true = none → s.accRegion x.st a = some r →
      (r.floor = .d0 → reports 0) ∧ (r.floor = .d1 → reports 1) ∧
      (r.floor ≠ .d0 → r.floor ≠ .d1 → x.i.imm32 = 0 → s.uncopied r = [] → reports 2) ∧
      (r.floor ≠ .d0 → r.floor ≠ .d1 → x.i.imm32 = 0 → s.uncopied r ≠ [] → reports 1) ∧
      (r.floor ≠ .d0 → r.floor ≠ .d1 → x.i.imm32 ≠ 0 → Gives (.mirw k) s (fun t => OnlySlot s t x ∧
        Outstanding t x (fun o => o.region = x.region a ∧ o.pages = s.uncopied r ∧ o.done = none) ∧ OnlyParts [.pe, .pmu] s t)))) ∧
  (∀ (s : State) (c op : BitVec 32) (o : Op) (r : Region) (k : Nat) (st : Strand), s.running .pe = true →
    s.opOf c.toNat op.toNat = some o → o.opcode = 0x32 → o.quiet = false → Tab.get s.regions o.region = some r →
    (∃ p ∈ o.pages, p ∈ s.uncopied r) → s.slotOf c.toNat = some k → s.strandAt k = some st →
    Gives (.mirwTimeLimit c op) s (fun t => OnlyParts [.pe] s t ∧ t.opOf c.toNat op.toNat = none ∧
      (∀ j, j ≠ k → t.strandAt j = s.strandAt j) ∧ ∃ st', t.strandAt k = some st' ∧ st'.frames = st.frames ∧
        ∀ m < 32, st'.reg m = (if m = 31 then s31Word ST.timeout 0 else if m = o.dest ∧ m ≠ 0 then 1 else st.reg m)))

/-- R143 to R145 and R148: an operation whose outcome is known completes. -/
def Obligations.OperationsCompleteIntoTheirStrand : Prop :=
  ∀ (s : State) (c op : BitVec 32) (far : List Byte) (o : Op) (cm : Cmd) (d : OpDone) (k : Nat) (st : Strand),
    s.running .pe = true → s.mod.frozen = false → s.cmdOf c.toNat = some cm → s.opOf c.toNat op.toNat = some o →
    o.phase = .ready → o.done = some d → (∀ h ∈ cm.hist, o.units.contains h.id = true → h.settle ≠ .pending) →
    s.slotOf c.toNat = some k → s.strandAt k = some st → o.opcode ≠ 0x40 → o.opcode ≠ 0x65 → o.opcode ≠ 0x30 → o.opcode ≠ 0x31 →
    (o.quiet = false → d.st ≠ ST.internal → Gives (.instructionCompletion c op far) s (fun t =>
      OnlyParts [.pe] s t ∧ t.opOf c.toNat op.toNat = none ∧ (∀ j, j ≠ k → t.strandAt j = s.strandAt j) ∧
      (∀ b, b ≠ c.toNat → t.cmdOf b = s.cmdOf b) ∧ ∃ st', t.strandAt k = some st' ∧ st'.frames = st.frames ∧ st'.h = st.h ∧
        st'.k = st.k ∧ ∀ m < 32, st'.reg m = (if m = 31 then s31Word d.st d.cls
          else if m = o.dest ∧ m ≠ 0 then d.val.getD (st.reg m) else st.reg m))) ∧
    (o.quiet = true → Gives (.instructionCompletion c op far) s (fun t =>
      OnlyParts [.pe] s t ∧ t.opOf c.toNat op.toNat = none ∧ ∀ j, t.strandAt j = s.strandAt j)) ∧
    (o.quiet = false → d.st = ST.internal → s.svc.proc ≠ 2 → st.cmd = c.toNat → Gives (.instructionCompletion c op far) s (fun t =>
      OnlyParts [.pe, .tir, .out, .marks, .records] s t ∧ t.strandAt k = none ∧
      ∃ cm', t.cmdOf c.toNat = some cm' ∧ cm'.faulted = true ∧ cm'.status = ST.internal ∧ cm'.ended = true))

/-- R147 and R128: the first failing check ends the strand. -/
def Obligations.FailedIssueChecksEndTheStrand : Prop :=
  ∀ (s : State) (k : SlotNo) (x : Iss) (st : Status), CanIssue s k x → s.svc.proc ≠ 2 → ST.ends st = true →
    modeRefuses s.mod.mode x.i.opn = false →
    let a (len rights : Nat) (w : Bool) (c : Option Sys2Proof.Class) := x.primAcc .local_ len rights w c
    let w := a x.len rightW true (some x.cls)
    let b := x.secAcc .local_ x.len rightR false none
    let point : Acc := { a 0 0 false none with off := 0 }
    let fails (c : Instr) : Prop := Gives c s (fun t =>
      t.strandAt x.k = none ∧ OnlySlot s t x ∧ OnlyParts [.pe, .pmu, .tir, .out, .marks, .records] s t ∧
      ∃ cm, t.cmdOf x.st.cmd = some cm ∧ cm.ended = true ∧ cm.faulted = true ∧ cm.status = st ∧
        cm.faultOp = x.i.op.toNat ∧ cm.faultPc = x.pc ∧ cm.ops = x.c.ops ∧ cm.hist = x.c.hist)
    (x.i.op = 0x20 → s.checks x.st [x.primAcc .localOrScratch x.len rightR false none] true
      (widthOk (x.st.primOff x.i) x.len) = some st → fails (.ld k)) ∧
    (x.i.op = 0x21 → s.checks x.st [x.primAcc .localOrScratch x.len rightW true (some x.cls)] true
      (widthOk (x.st.primOff x.i) x.len) = some st → fails (.st k)) ∧
    (x.i.op = 0x22 → s.checks x.st [w, b] true x.lenOk = some st → fails (.cpy k)) ∧
    (x.i.op = 0x23 → s.checks x.st [w] true x.lenOk = some st → fails (.fil k)) ∧
    (x.i.op = 0x24 → s.checks x.st [w] true x.lenOk = some st → fails (.zro k)) ∧
    (x.i.op = 0x25 → s.checks x.st [a x.len rightR false none, b] true x.lenOk = some st → fails (.cmpm k)) ∧
    (x.i.op = 0x28 → s.checks x.st [a 8 rightAtom true (some x.cls)] true (x.st.primOff x.i % 8 == 0) = some st → fails (.aadd k)) ∧
    (x.i.op = 0x29 → s.checks x.st [a 8 rightAtom true (some x.cls)] true (x.st.primOff x.i % 8 == 0) = some st → fails (.acas k)) ∧
    (x.i.op = 0x31 → s.checks x.st [point] true true = some st → fails (.cmt k)) ∧
    (x.i.op = 0x32 → s.checks x.st [point] true true = some st → fails (.mirw k))

/-- R164, R351 to R353: APP and its end once CIP has the digest, RECORD_POSITION and CHAIN_STEP. -/
def Obligations.SealedLogsTakeRecordsInOrder : Prop :=
  (∀ (s : State) (k : SlotNo) (x : Iss) (r : Region) (l : SealLog), CanIssue s k x → HasWord s x (x.pc + 1) → FreshOp x →
    x.i.op = 0x38 → x.zeroLen = false →
    let a0 : Acc := { x.primAcc .local_ 0 rightAppend false (some x.cls) with off := 0, sealedOnly := true }
    let n := x.region a0
    let src := x.secAcc .local_ x.len rightR false none
    let door : Door := .strand x.st.cmd x.c.nextOp
    s.accRegion x.st a0 = some r → s.isHome r = true → s.log n = some l →
    s.checks x.st [{ a0 with short := s.logShort n r x.len }, src] true x.lenOk = none →
    Readable s x (x.region src) (s.accDpa x.st src) x.len → Clean s (s.accDpa x.st src) x.len → NoFill s (s.accDpa x.st src) x.len →
    Gives (.app k) s (fun t => OnlySlot s t x ∧ Outstanding t x (fun o => o.region = n ∧ o.done = none ∧
        o.input = some (s.readNow (s.accDpa x.st src) x.len) ∧ o.cip = .none) ∧
      RegsBut [Addr.NC_CNT0, Addr.NC_CNT1, Addr.NC_ERR] s t ∧ OnlyParts [.pe, .pmu, .nc, .regs, .cip] s t ∧
      ∃ l' it, t.log n = some l' ∧ l'.items = l.items ++ [it] ∧ l'.seq = l.seq ∧ l'.off = l.off ∧ it.door = door ∧
        it.len = x.len ∧ it.ready = false ∧ it.unit = none)) ∧
  (∀ (s : State) (c op : BitVec 32) (far : List Byte) (o : Op) (cm : Cmd) (k : Nat) (st : Strand) (r : Region) (l : SealLog)
    (b : List Byte), MayProgress s c op o cm k st → o.opcode = 0x38 → o.phase = .source → o.input = some b → o.cip = .done →
    o.units = [] → o.done = none → Tab.get s.regions o.region = some r → s.isHome r = true → s.log o.region = some l →
    s.mayAdmit cm o = true → Gives (.instructionCompletion c op far) s (fun t => OnlyParts [.pe, .cip] s t ∧
      t.opOf c.toNat op.toNat = some { o with phase := .units } ∧ (∀ j, t.strandAt j = s.strandAt j) ∧
      ∃ l', t.log o.region = some l' ∧ l'.seq = l.seq ∧ l'.off = l.off ∧ l'.items = l.items.map (fun it =>
        if it.door == .strand c.toNat o.id then { it with payload := b, ready := true } else it))) ∧
  (∀ (s : State) (n : RegionNo) (r : Region) (l : SealLog) (it : SealItem) (c op : Nat),
    Tab.get s.regions n.toNat = some r → s.log n.toNat = some l → s.nextRecord l = some it → it.door = .strand c op →
    s.running .pst = true → s.running .cip = true → s.isHome r = true → r.sealCfg.autoRecords = 0 → s.unitsNumbered = true →
    s.chargeFits (recordUnit s.pst.nextUnit n.toNat r l it) = true → s.tenantWaits r.tenant s.pst.nextUnit = false →
    Gives (.recordPosition n) s (fun t => OnlyParts (.cip :: .pe :: admission) s t ∧ RegsBut admissionRegs s t ∧
      (∃ l', t.log n.toNat = some l' ∧ l'.seq = l.seq + 1 ∧ l'.off = l.off + (64 + (it.len + 63) / 64 * 64) ∧ l'.head = l.head ∧
        l'.items = l.items.filter (fun y => y.id != it.id) ++
          [{ it with unit := some s.pst.nextUnit, seq := l.seq + 1, off := l.off, time := s.time }]) ∧
      ∃ u ∈ t.pst.units, u.id = s.pst.nextUnit ∧ u.dpa = r.base + l.off ∧ u.len = 64 + (it.len + 63) / 64 * 64 ∧
        u.record = some it.id ∧ u.door = it.door ∧ u.chained = false ∧ u.committed = false)) ∧
  (∀ (s : State) (n : RegionNo) (r : Region) (l : SealLog) (it : SealItem) (c op : Nat),
    Tab.get s.regions n.toNat = some r → s.log n.toNat = some l → l.nextLink = some it → it.ckpt = false → it.door = .strand c op →
    s.running .cip = true → s.unitsNumbered = true → (∀ u ∈ s.pst.units, some u.id = it.unit → u.committed = false) →
    let first := leBytes 2 1 ++ leBytes 2 0 ++ leBytes 4 it.len ++ leBytes 8 it.seq ++ leBytes 8 it.time
    let head := sha256 (l.head ++ sha256 it.payload ++ first)
    let body := first ++ head ++ leBytes 4 it.source
    let bytes := body ++ leBytes 4 (crc32c (body ++ it.payload)).toNat ++ it.payload ++
      List.replicate ((it.len + 63) / 64 * 64 - it.len) 0
    Gives (.chainStep n) s (fun t => OnlyParts [.cip, .pst, .phl, .out, .regs, .pmu] s t ∧ RegsBut [Addr.PHL_CNT2] s t ∧
      (∃ l', t.log n.toNat = some l' ∧ l'.head = head ∧ l'.seq = l.seq ∧ l'.off = l.off ∧
        ∀ y ∈ l'.items, y.id = it.id → y.linked = true ∧ y.head = head) ∧
      ∀ u ∈ t.pst.units, some u.id = it.unit → u.chained = true ∧ (u.away = false → u.cells = cellsAt (r.base + it.off) bytes)))

/-- R161, R354, R356 and R357: SEAL, AUTO_CHECKPOINT, SEAL_TIMEOUT, VRFY and its end once CIP has the digests. -/
def Obligations.CheckpointsAreMadeAndTimedOut : Prop :=
  let covers (s t : State) (n : Nat) (r : Region) (l : SealLog) (door : Door) : Prop :=
    (∃ l' it, t.log n = some l' ∧ l'.ckpt = l.ckpt + 1 ∧ l'.covered = l.seq ∧ l'.items = l.items ++ [it] ∧ it.ckpt = true ∧
      it.no = l.ckpt ∧ it.seq = l.seq ∧ it.unit = some s.pst.nextUnit ∧ it.door = door) ∧
    (∃ u ∈ t.pst.units, u.id = s.pst.nextUnit ∧ u.dpa = r.base + 256 * l.ckpt ∧ u.len = 256 ∧ u.door = door ∧ u.chained = false ∧
      u.committed = false) ∧ RegsBut admissionRegs s t ∧ OnlyParts (.cip :: .pe :: admission) s t
  (∀ (s : State) (k : SlotNo) (x : Iss) (r : Region) (l : SealLog), CanIssue s k x → HasWord s x (x.pc + 1) → FreshOp x →
    x.i.op = 0x39 → x.c.accepted = true → x.c.ops = [] → s.unitsNumbered = true → HasRoom s 0 →
    let a0 : Acc := { x.primAcc .local_ 0 rightAppend false (some x.cls) with off := 0, sealedOnly := true }
    s.accRegion x.st a0 = some r → s.isHome r = true → s.log (x.region a0) = some l → ckptFull r l = false →
    Passes s x [a0] true true → Gives (.seal k) s (fun t => covers s t (x.region a0) r l (.strand x.st.cmd x.c.nextOp) ∧
      OnlySlot s t x ∧ Outstanding t x (fun o => o.done = some ⟨0, some (BitVec.ofNat 64 l.ckpt), 0⟩))) ∧
  (∀ (s : State) (n : RegionNo) (r : Region) (l : SealLog), Tab.get s.regions n.toNat = some r → s.log n.toNat = some l →
    s.running .cip = true → s.isHome r = true → (r.sealCfg.autoMs ≠ 0 ∨ r.sealCfg.autoRecords ≠ 0) → l.covered < l.seq → s.unitsNumbered = true →
    (ckptFull r l = false → Gives (.autoCheckpoint n) s (fun t => covers s t n.toNat r l .device)) ∧
    (ckptFull r l = true → l.autoStopped = false → Gives (.autoCheckpoint n) s (fun t =>
      t.log n.toNat = some { l with autoStopped := true } ∧ OnlyParts [.cip, .records] s t ∧
      (TakesRecord s .cip sevError → ∃ rec, t.recordsFrom .cip = s.recordsFrom .cip ++ [rec] ∧ rec.sev = sevError ∧
        rec.object = n.toNat)))) ∧
  (∀ (s : State) (n : RegionNo) (l : SealLog) (it : SealItem) (c op : Nat) (o : Op) (cm : Cmd), s.running .cip = true →
    s.log n.toNat = some l → l.unsigned = some it → it.door = .strand c op → s.cmdOf c = some cm → s.opOf c op = some o →
    (∀ u ∈ s.pst.units, some u.id = it.unit → u.committed = false) →
    Gives (.sealTimeout n) s (fun t => OnlyParts [.cip, .pst, .pe, .fab, .regs] s t ∧ RegsBut [Addr.CIP_CNT3] s t ∧
      Rises s t F.CIP_CNT3.SEAL_TIMEOUTS 1 ∧ (∀ u ∈ t.pst.units, some u.id ≠ it.unit) ∧
      (∃ l', t.log n.toNat = some l' ∧ l'.ckpt = l.ckpt - 1 ∧ l'.items = (l.items.filter (fun y => y.id != it.id)).map (fun y =>
        if y.ckpt && decide (it.no < y.no) then { y with no := y.no - 1 } else y)) ∧
      ∃ o', t.opOf c op = some o' ∧ o'.phase = .ready ∧ o'.done = some ⟨ST.timeout, none, 0⟩)) ∧
  (∀ (s : State) (k : SlotNo) (x : Iss) (r : Region) (l : SealLog), CanIssue s k x → HasWord s x (x.pc + 1) → FreshOp x →
    x.i.op = 0x3A →
    let a0 : Acc := { x.primAcc .local_ 0 rightR false none with off := 0, sealedOnly := true }
    let first := (x.st.reg x.i.a.toNat).toNat
    let count := (x.st.reg x.i.b.toNat).toNat
    s.accRegion x.st a0 = some r → s.log (x.region a0) = some l → s.checks x.st [a0] true true = none →
    (count = 0 → Gives (.vrfy k) s (fun t => CompletesNow s t x [] (some (BitVec.allOnes 64)) 0)) ∧
    (0 < first → 0 < count → first + count - 1 ≤ l.doneSeq → s.srcReady r.base l.doneOff s.pst.nextUnit = true →
      Gives (.vrfy k) s (fun t => OnlySlot s t x ∧ OnlyParts [.pe, .pmu] s t ∧ Outstanding t x (fun o => o.done = none ∧
        o.region = x.region a0 ∧ o.prim = first ∧ o.len = count ∧ o.sec = x.i.imm32.toNat % 2 ∧ o.cip = .none)))) ∧
  (∀ (s : State) (c op : BitVec 32) (far : List Byte) (o : Op) (cm : Cmd) (k : Nat) (st : Strand) (r : Region) (l : SealLog),
    MayProgress s c op o cm k st → o.opcode = 0x3A → o.phase = .source → o.cip = .done → o.units = [] →
    Tab.get s.regions o.region = some r → s.log o.region = some l → s.srcReady r.base l.doneOff o.bound = true →
    let w := s.walkStart r l.doneCkpt o.prim
    let d := s.verify o.region r l.doneCkpt o.prim (o.sec == 1) (o.prim + o.len - w.1) w.1 w.2.1 w.2.2
    d.st = 0 → Gives (.instructionCompletion c op far) s (fun t => OnlyParts [.pe, .cip, .regs] s t ∧
      RegsBut [Addr.CIP_CNT1] s t ∧ Completes s t c op o k st d))

/-- R162, R342, R344 and R346: DRV, its derivation and its completion. -/
def Obligations.KeysAreDerivedAndKept : Prop :=
  (∀ (s : State) (k : SlotNo) (x : Iss), CanIssue s k x → HasWord s x (x.pc + 1) → x.i.op = 0x40 → s.svc.proc ≠ 2 →
    let key := x.keyRef s
    let allowed := 0x80 ≤ key.purpose ∧ (s.qpPriv x.st.qp = true ∨ key.root = 1)
    (allowed → s.cip.cache.contains key = true → Gives (.drv k) s (fun t => OnlySlot s t x ∧ OnlyParts [.pe, .pmu, .cip] s t ∧
      t.cip.cache.getLast? = some key ∧ Outstanding t x (fun o => o.key = some key ∧ o.done = some ⟨0, none, 0⟩))) ∧
    (allowed → s.cip.cache.contains key = false → Gives (.drv k) s (fun t => OnlySlot s t x ∧ OnlyParts [.pe, .pmu, .regs] s t ∧
      RegsBut [Addr.CIP_CNT1] s t ∧ Rises s t F.CIP_CNT1.KEY_MISSES 1 ∧
      Outstanding t x (fun o => o.key = some key ∧ o.phase = .external ∧ o.done = none))) ∧
    (¬ allowed → Gives (.drv k) s (fun t => t.strandAt x.k = none ∧ OnlyParts [.pe, .pmu, .tir, .out, .marks, .records] s t ∧
      ∃ cm, t.cmdOf x.st.cmd = some cm ∧ cm.status = ST.rights ∧ cm.faulted = true ∧ cm.ended = true))) ∧
  (∀ (s : State) (c op : BitVec 32) (m : BitVec 2) (o : Op) (key : KeyRef), s.running .cip = true →
    s.opOf c.toNat op.toNat = some o → o.key = some key → o.opcode = 0x40 → o.phase = .external →
    (m ≠ 3 → Gives (.keyDerivation c op m) s (fun t => OnlyParts [.pe, .cip, .regs, .records] s t ∧ RegsBut [Addr.CIP_CNT3] s t ∧
      Rises s t F.CIP_CNT3.KDU_RERUNS m.toNat ∧ t.cip.cache.getLast? = some key ∧
      ∃ o', t.opOf c.toNat op.toNat = some o' ∧ o'.phase = .ready ∧ o'.done = some ⟨0, none, 0⟩)) ∧
    (m = 3 → Gives (.keyDerivation c op m) s (fun t => OnlyParts [.pe, .regs, .records] s t ∧ RegsBut [Addr.CIP_CNT3] s t ∧
      ∃ o', t.opOf c.toNat op.toNat = some o' ∧ o'.phase = .ready ∧ o'.done = some ⟨ST.internal, none, 0⟩))) ∧
  (∀ (s : State) (c op : BitVec 32) (far : List Byte) (o : Op) (k q : Nat) (st : Strand), s.running .pe = true →
    s.mod.frozen = false → s.opOf c.toNat op.toNat = some o → o.opcode = 0x40 → o.phase = .ready → o.units = [] →
    o.done = some ⟨0, none, 0⟩ → o.quiet = false → o.dest = 0 → o.keys = [q] → q < st.k.length → s.slotOf c.toNat = some k →
    s.strandAt k = some st → Gives (.instructionCompletion c op far) s (fun t => OnlyParts [.pe] s t ∧
      ∃ st', t.strandAt k = some st' ∧ st'.k = st.k.set q o.key ∧ st'.h = st.h ∧ st'.frames = st.frames ∧
        ∀ m < 32, st'.reg m = (if m = 31 then 0 else st.reg m)))

/-- R163, R164 and R347: ENC, DEC, DIG and MAC take in their source at issue, and write their output once CIP has run their
message; an ENC or DEC whose first bytes CIP has released (R347) writes the rest. -/
def Obligations.CipherInstructionsWriteTheirOutput : Prop :=
  (∀ (s : State) (k : SlotNo) (x : Iss), CanIssue s k x → HasWord s x (x.pc + 1) → FreshOp x →
    let n := x.len
    let a (len : Nat) := x.primAcc .local_ len rightW true (some x.cls)
    let src := x.secAcc .local_ n rightR false none
    let as8200 := ((Tab.get s.pe.qps x.st.qp).map (·.as8200)).getD false
    let key (use : Nat) := (x.st.k.getD (x.i.d.toNat % 8) none).filter (fun q => q.use == use)
    let gcm := x.i.m
    let takes (c : Instr) (q : Option KeyRef) : Prop := Gives c s (fun t => OnlySlot s t x ∧
      Outstanding t x (fun o => o.phase = .source ∧ o.input = some (s.readNow (s.accDpa x.st src) n) ∧ o.cip = .none ∧
        o.key = q ∧ o.region = x.region (a 0) ∧ o.prim = s.accDpa x.st (a 0) ∧ o.x = (if x.i.op = 0x41 ∨ x.i.op = 0x42 then
          x.st.reg x.i.a.toNat else 0) ∧ o.cls = x.cls ∧ o.len = n ∧ o.units = [] ∧ o.out = 0 ∧ o.done = none) ∧
      RegsBut [Addr.NC_CNT0, Addr.NC_CNT1, Addr.NC_ERR] s t ∧ OnlyParts [.pe, .pmu, .nc, .regs] s t)
    Readable s x (x.region src) (s.accDpa x.st src) n → Clean s (s.accDpa x.st src) n → NoFill s (s.accDpa x.st src) n →
    (∀ q, x.i.op = 0x41 → key (if gcm then 1 else 0) = some q →
      Passes s x [a (if gcm then n + 16 else n), src] true (cipherLenOk true gcm as8200 n) → takes (.enc k) (some q)) ∧
    (∀ q, x.i.op = 0x42 → key (if gcm then 1 else 0) = some q →
      Passes s x [a (if gcm then n - 16 else n), src] true (cipherLenOk false gcm as8200 n) → takes (.dec k) (some q)) ∧
    (x.i.op = 0x43 → Passes s x [a 32, src] true x.lenOk → takes (.dig k) none) ∧
    (∀ q, x.i.op = 0x44 → key 2 = some q → Passes s x [a 32, src] true x.lenOk → takes (.mac k) (some q))) ∧
  (∀ (s : State) (c op : BitVec 32) (far : List Byte) (o : Op) (cm : Cmd) (k : Nat) (st : Strand) (r : Region) (l : List Byte),
    MayProgress s c op o cm k st → o.phase = .source → o.input = some l → o.cip = .done → s.mayAdmit cm o = true →
    Tab.get s.regions o.region = some r →
    let writes (lo : Nat) (b : List Byte) : Prop := OneUnit s o.region lo b.length →
      Gives (.instructionCompletion c op far) s (fun t =>
        AdmitsUnit s t lo b (Class.max o.cls r.floor) (.strand c.toNat op.toNat) ∧ (∀ j, t.strandAt j = s.strandAt j) ∧
        (∃ o', t.opOf c.toNat op.toNat = some o' ∧ o'.phase = .units ∧ o'.units = o.units ++ [s.pst.nextUnit] ∧
          o'.done = some ⟨0, none, 0⟩) ∧ RegsBut admissionRegs s t ∧ OnlyParts (.pe :: admission) s t)
    (∀ q b, (o.opcode = 0x41 ∨ o.opcode = 0x42) → o.key = some q →
      cipherBytes (s.keyBytes q) o.x (o.opcode == 0x41) (q.use == 1) l = some b → writes (o.prim + o.out) (b.drop o.out)) ∧
    (∀ q, o.opcode = 0x42 → o.key = some q → o.units = [] → cipherBytes (s.keyBytes q) o.x false (q.use == 1) l = none →
      Gives (.instructionCompletion c op far) s (fun t => OnlyParts [.pe] s t ∧
        Completes s t c op o k st ⟨ST.integrity, none, 0⟩)) ∧
    (o.opcode = 0x43 → o.key = none → writes o.prim (sha256 l)) ∧
    (∀ q, o.opcode = 0x44 → o.key = some q → writes o.prim (hmac (s.keyBytes q) l)))

/-- R29, R107, R164, R331 to R335, R347 to R349: the CIP scheduler: what message a piece of work presents, where it runs, what its end
does, aging, parity errors and the AS8200 mode. -/
def Obligations.CipherSchedulerServesMessages : Prop :=
  (∀ (s : State) (w : CipWork) (bytes : BitVec 36) (m : CipMsg), s.running .cip = true → s.cipMsg w bytes.toNat = some m →
    s.cipRoom w = true → s.noUnit m.lane = false →
    let free := (s.unitsFor m).find? (fun u => (s.cipUnit u).running.isNone)
    let runs (ps : List Part) (rs : List Nat) (P : State → Prop) : Prop := Gives (.cipMessage w bytes) s (fun t =>
      OnlyParts (.cip :: .pe :: .regs :: ps) s t ∧ RegsBut (Addr.CIP_CNT1 :: rs) s t ∧ t.pe.strands = s.pe.strands ∧
      (∀ c op, w = .strand c op → ∀ o, s.opOf c.toNat op.toNat = some o →
        t.opOf c.toNat op.toNat = some { o with cip := .running }) ∧ ((∀ c op, w ≠ .strand c op) → t.pe = s.pe) ∧ P t)
    (∀ u, free = some u → runs [] [] (fun t => t.cipUnit u = { s.cipUnit u with running := some m } ∧
      (∀ v, v ≠ u → t.cipUnit v = s.cipUnit v) ∧ t.cip.waiting = s.cip.waiting)) ∧
    (∀ u r, free = none → s.preemptee m = some (u, r) → runs [.pmu] [Addr.CIP_CNT0] (fun t =>
      Rises s t F.CIP_CNT0.SUSPENDS 1 ∧ (t.cipUnit u).running = some m ∧ (t.cipUnit u).suspended = (s.cipUnit u).suspended ++ [r])) ∧
    (free = none → s.preemptee m = none → runs [] [] (fun t => t.cip.waiting = s.cip.waiting ++ [m] ∧ t.cip.units = s.cip.units))) ∧
  (∀ (s : State) (w : CipWork) (n : Nat), (∀ c op, w ≠ .strand c op) → s.cipMsg w n = some {
    id := s.cip.nextMsg, work := w, lane := (deviceWork w s.dst.zone).1, cls := (deviceWork w s.dst.zone).2, left := n, len := n, bad := [] }) ∧
  (∀ (s : State) (c op : BitVec 32) (n : Nat) (o : Op) (cm : Cmd) (q : Qp) (l : List Byte), s.cmdOf c.toNat = some cm →
    Tab.get s.pe.qps cm.qp = some q → s.opOf c.toNat op.toNat = some o → o.phase = .source → o.cip = .none → o.input = some l →
    (o.opcode = 0x41 ∨ o.opcode = 0x42 ∨ o.opcode = 0x38 ∨ o.opcode = 0x43 ∨ o.opcode = 0x44) →
    s.cipMsg (.strand c op) n = some {
      id := s.cip.nextMsg, work := .strand c op, lane := !(o.opcode == 0x41 || o.opcode == 0x42), cls := q.cls, left := o.len, len := o.len, bad := [] }) ∧
  (∀ (s : State) (u : BitVec 6) (m : CipMsg), s.running .cip = true → (s.cipUnit u.toNat).running = some m →
    let next := nextMsg (s.cipUnit u.toNat).suspended
      (s.cip.waiting.filter (fun y => y.lane == decide (32 ≤ u.toNat) && !y.bad.contains u.toNat))
    Gives (.cipUnitFree u) s (fun t => OnlyParts [.cip, .pe, .pmu] s t ∧ t.pe.strands = s.pe.strands ∧
      (t.cipUnit u.toNat).running = next ∧
      (∀ c op, m.work = .strand c op → ∀ o, s.opOf c.toNat op.toNat = some o →
        t.opOf c.toNat op.toNat = some { o with cip := .done }) ∧ ((∀ c op, m.work ≠ .strand c op) → t.pe = s.pe) ∧
      ∀ y, next = some y → ∀ z ∈ t.cip.waiting ++ (t.cipUnit u.toNat).suspended, z.id ≠ y.id)) ∧
  (∀ (s : State) (id : BitVec 32) (m : CipMsg), s.running .cip = true → m ∈ s.cip.waiting → m.id = id.toNat → 1 < m.cls →
    Gives (.cipAging id) s (fun t => OnlyParts [.cip, .regs] s t ∧ RegsBut [Addr.CIP_CNT0] s t ∧ Rises s t F.CIP_CNT0.AGED 1 ∧
      { m with cls := m.cls - 1 } ∈ t.cip.waiting ∧ ∀ y ∈ s.cip.waiting, y.id ≠ id.toNat → y ∈ t.cip.waiting)) ∧
  (∀ (s : State) (u : BitVec 6) (shared : Bool) (pieces : BitVec 24), s.running .cip = true →
    u.toNat ∈ s.unitsInService (decide (32 ≤ u.toNat)) →
    let day := (s.time :: (s.cipUnit u.toNat).errors).filter (fun e => decide (s.time < e + 86400000000000))
    Gives (.cipParityError u shared pieces) s (fun t => t.fld F.CIP_ERR.PARITY = 1 ∧ t.fld F.CIP_PAR_LOG.UNIT = u.toNat ∧
      t.fld F.CIP_PAR_LOG.ERRORS_24H = min 3 day.length ∧ (t.cipUnit u.toNat).errors = day ∧
      OnlyParts (.cip :: .pe :: admission) s t ∧
      RegsBut ([Addr.CIP_ERR, Addr.CIP_PAR_LOG, Addr.CIP_CNT0, Addr.CIP_CNT2, Addr.CIP_QUAR] ++ admissionRegs) s t ∧
      (3 ≤ day.length → s.on F.CIP_CTL.QUAR_EN = true → bit (t.raw Addr.CIP_QUAR) u.toNat = true ∧ t.fld F.CIP_ERR.QUARANTINE = 1) ∧
      (day.length < 3 → t.raw Addr.CIP_QUAR = s.raw Addr.CIP_QUAR))) ∧
  (∀ (s : State) (on : Bool), s.running .cip = true → Gives (.as8200Mode on) s (fun t => OnlyParts [.pe] s t ∧
    t.pe.strands = s.pe.strands ∧ t.pe.cmds = s.pe.cmds ∧
    Tab.get t.pe.qps (s.fld F.CIP_CTX_SEL.QP) = (Tab.get s.pe.qps (s.fld F.CIP_CTX_SEL.QP)).map (fun q => { q with as8200 := on }) ∧
    ∀ n, n ≠ s.fld F.CIP_CTX_SEL.QP → Tab.get t.pe.qps n = Tab.get s.pe.qps n))

/-- R35, R166, R197, R204, R209 and R210: PUT, GET, RADD, RCAS, RFNC and the reservation of a GET. -/
def Obligations.RemoteInstructionsSendTheirMessage : Prop :=
  (∀ (s : State) (k : SlotNo) (x : Iss) (r : Remote), CanIssue s k x → HasWord s x (x.pc + 1) → FreshOp x → x.c.ops = [] →
    let prim (len rights : Nat) (w : Bool) := x.primAcc .remote len rights w none
    let src := x.secAcc .local_ x.len rightR false none
    let dst := x.primAcc .local_ x.len rightW true (some x.cls)
    let far := x.secAcc .remote x.len rightR false none
    let point : Acc := { prim 0 0 false with off := 0 }
    let fence : Acc := { point with off := ((s.reach x point.h).map (·.lo)).getD 0 }
    let queues (c : Instr) (ps : List Part) (P : TxMsg → Prop) : Prop := ∀ n y, r.session = some n → s.ses n = some y →
      y.st ≠ .failed → y.st ≠ .closing → Gives c s (fun t => OnlySlot s t x ∧ OnlyParts (.pe :: .pmu :: .fab :: .out :: ps) s t ∧
        RegsBut [Addr.NC_CNT0, Addr.NC_CNT1, Addr.NC_ERR] s t ∧
        (s.ctxRoom (s.fab.resident.filter (· != 2 * n)) (2 * n) = true → ∀ m, m ≠ n → t.ses m = s.ses m) ∧
        Outstanding t x (fun o => o.phase = .external ∧ o.done = none) ∧ ∃ y' m, t.ses n = some y' ∧
          y'.msgNext = (y.msgNext + 1) % 2 ^ 32 ∧ m ∈ y'.tx ∧ m.msg = y.msgNext ∧ m.cmd = x.st.cmd ∧ m.op = x.c.nextOp ∧ P m)
    let ring := !s.phl.ph1.up
    let empty (op : BitVec 8) (c : Instr) (accs : List Acc) (h : Nat) : Prop := x.i.op = op → x.zeroLen = true →
      s.checks x.st accs true x.lenOk = none → s.reach x h = some r → (op = 0x50 → loanClassBad (some r) x.cls = false) →
      Gives c s (fun t => CompletesNow s t x [] none 0)
    let readsOk := Readable s x (x.region src) (s.accDpa x.st src) x.len ∧ Clean s (s.accDpa x.st src) x.len ∧
      NoFill s (s.accDpa x.st src) x.len
    empty 0x50 (.put k) [prim x.len rightW false, src] (prim 0 0 false).h ∧ empty 0x51 (.get k) [dst, far] far.h ∧
    (x.i.op = 0x50 → s.checks x.st [prim x.len rightW false, src] true x.lenOk = none → s.reach x (prim 0 0 false).h = some r →
      loanClassBad (some r) x.cls = false → 0 < x.len → readsOk → s.accDpa x.st src < 2 ^ 64 → r.session.all (· < ringLink) = true →
      queues (.put k) [.nc, .regs] (fun m => m.typ = 1 ∧ m.cls = x.cls ∧ m.region = r.region ∧
        m.offset = (prim 0 0 false).off + r.shift ∧ m.key = r.key ∧ m.len = x.len ∧ m.data = s.readNow (s.accDpa x.st src) x.len) ∧
      (∀ l, r.session = none → r.loan = some l → l < 2 ^ 17 → Gives (.put k) s (fun t => OnlySlot s t x ∧
        OnlyParts ([.pe, .pmu, .nc, .regs, .out] ++ if ring then [.records] else []) s t ∧ RegsBut [Addr.NC_CNT0, Addr.NC_CNT1, Addr.NC_ERR] s t ∧
        Outstanding t x (fun o => o.phase = .external ∧ o.done = none) ∧
        t.out = s.out ++ [.loanWrite ring l ((prim 0 0 false).off + r.shift) (s.readNow (s.accDpa x.st src) x.len)]))) ∧
    (x.i.op = 0x51 → s.checks x.st [dst, far] true x.lenOk = none → s.reach x far.h = some r → x.zeroLen = false →
      r.session.all (· < ringLink) = true → r.loan.all (· < 2 ^ 17) = true →
      queues (.get k) [] (fun m => m.typ = 3 ∧ m.cls = .d0 ∧ m.region = r.region ∧ m.offset = far.off + r.shift ∧ m.key = r.key ∧ m.len = x.len ∧
        m.reserve = creditsOf x.len ∧ m.reserved = r.session.any (fun n =>
          decide (creditsOf x.len ≤ s.ownCredit (s.sesTenant n) + s.unreservedFree))) ∧
      (∀ l, r.session = none → r.loan = some l → Gives (.get k) s (fun t => OnlySlot s t x ∧
        OnlyParts ([.pe, .pmu, .out] ++ if ring then [.records] else []) s t ∧ Outstanding t x (fun o => o.phase = .external ∧ o.done = none) ∧
        t.out = s.out ++ [.loanRead ring l (far.off + r.shift) x.len]))) ∧
    (x.i.op = 0x52 → s.checks x.st [prim 8 rightAtom false] true (x.st.primOff x.i % 8 == 0) = none →
      s.reach x (prim 0 0 false).h = some r →
      queues (.radd k) [] (fun m => m.typ = 5 ∧ m.subop = false ∧ m.region = r.region ∧ m.offset = x.st.primOff x.i + r.shift ∧
        m.key = r.key ∧ m.op0 = x.st.reg x.i.b.toNat ∧ m.op1 = 0)) ∧
    (x.i.op = 0x53 → s.checks x.st [prim 8 rightAtom false] true (x.st.primOff x.i % 8 == 0) = none →
      s.reach x (prim 0 0 false).h = some r →
      queues (.rcas k) [] (fun m => m.typ = 5 ∧ m.subop = true ∧ m.region = r.region ∧ m.offset = x.st.primOff x.i + r.shift ∧
        m.key = r.key ∧ m.op0 = x.st.reg x.i.b.toNat ∧ m.op1 = x.st.reg x.i.xs)) ∧
    (x.i.op = 0x54 → s.checks x.st [fence] true true = none → s.reach x point.h = some r →
      queues (.rfnc k) [] (fun m => m.typ = 6 ∧ m.cls = .d0) ∧
      (r.session = none → Gives (.rfnc k) s (fun t => OnlySlot s t x ∧ OnlyParts [.pe, .pmu] s t ∧
        Outstanding t x (fun o => o.done = some ⟨0, none, 3⟩))))) ∧
  (∀ (s : State) (n : SessionNo) (msg : BitVec 32) (y : Session) (m : TxMsg), s.running .fab = true → s.ses n.toNat = some y →
    y.tx.find? (fun m => m.msg == msg.toNat) = some m → m.typ = 3 → m.reserved = false → creditsOf m.len ≤ s.ownCredit (s.sesTenant n.toNat) + s.unreservedFree →
    Gives (.getCreditReserve n msg) s (fun t => OnlyParts [.fab, .out, .pmu] s t ∧ ∃ y', t.ses n.toNat = some y' ∧
      y'.tx.length = y.tx.length ∧ ∀ z ∈ y'.tx, z.msg = msg.toNat → z.reserved = true))

/-- R167, R311, R312, R315 and R316: PFT, PRO, PIN, WLK and DEM. -/
def Obligations.TierInstructionsMoveTheirBlocks : Prop :=
  ∀ (s : State) (k : SlotNo) (x : Iss), CanIssue s k x → HasWord s x (x.pc + 1) → FreshOp x →
    let a := x.tierAcc rightR
    let lo := s.accDpa x.st a
    let b := lo / 4096
    let locks (c : Instr) (l : NcLine) (f : NcLine → NcLine) (v : Option Word) : Prop := (l.locked || s.lockFits b) = true →
      Gives c s (fun t => OnlySlot s t x ∧ OnlyParts [.pe, .pmu, .nc, .tir, .regs] s t ∧ RegsBut [Addr.TIR_CNT0] s t ∧
        Tab.get t.nc.lines b = some (f l) ∧ (∀ c, c ≠ b → Tab.get t.nc.lines c = Tab.get s.nc.lines c) ∧
        Outstanding t x (fun o => o.done = some ⟨0, v, 0⟩))
    let starts (c : Instr) (w : Nat) (kind : MoveKind) : Prop := Gives c s (fun t => OnlySlot s t x ∧
      OnlyParts [.pe, .pmu, .nc, .tir, .regs] s t ∧ RegsBut [Addr.TIR_CNT0] s t ∧ FillStarted s t b w kind ∧
      Outstanding t x (fun o => o.phase = .external ∧ o.done = none))
    s.checks x.st [a] true true = none →
    (x.i.op = 0x60 →
      (x.zeroLen = true ∨ s.nc.st ≠ .on ∨ Config.fillQueue ≤ (s.tir.moves.filter (fun m => m.kind == .pft)).length →
        Gives (.pft k) s (fun t => CompletesNow s t x [] none 0)) ∧
      (∀ w, x.zeroLen = false → OneMissing s lo x.len b w → Gives (.pft k) s (fun t =>
        CompletesNow s t x [.nc, .tir, .regs] none 0 ∧ RegsBut [Addr.TIR_CNT0] s t ∧
        (0 < Config.fillQueue → FillStarted s t b w .pft)))) ∧
    (∀ l, OneResident s lo x.len b l → x.zeroLen = false → modeRefuses s.mod.mode x.i.opn = false →
      (x.i.op = 0x61 → Gives (.pro k) s (fun t => OnlySlot s t x ∧ OnlyParts [.pe, .pmu, .tir, .regs] s t ∧
        RegsBut [Addr.TIR_CNT0] s t ∧ Outstanding t x (fun o => o.done = some ⟨0, none, 0⟩))) ∧
      (x.i.op = 0x63 → locks (.pin k) l (fun l => { l with pin := true }) none) ∧
      (x.i.op = 0x74 → locks (.wlk k) l (fun l => { l with wlk := true }) (some 1)) ∧
      (x.i.op = 0x62 → s.memoriesSound = true → (∀ y, s.agreesAt y) →
        (l.locked = false → Gives (.dem k) s (fun t => OnlySlot s t x ∧
          OnlyParts [.pe, .pmu, .nc, .tir, .ddr, .regs] s t ∧ RegsBut [Addr.TIR_CNT0] s t ∧ Rises s t F.TIR_CNT0.DEMOTIONS 1 ∧
          Tab.get t.nc.lines b = none ∧ (∀ c, c ≠ b → Tab.get t.nc.lines c = Tab.get s.nc.lines c) ∧
          Outstanding t x (fun o => o.done = some ⟨0, none, 0⟩))) ∧
        (l.locked = true → Gives (.dem k) s (fun t => OnlySlot s t x ∧ OnlyParts [.pe, .pmu, .nc, .tir, .ddr] s t ∧
          Tab.get t.nc.lines b = some { l with dirty := 0 } ∧ (∀ c, c ≠ b → Tab.get t.nc.lines c = Tab.get s.nc.lines c) ∧
          Outstanding t x (fun o => o.done = some ⟨ST.busy, none, 0⟩))))) ∧
    (∀ w, OneMissing s lo x.len b w → x.zeroLen = false → modeRefuses s.mod.mode x.i.opn = false →
      (x.i.op = 0x61 → starts (.pro k) w .pro) ∧ (x.i.op = 0x63 → starts (.pin k) w .pin) ∧ (x.i.op = 0x74 → starts (.wlk k) w .wlk))

/-- R167, R308, R311, R314 and R317: CLN, INV, CLI, UNPIN, WUL and ZLN. -/
def Obligations.CacheMaintenanceActsOnItsRange : Prop :=
  ∀ (s : State) (k : SlotNo) (x : Iss), CanIssue s k x → HasWord s x (x.pc + 1) → FreshOp x →
    let lo := s.accDpa x.st (x.tierAcc rightR)
    let bs := blocksOf lo x.len
    let still := bs.all (fun b => ((Tab.get s.nc.lines b).map (fun l => l.filling == 0)).getD true) = true
    let sound := s.memoriesSound = true ∧ s.dirtySound ∧ ∀ y, s.agreesAt y
    let gives (c : Instr) (ps : List Part) (v : Option Word) (P : State → Prop) : Prop := Gives c s (fun t => OnlySlot s t x ∧
      OnlyParts (.pe :: .pmu :: ps) s t ∧ RegsBut [Addr.NC_CNT0] s t ∧ (∀ b, b ∉ bs → Tab.get t.nc.lines b = Tab.get s.nc.lines b) ∧
      Outstanding t x (fun o => o.done = some ⟨0, v, 0⟩) ∧ P t)
    let unlocks (c : Instr) (pin : Bool) (f : NcLine → NcLine) : Prop := gives c [.nc] none (fun t => ∀ b ∈ bs,
      Tab.get t.nc.lines b = if ((s.blockRegion b).map (·.tenant)) == some (s.cmdTenant x.st.cmd) && !(pin && s.inPinned b)
        then (Tab.get s.nc.lines b).map f else Tab.get s.nc.lines b)
    (x.i.op = 0x70 → Passes s x [x.tierAcc rightW] true true → still → sound →
      gives (.cln k) [.nc, .ddr] none (fun t => ∀ b ∈ bs, t.nc.dirtyOf b = 0 ∧ t.nc.validOf b = s.nc.validOf b)) ∧
    (x.i.op = 0x71 → Passes s x [x.tierAcc rightR] true true → s.nc.serving = true → (∀ y, s.agreesAt y) →
      gives (.inv k) [.nc, .regs] (some (BitVec.ofNat 64 (bs.filter (fun b => s.nc.dirtyOf b != 0)).length)) (fun t => ∀ b ∈ bs,
        if s.nc.dirtyOf b = 0 then t.nc.validOf b = 0 else Tab.get t.nc.lines b = Tab.get s.nc.lines b)) ∧
    (x.i.op = 0x71 → Passes s x [x.tierAcc rightR] true true → s.nc.serving = false →
      gives (.inv k) [] (some 0) (fun t => t.nc = s.nc)) ∧
    (x.i.op = 0x72 → Passes s x [x.tierAcc rightW] true true → s.nc.serving = true → sound →
      gives (.cli k) [.nc, .ddr, .regs] none (fun t => ∀ b ∈ bs, t.nc.validOf b = 0)) ∧
    (x.i.op = 0x72 → Passes s x [x.tierAcc rightW] true true → s.nc.serving = false →
      gives (.cli k) [] none (fun t => t.nc = s.nc)) ∧
    (x.i.op = 0x64 → Passes s x [x.tierAcc rightR] true true → still → unlocks (.unpin k) true (fun l => { l with pin := false })) ∧
    (x.i.op = 0x75 → Passes s x [x.tierAcc rightR] true true → still → unlocks (.wul k) false (fun l => { l with wlk := false })) ∧
    (x.i.op = 0x73 →
      let a := x.primAcc .local_ x.len rightW true (some x.cls)
      let n := x.region a
      WritesOne s x n lo x.len → Passes s x [a] true (a.off % 256 == 0 && x.len % 256 == 0 && x.lenOk) → Gives (.zln k) s (fun t =>
        AdmitsUnit s t lo (List.replicate x.len 0) (s.classAt n x.cls) (.strand x.st.cmd x.c.nextOp) ∧ OnlySlot s t x ∧
        Outstanding t x (fun o => o.units = [s.pst.nextUnit] ∧ o.done = some ⟨0, none, 0⟩) ∧ RegsBut admissionRegs s t ∧
        OnlyParts (.pe :: admission) s t))

/-- R308, R313, R317, R319 and Table TIR-6: the near cache's own events. -/
def Obligations.NearCacheChangesState : Prop :=
  (∀ (s : State) (b : BitVec 32) (l : NcLine), s.running .nc = true → Tab.get s.nc.lines b.toNat = some l → l.filling ≠ 0 →
    s.tir.moves = [] → s.memoriesSound = true → Gives (.fillComplete b) s (fun t => OnlyParts [.nc, .pmu] s t ∧
      Tab.get t.nc.lines b.toNat = some { l with valid := l.valid ||| l.filling, filling := 0 } ∧
      ∀ c, c ≠ b.toNat → Tab.get t.nc.lines c = Tab.get s.nc.lines c)) ∧
  (∀ (s : State) (b : BitVec 32) (v : VicBlock), s.running .nc = true → s.nc.inVictim b.toNat = some v → v.dirty ≠ 0 →
    v.dirty &&& ~~~v.valid = 0 → Tab.get s.nc.lines b.toNat = none → s.tir.moves = [] → s.memoriesSound = true → s.nc.serving = true →
    Gives (.victimWriteBack b) s (fun t => OnlyParts [.nc, .ddr, .pmu] s t ∧ t.nc.lines = s.nc.lines ∧
      t.nc.inVictim b.toNat = some { v with dirty := 0 })) ∧
  (∀ (s : State) (n : RegionNo) (r : Region) (b : Nat), s.running .tir = true → s.nc.st = .on → Tab.get s.regions n.toNat = some r →
    r.pinned = true → s.tir.moves = [] →
    (blocksOf r.base r.len).find? (fun b => !((Tab.get s.nc.lines b).map (·.pin)).getD false) = some b →
    Tab.get s.nc.lines b = none → s.nc.inVictim b = none → Gives (.pinFill n) s (fun t =>
      OnlyParts [.nc, .tir, .regs, .pmu, .ddr, .bytes] s t ∧ RegsBut [Addr.TIR_CNT0, Addr.NC_CNT0] s t ∧ ∃ m, t.tir.moves = [m] ∧
        m.kind = .fill ∧ m.held = true ∧ m.left = (blocksOf r.base r.len).filter (fun c => c / 16 == b / 16))) ∧
  (∀ (s : State) (on : Bool), s.running .nc = true → Gives (.ncEnable on) s (fun t =>
    OnlyParts [.nc, .regs, .records, .bytes] s t ∧ RegsBut [Addr.NC_CTL] s t ∧ t.fld F.NC_CTL.ENABLE = (if on then 1 else 0) ∧
    t.nc.lines = s.nc.lines ∧ t.nc.data = s.nc.data ∧
    (s.nc.st = .on ∨ s.nc.st = .draining → t.nc.st = (if on then .on else .draining) ∧ ∀ a, t.byte a = s.byte a) ∧
    (s.nc.st = .off → t.nc.st = (if on then .on else .off)) ∧
    (s.nc.st = .invalidating → t.nc.st = .invalidating ∧ t.nc.onAfter = on))) ∧
  (∀ (s : State), s.running .nc = true → Gives .invAll s (fun t => OnlyParts [.nc, .regs, .records] s t ∧
    RegsBut [Addr.NC_CTL, Addr.NC_ERR] s t ∧ (s.nc.st = .off → t.nc.st = .invalidating ∧ t.fld F.NC_CTL.INV_ALL = 1) ∧
    (s.nc.st = .on ∨ s.nc.st = .draining → t.nc = s.nc ∧ t.fld F.NC_ERR.INV_IGNORED = 1 ∧ t.fld F.NC_CTL.INV_ALL = 0) ∧
    (s.nc.st = .invalidating → t = s))) ∧
  (∀ (s : State), s.running .nc = true → s.nc.st = .draining → s.nc.dirtySectors = 0 → Gives .ncDrainEnd s (fun t =>
    OnlyParts [.nc, .records, .bytes] s t ∧ t.nc.st = .off ∧ t.nc.staleRisk = true ∧ t.nc.lines = s.nc.lines ∧
    ∀ a, s.agreesAt a → (s.nc.dirtyOf (blockOf a)).getLsbD (sectorOf a) = false → t.byte a = s.byte a)) ∧
  (∀ (s : State), s.running .nc = true → s.nc.st = .invalidating → Gives .invalidatingEnd s (fun t => OnlyParts [.nc, .regs] s t ∧
    RegsBut [Addr.NC_CTL] s t ∧ t.fld F.NC_CTL.INV_ALL = 0 ∧ t.nc.lines = [] ∧ t.nc.victim = [] ∧ t.nc.staleRisk = false ∧
    t.nc.st = (if s.nc.onAfter then .on else .off)))

/-- R167, R320 to R323 and Table TIR-8: loans. -/
def Obligations.LoansAreTakenGivenAndEnded : Prop :=
  let emptied (s t : State) (l : Nat) : Prop := ∀ k st, s.strandAt k = some st → ∃ st', t.strandAt k = some st' ∧
    st'.frames = st.frames ∧ st'.s = st.s ∧ st'.h.length = st.h.length ∧
    ∀ i < st.h.length, st'.h.getD i 0 = if Tab.get st.loanH i = some l then 0 else st.h.getD i 0
  (∀ (s : State) (k : SlotNo) (x : Iss), CanIssue s k x → HasWord s x (x.pc + 1) →
    (x.i.op = 0x65 → modeRefuses s.mod.mode 0x65 = false → (x.i.len + 1) % 4096 = 0 →
      (∀ lender, s.lenderAt 0 = some lender → s.tir.loansIn.length < 65536 → Gives (.loan k) s (fun t => OnlySlot s t x ∧
        OnlyParts [.pe, .pmu, .tir, .out] s t ∧ Outstanding t x (fun o => o.done = none ∧ o.link = s.freshLoan) ∧
        t.out = s.out ++ [.loanAsk s.freshLoan (x.i.len + 1) lender] ∧ (∀ n, n ≠ s.freshLoan → Tab.get t.tir.loansIn n = Tab.get s.tir.loansIn n) ∧
        ∃ l, Tab.get t.tir.loansIn s.freshLoan = some l ∧ l.st = .reserving ∧ l.bytes = x.i.len + 1 ∧ l.cmd = x.st.cmd ∧
          l.op = x.c.nextOp ∧ l.tried = 0)) ∧
      (s.lenderAt 0 = none ∨ 65536 ≤ s.tir.loansIn.length → Gives (.loan k) s (fun t => OnlySlot s t x ∧ OnlyParts [.pe, .pmu, .regs] s t ∧
        RegsBut [Addr.TIR_CNT2] s t ∧ Rises s t F.TIR_CNT2.LOANS_REFUSED 1 ∧
        Outstanding t x (fun o => o.done = some ⟨ST.busy, none, 0⟩)))) ∧
    (∀ l, x.i.op = 0x66 → Tab.get x.st.loanH (x.st.primHandle x.i) = some l → Gives (.lrls k) s (fun t => OnlySlot s t x ∧
      OnlyParts [.pe, .pmu, .tir, .out] s t ∧ t.out = s.out ++ [.loanReturn l] ∧ Tab.get t.tir.loansIn l = none ∧
      (∃ st, t.strandAt x.k = some st ∧ st.frames = x.framesAt (x.pc + 1) ∧ st.h = x.st.h.set (x.st.primHandle x.i) 0 ∧
        Tab.get st.loanH (x.st.primHandle x.i) = none ∧ st.s = x.st.s) ∧
      ∃ c o, t.cmdOf x.st.cmd = some c ∧ c.ops = x.c.ops ++ [o] ∧ o.done = some ⟨0, none, 0⟩))) ∧
  (∀ (s : State) (n : BitVec 17) (node : NodeId) (mib : BitVec 24) (ses : Option SessionNo) (region : RegionNo) (off : BitVec 44)
    (key : BitVec 32), s.running .tir = true → s.on F.TIR_PLACE_CTL.PLANNED = false →
    (∀ l o, Tab.get s.tir.loansIn n.toNat = some l → l.st = .reserving → s.loanSession ses = true → (s.slotOf l.cmd).isSome = true →
      s.opOf l.cmd l.op = some o → Gives (.loanGrant false n node mib ses region off key) s (fun t => OnlyParts [.tir, .pe] s t ∧
        Tab.get t.tir.loansIn n.toNat = some { l with st := .active, lender := node.toNat, session := ses.map (·.toNat), region := region.toNat, offset := off.toNat, key := key.toNat } ∧
        ∃ o', t.opOf l.cmd l.op = some o' ∧ o'.phase = .ready ∧ o'.done = some ⟨0, some (BitVec.ofNat 64 n.toNat), 0⟩)) ∧
    (s.lendsNow = true → 0 < mib.toNat → mib.toNat ≤ s.lendRoom → s.tir.loansOut.length < 65536 → Tab.has s.tir.loansOut n.toNat = false →
      Gives (.loanGrant true n node mib ses region off key) s (fun t => OnlyParts [.tir] s t ∧ t.tir.loansIn = s.tir.loansIn ∧
        Tab.get t.tir.loansOut n.toNat = some { borrower := node.toNat, mib := mib.toNat, notice := false } ∧
        ∀ m, m ≠ n.toNat → Tab.get t.tir.loansOut m = Tab.get s.tir.loansOut m))) ∧
  (∀ (s : State) (n : BitVec 17), s.running .tir = true →
    (s.on F.TIR_PLACE_CTL.LEND_EN = false → Tab.sorted s.tir.loansOut = true → Gives (.reclaim true n) s (fun t =>
      OnlyParts [.tir, .out] s t ∧ ∀ m l, Tab.get s.tir.loansOut m = some l →
        Tab.get t.tir.loansOut m = some { l with notice := true } ∧ (l.notice = false → .loanNotice m l.borrower ∈ t.out))) ∧
    (∀ l, Tab.get s.tir.loansIn n.toNat = some l → l.st = .active → Gives (.reclaim false n) s (fun t => OnlyParts [.tir] s t ∧
      Tab.get t.tir.loansIn n.toNat = some { l with st := .notice })) ∧
    (∀ l, Tab.get s.tir.loansOut n.toNat = some l → l.notice = true → Gives (.reclaimExpiry true n) s (fun t =>
      OnlyParts [.tir, .regs] s t ∧ RegsBut [Addr.TIR_CNT2] s t ∧ Tab.get t.tir.loansOut n.toNat = none ∧
      Rises s t F.TIR_CNT2.RECLAIMS 1)) ∧
    (∀ l, Tab.get s.tir.loansIn n.toNat = some l → l.st = .notice → Gives (.reclaimExpiry false n) s (fun t =>
      OnlyParts [.tir, .pe, .regs] s t ∧ RegsBut [Addr.TIR_CNT2] s t ∧ Tab.get t.tir.loansIn n.toNat = none ∧
      Rises s t F.TIR_CNT2.RECLAIMS 1 ∧ emptied s t n.toNat)) ∧
    (∀ l, Tab.get s.tir.loansIn n.toNat = some l → l.st = .active → Gives (.loanLost n) s (fun t =>
      OnlyParts [.tir, .pe, .fab, .regs, .records] s t ∧ RegsBut [Addr.TIR_CNT2, Addr.TIR_ERR] s t ∧
      Tab.get t.tir.loansIn n.toNat = none ∧ Rises s t F.TIR_CNT2.LOANS_LOST 1 ∧ t.fld F.TIR_ERR.LOAN_LOST = 1 ∧ emptied s t n.toNat ∧
      ∀ c op o, s.opOf c op = some o → o.usesLoan n.toNat = true → o.phase = .external → ∃ o', t.opOf c op = some o' ∧
        o'.phase = .ready ∧ o'.done = some ⟨ST.timeout, none, 0⟩)) ∧
    (∀ l, Tab.get s.tir.loansIn n.toNat = some l → l.st = .reserving →
      (∀ lender, s.lenderAt (l.tried + 1) = some lender → Gives (.loanLost n) s (fun t => OnlyParts [.tir, .out] s t ∧
        t.out = s.out ++ [.loanAsk n.toNat l.bytes lender] ∧ Tab.get t.tir.loansIn n.toNat = some { l with tried := l.tried + 1 })) ∧
      (∀ o, s.lenderAt (l.tried + 1) = none → s.opOf l.cmd l.op = some o → Gives (.loanLost n) s (fun t =>
        OnlyParts [.tir, .pe, .regs] s t ∧ RegsBut [Addr.TIR_CNT2] s t ∧ Rises s t F.TIR_CNT2.LOANS_REFUSED 1 ∧
        Tab.get t.tir.loansIn n.toNat = none ∧ t.opOf l.cmd l.op = some { o with phase := .ready, done := some ⟨ST.busy, none, 0⟩ }))) ∧
    (s.lendsNow = true → s.on F.TIR_PLACE_CTL.PLANNED = false → Gives (.loanAdvertisement none) s (fun t => OnlyParts [.out] s t ∧
      t.out = s.out ++ [.advert s.lendRoom])) ∧
    (∀ (m : NodeId) (mib : BitVec 24), s.isMember m.toNat = true → s.tir.adverts.length < 64 →
      Gives (.loanAdvertisement (some (m, mib))) s (fun t => OnlyParts [.tir] s t ∧ t.tir.loansIn = s.tir.loansIn ∧
        t.tir.loansOut = s.tir.loansOut ∧ Tab.get t.tir.adverts m.toNat = some mib.toNat)) ∧
    Gives (.lendEn true) s (fun t => OnlyParts [.regs] s t ∧ RegsBut [Addr.TIR_PLACE_CTL] s t ∧ t.fld F.TIR_PLACE_CTL.LEND_EN = 1) ∧
    (Tab.sorted s.tir.loansOut = true → Gives (.lendEn false) s (fun t => OnlyParts [.regs, .tir, .out] s t ∧
      RegsBut [Addr.TIR_PLACE_CTL] s t ∧ t.fld F.TIR_PLACE_CTL.LEND_EN = 0 ∧
      ∀ m l, Tab.get s.tir.loansOut m = some l → Tab.get t.tir.loansOut m = some { l with notice := true })))

/-- R53, R168 and R169: the HMAP operations. -/
def Obligations.RegionsAreMapped : Prop :=
  ∀ (s : State) (k : SlotNo) (x : Iss), CanIssue s k x → HasWord s x (x.pc + 1) → FreshOp x → x.i.op = 0x80 →
    let l := x.params s 64
    let b := HBlock.ofBytes l
    let maps (c : Instr) (v : Option Word) (n : Nat) (r : Option Region) (P : State → Prop) : Prop := Gives c s (fun t =>
      OnlySlot s t x ∧ Outstanding t x (fun o => o.done = some ⟨0, v, 0⟩ ∧ o.phase = s.heldPhase) ∧ OnlyRegion s t n r ∧ OnlyParts mapping s t ∧
      RegsBut [Addr.DST_CNT0] s t ∧ P t)
    (HasParams s x [x.blkAcc 64] 64 → x.i.imm32 = 0 → s.planned = false → s.createStatus b false = none →
      s.needsLent b.len = false → b.sealed = false →
      let n := if b.any then Tab.fresh s.regions 0 else b.region
      maps (.hmapCreate k) (some (BitVec.ofNat 64 n)) n (some b.toRegion) (fun t => ZeroedOnly s t b.base b.len)) ∧
    (∀ r, HasParams s x [x.blkAcc 64] 64 → x.i.imm32 = 1 → Tab.get s.regions b.region = some r →
      s.modifyStatus b.region r b false = none → s.needsLent (b.len - r.len) = false → s.mustFence 1 b = false →
      r.sealed = b.sealed → r.base % 4096 = 0 → r.len % 4096 = 0 → b.len ≤ r.len →
      maps (.hmapModify k) none b.region (some (b.over r)) (fun t => ZeroedOnly s t (r.base + b.len) (r.len - b.len))) ∧
    (∀ r, HasParams s x [x.blkAcc 64] 64 → x.i.imm32 = 2 → s.planned = false → b.notBare = false →
      Tab.get s.regions b.region = some r → s.mustFence 2 b = false → r.sealed = false → r.base % 4096 = 0 → r.len % 4096 = 0 →
      maps (.hmapDelete k) none b.region none (fun t => ZeroedOnly s t r.base r.len)) ∧
    (∀ r, HasParams s x [x.resAcc, x.blkAcc 64] 64 → x.i.imm32 = 3 → b.notBare = false → Tab.get s.regions b.region = some r →
      let lo := s.accDpa x.st x.resAcc
      WritesOne s x (x.region x.resAcc) lo 64 → Gives (.hmapRead k) s (fun t => OnlySlot s t x ∧
        AdmitsUnit s t lo (r.block b.region) (s.classAt (x.region x.resAcc) .d0) (.strand x.st.cmd x.c.nextOp) ∧
        Outstanding t x (fun o => o.units = [s.pst.nextUnit] ∧ o.done = some ⟨0, none, 0⟩) ∧ RegsBut admissionRegs s t ∧
        OnlyParts (.pe :: admission) s t))

/-- R53, R111, R130, R131 and R168: the QCTL operations. -/
def Obligations.QueuePairsAndProceduresAreManaged : Prop :=
  ∀ (s : State) (k : SlotNo) (x : Iss), CanIssue s k x → HasWord s x (x.pc + 1) → FreshOp x → x.i.op = 0x81 →
    HasParams s x [x.blkAcc 192] 192 →
    let l := x.params s 192
    let n := blkWord l 0
    let done (c : Instr) (v : Option Word) (ps : List Part) (rs : List Nat) (P : State → Prop) : Prop := Gives c s (fun t =>
      OnlyStrand s t x ∧ Outstanding t x (fun o => o.done = some ⟨0, v, 0⟩ ∧ o.phase = s.heldPhase) ∧ OnlyParts (.pe :: .pmu :: ps) s t ∧
      RegsBut rs s t ∧ P t)
    let others (t : State) (n : Nat) : Prop := t.pe.procs = s.pe.procs ∧ ∀ m, m ≠ n → Tab.get t.pe.qps m = Tab.get s.pe.qps m
    (x.i.imm32 = 0 →
      let q := QBlock.ofBytes l
      let m := Tab.fresh s.pe.qps 16
      let j := Tab.fresh s.regions 0
      s.qctlStatus q = none → s.needsLent journalLen = false →
      done (.qctlCreate k) (some (BitVec.ofNat 64 m)) (mapping ++ admission) admissionRegs (fun t => others t m ∧
        Tab.get t.pe.qps m = some (mkQp q j) ∧ (∀ i, i ≠ j → (Tab.get s.regions i).isSome = (Tab.get t.regions i).isSome) ∧
        ∃ r, Tab.get t.regions j = some r ∧ r.base = q.journal ∧ r.len = 262144 ∧ r.floor = .d2 ∧ r.downgrade = true ∧
          r.tenant = q.tenant ∧ r.grant = 1)) ∧
    (∀ q, x.i.imm32 = 1 → n < 2 ^ 14 → wordsZero l 1 = true → Tab.get s.pe.qps n = some q →
      (s.qpCmds n = [] → s.regionBusy q.jRegion = false → q.destroyer = [] → (∀ r, Tab.get s.regions q.jRegion = some r → r.sealed = false) →
        done (.destroy k) none (.fab :: mapping) [Addr.DST_CNT0] (fun t => others t n ∧ Tab.get t.pe.qps n = none ∧
          OnlyRegion s t q.jRegion none)) ∧
      (s.qpCmds n ≠ [] → Gives (.destroy k) s (fun t => OnlyStrand s t x ∧ OnlyParts [.pe, .pmu] s t ∧ others t n ∧
        Outstanding t x (fun o => o.done = none) ∧ ∃ q', Tab.get t.pe.qps n = some q' ∧ q'.life = .destroying ∧
          q'.destroyer = q.destroyer ++ [(x.st.cmd, x.c.nextOp)] ∧ q'.handles = q.handles))) ∧
    (∀ q, x.i.imm32 = 2 → n < 2 ^ 14 → wordsZero (l.take 64) 1 = true → (handlesOf l).any handleStray = false →
      Tab.get s.pe.qps n = some q → s.handlesBad q.tenant (handlesOf l) = false →
      done (.handles k) none [.phl, .out] [] (fun t => others t n ∧ Tab.get t.pe.qps n = some { q with handles := handlesOf l })) ∧
    (x.i.imm32 = 3 → n < 2 ^ 12 → wordsZero l 3 = true → blkWord l 2 ≤ 65536 →
      s.srcReady (blkWord l 1) (blkWord l 2) s.pst.nextUnit = true → (Tab.get s.pe.procs n).all (fun q => q.retired && !s.procRuns n) = true →
      let image := s.bytes (blkWord l 1) (blkWord l 2)
      s.verifyImage n image = none → done (.procLoad k) none [.regs, .phl, .out] [Addr.PE_LOAD_STATUS] (fun t => t.pe.qps = s.pe.qps ∧
        Tab.get t.pe.procs n = some { words := wordsOf (image.length / 16) image, retired := false } ∧
        (∀ m, m ≠ n → Tab.get t.pe.procs m = Tab.get s.pe.procs m) ∧ t.fld F.PE_LOAD_STATUS.PROC = n ∧
        t.fld F.PE_LOAD_STATUS.STATUS = 0)) ∧
    (∀ q, x.i.imm32 = 4 → n < 2 ^ 12 → wordsZero l 1 = true → Tab.get s.pe.procs n = some q →
      done (.procRetire k) none [.phl, .out] [] (fun t => t.pe.qps = s.pe.qps ∧ Tab.get t.pe.procs n = some { q with retired := true } ∧
        ∀ m, m ≠ n → Tab.get t.pe.procs m = Tab.get s.pe.procs m))

/-- R53, R136, R168, R171, R325 and R327: ADMIT, PLAN and the management request that installs a plan. -/
def Obligations.ReservationsAndPlansAreTaken : Prop :=
  (∀ (s : State) (k : SlotNo) (x : Iss), CanIssue s k x → HasWord s x (x.pc + 1) → FreshOp x →
    let l := x.params s 64
    let done (c : Instr) (d : OpDone) (ps : List Part) (P : State → Prop) : Prop := Gives c s (fun t => OnlySlot s t x ∧
      Outstanding t x (fun o => o.done = some d ∧ o.phase = if d.st = 0 then s.heldPhase else .ready) ∧ OnlyParts (.pe :: .pmu :: ps) s t ∧ P t)
    (x.i.op = 0x82 → x.i.imm32 = 0 → s.planned = false → HasParams s x [x.blkAcc 64] 64 →
      ∀ n ten, admitBlock l = (n, ten, false) → ¬ (n ≠ 0 ∧ s.planMissing = true) →
      (ten ≠ Tenant.none_ → s.admitMask n ten = 0 → done (.admit_ k) ⟨0, none, 0⟩ [.tenants, .phl, .out] (fun t =>
        Tab.get t.tenants n = some ten ∧ ∀ m, m ≠ n → Tab.get t.tenants m = Tab.get s.tenants m)) ∧
      (ten ≠ Tenant.none_ → s.admitMask n ten ≠ 0 → done (.admit_ k) ⟨ST.busy, some (BitVec.ofNat 64 (s.admitMask n ten)), 0⟩
        [.records, .tir, .out] (fun t => t.tenants = s.tenants)) ∧
      (ten = Tenant.none_ → n ≠ 0 → s.tenantOwns n = false → done (.admit_ k) ⟨0, none, 0⟩ [.tenants, .phl, .out] (fun t =>
        Tab.get t.tenants n = none ∧ ∀ m, m ≠ n → Tab.get t.tenants m = Tab.get s.tenants m))) ∧
    (x.i.op = 0x83 → x.i.imm32 = 1 → Passes s x [x.resAcc] true true → s.qpPriv x.st.qp = true →
      let lo := s.accDpa x.st x.resAcc
      WritesOne s x (x.region x.resAcc) lo 64 → Gives (.planQuery k) s (fun t => OnlySlot s t x ∧
        AdmitsUnit s t lo s.planQuery (s.classAt (x.region x.resAcc) .d0) (.strand x.st.cmd x.c.nextOp) ∧
        Outstanding t x (fun o => o.units = [s.pst.nextUnit] ∧ o.done = some ⟨0, none, 0⟩) ∧ RegsBut admissionRegs s t ∧
        OnlyParts (.pe :: admission) s t)) ∧
    (∀ p, x.i.op = 0x83 → x.i.imm32 = 0 → s.planned = true → HasParams s x [x.blkAcc (s.amendLen x)] (s.amendLen x) →
      let b := x.params s (s.amendLen x)
      let es := planEntries b (planCount b)
      planForm b = true → b.length = planLen (planCount b) → s.tir.plan = some p → planStore ≥ p.bytes.length + b.length →
      (planRegions b (planCount b)).any (fun e => e.2 != 0 && s.regionBusy e.1) = false →
      es.all (fun e => !entryStray e && (blkWord e 0 % 256 == 4)) = true → Gives (.planAmend k) s (fun t => OnlySlot s t x ∧
        OnlyParts [.pe, .pmu, .tir, .regs, .records, .phl, .out] s t ∧ RegsBut [Addr.TIR_PLAN_STATUS, Addr.TIR_CNT2, Addr.TIR_ERR] s t ∧
        (blkWord b 0 = p.id.toNat → leNat ((b.drop 8).take 4) = p.amend + 1 → s.planSigned b = true →
          Outstanding t x (fun o => o.done = some ⟨0, some (BitVec.ofNat 64 (p.amend + 1)), 0⟩ ∧ o.phase = s.heldPhase) ∧
          ∃ p', t.tir.plan = some p' ∧ p'.amend = p.amend + 1 ∧ p'.bytes = p.bytes ++ b ∧ p'.id = p.id ∧ p'.lend = p.lend) ∧
        (¬ (blkWord b 0 = p.id.toNat ∧ leNat ((b.drop 8).take 4) = p.amend + 1 ∧ s.planSigned b = true) →
          Outstanding t x (fun o => o.done = some ⟨ST.integrity, none, 0⟩) ∧ t.tir = s.tir ∧ Rises s t F.TIR_CNT2.PLAN_REJECTS 1 ∧
          t.fld F.TIR_ERR.PLAN_REJECT = 1)))) ∧
  (∀ (s : State) (path : Path) (b : List Byte), s.svc.proc ≠ 1 → s.running .ctl = true → s.running .tir = true →
    s.tenants.any (fun e => e.1 != 0) = false → b.length = planLen (planCount b) → b.length ≤ planStore →
    (planEntries b (planCount b)).all (fun e => !entryStray e && (blkWord e 0 == 4)) = true →
    Gives (.planInstall path b) s (fun t => OnlyParts [.tir, .regs, .pmu, .records, .phl, .out] s t ∧
      RegsBut [Addr.TIR_PLAN_STATUS, Addr.TIR_PLACE_CTL, Addr.TIR_CNT2, Addr.TIR_ERR] s t ∧
      (s.planSigned b = true → AnswersHeld s t path (leBytes 8 (blkWord b 0)) ∧
        t.fld F.TIR_PLACE_CTL.PLANNED = 1 ∧ t.fld F.TIR_PLAN_STATUS.VALID = 1 ∧
        ∃ p, t.tir.plan = some p ∧ p.id.toNat = blkWord b 0 ∧ p.amend = 0 ∧ p.entries = planCount b ∧ p.bytes = b) ∧
      (s.planSigned b = false → t.tir = s.tir ∧ Rises s t F.TIR_CNT2.PLAN_REJECTS 1 ∧
        ∃ d, t.out = s.out ++ [.result path ST.integrity d])))

/-- R108 to R123 and R133 to R135: a command's way through its queue pair. -/
def Obligations.CommandsRunThroughTheirQueue : Prop :=
  (∀ (s : State) (p : Port) (ld : BitVec 4) (n : BitVec 14) (v : BitVec 64) (q : Qp), s.portUp p = true → s.ldEnabled p ld.toNat = true →
    s.running .pe = true → Tab.get s.pe.qps n.toNat = some q →
    let only (t : State) (q' : Qp) : Prop := OnlyParts [.pe] s t ∧ t.pe.strands = s.pe.strands ∧ t.pe.cmds = s.pe.cmds ∧
      Tab.get t.pe.qps n.toNat = some q' ∧ ∀ m, m ≠ n.toNat → Tab.get t.pe.qps m = Tab.get s.pe.qps m
    let foreign (t : State) : Prop := t.pe = s.pe ∧ OnlyParts [.regs, .marks, .records] s t ∧
      RegsBut [Addr.PE_CNT3, Addr.PE_ERR] s t ∧ t.fld F.PE_ERR.DB_FOREIGN = 1 ∧ Rises s t F.PE_CNT3.FETCH_REJECTS 1
    (16 ≤ n.toNat → q.tenant = s.ldTenant p ld.toNat → v.toNat < q.depth →
      Gives (.sqTail p ld n (some v)) s (fun t => only t { q with sqTail := v.toNat }) ∧
      (ringGap q.depth q.cqHead v.toNat ≤ q.posted.length → Gives (.cqHead p ld n (some v)) s (fun t =>
        only t { q with cqHead := v.toNat, posted := q.posted.drop (ringGap q.depth q.cqHead v.toNat) }))) ∧
    (n.toNat < 16 ∨ q.tenant ≠ s.ldTenant p ld.toNat → Gives (.sqTail p ld n (some v)) s foreign ∧ Gives (.cqHead p ld n (some v)) s foreign) ∧
    Gives (.sqTail p ld n none) s (fun t => OnlyParts [.out] s t ∧
      t.out = s.out ++ [.doorbell p (if n.toNat < 16 then 0 else BitVec.ofNat 64 q.sqHead)]) ∧
    Gives (.cqHead p ld n none) s (fun t => OnlyParts [.out] s t ∧
      t.out = s.out ++ [.doorbell p (if n.toNat < 16 then 0 else BitVec.ofNat 64 q.cqTail)])) ∧
  (∀ (s : State) (n : BitVec 14) (q : Qp), s.fetches = true → Tab.get s.pe.qps n.toNat = some q → s.fetchable n.toNat q = true →
    s.fetchTurn n.toNat q = true → s.d0Pending (q.sqBase + 64 * q.sqHead) 64 = false → s.unitsNumbered = true →
    let e := QEntry.ofBytes (s.bytes (q.sqBase + 64 * q.sqHead) 64)
    let c := mkCmd n.toNat q e s.time (s.fetchCheck q e)
    let taken (t : State) (fseq : Nat) : Prop := ∃ q', Tab.get t.pe.qps n.toNat = some q' ∧
      q'.sqHead = (q.sqHead + 1) % q.depth ∧ q'.fseq = fseq ∧ q'.sqTail = q.sqTail ∧ t.pe.nextCmd = s.pe.nextCmd + 1
    (∀ r, s.fetchCheck q e = none → Tab.get s.regions q.jRegion = some r → Gives (.commandFetch n) s (fun t =>
      OnlyParts (.pe :: .fab :: admission) s t ∧ RegsBut admissionRegs s t ∧ taken t (q.fseq + 1) ∧
      t.cmdOf s.pe.nextCmd = some { c with state := .accepted } ∧ AdmitsUnit s t (q.jBase + 64 * (q.fseq % 4096))
        (c.journalBytes .accepted) .d2 (.journal s.pe.nextCmd JState.accepted.code))) ∧
    (∀ st, s.fetchCheck q e = some st → Gives (.commandFetch n) s (fun t => OnlyParts [.pe, .fab, .regs] s t ∧
      RegsBut [Addr.PE_CNT3] s t ∧ taken t q.fseq ∧ Rises s t F.PE_CNT3.FETCH_REJECTS 1 ∧
      ∃ c, t.cmdOf s.pe.nextCmd = some c ∧ c.rejected = true ∧ c.closed = true ∧ c.status = st ∧ c.fseq = 0 ∧ c.tag = e.tag))) ∧
  (∀ (s : State) (cmd : BitVec 32) (c : Cmd) (q : Qp) (r : Region), s.running .pe = true → s.cmdOf cmd.toNat = some c →
    Tab.get s.pe.qps c.qp = some q → Tab.get s.regions q.jRegion = some r → s.unitsNumbered = true →
    let writes (t : State) (c : Cmd) (st : JState) : Prop := HasUnit t s.pst.nextUnit (q.jBase + 64 * ((c.fseq + 4095) % 4096))
      (c.journalBytes st) .d2 (.journal cmd.toNat st.code)
    let parts (ps : List Part) (rs : List Nat) (t : State) : Prop := OnlyParts (.pe :: ps ++ admission) s t ∧ RegsBut (rs ++ admissionRegs) s t
    (∀ k, s.placeSlot q.priv = some k → s.pe.stopped = false → c.started = false → s.mayStart cmd.toNat c = true →
      s.qpSlot q = true →
      let prog : Prog := if c.inline then .inline c.words else .proc c.proc
      0 < (s.progWords prog).length → Gives (.strandStart cmd) s (fun t => parts [] [] t ∧
        writes t { c with started := true } .executing ∧ t.cmdOf cmd.toNat = some { c with started := true, state := .executing } ∧
        (∀ j, j ≠ k → t.strandAt j = s.strandAt j) ∧ ∃ st, t.strandAt k = some st ∧ st.cmd = cmd.toNat ∧ st.qp = c.qp ∧
          st.frames = [{ prog := prog, pc := 0, counters := [] }] ∧ st.h = q.handles ∧ st.scratch = [] ∧
          ∀ m < 32, st.reg m = if 1 ≤ m ∧ m ≤ 4 then c.args.getD (m - 1) 0 else 0)) ∧
    (s.mod.mode ≠ .save → c.settled = true → c.accepted = true → c.closing = false →
      let c' := { c with status := c.finalStatus, closing := true, tEnd := s.time }
      (c.failed = false → Gives (.commandDurable cmd) s (fun t => parts [] [] t ∧ writes t c' .durable ∧
        t.cmdOf cmd.toNat = some { c' with state := .durable })) ∧
      (c.failed = true → Gives (.commandDurable cmd) s (fun t => parts [.regs] [Addr.PE_CNT2] t ∧ Rises s t F.PE_CNT2.FAILED 1 ∧
        writes t c' .failed ∧ t.cmdOf cmd.toNat = some { c' with state := .failed }))) ∧
    (∀ m r, s.mod.mode ≠ .save → c.closed = true → q.life = .active → s.hst.reads = [] →
      let lo := q.cqBase + 32 * q.cqTail
      s.regionAt lo = some (m, r) → s.isHome r = true → s.rangeAway lo 32 = false →
      Gives (.completionPost cmd) s (fun t => parts [.bytes, .poison] [Addr.PE_CNT2] t ∧ Rises s t F.PE_CNT2.COMMANDS 1 ∧
        t.cmdOf cmd.toNat = none ∧ (∀ a, t.byte a = (cellIn (cellsAt lo (c.entry q.phase)) a).getD (s.byte a)) ∧
        t.pst.nextUnit = s.pst.nextUnit + (if c.state = .durable then 2 else 1) ∧
        ∃ q', Tab.get t.pe.qps c.qp = some q' ∧ q'.posted = q.posted ++ [c.fseq] ∧
          q'.cqTail = (if q.cqTail + 1 = q.depth then 0 else q.cqTail + 1) ∧
          q'.phase = (if q.cqTail + 1 = q.depth then !q.phase else q.phase)))) ∧
  (∀ (s : State) (k : SlotNo) (st : Strand) (c : Cmd) (o : Op), s.running .pe = true → s.strandAt k.toNat = some st →
    s.cmdOf st.cmd = some c → c.waitLimit ≠ 0 → st.stageWait = true → c.ops = [o] →
    (s.ceilingWaits o = [] → s.tierFetch o = true → c.onYield = false → Gives (.waitLimitExpiry k) s (fun t =>
      OnlyParts [.pe, .regs] s t ∧ RegsBut [Addr.PE_CNT0] s t ∧ Rises s t F.PE_CNT0.STAGE_TIMEOUTS 1 ∧
      Rises s t F.PE_CNT0.SLOW_PATHS 1 ∧ ∃ o', t.opOf st.cmd o.id = some o' ∧
        (s.sourceUnrestored o = true → o'.done = some ⟨ST.restoring, none, 0⟩ ∧ o'.phase = .ready) ∧
        (s.sourceUnrestored o = false → o' = { o with far := true }))) ∧
    (∀ u, s.ceilingWaits o = [u] → s.tierFetch o = false → u.record = none → u.dropRef = none → u.door = .strand st.cmd o.id →
      s.unitsNumbered = true → s.hst.reads = [] → Gives (.waitLimitExpiry k) s (fun t => OnlyParts [.pe, .pst] s t ∧
        t.pst.units = s.pst.units.filter (fun v => v.id != u.id) ∧ ∃ c', t.cmdOf st.cmd = some c' ∧
          ∀ h ∈ c'.hist, h.id = u.id → h.settle = .failed ST.ceiling)))

/-- R16, R17, R21, R45, R46, R56, R61 and R64: from the crossing to placement. -/
def Obligations.UnitsCommitInOrderAndArePlaced : Prop :=
  (∀ (s : State) (i : Island) (u : CUnit) (rest : List XItem) (b : List Byte), s.running .pst = true → s.unitsNumbered = true →
    u ∈ s.pst.units → u.committed = false → Tab.get s.xing 24 = some (.write u.id :: rest) → s.channel = none →
    (s.port .hp0).closing = false → (s.port .hp1).closing = false →
    let arrives (ps : List Part) (P : State → Prop) : Prop := Gives (.crossingItemArrival 12 true i .good b) s (fun t =>
      OnlyParts (.pst :: .crossings :: ps) s t ∧ (Tab.get t.xing 24 = some rest ∧ ∀ k, k ≠ 24 → Tab.get t.xing k = Tab.get s.xing k) ∧
      (∀ v ∈ s.pst.units, v.id ≠ u.id → v ∈ t.pst.units) ∧ P t)
    (u.volatile = false → arrives [] (fun t => { u with written := true } ∈ t.pst.units)) ∧
    (∀ c op, u.volatile = true → u.chained = true → u.hold = .none → u.charged = false → u.atomic = none → u.record = none →
      (∀ v ∈ s.pst.units, v.region = u.region → v.charged = true → v.committed = false → v.overlaps u.dpa u.len = false) →
      u.door = .strand c op → s.modeOut u = false → s.hst.reads = [] → arrives [.regions, .bytes, .poison, .pe] (fun t =>
        (∃ v ∈ t.pst.units, v.id = u.id ∧ v.committed = true ∧ v.reached = .d0) ∧
        (∀ a, t.byte a = (cellIn u.cells a).getD (s.byte a)) ∧
        ∀ cm, s.cmdOf c = some cm → ∃ cm', t.cmdOf c = some cm' ∧ ∀ h ∈ cm'.hist, h.id = u.id → h.settle = .reached .d0)) ∧
    (u.position = 0 → u.record = none → u.dropRef = none → (∃ c op, u.door = .strand c op) → s.hst.reads = [] →
      Gives (.crossingItemArrival 12 true i .resentBad b) s (fun t => OnlyParts [.pst, .crossings, .regs, .records, .pe] s t ∧
        RegsBut [Addr.GEN_XERR] s t ∧ t.fld F.GEN_XERR.LAST_XING = 12 ∧ (∀ v ∈ t.pst.units, v.id ≠ u.id) ∧
        ∀ c op cm, u.door = .strand c op → s.cmdOf c = some cm → ∃ cm', t.cmdOf c = some cm' ∧
          ∀ h ∈ cm'.hist, h.id = u.id → h.settle = .failed ST.internal))) ∧
  (∀ (s : State) (u : CUnit) (c : Sys2Proof.Class), s.running .pst = true → s.unitsNumbered = true → u ∈ s.pst.units →
    s.commitReady u = true → s.modeOut u = false → s.reachable u = some c → s.hst.reads = [] → u.record = none →
    u.volatile = false → s.phl.hmapIn = [] → (∀ a b d, u.door ≠ .fabric a b d) →
    (∀ v ∈ s.pst.units, v.committed = true → (s.pst.units.takeWhile (fun w => w.id != u.id)).contains v = false → v.overlaps u.dpa u.len = false) →
    (∀ e ∈ u.cells, u.dpa ≤ e.1 ∧ e.1 < u.dpa + u.len) → (∀ v ∈ s.pst.units, ∀ e ∈ v.cells, v.dpa ≤ e.1 ∧ e.1 < v.dpa + v.len) →
    (u.atomic.isSome = true → u.len = 8) →
    let cells := match u.atomic with
      | some a => cellsAt u.dpa (leBytes 8 (atomicStore a (s.word64 u.dpa)))
      | none => u.cells
    Gives (.commitUnit u.id) s (fun t =>
      OnlyParts [.pst, .bytes, .poison, .phl, .pe, .hst, .out, .regions, .regs, .pmu, .records] s t ∧
      RegsBut [Addr.PST_DUR_CNT0] s t ∧ (∀ a, t.byte a = (cellIn cells a).getD (s.byte a)) ∧
      (∃ v ∈ t.pst.units, v.id = u.id ∧ v.committed = true ∧ v.reached = c ∧ v.cells = cells) ∧
      (∀ v ∈ s.pst.units, v.id ≠ u.id → v ∈ t.pst.units) ∧ t.pst.nextUnit = s.pst.nextUnit ∧
      ∀ k op cm, u.door = .strand k op → s.cmdOf k = some cm → ∃ cm', t.cmdOf k = some cm' ∧ ∀ h ∈ cm'.hist, h.id = u.id → h.settle = .reached c)) ∧
  (∀ (s : State) (n : Nat) (e : Extent) (r : Region) (c op : Nat), s.running .pst = true → Tab.get s.pst.extents n = some e →
    e.opened = false → s.extentFits e = true → s.unitsNumbered = true →
    (e.door = .strand c op → Tab.get s.regions e.region = some r → Gives (.extentReservation n) s (fun t =>
      OnlyParts (.pe :: admission) s t ∧ RegsBut admissionRegs s t ∧ Tab.get t.pst.extents n = none ∧
      t.pst.nextUnit = s.pst.nextUnit + 1 ∧ ∃ u ∈ t.pst.units, u.id = s.pst.nextUnit ∧ u.dpa = e.dpa ∧ u.len = e.declared ∧
        u.cls = e.cls ∧ u.extent = true ∧ u.door = e.door)) ∧
    (∀ a b d, e.door = .fabric a b d → Gives (.extentReservation n) s (fun t => OnlyParts [.pst] s t ∧ t.pst.units = s.pst.units ∧
      Tab.get t.pst.extents n = some { e with opened := true }))) ∧
  (∀ (s : State) (u : CUnit), s.placing = true → s.unitsNumbered = true → u ∈ s.pst.units → u.committed = true →
    s.placeTurn u = true → s.unrestoredIn u.dpa u.len = false → s.repairing u.dpa u.len = false → s.nc.st = .off →
    s.memoriesSound = true → (u.cells.map (·.1)).Nodup → (∀ e ∈ u.cells, u.dpa ≤ e.1 ∧ e.1 < u.dpa + u.len) →
    (∀ v ∈ s.pst.units, ∀ e ∈ v.cells, v.dpa ≤ e.1 ∧ e.1 < v.dpa + v.len) → (∀ d ∈ s.phl.copies, ∀ e ∈ d.cells, d.dpa ≤ e.1 ∧ e.1 < d.dpa + d.span) →
    Gives (.placement false u.id) s (fun t => OnlyParts [.pst, .nc, .ddr, .mem, .regs, .pmu, .phl, .out] s t ∧ RegsBut [Addr.MEM_CNT3] s t ∧
      t.pst.units = s.pst.units.filter (fun v => v.id != u.id) ∧ ∀ a, t.byte a = s.byte a)) ∧
  (∀ (s s1 : State) (u : CUnit), s.placing = true → s.unitsNumbered = true → u ∈ s.pst.units → u.committed = true →
    s.placeTurn u = true → s.unrestoredIn u.dpa u.len = false → s.repairing u.dpa u.len = false →
    s.placeCells u.wpol u.dpa u.len u.cells = some s1 → Gives (.placement false u.id) s (fun t =>
      OnlyParts [.pst, .nc, .ddr, .mem, .regs, .pmu, .bytes, .phl, .out] s t ∧ t.pst.units = s.pst.units.filter (fun v => v.id != u.id) ∧
      t.nc = s1.nc ∧ t.ddr = s1.ddr)) ∧
  (∀ (s : State) (c : Copy), s.placing = true → c ∈ s.phl.copies → s.phl.copies.find? (fun d => d.msn == c.msn) = some c →
    c.committed = true → c.charged = true → (s.phl.copies.takeWhile (fun d => d.msn != c.msn)).any (fun d => d.region == c.region) = false →
    s.unrestoredIn c.dpa c.span = false → s.uncopiedIn c.dpa c.span = false → s.repairing c.dpa c.span = false → s.nc.st = .off →
    s.memoriesSound = true →
    Gives (.placement true c.msn) s (fun t => OnlyParts [.phl, .nc, .ddr, .mem, .regs, .pmu, .bytes, .out] s t ∧
      t.phl.copies = s.phl.copies.filter (fun d => d.msn != c.msn) ∧ t.pst = s.pst ∧
      ∀ a, cellIn c.cells a = none → t.byte a = s.byte a))

/-- R46, R78 to R82, R84 to R88, R235 and R275: requests of the hosts. -/
def Obligations.HostRequestsAreTakenAndAnswered : Prop :=
  (∀ (s : State) (p : Port) (ld : BitVec 4) (line : BitVec 46) (data : Line) (be : BitVec 64) (poison : Bool), s.portUp p = true →
    0 < (s.port p).credits → s.unitsNumbered = true →
    let writes (P : State → (Nat → Nat → Bool) → Prop) : Prop := Gives (.memWr p ld line data poison) s (fun t => P t (fun _ _ => true)) ∧
      Gives (.memWrPtl p ld line data be poison) s (fun t => P t (fun dpa a => be.getLsbD (a - dpa)))
    let completed (t : State) : Prop := ∃ dl, t.out.getLast? = some (.cxlCmp p ld.toNat dl)
    let returned (t : State) : Prop := s.mod.mode ≠ .save →
      (t.port p).credits + (t.port p).owed = (s.port p).credits + (s.port p).owed
    (∀ dpa n r, s.ldEnabled p ld.toNat = true → s.hdmDpa p ld.toNat (64 * line.toNat) = some dpa → s.inOwnFence p ld.toNat dpa = false →
      s.addrCase p ld.toNat dpa true = .region n r → s.unrestored dpa = false → writes (fun t keep => completed t ∧
        OnlyParts (.hst :: admission) s t ∧ RegsBut ((F.HST_CNT0.HELD p).addr :: (F.HST_CNT0.CREDIT_STALLS p).addr :: admissionRegs) s t ∧
        t.pst.nextUnit = s.pst.nextUnit + 1 ∧ (∃ i ∈ (t.ld p ld.toNat).taken, i.id = s.pst.nextUnit ∧ i.dpa = dpa) ∧
        ∃ u ∈ t.pst.units, u.id = s.pst.nextUnit ∧ u.region = n ∧ u.dpa = dpa ∧ u.len = 64 ∧ u.cls = r.floor ∧ u.poison = poison ∧
          u.door = .cxl p ld.toNat ∧ u.committed = false ∧ u.cells = (cellsAt dpa (lineBytes data)).filter (fun c => keep dpa c.1) ∧
          (u.hold = .credit → (t.port p).credits + 1 = (s.port p).credits ∧ (t.port p).owed = (s.port p).owed) ∧
          (u.hold ≠ .credit → returned t) ∧
          (s.ldHolds p ld.toNat = true ∨ (r.floor ≠ .d0 ∧ s.hst.headroom.contains r.tenant = false) →
            u.hold = (if s.poolRoom p then .pool else .credit) ∧ u.charged = false ∧ Rises s t (F.HST_CNT0.HELD p) 1) ∧
          (s.ldHolds p ld.toNat = false → r.floor = .d0 → u.hold = .none))) ∧
    (∀ dpa st, s.ldEnabled p ld.toNat = true → s.hdmDpa p ld.toNat (64 * line.toNat) = some dpa → s.inOwnFence p ld.toNat dpa = false →
      s.addrCase p ld.toNat dpa true = .fault st →
      writes (fun t _ => completed t ∧ returned t ∧ OnlyParts [.hst, .pst, .out, .regs, .pmu, .marks, .records] s t ∧
        t.pst.units = s.pst.units ∧
        RegsBut [(F.HST_CNT2.ADDR_FAULTS p).addr, (F.HST_ERR.ADDR_FAULT p).addr] s t ∧ t.fld (F.HST_ERR.ADDR_FAULT p) = 1 ∧
        Rises s t (F.HST_CNT2.ADDR_FAULTS p) 1 ∧ (t.ld p ld.toNat).failCount = min (2 ^ 64 - 1) ((s.ld p ld.toNat).failCount + 1) ∧
        ((s.ld p ld.toNat).status = 0 → (t.ld p ld.toNat).status = st ∧ (t.ld p ld.toNat).firstFail = dpa))) ∧
    (s.ldEnabled p ld.toNat = false → writes (fun t _ => OnlyParts [.regs, .out, .hst] s t ∧ t.fld (F.HST_ERR.ADDR_FAULT p) = 1 ∧
      Rises s t (F.HST_CNT2.ADDR_FAULTS p) 1 ∧ returned t ∧ t.hst.lds = s.hst.lds ∧ t.out.getLast? = some (.unsupported p 0))) ∧
    (s.ldEnabled p ld.toNat = true → s.hdmDpa p ld.toNat (64 * line.toNat) = none → writes (fun t _ => OnlyParts [.out, .hst] s t ∧
      returned t ∧ t.hst.lds = s.hst.lds)) ∧
    (∀ dpa, s.ldEnabled p ld.toNat = true → s.hdmDpa p ld.toNat (64 * line.toNat) = some dpa → s.inOwnFence p ld.toNat dpa = true →
      writes (fun t _ => completed t ∧ returned t ∧ OnlyParts [.out, .hst, .pmu] s t ∧ t.ld p ld.toNat =
        if dpa % 4096 = 0x80 then { s.ld p ld.toNat with status := 0, failCount := 0, firstFail := 0 } else s.ld p ld.toNat))) ∧
  (∀ (s : State) (p : Port) (ld : BitVec 4) (line : BitVec 46) (tag : BitVec 16), s.portUp p = true →
    s.readsOut p + s.fencesOut p < 512 →
    let reads (P : State → Prop) : Prop := Gives (.memRd p ld line tag) s P ∧ Gives (.memRdData p ld line tag) s P
    let h := (s.flitIn p).hst
    (s.ldEnabled p ld.toNat = false → reads (fun t => OnlyParts [.out, .hst] s t ∧ t.hst = h ∧ t.out = s.out ++ [.unsupported p tag.toNat])) ∧
    (s.ldEnabled p ld.toNat = true → s.hdmDpa p ld.toNat (64 * line.toNat) = none → reads (fun t => OnlyParts [.hst] s t ∧ t.hst = h)) ∧
    (∀ dpa, s.ldEnabled p ld.toNat = true → s.hdmDpa p ld.toNat (64 * line.toNat) = some dpa → dpa % 64 = 0 →
      s.inOwnFence p ld.toNat dpa = false →
      (∀ st, s.addrCase p ld.toNat dpa false = .fault st → reads (fun t => OnlyParts [.out, .pmu, .hst] s t ∧ t.hst = h ∧
        t.out = s.out ++ [.cxlData p ld.toNat tag.toNat [] true (s.devLoad p ld.toNat)])) ∧
      (∀ n r, s.addrCase p ld.toNat dpa false = .region n r →
        (s.readAtTwin r dpa 64 = true → reads (fun t => OnlyParts [.out, .pmu, .hst] s t ∧
          t.hst = { h with forwarded := s.hst.forwarded ++ [⟨p, ld.toNat, tag.toNat, dpa / 64⟩] } ∧
          t.out = s.out ++ [.cxlForward p ld.toNat tag.toNat (dpa / 64)])) ∧
        (s.readAtTwin r dpa 64 = false → s.unrestored dpa = false → NoFill s dpa 64 →
          (s.lineBlockedBut (s.openExtents dpa 64) dpa 64 s.pst.nextUnit = false → reads (fun t =>
            OnlyParts [.nc, .regs, .out, .pmu, .hst] s t ∧ t.hst = h ∧
            RegsBut [Addr.NC_CNT0, Addr.NC_CNT1, Addr.NC_ERR, Addr.MEM_CNT2] s t ∧ ∃ dl, t.out = s.out ++
              [.cxlData p ld.toNat tag.toNat (if s.poisoned dpa 64 then List.replicate 64 0
                else s.bytesFor s.pst.nextUnit (s.openExtents dpa 64) dpa 64) (s.poisoned dpa 64) dl])) ∧
          (s.lineBlockedBut (s.openExtents dpa 64) dpa 64 s.pst.nextUnit = true → reads (fun t => OnlyParts [.nc, .regs, .hst, .pmu] s t ∧
            t.hst = { h with reads := s.hst.reads ++
              [ReadReq.mk (.cxl p ld.toNat tag.toNat) dpa 64 s.pst.nextUnit none (s.openExtents dpa 64)] }))))) ∧
    (∀ dpa, s.ldEnabled p ld.toNat = true → s.hdmDpa p ld.toNat (64 * line.toNat) = some dpa → dpa % 64 = 0 →
      s.inOwnFence p ld.toNat dpa = true →
      let l := s.ld p ld.toNat
      let answers (b : List Byte) : Prop := reads (fun t => OnlyParts [.out, .hst] s t ∧ t.hst = h ∧
        ∃ dl, t.out = s.out ++ [.cxlData p ld.toNat tag.toNat b false dl])
      (dpa % 4096 = 0 → s.fencesOut p < 256 → reads (fun t => OnlyParts [.hst] s t ∧
        t.ld p ld.toNat = { l with waiting := l.waiting ++ [⟨s.pst.nextUnit, 0, 64, tag.toNat⟩] })) ∧
      (dpa % 4096 = 0x40 → answers (fenceBytes l l.seq s.pst.nextUnit (!l.settled s.pst.nextUnit) s.time)) ∧
      (dpa % 4096 ≠ 0 → dpa % 4096 ≠ 0x40 → answers (List.replicate 64 0)))) ∧
  (∀ (s : State) (p : Port) (ld : BitVec 4) (line : BitVec 46) (tag : BitVec 16), s.portUp p = true →
    Gives (.memInv p ld line tag) s (fun t => OnlyParts [.out, .hst] s t ∧ t.hst = (s.flitIn p).hst ∧ t.out = s.out ++
      [if s.ldEnabled p ld.toNat then .cxlInv p ld.toNat tag.toNat (s.devLoad p ld.toNat) else .unsupported p tag.toNat]) ∧
    Gives (.unsupportedRequest p true tag) s (fun t => OnlyParts [.out] s t ∧ t.out = s.out ++ [.unsupported p tag.toNat]) ∧
    Gives (.unsupportedRequest p false tag) s (fun t => t = s)) ∧
  (∀ (s : State) (p : Port) (ld : BitVec 4) (u : CUnit), s.oldestHeld p ld.toNat = some u → s.unitsNumbered = true →
    (u.free = true ∨ (s.chargeFits u = true ∧ s.tenantWaits u.tenant u.id = false)) → (u.volatile = true → u.written = false) →
    Gives (.heldWriteRelease p ld) s (fun t => OnlyParts [.pst, .regions, .dst, .phl, .out, .regs, .pmu, .records, .hst] s t ∧
      RegsBut admissionRegs s t ∧
      (∃ v ∈ t.pst.units, v.id = u.id ∧ v.hold = .none ∧ v.dpa = u.dpa ∧ (u.volatile = false → v.charged = true)) ∧
      (u.hold = .credit ∨ (u.hold = .pool ∧ s.heldIn p .credit ≠ []) → (s.port p).link = 2 → s.mod.mode ≠ .save →
        (t.port p).credits + (t.port p).owed = (s.port p).credits + (s.port p).owed + 1))) ∧
  (∀ (s : State), s.running .dst = true → Gives .headroomRefresh s (fun t => OnlyParts [.hst] s t ∧
    t.hst = { s.hst with headroom := (s.tenants.map (·.1)).filter (fun n => s.headroomOf n) }))

/-- R78, R79, R82, R89, R91, R93 to R97, R99, R100 and R103: links, fences, flush. -/
def Obligations.HostLinksAndFenceWindows : Prop :=
  (∀ (s : State) (p : Port) (ld : BitVec 4), s.fenceOpen p ld.toNat = true →
    let l := s.ld p ld.toNat
    let only (t : State) (h : HstState) (l' : LdState) : Prop := t.ld p ld.toNat = l' ∧ t.hst = { h with lds := t.hst.lds } ∧
      ∀ q m, (q, m) ≠ (p, ld.toNat) → m < 16 → t.ld q m = s.ld q m
    let answers (t : State) (tag : Nat) (b : List Byte) : Prop := ∃ dl, t.out = s.out ++ [.cxlData p ld.toNat tag b false dl]
    (∀ (off : BitVec 6) (len : BitVec 7) (tag : BitVec 16), s.readsOut p + s.fencesOut p < 512 → s.fencesOut p < 256 →
      Gives (.fenceRead p ld off len tag) s (fun t => OnlyParts [.hst] s t ∧ only t (s.flitIn p).hst { l with waiting := l.waiting ++
        [{ bound := s.pst.nextUnit, off := off.toNat, len := len.toNat, tag := tag.toNat }] })) ∧
    (∀ q rest, l.waiting = q :: rest → l.settled q.bound = true → Gives (.fenceComplete p ld) s (fun t =>
      OnlyParts [.hst, .out, .pmu] s t ∧
      only t s.hst { l with seq := l.seq + 1, waiting := rest, taken := l.taken.filter (fun i => decide (q.bound ≤ i.id)) } ∧
      answers t q.tag (((fenceBytes l (l.seq + 1) q.bound false s.time).drop q.off).take q.len))) ∧
    (∀ q rest, l.waiting = q :: rest → l.settled q.bound = false → Gives (.fenceTimeout p ld) s (fun t =>
      OnlyParts [.hst, .out, .regs] s t ∧ RegsBut [(F.HST_CNT2.FENCE_TIMEOUTS p).addr] s t ∧
      Rises s t (F.HST_CNT2.FENCE_TIMEOUTS p) 1 ∧ only t s.hst { l with waiting := rest } ∧
      answers t q.tag (((fenceBytes l l.seq q.bound true s.time).drop q.off).take q.len))) ∧
    (∀ (tag : BitVec 16), s.readsOut p + s.fencesOut p < 512 → Gives (.fenceStatusRead p ld tag) s (fun t =>
      OnlyParts [.out, .hst] s t ∧ t.hst = (s.flitIn p).hst ∧
      answers t tag.toNat (fenceBytes l l.seq s.pst.nextUnit (!l.settled s.pst.nextUnit) s.time))) ∧
    (0 < (s.port p).credits → Gives (.fenceClear p ld) s (fun t => OnlyParts [.hst, .out] s t ∧
      t.ld p ld.toNat = { l with status := 0, failCount := 0, firstFail := 0 } ∧
      (∀ q m, (q, m) ≠ (p, ld.toNat) → m < 16 → t.ld q m = s.ld q m) ∧ t.hst.reads = s.hst.reads ∧
      ∃ dl, t.out.getLast? = some (.cxlCmp p ld.toNat dl)))) ∧
  (∀ (s : State) (p : Port) (ld : BitVec 4) (tag : BitVec 16), s.portUp p = true → s.ldEnabled p ld.toNat = false →
    s.readsOut p + s.fencesOut p < 512 →
    let refused (t : State) : Prop := OnlyParts [.out, .hst] s t ∧ t.hst = (s.flitIn p).hst ∧ t.out = s.out ++ [.unsupported p tag.toNat]
    (∀ (off : BitVec 6) (len : BitVec 7), s.fencesOut p < 256 → Gives (.fenceRead p ld off len tag) s refused) ∧
    Gives (.fenceStatusRead p ld tag) s refused ∧
    (0 < (s.port p).credits → Gives (.fenceClear p ld) s (fun t => OnlyParts [.regs, .out, .hst] s t ∧ t.hst.lds = s.hst.lds ∧
      t.fld (F.HST_ERR.ADDR_FAULT p) = 1 ∧ t.out.getLast? = some (.unsupported p 0)))) ∧
  (∀ (s : State) (p : Port), s.portUp p = true →
    let keepsReads (t : State) : Prop := t.hst.lds = s.hst.lds ∧ t.hst.reads = s.hst.reads ∧ t.hst.headroom = s.hst.headroom
    ((s.port p).gpf = none → s.portSettled p s.pst.nextUnit = true → Gives (.gpfFlush p) s (fun t => OnlyParts [.out, .hst] s t ∧
      keepsReads t ∧ t.port p = s.port p ∧ t.out = s.out ++ [.gpfDone p])) ∧
    ((s.port p).gpf = none → s.portSettled p s.pst.nextUnit = false → Gives (.gpfFlush p) s (fun t => OnlyParts [.hst] s t ∧
      keepsReads t ∧ t.port p = { s.port p with gpf := some s.pst.nextUnit })) ∧
    (∀ b, (s.port p).gpf = some b →
      (s.portSettled p b = true → Gives (.gpfFlush p) s (fun t => OnlyParts [.out, .hst] s t ∧ keepsReads t ∧
        t.port p = { s.port p with gpf := none } ∧ t.out = s.out ++ [.gpfDone p])) ∧
      (s.portSettled p b = false → Gives (.gpfLate p) s (fun t => OnlyParts [.out, .hst, .regs, .records] s t ∧
        RegsBut [(F.HST_ERR.GPF_LATE p).addr] s t ∧ keepsReads t ∧ t.port p = { s.port p with gpf := none } ∧
        t.out = s.out ++ [.gpfDone p] ∧ t.fld (F.HST_ERR.GPF_LATE p) = 1))) ∧
    Gives (.viral p) s (fun t => OnlyParts [.hst, .records] s t ∧ keepsReads t ∧ t.port p = { s.port p with link := 3 }) ∧
    (∀ n, (s.port p).flitSeen n.toNat = true → Gives (.linkLevelRetry p n) s (fun t => OnlyParts [.regs] s t ∧
      RegsBut [(F.HST_CNT2.REPLAY_DISCARDS p).addr] s t ∧ Rises s t (F.HST_CNT2.REPLAY_DISCARDS p) 1))) ∧
  (∀ (s : State) (p : Port), s.running .hst = true →
    let others (t : State) : Prop := ∀ q ∈ [Port.hp0, Port.hp1], q ≠ p → t.port q = s.port q
    let down (t : State) : Prop := (t.port p).link = 0 ∧ (t.port p).credits = 0 ∧ t.hst.reads = s.hst.reads.filter (fun q => !q.onPort p) ∧
      t.hst.forwarded = s.hst.forwarded.filter (fun f => f.port != p) ∧ others t ∧
      ∀ n < 16, (t.ld p n).taken = (s.ld p n).taken ∧ (t.ld p n).waiting = []
    ((s.port p).link ≠ 0 → Gives (.linkDown p) s (fun t => OnlyParts [.hst, .regs, .records] s t ∧
      RegsBut [(F.HST_CNT2.LINK_DOWNS p).addr, (F.HST_ERR.LINK_DOWN p).addr] s t ∧ down t ∧ t.fld (F.HST_ERR.LINK_DOWN p) = 1 ∧
      Rises s t (F.HST_CNT2.LINK_DOWNS p) 1)) ∧
    (∀ (wide mld : Bool) (speed : BitVec 3) (ds : List Hdm), s.on (F.HST_PORT_CTL.ENABLE p) = true → (s.port p).link ≠ 2 →
      s.linkAllowed = true → s.lanesTrained 3 p.idx = true → 3 ≤ speed.toNat → speed.toNat ≤ 6 →
      let grant := 1024 - (s.heldIn p .credit).length
      Gives (.linkUp p wide speed mld ds) s (fun t => OnlyParts [.hst, .out] s t ∧ others t ∧
        t.port p = { s.port p with
          link := 2, width := if wide then 16 else 8, speed := speed.toNat, credits := grant, owed := 0, rxSeq := 0, mldSwitch := mld } ∧ t.hst.lds = s.hst.lds ∧ t.hst.reads = s.hst.reads ∧
        t.out = s.out ++ [.cxlAdvert p (hostCaps (mld && s.on (F.HST_PORT_CTL.MLD p))), .cxlCredits p grant] ∧
        (∀ d, (p, d) ∈ t.hst.decoders ↔ d ∈ (ds.filter hdmOk).take 16) ∧
        ∀ q d, q ≠ p → ((q, d) ∈ t.hst.decoders ↔ (q, d) ∈ s.hst.decoders))) ∧
    Gives (.hstPortEnable p true) s (fun t => OnlyParts [.hst, .regs] s t ∧ RegsBut [(F.HST_PORT_CTL.ENABLE p).addr] s t ∧ others t ∧
      t.fld (F.HST_PORT_CTL.ENABLE p) = 1 ∧ (t.port p).link = max 1 (s.port p).link ∧ (t.port p).closing = false) ∧
    (s.portCrossing p = false → Gives (.hstPortEnable p false) s (fun t => OnlyParts [.hst, .regs] s t ∧
      RegsBut [(F.HST_PORT_CTL.ENABLE p).addr] s t ∧ t.fld (F.HST_PORT_CTL.ENABLE p) = 0 ∧ down t)) ∧
    (s.portCrossing p = true → Gives (.hstPortEnable p false) s (fun t => OnlyParts [.hst, .regs] s t ∧ others t ∧
      RegsBut [(F.HST_PORT_CTL.ENABLE p).addr] s t ∧ t.fld (F.HST_PORT_CTL.ENABLE p) = 0 ∧ t.port p = { s.port p with closing := true })))

/-- R470, R473 to R477, R481, R486 and R489: records and counters. -/
def Obligations.RecordsAreKeptFlushedAndRead : Prop :=
  (∀ (s : State) (i : Island) (r : Record) (rest : List XItem), s.recUp = true →
    (Tab.get s.xing (64 + i.code)).getD [] = .record r :: rest →
    let r' := { r with no := s.contrail.nextNo, boot := s.boot % 65536, lostBefore := s.lost.getD r.island 0 }
    let arrives (ps : List Part) (P : State → Prop) : Prop := Gives (.contrailRecord i) s (fun t => OnlyParts (.records :: .contrail :: ps) s t ∧
      (Tab.get t.xing (64 + i.code)).getD [] = rest ∧ t.early = s.early ∧ P t)
    let joins (t : State) (ring : List Record) (unflushed : List Nat) : Prop := t.lost = s.lost.set r.island 0 ∧
      t.contrail.ring = (ring ++ [r']).drop (ring.length + 1 - 65536) ∧ t.contrail.unflushed = unflushed ++ [r'.no] ∧
      t.contrail.nextNo = (s.contrail.nextNo + 1) % 2 ^ 32 ∧ t.contrail.log = s.contrail.log ∧ t.contrail.reserve = s.contrail.reserve ∧
      t.contrail.clearPending = (if r.isClear then some (r'.no, r.arg0.toNat % 256) else s.contrail.clearPending) ∧
      t.contrail.flushing = (s.contrail.flushing || decide (s.fld F.REC_CTL.FAULT_SEV ≤ r.sev) ||
        decide (s.fld F.REC_CTL.FLUSH_WM ≤ unflushed.length + 1))
    (s.contrail.scanned = false → arrives [] (fun t => t.contrail = { s.contrail with waiting := s.contrail.waiting ++ [r] } ∧ t.lost = s.lost)) ∧
    (s.contrail.scanned = true →
      (s.contrail.unflushed.length < 8192 → arrives [] (fun t => joins t s.contrail.ring s.contrail.unflushed)) ∧
      (8192 ≤ s.contrail.unflushed.length →
        (∀ v, s.contrail.victim r.rank = some v → arrives [] (fun t =>
          joins t (s.contrail.ring.filter (fun x => x.no != v)) (s.contrail.unflushed.filter (· != v)))) ∧
        (s.contrail.victim r.rank = none →
          (r.rank = 6 → s.contrail.unflushed.length < 8448 → arrives [] (fun t => joins t s.contrail.ring s.contrail.unflushed)) ∧
          (r.rank = 6 → 8448 ≤ s.contrail.unflushed.length → arrives [.regs] (fun t => RegsBut [Addr.REC_CNT0, Addr.REC_ERR] s t ∧
            t.contrail.ring = s.contrail.ring ∧ t.contrail.nextNo = s.contrail.nextNo ∧ t.fld F.REC_ERR.LOST_HIGH = 1 ∧
            Rises s t F.REC_CNT0.LOST_HIGH 1)) ∧
          (r.rank ≠ 6 → arrives [.regs] (fun t => RegsBut [Addr.REC_CNT0] s t ∧ t.contrail.ring = s.contrail.ring ∧
            t.contrail.nextNo = s.contrail.nextNo ∧ Rises s t F.REC_CNT0.LOST_LOW 1)))))) ∧
  (∀ (s : State), s.recUp = true →
    (s.contrail.scanned = true → s.contrail.unflushed ≠ [] → Gives .flushMs s (fun t => OnlyParts [.contrail] s t ∧
      t.contrail = { s.contrail with flushing := true })) ∧
    (∀ (bad : List (BitVec 32)), s.contrail.scanned = false → s.early = [] → s.contrail.waiting = [] →
      let good (r : Record) : Prop := r ∈ s.contrail.log ++ s.contrail.reserve ∧ ∀ b ∈ bad, b.toNat ≠ r.no
      let scanned (P : State → Prop) : Prop := Gives (.recScan bad) s (fun t => OnlyParts [.contrail, .regs, .records] s t ∧
        RegsBut [Addr.REC_CNT1] s t ∧ t.contrail.scanned = true ∧ t.contrail.ring = [] ∧ t.contrail.unflushed = [] ∧
        t.lost = s.lost ∧ t.xing = s.xing ∧ (∀ m, good m → (∀ r, good r → r.no ≤ m.no) → t.contrail.nextNo = (m.no + 1) % 2 ^ 32) ∧
        ((¬ ∃ m, good m) → t.contrail.nextNo = 0) ∧ P t)
      ((∀ r, good r → r.isClear = false) → scanned (fun t => ∀ r, good r ↔ r ∈ t.contrail.log ++ t.contrail.reserve)) ∧
      (∀ c, good c → c.isClear = true → (∀ r, good r → r.isClear = true → r.no ≤ c.no) → (∀ r, good r → r.no = c.no → r = c) →
        scanned (fun t => t.contrail.clearPoint = c.no ∧ t.contrail.clearMask = c.arg0.toNat % 256 ∧ ∀ r,
          (good r ∧ r.cleared c.no (c.arg0.toNat % 256) = false) ↔ r ∈ t.contrail.log ++ t.contrail.reserve))) ∧
    (∀ (no : BitVec 32) (first : Bool),
      let sel := if first then (s.contrail.firstAt no.toNat).getD no.toNat else no.toNat
      let reads (P : State → Prop) : Prop := Gives (.recordRead no first) s (fun t => OnlyParts [.regs] s t ∧
        RegsBut (Addr.REC_RD_SEL :: (List.range 8).map Addr.REC_RD_DATA) s t ∧ t.fld F.REC_RD_SEL.RECORD_NO = sel % 2 ^ 32 ∧
        t.fld F.REC_RD_SEL.FIRST_AT = (if first then 1 else 0) ∧ P t)
      ((s.contrail.scanned = false ∨ s.contrail.nextNo ≤ sel) → reads (fun t => t.fld F.REC_RD_SEL.STATUS = 2)) ∧
      (s.contrail.scanned = true → sel < s.contrail.nextNo → (∀ r ∈ s.contrail.readable, r.no ≠ sel) →
        reads (fun t => t.fld F.REC_RD_SEL.STATUS = 1)) ∧
      (∀ r, s.contrail.scanned = true → sel < s.contrail.nextNo → s.contrail.readable.find? (fun x => x.no == sel) = some r →
        reads (fun t => t.fld F.REC_RD_SEL.STATUS = 0 ∧
          ∀ n < 8, (t.raw (Addr.REC_RD_DATA n)).toNat = leNat ((r.bytes.drop (8 * n)).take 8))))) ∧
  (∀ (s : State), s.running .contrail = true →
    (∀ (n : BitVec 9), s.on F.PMU_CTL.ENABLE = true → s.on (F.PMU_GRP.ENABLE (n.toNat / 16)) = true →
      s.fld (F.PMU_SEL.EVENT n.toNat) ≠ 0 → s.fld (F.PMU_CNT.COUNT n.toNat) = 2 ^ 48 - 1 →
      (n.toNat % 2 = 1 → s.fld (F.PMU_SEL.CHAIN n.toNat) = 0 → Gives (.counterWrap n) s (fun t => OnlyParts [.pmu] s t ∧
        t.fld (F.PMU_CNT.COUNT n.toNat) = 0 ∧ (t.raw (Addr.PMU_OVF (n.toNat / 64))).getLsbD (n.toNat % 64) = true)) ∧
      (n.toNat % 2 = 0 → s.fld (F.PMU_SEL.CHAIN (n.toNat + 1)) = 0 → Gives (.counterWrap n) s (fun t => OnlyParts [.pmu] s t ∧
        t.fld (F.PMU_CNT.COUNT n.toNat) = 0 ∧ (t.raw (Addr.PMU_OVF (n.toNat / 64))).getLsbD (n.toNat % 64) = true)) ∧
      (n.toNat % 2 = 0 → s.fld (F.PMU_SEL.CHAIN (n.toNat + 1)) = 1 → s.fld (F.PMU_CNT.COUNT (n.toNat + 1)) < 2 ^ 48 - 1 →
        Gives (.counterWrap n) s (fun t => OnlyParts [.pmu] s t ∧ t.fld (F.PMU_CNT.COUNT n.toNat) = 0 ∧
          t.fld (F.PMU_CNT.COUNT (n.toNat + 1)) = s.fld (F.PMU_CNT.COUNT (n.toNat + 1)) + 1 ∧
          t.raw (Addr.PMU_OVF (n.toNat / 64)) = s.raw (Addr.PMU_OVF (n.toNat / 64))))) ∧
    Gives .clearAll s (fun t => OnlyParts [.pmu] s t ∧ (∀ n < 512, t.fld (F.PMU_CNT.COUNT n) = 0) ∧
      ∀ n < 8, t.raw (Addr.PMU_OVF n) = 0))

/-- R325, R338, R349, R393, R478 to R481, R490 and R491: tokens, debug access and JTAG. -/
def Obligations.AuthorisedOperationsNeedTheirToken : Prop :=
  (∀ (s : State) (path : Path), s.running .aon = true →
    let touched := [Addr.DBG_AUTH_CMD, Addr.DBG_CNT0, Addr.DBG_AUTH_TAG 0, Addr.DBG_AUTH_TAG 1, Addr.DBG_AUTH_TAG 2, Addr.DBG_AUTH_TAG 3]
    let evaluated (t : State) (st : Status) (inst : Nat) : Prop := t.fld F.DBG_AUTH_CMD.STATUS = st.toNat ∧
      (∀ n < 4, t.raw (Addr.DBG_AUTH_TAG n) = 0) ∧ t.dbg.nonce = s.freeCtr ∧ t.freeCtr = s.freeCtr + 1 ∧
      (TakesRecord s .aon sevAudit → ∃ r ∈ t.recordsFrom .aon, r.sev = sevAudit ∧ r.cat = 7 ∧ r.inst = inst ∧
        r.arg0 = BitVec.ofNat 64 s.authArg)
    let refused (t : State) (op : Nat) (st : Status) : Prop := OnlyParts [.regs, .draws, .dbg, .records] s t ∧ RegsBut touched s t ∧
      t.dbg = { s.dbg with nonce := s.freeCtr, refusedAt := some s.time } ∧ Rises s t F.DBG_CNT0.REFUSED 1 ∧ evaluated t st (128 + op)
    let auth (c : Instr) (op : Nat) (st : Status) (ps : List Part) (rs : List Nat) (P : State → Prop) : Prop :=
      (s.tooSoon = false → (mctpOnly op = false ∨ path = .mctp) → Gives c s (fun t =>
        (s.tokenGood op = true → st = 0 → OnlyParts (.regs :: .draws :: .dbg :: .records :: ps) s t ∧ RegsBut (rs ++ touched) s t ∧
          Rises s t F.DBG_CNT0.ACCEPTED 1 ∧ evaluated t 0 op ∧ P t) ∧
        (s.tokenGood op = true → st ≠ 0 → refused t op st) ∧ (s.tokenGood op = false → refused t op ST.key))) ∧
      (s.tooSoon = true → (mctpOnly op = false ∨ path = .mctp) → Gives c s (fun t => OnlyParts [.regs] s t ∧
        RegsBut [Addr.DBG_AUTH_CMD] s t ∧ t.fld F.DBG_AUTH_CMD.STATUS = ST.busy.toNat)) ∧
      (mctpOnly op = true → path ≠ .mctp → Gives c s (fun t => OnlyParts [.regs] s t ∧
        RegsBut [Addr.DBG_AUTH_CMD] s t ∧ t.fld F.DBG_AUTH_CMD.STATUS = ST.rights.toNat))
    let keepsDbg (t : State) : Prop := t.dbg = { s.dbg with nonce := s.freeCtr }
    auth (.contrailClear path) 1 (if !s.recUp then ST.mode else if s.authArg < 256 then 0 else ST.fault) [] [] keepsDbg ∧
    (s.seq.st = .latched → auth (.seqUnlatch path) 2 (if s.authArg = 0 then 0 else ST.fault) [.seq] [] (fun t => keepsDbg t ∧
      t.seq.st = .off ∧ t.seq.bootPhase = 0 ∧ t.seq.bootFail = 0 ∧ t.seq.en = s.seq.en ∧ t.seq.codes = s.seq.codes)) ∧
    auth (.quarantineClear path) 4 (if unitMaskOk s.authArg then 0 else ST.fault) [.cip] [Addr.CIP_QUAR] (fun t => keepsDbg t ∧
      t.raw Addr.CIP_QUAR = s.raw Addr.CIP_QUAR &&& ~~~(BitVec.ofNat 64 s.authArg) ∧ t.cip.fabricRoot = s.cip.fabricRoot ∧
      t.cip.sealRoot = s.cip.sealRoot ∧ t.cip.logs = s.cip.logs) ∧
    auth (.debugUnlock path) 6 (if s.authArg ≤ 1440 then 0 else ST.fault) [] [] (fun t => t.dbg = { s.dbg with
      nonce := s.freeCtr, unlocked := some (if s.authArg = 0 then 0 else s.time + s.authArg * 60000000000) }) ∧
    (∀ key, auth (.planKey path key) 5 (if key.length = 97 ∧ key.head? = some 0x04 ∧ s.namesKey key = true then 0 else ST.fault) [.tir] []
      (fun t => keepsDbg t ∧ t.tir = { s.tir with planKey := key })) ∧
    (∀ n ct tag, (s.authArg = 2 ∨ s.authArg = 3) → s.rootBlank s.authArg = true →
      auth (.rootProvision path n ct tag) 3 (match provisioned n ct tag with
        | some k => if k.length = 32 then 0 else ST.fault
        | none => ST.key) [.cip] [] (fun t => keepsDbg t ∧ ∀ k, provisioned n ct tag = some k →
          t.cip = (if s.authArg = 2 then { s.cip with fabricRoot := some (BitVec.ofNat 256 (beNat k)) }
            else { s.cip with sealRoot := some (BitVec.ofNat 256 (beNat k)) }))) ∧
    (∀ n ct tag, (s.authArg = 2 ∨ s.authArg = 3) → s.rootBlank s.authArg = false →
      auth (.rootProvision path n ct tag) 3 ST.rights [] [] (fun _ => True)) ∧
    (∀ n ct tag, s.running .cfl = true → auth (.adminSet path n ct tag) 7 (match provisioned n ct tag with
        | some k => if k.length = 32 ∧ s.namesKey k = true then 0 else ST.fault
        | none => ST.key) [] [] (fun t => ∀ k, provisioned n ct tag = some k →
          t.dbg = { s.dbg with nonce := s.freeCtr, adminKey := some k, adminHeld := some k, adminDone := true })) ∧
    Gives .nonceLife s (fun t => OnlyParts [.dbg, .draws] s t ∧ keepsDbg t ∧ t.freeCtr = s.freeCtr + 1) ∧
    (∀ m, s.dbg.unlocked = some m → m ≠ 0 → Gives .unlockExpiry s (fun t => OnlyParts [.dbg] s t ∧
      t.dbg = { s.dbg with unlocked := none })) ∧
    (s.dbg.unlocked = some 0 → Gives .unlockExpiry s (fun t => t = s)) ∧
    Gives .lock s (fun t => OnlyParts [.dbg] s t ∧ t.dbg = { s.dbg with unlocked := none })) ∧
  (∀ (s : State),
    let loads (c : Instr) (pins instr : Nat) (ps : List Part) (P : List Byte → State → Prop) : Prop := Gives c s (fun t =>
      OnlyParts (.pins :: .out :: ps) s t ∧ t.eid = s.eid ∧ t.jtagPins = pins ∧ ∃ d, t.out = s.out ++ [.jtag instr d] ∧ P d t)
    let refused (c : Instr) : Prop := loads c 0 0 [.regs] (fun d t => d = [] ∧ RegsBut [Addr.DBG_CTL] s t ∧
      t.fld F.DBG_CTL.JTAG_REFUSED = 1)
    loads .bypass 0 0 [] (fun d _ => d = []) ∧ loads .idcode 0 1 [] (fun d _ => leNat d = 0x19640C9F) ∧
    loads .samplePreload 0 2 [.draws] (fun d t => d.length = 8 ∧ t.freeCtr = s.freeCtr + 1) ∧
    (s.seq.st = .off ∨ s.seq.st = .latched → loads .extest 1 3 [] (fun d _ => d = []) ∧ loads .clamp 2 4 [] (fun d _ => d = []) ∧
      loads .highz 3 5 [] (fun d _ => d = [])) ∧
    (s.seq.st ≠ .off → s.seq.st ≠ .latched → refused .extest ∧ refused .clamp ∧ refused .highz) ∧
    (s.dumpOpen = true → loads .scandump 0 8 [.draws] (fun _ t => s.freeCtr < t.freeCtr) ∧
      ∀ a, loads (.sramdump a) 0 9 [.draws] (fun d t => d.length = 8 ∧ t.freeCtr = s.freeCtr + 1)) ∧
    (s.dumpOpen = false → refused .scandump ∧ ∀ a, refused (.sramdump a)))

/-- R184, R189 to R191, R195, R196, R199, R201, R209, R213 and R216: packets that carry a PSN. -/
def Obligations.FabricMessagesAreTakenIn : Prop :=
  (∀ (s : State) (p : FabPort) (k : Packet) (x : Session) (g : List Grant) (r : Region),
    Tab.get s.regions k.region = some r →
    let n := k.session
    let lo := r.base + k.offset
    let admits (t : State) (len : Nat) (cells : List Host.Cell) (a : Option Atomic) : Prop :=
      OnlyParts (.fab :: admission) s t ∧ RegsBut admissionRegs s t ∧ OnlySession s t n ∧ t.pst.nextUnit = s.pst.nextUnit + 1 ∧
      (∃ u ∈ t.pst.units, u.id = s.pst.nextUnit ∧ u.dpa = lo ∧ u.len = len ∧ u.cells = cells ∧ u.cls = msgClass r k ∧
        u.door = .fabric n k.msg k.final ∧ u.atomic = a ∧ u.committed = false) ∧
      Received t k x (fun y => y.grants = g ∧ ∃ m ∈ y.rx, m.msg = k.msg ∧
        m.units = [{ idx := 0, unit := s.pst.nextUnit, settle := .pending }])
    (NewMessage s p k x 1 g → s.wantsWhole 1 k.region = false → s.messageStatus n x k = none →
      Gives (.write p k) s (fun t => admits t k.payload.length (cellsAt lo k.payload) none)) ∧
    (NewMessage s p k x 5 g → s.messageStatus n x k = none → Gives (.atomic p k) s (fun t =>
      admits t 8 [] (some (if k.subop then .cas k.w5 k.w6 else .add k.w5)))) ∧
    (∀ id e l, NewMessage s p k x 2 g → s.messageStatus n x k = none → s.isHome r = true → s.extentOf n k.msg = some (id, e) →
      e.arrived = [] → e.got = 0 → k.payload.length = k.msgLen → Tab.get s.cip.logs k.region = some l → Gives (.append p k) s (fun t =>
        OnlyParts [.fab, .pst, .cip, .out, .pmu] s t ∧ OnlySession s t n ∧ t.pst.units = s.pst.units ∧ Tab.get t.pst.extents id = none ∧
        (∃ l' i, Tab.get t.cip.logs k.region = some l' ∧ i ∈ l'.items ∧ i.payload = k.payload ∧ i.ready = true ∧ i.cls = .d3 ∧
          i.door = .fabric n k.msg k.final ∧ l'.nextId = l.nextId + 1) ∧ Received t k x (fun y => ∃ m ∈ y.rx, m.msg = k.msg))) ∧
    (∀ far, NewMessage s p k x 3 g → s.messageStatus n x k = none → s.readAtTwin r lo k.msgLen = false →
      s.repairing lo k.msgLen = false → (∀ q ∈ pagesOf lo k.msgLen, s.unrestored (16384 * q) = false) → s.phl.copies = [] →
      (∀ u ∈ s.pst.units, u.committed = true) → s.hst.reads = [] → Clean s lo k.msgLen → k.msgLen ≤ x.psize → x.tx = [] →
      x.replies = [] → x.mayNumber = true →
      Gives (.readReq p k far) s (fun t => OnlyParts [.fab, .hst, .out, .pmu] s t ∧ OnlySession s t n ∧ t.hst.reads = [] ∧
        t.hst.lds = s.hst.lds ∧ Received t k x (fun y => y.grants = g ∧
          Answered y { msg := k.msg, status := 0, cls := 0, map := 0, result := 0, torn := false }) ∧
        Leaves s t x (fun d => d.typ = 4 ∧ d.msg = k.msg ∧ d.payload = s.bytes lo k.msgLen)))) ∧
  (∀ (s : State) (p : FabPort) (k : Packet) (x : Session) (g : List Grant),
    let n := k.session
    (NewMessage s p k x 6 g → s.messageStatus n x k = none → Gives (.fence p k) s (fun t => OnlyParts [.fab, .out, .pmu] s t ∧
      OnlySession s t n ∧ Received t k x (fun y => y.grants = g ∧ y.outcomes = x.outcomes.filter (fun o => decide (k.msg < o.1)) ∧
        Answered y (x.fenceAck k.msg)))) ∧
    (∀ m, x.outcomes.find? (fun o => decide (o.1 < k.msg) && o.2.1 != 0) = some m → (∀ o ∈ x.outcomes, o.2.1 ≠ 0 → m.1 ≤ o.1) →
      (x.fenceAck k.msg).status = m.2.1) ∧
    ((∀ o ∈ x.outcomes, o.1 < k.msg → o.2.1 = 0) → (x.fenceAck k.msg).status = 0) ∧
    ((∀ o ∈ x.outcomes, k.msg ≤ o.1) → x.fenceAck k.msg = { msg := k.msg, status := 0, cls := 3, map := 0, result := 0, torn := false }) ∧
    (∀ q m r, NewMessage s p k x 10 g → s.messageStatus n x k = none → Tab.get s.pe.qps (bitsOf k.w5 0 14) = some q →
      q.tenant = x.tenant → (q.sqTail + 1) % q.depth ≠ q.sqHead → s.regionAt (q.sqBase + 64 * q.sqTail) = some (m, r) →
      Gives (.submit p k) s (fun t => OnlyParts (.fab :: .pe :: admission) s t ∧ RegsBut admissionRegs s t ∧ OnlySession s t n ∧
        AdmitsUnit s t (q.sqBase + 64 * q.sqTail) k.payload .d0 (.fabric n k.msg false) ∧ t.pe.cmds = s.pe.cmds ∧
        t.pe.strands = s.pe.strands ∧ Tab.get t.pe.qps (bitsOf k.w5 0 14) = some { q with sqTail := (q.sqTail + 1) % q.depth } ∧
        Received t k x (fun y => ∃ m ∈ y.rx, m.msg = k.msg ∧ m.units.map (·.unit) = [s.pst.nextUnit]))) ∧
    (NewPacket s p k x 1 → s.twinWrite x 1 = true → x.rx = [] → x.rxBase = k.msg → x.isRetired k.msg = false → pktCount x k = 1 →
      x.parked = [] → s.ContextIn n → x.st = .open_ → (∀ u ∈ s.pst.units, u.hold ≠ .order) → Gives (.write p k) s (fun t =>
        OnlyParts [.fab, .out, .pmu] s t ∧ OnlySession s t n ∧ Received t k x (fun y => y.grants = x.grants ∧ Answered y {
          msg := k.msg, status := 0, cls := 0, map := 0, result := w64 ((s.phl.rxNext + 2 ^ 32 - 1) % 2 ^ 32), torn := false }))) ∧
    (∀ m, NewPacket s p k x 4 → readGranted x k = true → m ∈ x.tx → m.msg = k.msg → m.typ = 3 → m.len = k.msgLen → (∀ e ∈ m.back, e.1 ≠ k.offset) →
      Gives (.readData p k) s (fun t => OnlyParts [.fab, .out, .pmu] s t ∧ OnlySession s t n ∧ Received t k x (fun y =>
        { m with back := m.back ++ [(k.offset, k.payload)] } ∈ y.tx ∧ ∀ o ∈ x.tx, o.msg ≠ k.msg → o ∈ y.tx)))) ∧
  (∀ (s : State) (p : FabPort) (k : Packet), s.fabUp p = true →
    let rows (P : State → Prop) : Prop := (k.typ = 1 → Gives (.write p k) s P) ∧ (k.typ = 2 → Gives (.append p k) s P) ∧
      (k.typ = 3 → ∀ far, Gives (.readReq p k far) s P) ∧ (k.typ = 5 → Gives (.atomic p k) s P) ∧
      (k.typ = 6 → Gives (.fence p k) s P) ∧ (k.typ = 10 → Gives (.submit p k) s P)
    let counts (f : Fld) (ps : List Part) (t : State) : Prop := OnlyParts (.regs :: ps) s t ∧ RegsBut [f.addr] s t ∧ Rises s t f 1
    (packetOk k = false → rows (counts F.FAB_CNT4.MALFORMED []) ∧
      (k.typ = 4 → Gives (.readData p k) s (counts F.FAB_CNT4.MALFORMED []))) ∧
    (packetOk k = true → s.gate p k = none → rows (counts F.FAB_CNT0.STRANGERS [.marks, .records]) ∧
      (k.typ = 4 → Gives (.readData p k) s (counts F.FAB_CNT0.STRANGERS [.marks, .records]))) ∧
    (∀ x, packetOk k = true → s.gate p k = some x → s.fits x k = true →
      (∀ e, x.kept.find? (fun q => q.psn == k.psn) = some e → k.tagOk = true → sameCopy e.pkt k = true → e.port ≠ p →
        rows (fun t => OnlyParts [.fab, .pmu] s t ∧ OnlySession s t k.session ∧
          t.ses k.session = some { x with kept := x.kept.filter (fun q => q.psn != k.psn) })) ∧
      ((∀ q ∈ x.kept, q.psn ≠ k.psn) → x.missed.contains (k.psn, p) = false →
        (∀ a, x.isRetired k.msg = true → x.acks.find? (fun a => a.msg == k.msg) = some a → MayControl x →
          rows (fun t => counts (if x.torn.contains k.msg then F.FAB_CNT1.LATE_REMAINDER else F.FAB_CNT0.DUP_DISCARDS) [.fab, .out] t ∧
            OnlySession s t k.session ∧ Leaves s t x (fun d => d.typ = 7 ∧ d.msg = k.msg))) ∧
        (x.isRetired k.msg = false → psnDist x k.psn < 4096 → x.sack.contains k.psn = false → s.twinWrite x k.typ = false →
          spend k.typ k.msg k.cost (s.wantsWhole k.typ k.region) x.grants = none →
          rows (counts F.FAB_CNT4.CREDIT_OVERRUNS [])))) ∧
    (∀ x g st, NewMessage s p k x k.typ g → s.messageStatus k.session x k = some st → rows (fun t =>
      OnlyParts [.fab, .pst, .out, .regs, .pmu, .marks, .records] s t ∧ RegsBut [Addr.FAB_CNT3] s t ∧ t.pst.units = s.pst.units ∧
      OnlySession s t k.session ∧ Received t k x (fun y => Answered y (refusal k.msg st)))) ∧
    (∀ x g, NewPacket s p k x k.typ → spend k.typ k.msg k.cost (s.wantsWhole k.typ k.region) x.grants = some g → x.isRetired k.msg = false →
      s.twinWrite x k.typ = false → s.fab.resident.contains (2 * k.session) = false → rows (fun t => OnlyParts [.fab, .out, .regs, .pmu] s t ∧
        RegsBut [Addr.FAB_CNT2] s t ∧ Rises s t F.FAB_CNT2.CTX_PARKED 1 ∧ OnlySession s t k.session ∧ Received t k x (fun y =>
          y.grants = g ∧ y.rx = x.rx ∧ (∃ e ∈ y.parked, e.2.1 = k) ∧ y.parked.length = x.parked.length + 1)))) ∧
  (∀ (s : State) (n : SessionNo) (x : Session), s.running .fab = true → s.ses n.toNat = some x → x.parked ≠ [] →
    (s.bringContext (2 * n.toNat) = none → x.stalled = false → Gives (.contextFetch n) s (fun t => OnlyParts [.fab, .regs] s t ∧
      RegsBut [Addr.FAB_CNT2] s t ∧ Rises s t F.FAB_CNT2.CTX_FETCH_STALLS 1 ∧ OnlySession s t n.toNat ∧
      t.ses n.toNat = some { x with stalled := true })) ∧
    (∀ p k r, x.parked = [(p, k, [])] → s.ctxRoom (s.fab.resident.filter (· != 2 * n.toNat)) (2 * n.toNat) = true → k.typ = 1 →
      k.session = n.toNat → x.rx = [] → x.rxBase = k.msg → x.isRetired k.msg = false → s.twinWrite x 1 = false →
      pktCount x k = 1 → s.unitsNumbered = true → (∀ u ∈ s.pst.units, u.hold ≠ .order) → s.messageStatus n.toNat x k = none →
      s.wantsWhole 1 k.region = false → Tab.get s.regions k.region = some r → k.idx = 0 → packetOk k = true → Gives (.contextFetch n) s (fun t =>
        OnlyParts (.fab :: admission) s t ∧ RegsBut admissionRegs s t ∧ OnlySession s t n.toNat ∧
        AdmitsUnit s t (r.base + k.offset) k.payload (msgClass r k) (.fabric n.toNat k.msg k.final) ∧
        t.fab.resident.contains (2 * n.toNat) = true ∧ ∃ y, t.ses n.toNat = some y ∧ y.parked = [] ∧ y.stalled = false)))

/-- R183, R186, R187, R193, R200, R202, R205, R207, R214 and R218: control packets, retransmission, epochs. -/
def Obligations.ControlPacketsAndSessionsAdvance : Prop :=
  (∀ (s : State) (p : FabPort) (k : Packet) (x : Session),
    let n := k.session
    let one (t : State) (y : Session) : Prop := OnlySession s t n ∧ t.ses n = some y
    (CtlPacket s p k x 7 → s.isTwinSes x = false →
      let far : Status := BitVec.ofNat 8 (bitsOf k.w2 32 8)
      let y : Session := { x with peerKeyEpoch := max x.peerKeyEpoch (bitsOf k.w3 0 32) }
      (∀ m, x.tx.find? (fun m => m.msg == k.msg && m.answer.isNone) = some m →
        (∀ o, isViolation far = false → far ≠ ST.poison → x.st = .open_ → ¬ (m.typ = 3 ∧ far = 0) → s.opOf m.cmd m.op = some o →
          Gives (.ack p k) s (fun t => OnlyParts [.fab, .pe] s t ∧ one t { y with tx := x.tx.filter (fun q => q.msg != k.msg) } ∧
            ∃ o', t.opOf m.cmd m.op = some o' ∧ o'.phase = .ready ∧ ∃ d, o'.done = some d ∧ d.st = far ∧
              d.cls = bitsOf k.w2 40 2 ∧ (d.st = 0 → m.typ = 5 → d.val = some k.w6))) ∧
        (m.typ = 3 → far = 0 → Gives (.ack p k) s (fun t => OnlyParts [.fab] s t ∧ one t { y with
          tx := updAll (fun q => q.msg == k.msg) (fun q => { q with answer := some (0, bitsOf k.w2 40 2, k.w6) }) x.tx }))) ∧
      (x.tx = [] → Gives (.ack p k) s (fun t => OnlyParts [.fab] s t ∧ one t y))) ∧
    (CtlPacket s p k x 8 → x.tx = [] → x.replies = [] → x.st = .open_ → s.turnUnit n = none → s.turnSubmit n = none →
      let cum := (bitsOf k.w2 0 32 + 1) % 2 ^ 32
      Gives (.receipt p k) s (fun t => OnlyParts [.fab] s t ∧ OnlySession s t n ∧ ∃ y, t.ses n = some y ∧ y.cumAcked = max x.cumAcked cum ∧
        y.creditLimit = max x.creditLimit (bitsOf k.w4 0 32) ∧ y.peerDown = bitsOf k.w6 0 4 ∧
        y.peerKeyEpoch = max x.peerKeyEpoch (bitsOf k.w6 32 32) ∧ y.tx = [] ∧ y.rx = x.rx ∧ ∀ q, q ∈ y.unreceipted ↔ q ∈ x.unreceipted ∧
          ¬ (q.psn < cum ∨ (cum ≤ q.psn ∧ q.psn < cum + 64 ∧ k.w3.getLsbD (q.psn - cum) = true)))) ∧
    (CtlPacket s p k x 9 → bitsOf k.w2 32 4 ∈ [1, 2, 3, 5, 6, 10] →
      (∀ a, x.isRetired k.msg = true → x.acks.find? (fun a => a.msg == k.msg) = some a → MayControl x → Gives (.creditReq p k) s (fun t =>
        OnlyParts [.fab, .out] s t ∧ one t { x with ctlNext := x.ctlNext + 1 } ∧
        Leaves s t x (fun d => d.typ = 7 ∧ d.msg = k.msg))) ∧
      (x.isRetired k.msg = false → s.haltRefuses x = false → (∀ r ∈ x.requests, r.msg ≠ k.msg) →
        s.wantsWhole (bitsOf k.w2 32 4) k.region = false → Gives (.creditReq p k) s (fun t => OnlyParts [.fab] s t ∧
          one t { x with requests := x.requests ++ [⟨k.msg, bitsOf k.w2 32 4,
            if bitsOf k.w2 32 4 = 1 then creditsOf (bitsOf k.w2 40 24) else 1, false⟩] })) ∧
      (∀ r, x.isRetired k.msg = false → s.haltRefuses x = false → (∀ r ∈ x.requests, r.msg ≠ k.msg) →
        s.wantsWhole (bitsOf k.w2 32 4) k.region = true → bitsOf k.w2 40 24 ≤ 1048576 → s.extentOf n k.msg = none →
        Tab.get s.regions k.region = some r → Gives (.creditReq p k) s (fun t => OnlyParts [.fab, .pst, .phl, .out, .pmu] s t ∧
          OnlySession s t n ∧ t.pst.units = s.pst.units ∧ (∃ y q, t.ses n = some y ∧ y.requests = x.requests ++ [q] ∧ q.whole = true ∧
            q.msg = k.msg) ∧ ∃ e, Tab.get t.pst.extents s.pst.nextExtent = some e ∧ e.dpa = r.base + k.offset ∧
              e.declared = bitsOf k.w2 40 24 ∧ e.opened = false ∧ e.door = .fabric n k.msg false))) ∧
    (CtlPacket s p k x 11 →
      (x.probing.contains (p, k.w5.toNat) = true → s.fab.paths.length = 4 → Gives (.probe p k) s (fun t => OnlyParts [.fab] s t ∧
        t.ses n = some { x with probing := x.probing.filter (· != (p, k.w5.toNat)) } ∧
        t.path p = { s.path p with rtt := min (2 ^ 24 - 1) (s.time - k.w5.toNat) } ∧
        ∀ q ∈ [FabPort.fa0, .fb0, .fa1, .fb1], q ≠ p → t.path q = s.path q)) ∧
      (x.probing.contains (p, k.w5.toNat) = false → MayControl x → Gives (.probe p k) s (fun t => OnlyParts [.fab, .out] s t ∧
        one t { x with ctlNext := x.ctlNext + 1 } ∧ ∃ d : Packet, t.out = s.out ++ [.aft2 p (s.datagram x p d)] ∧ d.typ = 11 ∧ d.w5 = k.w5))) ∧
    (let rows (P : State → Prop) : Prop := (k.typ = 12 → Gives (.open_ p k) s P) ∧ (k.typ = 13 → Gives (.openAck p k) s P) ∧
       (k.typ = 14 → Gives (.close p k) s P)
     CtlPacket s p k x k.typ → s.isMember k.src = true → k.dst = s.node →
      (s.ctrlTakes k.src = false ∨ 4096 ≤ s.fab.ctrlQueue.length → rows (fun t => OnlyParts [.regs] s t ∧ RegsBut [Addr.FAB_CNT5] s t ∧
        Rises s t F.FAB_CNT5.CTRL_DROPS 1)) ∧
      (s.ctrlTakes k.src = true → s.fab.ctrlQueue.length < 4096 → (s.running .ctl = false ∨ s.svc.proc = 1) → rows (fun t =>
        OnlyParts [.fab] s t ∧ t.fab.sessions = s.fab.sessions ∧ t.fab.ctrlQueue = s.fab.ctrlQueue ++ [(p, k)]))) ∧
    (s.ctrlTakes k.src = true → s.fab.ctrlQueue = [] → s.running .ctl = true → s.svc.proc ≠ 1 → s.isTwinSes x = false →
      (CtlPacket s p k x 12 → s.isMember k.src = true → k.dst = s.node → s.keyable x = true → (x.st = .ready ∨ x.st = .failed) → x.rx = [] →
        x.requests = [] → x.tx = [] → Gives (.open_ p k) s (fun t => OnlyParts [.fab, .out] s t ∧ OnlySession s t n ∧
          (∃ y, t.ses n = some y ∧ y.st = .open_ ∧ y.epoch = bitsOf k.w2 0 32 ∧ y.cum = 0 ∧ y.psnNext = 0 ∧ y.granted = 0 ∧ y.rxBase = 0 ∧
            y.psize = min (bitsOf k.w2 32 14) (8192 / 2 ^ s.fld F.FAB_CTL.MAX_PAYLOAD)) ∧
          Leaves s t x (fun d => d.typ = 13 ∧ bitsOf d.w2 0 32 = bitsOf k.w2 0 32))) ∧
      (CtlPacket s p k x 13 → x.proposed = some (bitsOf k.w2 0 32) → (x.st = .ready ∨ x.st = .failed) → x.rx = [] →
        x.requests = [] → x.tx = [] → Gives (.openAck p k) s (fun t => OnlyParts [.fab] s t ∧ OnlySession s t n ∧ ∃ y, t.ses n = some y ∧
          y.st = .open_ ∧ y.epoch = bitsOf k.w2 0 32 ∧ y.proposed = none ∧ y.cum = 0 ∧ y.psnNext = 0)) ∧
      (CtlPacket s p k x 14 → x.st = .open_ → MayControl x →
        (({ x with closeSeen := true } : Session).idle = false → Gives (.close p k) s (fun t => OnlyParts [.fab, .out] s t ∧
          one t { x with closeSeen := true, st := .closing, ctlNext := x.ctlNext + 1 } ∧ Leaves s t x (fun d => d.typ = 14))) ∧
        (({ x with closeSeen := true } : Session).idle = true → Gives (.close p k) s (fun t => OnlyParts [.fab, .out, .phl, .pmu] s t ∧
          t.ses n = none ∧ (∀ m, m ≠ n → t.ses m = s.ses m) ∧ t.fab.defs = s.fab.defs.filter (fun d => d.session.toNat != n) ∧
          t.fab.keys = s.fab.keys ∧ t.fab.paths = s.fab.paths ∧ Leaves s t x (fun d => d.typ = 14)))))) ∧
  (∀ (s : State) (n : SessionNo) (x : Session), s.running .fab = true → s.ses n.toNat = some x →
    let one (t : State) (y : Session) : Prop := OnlySession s t n.toNat ∧ t.ses n.toNat = some y
    (x.st = .open_ → x.unreceipted = [] → (2 ^ 32 ≤ x.psnNext ∨ 2 ^ 32 - 1 ≤ x.ctlNext) → Gives (.rekey n) s (fun t =>
      OnlyParts [.fab, .out] s t ∧ one t { x with proposed := some (x.epoch + 1), ctlNext := x.ctlNext + 1 } ∧
      Leaves s t x (fun d => d.typ = 12))) ∧
    (s.running .ctl = true → s.keyable x = true → (x.st = .failed ∨ x.st = .ready) → Gives (.sessionReopen n) s (fun t =>
      OnlyParts [.fab, .out, .draws] s t ∧ t.freeCtr = s.freeCtr + 1 ∧ OnlySession s t n.toNat ∧
      (∃ e < 2 ^ 32, t.ses n.toNat = some { x with proposed := some e, ctlNext := x.ctlNext + 1 }) ∧ Leaves s t x (fun d => d.typ = 12))) ∧
    ((x.st = .open_ ∨ x.st = .closing) → MayControl x → Gives (.receiptInterval n) s (fun t => OnlyParts [.fab, .out] s t ∧
      one t { x with ctlNext := x.ctlNext + 1, sinceReceipt := 0 } ∧ Leaves s t x (fun d => d.typ = 8 ∧
        bitsOf d.w2 0 32 = (x.cum + 2 ^ 32 - 1) % 2 ^ 32 ∧ d.w4.toNat = x.granted % 2 ^ 32))) ∧
    (∀ (psn : BitVec 32) q, x.unreceipted = [q] → q.psn = psn.toNat →
      (q.retries < s.fld F.FAB_TIMER0.MAX_RETRY ∨ x.st ≠ .open_ → Gives (.retransmit n psn) s (fun t => OnlyParts [.fab, .out, .regs, .pmu] s t ∧
        RegsBut [Addr.FAB_CNT1] s t ∧ Rises s t F.FAB_CNT1.RETRANSMITS 1 ∧ one t { x with unreceipted := [{ q with retries := q.retries + 1 }] } ∧
        t.out = s.out ++ s.copies x q.pkt)) ∧
      (s.fld F.FAB_TIMER0.MAX_RETRY ≤ q.retries → x.st = .open_ → x.tx = [] → Gives (.retransmit n psn) s (fun t =>
        OnlyParts [.fab, .regs, .records] s t ∧ RegsBut [Addr.FAB_CNT4] s t ∧ Rises s t F.FAB_CNT4.SESSION_FAILS 1 ∧
        one t { x with st := .failed, proposed := none, tx := [], unreceipted := [] }))) ∧
    (x.st = .open_ → x.tx ≠ [] → Gives (.sessionDead n) s (fun t => OnlyParts [.fab, .pe, .regs, .records] s t ∧
      RegsBut [Addr.FAB_CNT4] s t ∧ Rises s t F.FAB_CNT4.SESSION_FAILS 1 ∧
      one t { x with st := .failed, proposed := none, tx := [], unreceipted := [] } ∧
      ∀ m ∈ x.tx, ∀ o, s.opOf m.cmd m.op = some o → ∃ o', t.opOf m.cmd m.op = some o' ∧ o'.phase = .ready ∧
        o'.done = some (OpDone.err ST.timeout))) ∧
    (∀ (msg : BitVec 32) m o, x.st = .open_ → x.tx.find? (fun m => m.msg == msg.toNat && m.answer.isNone && decide (0 < m.sent)) = some m →
      s.opOf m.cmd m.op = some o → Gives (.msgLifetimeTimeout n msg) s (fun t => OnlyParts [.fab, .pe] s t ∧
        one t { x with tx := x.tx.filter (fun q => q.msg != msg.toNat) } ∧ ∃ o', t.opOf m.cmd m.op = some o' ∧ o'.phase = .ready ∧
          o'.done = some (OpDone.err ST.timeout))))

/-- R177 to R179, R205, R206, R212 and R216 to R218: credit, torn messages, paths, time. -/
def Obligations.FabricCreditPathsAndTime : Prop :=
  (∀ (s : State), s.running .fab = true →
    (s.grantOrder = [] → Gives .grantRound s (fun t => t = s)) ∧
    (∀ n x q, s.grantOrder = [n] → s.ses n = some x → x.requests = [q] → q.whole = false → s.granting x.tenant = .all →
      q.left ≤ s.fld F.FAB_CREDIT.GRANT_QUANTUM → q.left ≤ s.ownCredit x.tenant → 0 < q.left → Gives .grantRound s (fun t =>
        OnlyParts [.fab, .pmu] s t ∧ OnlySession s t n ∧ t.fab.rr = n + 1 ∧ t.ses n = some { x with
          requests := [], granted := x.granted + q.left, grantedAt := s.time,
          grants := x.grants ++ [{ credits := q.left, issued := s.time, readOnly := false, whole := none }] }))) ∧
  (∀ (s : State) (n : SessionNo) (x : Session), s.running .fab = true → s.ses n.toNat = some x →
    let one (t : State) (y : Session) : Prop := OnlySession s t n.toNat ∧ t.ses n.toNat = some y
    (∀ g rest, x.grants = g :: rest → g.whole = none → Gives (.grantExpiry n none) s (fun t => OnlyParts [.fab, .regs] s t ∧
      RegsBut [Addr.FAB_CNT4] s t ∧ Rises s t F.FAB_CNT4.GRANT_LAPSED g.credits ∧ one t { x with grants := rest })) ∧
    (∀ (msg : BitVec 32) m, x.st = .open_ → x.rx = [m] → m.msg = msg.toNat → m.typ = 1 → m.extent = none → m.units = [] →
      (∀ u ∈ s.pst.units, u.hold ≠ .order ∧ ∀ f, u.door ≠ .fabric n.toNat m.msg f) → s.hst.reads = [] →
      let torn (t : State) : Prop := OnlyParts [.fab, .out, .regs, .pmu] s t ∧ RegsBut [Addr.FAB_CNT3] s t ∧
        Rises s t F.FAB_CNT3.TORN_MSGS 1 ∧ OnlySession s t n.toNat ∧ ∃ y a, t.ses n.toNat = some y ∧ y.rx = [] ∧ Answered y a ∧
          a.msg = m.msg ∧ a.status = ST.torn ∧ a.torn = true ∧ a.map = 0 ∧ y.cum = (x.skip m).cum
      Gives (.msgLifetime n msg) s torn ∧ (m.got.length < m.count → Gives (.reasmTimeout n msg) s torn)) ∧
    (∀ (psn : BitVec 32) e p, x.kept = [e] → e.psn = psn.toNat → s.fab.paths.length = 4 → Nat.testBit x.peerDown e.port.partner.idx = false →
      s.portWindow e.port.partner = false → (s.path e.port.partner).st = 0 →
      let q := s.path e.port.partner
      let q' : PathState := { q with errors := s.time :: q.errors.filter (fun i => decide (s.time < i + 200000 * s.fld F.FAB_PATH_CTL.WINDOW)) }
      s.errorsAt q' s.time < s.fld F.FAB_PATH_CTL.SUSPECT_THR → s.errorsAt q' s.time < s.fld F.FAB_PATH_CTL.FAIL_THR →
      Gives (.skewWindowExpiry n (some psn) p) s (fun t =>
        OnlyParts [.fab, .regs] s t ∧ RegsBut [Addr.FAB_PATH_CNT e.port.partner.idx] s t ∧
        Rises s t (F.FAB_PATH_CNT.MISSING e.port.partner.idx) 1 ∧ t.path e.port.partner = q' ∧
        t.ses n.toNat = some { x with kept := [], missed := x.missed ++ [(psn.toNat, e.port.partner)] })) ∧
    (∀ p i rest, x.probing = (p, i) :: rest → (s.path p).st = 2 → Gives (.skewWindowExpiry n none p) s (fun t =>
      OnlyParts [.fab, .regs] s t ∧ RegsBut [Addr.FAB_PATH_CNT p.idx] s t ∧ Rises s t (F.FAB_PATH_CNT.MISSING p.idx) 1 ∧
      one t { x with probing := rest })) ∧
    (∀ p, s.fabUp p = true → x.params.probe = true → x.st = .open_ → (p.pair = x.pairNow ∨ p.pair = x.params.pair.toNat) → MayControl x →
      Gives (.probeInt n p) s (fun t => OnlyParts [.fab, .out] s t ∧
        one t { x with probing := x.probing ++ [(p, s.time)], ctlNext := x.ctlNext + 1 } ∧
        ∃ d : Packet, t.out = s.out ++ [.aft2 p (s.datagram x p d)] ∧ d.typ = 11 ∧ d.w5 = BitVec.ofNat 64 s.time))) ∧
  (∀ (s : State) (p : FabPort), s.running .fab = true → s.fab.paths.length = 4 →
    let up : Prop := (s.path p.partner).st ≤ 1 ∧ (s.path p.partner).link = true
    let path (t : State) (q : PathState) : Prop := t.path p = q ∧ (∀ q ∈ [FabPort.fa0, .fb0, .fa1, .fb1], q ≠ p → t.path q = s.path q) ∧
      t.fab.sessions = s.fab.sessions ∧ t.fab.keys = s.fab.keys
    let fails (P : State → Prop) (t : State) : Prop := OnlyParts [.fab, .regs, .records] s t ∧
      RegsBut [Addr.FAB_PATH_STATUS p.idx, Addr.FAB_PATH_CTL] s t ∧ Rises s t (F.FAB_PATH_STATUS.FAILURES p.idx) 1 ∧ P t
    ((s.path p).st = 1 → s.cleanWindow (s.path p) = true → Gives (.pathWindow p) s (fun t =>
      OnlyParts [.fab, .records] s t ∧ path t { s.path p with st := 0 })) ∧
    (((s.path p).st ≠ 1 ∨ s.cleanWindow (s.path p) = false) → Gives (.pathWindow p) s (fun t => t = s)) ∧
    ((s.path p).st = 2 → s.pairDown (1 - p.pair) = false →
      let back (t : State) : Prop := OnlyParts [.fab, .records] s t ∧ path t { s.path p with st := 0, errors := [] }
      Gives (.return_ p) s back ∧ (s.on F.FAB_CTL.AUTO_RETURN = true → (s.path p).link = true → Gives (.pathReturnTime p) s back)) ∧
    (up → (s.path p).link = true → (s.path p).st ≤ 1 → Gives (.fabricLinkDown p) s (fails (fun t => path t { s.path p with link := false, st := 2 }))) ∧
    (up → (s.path p).st ≤ 1 → Gives (.noValidCopy p) s (fails (fun t => path t { s.path p with st := 2 }))) ∧
    (∀ rate : BitVec 2, s.on F.FAB_CTL.ENABLE = true → s.lanesTrained 4 p.idx = true →
      ((s.path p.partner).link = false ∨ (s.path p.partner).rate = rate.toNat → Gives (.fabricLinkTrained p rate) s (fun t => OnlyParts [.fab] s t ∧
        path t { s.path p with link := true, held := false, rate := rate.toNat })) ∧
      ((s.path p.partner).link = true → (s.path p.partner).rate ≠ rate.toNat → Gives (.fabricLinkTrained p rate) s (fun t => OnlyParts [.fab, .regs, .records] s t ∧
        RegsBut [Addr.FAB_ERR] s t ∧ t.fld F.FAB_ERR.RATE_MISMATCH = 1 ∧ path t { s.path p with held := true, rate := rate.toNat }))) ∧
    (up → (s.path p).st ≤ 2 → Gives (.fabPathOff p true) s (fun t => OnlyParts [.fab, .regs, .records] s t ∧ RegsBut [Addr.FAB_PATH_CTL] s t ∧
      t.fld ⟨Addr.FAB_PATH_CTL, p.idx, 1⟩ = 1 ∧ path t { s.path p with st := 3 })) ∧
    (up → (s.path p).st = 3 → Gives (.fabPathOff p false) s (fails (fun t => t.fld ⟨Addr.FAB_PATH_CTL, p.idx, 1⟩ = 0 ∧
      path t { s.path p with st := 2 }))) ∧
    (s.fabUp p = true →
      (∀ seq : BitVec 16,
        let stamped : FabState := { s.fab with stamps := (p.idx, seq.toNat, s.time) :: s.fab.stamps }
        (s.running .ctl = false → Gives (.ptpEventMessage p seq) s (fun t => OnlyParts [.fab] s t ∧ t.fab = stamped)) ∧
        (s.running .ctl = true → Gives (.ptpEventMessage p seq) s (fun t => OnlyParts [.fab, .out] s t ∧
          t.fab = { stamped with txStamps := (p.idx, seq.toNat, s.time) :: s.fab.txStamps } ∧ t.out = s.out ++ [.ptp p seq.toNat]))) ∧
      Gives (.malformedFrame p true) s (fun t => t = s) ∧
      Gives (.malformedFrame p false) s (fun t => OnlyParts [.regs] s t ∧ RegsBut [Addr.FAB_CNT4] s t ∧ Rises s t F.FAB_CNT4.MALFORMED 1) ∧
      Gives (.pausePfcFrame p) s (fun t => OnlyParts [.regs] s t ∧ RegsBut [Addr.FAB_CNT5] s t ∧ Rises s t F.FAB_CNT5.PAUSE_RX 1) ∧
      (∀ a, s.running .ctl = true → Gives (.neighbourDiscovery p a) s (fun t => OnlyParts [.out] s t ∧ t.out = s.out ++ [.neighbour p a])))) ∧
  (∀ (s : State), s.running .ctl = true → Gives .ptpLock s (fun t => OnlyParts [.fab] s t ∧ t.fab = { s.fab with ptpLocked := true }))

/-- R185, R187 and R194: sessions and keys. -/
def Obligations.SessionsAndAccessKeysAreManaged : Prop :=
  (∀ (s : State) (path : Path) (a : SessionParams), s.svc.proc ≠ 1 → s.running .ctl = true →
    (∀ st, s.sessionStatus a = some st → Gives (.sessionCreate path a) s (fun t => OnlyParts [.out] s t ∧ t.out = s.out ++ [.result path st []])) ∧
    (s.sessionStatus a = none → Gives (.sessionCreate path a) s (fun t => OnlyParts [.fab, .phl, .out, .draws, .pmu] s t ∧
      (∀ m, m ≠ a.session.toNat → t.ses m = s.ses m) ∧ t.fab.keys = s.fab.keys ∧ t.fab.paths = s.fab.paths ∧
      t.fab.defs = s.fab.defs.filter (fun d => d.session != a.session) ++ [a] ∧
      (∃ d, .result path 0 d ∈ t.out ∧ (a.host = false → d = []) ∧ (a.host = true → d.length = 32)) ∧
      (a.host = true → (Tab.get t.fab.secrets a.session.toNat).isSome = true) ∧
      ∃ y, t.ses a.session.toNat = some y ∧ y.params = a ∧ y.st = .ready ∧ y.rx = [] ∧ y.tx = [] ∧ (a.host = false → y.secret = s.poolSecret a) ∧
        (a.host = true ∨ s.cip.fabricRoot.isSome = true → y.proposed.isSome = true)))) ∧
  (∀ (s : State) (path : Path) (n : SessionNo), s.svc.proc ≠ 1 → s.running .ctl = true →
    (s.ses n.toNat = none → Gives (.sessionDestroy path n) s (fun t => OnlyParts [.out] s t ∧ t.out = s.out ++ [.result path ST.bounds []])) ∧
    (∀ x, s.ses n.toNat = some x →
      let gone (t : State) : Prop := (∀ m, m ≠ n.toNat → t.ses m = s.ses m) ∧ t.fab.keys = s.fab.keys ∧
        t.fab.defs = s.fab.defs.filter (fun d => d.session.toNat != n.toNat) ∧ t.out.getLast? = some (.result path 0 [])
      (x.st = .ready ∨ x.st = .failed → Gives (.sessionDestroy path n) s (fun t => OnlyParts [.fab, .pe, .out, .phl, .pmu] s t ∧
        gone t ∧ t.ses n.toNat = none)) ∧
      (x.st = .open_ → x.idle = false → MayControl x → Gives (.sessionDestroy path n) s (fun t => OnlyParts [.fab, .out, .phl, .pmu] s t ∧
        gone t ∧ t.ses n.toNat = some { x with st := .closing, ctlNext := x.ctlNext + 1 })) ∧
      (x.st = .closing → Gives (.sessionDestroy path n) s (fun t => OnlyParts [.fab, .out, .phl, .pmu] s t ∧ gone t ∧
        t.ses n.toNat = some x)))) ∧
  (∀ (s : State), s.running .fab = true →
    let kept (t : State) : Prop := t.fab.sessions = s.fab.sessions ∧ t.fab.paths = s.fab.paths ∧ t.fab.defs = s.fab.defs
    let e := s.keyData s.freeKey.2
    (s.keyRefused e = none → Gives .keyCreate s (fun t => OnlyParts [.fab, .regs] s t ∧ RegsBut [Addr.FAB_KEY_CMD] s t ∧ kept t ∧
      Tab.get t.fab.keys s.freeKey.1 = some e ∧ (∀ m, m ≠ s.freeKey.1 → Tab.get t.fab.keys m = Tab.get s.fab.keys m) ∧
      t.fld F.FAB_KEY_CMD.STATUS = 0 ∧ t.fld F.FAB_KEY_CMD.INDEX = s.freeKey.1 % 2 ^ 18 ∧
      t.fld F.FAB_KEY_CMD.KEY = (s.freeKey.1 + s.freeKey.2 * 2 ^ 18) % 2 ^ 32)) ∧
    (∀ st, s.keyRefused e = some st → Gives .keyCreate s (fun t => OnlyParts [.regs] s t ∧ RegsBut [Addr.FAB_KEY_CMD, Addr.FAB_ERR] s t ∧
      t.fld F.FAB_KEY_CMD.STATUS = st.toNat)) ∧
    (∀ (i : BitVec 18) k, Tab.get s.fab.keys i.toNat = some k → k.used = true →
      Gives (.keyRevoke i) s (fun t => OnlyParts [.fab, .regs] s t ∧ RegsBut [Addr.FAB_KEY_CMD] s t ∧ kept t ∧
        Tab.get t.fab.keys i.toNat = some { k with used := false } ∧ (∀ m, m ≠ i.toNat → Tab.get t.fab.keys m = Tab.get s.fab.keys m) ∧
        t.fld F.FAB_KEY_CMD.STATUS = 0) ∧
      (k.region < 2 ^ 16 → k.offset < 2 ^ 44 → k.len < 2 ^ 44 → k.rights < 2 ^ 4 → Gives (.keyRead i) s (fun t => OnlyParts [.regs] s t ∧
        RegsBut [Addr.FAB_KEY_CMD, Addr.FAB_KEY_DATA0, Addr.FAB_KEY_DATA1, Addr.FAB_KEY_DATA2] s t ∧ t.fld F.FAB_KEY_CMD.STATUS = 0 ∧
        t.fld F.FAB_KEY_DATA0.REGION = k.region ∧ t.fld F.FAB_KEY_DATA1.OFFSET = k.offset ∧ t.fld F.FAB_KEY_DATA2.LENGTH = k.len ∧
        t.fld F.FAB_KEY_DATA0.RIGHTS = k.rights))) ∧
    (∀ (i : BitVec 18), s.usedKey i.toNat = none →
      let none_ (t : State) : Prop := OnlyParts [.regs] s t ∧ RegsBut [Addr.FAB_KEY_CMD] s t ∧ t.fld F.FAB_KEY_CMD.STATUS = ST.key.toNat
      Gives (.keyRevoke i) s none_ ∧ Gives (.keyRead i) s none_))

/-- R53, R187, R226, R230, R231, R234, R236, R238, R239, R251, R253 and R498: mirror frames. -/
def Obligations.TwinFramesTakeEffectInOrder : Prop :=
  (∀ (s : State) (a : Nat), s.running .phl = true → s.phl.twin.linked = true → s.phl.twin ≠ .unconfirmed → s.phl.twin ≠ .resyncOut →
    s.phl.txWait = [] → s.toMirror = [] → s.phl.twinWait = [] → s.phl.hmapIn = [] → (s.port .hp0).owed = 0 → (s.port .hp1).owed = 0 →
    a < 2 ^ 32 → (∃ f ∈ s.phl.unacked, msnLe f.msn a = true) →
    let acked (t : State) : Prop := t.phl.txAcked = a ∧
      t.phl.unacked = s.phl.unacked.filter (fun f => !msnLe f.msn a) ∧ t.phl.copies = s.phl.copies ∧ t.phl.twin = s.phl.twin ∧
      t.pst.units = s.pst.units.map (fun u => if !u.away && u.msn.any (fun m => msnLe m a) then { u with copied := true } else u)
    (∀ (ack : BitVec 24) (credit : BitVec 8), s.on F.PHL_CTL.ENCRYPT = false → s.phl.ph0.up = true → ack.toNat = a % 2 ^ 24 →
      (s.phl.txNext + 2 ^ 33 - 1 - a) % 2 ^ 32 < 2 ^ 24 → Gives (.mack ack credit) s (fun t => OnlyParts [.phl, .pst, .pmu] s t ∧ acked t ∧
        t.phl.credit = s.phl.credit + credit.toNat)) ∧
    (∀ f : MFrame, s.on F.PHL_CTL.ENCRYPT = true → s.channelUp f.fallback = true → s.stale f = false → f.msn.toNat = s.phl.rxNext →
      f.aux.toNat = a → Gives (.mackf f) s (fun t => OnlyParts [.phl, .pst, .pmu, .out] s t ∧ acked t ∧
        t.phl.rxNext = (s.phl.rxNext + 1) % 2 ^ 32))) ∧
  (∀ (s : State) (f : MFrame), FrameTaken s f →
    let x (t : State) : PhlState := s.phl.taken f t
    let n := f.region.toNat
    let m := f.msn.toNat
    let held (u : CUnit) : Copy := Copy.mk u.id m u.extent none u.region u.dpa u.cls f.position.toNat true u.cells false false
    (s.phl.resyncLeft = [] →
      let ref := if f.ref = 0 then none else some f.ref.toNat
      let c : Copy := Copy.mk ((s.phl.unitOf ref).getD s.pst.nextUnit) m ref.isSome ref n f.dpa.toNat (Class.ofCode f.cls.toNat)
        f.position.toNat (f.last || (ref.isNone && !s.pieced n)) (cellsAt f.dpa.toNat f.data) false false
      let l := s.phl.copies ++ [c]
      let settled := l.filter (fun d => d.uid != c.uid) ++ (l.filter (fun d => d.uid == c.uid)).map (fun d => { d with position := c.position })
      Gives (.mdata f) s (fun t => OnlyParts [.phl, .pst, .regions, .out] s t ∧ t.pst = { s.pst with nextUnit := s.pst.nextUnit + 1 } ∧
        (∀ k, Tab.get t.regions k = (Tab.get s.regions k).map (fun r => if k = n then { r with written := true } else r)) ∧
        t.phl = { x t with copies := if ref.isSome = true ∧ f.last = true then settled else l })) ∧
    (∀ u, s.pst.units.find? (fun u => u.away && decide (u.position = 0) && u.msn == some f.ref.toNat) = some u → s.unitsNumbered = true →
      u.atomic = none → u.record = none → s.hst.reads = [] →
      (f.aux.toNat % 256 = 0 → f.cls ≠ 1 → (u.cls = .d2 ∨ u.cls = .d3) → s.phl.resyncLeft = [] → Gives (.mord f) s (fun t =>
        OnlyParts [.phl, .pst, .regions, .out] s t ∧ t.phl = { x t with copies := s.phl.copies ++ [held u] } ∧
        t.pst.units = s.pst.units.map (fun v => if v.id = u.id then { v with
          position := f.position.toNat, msn := some m, cells := [] } else v))) ∧
      (∀ c op y, f.aux.toNat % 256 ≠ 0 → u.door = .strand c op → s.cmdOf c = some y → Gives (.mord f) s (fun t =>
        OnlyParts [.phl, .pst, .pe, .regs, .out] s t ∧ RegsBut [Addr.PST_DUR_CNT0] s t ∧ t.phl = x t ∧
        t.pst.units = s.pst.units.filter (fun v => v.id != u.id) ∧
        t.cmdOf c = some { y with hist := y.hist.map (fun h => if h.id = u.id then { h with settle := .failed (f.aux.setWidth 8) } else h) }))) ∧
    (∀ r, Tab.get s.regions n = some r → r.atomic = false → r.sealed = false → s.phl.fwdParts = [] → f.aux.toNat / 256 % 4 = 0 →
      s.unitsNumbered = true →
      let cls := Class.max (Class.ofCode f.cls.toNat) r.floor
      (f.aux.toNat % 4 ≠ 2 → Gives (.mfwd f) s (fun t => OnlyParts admission s t ∧ RegsBut admissionRegs s t ∧
        t.phl.rxNext = (x t).rxNext ∧ AdmitsUnit s t f.dpa.toNat f.data cls (.twin m))) ∧
      (f.aux.toNat % 4 = 2 → f.last = true → Gives (.mfwd f) s (fun t => OnlyParts admission s t ∧ RegsBut admissionRegs s t ∧
        t.phl.rxNext = (x t).rxNext ∧ t.pst.nextUnit = s.pst.nextUnit + 1 ∧ ∃ u ∈ t.pst.units, u.id = s.pst.nextUnit ∧
          u.dpa = lineOf f.dpa.toNat ∧ u.len = 64 ∧ u.cells = cellsAt f.dpa.toNat f.data ∧ u.cls = cls ∧ u.door = .twin m ∧
          u.committed = false)) ∧
      (f.aux.toNat % 4 = 2 → f.last = false → Gives (.mfwd f) s (fun t => OnlyParts [.phl, .out] s t ∧ t.phl = { x t with
        fwdParts := [{ Frame.mk0 2 with msn := m, dpa := f.dpa.toNat, data := f.data }] }))) ∧
    (∀ c, s.phl.copies = [c] → c.last = true → c.ref = none → c.committed = false → c.charged = false → s.hst.reads = [] →
      (∀ u ∈ s.pst.units, u.committed = false ∧ u.msn ≠ some c.msn) →
      (bitmapMsns f.aux.toNat f.data = [c.msn] → Gives (.mcv f) s (fun t =>
        OnlyParts [.phl, .dst, .bytes, .regs, .records, .out] s t ∧ RegsBut [Addr.DST_CNT0, Addr.DST_CNT1] s t ∧
        t.phl = { x t with copies := [{ c with committed := true, charged := s.copyFits c }] } ∧
        (∀ a, t.byte a = (cellIn c.cells a).getD (s.byte a)) ∧
        (s.copyFits c = false → t.dst = s.dst ∧ Rises s t F.DST_CNT1.COPY_WAITS 1))) ∧
      (f.ref.toNat = c.msn → Gives (.mdrop f) s (fun t => OnlyParts [.phl, .pst, .out] s t ∧ t.phl = { x t with copies := [] } ∧
        t.pst = { s.pst with xreqs := s.pst.xreqs.filter (fun q => q.msn != c.msn) }))) ∧
    (let q (ok : Bool) : XReq := { msn := m, region := n, units4k := f.aux.toNat, granted := ok }
     let answers (ok : Bool) (t : State) : Prop := OnlyParts [.phl, .pst, .out, .pmu] s t ∧ t.pst = { s.pst with xreqs := s.pst.xreqs ++ [q ok] } ∧
       t.phl.rxNext = (x t).rxNext ∧ Sends s t { Frame.mk0 7 with region := n, ref := m, aux := if ok then 0 else ST.busy.toNat }
     (s.kibFits (4 * f.aux.toNat) = true → (∀ q ∈ s.pst.xreqs, q.granted = true) → Gives (.xopen f) s (answers true)) ∧
     (s.kibFits (4 * f.aux.toNat) = false ∨ (∃ q ∈ s.pst.xreqs, q.granted = false) → Gives (.xopen f) s (answers false))) ∧
    (f.aux.toNat % 256 = 0 → Gives (.xgrant f) s (fun t => OnlyParts [.phl, .pst, .out] s t ∧ t.phl = x t ∧ t.pst = { s.pst with
      extents := s.pst.extents.map (fun e => if e.2.xopen = some f.ref.toNat then (e.1, { e.2 with granted := true }) else e) })) ∧
    (f.aux.toNat % 256 ≠ 0 → Gives (.xgrant f) s (fun t => OnlyParts [.phl, .out] s t ∧ t.phl = x t)) ∧
    (∀ p, s.phl.twin = .resyncIn → s.mod.mode ≠ .halt → f.dpa.toNat = 16384 * p → f.data.length = 16384 → Memory.wf s.ddr = true →
      s.phl.copies = [] → s.hst.reads = [] → Gives (.rpage f) s (fun t =>
        OnlyParts [.phl, .nc, .ddr, .bytes, .poison, .mem, .dst, .svc, .regs, .records, .regions, .out] s t ∧
        RegsBut [Addr.MEM_CNT3, Addr.DST_CNT0] s t ∧
        t.phl = { x t with resyncLeft := s.phl.resyncLeft.filter (fun q => q != p) } ∧
        t.svc = { s.svc with filling := s.svc.filling.filter (fun q => q != p) } ∧
        (∀ i < 16384, inBlocks (s.mirrorBlocks p) (16384 * p + i) = true → Memory.read t.ddr (16384 * p + i) = f.data.getD i 0) ∧
        (∀ a, inBlocks (s.mirrorBlocks p) a = false → Memory.read t.ddr a = Memory.read s.ddr a) ∧
        (∀ l, t.poison.contains l = (s.poison.contains l && !inBlocks (s.mirrorBlocks p) l)) ∧
        (∀ b ∈ s.mirrorBlocks p, Tab.get t.nc.lines (b / 4096) = none ∧ t.nc.inVictim (b / 4096) = none))) ∧
    (∀ p k r, f.dpa.toNat = 16384 * p → (List.range 4).findSome? (fun i => s.regionAt (p * 16384 + i * 4096)) = some (k, r) →
      (∀ u ∈ s.pst.units, u.charged = true → u.committed = true) → Gives (.rreq f) s (fun t => OnlyParts [.phl, .out, .pmu] s t ∧
        t.phl.rxNext = (x t).rxNext ∧
        Sends s t { Frame.mk0 8 with region := k, dpa := 16384 * p, position := r.nextPos, data := s.bytes (16384 * p) 16384 })) ∧
    (let b := HBlock.ofBytes f.data
     f.ref.toNat = 0 → s.phl.hmapOut.contains 0 = false → Tab.get s.regions b.region = none → b.units ≠ 0 → b.base % 4096 = 0 →
      b.sealed = false → Gives (.ctrlHmap f) s (fun t =>
       OnlyRegion s t b.region (some b.toRegion) ∧ OnlyParts mapping s t ∧ RegsBut [Addr.DST_CNT0] s t ∧ ZeroedOnly s t b.base b.len ∧
       t.phl.rxNext = (x t).rxNext ∧ t.phl.told = s.phl.told ++ [(0, b.region)] ∧ ∃ g ∈ t.phl.unconfirmed, g.ty = 13 ∧ g.ref = m)) ∧
    (f.ref.toNat ≠ 0 → s.phl.twinWait = [] → Gives (.ctrlHmap f) s (fun t => OnlyParts [.phl, .out] s t ∧
      t.phl = { x t with hmapOut := s.phl.hmapOut.filter (fun k => k != f.ref.toNat) })) ∧
    (let v := leNat (f.data.take 8)
     s.phl.primary = false → Gives (.ctrlTime f) s (fun t => OnlyParts [.phl, .time, .fab, .out] s t ∧ t.phl = x t ∧ t.time = v ∧
      t.fab = { s.fab with ptpLocked := s.fab.ptpLocked && decide (v ≤ s.time + 1000) && decide (s.time ≤ v + 1000) })) ∧
    (s.phl.primary = true → Gives (.ctrlTime f) s (fun t => OnlyParts [.phl, .out] s t ∧ t.phl = x t)) ∧
    (∀ d : SessionParams,
      let kind := f.aux.toNat / 256 % 256
      let first := f.aux.toNat.testBit 16
      let last := f.aux.toNat.testBit 17
      let kept := Tab.get s.fab.twinSecrets
      (kind = 0 → Gives (.ctrlSession f d) s (fun t => OnlyParts [.phl, .fab, .out] s t ∧ t.phl = x t ∧
        t.fab = { s.fab with twinDefs := s.fab.twinDefs.filter (fun a => a.session != d.session) ++ [d], twinSecrets := t.fab.twinSecrets } ∧
        ∀ k, Tab.get t.fab.twinSecrets k = if k = d.session.toNat then some (f.data.drop (sessionBytes d).length) else kept k)) ∧
      (kind = 1 → Gives (.ctrlSession f d) s (fun t => OnlyParts [.phl, .fab, .out] s t ∧ t.phl = x t ∧
        let k := leNat (f.data.take 4)
        t.fab = { s.fab with
          twinDefs := s.fab.twinDefs.filter (fun a => a.session.toNat != k), twinSecrets := Tab.del s.fab.twinSecrets k })) ∧
      (kind = 2 → Gives (.ctrlSession f d) s (fun t => OnlyParts [.phl, .fab, .out] s t ∧ t.phl = x t ∧
        let l := (if first then [] else s.fab.membersIn) ++ memberIds f.data
        t.fab = if last then { s.fab with members := l, membersIn := [] } else { s.fab with membersIn := l })) ∧
      (kind = 3 → last = false → Gives (.ctrlSession f d) s (fun t => OnlyParts [.phl, .out] s t ∧
        t.phl = { x t with changeIn := (if first then [] else s.phl.changeIn) ++ f.data })) ∧
      (kind = 3 → last = true → first = true → f.data.head? = some 0x82 → Gives (.ctrlSession f d) s (fun t =>
        OnlyParts [.phl, .tenants, .out] s t ∧ let a := admitBlock (f.data.drop 4)
        t.phl = { x t with changeIn := [], told := s.phl.told ++ [(1, a.1)] } ∧
        t.tenants = if a.2.1 = Tenant.none_ ∧ a.1 ≠ 0 then Tab.del s.tenants a.1 else Tab.put s.tenants a.1 a.2.1))) ∧
    (s.phl.twin = .resyncIn → Gives (.resyncStart f) s (fun t => OnlyParts [.phl, .fab, .out] s t ∧
      t.phl = { x t with resyncLeft := s.mirroredPages, told := [] } ∧ t.fab = { s.fab with twinDefs := [], twinSecrets := [] })) ∧
    (s.phl.twin = .resyncIn → Settled s → Restoring s → s.phl.ph0.up = true →
      (∀ e ∈ s.regions, s.phl.told.contains (0, e.1) = true ∨ s.ownPriv e.1 = true) →
      (∀ e ∈ s.tenants, e.1 = 0 ∨ s.phl.told.contains (1, e.1) = true) →
      (∀ e ∈ s.pe.qps, e.1 < 16 ∨ s.phl.told.contains (2, e.1) = true) →
      (∀ n < 2, (s.ses (2 ^ 20 - 1 - n)).isSome = true) → Gives (.resyncEnd f) s (fun t =>
      OnlyParts [.phl, .regs, .records, .out] s t ∧ RegsBut [Addr.PHL_CNT1] s t ∧ Rises s t F.PHL_CNT1.RESYNCS 1 ∧ t.phl = { x t with
        twin := .paired, resyncLeft := [], receiver := false, resyncKind := 0, separation := [], servedAlone := false, stalled := false })) ∧
    (let k := f.aux.toNat / 256 % 256
     Gives (.channelServed f) s (fun t => OnlyParts [.phl, .out] s t ∧ t.phl = { x t with twinChOut := t.phl.twinChOut } ∧ k ∈ t.phl.twinChOut ∧
       ∀ c, c ≠ k → (c ∈ t.phl.twinChOut ↔ c ∈ s.phl.twinChOut)) ∧
     Gives (.channelReturned f) s (fun t => OnlyParts [.phl, .out] s t ∧ t.phl = { x t with twinChOut := t.phl.twinChOut } ∧ k ∉ t.phl.twinChOut ∧
       ∀ c, c ≠ k → (c ∈ t.phl.twinChOut ↔ c ∈ s.phl.twinChOut)))) ∧
  (∀ (s : State) q, s.running .phl = true → s.phl.twin.linked = true → s.pst.xreqs.find? (fun x => !x.granted) = some q →
    s.kibFits (4 * q.units4k) = true → Gives .xopenQueuedGrant s (fun t => OnlyParts [.phl, .pst, .out, .pmu] s t ∧
      t.pst = { s.pst with xreqs := s.pst.xreqs.map (fun y => if y.msn = q.msn then { y with granted := true } else y) } ∧
      Sends s t { Frame.mk0 7 with region := q.region, ref := q.msn }))

/-- R4, R34, R35, R222, R223, R225, R226, R242, R244 to R248, R255 and R463: ports, lease, twin state. -/
def Obligations.PortsLeaseAndTwinStateChange : Prop :=
  (∀ (s : State) (p : PhPort), s.running .phl = true →
    let q := s.ph p
    let other (t : State) : Prop := ∀ r, r ≠ p → t.ph r = s.ph r
    let at_ (t : State) (y : PhState) : Prop := t.ph p = y ∧ other t ∧ t.phl.unacked = s.phl.unacked ∧ t.phl.copies = s.phl.copies ∧
      t.phl.rxNext = s.phl.rxNext ∧ t.phl.txNext = s.phl.txNext
    (∀ wide : Bool, s.on F.PHL_CTL.ENABLE = true → q.trained = false → s.lanesTrained 5 p.idx = true →
      Gives (.phLinkUp p wide) s (fun t => OnlyParts [.phl, .out] s t ∧
        at_ t { PhState.reset with trained := true, width := if wide then 8 else 4 } ∧ (t.ph p).up = false ∧ t.phl.twin = s.phl.twin ∧
        t.phl.linkIdSeen = (s.phl.linkIdSeen && p == .ph1) ∧
        t.out = s.out ++ [.phFrame p.chan ({ Frame.mk0 11 with epoch := s.phl.epoch % 65536, data := s.identity }.plain)])) ∧
    (s.lanesTrained 5 p.idx = false → ∀ wide : Bool, Gives (.phLinkUp p wide) s (fun t => t = s)) ∧
    (q.trained = true →
      (∀ (first : BitVec 64) (count : BitVec 9), count.toNat ≤ 256 → q.fack ≤ first.toNat →
        (∀ e ∈ q.flits, first.toNat ≤ e.1 → e.1 < first.toNat + count.toNat → e.2 < 7) → Gives (.flitReplay p first count) s (fun t =>
        OnlyParts [.phl, .regs] s t ∧ RegsBut [Addr.PHL_CNT0] s t ∧ Rises s t F.PHL_CNT0.REPLAYS count.toNat ∧
        at_ t { q with fack := first.toNat, flits := (List.range count.toNat).map (fun i =>
          (first.toNat + i, ((q.flits.find? (fun e => e.1 == first.toNat + i)).map (·.2)).getD 0 + 1)) })) ∧
      Gives (.flitError p) s (fun t => OnlyParts [.phl] s t ∧ at_ t { q with discarding := true }) ∧
      (q.width = 8 → Gives (.widthDegrade p) s (fun t => OnlyParts [.phl, .regs, .records] s t ∧ RegsBut [Addr.PHL_CNT1] s t ∧
        Rises s t F.PHL_CNT1.DEGRADES 1 ∧ at_ t { q with width := 4 })) ∧
      (let fails (t : State) : Prop := RegsBut [Addr.PHL_ERR, Addr.PHL_CNT1] s t ∧ at_ t { PhState.reset with failed := true }
       (p = .ph1 → Gives (.portFailed p) s (fun t => OnlyParts [.phl, .regs, .records] s t ∧ fails t ∧ t.fld F.PHL_ERR.PH1_FAIL = 1)) ∧
       (p = .ph0 → s.phl.twin = .paired → s.mod.mode = .serve → s.phl.txWait = [] → Gives (.portFailed p) s (fun t =>
         OnlyParts [.phl, .out, .regs, .records] s t ∧ fails t ∧ t.fld F.PHL_ERR.PH0_FAIL = 1 ∧ t.phl.twin = .fallback ∧
         Rises s t F.PHL_CNT1.FALLBACK_ENTRIES 1 ∧
         t.out = s.out ++ (if s.on F.PHL_FB_CTL.FB_ENABLE then s.phl.unacked.map (fun f => Out.phFrame .fallback (s.wire f)) else []))))) ∧
    (s.on F.PHL_CTL.ENABLE = true → q.failed = true → Gives (.portTrainingRetry p) s (fun t => OnlyParts [.phl] s t ∧
      at_ t { q with failed := false }))) ∧
  (∀ (s : State), s.running .phl = true → s.phl.twinWait = [] → s.phl.hmapIn = [] →
    let held (m : Mode) : Prop := m = .serve ∨ m = .drain ∨ m = .service
    let alone (ps : List Part) (t : State) : Prop := OnlyParts (ps ++ [.phl, .pst, .regions, .regs]) s t ∧ RegsBut [Addr.PHL_CNT3] s t ∧
      t.phl = { s.phl.quiet with
        twin := .alone, epoch := (s.phl.epoch + 1) % 2 ^ 32, primary := true, leaseRunning := true, guardPassed := false
        servedAlone := true, linkIdSeen := false, resyncLeft := [], resyncKind := 0, receiver := false } ∧
      t.pst = { s.pst with xreqs := [] } ∧ t.regions = s.regions.map (fun e => (e.1, { e.2 with warned := false }))
    (s.phl.twin = .fallback → s.phl.ph0.up = true → s.phl.linkIdSeen = true → held s.mod.mode → s.toMirror = [] →
      Gives .fallbackExit s (fun t => OnlyParts [.phl, .records] s t ∧ t.phl = { s.phl with twin := .paired, stalled := false })) ∧
    (s.phl.twin = .resyncOut → s.phl.resyncLeft = [] → (∀ f ∈ s.phl.unconfirmed, f.ty ≠ 8) → Settled s → s.mod.mode = .solo →
      s.phl.ph0.up = true → (∀ n < 2, (s.ses (2 ^ 20 - 1 - n)).isSome = true) → Gives .resyncComplete s (fun t =>
        OnlyParts [.phl, .mod, .out, .regs, .pmu, .records] s t ∧ RegsBut [Addr.PHL_CNT1] s t ∧ Rises s t F.PHL_CNT1.RESYNCS 1 ∧
        t.phl.twin = .paired ∧ t.mod.mode = .serve ∧ t.mod.prev = .solo ∧ t.phl.separation = [] ∧ t.phl.servedAlone = false ∧
        Sends s t { Frame.mk0 13 with aux := 4 })) ∧
    (s.phl.twin = .linking → Settled s → Restoring s →
      (s.phl.heldAtSave = true → s.phl.linkIdSeen = false → Gives .linkWait s (alone [.records])) ∧
      (∀ path, Gives (.forceAlone path) s (alone [.records]))) ∧
    (s.phl.primary = true → s.phl.twin.linked = true → Gives .leaseRenewal s (fun t => OnlyParts [.phl, .out, .pmu] s t ∧
      let no := (s.phl.leaseNo + 1) % 2 ^ 32
      let asks : Frame := { Frame.mk0 10 with ref := no, aux := s.fld F.PHL_LEASE.TERM * 65536 }
      t.phl.leaseNo = no ∧ (s.phl.ph0.up = false → Sends s t asks) ∧
      (s.phl.ph0.up = true → t.phl.unconfirmed = s.phl.unconfirmed ++
        [{ asks with msn := s.phl.txNext, epoch := s.phl.epoch % 65536 },
         { Frame.mk0 13 with msn := (s.phl.txNext + 1) % 2 ^ 32, epoch := s.phl.epoch % 65536, aux := 2, data := leBytes 8 s.time }]))) ∧
    (s.phl.leaseRunning = true → s.phl.twin ≠ .unconfirmed → Gives .leaseExpiry s (fun t => OnlyParts [.phl] s t ∧
      t.phl = { s.phl with leaseRunning := false, twinMode := 15 })) ∧
    (s.phl.leaseRunning = false → s.phl.guardPassed = false → s.phl.twin ≠ .unconfirmed → Gives .leaseGuardExpiry s (fun t =>
      OnlyParts [.phl] s t ∧ t.phl = { s.phl with guardPassed := true })) ∧
    ((s.phl.twin = .paired ∨ s.phl.twin = .fallback ∨ s.phl.twin = .resyncOut) → s.phl.hbIn = .toggling →
      (s.phl.primary = true → s.phl.unacked ≠ [] → s.phl.guardPassed = false → Gives .fbConfirmExpiry s (fun t =>
        OnlyParts [.phl, .records] s t ∧ t.phl = { s.phl with twin := .unconfirmed, before := s.phl.twin })) ∧
      (s.phl.primary = false → Settled s → s.mod.mode = .serve → Gives .fbConfirmExpiry s (fun t =>
        OnlyParts [.phl, .pst, .mod, .tir, .regs, .records] s t ∧ RegsBut [Addr.PHL_CNT1, Addr.MOD_CNT0] s t ∧
        Rises s t F.PHL_CNT1.ARBITRATIONS 1 ∧ Rises s t F.MOD_CNT0.HALT_ENTRIES 1 ∧ t.phl.twin = .lost ∧ t.phl.leaseRunning = false ∧
        t.phl.unconfirmed = [] ∧ t.mod.mode = .halt ∧ t.mod.haltCause = 3 ∧ t.pst = { s.pst with xreqs := [] } ∧
        t.tir = { s.tir with loansOut := [] }))) ∧
    (∀ (dest hops : BitVec 3) (frame : List Byte), dest.toNat ≠ s.seq.position → Gives (.ringFrameForward dest hops frame) s (fun t =>
      (¬ hops.toNat + 1 < Config.boardDevices → t = s) ∧
      (hops.toNat + 1 < Config.boardDevices → OnlyParts [.out, .records] s t ∧
        t.out = s.out ++ [.ring (!s.phl.ph1.up) dest.toNat (hops.toNat + 1) frame] ∧ (s.phl.ph1.up = true → OnlyParts [.out] s t))))) ∧
  (∀ (s : State) (f : MFrame) (mode : BitVec 3), s.running .phl = true → s.channelUp f.fallback = true → s.stale f = false →
    (s.phl.twin.linked = false → Gives (.lease f mode) s (fun t => OnlyParts [.phl] s t ∧ t.phl = { s.phl with twinMode := mode.toNat })) ∧
    (FrameTaken s f →
      (f.aux.getLsbD 0 = true → s.phl.primary = true → f.ref.toNat = s.phl.leaseNo → s.phl.twin ≠ .unconfirmed → Gives (.lease f mode) s (fun t =>
        OnlyParts [.phl, .out] s t ∧ t.phl = { s.phl.taken f t with twinMode := mode.toNat, leaseRunning := true, guardPassed := false })) ∧
      (f.aux.getLsbD 0 = false → s.phl.primary = false → Gives (.lease f mode) s (fun t =>
        OnlyParts [.phl, .out, .pmu] s t ∧ t.phl.leaseRunning = true ∧ t.phl.guardPassed = false ∧ t.phl.twinMode = mode.toNat ∧
        Sends s t { Frame.mk0 10 with ref := f.ref.toNat, aux := 1 + s.fld F.PHL_LEASE.TERM * 65536 })))) ∧
  (∀ (s : State) (level : Level), s.run .aon = .running → s.phl.twin ≠ .unconfirmed →
    (level = .low → s.phl.hbIn ≠ .low → Gives (.hbStatic level) s (fun t => OnlyParts [.phl] s t ∧ t.phl = { s.phl with hbIn := .low })) ∧
    (level = .high → s.phl.hbIn ≠ .high → s.phl.ph0.up = true → Gives (.hbStatic level) s (fun t => OnlyParts [.phl, .regs, .records] s t ∧
      RegsBut [Addr.PHL_ERR] s t ∧ t.fld F.PHL_ERR.HB_FAULT = 1 ∧ t.phl = { s.phl with hbIn := .high }))) ∧
  (∀ (s : State) (id : LinkId), s.running .phl = true →
    let x := s.phl
    let known (fb : Bool) : PhlState := { x with
      linkIdSeen := true, linkEpoch := (x.linkEpoch + 1) % 2 ^ 32, peerEpoch := id.epoch.toNat, peerNode := id.node.toNat, peerKnown := true
      peerKept := id.imageKept, peerPrimary := id.primary, peerReceived := id.received.toNat, peerSent := id.sent.toNat
      ph0 := if fb then x.ph0 else { x.ph0 with up := true }
      credit := if fb then x.credit else s.fullCredit - sumOf (x.unacked.map (fun f => frameCredits f.data.length))
      rxHeld := if fb then x.rxHeld else [] }
    let mayLink : Prop := s.matches_ id = true ∧ (s.on F.PHL_CTL.ENCRYPT = false ∨ s.cip.fabricRoot.isSome = true)
    let refuses (y : PhlState) (t : State) : Prop := OnlyParts [.phl, .regs, .records] s t ∧ RegsBut [Addr.PHL_ERR] s t ∧ t.phl = y ∧
      (t.fld F.PHL_ERR.PEER_MISMATCH = 1 ∨ t.fld F.PHL_ERR.ENC_MISMATCH = 1)
    (x.ph0.trained = true → x.ph0.up = false →
      (mayLink → x.twin = .linking → Restoring s → id.epoch.toNat = x.epoch → id.imageKept = false → Settled s → s.svc.chOut = [] →
        x.twinWait = [] → x.hmapIn = [] → (∀ e ∈ s.regions, s.ownPriv e.1 = false) → (∀ n < 2, (s.ses (2 ^ 20 - 1 - n)).isSome = true) →
        Gives (.linkId .ph0 id) s (fun t => OnlyParts [.phl, .regs, .records] s t ∧ RegsBut [Addr.PHL_CNT3] s t ∧
          t.phl = { (known false).quiet with
            twin := .paired, rxNext := (id.sent.toNat + 1) % 2 ^ 32, lostByCommand := false, credit := s.fullCredit
            primary := x.primary || (!id.primary && !s.odd), twinChOut := [], leaseRunning := true, guardPassed := false
            servedAlone := false })) ∧
      (mayLink → s.decidesLink = false → Gives (.linkId .ph0 id) s (fun t => OnlyParts [.phl] s t ∧ t.phl = known false)) ∧
      (s.matches_ id = true → s.on F.PHL_CTL.ENCRYPT = true → s.cip.fabricRoot = none → Gives (.linkId .ph0 id) s (fun t => t = s)) ∧
      (s.matches_ id = false → Gives (.linkId .ph0 id) s (refuses { x with ph0 := PhState.reset }))) ∧
    (x.ph1.trained = true → x.ph1.up = false →
      (id.product.toNat = s.fld F.GEN_ID.PRODUCT → Gives (.linkId .ph1 id) s (fun t =>
        OnlyParts [.phl] s t ∧ t.phl = { x with ph1 := { x.ph1 with up := true } })) ∧
      (id.product.toNat ≠ s.fld F.GEN_ID.PRODUCT → Gives (.linkId .ph1 id) s (refuses { x with ph1 := PhState.reset }))) ∧
    (s.twinSession = true → x.linkIdSeen = false →
      (mayLink → s.decidesLink = false → Gives (.linkId .fallback id) s (fun t => OnlyParts [.phl] s t ∧ t.phl = known true)) ∧
      (s.matches_ id = false → Gives (.linkId .fallback id) s (refuses x))))

/-- R258 to R261, R263, R271, R274, R278 to R280, R284 and R285: the ceiling and destage. -/
def Obligations.CeilingAndDestageKeepTheCharge : Prop :=
  (∀ (s : State), s.running .dst = true →
    let pages (t : State) (p : Nat) (q : Page) : Prop := Tab.get t.dst.pages p = some q ∧
      ∀ r, r ≠ p → Tab.get t.dst.pages r = Tab.get s.dst.pages r
    let bitmap (t : State) (p : Nat) : Prop := t.nc = { s.nc with dirtyMap := t.nc.dirtyMap } ∧
      ∀ r, r ≠ p → (r ∈ t.nc.dirtyMap ↔ r ∈ s.nc.dirtyMap)
    let moved (k : Nat) (to_ : NandAddr) (t : State) : Prop := ∀ p e, Tab.get s.dst.map p = some e →
      (¬ (e.valid = true ∧ e.key = k) → Tab.get t.dst.map p = some e) ∧ (e.valid = true → e.key = k →
        ∃ f, Tab.get t.dst.map p = some f ∧ f.valid = true ∧ f.key = nandKey to_ ∧ f.page = e.page ∧ f.poisonAny = e.poisonAny)
    let erased (k : Nat) (t : State) : Prop := (∀ p e, Tab.get t.dst.map p = some e → e.valid = true → e.key ≠ k) ∧
      t.dst.pages = s.dst.pages ∧ t.dst.nand = s.dst.nand ∧
      (Tab.get t.dst.blocks k).map (·.erases) = some (((Tab.get s.dst.blocks k).map (·.erases)).getD 0 + 1)
    (∀ hup : BitVec 12, s.fld F.DST_HUP_CFG.P_SAVE ≠ 0 → Gives (.ceilingRecompute hup) s (fun t =>
      let e := if hup.toNat = 4095 then 0 else s.energyAt (s.bankVolt hup.toNat) 0
      let v := s.dst.saveErased - 2048
      let g := s.fld F.DST_CEIL_CTL.PROG_CEIL
      OnlyParts [.dst, .seq, .draws, .regs, .records] s t ∧ RegsBut [Addr.DST_CNT0] s t ∧ t.freeCtr = s.freeCtr + 1 ∧
      t.dst.hupCode = hup.toNat ∧ t.dst.energyTerm = e ∧ t.dst.saveTerm = v ∧ t.dst.ceff = min g (min e v) ∧
      t.dst.limiter = (if hup.toNat = 4095 then 1 else if min g (min e v) = g then 0 else if min g (min e v) = e then 1 else 2) ∧
      t.dst.pages = s.dst.pages ∧
      t.seq = { s.seq with codes := s.seq.codes.set 8 hup.toNat })) ∧
    (∀ u c op, s.nextCharge = some u → s.waitingCopies = [] → u.door = .strand c op → s.unitsNumbered = true → Gives .chargeGrant s (fun t =>
      let pos := ((Tab.get s.regions u.region).map (·.nextPos)).getD 0 + 1
      OnlyParts admission s t ∧ RegsBut admissionRegs s t ∧
      (∃ v ∈ t.pst.units, v.id = u.id ∧ v.charged = true ∧ v.hold = .none ∧ v.position = pos ∧ v.committed = u.committed) ∧
      (∀ r, Tab.get s.regions u.region = some r → Tab.get t.regions u.region = some { r with nextPos := r.nextPos + 1, written := true }) ∧
      (u.cls ≠ .d0 → ∀ p ∈ pagesOf u.dpa u.len, ∃ q, Tab.get t.dst.pages p = some q ∧ q.dirty = true))) ∧
    (∀ c, s.nextCharge = none → s.waitingCopies.find? (fun c => s.copyFits c) = some c → Gives .chargeGrant s (fun t =>
      OnlyParts [.phl, .dst, .regs, .records] s t ∧ RegsBut [Addr.DST_CNT0] s t ∧
      t.phl = { s.phl with copies := s.phl.copies.map (fun d => if d.msn = c.msn then { d with charged := true } else d) } ∧
      ∀ p ∈ pagesOf c.dpa c.span, ∃ q, Tab.get t.dst.pages p = some q ∧ q.dirty = true)) ∧
    (∀ (page : BitVec 30) q, s.running .mem = true → s.mayDestage page.toNat = true → s.destageFirst page.toNat = true →
      Tab.get s.dst.pages page.toNat = some q →
      (∀ b ∈ blocksOf (page.toNat * 16384) 16384, Tab.get s.nc.lines b = none ∧ s.nc.inVictim b = none) →
      (s.pageImage page.toNat ≠ [] ∨ s.pagePoison page.toNat ≠ [] → Gives (.destageStart page) s (fun t =>
        OnlyParts [.dst, .cip, .regs, .pmu] s t ∧ RegsBut [Addr.CIP_CNT1] s t ∧ t.cip = { s.cip with cache := t.cip.cache } ∧
        t.dst = { s.dst with pages := t.dst.pages } ∧ pages t page.toNat { q with destaging := true, redirtied := false })) ∧
      (s.pageImage page.toNat = [] → s.pagePoison page.toNat = [] → q.redirtied = false → Gives (.destageStart page) s (fun t =>
        OnlyParts [.dst, .nc, .regs, .records] s t ∧ RegsBut [Addr.DST_CNT0] s t ∧ bitmap t page.toNat ∧
        pages t page.toNat { q with dirty := false, destaging := false } ∧
        (∃ e, Tab.get t.dst.map page.toNat = some e ∧ e.zero = true ∧ e.valid = false) ∧
        ∀ a, Memory.read t.dst.nand a = if pageOf a = page.toNat then 0 else Memory.read s.dst.nand a))) ∧
    (∀ (page : BitVec 30) (at_ : NandAddr) q, Tab.get s.dst.pages page.toNat = some q → q.destaging = true →
      (Memory.wf s.ddr = true → Memory.wf s.dst.nand = true → Gives (.destageComplete page at_ true) s (fun t =>
        OnlyParts [.dst, .nc, .regs, .pmu, .records] s t ∧ RegsBut [Addr.DST_CNT0] s t ∧ bitmap t page.toNat ∧
        pages t page.toNat (if q.redirtied then { q with destaging := false, redirtied := false, since := s.time }
          else { q with destaging := false, dirty := false }) ∧
        (∃ e, Tab.get t.dst.map page.toNat = some e ∧ e.valid = true ∧ e.zero = false ∧ e.key = nandKey at_ ∧ e.page = at_.page.toNat) ∧
        (∀ a, pageOf a ≠ page.toNat → Memory.read t.dst.nand a = Memory.read s.dst.nand a) ∧
        ∀ i < 4, ∀ j < 4096, Memory.read t.dst.nand (page.toNat * 16384 + i * 4096 + j) =
          if i ∈ s.keptBlocks page.toNat then Memory.read s.ddr (page.toNat * 16384 + i * 4096 + j) else 0)) ∧
      (s.dst.saving = false → Tab.sorted s.dst.map = true → Gives (.destageComplete page at_ false) s (fun t =>
        OnlyParts [.dst, .draws, .regs, .records] s t ∧ RegsBut [Addr.DST_ERR] s t ∧ t.freeCtr = s.freeCtr + 1 ∧
        pages t page.toNat { q with destaging := false, redirtied := false } ∧ t.dst.retired = s.dst.retired + 1 ∧
        t.dst.nand = s.dst.nand ∧ moved (nandKey at_) s.freeAddr t ∧ ((Tab.get t.dst.blocks (nandKey at_)).any (fun b => b.retired)) = true))) ∧
    (∀ (page : BitVec 30) (at_ : NandAddr), s.dst.saving = true → Gives (.destageComplete page at_ false) s (fun t => OnlyParts [.regs] s t ∧
      RegsBut [Addr.DST_CNT3] s t ∧ Rises s t F.DST_CNT3.SAVE_PROG_FAILS 1)) ∧
    (∀ (seg : BitVec 12),
      (∀ n w, Tab.get s.dst.dirtySegs seg.toNat = some (n, w) → 4096 ≤ n ∨ w + 60000000000 ≤ s.time → Gives (.mapSegmentWrite seg) s (fun t =>
        OnlyParts [.dst] s t ∧ t.dst = { s.dst with dirtySegs := t.dst.dirtySegs } ∧ Tab.get t.dst.dirtySegs seg.toNat = none ∧
        ∀ k, k ≠ seg.toNat → Tab.get t.dst.dirtySegs k = Tab.get s.dst.dirtySegs k)) ∧
      (seg.toNat ∈ s.dst.segReload → Gives (.mapSegmentReload seg) s (fun t => OnlyParts [.dst] s t ∧
        t.dst = { s.dst with segReload := s.dst.segReload.filter (fun k => k != seg.toNat) }))) ∧
    (s.mod.mode ≠ .save →
      (∀ (free : BitVec 10) (to_ : NandAddr),
        (¬ free.toNat < 30 ∨ s.gcVictim = none ∨ s.gcVictim = some (nandKey to_) → Gives (.garbageCollection free to_) s (fun t =>
          OnlyParts [.dst] s t ∧ t.dst = { s.dst with gcRunning := decide (free.toNat < 30) })) ∧
        (∀ k, free.toNat < 30 → s.gcVictim = some k → k ≠ nandKey to_ → Tab.sorted s.dst.map = true →
          Gives (.garbageCollection free to_) s (fun t => OnlyParts [.dst] s t ∧ t.dst.gcRunning = true ∧ moved k to_ t ∧ erased k t))) ∧
      (∀ (a b : NandAddr),
        (nandKey a ≠ nandKey b → s.wearLow (nandKey a) = true → Tab.sorted s.dst.map = true → Gives (.wearMove a b) s (fun t =>
          OnlyParts [.dst] s t ∧ moved (nandKey a) b t ∧ erased (nandKey a) t)) ∧
        (s.wearLow (nandKey a) = false → Gives (.wearMove a b) s (fun t => t = s)) ∧
        (∀ (save : Bool) (worst : BitVec 7) (ok : Bool),
          let gone (t : State) : Prop := ((Tab.get t.dst.blocks (nandKey a)).any (fun b => b.retired)) = true ∧ t.dst.retired = s.dst.retired + 1
          let worn := s.fld F.DST_NAND_CFG.REFRESH_PCT < worst.toNat
          ((save = true ∧ ok = true) ∨ (save = false ∧ ¬ worn) → Gives (.patrol a save worst ok b) s (fun t => t = s)) ∧
          (save = true → ok = false → Gives (.patrol a save worst ok b) s (fun t => OnlyParts [.dst, .regs, .records] s t ∧
            RegsBut [Addr.DST_ERR] s t ∧ gone t ∧ t.dst.map = s.dst.map ∧ t.dst.saveErased = s.dst.saveErased - Config.saveBlockMib)) ∧
          (save = false → worn → nandKey a ≠ nandKey b → Tab.sorted s.dst.map = true → Gives (.patrol a save worst ok b) s (fun t =>
            OnlyParts [.dst, .regs, .records] s t ∧ RegsBut [Addr.DST_CNT3, Addr.DST_ERR] s t ∧ Rises s t F.DST_CNT3.REFRESHES 1 ∧
            moved (nandKey a) b t ∧ erased (nandKey a) t ∧ ((Tab.get t.dst.blocks (nandKey a)).any (fun b => b.refreshed)) = true ∧
            (s.fld F.DST_NAND_CFG.RETIRE_PCT < worst.toNat → ((Tab.get s.dst.blocks (nandKey a)).any (fun b => b.refreshed)) = true →
              gone t)))))) ∧
    (∀ page : BitVec 30, Gives (.pageQuery page) s (fun t => OnlyParts [.regs] s t ∧ RegsBut [Addr.DST_PAGE_Q] s t ∧
      t.fld F.DST_PAGE_Q.PAGE = page.toNat ∧ t.fld F.DST_PAGE_Q.STATE = s.pageState page.toNat ∧
      (t.fld F.DST_PAGE_Q.POISON_ANY = 1 ↔ ∃ l, (l ∈ s.poison ∨ l ∈ s.dst.nandPoison) ∧ pageOf l = page.toNat) ∧
      (t.fld F.DST_PAGE_Q.IN_SAVE_IMAGE = 1 ↔ ∃ i ∈ s.dst.images, i.complete = true ∧ page.toNat ∈ i.pages))))

/-- R265, R267, R268 and R404: hold-up tests. -/
def Obligations.HoldUpTestsMeasureTheBank : Prop :=
  (∀ (s : State), s.running .dst = true → s.seq.st = .up → s.dst.testing = false → s.mod.mode ≠ .save →
    let begun (now : Nat) (t : State) : Prop := OnlyParts [.dst, .seq, .draws, .regs, .records] s t ∧ RegsBut [Addr.DST_CNT0, Addr.DST_HUP_CTL] s t ∧
      t.freeCtr = s.freeCtr + 1 ∧ t.dst.measC = s.dst.measC ∧ t.dst.measEsr = s.dst.measEsr ∧
      t.fld F.DST_HUP_CTL.TEST_NOW = now ∧
      (s.testTooDear = false → t.dst.testing = true ∧ t.dst.deferred = 0 ∧ t.seq = { s.seq with hupTestEn := true }) ∧
      (s.testTooDear = true → t.dst.testing = false ∧ 1 ≤ t.dst.deferred ∧ t.seq = s.seq ∧ Rises s t F.DST_CNT0.TESTS_DEFERRED 1)
    Gives .holdUpTest s (begun (s.fld F.DST_HUP_CTL.TEST_NOW)) ∧ Gives .testNow s (begun 1) ∧
    (s.dst.deferred ≠ 0 → Gives .testRetry s (begun (s.fld F.DST_HUP_CTL.TEST_NOW)))) ∧
  (∀ (s : State) (c esr : BitVec 16), s.running .dst = true → s.dst.testing = true →
    let rc := s.fld F.DST_HUP_RATED.RATED_C
    let re := s.fld F.DST_HUP_RATED.RATED_ESR
    let odd := 10 * c.toNat < rc ∨ 2 * rc < c.toNat ∨ 10 * re < esr.toNat
    let over_ (t : State) : Prop := RegsBut [Addr.DST_CNT0, Addr.DST_HUP_CTL, Addr.DST_ERR] s t ∧ t.dst.testing = false ∧
      t.seq = { s.seq with hupTestEn := false } ∧ t.fld F.DST_HUP_CTL.TEST_NOW = 0
    (odd → Gives (.hupTestResult c esr) s (fun t => OnlyParts [.dst, .seq, .regs, .records] s t ∧ over_ t ∧ t.fld F.DST_ERR.HUP_IMPLAUSIBLE = 1 ∧
      t.dst = { s.dst with testing := false })) ∧
    (¬ odd → Gives (.hupTestResult c esr) s (fun t => OnlyParts [.dst, .seq, .regs, .records, .draws] s t ∧ over_ t ∧
      t.dst = { s.dst with testing := false, measC := c.toNat, measEsr := esr.toNat, measValid := true, measTime := s.time } ∧
      Rises s t F.DST_CNT0.TESTS_DONE 1 ∧ (100 * c.toNat < 80 * rc ∨ 2 * re < esr.toNat → t.fld F.DST_ERR.HUP_WEAK = 1) ∧
      (¬ (100 * c.toNat < 80 * rc ∨ 2 * re < esr.toNat) → t.fld F.DST_ERR.HUP_WEAK = s.fld F.DST_ERR.HUP_WEAK))))

/-- R31, R44, R70 to R72, R286 to R288, R292 and R293: SAVE. -/
def Obligations.SaveKeepsWhatHasCommitted : Prop :=
  (∀ (s : State), s.mayReset = true → s.dst.testing = false → s.seq.hupTestEn = false → s.isl.length = 15 → Gives .resetSave s (fun t =>
    let down := if s.windowOpen then [Island.ctl, .pe, .tir] else [.ctl, .pe, .tir, .cal]
    OnlyParts [.mod, .pe, .tir, .islands, .records, .lps] s t ∧ t.mod.mode = .save ∧ t.mod.prev = s.mod.mode ∧ t.mod.intakeClosed = true ∧
    t.mod.frozen = false ∧ t.mod.enteredAt = s.time ∧ t.pe = { s.pe with stopped := true } ∧ t.tir = { s.tir with loansOut := [] } ∧
    (∀ i ∈ down, t.run i = .inReset) ∧ ∀ i ∉ down, t.run i = (if s.run i = .gated then .running else s.run i))) ∧
  (∀ (s : State), s.deliveredTo .pst = false → Gives .saveEntry s (fun t => t = s)) ∧
  (∀ (s : State), s.running .dst = true → s.mod.mode = .save → s.dst.saving = false → s.isl.length = 15 → s.deliveredTo .pst = true →
    Gives .saveEntry s (fun t =>
    OnlyParts [.islands, .hst, .fab, .phl, .dst, .seq] s t ∧ (∀ i ∈ [Island.hst, .fab, .phl], t.run i = .off) ∧
    (∀ i ∉ [Island.hst, .fab, .phl], t.run i = s.run i) ∧ t.phl = { s.phl with ph0 := PhState.reset, ph1 := PhState.reset } ∧
    t.dst = { s.dst with
      saving := true, dirtyChannels := t.dst.dirtyChannels, gcRunning := false
      pages := s.dst.pages.map (fun e => (e.1, { e.2 with destaging := false, redirtied := false })) } ∧
    (∀ k < 16, k ∈ t.dst.dirtyChannels ↔ ∃ p ∈ s.savePages, channelOf p = k) ∧
    (s.seq.st ≠ .saveHold → t.seq = s.seq) ∧
    (s.seq.st = .saveHold → ∀ k < 16, s.chClass (14 + k) = 2 → (∀ p ∈ s.savePages, channelOf p ≠ k) → t.chOn (14 + k) = false))) ∧
  (∀ (s : State), s.running .dst = true → s.mod.mode = .save → s.dst.saving = true → s.seq.st ≠ .saveHold → s.mod.prev ≠ .cold →
    s.contrail.unflushed = [] → s.recUp = false → s.dst.images = [] → (∀ p ∈ s.savePages, channelOf p ∈ s.dst.dirtyChannels) →
    let saved (t : State) : Prop := t.mod.mode = .cold ∧ t.dst.lastIncomplete = false ∧ t.dst.saveNo = s.dst.saveNo + 1 ∧
      ∃ i, t.dst.images = [i] ∧ i.no = s.dst.saveNo + 1 ∧ i.complete = true ∧ i.pages = s.savePages ∧
        i.units = s.pst.units.filter (fun u => u.cls != .d0) ∧ i.copies.length = s.phl.copies.length ∧
        i.frames = s.phl.unacked ++ s.phl.fwdParts ∧ i.extents = (s.pst.extents.map (·.2)).filter (·.opened)
    (∀ k, s.seq.offPending = true → s.busyStep = some k → Gives .saveComplete s (fun t => saved t ∧ t.seq.st = .rampDown ∧ t.seq.step = k)) ∧
    (s.seq.offPending = false → Gives .saveComplete s (fun t => saved t ∧
      t.dst.map = s.dst.map ∧ t.dst.nand = s.dst.nand ∧ t.pst.units = [] ∧ t.ddr = [] ∧ t.tenants = s.tenants ∧ t.time = s.time ∧
      t.fab.defs = s.fab.defs ∧ t.phl.epoch = s.phl.epoch ∧ t.phl.separation = s.phl.separation ∧
      t.run .aon = s.run .aon ∧ (∀ i ∈ [Island.cfl, .mem, .cal], t.run i = .running) ∧
      ∀ i ∉ [Island.aon, .cfl, .mem, .cal], t.run i = .inReset))) ∧
  (∀ (s : State) k, s.running .aon = true → s.seq.st = .saveHold → s.mod.prev ≠ .cold → s.mod.mode = .save → s.seq.failPath = false →
    s.busyStep = some k → Gives .vMin s (fun t => t.seq.st = .rampDown ∧ t.seq.step = k ∧ t.seq.timeoutPath = true ∧ t.seq.failPath = false ∧
      (∀ n < 32, t.chOn n = (s.chOn n && s.chStep n != k)) ∧ t.dst.lastIncomplete = true ∧
      (∃ i, t.dst.images.getLast? = some i ∧ i.complete = false ∧ i.pages = s.savePages) ∧ t.seq.nextFault = s.seq.nextFault + 1 ∧
      Rises s t F.SEQ_CNT0.RAIL_FAILS 1 ∧ t.time = s.time ∧ t.dbg = s.dbg ∧ t.tenants = s.tenants))

/-- R283, R295, R296, R298, R299 and R456: RESTORE. -/
def Obligations.RestoreBringsBackWhatWasSaved : Prop :=
  (∀ (s : State) (erased : BitVec 20) (channels : BitVec 6) (raw : BitVec 20), s.mayRestore = true →
    let short := 4 * raw.toNat < 5 * (s.installedMib / 1024) + 12 * s.fld F.DST_NAND_CFG.SAVE_ZONE + 96
    (short → s.dst.nandShort = false → Gives (.restoreEntry erased channels raw) s (fun t => OnlyParts [.dst, .records] s t ∧
      t.dst = { s.dst with nandShort := true })) ∧
    (∀ i, ¬ short → s.phl.twin = .linking → s.phl.linkIdSeen = false → s.dst.images = [i] → i.complete = true → s.pe.cmds = [] →
      s.tir.plan = none → Gives (.restoreEntry erased channels raw) s (fun t =>
      OnlyParts [.dst, .pst, .phl, .mod, .regs, .records] s t ∧ RegsBut [Addr.PST_DUR_CNT1] s t ∧ t.mod.mode = .restore ∧
      t.pst = { s.pst with units := s.pst.units ++ (i.units.filter (·.committed)).map CUnit.reloaded } ∧
      t.phl = { s.phl with copies := s.phl.copies ++ i.copies } ∧ Rises s t F.PST_DUR_CNT1.ROLLED_BACK i.rolled)) ∧
    (¬ short → s.phl.twin = .linking → s.phl.linkIdSeen = false → s.dst.images = [] → s.pe.cmds = [] →
      (∀ p, s.tir.plan = some p → s.planSigned (p.bytes.take (planLen (planCount p.bytes))) = true) →
      Gives (.restoreEntry erased channels raw) s (fun t => OnlyParts [.dst, .mod, .regs, .records] s t ∧
      RegsBut [Addr.PST_DUR_CNT1, Addr.TIR_PLACE_CTL, Addr.TIR_PLAN_STATUS] s t ∧
      (s.tir.plan.isSome = true → t.fld F.TIR_PLACE_CTL.PLANNED = 1 ∧ t.fld F.TIR_PLAN_STATUS.VALID = 1) ∧
      (s.tir.plan = none → RegsBut [Addr.PST_DUR_CNT1] s t) ∧ t.mod.mode = .restore ∧ t.mod.prev = .cold ∧
      t.dst.saveErased = erased.toNat ∧ t.dst.channels = channels.toNat ∧ t.dst.rawGib = raw.toNat ∧
      (∀ p ∈ s.nandPages, ∃ q, Tab.get t.dst.pages p = some q ∧ q.unrestored = true ∧ q.dirty = false ∧ q.demand = false) ∧
      ∀ p ∉ s.nandPages, Tab.get t.dst.pages p = Tab.get s.dst.pages p))) ∧
  (∀ (s : State) (page : BitVec 30), s.mayRead page.toNat = true → s.phl.twin = .alone → s.mod.mode = .solo → s.svc.filling = [] →
    s.hst.reads = [] →
    let p := page.toNat
    let bs := s.ownBlocks p ++ s.mirrorBlocks p
    let back (t : State) : Prop := s.unrestored (16384 * p) = true ∧ t.unrestored (16384 * p) = false ∧ t.dst.images = s.dst.images ∧
      t.dst.nand = s.dst.nand ∧ t.dst.map = s.dst.map
    (s.dst.lostPage p = false → s.onDeadDie p = false → Memory.wf s.ddr = true → Memory.wf (s.dst.pageBytes p) = true →
      Gives (.pageRestored page true) s (fun t =>
      OnlyParts [.ddr, .bytes, .poison, .mem, .dst, .cip, .regs] s t ∧ RegsBut [Addr.CIP_CNT1] s t ∧ t.cip = { s.cip with cache := t.cip.cache } ∧
      back t ∧
      (∀ a, Memory.read t.ddr a = if inBlocks bs a then Memory.read (s.dst.pageBytes p) a else Memory.read s.ddr a) ∧
      ∀ l, inBlocks bs l = true → (l ∈ t.poison ↔ l ∈ s.dst.pagePoisoned p))) ∧
    (Gives (.pageRestored page false) s (fun t => OnlyParts [.poison, .mem, .dst, .regs, .records] s t ∧
      RegsBut [Addr.DST_CNT2] s t ∧ back t ∧ (∀ b ∈ bs, ∀ l ∈ linesOf b 4096, l ∈ t.poison) ∧
      ∀ l ∈ s.poison, l ∈ t.poison))) ∧
  (∀ (s : State) (page : BitVec 30) q, s.running .dst = true → Tab.get s.dst.pages page.toNat = some q → q.unrestored = true → q.demand = true →
    s.hst.reads = [] → s.pe.cmds = [] → Gives (.demandDeadline page) s (fun t => OnlyParts [.regs, .records] s t ∧ RegsBut [Addr.DST_CNT3] s t ∧
      Rises s t F.DST_CNT3.DEADLINE_POISONS 1)) ∧
  (∀ (s : State), s.running .ctl = true → s.mod.mode = .restore →
    (s.unrestoredPages = [] → s.fab.defs = [] →
      let to_ (m : Mode) (t : State) : Prop := OnlyParts [.mod, .dst, .regs, .records] s t ∧ RegsBut [Addr.MOD_CNT0] s t ∧
        t.dst = { s.dst with testCut := false } ∧ t.mod.mode = m ∧ t.mod.prev = .restore ∧ t.mod.enteredAt = s.time
      ((s.phl.twin = .alone ∨ s.phl.twin = .absent ∨ s.phl.twin = .resyncOut) → Gives .restoreComplete s (to_ .solo)) ∧
      ((s.phl.twin = .paired ∨ s.phl.twin = .fallback) → Gives .restoreComplete s (to_ .serve))) ∧
    (s.unrestoredPages ≠ [] → s.phl.twin ≠ .lost → Gives .restoreComplete s (fun t => t = s)))

/-- R358, R360 to R362, R365 to R367, R369, R371, R374, R375 and R378: the DRAM subsystem. -/
def Obligations.DramErrorsAreCorrectedRepairedOrPoisoned : Prop :=
  (∀ (s : State) (dimms : List Dimm), s.running .mem = true → s.mod.mode = .cold → s.seq.st = .up → s.svc.chOut = [] → s.mem.chans.length = 16 →
    (∀ n g, (n = 1 ∨ n = 2) → g ∈ [64, 96, 128, 192, 256] → (∀ k < 16, (dimms.filter (fun d => d.channel.toNat == k)).length = n) →
      (∀ d ∈ dimms, d.typeOk = true ∧ d.sideOk = true ∧ d.gib.toNat = g ∧ d.speed ≠ 0) → Gives (.populationCheck dimms) s (fun t =>
        OnlyParts [.mem, .records] s t ∧ t.mem.valid = true ∧ t.mem.invalid = false ∧ t.mem.dpc = n ∧ t.mem.gib = g ∧
        t.mem.limit = 16 * n * g * 4096 - s.mem.removed ∧ (∀ d ∈ dimms, t.mem.speed ≤ d.speed.toNat) ∧
        (∃ d ∈ dimms, t.mem.speed = min 3 d.speed.toNat) ∧ ∀ k < 16, (t.ch k).present = true)) ∧
    (∀ k < 16, (∀ d ∈ dimms, d.channel.toNat ≠ k) → Gives (.populationCheck dimms) s (fun t => OnlyParts [.mem, .records] s t ∧
      t.mem.valid = false ∧ t.mem.invalid = true ∧ t.mem.limit = s.mem.limit ∧ (t.ch k).present = false))) ∧
  (∀ (s : State) (ch : BitVec 4), s.running .mem = true → s.mem.chans.length = 16 →
    let k := ch.toNat
    let c := s.ch k
    let others (t : State) : Prop := ∀ j, j ≠ k → t.ch j = s.ch j
    (∀ temp : BitVec 8, s.mem.valid = true → c.lost = false →
      let limit := s.fld F.MEM_CTL.TEMP_THROTTLE
      let hot : Bool := decide (limit ≤ temp.toNat) || (c.throttled && decide (limit < temp.toNat + 5))
      let new : MemCh := { c with temp := temp.toNat, fastRefresh := decide (85 ≤ temp.toNat), throttled := hot }
      (hot = false ∨ c.throttled = true → Gives (.thermalSensorRead ch temp) s (fun t => OnlyParts [.mem] s t ∧ t.ch k = new ∧ others t)) ∧
      (hot = true → c.throttled = false → Gives (.thermalSensorRead ch temp) s (fun t => OnlyParts [.mem, .regs, .records] s t ∧
        RegsBut [Addr.MEM_ERR] s t ∧ t.fld F.MEM_ERR.TEMP_HIGH = 1 ∧ t.ch k = new ∧ others t))) ∧
    (c.out = false → c.lost = false → s.phl.twin.linked = true → Gives (.pmicRead ch true) s (fun t =>
      OnlyParts [.ddr, .bytes, .poison, .mem, .svc, .phl, .out, .pmu, .records] s t ∧ t.ch k = { c with out := true, lost := true } ∧ others t ∧
      k ∈ t.svc.chOut ∧ Sends s t { Frame.mk0 13 with aux := 6 + 256 * k } ∧
      (∀ a, Memory.read t.ddr a = if channelOf (pageOf a) = k ∧ ((s.regionAt a).all (fun e => e.2.floor == .d0)) = true then 0
        else Memory.read s.ddr a) ∧
      (∀ l ∈ s.poison, l ∈ t.poison) ∧
      ∀ p q, Tab.get s.dst.pages p = some q → q.dirty = true → channelOf p = k → ∀ b ∈ s.ownBlocks p, ∀ l ∈ linesOf b 4096, l ∈ t.poison)) ∧
    (Gives (.pmicRead ch false) s (fun t => t = s))) ∧
  (∀ (s : State) (line : BitVec 38) (rank : BitVec 2) (device : BitVec 4) (scrub : Bool), s.running .mem = true → s.mem.chans.length = 16 →
    let site : CeSite := .ddr line rank device scrub
    let a := 64 * line.toNat
    let k := channelOf (pageOf a)
    let c := s.ch k
    let half := 2 * rank.toNat + line.toNat % 2
    let pos := half * 16 + device.toNat
    let kept : Prop := (scrub && s.writeWaits a) = false
    let once : MemCh := { c with corrected := c.corrected ++ [(pos, a)] }
    let seen := (c.corrected.filter (fun e => e.1 == pos)).length + 1
    let others (t : State) : Prop := ∀ j, j ≠ k → t.ch j = s.ch j
    (pos, a) ∉ c.corrected →
    (seen ≠ s.fld F.MEM_CTL.DEV_THR →
      (kept → Gives (.correctedError site false) s (fun t => OnlyParts [.mem, .regs, .pmu] s t ∧ RegsBut [Addr.MEM_CNT0] s t ∧
        Rises s t F.MEM_CNT0.CORRECTED 1 ∧ t.ch k = once ∧ others t)) ∧
      (∀ again, ¬ kept → Gives (.correctedError site again) s (fun t => OnlyParts [.mem, .regs, .pmu] s t ∧ RegsBut [Addr.MEM_CNT3] s t ∧
        Rises s t F.MEM_CNT3.SCRUB_CANCELS 1 ∧ t.ch k = once ∧ others t)) ∧
      (kept → a ∉ c.hard → c.remap.length < 8 → (∀ l ∈ c.hard, pageOf l ≠ pageOf a) → Gives (.correctedError site true) s (fun t =>
        OnlyParts [.mem, .regs, .pmu] s t ∧ RegsBut [Addr.MEM_CNT0] s t ∧ Rises s t F.MEM_CNT0.HARD 1 ∧
        (t.ch k).hard = c.hard ++ [a] ∧ (∃ w, Tab.get c.remap w = none ∧ Tab.get (t.ch k).remap w = some a ∧
          ∀ v, v ≠ w → Tab.get (t.ch k).remap v = Tab.get c.remap v) ∧ others t))) ∧
    (kept → seen = s.fld F.MEM_CTL.DEV_THR → s.on F.MEM_CTL.DEV_ERASE_EN = true →
      (Tab.get c.erased half = none → Gives (.correctedError site false) s (fun t => OnlyParts [.mem, .regs, .pmu, .records] s t ∧
        RegsBut [Addr.MEM_CNT0, Addr.MEM_ERR] s t ∧ Rises s t F.MEM_CNT0.CORRECTED 1 ∧ t.fld F.MEM_ERR.DEVICE_FAILED = 1 ∧
        t.ch k = { once with erased := Tab.put c.erased half device.toNat } ∧ others t)) ∧
      (∀ d, Tab.get c.erased half = some d → Gives (.correctedError site false) s (fun t =>
        OnlyParts ([.mem, .regs, .pmu] ++ if d = device.toNat then [] else [.records]) s t ∧ RegsBut [Addr.MEM_CNT0] s t ∧
        Rises s t F.MEM_CNT0.CORRECTED 1 ∧ t.ch k = once ∧ others t)))) ∧
  (∀ (s : State), s.running .mem = true →
    let counted (t : State) : Prop := Rises s t F.MEM_CNT1.UNCORRECTED 1
    let soft (t : State) : Prop := OnlyParts [.regs] s t ∧ RegsBut [Addr.MEM_CNT0] s t ∧ Rises s t F.MEM_CNT0.CORRECTED 1
    Gives (.correctedError .other false) s soft ∧ (∀ b, Gives (.correctedError (.nearCache b) false) s soft) ∧
    Gives (.correctedError .other true) s (fun t => OnlyParts [.regs] s t ∧ RegsBut [Addr.MEM_CNT0] s t ∧ Rises s t F.MEM_CNT0.HARD 1) ∧
    (∀ line : BitVec 38,
      let a := 64 * line.toNat
      s.repairing a 64 = false →
      (s.on F.MEM_CTL.REPAIR_EN = true → s.twinSupplies a = true → Gives (.uncorrectableError (.ddr line)) s (fun t =>
        OnlyParts [.mem, .out, .regs] s t ∧ RegsBut [Addr.MEM_CNT1, Addr.MEM_ERR_LOG] s t ∧ counted t ∧ t.out = s.out ++ [.repairRead a] ∧
        t.mem = { s.mem with repairs := s.mem.repairs ++ [{ line := a, fromTwin := true, demand := true }] })) ∧
      (s.on F.MEM_CTL.REPAIR_EN = false → s.hst.reads = [] → a ∉ s.poison → Gives (.uncorrectableError (.ddr line)) s (fun t =>
        OnlyParts [.poison, .regs, .records, .marks] s t ∧ RegsBut [Addr.MEM_CNT1, Addr.MEM_CNT2, Addr.MEM_ERR_LOG] s t ∧ counted t ∧
        t.poison = s.poison ++ [a] ∧ Rises s t F.MEM_CNT2.POISONED 1 ∧ t.fld F.MEM_ERR_LOG.OUTCOME = 3))) ∧
    (∀ page, Gives (.uncorrectableError (.mapEntry page)) s (fun t => OnlyParts [.dst, .regs, .records] s t ∧
      RegsBut [Addr.MEM_CNT1, Addr.MEM_ERR_LOG] s t ∧ counted t ∧ t.dst = { s.dst with segReload := t.dst.segReload } ∧
      page.toNat / 131072 ∈ t.dst.segReload)) ∧
    (∀ n, Gives (.uncorrectableError (.sealState n)) s (fun t => OnlyParts [.cip, .regs, .records] s t ∧
      RegsBut [Addr.MEM_CNT1, Addr.MEM_ERR_LOG] s t ∧ counted t ∧ (Tab.get s.regions n.toNat = none → t.cip = s.cip) ∧
      ∀ r l, Tab.get s.regions n.toNat = some r → s.log n.toNat = some l → ∃ l', t.log n.toNat = some l' ∧
        l'.doneHead = (s.rescanLog r).doneHead ∧ l'.doneSeq = l.doneSeq ∧ l'.seq = l.seq ∧ l'.items = l.items)) ∧
    (∀ n q, Tab.get s.pe.qps n.toNat = some q → q.life = .active → Gives (.uncorrectableError (.queuePair n)) s (fun t =>
      OnlyParts [.pe, .regs, .records] s t ∧ RegsBut [Addr.MEM_CNT1, Addr.MEM_ERR_LOG] s t ∧ counted t ∧
      Tab.get t.pe.qps n.toNat = some { q with life := .stopped } ∧ ∀ m, m ≠ n.toNat → Tab.get t.pe.qps m = Tab.get s.pe.qps m)) ∧
    (∀ (line : BitVec 38) (d : Line) r, s.mem.repairs.find? (fun r => r.line == 64 * line.toNat) = some r → r.fromTwin = true →
      s.nc.serving = false → Memory.wf s.ddr = true → s.hst.reads = [] → Gives (.repairComplete line d false) s (fun t =>
        OnlyParts [.mem, .ddr, .bytes, .poison, .regs] s t ∧ RegsBut [Addr.MEM_CNT0, Addr.MEM_CNT1, Addr.MEM_ERR_LOG] s t ∧
        t.mem = { s.mem with repairs := s.mem.repairs.filter (fun x => x.line != 64 * line.toNat) } ∧
        (∀ i < 64, Memory.read t.ddr (64 * line.toNat + i) = (lineBytes d).getD i 0) ∧
        (∀ a, (a < 64 * line.toNat ∨ 64 * line.toNat + 64 ≤ a) → Memory.read t.ddr a = Memory.read s.ddr a) ∧
        t.poison = s.poison.filter (fun l => l != 64 * line.toNat) ∧ Rises s t F.MEM_CNT1.REPAIRED 1 ∧ Rises s t F.MEM_CNT0.CORRECTED 1 ∧
        t.fld F.MEM_ERR_LOG.OUTCOME = 1)) ∧
    (∀ line : BitVec 38, (∃ r ∈ s.mem.repairs, r.line = 64 * line.toNat ∧ r.demand = true) → s.hst.reads = [] → s.pe.cmds = [] →
      Gives (.repairDeadline line) s (fun t => OnlyParts [.mem] s t ∧ t.mem = { s.mem with
        repairs := s.mem.repairs.map (fun r => if r.line = 64 * line.toNat then { r with demand := false } else r) }))) ∧
  (∀ (s : State) (page : BitVec 30), s.running .mem = true → s.retireDue page.toNat = true → s.mem.chans.length = 16 →
    let p := page.toNat
    let k := channelOf p
    let c := s.ch k
    let moved (spare : Nat) (t : State) : Prop := OnlyParts [.mem, .regs, .records] s t ∧ RegsBut [Addr.MEM_CNT2] s t ∧
      Rises s t F.MEM_CNT2.RETIRED_PAGES 1 ∧ p ∈ (t.ch k).redirects ∧ (t.ch k).spare = spare ∧
      (∀ d ∈ (t.ch k).hard, pageOf d ≠ p) ∧ ∀ e ∈ (t.ch k).remap, pageOf e.2 ≠ p
    (c.redirects.length < 1024 → 0 < c.spare → Gives (.pageRetirement page) s (fun t => moved (c.spare - 1) t ∧ t.mem.limit = s.mem.limit)) ∧
    (c.redirects.length < 1024 → c.spare = 0 → s.groupFree = true → Gives (.pageRetirement page) s (fun t => moved 0 t ∧
      t.mem.limit = s.mem.limit - 1 ∧ t.mem.removed = s.mem.removed + 1)) ∧
    (1024 ≤ c.redirects.length ∨ (c.spare = 0 ∧ s.groupFree = false) → Gives (.pageRetirement page) s (fun t =>
      OnlyParts [.regs, .records] s t ∧ RegsBut [Addr.MEM_ERR] s t ∧ t.fld F.MEM_ERR.RETIRE_FULL = 1))) ∧
  (∀ (s : State), s.running .mem = true →
    (s.stackTrained 0 = true → s.stackTrained 1 = true → Gives (.initialFill true) s (fun t => OnlyParts [.mem] s t ∧
      t.mem = { s.mem with stackDone := true })) ∧
    (s.chGood 1 = true → Gives (.initialFill false) s (fun t => OnlyParts [.mem] s t ∧ t.mem = { s.mem with sramDone := true })) ∧
    (s.mod.mode ≠ .cold → s.mod.mode ≠ .save →
      (∀ page : BitVec 30, page.toNat < 16 * s.mem.limit → page.toNat ∉ s.mem.init → s.unrestored (16384 * page.toNat) = false →
        Gives (.backgroundFill page) s (fun t => OnlyParts [.mem, .ddr, .bytes] s t ∧ t.mem = { s.mem with init := page.toNat :: s.mem.init } ∧
          ∀ a, Memory.read t.ddr a = if pageOf a = page.toNat then 0 else Memory.read s.ddr a)) ∧
      (s.on F.MEM_SCRUB_CTL.ENABLE = true →
        (s.ddrWindow = false → s.mem.scrubPos ≠ 0 → s.mem.scrubPos + 1 < s.mem.limit → Gives .driftScrub s (fun t => OnlyParts [.mem, .pmu] s t ∧
          t.mem = { s.mem with scrubPos := s.mem.scrubPos + 1 })) ∧
        (s.ddrWindow = false → s.mem.scrubPos ≠ 0 → s.mem.limit ≤ s.mem.scrubPos + 1 → Gives .driftScrub s (fun t => OnlyParts [.mem, .pmu] s t ∧
          t.mem = { s.mem with
            scrubPos := 0, passes := min 65535 (s.mem.passes + 1), behind := false
            lastHours := min 65535 ((s.time - s.mem.scrubStart) / 3600000000000)
            chans := s.mem.chans.map (fun c => { c with corrected := [] }) })) ∧
        (s.mem.scrubPos ≠ 0 → s.mem.behind = false → s.mem.scrubStart + s.mem.scrubPeriod * 3960000000000 ≤ s.time → Gives .scrubBehind s (fun t =>
          OnlyParts [.mem, .regs, .records] s t ∧ RegsBut [Addr.MEM_ERR] s t ∧ t.fld F.MEM_ERR.SCRUB_BEHIND = 1 ∧
          t.mem = { s.mem with behind := true })))))

/-- R15, R72, R381, R383, R384, R389, R390, R392, R394, R396 and R399: the sequencer. -/
def Obligations.ChannelsAreSequencedStepByStep : Prop :=
  (∀ (s : State), s.isl.length = 15 →
    (s.run .aon = .inReset → Gives .aonResetRelease s (fun t => OnlyParts [.islands] s t ∧ t.run .aon = .running ∧
      ∀ i, i ≠ .aon → t.run i = s.run i)) ∧
    (∀ i, s.running .aon = true → s.running i = true → s.clocks.length = 15 → Gives (.timeBaseResync i) s (fun t => OnlyParts [.clocks] s t ∧
      t.clocks[i.code]? = some s.time ∧ ∀ j, j ≠ i.code → t.clocks[j]? = s.clocks[j]?))) ∧
  (∀ (s : State), s.running .aon = true →
    let waits (q : SeqState) : SeqState := { q with
      st := .cascWait, posValid := false, posError := false, timeoutPath := false, failPath := false, firstDone := false, onPending := false
      offPending := false, released := false, ctlReleased := false, bootPhase := 1, bootFail := 0, fallback := false }
    let only (t : State) (q : SeqState) : Prop := OnlyParts [.seq] s t ∧ t.seq = q
    let ready := s.seq.fltHigh = true ∧ s.seq.fltDrive = false ∧ s.seq.tripHold = 0
    (∀ path, (s.seq.st = .off → ready → Gives (.on path) s (fun t => only t (waits s.seq))) ∧
      (s.seq.st = .rampDown → s.seq.tripHold = 0 → Gives (.on path) s (fun t => only t { s.seq with onPending := true })) ∧
      (s.seq.st = .up → Gives (.on path) s (fun t => t = s))) ∧
    (s.on F.SEQ_CTL.AUTO_ON = false → Gives .pfailDebounce s (fun t => only t { s.seq with pfailHigh := true })) ∧
    (s.on F.SEQ_CTL.AUTO_ON = true → s.seq.st = .off → ready → Gives .pfailDebounce s (fun t => only t { waits s.seq with pfailHigh := true })) ∧
    (∀ path, (s.mod.mode ≠ .cold → s.mod.mode ≠ .halt → Gives (.off path) s (OnlyParts [.records] s)) ∧
      (s.mod.mode = .cold ∨ s.mod.mode = .halt →
        (s.seq.st = .cascWait → Gives (.off path) s (fun t => only t { s.seq with st := .off, onPending := false })) ∧
        let nothing : Prop := s.nothingAdmitted = true ∨ (s.savePages = [] ∧ s.pst.units = [] ∧ s.phl.copies = [])
        (∀ k, s.seq.st = .up → s.seq.failPath = false → nothing → s.busyStep = some k → Gives (.off path) s (fun t =>
          WentDown s t k s.seq.timeoutPath false)) ∧
        (s.seq.st = .up → ¬ nothing → s.dst.testing = false → s.seq.hupTestEn = false → Gives (.off path) s (fun t =>
          OnlyParts [.seq, .mod, .pe, .tir, .islands, .records, .lps] s t ∧ t.seq = { s.seq with offPending := true } ∧ t.mod.mode = .save ∧
          t.mod.prev = s.mod.mode ∧ t.mod.intakeClosed = true ∧ t.pe = { s.pe with stopped := true })))) ∧
    (∀ pulses : BitVec 8, s.seq.st = .cascWait →
      (pulses.toNat < 8 → Gives (.cascRelease pulses) s (fun t => OnlyParts [.seq, .boot] s t ∧ t.boot = s.boot + 1 ∧ t.seq = { s.seq with
        cascIn := true, position := pulses.toNat, posValid := true, posError := false, st := .rampUp, step := 0, bootPhase := 1, bootFail := 0 })) ∧
      (8 ≤ pulses.toNat → s.seq.posError = false → Gives (.cascRelease pulses) s (fun t => OnlyParts [.seq, .records] s t ∧
        t.seq = { s.seq with cascIn := true, posError := true, bootPhase := 15, bootFail := 4 }))) ∧
    Gives (.cascFltN .high) s (fun t => only t { s.seq with fltHigh := true }) ∧
    (s.seq.st = .up ∨ s.seq.st = .saveHold → Gives (.cascFltN .low) s (fun t => OnlyParts [.seq, .regs, .records] s t ∧
      RegsBut [Addr.SEQ_STATUS] s t ∧ t.fld F.SEQ_STATUS.FLT_SEEN = 1 ∧ t.seq = { s.seq with fltHigh := false })) ∧
    (s.seq.st = .cascWait → Gives (.cascFltN .low) s (fun t => only t { s.seq with
      fltHigh := false, st := .off, onPending := false, rst := t.seq.rst })) ∧
    (s.seq.fltDrive = true →
      (s.seq.st ≠ .latched → Gives .cascFltRelease s (fun t => only t { s.seq with fltDrive := false })) ∧
      (s.seq.st = .latched → Gives .cascFltRelease s (fun t => only t { s.seq with
        fltDrive := false, cascOut := s.seq.cascOut || s.on F.SEQ_CASC.BYPASS_ON_LATCH }))) ∧
    (s.seq.cascIn = true →
      (s.seq.released = false → Gives .cascInFall s (fun t => only t { s.seq with cascIn := false })) ∧
      (s.seq.released = true → Gives .cascInFall s (fun t => OnlyParts [.seq, .records] s t ∧ t.seq = { s.seq with cascIn := false }))) ∧
    (let k := s.seq.step
     let inStep (n : Nat) : Bool := s.chEnabled n && s.chStep n == k
     s.seq.st = .rampUp → s.seq.offPending = false →
      ((∀ n < 32, s.chStep n = k → s.chOn n = false) → Gives .onDelay s (fun t => OnlyParts [.seq] s t ∧ OnlyChannels s t ∧
        t.seq.good = s.seq.good ∧ ∀ n < 32, t.chOn n = (s.chOn n || inStep n) ∧ (inStep n = true → t.chFalling n = false))) ∧
      ((∀ n < 32, inStep n = true → s.chOn n = true) → k ≠ 1 → (k = 0 ∨ s.run .cal ≠ .inReset) → Gives .stepGood s (fun t =>
        OnlyParts [.seq] s t ∧ (∀ n < 32, t.chGood n = (s.chGood n || inStep n)) ∧ t.seq.en = s.seq.en ∧
        (∀ j, s.nextStep k = some j → t.seq.st = .rampUp ∧ t.seq.step = j ∧
          t.seq.cascOut = (s.seq.cascOut || decide (s.fld F.SEQ_CASC.RELEASE_STEP < j))) ∧
        (s.nextStep k = none → t.seq.st = .up ∧ t.seq.bootPhase = 4 ∧ t.seq.cascOut = true ∧ t.seq.released = true)))) ∧
    (∀ n, s.seq.st = .up → s.seq.chCmd = some (n, true) → s.chOn n = true → n < 32 → Gives .stepGood s (fun t => OnlyParts [.seq, .regs] s t ∧
      RegsBut [Addr.SEQ_CH_CMD] s t ∧ OnlyChannels s t ∧ t.chGood n = true ∧ t.seq.chCmd = none ∧ t.fld F.SEQ_CH_CMD.BUSY = 0 ∧
      t.fld F.SEQ_CH_CMD.STATUS = 0)) ∧
    (∀ ch : BitVec 5,
      let n := ch.toNat
      let off (t : State) : Prop := t.chGood n = false ∧ t.seq.finished.getLsbD n = true ∧ (∀ m < 32, m ≠ n → t.chGood m = s.chGood m)
      let done (rs : List Nat) (t : State) : Prop := OnlyParts [.seq, .regs, .records] s t ∧ RegsBut (Addr.SEQ_CH_CMD :: rs) s t ∧ off t ∧
        (s.seq.chCmd = some (n, false) → t.seq.chCmd = none ∧ t.fld F.SEQ_CH_CMD.BUSY = 0 ∧ t.fld F.SEQ_CH_CMD.STATUS = 0) ∧
        (s.seq.chCmd ≠ some (n, false) → t.seq.chCmd = s.seq.chCmd)
      let faulted : List Nat := [Addr.SEQ_FAULT, Addr.SEQ_FAULT_TIME, Addr.SEQ_CNT0]
      (∀ k, s.seq.st = .rampUp → s.chOn n = true → s.chGood n = false → s.chStep n = s.seq.step → s.busyStep = some k → k ≠ 1 →
        Gives (.pgTimeout ch) s (fun t => WentDown s t k true true ∧ t.seq.fltDrive = true ∧ t.seq.nextFault = s.seq.nextFault + 1)) ∧
      (s.seq.st = .up → s.seq.chCmd = some (n, true) → s.chGood n = false → s.svc.proc ≠ 4 → Gives (.pgTimeout ch) s (fun t =>
        OnlyParts [.seq, .regs, .records] s t ∧ RegsBut (Addr.SEQ_CH_CMD :: Addr.SEQ_CH_FAILED :: faulted) s t ∧ t.chOn n = false ∧
        t.seq.chCmd = none ∧ t.fld F.SEQ_CH_CMD.STATUS = ST.fault.toNat ∧ t.fld F.SEQ_CH_CMD.BUSY = 0 ∧
        Nat.testBit (t.fld F.SEQ_CH_FAILED.FAILED) n = true)) ∧
      (s.chFalling n = true → s.seq.st = .up → s.svc.proc ≠ 3 →
        (s.fld (F.SEQ_CH_CFG.OFF_MODE n) = 1 → Gives (.offTimeout ch) s (done [])) ∧
        (s.fld (F.SEQ_CH_CFG.OFF_MODE n) = 2 → Gives (.offTimeout ch) s (fun t => done faulted t ∧ Rises s t F.SEQ_CNT0.DISCHARGE_TIMEOUTS 1)) ∧
        (s.fld (F.SEQ_CH_CFG.OFF_MODE n) ≠ 1 → Gives (.channelDischarged ch) s (done [])) ∧
        (s.fld (F.SEQ_CH_CFG.OFF_MODE n) = 1 → Gives (.channelDischarged ch) s (fun t => OnlyParts [.seq] s t ∧ OnlyChannels s t ∧
          t.chGood n = false ∧ t.seq.finished = s.seq.finished ∧ t.seq.chCmd = s.seq.chCmd)) ∧
        (s.fld (F.SEQ_CH_CFG.OFF_MODE n) = 0 → Gives (.stuck ch) s (fun t => OnlyParts [.seq, .regs, .records] s t ∧ RegsBut faulted s t ∧
          t.seq.stuck = true ∧ t.seq.nextFault = s.seq.nextFault + 1 ∧ t.seq.en = s.seq.en))) ∧
      (s.chFalling n = true → s.seq.st = .rampDown → s.seq.timeoutPath = true → s.seq.chCmd = none → (n ≠ 1 ∨ s.holdsCh1 (s.chStep 1) = false) →
        Gives (.offTimeout ch) s (fun t => OnlyParts [.seq, .islands] s t ∧ off t)) ∧
      (s.seq.chCmd = none →
        let answers (c : Instr) (st : Status) : Prop := Gives c s (fun t => OnlyParts [.seq, .regs] s t ∧ RegsBut [Addr.SEQ_CH_CMD] s t ∧
          OnlyChannels s t ∧ t.seq.en = s.seq.en ∧ t.fld F.SEQ_CH_CMD.STATUS = st.toNat ∧ t.fld F.SEQ_CH_CMD.BUSY = 0 ∧ t.fld F.SEQ_CH_CMD.CH = n)
        let class_ := s.chClass n
        (∀ path, (class_ = 0 ∨ class_ = 3 → answers (.channelOn path ch) ST.rights ∧ answers (.channelOff path ch) ST.rights) ∧
          (class_ = 1 ∨ class_ = 2 →
            (s.seq.st ≠ .up → answers (.channelOn path ch) ST.mode ∧ answers (.channelOff path ch) ST.mode) ∧
            (s.seq.st = .up →
              (Nat.testBit (s.fld F.SEQ_CH_FAILED.FAILED) n = true → answers (.channelOn path ch) ST.fault) ∧
              (s.chOn n = false → answers (.channelOff path ch) ST.ok) ∧
              (Nat.testBit (s.fld F.SEQ_CH_FAILED.FAILED) n = false → s.chOn n = true → answers (.channelOn path ch) ST.ok) ∧
              (Nat.testBit (s.fld F.SEQ_CH_FAILED.FAILED) n = false → s.chOn n = false → Gives (.channelOn path ch) s (fun t =>
                OnlyParts [.seq, .regs] s t ∧ RegsBut [Addr.SEQ_CH_CMD] s t ∧ OnlyChannels s t ∧ t.chOn n = true ∧ t.seq.chCmd = some (n, true) ∧
                t.fld F.SEQ_CH_CMD.BUSY = 1)) ∧
              (class_ = 1 → s.chOn n = true → Gives (.channelOff path ch) s (fun t => OnlyParts [.seq, .dst, .draws, .regs, .records] s t ∧
                RegsBut [Addr.SEQ_CH_CMD, Addr.DST_CNT0] s t ∧ OnlyChannels s t ∧ t.chOn n = false ∧ t.seq.chCmd = some (n, false) ∧
                t.fld F.SEQ_CH_CMD.BUSY = 1 ∧ ∀ j < 4, j + 4 * (n - 6) ∈ t.dst.nandOut))))))))

/-- R31, R36, R72, R381, R392, R400, R402, R405, R406, R435, R439 and R534: supervision. -/
def Obligations.PowerLossIsSeenAndRecorded : Prop :=
  (∀ (s : State), s.running .aon = true →
    let saving (rs : List Nat) (t : State) : Prop :=
      OnlyParts [.seq, .mod, .pe, .tir, .islands, .lps, .cfl, .contrail, .dst, .phl, .regs, .records] s t ∧
      RegsBut (Addr.DST_HUP_CTL :: Addr.SEQ_CH_CMD :: Addr.CFL_CNT1 :: rs) s t ∧ t.seq.st = .saveHold ∧ t.mod.mode = .save ∧
      t.mod.prev = s.mod.mode ∧ t.mod.intakeClosed = true ∧ t.pe = { s.pe with stopped := true } ∧ t.cfl.stopped = true ∧ t.dst.testing = false ∧
      t.seq.en = s.seq.en ∧ (∀ i ∈ [Island.ctl, .pe, .tir], t.run i = .inReset) ∧ (s.windowOpen = false → t.run .cal = .inReset) ∧
      t.tir = { s.tir with loansOut := [] } ∧ t.dst.testCut = (s.dst.testCut || s.dst.testing)
    (∀ cycles : BitVec 16,
      (cycles.toNat < s.fld F.SEQ_CTL.PFAIL_FILTER → Gives (.pfailNAccept cycles) s (fun t => OnlyParts [.regs] s t ∧ RegsBut [Addr.SEQ_CNT0] s t ∧
        Rises s t F.SEQ_CNT0.PFAIL_GLITCHES 1)) ∧
      (s.fld F.SEQ_CTL.PFAIL_FILTER ≤ cycles.toNat → s.seq.st = .off → Gives (.pfailNAccept cycles) s (fun t =>
        OnlyParts [.seq, .regs, .records] s t ∧ RegsBut [Addr.SEQ_CNT0] s t ∧ Rises s t F.SEQ_CNT0.PFAIL_ACCEPTS 1 ∧
        t.seq = { s.seq with pfailHigh := false, rst := t.seq.rst })) ∧
      (s.fld F.SEQ_CTL.PFAIL_FILTER ≤ cycles.toNat → s.seq.st = .up → s.lps.deep = false → s.mod.mode ≠ .save → s.isl.length = 15 →
        Gives (.pfailNAccept cycles) s (fun t => saving [Addr.SEQ_CNT0] t ∧ Rises s t F.SEQ_CNT0.PFAIL_ACCEPTS 1 ∧ t.seq.pfailHigh = false ∧
          t.phl = s.phl))) ∧
    (s.seq.st = .up → s.lps.deep = false → s.mod.mode ≠ .save → s.isl.length = 15 → s.fab.paths.length = 4 → Gives .refclkLoss s (fun t =>
      let down (x : PhState) : PhState := { PhState.reset with failed := x.failed }
      t.seq.st = .saveHold ∧ t.mod.mode = .save ∧ t.phl.ph0 = down s.phl.ph0 ∧ t.phl.ph1 = down s.phl.ph1 ∧
      (s.running .hst = true → ∀ p, (t.port p).link = 0) ∧ (s.running .fab = true → ∀ p, (t.path p).link = false) ∧
      ((∀ p, (s.port p).link = 0) → (∀ p, (s.path p).link = false) → saving [] t))) ∧
    (∀ (ch : BitVec 5) (kind : BitVec 2) (code : BitVec 12),
      let n := ch.toNat
      let faulted : List Nat := [Addr.SEQ_FAULT, Addr.SEQ_FAULT_TIME, Addr.SEQ_CNT0, Addr.SEQ_CH_FAILED]
      let lost (t : State) : Prop := t.chGood n = false ∧ t.seq.nextFault = s.seq.nextFault + 1 ∧ Rises s t F.SEQ_CNT0.RAIL_FAILS 1
      s.seq.st = .up → s.chOn n = true → s.chGood n = true → s.seq.chCmd = none → s.fld (F.SEQ_CH_CFG.SNS n) = 0 → n ≠ 2 →
      (s.chClass n = 3 → s.on (F.SEQ_CH_CFG.AUX_FATAL n) = false → Gives (.railLoss ch kind code) s (fun t => OnlyParts [.seq, .regs, .records] s t ∧
        RegsBut faulted s t ∧ lost t ∧ t.seq.en = s.seq.en ∧ Nat.testBit (t.fld F.SEQ_CH_FAILED.FAILED) n = true)) ∧
      (s.chClass n = 1 → Gives (.railLoss ch kind code) s (fun t => OnlyParts [.seq, .dst, .draws, .regs, .records] s t ∧
        RegsBut (Addr.DST_CNT0 :: faulted) s t ∧ lost t ∧ t.chOn n = false ∧ Nat.testBit (t.fld F.SEQ_CH_FAILED.FAILED) n = true ∧
        ∀ j < 4, j + 4 * (n - 6) ∈ t.dst.nandOut)) ∧
      (∀ k, s.chClass n = 0 → s.mod.mode ≠ .cold → s.mod.mode ≠ .save → s.busyStep = some k → k ≠ 1 → Gives (.railLoss ch kind code) s (fun t =>
        WentDown s t k true true ∧ lost t ∧ t.dst.lastIncomplete = true))) ∧
    (∀ (input : BitVec 4) (code : BitVec 12),
      let n := input.toNat
      let kept (t : State) (q : SeqState) : Prop := t.seq = { q with codes := s.seq.codes.set n code.toNat, rst := t.seq.rst }
      (n = 8 → Gives (.senseOutOfWindow input code) s (fun t => OnlyParts [.seq, .dst] s t ∧ kept t s.seq ∧ t.dst = { s.dst with hupCode := code.toNat })) ∧
      (n < 8 → (∀ c < 32, 2 ≤ c → s.fld (F.SEQ_CH_CFG.SNS c) ≠ n + 1) →
        (s.senseLow n code.toNat = false → Gives (.senseOutOfWindow input code) s (fun t => OnlyParts [.seq] s t ∧ kept t s.seq)) ∧
        (s.senseLow n code.toNat = true → s.on F.SEQ_CTL.V12_PFAIL = true → s.fld F.SEQ_CTL.SNS_12V = n → s.seq.pfailHigh = true → s.seq.st = .off →
          Gives (.senseOutOfWindow input code) s (fun t => OnlyParts [.seq, .regs, .records] s t ∧ RegsBut [Addr.SEQ_CNT0] s t ∧ kept t s.seq ∧
            Rises s t F.SEQ_CNT0.PFAIL_ACCEPTS 1)))) ∧
    (s.running .cfl = true → s.chGood 1 = true → s.cfl.bank0.running = none → s.cfl.bank1.running = none → s.seq.st ≠ .rampDown →
      s.seq.flash.length + s.seq.buffer.length ≤ 4096 → Gives .faultBufferCopy s (fun t => OnlyParts [.seq] s t ∧
        t.seq = { s.seq with flash := s.seq.flash ++ s.seq.buffer, buffer := [] })) ∧
    (∀ (n : BitVec 2) (o : RstOut), s.seq.rst[n.toNat]? = some o →
      let out (t : State) (p : RstOut) : Prop := OnlyParts [.seq] s t ∧ t.seq = { s.seq with rst := t.seq.rst } ∧ t.seq.rst[n.toNat]? = some p ∧
        ∀ m, m ≠ n.toNat → t.seq.rst[m]? = s.seq.rst[m]?
      (o.stretching = true → s.assertActive n.toNat = false → Gives (.stretchExpiry n) s (fun t => out t { asserted := false, stretching := false, pulsing := false })) ∧
      (o.stretching = true → s.assertActive n.toNat = true → Gives (.stretchExpiry n) s (fun t => out t { o with stretching := false })) ∧
      (∀ path, Gives (.pulse path n) s (fun t => out t { asserted := true, pulsing := true, stretching := o.stretching || s.rstSource n.toNat }))) ∧
    (∀ temp : BitVec 8,
      let warn : Int := s.fld F.GEN_THERM.WARN_C
      let read (t : State) : Prop := t.seq.temp = temp ∧ t.seq.tempMax = (if s.seq.tempMax.toInt < temp.toInt then temp else s.seq.tempMax)
      (temp.toInt < 115 → Gives (.thermalRead temp) s (fun t => OnlyParts [.seq, .records] s t ∧ read t ∧ t.seq.hot = false ∧ t.seq.st = s.seq.st ∧
        (¬ (s.seq.temp.toInt < warn ∧ warn ≤ temp.toInt) → OnlyParts [.seq] s t))) ∧
      (115 ≤ temp.toInt → s.seq.hot = true → s.seq.st = .off → Gives (.thermalRead temp) s (fun t => OnlyParts [.seq, .regs, .records] s t ∧
        RegsBut [Addr.GEN_THERM] s t ∧ read t ∧ t.seq.tripHold = 1 ∧ t.fld F.GEN_THERM.TRIPPED = 1))) ∧
    (s.seq.tripHold = 1 → Gives .thermalTripHold s (fun t => OnlyParts [.seq] s t ∧
      t.seq = { s.seq with tripHold := if s.seq.temp.toInt < 95 then 0 else 2 })) ∧
    (∀ (slotA slotB rowOk : Bool), s.mayRelease = true →
      (rowOk = false → Gives (.ctlRelease slotA slotB rowOk) s (fun t => OnlyParts [.seq, .cfl, .regs, .records] s t ∧ RegsBut [Addr.CFL_ERR] s t ∧
        t.seq.ctlReleased = false ∧ t.seq.bootPhase = 15 ∧ t.seq.bootFail = 3 ∧ t.cfl = { s.cfl with frowBad := true } ∧ t.fld F.CFL_ERR.FROW_BAD = 1)) ∧
      (rowOk = true → s.bootSlot slotA slotB = none → Gives (.ctlRelease slotA slotB rowOk) s (fun t => OnlyParts [.seq] s t ∧
        t.seq.bootPhase = 15 ∧ t.seq.bootFail = 1)) ∧
      (∀ slot, rowOk = true → s.bootSlot slotA slotB = some slot → s.isl.length = 15 → Gives (.ctlRelease slotA slotB rowOk) s (fun t =>
        t.seq.ctlReleased = true ∧ t.seq.bootPhase = 5 ∧ t.seq.fallback = (slot != s.cfl.activeSlot) ∧ t.cfl = { s.cfl with bootedSlot := slot } ∧
        t.svc.runningSlot = slot ∧ t.run .ctl = .running ∧ (∀ i ∈ firmwareIslands, t.run i = .running) ∧ t.contrail.released = true ∧
        t.phl.twin = (if s.hasPartner then .linking else .absent) ∧ t.mod.mode = .cold ∧ (Tab.get t.tenants 0).isSome = true ∧
        (∀ n < 16, (Tab.get t.pe.qps n).isSome = true ∨ Tab.has s.pe.qps 0 = true))))) ∧
  (∀ (s : State), Gives .standbyRailLoss s (fun t => t.time = 0 ∧ t.run .aon = .inReset ∧ (∀ i, i ≠ .aon → t.run i = .off) ∧ t.boot = s.boot ∧
    t.dst.map = s.dst.map ∧ t.dst.nand = s.dst.nand ∧ t.cfl.array = s.cfl.array ∧ t.seq.flash = s.seq.flash ∧ t.seq.st = .off ∧ t.mod.mode = .cold ∧
    (s.mod.mode ≠ .cold → ¬ (s.mod.mode = .save ∧ s.mod.prev = .cold) → t.dst.lastIncomplete = true)))

/-- R407 to R409, R412 to R418 and R420: calibration. -/
def Obligations.UnitsTrainAndAreRecalibrated : Prop :=
  (∀ (s : State) (iface : BitVec 3) (unit : BitVec 5) (r : TrainResult), s.running .cal = true →
    let i := iface.toNat
    let u := unit.toNat
    let k := unitKey i u
    let x := s.calUnit k
    let unitIs (t : State) (y : CalUnit) : Prop := t.calUnit k = y ∧ ∀ j, j ≠ k → Tab.get t.cal.units j = Tab.get s.cal.units j
    let saved : Bool := s.running .cfl && !s.cfl.stopped
    let good : Bool := r.ok && !(s.judged i u && eyeFailed i (eyeTab r.eyes))
    let seeded := s.seededTry i u r
    let rejects (t : State) : Prop := Rises s t F.CAL_CNT0.SEED_REJECTS (if s.seedRejected i u r then 1 else 0)
    let regs : List Nat := [Addr.CAL_CNT0, Addr.CAL_ERR]
    let failedUnit (t : State) : Prop := unitIs t { x with st := 3, tries := 0, fromSeed := true, seeded := false, eyes := [] }
    (s.mod.mode ≠ .save → isUnit i u = true → s.trainable i u = true → s.awaits i u = true →
      (good = true → x.tries < 3 → (s.cal.cmd = some k → s.svc.proc ≠ 4 ∧ s.svc.proc ≠ 5) → Gives (.training iface unit r) s (fun t =>
        OnlyParts ((if i = 2 then [.dst, .draws] else []) ++ [.cal, .regs, .records]) s t ∧ RegsBut (Addr.CAL_CMD :: Addr.DST_CNT0 :: regs) s t ∧ rejects t ∧
        (∃ w a, unitIs t { x with st := 2, tries := 0, fromSeed := true, seeded := seeded, settings := r.settings, eyes := eyeTab r.eyes
                                  weakAt := w, seedAt := a } ∧ (saved = true → a = some s.time)) ∧
        (saved = true → Tab.get t.cal.seeds k = some { settings := r.settings, temp := r.temp, ident := r.ident }) ∧
        (saved = false → t.cal.seeds = s.cal.seeds ∧ t.fld F.CAL_ERR.SEED_WRITE_FAIL = 1) ∧
        Rises s t F.CAL_CNT0.WEAK_EVENTS (if t.unitWeak i u && !s.unitWeak i u then 1 else 0) ∧
        (i = 2 → u ∉ t.dst.nandOut ∧ ∀ c, c ≠ u → (c ∈ t.dst.nandOut ↔ c ∈ s.dst.nandOut)) ∧
        (s.cal.cmd = some k → t.cal.cmd = none ∧ t.fld F.CAL_CMD.BUSY = 0 ∧ t.fld F.CAL_CMD.STATUS = 0) ∧ (s.cal.cmd ≠ some k → t.cal.cmd = s.cal.cmd))) ∧
      (good = false → x.tries < 2 → Gives (.training iface unit r) s (fun t => OnlyParts [.cal, .regs] s t ∧ RegsBut [Addr.CAL_CNT0] s t ∧ rejects t ∧
        unitIs t { x with st := 1, tries := x.tries + 1, fromSeed := false } ∧
        (seeded = true → Tab.get t.cal.seeds k = none) ∧ (seeded = false → t.cal.seeds = s.cal.seeds))) ∧
      (good = false → 2 ≤ x.tries → s.cal.cmd ≠ some k →
        (i = 1 → Gives (.training iface unit r) s (fun t => OnlyParts [.cal, .seq] s t ∧ failedUnit t ∧
          t.seq = { s.seq with bootPhase := 15, bootFail := 2 })) ∧
        (i = 2 → Gives (.training iface unit r) s (fun t => OnlyParts [.cal, .dst, .draws, .regs, .records] s t ∧ RegsBut [Addr.DST_CNT0] s t ∧
          failedUnit t ∧ u ∈ t.dst.nandOut)) ∧
        (i = 3 ∨ i = 4 → Gives (.training iface unit r) s (fun t => OnlyParts [.cal] s t ∧ failedUnit t)) ∧
        (i = 5 → Gives (.training iface unit r) s (fun t => OnlyParts [.cal, .phl] s t ∧ failedUnit t ∧
          t.ph (if u = 0 then .ph0 else .ph1) = PhState.reset)) ∧
        (i = 0 → r.oneDevice = none → ¬ (x.tries = 2 ∧ 1 < s.mem.speed) → s.twinServes = false → Gives (.training iface unit r) s (fun t =>
          OnlyParts [.cal, .records] s t ∧ failedUnit t)) ∧
        (i = 0 → r.oneDevice = none → x.tries = 2 → 1 < s.mem.speed → Gives (.training iface unit r) s (fun t => OnlyParts [.cal] s t ∧
          unitIs t { x with st := 1, tries := 3, fromSeed := false })) ∧
        (∀ l, i = 0 → r.oneDevice = some l → (l.map (·.1)).Nodup → s.mem.chans.length = 16 → Gives (.training iface unit r) s (fun t =>
          OnlyParts [.cal, .mem, .regs, .records] s t ∧ RegsBut regs s t ∧ (t.calUnit k).st = 2 ∧
          ∀ e ∈ l, Tab.get (t.ch u).erased e.1.toNat = some e.2.toNat))) ∧
      (i = 0 → good = true → x.tries = 3 → s.cal.cmd ≠ some k → Gives (.training iface unit r) s (fun t => OnlyParts [.cal, .mem, .regs, .records] s t ∧
        RegsBut regs s t ∧ t.mem = { s.mem with speed := s.mem.speed - 1 } ∧ t.fld F.CAL_ERR.SPEED_DOWN = 1 ∧ (t.calUnit k).st = 2 ∧
        ∀ c < 16, c ≠ u → (t.calUnit c).st = if s.chanOut c then (s.calUnit c).st else 1))) ∧
    (s.mayWindow i u = true →
      (s.putOff i u = true → Gives (.recalWindow iface unit) s (fun t => OnlyParts [.cal, .regs] s t ∧ RegsBut [Addr.CAL_CNT0] s t ∧
        unitIs t { x with deferred := true } ∧ Rises s t F.CAL_CNT0.WINDOWS_DEFERRED 1)) ∧
      (s.putOff i u = false → Gives (.recalWindow iface unit) s (fun t => OnlyParts [.cal] s t ∧ unitIs t { x with window := true, deferred := false }))) ∧
    (x.window = true → s.mod.mode = .save → s.isl.length = 15 → x.st ≠ 2 → ∀ moved, Gives (.recalWindowEnd iface unit moved r) s (fun t =>
      OnlyParts [.cal, .islands] s t ∧ unitIs t { x with window := false } ∧ (t.windowOpen = false → t.run .cal = .inReset) ∧
      (t.windowOpen = true → t.run .cal = s.run .cal) ∧ ∀ j, j ≠ .cal → t.run j = s.run j)) ∧
    (x.window = true → s.mod.mode ≠ .save → ∀ moved,
      (x.st ≠ 2 → Gives (.recalWindowEnd iface unit moved r) s (fun t => OnlyParts [.cal] s t ∧ unitIs t { x with window := false })) ∧
      (x.st = 2 → Gives (.recalWindowEnd iface unit moved r) s (fun t => OnlyParts [.cal, .regs, .records] s t ∧ RegsBut regs s t ∧
        (∃ w a, unitIs t { x with window := false, settings := r.settings, eyes := eyeTab r.eyes, weakAt := w, seedAt := a }) ∧
        (moved = false → t.cal.seeds = s.cal.seeds) ∧ (∀ at_, x.seedAt = some at_ → s.time < at_ + 3600000000000 → t.cal.seeds = s.cal.seeds) ∧
        (moved = true → saved = true → x.seedAt = none →
          Tab.get t.cal.seeds k = some { settings := r.settings, temp := r.temp, ident := r.ident })))) ∧
    (s.mayGap i u = true →
      (∀ w, Gives (.gapFittedChange iface unit w) s (fun t => OnlyParts [.cal] s t ∧ unitIs t { x with settings := w, gapWait := false })) ∧
      (x.gapWait = false → Gives (.gapDeferral iface unit false) s (fun t => OnlyParts [.cal, .regs] s t ∧ RegsBut [Addr.CAL_CNT0] s t ∧
        unitIs t { x with gapWait := true } ∧ Rises s t F.CAL_CNT0.GAP_DEFERRALS 1)) ∧
      (x.gapWait = true → Gives (.gapDeferral iface unit true) s (OnlyParts [.records] s))) ∧
    (s.mayWindow 2 u = true → (s.calUnit (unitKey 2 u)).deferred = true → Gives (.nandWindowDeferral unit) s (fun t => OnlyParts [.cal] s t ∧
      (t.calUnit (unitKey 2 u)).window = true ∧ (t.calUnit (unitKey 2 u)).deferred = false)) ∧
    (isUnit 4 u = true → (s.calUnit (unitKey 4 u)).deferred = true → Gives (.fabricWindowDeferral unit) s (fun t => OnlyParts [.records] s t ∧
      (TakesRecord s .cal sevWarn → (t.recordsFrom .cal).length = (s.recordsFrom .cal).length + 1))) ∧
    (s.cal.cmd = none → i < 6 → ∀ path,
      let both (p : Bool → State → Prop) : Prop := Gives (.retrainFromSeed path iface unit) s (p true) ∧ Gives (.fullRetrain path iface unit) s (p false)
      let answered (st : Status) (t : State) : Prop := OnlyParts [.regs] s t ∧ RegsBut [Addr.CAL_CMD] s t ∧ t.fld F.CAL_CMD.STATUS = st.toNat
      (isUnit i u = false → both (fun _ t => answered ST.fault t)) ∧
      (isUnit i u = true → s.unitOut i u = false → both (fun _ t => answered ST.busy t)) ∧
      (isUnit i u = true → s.unitOut i u = true → both (fun seed t => OnlyParts [.cal, .regs] s t ∧ RegsBut [Addr.CAL_CMD] s t ∧
        t.fld F.CAL_CMD.BUSY = 1 ∧ t.cal.cmd = some k ∧ unitIs t { x with st := 1, tries := 0, fromSeed := seed, seeded := false }))))

/-- R421, R426, R429 to R431 and R436 to R441: the configuration flash. -/
def Obligations.FlashProgramsErasesAndProtects : Prop :=
  (∀ (s : State) (path : Path) (fa : BitVec 26), s.running .cfl = true → s.cfl.busy = false → s.cfl.stopped = false →
    let a := fa.toNat
    let n := norSector a
    let b := norBank a
    let ends (rs : List Nat) (st : Status) (t : State) : Prop := RegsBut (Addr.CFL_CMD :: rs) s t ∧ t.cfl = s.cfl ∧
      t.fld F.CFL_CMD.ADDR = a ∧ t.fld F.CFL_CMD.STATUS = st.toNat ∧ t.fld F.CFL_CMD.BUSY = 0
    let plain (st : Status) (t : State) : Prop := OnlyParts [.regs] s t ∧ ends [] st t
    let denied (t : State) : Prop := OnlyParts [.regs, .records, .marks] s t ∧ ends [Addr.GEN_ERR, Addr.GEN_ERR_LOG, Addr.GEN_CNT0] ST.rights t ∧
      Rises s t F.GEN_CNT0.PATH_DENIED 1
    let guarded (t : State) : Prop := OnlyParts [.regs, .records, .marks] s t ∧ ends [Addr.CFL_ERR, Addr.CFL_CNT1] ST.rights t ∧
      t.fld F.CFL_ERR.WP_VIOLATION = 1 ∧ Rises s t F.CFL_CNT1.WP_VIOLATIONS 1
    let runs (op : Nat) (t : State) : Prop := t.fld F.CFL_CMD.ADDR = a ∧ t.fld F.CFL_CMD.BUSY = 1 ∧ t.cfl.busy = true ∧ t.cfl.array = s.cfl.array ∧
      (t.cfl.bank b).running = some { op := op, fa := a } ∧ t.cfl.bank (1 - b) = s.cfl.bank (1 - b)
    let starts (op : Nat) (t : State) : Prop := OnlyParts [.cfl, .regs] s t ∧ RegsBut [Addr.CFL_CMD, Addr.CFL_CNT1] s t ∧ runs op t ∧
      (∀ o, (s.cfl.bank b).running = some o → o.op = 3 → (t.cfl.bank b).suspended = some (norSector o.fa) ∧ (t.sector (norSector o.fa)).st = 2 ∧
        Rises s t F.CFL_CNT1.SUSPENDS 1) ∧
      (((s.cfl.bank b).running.any (fun o => o.op == 3)) = false → (t.cfl.bank b).suspended = (s.cfl.bank b).suspended ∧ t.cfl.sectors = s.cfl.sectors)
    (a % 256 ≠ 0 → Gives (.cflRead path fa) s (plain ST.fault) ∧ Gives (.pvMargin path fa) s (plain ST.fault)) ∧
    (a % 256 = 0 → s.erasing a = true → Gives (.pvMargin path fa) s (plain ST.busy) ∧ Gives (.cflRead path fa) s (plain ST.busy)) ∧
    (a % 256 = 0 → s.erasing a = false → Gives (.pvMargin path fa) s (starts 6) ∧ Gives (.cflRead path fa) s (starts 1)) ∧
    (a % 4096 ≠ 0 → Gives (.evMargin path fa) s (plain ST.fault)) ∧
    (a % 4096 = 0 → s.erasing a = true → Gives (.evMargin path fa) s (plain ST.busy)) ∧
    (a % 4096 = 0 → s.erasing a = false → Gives (.evMargin path fa) s (starts 7)) ∧
    Gives (.readFrow path fa) s (starts 8) ∧
    (path ≠ .ctl → Gives (.cflProgram path fa) s denied ∧ Gives (.cflErase path fa) s denied ∧ Gives (.eraseSuspend path fa) s denied ∧
      Gives (.eraseResume path fa) s denied) ∧
    (a % 256 ≠ 0 → Gives (.cflProgram .ctl fa) s (plain ST.fault)) ∧ (a % 4096 ≠ 0 → Gives (.cflErase .ctl fa) s (plain ST.fault)) ∧
    (a % 256 = 0 → s.wpBit n = true → Gives (.cflProgram .ctl fa) s guarded) ∧ (a % 4096 = 0 → s.wpBit n = true → Gives (.cflErase .ctl fa) s guarded) ∧
    (a % 256 = 0 → s.wpBit n = false →
      ((s.sector n).st = 3 ∨ (s.sector n).incomplete = true → Gives (.cflProgram .ctl fa) s (plain ST.fault)) ∧
      ((s.sector n).st ≠ 3 → (s.sector n).incomplete = false →
        (s.erasing a = true → Gives (.cflProgram .ctl fa) s (plain ST.busy)) ∧
        (s.erasing a = false → s.norBlank a 256 = false → Gives (.cflProgram .ctl fa) s (plain ST.fault)) ∧
        (s.erasing a = false → s.norBlank a 256 = true → Gives (.cflProgram .ctl fa) s (starts 2)))) ∧
    (a % 4096 = 0 → s.wpBit n = false →
      ((s.sector n).st = 3 → Gives (.cflErase .ctl fa) s (plain ST.fault)) ∧
      ((s.sector n).st ≠ 3 → ((s.cfl.bank b).suspended.isSome = true ∨ ((s.cfl.bank b).running.any (fun o => o.op == 3)) = true) →
        Gives (.cflErase .ctl fa) s (plain ST.busy)) ∧
      ((s.sector n).st ≠ 3 → (s.cfl.bank b).suspended = none → ((s.cfl.bank b).running.any (fun o => o.op == 3)) = false →
        Gives (.cflErase .ctl fa) s (fun t => OnlyParts [.cfl, .regs, .records] s t ∧ RegsBut [Addr.CFL_CMD, Addr.CFL_ERR] s t ∧ runs 3 t ∧
          (t.sector n).st = 1 ∧ (t.sector n).erases = min (2 ^ 20 - 1) ((s.sector n).erases + 1) ∧
          ((t.sector n).worn = ((s.sector n).worn || decide (100000 ≤ (t.sector n).erases))) ∧ ∀ m, m ≠ n → t.sector m = s.sector m))) ∧
    (a % 2 ^ 25 ≠ 0 → Gives (.eraseSuspend .ctl fa) s (plain ST.fault) ∧ Gives (.eraseResume .ctl fa) s (plain ST.fault)) ∧
    (∀ m, a % 2 ^ 25 = 0 → (s.cfl.bank b).running = none → (s.cfl.bank b).suspended = some m → Gives (.eraseResume .ctl fa) s (fun t =>
      OnlyParts [.cfl, .regs] s t ∧ RegsBut [Addr.CFL_CMD] s t ∧ t.cfl.bank b = { running := some { op := 3, fa := m * 4096 }, suspended := none } ∧
      (t.sector m).st = 1 ∧ t.cfl.busy = true ∧ t.fld F.CFL_CMD.BUSY = 1 ∧ t.cfl.array = s.cfl.array)) ∧
    (a % 2 ^ 25 = 0 → ((s.cfl.bank b).running ≠ none ∨ (s.cfl.bank b).suspended = none) → Gives (.eraseResume .ctl fa) s (plain ST.ok))) ∧
  (∀ (s : State) (fa : BitVec 26) (o : CflOp), s.running .cfl = true → s.cfl.stopped = false → fa.toNat % 2 ^ 25 = 0 →
    (s.cfl.bank (norBank fa.toNat)).running = some o → o.op = 3 → Gives (.eraseSuspend .ctl fa) s (fun t =>
      OnlyParts [.cfl, .regs] s t ∧ RegsBut [Addr.CFL_CMD, Addr.CFL_CNT1] s t ∧
      t.cfl.bank (norBank fa.toNat) = { running := none, suspended := some (norSector o.fa) } ∧ (t.sector (norSector o.fa)).st = 2 ∧
      t.cfl.busy = false ∧ t.fld F.CFL_CMD.BUSY = 0 ∧ t.fld F.CFL_CMD.STATUS = 0 ∧ Rises s t F.CFL_CNT1.SUSPENDS 1)) ∧
  (∀ (s : State) (bank : BitVec 1), s.running .cfl = true →
    let b := bank.toNat
    (∀ m, s.cfl.stopped = false → s.on F.CFL_CTL.AUTO_RESUME = true → (s.cfl.bank b).running = none → (s.cfl.bank b).suspended = some m →
      Gives (.autoResume bank) s (fun t => OnlyParts [.cfl] s t ∧ t.cfl.array = s.cfl.array ∧
        t.cfl.bank b = { running := some { op := 3, fa := m * 4096 }, suspended := none } ∧ (t.sector m).st = 1)) ∧
    (∀ (o : CflOp) (ok : Bool) (pulses : BitVec 5) (bits : BitVec 11), (s.cfl.bank b).running = some o → Memory.wf s.cfl.array = true →
      let done (ps : List Part) (rs : List Nat) (st : Status) (t : State) : Prop := OnlyParts (.cfl :: .regs :: ps) s t ∧ RegsBut (Addr.CFL_CMD :: rs) s t ∧
        (t.cfl.bank b).running = none ∧ (t.cfl.bank b).suspended = (s.cfl.bank b).suspended ∧ t.cfl.busy = false ∧
        t.fld F.CFL_CMD.BUSY = 0 ∧ t.fld F.CFL_CMD.STATUS = st.toNat
      let ends (p : State → Prop) : Prop := Gives (.cflOperationComplete bank ok pulses bits) s p
      let n := norSector o.fa
      let outside (len : Nat) (t : State) : Prop := ∀ a, ¬ (o.fa ≤ a ∧ a < o.fa + len) → t.norByte a = s.norByte a
      let bufs : List Nat := (List.range 32).map Addr.CFL_BUF
      (o.op = 1 → ends (fun t => done [] bufs ST.ok t ∧ t.cfl.array = s.cfl.array ∧ ∀ j < 256, t.cflBuf[j]? = some (s.norByte (o.fa + j)))) ∧
      (o.op = 8 → ends (fun t => done [] bufs ST.ok t ∧ t.cfl.array = s.cfl.array ∧
        ∀ j < 256, t.cflBuf[j]? = some (Config.factoryRow (256 * (o.fa / 256 % 4) + j)))) ∧
      (o.op = 2 → ok = true → ends (fun t => done [.records] [Addr.CFL_CNT0, Addr.CFL_CNT1, Addr.CFL_ERR] ST.ok t ∧ outside 256 t ∧
        (∀ j < 256, s.cflBuf[j]? = some (t.norByte (o.fa + j))) ∧ Rises s t F.CFL_CNT0.PROGRAMS 1 ∧ t.fld F.CFL_CMD.PULSES = pulses.toNat ∧
        (t.sector n).pvp = max (s.sector n).pvp pulses.toNat ∧
        (s.fld F.CFL_CTL.PVP_LIMIT ≤ pulses.toNat → (t.sector n).worn = true ∧ Rises s t F.CFL_CNT1.PULSE_LIMITS 1))) ∧
      (o.op = 2 → ok = false → ends (fun t => done [.records, .draws] [Addr.CFL_CNT1, Addr.CFL_ERR] ST.fault t ∧ outside 256 t ∧
        (t.sector n).st = 3 ∧ t.fld F.CFL_ERR.PROG_FAIL = 1 ∧ t.fld F.CFL_CMD.PULSES = 16)) ∧
      (o.op = 3 → ok = true → ends (fun t => done [.dbg] [Addr.CFL_CNT0] ST.ok t ∧ outside 4096 t ∧
        (∀ a, o.fa ≤ a → a < o.fa + 4096 → t.norByte a = 0xFF) ∧ (t.sector n).st = 0 ∧ (t.sector n).incomplete = false ∧
        Rises s t F.CFL_CNT0.ERASES 1 ∧ (n ≠ Config.adminSector → t.dbg = s.dbg) ∧ (n = Config.adminSector → t.dbg.adminKey = none))) ∧
      (o.op = 3 → ok = false → ends (fun t => done [.records, .draws, .dbg] [Addr.CFL_ERR] ST.fault t ∧ outside 4096 t ∧ (t.sector n).st = 3 ∧
        t.fld F.CFL_ERR.ERASE_FAIL = 1)) ∧
      (o.op = 6 ∨ o.op = 7 → ends (fun t => done [.records] [Addr.CFL_CNT1, Addr.CFL_ERR] ST.ok t ∧ t.cfl.array = s.cfl.array ∧
        t.fld F.CFL_CMD.FAIL_BITS = bits.toNat ∧ (bits ≠ 0 → (t.sector n).worn = true ∧ Rises s t F.CFL_CNT1.MARGIN_FAILS 1)))) ∧
    (∀ (pv : Bool) (fa : BitVec 26) (bits : BitVec 11), s.cfl.stopped = false →
      (if pv then s.norBlank (fa.toNat / 256 * 256) 256 = false else s.norBlank (norSector fa.toNat * 4096) 4096 = true) →
      Gives (.marginPatrol pv fa bits) s (fun t => OnlyParts [.cfl, .regs, .records] s t ∧ RegsBut [Addr.CFL_CNT1, Addr.CFL_ERR] s t ∧
        t.cfl.array = s.cfl.array ∧ (bits ≠ 0 → (t.sector (norSector fa.toNat)).worn = true ∧ Rises s t F.CFL_CNT1.MARGIN_FAILS 1)))) ∧
  (∀ (s : State) (path : Path) (sector : BitVec 14) (count : BitVec 16), s.running .cfl = true →
    let lo := sector.toNat
    let hi := lo + count.toNat
    let first := slotFirst s.cfl.bootedSlot
    let wps : List Nat := (List.range 256).map Addr.CFL_WP
    (path ≠ .ctl → Gives (.wpClr path sector count) s (fun t => OnlyParts [.regs, .records, .marks] s t ∧
      RegsBut [Addr.GEN_ERR, Addr.GEN_ERR_LOG, Addr.GEN_CNT0] s t ∧ Rises s t F.GEN_CNT0.PATH_DENIED 1)) ∧
    (count ≠ 0 → hi ≤ 16384 →
      (lo < first + 3072 → first < hi → Gives (.wpClr .ctl sector count) s (fun t => OnlyParts [.regs] s t ∧ RegsBut [Addr.CFL_ERR] s t ∧
        t.fld F.CFL_ERR.WP_CLR_REFUSED = 1)) ∧
      (¬ (lo < first + 3072 ∧ first < hi) → Gives (.wpClr .ctl sector count) s (fun t => OnlyParts [.regs] s t ∧ RegsBut wps s t ∧
        ∀ x < 16384, t.wpBit x = (s.wpBit x && !(decide (lo ≤ x) && decide (x < hi)))))) ∧
    (∀ (n : BitVec 8) (mask : BitVec 64), Gives (.wpSet path n mask) s (fun t => OnlyParts [.regs] s t ∧ RegsBut [Addr.CFL_WP n.toNat] s t ∧
      ∀ x < 16384, t.wpBit x = (s.wpBit x || (x / 64 == n.toNat && mask.getLsbD (x % 64) && !neverProtected x)))))

/-- R245 and R443 to R452: low-power states. -/
def Obligations.IslandsSleepAndWake : Prop :=
  (∀ (s : State) (i : Island), s.isl.length = 15 →
    let runs (t : State) (r : Run) : Prop := OnlyParts [.islands] s t ∧ t.run i = r ∧ ∀ j, j ≠ i → t.run j = s.run j
    (s.mayHaze i = true → Gives (.hazeEntry i) s (fun t => runs t .gated)) ∧
    (s.run i = .gated → s.isHeld i = false → s.mod.frozen = false → Gives (.hazeWake i) s (fun t => runs t .running))) ∧
  (∀ (s : State),
    (s.mayVote = true → (∀ i ∈ stopOrder, s.run i = .gated) → Gives .overcastVote s (fun t => OnlyParts [.lps] s t ∧
      t.lps = { s.lps with st := 1, ready := 0 })) ∧
    (∀ path, s.mayVote = true → Gives (.enter path) s (fun t => OnlyParts [.lps, .regs] s t ∧ RegsBut [Addr.LPS_CMD] s t ∧
      t.lps = { s.lps with st := 1, ready := 0 } ∧ t.fld F.LPS_CMD.ENTER = 1)) ∧
    (∀ i, s.voting i = true →
      let refused (t : State) : Prop := OnlyParts [.lps, .regs, .records] s t ∧ RegsBut [Addr.LPS_CNT0, Addr.LPS_CMD] s t ∧
        t.lps = { s.lps with st := 0, ready := 0, lastRefuser := i.code, backoff := min (s.fld F.LPS_CTL.BACKOFF_MAX) (s.lps.backoff + 1), cleanCurrent := false } ∧
        Rises s t F.LPS_CNT0.REFUSALS 1 ∧ t.fld F.LPS_CMD.ENTER = 0
      Gives (.voteTimeout i) s refused ∧
      (s.refuses i = true ∨ i = .dst ∨ i = .ctl → Gives (.islandRefuse i) s refused) ∧
      (s.canReady i = true →
        (i ∉ [Island.dst, .nc, .contrail, .ctl] → Gives (.islandReady i) s (fun t => OnlyParts [.lps] s t ∧ t.lps = { s.lps with ready := s.lps.ready + 1 })) ∧
        (i = .dst → Gives (.islandReady i) s (fun t => OnlyParts [.lps, .dst] s t ∧ t.dst = { s.dst with lastIncomplete := false } ∧
          t.lps = { s.lps with ready := s.lps.ready + 1, cleanCurrent := true })) ∧
        (i = .nc → Gives (.islandReady i) s (fun t => OnlyParts [.lps, .nc, .bytes] s t ∧ t.nc = s.nc.emptied ∧ t.lps = { s.lps with ready := s.lps.ready + 1 })) ∧
        (i = .contrail → Gives (.islandReady i) s (fun t => OnlyParts [.lps, .regs, .records, .contrail] s t ∧ t.contrail.unflushed = [] ∧
          t.lps = { s.lps with ready := s.lps.ready + 1 })) ∧
        (i = .ctl → s.isl.length = 15 → s.contrail.unflushed = [] → (∀ k < 15, Tab.get s.xing (64 + k) = none) → Gives (.islandReady i) s (fun t => OnlyParts [.lps, .islands, .regs] s t ∧
          RegsBut [Addr.LPS_CNT0, Addr.LPS_CMD] s t ∧ (∀ j, j ≠ .aon → t.run j = .off) ∧ t.run .aon = s.run .aon ∧
          t.lps = { s.lps with st := 2, ready := 0, backoff := 0, latched := 15, since := s.time, waiting := [] } ∧ Rises s t F.LPS_CNT0.ENTRIES 1)))) ∧
    (s.running .aon = true → s.lps.st = 2 →
      let night (t : State) : Prop := OnlyParts [.lps, .seq] s t ∧ t.lps = { s.lps with st := 3 } ∧ OnlyChannels s t ∧
        ∀ n < 32, t.chOn n = (s.chOn n && !nightChans.contains n)
      (s.on F.LPS_CTL.NIGHT_EN = true → Gives .nightfallEntry s night) ∧ ∀ path, Gives (.night path) s night) ∧
    (s.running .aon = true → s.mod.frozen = false →
      let woken (src : Nat) (ps : List Part) (rs : List Nat) (t : State) : Prop := OnlyParts (.lps :: .regs :: ps) s t ∧ RegsBut (Addr.LPS_CNT0 :: rs) s t ∧
        t.lps = { s.lps with st := 4, source := src, from_ := s.lps.st, durationMs := min (2 ^ 48 - 1) ((s.time - s.lps.since) / 1000000) } ∧
        Rises s t F.LPS_CNT0.WAKES 1
      (∀ path, (s.lps.st = 2 ∨ s.lps.st = 3 → Gives (.wake path) s (fun t => woken 2 [] [Addr.LPS_CMD] t ∧ t.fld F.LPS_CMD.WAKE = 1)) ∧
        (s.lps.st = 1 → Gives (.wake path) s (fun t => OnlyParts [.lps, .regs, .records] s t ∧ RegsBut [Addr.LPS_CNT0, Addr.LPS_CMD] s t ∧
          t.lps.st = 0 ∧ t.lps.lastRefuser = Island.ctl.code ∧ t.fld F.LPS_CMD.WAKE = 0 ∧ Rises s t F.LPS_CNT0.REFUSALS 1))) ∧
      (s.lps.st = 2 → Gives .ph0SignalDetect s (woken 3 [] [])) ∧ (s.lps.st = 3 → Gives .ph0SignalDetect s (fun t => t = s)) ∧
      (s.running .phl = false → (s.lps.st = 2 ∨ s.lps.st = 3 → Gives .twinHbInEdge s (fun t => woken 4 [.phl] [] t ∧ t.phl = { s.phl with hbIn := .toggling })) ∧
        (s.lps.st = 0 → Gives .twinHbInEdge s (fun t => OnlyParts [.phl] s t ∧ t.phl = { s.phl with hbIn := .toggling }))) ∧
      (s.lps.st = 0 → s.phl.hbIn = .toggling → Gives .twinHbInEdge s (fun t => t = s))) ∧
    (∀ bad, s.mayWakeEnd = true → s.lps.waiting = [] → s.isl.length = 15 → regsCanonical s.regs = true →
      let moved : List Nat := Addr.LPS_LOST :: Addr.LPS_CNT0 :: Addr.LPS_CMD :: (List.range 16).map Addr.PE_PQ_BASE
      Gives (.wakeComplete bad) s (fun t =>
        OnlyParts [.islands, .lps, .regs, .pmu, .staged, .cip, .fab, .nc, .bytes, .mem, .seq, .cal, .records] s t ∧
        (∀ a, a ∉ moved → t.raw a = retained bad (a, s.raw a)) ∧ t.fld F.LPS_LOST.BANKS = s.fld F.LPS_LOST.BANKS ||| bad.toNat ∧
        Rises s t F.LPS_CNT0.BANK_FAILS (badBanks bad).length ∧
        (∀ i, i ≠ .aon → t.run i = if i ∈ heldIslands bad then .gated else .running) ∧ t.lps.held = heldMask bad ∧ t.lps.cleanCurrent = false ∧
        t.lps.st = (if s.lps.latched.getLsbD 0 then 4 else 0) ∧ t.cip = { s.cip with cache := [] } ∧ t.fab = { s.fab with resident := [] } ∧
        t.nc = s.nc.emptied ∧ t.mem = { s.mem with sramDone := true } ∧
        (s.lps.from_ ≠ 3 → t.seq = s.seq ∧ t.cal = s.cal) ∧
        (s.lps.from_ = 3 → (∀ n < 32, t.chOn n = (s.chOn n || (nightChans.contains n && s.chEnabled n))) ∧
          ∀ k, Tab.get t.cal.units k = if k < 64 then Tab.get s.cal.units k else none))) ∧
    (s.running .aon = true → ∀ path,
      (∀ groups, s.mod.frozen = false → s.lps.st ≠ 4 → Gives (.padRelease path groups) s (fun t => OnlyParts [.lps] s t ∧
        t.lps = { s.lps with latched := s.lps.latched &&& ~~~(s.padsFree groups) })) ∧
      (∀ groups, s.mod.frozen = false → s.lps.st = 4 → s.lps.cleanCurrent = false → (s.padsFree groups).getLsbD 0 = true →
        Gives (.padRelease path groups) s (fun t => OnlyParts [.lps, .regs, .records] s t ∧ RegsBut [Addr.LPS_CMD] s t ∧ t.fld F.LPS_CMD.WAKE = 0 ∧
          t.lps = { s.lps with st := 0, latched := s.lps.latched &&& ~~~(s.padsFree groups) })) ∧
      (∀ islands : BitVec 15, s.isl.length = 15 → Gives (.lpsResume .ctl islands) s (fun t => OnlyParts [.islands, .lps] s t ∧
        t.lps = { s.lps with held := s.lps.held &&& ~~~islands } ∧
        ∀ i, i ≠ .aon → t.run i = if islands.getLsbD i.code && s.isHeld i then .running else s.run i)) ∧
      (∀ islands, path ≠ .ctl → Gives (.lpsResume path islands) s (fun t => OnlyParts [.regs, .records, .marks] s t ∧
        RegsBut [Addr.GEN_ERR, Addr.GEN_ERR_LOG, Addr.GEN_CNT0] s t ∧ Rises s t F.GEN_CNT0.PATH_DENIED 1))))

/-- R456, R458 to R460, R467 to R469 and R490: modes. -/
def Obligations.ModesChangeAsCommanded : Prop :=
  (∀ (s : State), s.running .ctl = true →
    let inMode (m : Mode) : ModState := { s.mod with
      mode := m, prev := s.mod.mode, enteredAt := s.time, intakeClosed := false, haltHeld := false, resumed := false }
    let answered (st : Status) (t : State) : Prop := OnlyParts [.regs] s t ∧ RegsBut [Addr.MOD_CMD] s t ∧ t.fld F.MOD_CMD.STATUS = st.toNat
    let entered (m : Mode) (ps : List Part) (rs : List Nat) (t : State) : Prop := OnlyParts (ps ++ [.mod, .regs, .records]) s t ∧ RegsBut rs s t ∧
      t.mod = inMode m
    let linked_ : Prop := s.phl.twin = .paired ∨ s.phl.twin = .fallback ∨ s.phl.twin = .unconfirmed
    let halted (cause : Nat) (rs : List Nat) (t : State) : Prop := RegsBut (Addr.MOD_CNT0 :: rs) s t ∧ t.mod = { inMode .halt with haltCause := cause } ∧
      Rises s t F.MOD_CNT0.HALT_ENTRIES 1 ∧ t.tir = { s.tir with loansOut := [] } ∧
      (¬ linked_ → OnlyParts [.mod, .tir, .regs, .records] s t) ∧
      (linked_ → s.phl.twinWait = [] → s.phl.hmapIn = [] → OnlyParts [.mod, .tir, .phl, .pst, .regs, .records] s t ∧ t.phl.unconfirmed = [] ∧ t.phl.twin = .lost ∧ t.phl.primary = false ∧ t.phl.lostByCommand = true ∧
        t.phl.unacked = [] ∧ t.pst = { s.pst with xreqs := [] })
    (s.svc.proc ≠ 1 → ∀ path,
      (∀ target : BitVec 3,
        let valid : Prop := target = 2 ∨ target = 6 ∨ target = 7
        (s.serving = false → Gives (.drain path target) s (answered ST.mode)) ∧
        (s.serving = true → ¬ valid → Gives (.drain path target) s (answered ST.fault)) ∧
        (s.serving = true → valid → s.resyncing = true → Gives (.drain path target) s (answered ST.busy)) ∧
        (s.serving = true → valid → s.resyncing = false → Gives (.drain path target) s (fun t =>
          OnlyParts [.mod, .nc, .ddr, .bytes, .mem, .tir, .out, .regs, .pmu, .records] s t ∧ RegsBut [Addr.MOD_CMD, Addr.MEM_CNT3] s t ∧
          t.mod = { inMode .drain with target := target.toNat } ∧ t.fld F.MOD_CMD.STATUS = 0 ∧ t.fld F.MOD_CMD.TARGET = target.toNat ∧
          (∀ b, t.nc.dirtyOf b = 0) ∧ (s.tir.loansOut = [] → t.tir = s.tir ∧ t.out = s.out)))) ∧
      ((s.serving || s.inDrain || s.inService) = false → Gives (.halt path) s (answered ST.mode)) ∧
      ((s.serving || s.inDrain || s.inService) = true →
        ((s.resyncing || s.partOut) = true → Gives (.halt path) s (answered ST.busy)) ∧
        ((s.resyncing || s.partOut) = false → Settled s → Gives (.halt path) s (fun t => halted 1 [Addr.MOD_CMD] t ∧ t.fld F.MOD_CMD.STATUS = 0))) ∧
      (s.serving = false → Gives (.service path) s (answered ST.mode)) ∧
      (s.serving = true → s.resyncing = true → Gives (.service path) s (answered ST.busy)) ∧
      (s.serving = true → s.resyncing = false → Gives (.service path) s (fun t => entered .service [.tir, .out] [Addr.MOD_CMD] t ∧ t.fld F.MOD_CMD.STATUS = 0)) ∧
      ((s.inDrain || s.inService) = false → Gives (.serve path) s (answered ST.mode)) ∧
      ((s.inDrain || s.inService) = true →
        (s.partOut = true → Gives (.serve path) s (answered ST.busy)) ∧
        (s.partOut = false → Gives (.serve path) s (fun t => entered s.serveOrSolo [] [Addr.MOD_CMD, Addr.MOD_CNT0] t ∧ t.fld F.MOD_CMD.STATUS = 0))) ∧
      (∀ twinResuming,
        (s.mod.mode ≠ .halt ∨ s.mod.haltCause = 3 → Gives (.resume path twinResuming) s (answered ST.mode)) ∧
        (s.mod.mode = .halt → s.mod.haltCause ≠ 3 →
          (s.phl.twin = .alone ∨ s.phl.twin = .absent → Gives (.resume path twinResuming) s (fun t =>
            entered .solo [] [Addr.MOD_CMD, Addr.MOD_CNT0] t ∧ t.fld F.MOD_CMD.STATUS = 0)) ∧
          (s.phl.twin = .lost → s.phl.linkIdSeen = false → Gives (.resume path twinResuming) s (fun t => OnlyParts [.phl, .mod, .regs, .records] s t ∧
            RegsBut [Addr.MOD_CMD] s t ∧ t.mod = { s.mod with resumed := true } ∧ t.phl = { s.phl with lostByCommand := false, twin := .linking } ∧
            t.fld F.MOD_CMD.STATUS = 0)) ∧
          (s.phl.twin = .lost → s.phl.linkIdSeen = true → s.phl.twinMode = 7 → s.phl.epoch < s.phl.peerEpoch → Gives (.resume path twinResuming) s (fun t =>
            OnlyParts [.regs] s t ∧ RegsBut [Addr.MOD_CMD, Addr.MOD_ERR] s t ∧ t.fld F.MOD_ERR.RESUME_REFUSED = 1 ∧
            t.fld F.MOD_CMD.STATUS = ST.busy.toNat))))) ∧
    (s.inDrain = true →
      (s.mod.intakeClosed = false → s.on F.MOD_CTL.CLOSE_PAGES = true → s.dirtyPages ≤ s.fld F.MOD_CTL.CLOSE_PAGES → Gives .intakeClose s (fun t =>
        OnlyParts [.mod] s t ∧ t.mod = { s.mod with intakeClosed := true })) ∧
      (s.mod.intakeClosed = false → Gives .drainClose s (fun t => OnlyParts [.mod, .regs, .records] s t ∧ RegsBut [Addr.MOD_ERR] s t ∧
        t.mod = { s.mod with intakeClosed := true } ∧ t.fld F.MOD_ERR.DRAIN_TIMED_OUT = 1)) ∧
      (s.dirtyPages = 0 → s.pst.units = [] → s.phl.copies = [] →
        (s.mod.target = 7 → s.resyncing = false → Settled s → Gives .drainComplete s (fun t => halted 2 [] t ∧ Rises s t F.MOD_CNT0.DRAINS 1)) ∧
        (s.mod.target = 6 → Gives .drainComplete s (fun t => entered .service [] [Addr.MOD_CNT0] t ∧ Rises s t F.MOD_CNT0.DRAINS 1)) ∧
        (s.mod.target = 2 → Gives .drainComplete s (fun t => entered s.serveOrSolo [] [Addr.MOD_CNT0] t ∧ Rises s t F.MOD_CNT0.DRAINS 1)))) ∧
    (s.mod.mode = .halt → s.mod.haltHeld = false → Gives .haltHold s (fun t => OnlyParts [.hst, .fab, .mod] s t ∧ t.mod = { s.mod with haltHeld := true } ∧
      (∀ p ∈ t.fab.paths, p.link = false) ∧ (s.on F.MOD_CTL.KEEP_HST = true → t.hst = s.hst) ∧
      (s.on F.MOD_CTL.KEEP_HST = false → (t.port .hp0).link = 0 ∧ (t.port .hp1).link = 0)))) ∧
  (∀ (s : State), s.running .aon = true →
    let noted (t : State) : Prop := OnlyParts [.records] s t
    let frozen (t : State) : Prop := OnlyParts [.mod, .lps, .dst, .seq, .regs] s t ∧ RegsBut [Addr.DST_HUP_CTL] s t ∧
      t.mod = { s.mod with frozen := true, frozenAt := s.time } ∧ t.lps = { s.lps with latched := s.lps.latched ||| 1 } ∧ t.dst.testing = false ∧
      ∀ i, i ≠ .aon → t.running i = false
    let lps : LpsState := if s.lps.st < 2 then { s.lps with latched := s.lps.latched &&& 0xE } else s.lps
    let freezes (c : Instr) : Prop := (s.mod.mode = .save → Gives c s noted) ∧ (s.mod.mode ≠ .save → s.mod.frozen = true → Gives c s (fun t => t = s)) ∧
      (s.mod.mode ≠ .save → s.mod.frozen = false → Gives c s frozen)
    (s.on F.DBG_CTL.PIN_EN = true → freezes .stillairFreeze) ∧ (s.on F.DBG_CTL.PIN_EN = false → Gives .stillairFreeze s (fun t => t = s)) ∧
    (∀ path, (s.debugOpen = false → Gives (.freeze path) s noted ∧ Gives (.thaw path) s noted ∧ Gives (.reset path) s noted) ∧
      (s.debugOpen = true → freezes (.freeze path) ∧
        (s.mod.frozen = false → Gives (.thaw path) s (fun t => t = s) ∧ Gives (.reset path) s (fun t => t = s)) ∧
        (s.mod.frozen = true → (s.phl.twin.watched = false ∨ s.time - s.mod.frozenAt ≤ 1000 * s.fld F.PHL_LEASE.FB_CONFIRM) →
          Gives (.thaw path) s (fun t => OnlyParts [.mod, .lps, .regs] s t ∧ RegsBut [Addr.MOD_CNT0] s t ∧ t.mod = { s.mod with frozen := false } ∧
            t.lps = lps ∧ Rises s t F.MOD_CNT0.FREEZES 1)) ∧
        (s.mod.frozen = true → s.mod.mode ≠ .save → s.seq.st = .up → s.lps.deep = false → s.isl.length = 15 → Gives (.reset path) s (fun t =>
          OnlyParts [.mod, .lps, .pe, .islands, .tir, .dst, .seq, .regs, .records] s t ∧ RegsBut [Addr.DST_HUP_CTL] s t ∧ t.mod.mode = .save ∧
          t.mod.prev = s.mod.mode ∧ t.mod.frozen = false ∧ t.mod.intakeClosed = true ∧ t.pe = { s.pe with stopped := true } ∧
          t.tir = { s.tir with loansOut := [] } ∧
          (∀ i ∈ [Island.ctl, .pe, .tir], t.run i = .inReset) ∧ (s.windowOpen = false → t.run .cal = .inReset))) ∧
        (s.mod.frozen = true → s.seq.st ≠ .up → Gives (.reset path) s (fun t => OnlyParts [.mod, .lps] s t ∧ t.lps = lps ∧
          t.mod = { s.mod with frozen := false })))))

/-- R494 to R499, R501 to R503 and R505: live service. -/
def Obligations.LiveServiceRunsAsCommanded : Prop :=
  (∀ (s : State) (path : Path) (verified : Bool) (engine : BitVec 6) (ch : BitVec 4) (dimms : List Dimm) (iface : BitVec 3) (unit : BitVec 8)
      (nch : BitVec 5) (ce : BitVec 3) (p : FabPort),
    let commands : List (Instr × CtlReq) :=
      [(.fwHandover path verified, .fwHandover path verified), (.mcodeSwap path engine, .mcodeSwap path engine), (.chOut path ch, .chOut path ch),
       (.chIn path ch dimms, .chIn path ch dimms), (.retrain path iface unit, .retrain path iface unit), (.nandRetire path nch ce, .nandRetire path nch ce),
       (.pathOut path p, .pathOut path p), (.pathIn path p, .pathIn path p)]
    let answered (st : Status) (t : State) : Prop := OnlyParts [.regs] s t ∧ RegsBut [Addr.SVC_CMD] s t ∧ t.fld F.SVC_CMD.STATUS = st.toNat
    let begun (op : Nat) (t : State) : Prop := t.svc.proc = op ∧ t.fld F.SVC_CMD.BUSY = 1
    let finished (st : Status) (t : State) : Prop := t.svc.proc = 0 ∧ t.fld F.SVC_CMD.BUSY = 0 ∧ t.fld F.SVC_CMD.STATUS = st.toNat
    (s.svc.proc = 1 → ∀ c ∈ (Instr.abort path, CtlReq.abort path) :: commands, Gives c.1 s (fun t => OnlyParts [.svc] s t ∧
      t.svc = { s.svc with waiting := s.svc.waiting ++ [c.2] })) ∧
    (s.running .ctl = true → s.svc.proc ≠ 0 → s.svc.proc ≠ 1 → ∀ c ∈ commands, Gives c.1 s (fun t => t = s)) ∧
    (s.running .ctl = true → s.svc.proc = 0 → s.inService = false → ∀ c ∈ commands, Gives c.1 s (answered ST.mode)) ∧
    (s.running .ctl = true → s.svc.proc = 0 → s.inService = true →
      (s.slotBoots s.otherSlot verified = false → Gives (.fwHandover path verified) s (answered ST.fault)) ∧
      (s.slotBoots s.otherSlot verified = true → s.isl.length = 15 → Gives (.fwHandover path verified) s (fun t => begun 1 t ∧
        OnlyParts [.svc, .islands, .regs, .records] s t ∧ RegsBut [Addr.SVC_CMD] s t ∧ t.run .ctl = .inReset ∧ ∀ i, i ≠ .ctl → t.run i = s.run i)) ∧
      (s.engineOn engine.toNat = false → Gives (.mcodeSwap path engine) s (answered ST.fault)) ∧
      (s.engineOn engine.toNat = true →
        (s.engineDrained engine.toNat = true → Gives (.mcodeSwap path engine) s (fun t => finished ST.ok t ∧ OnlyParts [.svc, .regs, .records] s t ∧
          RegsBut [Addr.SVC_CMD, Addr.SVC_CNT0] s t ∧ Rises s t F.SVC_CNT0.SWAPS 1 ∧ t.svc.mcode = s.svc.mcode ||| BitVec.ofNat 64 (2 ^ engine.toNat))) ∧
        (s.engineDrained engine.toNat = false → Gives (.mcodeSwap path engine) s (fun t => begun 2 t ∧ OnlyParts [.svc, .regs, .records] s t ∧
          RegsBut [Addr.SVC_CMD, Addr.PE_ENGINE_EN] s t ∧ t.svc.unit = engine.toNat ∧
          ∀ e < 64, t.engineOn e = (s.engineOn e && e != engine.toNat)))) ∧
      (s.chanOut ch.toNat = true → Gives (.chOut path ch) s (answered ST.fault)) ∧
      (s.chanOut ch.toNat = false → s.twinTakes = false → Gives (.chOut path ch) s (answered ST.busy)) ∧
      (s.chanOut ch.toNat = false → s.twinTakes = true → s.mem.chans.length = 16 → Gives (.chOut path ch) s (fun t => begun 3 t ∧
        OnlyParts [.svc, .mem, .nc, .ddr, .bytes, .phl, .out, .regs, .pmu, .records] s t ∧ RegsBut [Addr.SVC_CMD, Addr.MEM_CNT3] s t ∧
        (t.ch ch.toNat).out = true ∧ ch.toNat ∈ t.svc.chOut ∧ Sends s t { Frame.mk0 13 with aux := 6 + 256 * ch.toNat } ∧
        ∀ b, channelOf (b / 4) = ch.toNat → Tab.get t.nc.lines b = none)) ∧
      (s.svc.chOut.contains ch.toNat = false → Gives (.chIn path ch dimms) s (answered ST.fault)) ∧
      (s.svc.chOut.contains ch.toNat = true →
        (s.dimmsFit ch.toNat dimms = false → Gives (.chIn path ch dimms) s (fun t => finished ST.fault t ∧ OnlyParts [.svc, .regs, .records] s t ∧
          RegsBut [Addr.SVC_CMD, Addr.SVC_ERR] s t ∧ t.fld F.SVC_ERR.CH_IN_FAIL = 1 ∧ t.svc.chOut = s.svc.chOut)) ∧
        (let n := 14 + ch.toNat
         s.dimmsFit ch.toNat dimms = true → s.seq.st = .up → s.chClass n = 2 → Nat.testBit (s.fld F.SEQ_CH_FAILED.FAILED) n = false → s.chOn n = false →
          Gives (.chIn path ch dimms) s (fun t => begun 4 t ∧ OnlyParts [.svc, .seq, .cal, .regs, .records] s t ∧
            RegsBut [Addr.SVC_CMD, Addr.SEQ_CH_CMD, Addr.CAL_CMD] s t ∧ t.chOn n = true ∧ t.seq.chCmd = some (n, true) ∧ t.cal.cmd = some ch.toNat ∧
            (t.calUnit ch.toNat).st = 1 ∧ (t.calUnit ch.toNat).fromSeed = false))) ∧
      (let i := iface.toNat
       let u := unit.toNat
       let retrains (t : State) : Prop := begun 5 t ∧ t.cal.cmd = some (unitKey i u) ∧ (t.calUnit (unitKey i u)).st = 1 ∧
         (t.calUnit (unitKey i u)).fromSeed = false ∧ t.svc.iface = i ∧ t.svc.unit = u
       (i = 1 ∨ isUnit i u = false → Gives (.retrain path iface unit) s (answered ST.fault)) ∧
       (i = 0 → isUnit i u = true → s.twinTakes = false ∨ s.chanOut u = true → Gives (.retrain path iface unit) s (answered ST.busy)) ∧
       (i = 0 → isUnit i u = true → s.twinTakes = true → s.chanOut u = false → s.mem.chans.length = 16 → Gives (.retrain path iface unit) s (fun t =>
         retrains t ∧ (t.ch u).out = true)) ∧
       (i = 2 → isUnit i u = true → Gives (.retrain path iface unit) s (fun t => retrains t ∧ u ∈ t.dst.nandOut ∧
         OnlyParts [.svc, .dst, .draws, .cal, .regs, .records] s t ∧ RegsBut [Addr.SVC_CMD, Addr.DST_CNT0, Addr.CAL_CMD] s t)) ∧
       (i = 4 ∨ i = 5 → isUnit i u = true → Gives (.retrain path iface unit) s (fun t => t.cal.cmd = some (unitKey i u) ∧
         (t.calUnit (unitKey i u)).st = 1 ∧ (t.calUnit (unitKey i u)).fromSeed = false)) ∧
       (i = 3 → isUnit i u = true → Gives (.retrain path iface unit) s (fun t => retrains t ∧ OnlyParts [.svc, .hst, .cal, .regs, .records] s t))) ∧
      Gives (.nandRetire path nch ce) s (fun t =>
        let short := s.rawShort (s.dst.rawGib - Config.packageGib)
        (short = true → answered ST.busy t) ∧
        (short = false → begun 6 t ∧ OnlyParts [.svc, .regs, .records] s t ∧ RegsBut [Addr.SVC_CMD] s t ∧ (nch.toNat, ce.toNat) ∈ t.svc.migrating)) ∧
      ((s.path p.partner).st ≠ 0 → Gives (.pathOut path p) s (answered ST.busy)) ∧
      ((s.path p.partner).st = 0 → s.fab.paths.length = 4 → Gives (.pathOut path p) s (fun t => finished ST.ok t ∧ p.idx ∈ t.svc.portOut ∧
        (t.path p).st = 3 ∧ ∀ q, q ≠ p → t.path q = s.path q)) ∧
      (s.svc.portOut.contains p.idx = false → Gives (.pathIn path p) s (answered ST.fault)) ∧
      (s.svc.portOut.contains p.idx = true → s.fab.paths.length = 4 → (s.path p.partner).st = 0 → Gives (.pathIn path p) s (fun t => finished ST.ok t ∧
        p.idx ∉ t.svc.portOut ∧ t.fld ⟨Addr.FAB_PATH_CTL, p.idx, 1⟩ = 0 ∧ (t.path p).st = if (s.path p).st = 3 then 2 else (s.path p).st)))) ∧
  (∀ (s : State), s.running .ctl = true →
    let finished (st : Status) (rs : List Nat) (t : State) : Prop := t.svc.proc = 0 ∧ t.fld F.SVC_CMD.BUSY = 0 ∧ t.fld F.SVC_CMD.STATUS = st.toNat ∧
      RegsBut (Addr.SVC_CMD :: rs) s t
    (s.svc.proc = 2 → Gives .drainLimit s (fun t => OnlyParts [.svc, .regs, .records] s t ∧ finished ST.busy [Addr.PE_ENGINE_EN, Addr.SVC_ERR] t ∧
      t.fld F.SVC_ERR.SWAP_TIMEOUT = 1 ∧ (s.svc.unit < 64 → t.engineOn s.svc.unit = true))) ∧
    (s.filled s.svc.unit = true → s.hst.reads = [] → s.mem.chans.length = 16 → s.svc.unit < 16 → Gives .chFillComplete s (fun t =>
      OnlyParts [.svc, .mem, .phl, .out, .regs, .pmu, .records] s t ∧ finished ST.ok [Addr.SVC_CNT0] t ∧ (t.ch s.svc.unit).out = false ∧
      (t.ch s.svc.unit).lost = false ∧ t.svc.chOut = s.svc.chOut.filter (fun k => k != s.svc.unit) ∧ t.svc.filling = [] ∧
      Sends s t { Frame.mk0 13 with aux := 7 + 256 * s.svc.unit } ∧ (s.svc.proc = 4 → Rises s t F.SVC_CNT0.CHANNEL_SERVICES 1))) ∧
    (∀ ch ce rest, s.svc.migrating = (ch, ce) :: rest → s.running .dst = true → Gives .migrationComplete s (fun t =>
      OnlyParts [.dst, .svc, .draws, .regs, .records] s t ∧ RegsBut [Addr.SVC_CNT0, Addr.SVC_CMD] s t ∧ t.svc.migrating = rest ∧
      Rises s t F.SVC_CNT0.RETIREMENTS 1 ∧
      (∀ k b, Tab.get t.dst.blocks k = some b → k / 2 ^ 20 = ch * 8 + ce → b.retired = true) ∧
      (∀ k e, Tab.get t.dst.map k = some e → e.valid = true → Tab.sorted s.dst.map = true → ¬ (e.channel = ch ∧ e.ce = ce)) ∧
      (s.svc.proc = 6 → s.svc.unit = ch → s.svc.ce = ce → t.svc.proc = 0 ∧ t.fld F.SVC_CMD.STATUS = 0))) ∧
    (s.inService = true → ∀ path,
      let ended (ps : List Part) (t : State) : Prop := OnlyParts (ps ++ [.svc, .regs, .records]) s t ∧ finished ST.ok [Addr.PE_ENGINE_EN, Addr.SVC_ERR] t ∧
        t.fld F.SVC_ERR.ABORTED = 1
      (s.svc.proc = 2 → Gives (.abort path) s (fun t => ended [] t ∧ (s.svc.unit < 64 → t.engineOn s.svc.unit = true))) ∧
      (s.svc.proc = 4 ∨ (s.svc.proc = 5 ∧ s.svc.phase = 3) → s.mem.chans.length = 16 → s.svc.unit < 16 → Gives (.abort path) s (fun t =>
        ended [.mem, .dst, .cal] t ∧ (t.ch s.svc.unit).lost = true ∧ t.svc.filling = [] ∧ t.svc.chOut = s.svc.chOut)) ∧
      (s.svc.proc = 6 → Gives (.abort path) s (fun t => ended [] t ∧ (s.svc.unit, s.svc.ce) ∉ t.svc.migrating)) ∧
      (s.svc.proc = 0 ∨ s.svc.proc = 3 → Gives (.abort path) s (fun t => t = s)))) ∧
  (∀ (s : State), s.svc.proc = 1 → s.svc.waiting = [] → s.fab.ctrlQueue = [] → s.isl.length = 15 →
    let finished (st : Status) (t : State) : Prop := t.svc.proc = 0 ∧ t.fld F.SVC_CMD.BUSY = 0 ∧ t.fld F.SVC_CMD.STATUS = st.toNat ∧ t.run .ctl = .running ∧
      ∀ i, i ≠ .ctl → t.run i = s.run i
    Gives .handoverLimit s (fun t => OnlyParts [.islands, .svc, .regs, .records] s t ∧ RegsBut [Addr.SVC_CMD, Addr.SVC_ERR] s t ∧ finished ST.fault t ∧
      t.fld F.SVC_ERR.HANDOVER_FAIL = 1 ∧ t.svc.runningSlot = s.svc.runningSlot) ∧
    Gives .firmwareReady s (fun t => OnlyParts [.islands, .cfl, .svc, .regs, .records] s t ∧
      RegsBut (Addr.SVC_CMD :: Addr.SVC_CNT0 :: (List.range 256).map Addr.CFL_WP) s t ∧ finished ST.ok t ∧ Rises s t F.SVC_CNT0.HANDOVERS 1 ∧
      t.svc.runningSlot = s.otherSlot ∧ t.svc.mcode = 0 ∧ t.cfl.activeSlot = s.otherSlot ∧ t.cfl.hdrCopy = 1 - s.cfl.hdrCopy))

/-- R271 and R279: a charge is a dirty page of a tenant. -/
def Obligations.DestageReleasesTheChargeAtItsEnd : Prop :=
  ∀ (s : State) (page : BitVec 30) (q : Page), s.running .dst = true → Tab.sorted s.dst.pages = true →
    Tab.get s.dst.pages page.toNat = some q → q.dirty = true →
    let p := page.toNat
    let charged (t : State) : Prop := ∀ n, t.tenantPages n = s.tenantPages n
    let released (t : State) : Prop := ∀ n, t.tenantPages n + (if n = q.tenant then 1 else 0) = s.tenantPages n
    let stays (t : State) (r : Page) : Prop := Tab.get t.dst.pages p = some r ∧ ∀ k, k ≠ p → Tab.get t.dst.pages k = Tab.get s.dst.pages k
    let unwritten (t : State) : Prop := ∀ a, pageOf a = p → Memory.read t.dst.nand a = 0
    (s.running .mem = true → s.mayDestage p = true → s.destageFirst p = true → (∀ b ∈ blocksOf (p * 16384) 16384, Tab.get s.nc.lines b = none ∧ s.nc.inVictim b = none) →
      (s.pageImage p ≠ [] ∨ s.pagePoison p ≠ [] → Gives (.destageStart page) s (fun t => charged t ∧ t.dst.map = s.dst.map ∧
        t.dst.nand = s.dst.nand ∧ stays t { q with destaging := true, redirtied := false })) ∧
      (s.pageImage p = [] → s.pagePoison p = [] → q.redirtied = false → Gives (.destageStart page) s (fun t => released t ∧ unwritten t ∧
        stays t { q with dirty := false, destaging := false } ∧
        ∃ e, Tab.get t.dst.map p = some e ∧ e.zero = true ∧ e.valid = false))) ∧
    (∀ at_ : NandAddr, q.destaging = true →
      (Memory.wf s.ddr = true → Memory.wf s.dst.nand = true → Gives (.destageComplete page at_ true) s (fun t =>
        (∃ e, Tab.get t.dst.map p = some e ∧ e.valid = true ∧ e.zero = false ∧ e.key = nandKey at_ ∧ e.page = at_.page.toNat) ∧
        (∀ i < 4, ∀ j < 4096, Memory.read t.dst.nand (p * 16384 + i * 4096 + j) =
          if i ∈ s.keptBlocks p then Memory.read s.ddr (p * 16384 + i * 4096 + j) else 0) ∧
        (q.redirtied = false → released t ∧ stays t { q with destaging := false, dirty := false }) ∧
        (q.redirtied = true → charged t ∧ stays t { q with destaging := false, redirtied := false, since := s.time }))) ∧
      (s.dst.saving = false → Gives (.destageComplete page at_ false) s (fun t => charged t ∧ t.dst.nand = s.dst.nand ∧
        stays t { q with destaging := false, redirtied := false } ∧
        (Tab.sorted s.dst.map = true → ∀ k,
          (∀ e, Tab.get s.dst.map k = some e → e.valid = true → e.key = nandKey at_ → ∃ f, Tab.get t.dst.map k = some f ∧ f.valid = true ∧
            f.key = nandKey s.freeAddr ∧ f.page = e.page ∧ f.poisonAny = e.poisonAny) ∧
          ((∀ e, Tab.get s.dst.map k = some e → e.valid = true → e.key ≠ nandKey at_) → Tab.get t.dst.map k = Tab.get s.dst.map k)))))

/-- R59. The units of a region stand in the ingress buffer in region order. -/
def Obligations.LaterUnitReplacesEarlier : Prop :=
  ∀ (s : State) (u v : CUnit) (l₁ l₂ l₃ : List CUnit), s.running .pst = true → s.unitsNumbered = true →
    s.pst.units = l₁ ++ u :: l₂ ++ v :: l₃ → u.region = v.region → u.charged = true → u.away = false → v.away = false →
    u.overlaps v.dpa v.len = true →
    (u.committed = false → v.committed = false → s.modeOut v = false → Gives (.commitUnit v.id) s (fun t =>
      (v.volatile = false ∨ v.charged = true → t = s) ∧ ∀ w ∈ t.pst.units, w.id = v.id → w.committed = false)) ∧
    (∀ c, u.committed = true → s.commitReady v = true → s.modeOut v = false → s.reachable v = some c → s.hst.reads = [] → v.record = none →
      v.atomic = none → s.phl.hmapIn = [] → (v.volatile = true → v.hold = .none ∧ (v.forwarded = true → v.msn.isSome = true)) →
      (∀ a b d, v.door ≠ .fabric a b d) → (∀ w ∈ l₃, w.committed = true → ∀ e ∈ v.cells, cellIn w.cells e.1 = none) →
      Gives (.commitUnit v.id) s (fun t => (∃ w ∈ t.pst.units, w.id = v.id ∧ w.committed = true) ∧
        ∀ a b, cellIn v.cells a = some b → t.byte a = b)) ∧
    (u.committed = true → v.committed = true → Gives (.placement false v.id) s (fun t => t = s))

/-- R399. -/
def Obligations.ChannelCommandsSpareTheSequencer : Prop :=
  ∀ (s : State) (ch : BitVec 5), s.running .aon = true →
    let n := ch.toNat
    let others (t : State) : Prop := t.seq.st = s.seq.st ∧ t.seq.failPath = s.seq.failPath ∧ t.seq.fltDrive = s.seq.fltDrive ∧
      ∀ m < 32, m ≠ n → t.chOn m = s.chOn m
    (∀ path, s.seq.chCmd = none →
      (s.chClass n ≠ 1 → s.chClass n ≠ 2 → Gives (.channelOn path ch) s (fun t => others t ∧ t.chOn n = s.chOn n) ∧
        Gives (.channelOff path ch) s (fun t => others t ∧ t.chOn n = s.chOn n)) ∧
      (s.seq.st ≠ .up → Gives (.channelOn path ch) s (fun t => others t ∧ t.chOn n = s.chOn n) ∧
        Gives (.channelOff path ch) s (fun t => others t ∧ t.chOn n = s.chOn n)) ∧
      (s.seq.st = .up → s.chClass n = 1 ∨ s.chClass n = 2 →
        (Nat.testBit (s.fld F.SEQ_CH_FAILED.FAILED) n = false → Gives (.channelOn path ch) s (fun t => others t ∧ t.chOn n = true)) ∧
        Gives (.channelOff path ch) s (fun t => others t ∧ t.chOn n = false))) ∧
    (s.seq.st = .up → s.seq.chCmd = some (n, true) → (s.seq.buffer.length < 16 ∨ ∃ r ∈ s.seq.buffer, r.first = false) →
      let failed (rest : List FaultRec) (r : FaultRec) (t : State) : Prop := others t ∧ t.chOn n = false ∧ t.seq.st = .up ∧ t.seq.chCmd = none ∧
        t.seq.buffer = rest ++ [r] ∧ r.ch = n ∧ r.phase = 4 ∧ r.no = s.seq.nextFault % 2 ^ 32 ∧ (s.seq.buffer.length < 16 → rest = s.seq.buffer) ∧
        t.fld F.SEQ_CH_FAILED.FAILED = (s.fld F.SEQ_CH_FAILED.FAILED ||| 2 ^ n) ∧
        t.fld F.SEQ_CH_CMD.STATUS = ST.fault.toNat ∧ t.fld F.SEQ_CH_CMD.BUSY = 0
      (s.chGood n = false → Gives (.pgTimeout ch) s (fun t => ∃ rest r, failed rest r t)) ∧
      (∀ (kind : BitVec 2) (code : BitVec 12), s.chOn n = true →
        (s.chGood n = true ∨ (kind = 2 ∧ s.fld (F.SEQ_CH_CFG.SNS n) ≠ 0)) → Gives (.railLoss ch kind code) s (fun t => ∃ rest r, failed rest r t)))

/-- R95. The row is the moment at which MAX_WAIT has passed; while no covered write is pending the fence completes under R94. -/
def Obligations.FenceTimeoutReportsIncomplete : Prop :=
  ∀ (s : State) (p : Port) (ld : BitVec 4) (q : FenceReq) (rest : List FenceReq), s.fenceOpen p ld.toNat = true →
    (s.ld p ld.toNat).waiting = q :: rest → (s.ld p ld.toNat).settled q.bound = false → q.bound ≤ s.pst.nextUnit → (∀ r ∈ rest, q.bound ≤ r.bound) →
    let l := s.ld p ld.toNat
    Gives (.fenceTimeout p ld) s (fun t =>
      (∃ (b : List Byte) (dl : Nat), t.out = s.out ++ [.cxlData p ld.toNat q.tag ((b.drop q.off).take q.len) false dl] ∧ b.length = 64 ∧
        ((b[16]?).map (fun x => x.getLsbD 7)) = some true ∧ leNat (b.take 8) = l.seq % 2 ^ 64) ∧
      Rises s t (F.HST_CNT2.FENCE_TIMEOUTS p) 1 ∧ (t.ld p ld.toNat).seq = l.seq ∧ (t.ld p ld.toNat).taken = l.taken ∧
      (t.ld p ld.toNat).waiting = rest ∧ (∀ w ∈ l.taken, w.id < q.bound → ∀ r ∈ rest, w.id < r.bound) ∧
      ∀ (off : BitVec 6) (len : BitVec 7) (tag : BitVec 16), t.readsOut p + t.fencesOut p < 512 → t.fencesOut p < 256 → Gives (.fenceRead p ld off len tag) t (fun x =>
        (x.ld p ld.toNat).taken = l.taken ∧ ∃ r, (x.ld p ld.toNat).waiting = rest ++ [r] ∧ r.tag = tag.toNat ∧
          ∀ w ∈ l.taken, w.id < s.pst.nextUnit → w.id < r.bound))

/-- R7, R9, R506, R507, R509, R512 to R515, R537 and R540. -/
def Obligations.RegisterWritesFollowTheirFields : Prop :=
  ∀ (s : State) (path : Path) (offset : BitVec 25) (v : Word),
    let a := offset.toNat
    let writes : List Instr := Instr.registerWrite path offset 8 [v] :: (if path = .jtag then [Instr.dbgreg true offset v] else [])
    (s.debugOpen = false → ∀ w, Gives (.dbgreg w offset v) s (fun t => OnlyParts [.regs, .out, .pins] s t ∧ RegsBut [Addr.DBG_CTL] s t ∧
      t.fld F.DBG_CTL.JTAG_REFUSED = 1 ∧ t.out = s.out ++ [Out.jtag 0 []] ∧ t.jtagPins = 0 ∧ t.eid = s.eid)) ∧
    (s.pathThere path = false → ∀ size vs, (size = 8 → ctlServes a 1 = false ∨ s.svc.proc ≠ 1) → size ≤ 8 →
      Gives (.registerWrite path offset size vs) s (fun t => t = s)) ∧
    (ctlServes a 1 = true → s.svc.proc = 1 → Gives (.registerWrite path offset 8 [v]) s (fun t => OnlyParts [.svc] s t ∧
      t.svc = { s.svc with waiting := s.svc.waiting ++ [.write path offset 8 [v]] })) ∧
    (∀ d, Reaches s path a → isStage a = false → isBlkId a = false → (a = Addr.GEN_PATH_CTL → path = .ctl ∨ path = .mctp) →
      s.writeCommand path a v = none → s.fenceOver a v = none → (∀ t, s.followWrite path a v t = t) → findReg a = some d →
      ∀ c ∈ writes, Gives c s (fun t =>
        let gone := d.fields.any (fun f => s.lockRefuses a d v f)
        (∀ f ∈ d.fields, FieldWritten s t a d v f) ∧
        (∀ x : Staged, (x.addr ≠ a ∨ ∀ f ∈ d.fields, f.lsb ≠ x.lsb) → (x ∈ t.staged ↔ x ∈ s.staged)) ∧
        (gone = false → OnlyParts [.regs, .pmu, .staged] s t ∧ ∀ b, b ≠ a → t.raw b = s.raw b) ∧
        (gone = true → OnlyParts [.regs, .staged, .records] s t ∧ RegsBut [a, Addr.GEN_ERR, Addr.GEN_ERR_LOG, Addr.GEN_CNT0] s t ∧
          t.fld F.GEN_ERR.LOCKED_WRITE = 1 ∧ t.fld F.GEN_ERR_LOG.OFFSET = a ∧ Rises s t F.GEN_CNT0.LOCKED_WRITES 1))) ∧
    (Reaches s path a → isBlkId a = true → ∀ c ∈ writes, Gives c s (fun t => t = s)) ∧
    (s.pathThere path = true → ctlServes a 1 = false ∨ s.svc.proc ≠ 1 → a % 8 = 0 →
      let inside := s.pathShut path = false ∧ a < 0x1400000 ∧ a.testBit 18 = false
      (s.pathShut path = true ∨ (a < 0x1400000 ∧ a.testBit 18 = true ∧ path ≠ .ctl) →
        s.hazed (windowIsland (windowOf a)) = false → ∀ c ∈ writes, Gives c s (fun t => AccessError [] s t 4 path a (some F.GEN_CNT0.PATH_DENIED))) ∧
      (s.pathShut path = false → a < 0x1400000 → a.testBit 18 = true → path = .ctl → s.hazed (windowIsland (windowOf a)) = false →
        ∀ c ∈ writes, Gives c s (fun t => t = s)) ∧
      (s.pathShut path = false → 0x1400000 ≤ a ∨ (inside ∧ s.running (windowIsland (windowOf a)) = true ∧ described a = false) →
        s.hazed (windowIsland (windowOf a)) = false → ∀ c ∈ writes, Gives c s (fun t => AccessError [] s t 2 path a (some F.GEN_CNT0.UNMAPPED))) ∧
      (inside → s.servesWindow (windowOf a) = false →
        ∀ c ∈ writes, Gives c s (fun t => AccessError [] s t 5 path a (some F.GEN_CNT0.UNSERVED)))) ∧
    (∀ size vs, s.pathThere path = true → s.pathShut path = false →
      (alignedAccess a size.toNat = true → size.toNat < 8 → Reaches s path (a - a % 8) →
        Gives (.registerWrite path offset size vs) s (fun t => AccessError [] s t 3 path a none)) ∧
      (alignedAccess a size.toNat = false → s.svc.proc ≠ 1 →
        Gives (.registerWrite path offset size vs) s (fun t => AccessError [] s t 6 path a none)))

/-- R506, R507, R509, R513, R516 and R540. -/
def Obligations.RegisterReadsClearWhatTheyReturn : Prop :=
  (∀ (s : State) (path : Path) (offset : BitVec 25) (size : BitVec 8),
    let at_ := offset.toNat
    let a := at_ - at_ % 8
    let n := size.toNat
    let reads : List Instr := Instr.registerReadClear path offset size ::
      (if path = .jtag ∧ n = 8 then [Instr.dbgreg false offset 0] else [])
    let zero (t : State) : Prop := t.out = s.out ++ [Out.regValue path 0]
    (ctlServes a 1 = true → s.svc.proc = 1 → 1 ≤ n → n ≤ 8 → Gives (.registerReadClear path offset size) s (fun t => OnlyParts [.svc] s t ∧
      t.svc = { s.svc with waiting := s.svc.waiting ++ [.read path offset size] })) ∧
    (s.pathThere path = true → ctlServes a 1 = false ∨ s.svc.proc ≠ 1 →
      (alignedAccess at_ n = true → n ≤ 8 → ∀ c ∈ reads,
        (Reaches s path a → Gives c s (fun t => OnlyParts [.regs, .pmu, .out] s t ∧ (∀ b, b ≠ a → t.raw b = s.raw b) ∧
          t.out = s.out ++ [Out.regValue path (BitVec.ofNat 64 (bitsOf (s.reg a) (8 * (at_ % 8)) (8 * n)))] ∧
          ∀ d, findReg a = some d → ∀ f ∈ d.fields, t.fld ⟨a, f.lsb, f.width⟩ =
            if f.acc = .rc ∧ 8 * (at_ % 8) ≤ f.lsb ∧ f.lsb + f.width ≤ 8 * (at_ % 8 + n) then 0 else s.fld ⟨a, f.lsb, f.width⟩)) ∧
        (s.pathShut path = true ∨ (a < 0x1400000 ∧ a.testBit 18 = true ∧ path ≠ .ctl) → s.hazed (windowIsland (windowOf a)) = false →
          Gives c s (fun t => zero t ∧ AccessError [.out] s t 4 path a (some F.GEN_CNT0.PATH_DENIED))) ∧
        (s.pathShut path = false → 0x1400000 ≤ a ∨ (a.testBit 18 = false ∧ s.running (windowIsland (windowOf a)) = true ∧ described a = false) →
          s.hazed (windowIsland (windowOf a)) = false → Gives c s (fun t => zero t ∧ OnlyParts [.out] s t)) ∧
        (s.pathShut path = false → a < 0x1400000 → a.testBit 18 = false → s.servesWindow (windowOf a) = false →
          Gives c s (fun t => zero t ∧ AccessError [.out] s t 5 path a (some F.GEN_CNT0.UNSERVED))) ∧
        (s.hazed (windowIsland (windowOf a)) = true → s.isl.length = 15 →
          Gives c s (fun t => t.run (windowIsland (windowOf a)) = .running ∧ ∀ i, i ≠ windowIsland (windowOf a) → t.run i = s.run i))) ∧
      (alignedAccess at_ n = false → s.pathShut path = false → s.svc.proc ≠ 1 → Gives (.registerReadClear path offset size) s (fun t =>
        zero t ∧ AccessError [.out] s t 6 path at_ none)))) ∧
  (∀ (s : State) (offset : BitVec 25), s.running .aon = true →
    let a := offset.toNat
    let answers (st : Status) (l : List Word) (t : State) : Prop := t.out = s.out ++ [Out.mctp st l]
    (∀ (count : BitVec 8) (vs : List Word), s.svc.proc ≠ 1 → a % 8 ≠ 0 →
      Gives (.mctpRead offset count) s (fun t => answers ST.fault [] t ∧ AccessError [.out] s t 6 .mctp a none) ∧
      Gives (.mctpWrite offset vs) s (fun t => answers ST.fault [] t ∧ AccessError [.out] s t 6 .mctp a none)) ∧
    (∀ (count : BitVec 8) (vs : List Word), s.svc.proc ≠ 1 → a % 8 = 0 →
      (count = 0 ∨ 8 < count.toNat → Gives (.mctpRead offset count) s (fun t => answers ST.fault [] t ∧ OnlyParts [.out] s t)) ∧
      (vs = [] ∨ 8 < vs.length → Gives (.mctpWrite offset vs) s (fun t => answers ST.fault [] t ∧ OnlyParts [.out] s t))) ∧
    (∀ (count : BitVec 8), 1 ≤ count.toNat → count.toNat ≤ 8 → s.lps.st = 0 →
      (∀ i < count.toNat, Reaches s .mctp (a + 8 * i) ∧ ∀ d, findReg (a + 8 * i) = some d → ∀ f ∈ d.fields, f.acc ≠ .rc) →
      Gives (.mctpRead offset count) s (fun t => OnlyParts [.out] s t ∧
        answers ST.ok ((List.range count.toNat).map (fun i => s.reg (a + 8 * i))) t)) ∧
    (∀ v, Reaches s .mctp a → s.lps.st = 0 → Gives (.mctpWrite offset [v]) s (fun t =>
      ∃ u, exec (.registerWrite .mctp offset 8 [v]) s = .next u ∧ t = u.emit (.mctp ST.ok []))) ∧
    (∀ (count : BitVec 8) (v : Word) (vs : List Word), 1 ≤ count.toNat → count.toNat ≤ 8 → vs.length ≤ 7 → s.svc.proc ≠ 1 → s.lps.st = 0 →
      a % 8 = 0 → a < 0x1400000 → s.hazed (windowIsland (windowOf a)) = false →
      let refused (st : Status) (t : State) : Prop := answers st [] t ∧ RegsBut [Addr.GEN_ERR, Addr.GEN_ERR_LOG, Addr.GEN_CNT0] s t
      (a.testBit 18 = true → Gives (.mctpRead offset count) s (refused ST.rights) ∧ Gives (.mctpWrite offset (v :: vs)) s (refused ST.rights)) ∧
      (a.testBit 18 = false → s.servesWindow (windowOf a) = false →
        Gives (.mctpRead offset count) s (refused ST.mode) ∧ Gives (.mctpWrite offset (v :: vs)) s (refused ST.mode))) ∧
    (∀ (v : Word), 2 ≤ s.lps.st → s.lps.st ≤ 4 → s.mod.frozen = false → s.svc.proc ≠ 1 → a % 8 = 0 → a < 0x1400000 →
      aonWindow (windowOf a) = false →
      let waits (m : MctpAccess) (t : State) : Prop := OnlyParts [.lps, .regs] s t ∧ RegsBut [Addr.LPS_CNT0] s t ∧ t.lps.st = 4 ∧
        t.lps.waiting = s.lps.waiting ++ [m]
      Gives (.mctpRead offset 1) s (waits (.read a 1)) ∧ Gives (.mctpWrite offset [v]) s (waits (.write a [v]))))

/-- R9, R10, R20, R112 and R539. -/
def Obligations.StagedFieldsTakeEffectTogether : Prop :=
  (∀ (s : State) (b : Block), StagedWell s →
    let w := b.idx
    let stage := w * 0x100000 + 0x10
    let mine (x : Staged) : Bool := windowOf x.addr == w
    let inForce (p : Staged → Bool) (t : State) : Prop := TakesEffect s t p (if w = 6 then [stage, Addr.DST_CNT0] else [stage]) ∧
      OnlyParts ([.regs, .staged] ++ (if w = 1 then [.seq] else if w = 6 then [.dst, .draws, .records] else [])) s t ∧
      (s.staged.all (fun x => !mine x || p x) = true → t.reg stage = 0)
    (∀ x ∈ s.staged, mine x = true → credField x = false ∧ s.fenceSet x = none) →
    (∀ path, Reaches s path stage → Gives (.stageCommit path b) s (inForce mine)) ∧
    (s.running (windowIsland w) = true → s.quiet w = true →
      Gives (.stagedApply b) s (inForce (fun x => mine x && s.quietField x)))) ∧
  (∀ (s : State) (path : Path) (n : BitVec 4) (value : Word), Reaches s path (Addr.PE_PQ_DB n.toNat) →
    let tail := value.toNat % 4096
    let head := value.toNat / 65536 % 4096
    let held (t : State) : Prop := t.fld (F.PE_PQ_DB.SQ_TAIL n.toNat) = tail ∧ t.fld (F.PE_PQ_DB.CQ_HEAD n.toNat) = head
    (Tab.get s.pe.qps n.toNat = none → Gives (.privilegedDoorbell path n value) s (fun t => held t ∧ OnlyParts [.regs] s t ∧
      RegsBut [Addr.PE_PQ_DB n.toNat] s t)) ∧
    (∀ q, Tab.get s.pe.qps n.toNat = some q →
      let gap := ringGap q.depth q.cqHead head
      (tail < q.depth → head < q.depth → gap ≤ q.posted.length → Gives (.privilegedDoorbell path n value) s (fun t => held t ∧
        OnlyParts [.regs, .pe] s t ∧ RegsBut [Addr.PE_PQ_DB n.toNat] s t ∧
        Tab.get t.pe.qps n.toNat = some { q with sqTail := tail, cqHead := head, posted := q.posted.drop gap } ∧
        ∀ k, k ≠ n.toNat → Tab.get t.pe.qps k = Tab.get s.pe.qps k)) ∧
      (q.depth ≤ tail → q.depth ≤ head → Gives (.privilegedDoorbell path n value) s (fun t => held t ∧ OnlyParts [.regs] s t ∧
        RegsBut [Addr.PE_PQ_DB n.toNat, F.PE_ERR.DB_RANGE.addr] s t ∧ t.fld F.PE_ERR.DB_RANGE = 1))))

/-- R82, R496, R516, R517 and R541. -/
def Obligations.ManagementRequestsAnswerTheirPath : Prop :=
  ∀ (s : State) (path : Path) (p : Port) (ld : BitVec 4) (tenant : BitVec 12) (bus : BitVec 2) (target : BitVec 4) (page : BitVec 16)
    (bytes : List Byte) (members : List (BitVec 32)),
    let map := (F.HST_LD_MAP.ENABLE p ld.toNat).addr
    let bound (o : Out) (t : State) : Prop := OnlyParts [.regs, .staged, .out] s t ∧ RegsBut [map] s t ∧ t.out = s.out ++ [o] ∧
      t.fld (F.HST_LD_MAP.ENABLE p ld.toNat) = 1 ∧ bitsOf (overStaged t.staged map (t.raw map)) (F.HST_LD_MAP.TENANT p ld.toNat).lsb 12 = tenant.toNat ∧
      ∀ x : Staged, x.addr ≠ map → (x ∈ t.staged ↔ x ∈ s.staged)
    let answered (l : List Out) (t : State) : Prop := OnlyParts [.out] s t ∧ t.out = s.out ++ l
    let requests : List (Instr × CtlReq) := [(.fmBind path p ld tenant, .fmBind path p ld tenant),
      (.sidebandRead path bus target page bytes, .sidebandRead path bus target page bytes), (.poolMembers path members, .poolMembers path members)]
    let staged : Prop := ∀ x ∈ s.staged, x.addr = map → x.lsb = (F.HST_LD_MAP.TENANT p ld.toNat).lsb
    (s.svc.proc = 1 → ∀ c ∈ requests, Gives c.1 s (fun t => OnlyParts [.svc] s t ∧ t.svc = { s.svc with waiting := s.svc.waiting ++ [c.2] })) ∧
    (s.svc.proc ≠ 1 → s.running .ctl = false → ∀ c ∈ requests, Gives c.1 s (answered [Out.result path ST.mode []])) ∧
    (s.svc.proc ≠ 1 → s.running .ctl = true →
      (staged → s.running .hst = true → Gives (.fmBind path p ld tenant) s (bound (.result path ST.ok []))) ∧
      (s.running .hst = false → Gives (.fmBind path p ld tenant) s (answered [Out.result path ST.mode []])) ∧
      Gives (.sidebandRead path bus target page bytes) s (answered [Out.result path ST.ok (bytes.take 256)]) ∧
      (members = [] ∨ 262144 < members.length → Gives (.poolMembers path members) s (answered [Out.result path ST.length []])) ∧
      (members ≠ [] → members.length ≤ 262144 →
        ((∃ m ∈ members, 2 ^ 18 ≤ m.toNat) → Gives (.poolMembers path members) s (answered [Out.result path ST.fault []])) ∧
        ((∀ m ∈ members, m.toNat < 2 ^ 18) → Gives (.poolMembers path members) s (fun t => OnlyParts [.fab, .phl, .out, .pmu] s t ∧
          t.fab = { s.fab with members := members.map (·.toNat) } ∧ AnswersHeld s t path [])))) ∧
    (s.running .aon = true →
      (s.running .hst = false → ∀ o, Gives (.fmApi p ld o) s (answered [Out.fmApi ST.mode])) ∧
      (s.running .hst = true → (staged → Gives (.fmApi p ld (some tenant)) s (bound (.fmApi ST.ok))) ∧
        Gives (.fmApi p ld none) s (fun t => OnlyParts [.regs, .out] s t ∧ RegsBut [map] s t ∧ t.fld (F.HST_LD_MAP.ENABLE p ld.toNat) = 0 ∧
          t.out = s.out ++ [Out.fmApi ST.ok])) ∧
      (∀ e, Gives (.mctpControlMessage (some e)) s (fun t => OnlyParts [.pins, .out] s t ∧ t.eid = e.toNat ∧ t.jtagPins = s.jtagPins ∧
        t.out = s.out ++ [Out.mctpControl e.toNat])) ∧
      Gives (.mctpControlMessage none) s (answered [Out.mctpControl s.eid]))

/-- An invariant of every step: canonical memories and registers, one entry for each thing that the spec numbers. -/
def Obligations.EveryStepKeepsTheStateSound : Prop :=
  ∀ s t : State, s.sound = true → step s = .next t → t.sound = true

/-- What holds right after reset. -/
def Obligations.ResetIsSound : Prop :=
  State.reset.sound = true ∧ State.reset.pending = [] ∧ State.reset.mod.mode = .cold ∧ State.reset.seq.st = .off ∧
  State.reset.run .aon = .inReset ∧ (∀ i, i ≠ .aon → State.reset.run i = .off) ∧ State.reset.pe.qps = [] ∧ State.reset.regions = [] ∧
  State.reset.fab.sessions = [] ∧ State.reset.pst.units = [] ∧ ∀ a, State.reset.raw a = resetValue a
end

