-- ==== Sys2Proof/Laws/Table.lean ====
section
/-! SUPPORT. Tables: what a lookup finds after an entry is set, removed or changed, and that sortedness is kept. -/

namespace Sys2Proof.Machine

variable {α : Type}

@[simp] theorem Tab.get_nil (k : Nat) : Tab.get ([] : Tab α) k = none := rfl

/-- The entry just set is found. -/
@[simp] theorem Tab.get_put_self (t : Tab α) (k : Nat) (v : α) : Tab.get (Tab.put t k v) k = some v := by
  induction t with
  | nil => simp [Tab.put, Tab.get]
  | cons e r ih =>
    obtain ⟨j, w⟩ := e
    unfold Tab.put
    split
    · simp [Tab.get]
    · split
      · simp [Tab.get]
      · have h : ¬ j = k := fun h => by simp_all
        simp [Tab.get, h, ih]

/-- Setting an entry leaves the others. -/
theorem Tab.get_put_ne (t : Tab α) {k j : Nat} (v : α) (h : j ≠ k) : Tab.get (Tab.put t k v) j = Tab.get t j := by
  induction t with
  | nil => simp [Tab.put, Tab.get, h.symm]
  | cons e r ih =>
    obtain ⟨i, w⟩ := e
    unfold Tab.put
    split
    · simp [Tab.get, h.symm]
    · split
      · rename_i h2; subst h2; simp [Tab.get, h.symm]
      · simp [Tab.get, ih]

@[simp] theorem Tab.get_del_self (t : Tab α) (k : Nat) : Tab.get (Tab.del t k) k = none := by
  induction t with
  | nil => rfl
  | cons e r ih =>
    obtain ⟨j, w⟩ := e
    by_cases h : j = k
    · simpa [Tab.del, h] using ih
    · have h' : (j != k) = true := by simp [h]
      have : Tab.del ((j, w) :: r) k = (j, w) :: Tab.del r k := by simp [Tab.del, h']
      rw [this]; simp [Tab.get, h, ih]

/-- Removing an entry leaves the others. -/
theorem Tab.get_del_ne (t : Tab α) {k j : Nat} (h : j ≠ k) : Tab.get (Tab.del t k) j = Tab.get t j := by
  induction t with
  | nil => rfl
  | cons e r ih =>
    obtain ⟨i, w⟩ := e
    by_cases h2 : i = k
    · have : Tab.del ((i, w) :: r) k = Tab.del r k := by simp [Tab.del, h2]
      have h3 : ¬ i = j := fun h3 => h (h3.symm.trans h2)
      rw [this, ih]; simp [Tab.get, h3]
    · have : Tab.del ((i, w) :: r) k = (i, w) :: Tab.del r k := by simp [Tab.del, h2]
      rw [this]; simp [Tab.get, ih]

/-- Changing an entry in place. -/
@[simp] theorem Tab.get_upd_self (t : Tab α) (k : Nat) (f : α → α) : Tab.get (Tab.upd t k f) k = (Tab.get t k).map f := by
  induction t with
  | nil => rfl
  | cons e r ih =>
    obtain ⟨j, w⟩ := e
    by_cases h : j = k
    · simp [Tab.upd, Tab.get, h]
    · have := ih; simp only [Tab.upd] at this
      simp [Tab.upd, Tab.get, h, this]

theorem Tab.get_upd_ne (t : Tab α) {k j : Nat} (f : α → α) (h : j ≠ k) : Tab.get (Tab.upd t k f) j = Tab.get t j := by
  induction t with
  | nil => rfl
  | cons e r ih =>
    obtain ⟨i, w⟩ := e
    have hr := ih; simp only [Tab.upd] at hr
    by_cases h2 : i = k
    · have h3 : ¬ k = j := fun h3 => h h3.symm
      simp [Tab.upd, Tab.get, h2, h3, hr]
    · by_cases h3 : i = j
      · simp [Tab.upd, Tab.get, h3, h]
      · simp [Tab.upd, Tab.get, h2, h3, hr]

theorem Tab.has_put_self (t : Tab α) (k : Nat) (v : α) : Tab.has (Tab.put t k v) k = true := by simp [Tab.has]

/-- Sorted lists: the head lies below every key of the tail. -/
theorem Tab.sorted_cons {i : Nat} {v : α} {r : Tab α} (h : Tab.sorted ((i, v) :: r) = true) : Tab.sorted r = true := by
  cases r with
  | nil => rfl
  | cons e r => obtain ⟨j, w⟩ := e; simp [Tab.sorted] at h; exact h.2

/-- Setting an entry keeps the keys rising. -/
theorem Tab.sorted_put (t : Tab α) (k : Nat) (v : α) (h : Tab.sorted t = true) : Tab.sorted (Tab.put t k v) = true := by
  induction t with
  | nil => rfl
  | cons e r ih =>
    obtain ⟨i, w⟩ := e
    have ih := ih (Tab.sorted_cons h)
    unfold Tab.put
    split
    · rename_i hk; simp [Tab.sorted, hk, h]
    · split
      · rename_i hk; subst hk
        cases r with
        | nil => rfl
        | cons e r => obtain ⟨j, x⟩ := e; simpa [Tab.sorted] using h
      · rename_i h1 h2
        have hi : i < k := by omega
        cases r with
        | nil => simp [Tab.put, Tab.sorted, hi]
        | cons e r =>
          obtain ⟨j, x⟩ := e
          have hij : i < j := by simp [Tab.sorted] at h; exact h.1
          unfold Tab.put at ih ⊢
          split
          · rename_i hkj; rw [if_pos hkj] at ih; simp [Tab.sorted, hi]; simpa [Tab.sorted] using ih
          · rename_i hkj
            split
            · rename_i hkj2; subst hkj2; simp at ih; simpa [Tab.sorted, hi] using ih
            · rename_i hkj2; rw [if_neg hkj, if_neg hkj2] at ih; simpa [Tab.sorted, hij] using ih

end Sys2Proof.Machine
end

