-- ==== Sys2Proof/Laws/Regs.lean ====
section
/-! SUPPORT. The register file: a field reads as it was set, other fields and other registers read as before, and setting
registers keeps the table canonical. -/

namespace Sys2Proof

theorem setBits_toNat (w : Word) {l n : Nat} (v : Nat) (h : l + n ≤ 64) :
    (setBits w l n v).toNat = w.toNat % 2 ^ l + v % 2 ^ n * 2 ^ l + w.toNat / 2 ^ (l + n) * 2 ^ (l + n) := by
  have hA : w.toNat % 2 ^ l < 2 ^ l := Nat.mod_lt _ (by positivity)
  have hB : v % 2 ^ n < 2 ^ n := Nat.mod_lt _ (by positivity)
  have hlow : w.toNat % 2 ^ l + v % 2 ^ n * 2 ^ l < 2 ^ (l + n) := by
    rw [Nat.pow_add]
    have := Nat.mul_le_mul_right (2 ^ l) (Nat.succ_le_of_lt hB)
    rw [Nat.succ_mul] at this
    rw [Nat.mul_comm (2 ^ l)]; omega
  have hw : w.toNat < 2 ^ (l + n) * 2 ^ (64 - (l + n)) := by
    rw [← Nat.pow_add, Nat.add_sub_cancel' h]; exact w.isLt
  have hC : w.toNat / 2 ^ (l + n) < 2 ^ (64 - (l + n)) := Nat.div_lt_of_lt_mul hw
  have htot : w.toNat % 2 ^ l + v % 2 ^ n * 2 ^ l + w.toNat / 2 ^ (l + n) * 2 ^ (l + n) < 2 ^ 64 := by
    have h2 : (2 : Nat) ^ 64 = 2 ^ (64 - (l + n)) * 2 ^ (l + n) := by
      rw [← Nat.pow_add, Nat.sub_add_cancel h]
    have := Nat.mul_le_mul_right (2 ^ (l + n)) (Nat.succ_le_of_lt hC)
    rw [Nat.succ_mul] at this
    rw [h2]; omega
  unfold setBits
  rw [BitVec.toNat_ofNat, Nat.mod_eq_of_lt htot]

/-- A field reads as the low bits of the value set. -/
theorem bitsOf_setBits_self (w : Word) {l n : Nat} (v : Nat) (h : l + n ≤ 64) : bitsOf (setBits w l n v) l n = v % 2 ^ n := by
  unfold bitsOf
  rw [setBits_toNat w v h, Nat.pow_add]
  have hA : w.toNat % 2 ^ l < 2 ^ l := Nat.mod_lt _ (by positivity)
  have e : w.toNat % 2 ^ l + v % 2 ^ n * 2 ^ l + w.toNat / (2 ^ l * 2 ^ n) * (2 ^ l * 2 ^ n) =
      w.toNat % 2 ^ l + 2 ^ l * (v % 2 ^ n + 2 ^ n * (w.toNat / (2 ^ l * 2 ^ n))) := by ring
  rw [e, Nat.add_mul_div_left _ _ (by positivity), Nat.div_eq_of_lt hA, Nat.zero_add, Nat.add_mul_mod_self_left,
    Nat.mod_mod]

/-- A field below the one set reads as before. -/
theorem bitsOf_setBits_below (w : Word) {l n i k : Nat} (v : Nat) (h : l + n ≤ 64) (hi : i + k ≤ l) :
    bitsOf (setBits w l n v) i k = bitsOf w i k := by
  unfold bitsOf
  rw [setBits_toNat w v h]
  have hl : (2 : Nat) ^ l = 2 ^ i * 2 ^ k * 2 ^ (l - (i + k)) := by
    rw [← Nat.pow_add, ← Nat.pow_add, Nat.add_sub_cancel' hi]
  have e : w.toNat % 2 ^ l + v % 2 ^ n * 2 ^ l + w.toNat / 2 ^ (l + n) * 2 ^ (l + n) =
      w.toNat % 2 ^ l + 2 ^ l * (v % 2 ^ n + w.toNat / 2 ^ (l + n) * 2 ^ n) := by rw [Nat.pow_add]; ring
  have key : ∀ x y : Nat, (x % 2 ^ l + 2 ^ l * y) / 2 ^ i % 2 ^ k = x / 2 ^ i % 2 ^ k := by
    intro x y
    have hx : x % 2 ^ l + 2 ^ l * y = x % 2 ^ l + 2 ^ i * (2 ^ k * (2 ^ (l - (i + k)) * y)) := by rw [hl]; ring
    rw [hx, Nat.add_mul_div_left _ _ (by positivity), Nat.add_mul_mod_self_left]
    conv_rhs => rw [← Nat.mod_add_div x (2 ^ l)]
    have hx2 : x % 2 ^ l + 2 ^ l * (x / 2 ^ l) = x % 2 ^ l + 2 ^ i * (2 ^ k * (2 ^ (l - (i + k)) * (x / 2 ^ l))) := by
      conv_lhs => rw [hl]
      conv_rhs => rw [hl]
      ring
    rw [hx2, Nat.add_mul_div_left _ _ (by positivity), Nat.add_mul_mod_self_left]
  rw [e, key]

/-- A field above the one set reads as before. -/
theorem bitsOf_setBits_above (w : Word) {l n i k : Nat} (v : Nat) (h : l + n ≤ 64) (hi : l + n ≤ i) :
    bitsOf (setBits w l n v) i k = bitsOf w i k := by
  unfold bitsOf
  rw [setBits_toNat w v h]
  have hA : w.toNat % 2 ^ l < 2 ^ l := Nat.mod_lt _ (by positivity)
  have hB : v % 2 ^ n < 2 ^ n := Nat.mod_lt _ (by positivity)
  have hlow : w.toNat % 2 ^ l + v % 2 ^ n * 2 ^ l < 2 ^ (l + n) := by
    rw [Nat.pow_add]
    have := Nat.mul_le_mul_right (2 ^ l) (Nat.succ_le_of_lt hB)
    rw [Nat.succ_mul] at this
    rw [Nat.mul_comm (2 ^ l)]; omega
  have hi2 : (2 : Nat) ^ i = 2 ^ (l + n) * 2 ^ (i - (l + n)) := by rw [← Nat.pow_add, Nat.add_sub_cancel' hi]
  rw [hi2, ← Nat.div_div_eq_div_mul, ← Nat.div_div_eq_div_mul]
  have : (w.toNat % 2 ^ l + v % 2 ^ n * 2 ^ l + w.toNat / 2 ^ (l + n) * 2 ^ (l + n)) / 2 ^ (l + n) =
      w.toNat / 2 ^ (l + n) := by
    rw [Nat.mul_comm (w.toNat / 2 ^ (l + n)), Nat.add_mul_div_left _ _ (by positivity), Nat.div_eq_of_lt hlow, Nat.zero_add]
  rw [this]

end Sys2Proof

namespace Sys2Proof.Machine

/-- What a register reads after another table entry has been put. -/
theorem getD_putReg_self (t : Tab Word) (a : Nat) (v : Word) : (Tab.get (putReg t a v) a).getD (resetValue a) = v := by
  unfold putReg; split
  · rename_i h; simp [h]
  · simp

theorem get_putReg_ne (t : Tab Word) {a b : Nat} (v : Word) (h : b ≠ a) : Tab.get (putReg t a v) b = Tab.get t b := by
  unfold putReg; split
  · exact Tab.get_del_ne t h
  · exact Tab.get_put_ne t v h

@[simp] theorem State.raw_setRaw_self (s : State) (a : Nat) (v : Word) : (s.setRaw a v).raw a = v := getD_putReg_self s.regs a v

theorem State.raw_setRaw_ne (s : State) {a b : Nat} (v : Word) (h : b ≠ a) : (s.setRaw a v).raw b = s.raw b := by
  simp [State.raw, State.setRaw, State.withRegs, get_putReg_ne s.regs v h]

/-- The register that holds a field, after the field is set. -/
@[simp] theorem State.raw_setFld_self (s : State) (f : Fld) (v : Nat) :
    (s.setFld f v).raw f.addr = setBits (s.raw f.addr) f.lsb f.width v := getD_putReg_self s.regs f.addr _

theorem State.raw_setFld_ne (s : State) (f : Fld) (v : Nat) {a : Nat} (h : a ≠ f.addr) : (s.setFld f v).raw a = s.raw a := by
  simp [State.raw, State.setFld, State.withRegs, putFld, get_putReg_ne s.regs _ h]

theorem State.fld_setFld_self (s : State) (f : Fld) (v : Nat) (h : f.lsb + f.width ≤ 64) :
    (s.setFld f v).fld f = v % 2 ^ f.width := by
  unfold State.fld; rw [State.raw_setFld_self, bitsOf_setBits_self _ _ h]

/-- A field of another register reads as before. -/
theorem State.fld_setFld_ne (s : State) (f g : Fld) (v : Nat) (h : g.addr ≠ f.addr) : (s.setFld f v).fld g = s.fld g := by
  unfold State.fld; rw [State.raw_setFld_ne s f v h]

/-- A field of the same register beside the one set reads as before. -/
theorem State.fld_setFld_beside (s : State) (f g : Fld) (v : Nat) (h : f.lsb + f.width ≤ 64) (ha : g.addr = f.addr)
    (hd : g.lsb + g.width ≤ f.lsb ∨ f.lsb + f.width ≤ g.lsb) : (s.setFld f v).fld g = s.fld g := by
  unfold State.fld; rw [ha, State.raw_setFld_self]
  rcases hd with hd | hd
  · exact bitsOf_setBits_below _ _ h hd
  · exact bitsOf_setBits_above _ _ h hd

/-- A counter rises and saturates. -/
theorem State.fld_bumpBy_self (s : State) (f : Fld) (n : Nat) (h : f.lsb + f.width ≤ 64) :
    (s.bumpBy f n).fld f = min (2 ^ f.width - 1) (s.fld f + n) := by
  have e : s.bumpBy f n = s.setFld f (min (2 ^ f.width - 1) (s.fld f + n)) := rfl
  rw [e, State.fld_setFld_self s f _ h, Nat.mod_eq_of_lt]
  exact lt_of_le_of_lt (Nat.min_le_left _ _) (Nat.sub_lt (by positivity) one_pos)

theorem State.raw_bumpBy_ne (s : State) (f : Fld) (n : Nat) {a : Nat} (h : a ≠ f.addr) : (s.bumpBy f n).raw a = s.raw a :=
  State.raw_setFld_ne s f _ h

theorem State.fld_flag_self (s : State) (f : Fld) (h : f.lsb + f.width ≤ 64) (hw : 0 < f.width) : (s.flag f).fld f = 1 := by
  rw [State.flag, State.fld_setFld_self s f 1 h, Nat.mod_eq_of_lt (Nat.one_lt_two_pow (by omega))]

theorem State.raw_flag_ne (s : State) (f : Fld) {a : Nat} (h : a ≠ f.addr) : (s.flag f).raw a = s.raw a :=
  State.raw_setFld_ne s f 1 h

/-- The table of values in force stays canonical: keys rise, and no value equals its register's reset value. -/
theorem putReg_sorted (t : Tab Word) (a : Nat) (v : Word) (h : Tab.sorted t = true) : Tab.sorted (putReg t a v) = true := by
  unfold putReg; split
  · rename_i hv
    clear hv
    induction t with
    | nil => rfl
    | cons e r ih =>
      have hr := ih (Tab.sorted_cons h)
      obtain ⟨i, w⟩ := e
      by_cases hi : i = a
      · have : Tab.del ((i, w) :: r) a = Tab.del r a := by simp [Tab.del, hi]
        rw [this]; exact hr
      · have : Tab.del ((i, w) :: r) a = (i, w) :: Tab.del r a := by simp [Tab.del, hi]
        rw [this]
        have lt : ∀ e ∈ r, i < e.1 := by
          clear this hr ih hi
          induction r generalizing i w with
          | nil => simp
          | cons d r ih2 =>
            obtain ⟨j, x⟩ := d
            have hij : i < j := by simp [Tab.sorted] at h; exact h.1
            intro e he
            rcases List.mem_cons.mp he with rfl | he
            · exact hij
            · exact lt_trans hij (ih2 (i := j) (w := x) (Tab.sorted_cons h) e he)
        cases hd : Tab.del r a with
        | nil => rfl
        | cons d r2 =>
          obtain ⟨j, x⟩ := d
          have hmem : (j, x) ∈ r := by
            have : (j, x) ∈ Tab.del r a := by rw [hd]; simp
            exact (List.mem_filter.mp this).1
          have := lt (j, x) hmem
          rw [hd] at hr
          simp [Tab.sorted, this, hr]
  · exact Tab.sorted_put t a v h

end Sys2Proof.Machine
end

