-- ==== Sys2Proof/Laws/State.lean ====
section
/-! SUPPORT. What each update of the state leaves alone: one lemma a field, so that no later proof unfolds a record update. -/

namespace Sys2Proof.Machine

variable (s : State)

/-! `State.withPending` -/

@[simp] theorem State.withPending_pending (q : List Instr) : (s.withPending q).pending = q := by rfl
@[simp] theorem State.withPending_time (q : List Instr) : (s.withPending q).time = s.time := by rfl
@[simp] theorem State.withPending_freeCtr (q : List Instr) : (s.withPending q).freeCtr = s.freeCtr := by rfl
@[simp] theorem State.withPending_boot (q : List Instr) : (s.withPending q).boot = s.boot := by rfl
@[simp] theorem State.withPending_regs (q : List Instr) : (s.withPending q).regs = s.regs := by rfl
@[simp] theorem State.withPending_staged (q : List Instr) : (s.withPending q).staged = s.staged := by rfl
@[simp] theorem State.withPending_marks (q : List Instr) : (s.withPending q).marks = s.marks := by rfl
@[simp] theorem State.withPending_out (q : List Instr) : (s.withPending q).out = s.out := by rfl
@[simp] theorem State.withPending_isl (q : List Instr) : (s.withPending q).isl = s.isl := by rfl
@[simp] theorem State.withPending_clocks (q : List Instr) : (s.withPending q).clocks = s.clocks := by rfl
@[simp] theorem State.withPending_xing (q : List Instr) : (s.withPending q).xing = s.xing := by rfl
@[simp] theorem State.withPending_lost (q : List Instr) : (s.withPending q).lost = s.lost := by rfl
@[simp] theorem State.withPending_early (q : List Instr) : (s.withPending q).early = s.early := by rfl
@[simp] theorem State.withPending_regions (q : List Instr) : (s.withPending q).regions = s.regions := by rfl
@[simp] theorem State.withPending_tenants (q : List Instr) : (s.withPending q).tenants = s.tenants := by rfl
@[simp] theorem State.withPending_ddr (q : List Instr) : (s.withPending q).ddr = s.ddr := by rfl
@[simp] theorem State.withPending_poison (q : List Instr) : (s.withPending q).poison = s.poison := by rfl
@[simp] theorem State.withPending_pst (q : List Instr) : (s.withPending q).pst = s.pst := by rfl
@[simp] theorem State.withPending_hst (q : List Instr) : (s.withPending q).hst = s.hst := by rfl
@[simp] theorem State.withPending_phl (q : List Instr) : (s.withPending q).phl = s.phl := by rfl
@[simp] theorem State.withPending_dst (q : List Instr) : (s.withPending q).dst = s.dst := by rfl
@[simp] theorem State.withPending_pe (q : List Instr) : (s.withPending q).pe = s.pe := by rfl
@[simp] theorem State.withPending_mod (q : List Instr) : (s.withPending q).mod = s.mod := by rfl
@[simp] theorem State.withPending_seq (q : List Instr) : (s.withPending q).seq = s.seq := by rfl
@[simp] theorem State.withPending_contrail (q : List Instr) : (s.withPending q).contrail = s.contrail := by rfl
@[simp] theorem State.withPending_nc (q : List Instr) : (s.withPending q).nc = s.nc := by rfl
@[simp] theorem State.withPending_tir (q : List Instr) : (s.withPending q).tir = s.tir := by rfl
@[simp] theorem State.withPending_cip (q : List Instr) : (s.withPending q).cip = s.cip := by rfl
@[simp] theorem State.withPending_fab (q : List Instr) : (s.withPending q).fab = s.fab := by rfl
@[simp] theorem State.withPending_mem (q : List Instr) : (s.withPending q).mem = s.mem := by rfl
@[simp] theorem State.withPending_cal (q : List Instr) : (s.withPending q).cal = s.cal := by rfl
@[simp] theorem State.withPending_cfl (q : List Instr) : (s.withPending q).cfl = s.cfl := by rfl
@[simp] theorem State.withPending_lps (q : List Instr) : (s.withPending q).lps = s.lps := by rfl
@[simp] theorem State.withPending_dbg (q : List Instr) : (s.withPending q).dbg = s.dbg := by rfl
@[simp] theorem State.withPending_svc (q : List Instr) : (s.withPending q).svc = s.svc := by rfl
@[simp] theorem State.withPending_eid (q : List Instr) : (s.withPending q).eid = s.eid := by rfl
@[simp] theorem State.withPending_jtagPins (q : List Instr) : (s.withPending q).jtagPins = s.jtagPins := by rfl

/-! `State.withRegs` -/

@[simp] theorem State.withRegs_pending (t : Tab Word) : (s.withRegs t).pending = s.pending := by rfl
@[simp] theorem State.withRegs_time (t : Tab Word) : (s.withRegs t).time = s.time := by rfl
@[simp] theorem State.withRegs_freeCtr (t : Tab Word) : (s.withRegs t).freeCtr = s.freeCtr := by rfl
@[simp] theorem State.withRegs_boot (t : Tab Word) : (s.withRegs t).boot = s.boot := by rfl
@[simp] theorem State.withRegs_regs (t : Tab Word) : (s.withRegs t).regs = t := by rfl
@[simp] theorem State.withRegs_staged (t : Tab Word) : (s.withRegs t).staged = s.staged := by rfl
@[simp] theorem State.withRegs_marks (t : Tab Word) : (s.withRegs t).marks = s.marks := by rfl
@[simp] theorem State.withRegs_out (t : Tab Word) : (s.withRegs t).out = s.out := by rfl
@[simp] theorem State.withRegs_isl (t : Tab Word) : (s.withRegs t).isl = s.isl := by rfl
@[simp] theorem State.withRegs_clocks (t : Tab Word) : (s.withRegs t).clocks = s.clocks := by rfl
@[simp] theorem State.withRegs_xing (t : Tab Word) : (s.withRegs t).xing = s.xing := by rfl
@[simp] theorem State.withRegs_lost (t : Tab Word) : (s.withRegs t).lost = s.lost := by rfl
@[simp] theorem State.withRegs_early (t : Tab Word) : (s.withRegs t).early = s.early := by rfl
@[simp] theorem State.withRegs_regions (t : Tab Word) : (s.withRegs t).regions = s.regions := by rfl
@[simp] theorem State.withRegs_tenants (t : Tab Word) : (s.withRegs t).tenants = s.tenants := by rfl
@[simp] theorem State.withRegs_ddr (t : Tab Word) : (s.withRegs t).ddr = s.ddr := by rfl
@[simp] theorem State.withRegs_poison (t : Tab Word) : (s.withRegs t).poison = s.poison := by rfl
@[simp] theorem State.withRegs_pst (t : Tab Word) : (s.withRegs t).pst = s.pst := by rfl
@[simp] theorem State.withRegs_hst (t : Tab Word) : (s.withRegs t).hst = s.hst := by rfl
@[simp] theorem State.withRegs_phl (t : Tab Word) : (s.withRegs t).phl = s.phl := by rfl
@[simp] theorem State.withRegs_dst (t : Tab Word) : (s.withRegs t).dst = s.dst := by rfl
@[simp] theorem State.withRegs_pe (t : Tab Word) : (s.withRegs t).pe = s.pe := by rfl
@[simp] theorem State.withRegs_mod (t : Tab Word) : (s.withRegs t).mod = s.mod := by rfl
@[simp] theorem State.withRegs_seq (t : Tab Word) : (s.withRegs t).seq = s.seq := by rfl
@[simp] theorem State.withRegs_contrail (t : Tab Word) : (s.withRegs t).contrail = s.contrail := by rfl
@[simp] theorem State.withRegs_nc (t : Tab Word) : (s.withRegs t).nc = s.nc := by rfl
@[simp] theorem State.withRegs_tir (t : Tab Word) : (s.withRegs t).tir = s.tir := by rfl
@[simp] theorem State.withRegs_cip (t : Tab Word) : (s.withRegs t).cip = s.cip := by rfl
@[simp] theorem State.withRegs_fab (t : Tab Word) : (s.withRegs t).fab = s.fab := by rfl
@[simp] theorem State.withRegs_mem (t : Tab Word) : (s.withRegs t).mem = s.mem := by rfl
@[simp] theorem State.withRegs_cal (t : Tab Word) : (s.withRegs t).cal = s.cal := by rfl
@[simp] theorem State.withRegs_cfl (t : Tab Word) : (s.withRegs t).cfl = s.cfl := by rfl
@[simp] theorem State.withRegs_lps (t : Tab Word) : (s.withRegs t).lps = s.lps := by rfl
@[simp] theorem State.withRegs_dbg (t : Tab Word) : (s.withRegs t).dbg = s.dbg := by rfl
@[simp] theorem State.withRegs_svc (t : Tab Word) : (s.withRegs t).svc = s.svc := by rfl
@[simp] theorem State.withRegs_eid (t : Tab Word) : (s.withRegs t).eid = s.eid := by rfl
@[simp] theorem State.withRegs_jtagPins (t : Tab Word) : (s.withRegs t).jtagPins = s.jtagPins := by rfl

/-! `State.setRaw` -/

@[simp] theorem State.setRaw_pending (a : Nat) (v : Word) : (s.setRaw a v).pending = s.pending := State.withRegs_pending s _
@[simp] theorem State.setRaw_time (a : Nat) (v : Word) : (s.setRaw a v).time = s.time := State.withRegs_time s _
@[simp] theorem State.setRaw_freeCtr (a : Nat) (v : Word) : (s.setRaw a v).freeCtr = s.freeCtr := State.withRegs_freeCtr s _
@[simp] theorem State.setRaw_boot (a : Nat) (v : Word) : (s.setRaw a v).boot = s.boot := State.withRegs_boot s _
@[simp] theorem State.setRaw_staged (a : Nat) (v : Word) : (s.setRaw a v).staged = s.staged := State.withRegs_staged s _
@[simp] theorem State.setRaw_marks (a : Nat) (v : Word) : (s.setRaw a v).marks = s.marks := State.withRegs_marks s _
@[simp] theorem State.setRaw_out (a : Nat) (v : Word) : (s.setRaw a v).out = s.out := State.withRegs_out s _
@[simp] theorem State.setRaw_isl (a : Nat) (v : Word) : (s.setRaw a v).isl = s.isl := State.withRegs_isl s _
@[simp] theorem State.setRaw_clocks (a : Nat) (v : Word) : (s.setRaw a v).clocks = s.clocks := State.withRegs_clocks s _
@[simp] theorem State.setRaw_xing (a : Nat) (v : Word) : (s.setRaw a v).xing = s.xing := State.withRegs_xing s _
@[simp] theorem State.setRaw_lost (a : Nat) (v : Word) : (s.setRaw a v).lost = s.lost := State.withRegs_lost s _
@[simp] theorem State.setRaw_early (a : Nat) (v : Word) : (s.setRaw a v).early = s.early := State.withRegs_early s _
@[simp] theorem State.setRaw_regions (a : Nat) (v : Word) : (s.setRaw a v).regions = s.regions := State.withRegs_regions s _
@[simp] theorem State.setRaw_tenants (a : Nat) (v : Word) : (s.setRaw a v).tenants = s.tenants := State.withRegs_tenants s _
@[simp] theorem State.setRaw_ddr (a : Nat) (v : Word) : (s.setRaw a v).ddr = s.ddr := State.withRegs_ddr s _
@[simp] theorem State.setRaw_poison (a : Nat) (v : Word) : (s.setRaw a v).poison = s.poison := State.withRegs_poison s _
@[simp] theorem State.setRaw_pst (a : Nat) (v : Word) : (s.setRaw a v).pst = s.pst := State.withRegs_pst s _
@[simp] theorem State.setRaw_hst (a : Nat) (v : Word) : (s.setRaw a v).hst = s.hst := State.withRegs_hst s _
@[simp] theorem State.setRaw_phl (a : Nat) (v : Word) : (s.setRaw a v).phl = s.phl := State.withRegs_phl s _
@[simp] theorem State.setRaw_dst (a : Nat) (v : Word) : (s.setRaw a v).dst = s.dst := State.withRegs_dst s _
@[simp] theorem State.setRaw_pe (a : Nat) (v : Word) : (s.setRaw a v).pe = s.pe := State.withRegs_pe s _
@[simp] theorem State.setRaw_mod (a : Nat) (v : Word) : (s.setRaw a v).mod = s.mod := State.withRegs_mod s _
@[simp] theorem State.setRaw_seq (a : Nat) (v : Word) : (s.setRaw a v).seq = s.seq := State.withRegs_seq s _
@[simp] theorem State.setRaw_contrail (a : Nat) (v : Word) : (s.setRaw a v).contrail = s.contrail := State.withRegs_contrail s _
@[simp] theorem State.setRaw_nc (a : Nat) (v : Word) : (s.setRaw a v).nc = s.nc := State.withRegs_nc s _
@[simp] theorem State.setRaw_tir (a : Nat) (v : Word) : (s.setRaw a v).tir = s.tir := State.withRegs_tir s _
@[simp] theorem State.setRaw_cip (a : Nat) (v : Word) : (s.setRaw a v).cip = s.cip := State.withRegs_cip s _
@[simp] theorem State.setRaw_fab (a : Nat) (v : Word) : (s.setRaw a v).fab = s.fab := State.withRegs_fab s _
@[simp] theorem State.setRaw_mem (a : Nat) (v : Word) : (s.setRaw a v).mem = s.mem := State.withRegs_mem s _
@[simp] theorem State.setRaw_cal (a : Nat) (v : Word) : (s.setRaw a v).cal = s.cal := State.withRegs_cal s _
@[simp] theorem State.setRaw_cfl (a : Nat) (v : Word) : (s.setRaw a v).cfl = s.cfl := State.withRegs_cfl s _
@[simp] theorem State.setRaw_lps (a : Nat) (v : Word) : (s.setRaw a v).lps = s.lps := State.withRegs_lps s _
@[simp] theorem State.setRaw_dbg (a : Nat) (v : Word) : (s.setRaw a v).dbg = s.dbg := State.withRegs_dbg s _
@[simp] theorem State.setRaw_svc (a : Nat) (v : Word) : (s.setRaw a v).svc = s.svc := State.withRegs_svc s _
@[simp] theorem State.setRaw_eid (a : Nat) (v : Word) : (s.setRaw a v).eid = s.eid := State.withRegs_eid s _
@[simp] theorem State.setRaw_jtagPins (a : Nat) (v : Word) : (s.setRaw a v).jtagPins = s.jtagPins := State.withRegs_jtagPins s _

/-! `State.setFld` -/

@[simp] theorem State.setFld_pending (g : Fld) (v : Nat) : (s.setFld g v).pending = s.pending := State.withRegs_pending s _
@[simp] theorem State.setFld_time (g : Fld) (v : Nat) : (s.setFld g v).time = s.time := State.withRegs_time s _
@[simp] theorem State.setFld_freeCtr (g : Fld) (v : Nat) : (s.setFld g v).freeCtr = s.freeCtr := State.withRegs_freeCtr s _
@[simp] theorem State.setFld_boot (g : Fld) (v : Nat) : (s.setFld g v).boot = s.boot := State.withRegs_boot s _
@[simp] theorem State.setFld_staged (g : Fld) (v : Nat) : (s.setFld g v).staged = s.staged := State.withRegs_staged s _
@[simp] theorem State.setFld_marks (g : Fld) (v : Nat) : (s.setFld g v).marks = s.marks := State.withRegs_marks s _
@[simp] theorem State.setFld_out (g : Fld) (v : Nat) : (s.setFld g v).out = s.out := State.withRegs_out s _
@[simp] theorem State.setFld_isl (g : Fld) (v : Nat) : (s.setFld g v).isl = s.isl := State.withRegs_isl s _
@[simp] theorem State.setFld_clocks (g : Fld) (v : Nat) : (s.setFld g v).clocks = s.clocks := State.withRegs_clocks s _
@[simp] theorem State.setFld_xing (g : Fld) (v : Nat) : (s.setFld g v).xing = s.xing := State.withRegs_xing s _
@[simp] theorem State.setFld_lost (g : Fld) (v : Nat) : (s.setFld g v).lost = s.lost := State.withRegs_lost s _
@[simp] theorem State.setFld_early (g : Fld) (v : Nat) : (s.setFld g v).early = s.early := State.withRegs_early s _
@[simp] theorem State.setFld_regions (g : Fld) (v : Nat) : (s.setFld g v).regions = s.regions := State.withRegs_regions s _
@[simp] theorem State.setFld_tenants (g : Fld) (v : Nat) : (s.setFld g v).tenants = s.tenants := State.withRegs_tenants s _
@[simp] theorem State.setFld_ddr (g : Fld) (v : Nat) : (s.setFld g v).ddr = s.ddr := State.withRegs_ddr s _
@[simp] theorem State.setFld_poison (g : Fld) (v : Nat) : (s.setFld g v).poison = s.poison := State.withRegs_poison s _
@[simp] theorem State.setFld_pst (g : Fld) (v : Nat) : (s.setFld g v).pst = s.pst := State.withRegs_pst s _
@[simp] theorem State.setFld_hst (g : Fld) (v : Nat) : (s.setFld g v).hst = s.hst := State.withRegs_hst s _
@[simp] theorem State.setFld_phl (g : Fld) (v : Nat) : (s.setFld g v).phl = s.phl := State.withRegs_phl s _
@[simp] theorem State.setFld_dst (g : Fld) (v : Nat) : (s.setFld g v).dst = s.dst := State.withRegs_dst s _
@[simp] theorem State.setFld_pe (g : Fld) (v : Nat) : (s.setFld g v).pe = s.pe := State.withRegs_pe s _
@[simp] theorem State.setFld_mod (g : Fld) (v : Nat) : (s.setFld g v).mod = s.mod := State.withRegs_mod s _
@[simp] theorem State.setFld_seq (g : Fld) (v : Nat) : (s.setFld g v).seq = s.seq := State.withRegs_seq s _
@[simp] theorem State.setFld_contrail (g : Fld) (v : Nat) : (s.setFld g v).contrail = s.contrail := State.withRegs_contrail s _
@[simp] theorem State.setFld_nc (g : Fld) (v : Nat) : (s.setFld g v).nc = s.nc := State.withRegs_nc s _
@[simp] theorem State.setFld_tir (g : Fld) (v : Nat) : (s.setFld g v).tir = s.tir := State.withRegs_tir s _
@[simp] theorem State.setFld_cip (g : Fld) (v : Nat) : (s.setFld g v).cip = s.cip := State.withRegs_cip s _
@[simp] theorem State.setFld_fab (g : Fld) (v : Nat) : (s.setFld g v).fab = s.fab := State.withRegs_fab s _
@[simp] theorem State.setFld_mem (g : Fld) (v : Nat) : (s.setFld g v).mem = s.mem := State.withRegs_mem s _
@[simp] theorem State.setFld_cal (g : Fld) (v : Nat) : (s.setFld g v).cal = s.cal := State.withRegs_cal s _
@[simp] theorem State.setFld_cfl (g : Fld) (v : Nat) : (s.setFld g v).cfl = s.cfl := State.withRegs_cfl s _
@[simp] theorem State.setFld_lps (g : Fld) (v : Nat) : (s.setFld g v).lps = s.lps := State.withRegs_lps s _
@[simp] theorem State.setFld_dbg (g : Fld) (v : Nat) : (s.setFld g v).dbg = s.dbg := State.withRegs_dbg s _
@[simp] theorem State.setFld_svc (g : Fld) (v : Nat) : (s.setFld g v).svc = s.svc := State.withRegs_svc s _
@[simp] theorem State.setFld_eid (g : Fld) (v : Nat) : (s.setFld g v).eid = s.eid := State.withRegs_eid s _
@[simp] theorem State.setFld_jtagPins (g : Fld) (v : Nat) : (s.setFld g v).jtagPins = s.jtagPins := State.withRegs_jtagPins s _

/-! `State.bumpBy` -/

@[simp] theorem State.bumpBy_pending (g : Fld) (n : Nat) : (s.bumpBy g n).pending = s.pending := State.withRegs_pending s _
@[simp] theorem State.bumpBy_time (g : Fld) (n : Nat) : (s.bumpBy g n).time = s.time := State.withRegs_time s _
@[simp] theorem State.bumpBy_freeCtr (g : Fld) (n : Nat) : (s.bumpBy g n).freeCtr = s.freeCtr := State.withRegs_freeCtr s _
@[simp] theorem State.bumpBy_boot (g : Fld) (n : Nat) : (s.bumpBy g n).boot = s.boot := State.withRegs_boot s _
@[simp] theorem State.bumpBy_staged (g : Fld) (n : Nat) : (s.bumpBy g n).staged = s.staged := State.withRegs_staged s _
@[simp] theorem State.bumpBy_marks (g : Fld) (n : Nat) : (s.bumpBy g n).marks = s.marks := State.withRegs_marks s _
@[simp] theorem State.bumpBy_out (g : Fld) (n : Nat) : (s.bumpBy g n).out = s.out := State.withRegs_out s _
@[simp] theorem State.bumpBy_isl (g : Fld) (n : Nat) : (s.bumpBy g n).isl = s.isl := State.withRegs_isl s _
@[simp] theorem State.bumpBy_clocks (g : Fld) (n : Nat) : (s.bumpBy g n).clocks = s.clocks := State.withRegs_clocks s _
@[simp] theorem State.bumpBy_xing (g : Fld) (n : Nat) : (s.bumpBy g n).xing = s.xing := State.withRegs_xing s _
@[simp] theorem State.bumpBy_lost (g : Fld) (n : Nat) : (s.bumpBy g n).lost = s.lost := State.withRegs_lost s _
@[simp] theorem State.bumpBy_early (g : Fld) (n : Nat) : (s.bumpBy g n).early = s.early := State.withRegs_early s _
@[simp] theorem State.bumpBy_regions (g : Fld) (n : Nat) : (s.bumpBy g n).regions = s.regions := State.withRegs_regions s _
@[simp] theorem State.bumpBy_tenants (g : Fld) (n : Nat) : (s.bumpBy g n).tenants = s.tenants := State.withRegs_tenants s _
@[simp] theorem State.bumpBy_ddr (g : Fld) (n : Nat) : (s.bumpBy g n).ddr = s.ddr := State.withRegs_ddr s _
@[simp] theorem State.bumpBy_poison (g : Fld) (n : Nat) : (s.bumpBy g n).poison = s.poison := State.withRegs_poison s _
@[simp] theorem State.bumpBy_pst (g : Fld) (n : Nat) : (s.bumpBy g n).pst = s.pst := State.withRegs_pst s _
@[simp] theorem State.bumpBy_hst (g : Fld) (n : Nat) : (s.bumpBy g n).hst = s.hst := State.withRegs_hst s _
@[simp] theorem State.bumpBy_phl (g : Fld) (n : Nat) : (s.bumpBy g n).phl = s.phl := State.withRegs_phl s _
@[simp] theorem State.bumpBy_dst (g : Fld) (n : Nat) : (s.bumpBy g n).dst = s.dst := State.withRegs_dst s _
@[simp] theorem State.bumpBy_pe (g : Fld) (n : Nat) : (s.bumpBy g n).pe = s.pe := State.withRegs_pe s _
@[simp] theorem State.bumpBy_mod (g : Fld) (n : Nat) : (s.bumpBy g n).mod = s.mod := State.withRegs_mod s _
@[simp] theorem State.bumpBy_seq (g : Fld) (n : Nat) : (s.bumpBy g n).seq = s.seq := State.withRegs_seq s _
@[simp] theorem State.bumpBy_contrail (g : Fld) (n : Nat) : (s.bumpBy g n).contrail = s.contrail := State.withRegs_contrail s _
@[simp] theorem State.bumpBy_nc (g : Fld) (n : Nat) : (s.bumpBy g n).nc = s.nc := State.withRegs_nc s _
@[simp] theorem State.bumpBy_tir (g : Fld) (n : Nat) : (s.bumpBy g n).tir = s.tir := State.withRegs_tir s _
@[simp] theorem State.bumpBy_cip (g : Fld) (n : Nat) : (s.bumpBy g n).cip = s.cip := State.withRegs_cip s _
@[simp] theorem State.bumpBy_fab (g : Fld) (n : Nat) : (s.bumpBy g n).fab = s.fab := State.withRegs_fab s _
@[simp] theorem State.bumpBy_mem (g : Fld) (n : Nat) : (s.bumpBy g n).mem = s.mem := State.withRegs_mem s _
@[simp] theorem State.bumpBy_cal (g : Fld) (n : Nat) : (s.bumpBy g n).cal = s.cal := State.withRegs_cal s _
@[simp] theorem State.bumpBy_cfl (g : Fld) (n : Nat) : (s.bumpBy g n).cfl = s.cfl := State.withRegs_cfl s _
@[simp] theorem State.bumpBy_lps (g : Fld) (n : Nat) : (s.bumpBy g n).lps = s.lps := State.withRegs_lps s _
@[simp] theorem State.bumpBy_dbg (g : Fld) (n : Nat) : (s.bumpBy g n).dbg = s.dbg := State.withRegs_dbg s _
@[simp] theorem State.bumpBy_svc (g : Fld) (n : Nat) : (s.bumpBy g n).svc = s.svc := State.withRegs_svc s _
@[simp] theorem State.bumpBy_eid (g : Fld) (n : Nat) : (s.bumpBy g n).eid = s.eid := State.withRegs_eid s _
@[simp] theorem State.bumpBy_jtagPins (g : Fld) (n : Nat) : (s.bumpBy g n).jtagPins = s.jtagPins := State.withRegs_jtagPins s _

/-! `State.bump` -/

@[simp] theorem State.bump_pending (g : Fld) : (s.bump g).pending = s.pending := State.bumpBy_pending s g 1
@[simp] theorem State.bump_time (g : Fld) : (s.bump g).time = s.time := State.bumpBy_time s g 1
@[simp] theorem State.bump_freeCtr (g : Fld) : (s.bump g).freeCtr = s.freeCtr := State.bumpBy_freeCtr s g 1
@[simp] theorem State.bump_boot (g : Fld) : (s.bump g).boot = s.boot := State.bumpBy_boot s g 1
@[simp] theorem State.bump_staged (g : Fld) : (s.bump g).staged = s.staged := State.bumpBy_staged s g 1
@[simp] theorem State.bump_marks (g : Fld) : (s.bump g).marks = s.marks := State.bumpBy_marks s g 1
@[simp] theorem State.bump_out (g : Fld) : (s.bump g).out = s.out := State.bumpBy_out s g 1
@[simp] theorem State.bump_isl (g : Fld) : (s.bump g).isl = s.isl := State.bumpBy_isl s g 1
@[simp] theorem State.bump_clocks (g : Fld) : (s.bump g).clocks = s.clocks := State.bumpBy_clocks s g 1
@[simp] theorem State.bump_xing (g : Fld) : (s.bump g).xing = s.xing := State.bumpBy_xing s g 1
@[simp] theorem State.bump_lost (g : Fld) : (s.bump g).lost = s.lost := State.bumpBy_lost s g 1
@[simp] theorem State.bump_early (g : Fld) : (s.bump g).early = s.early := State.bumpBy_early s g 1
@[simp] theorem State.bump_regions (g : Fld) : (s.bump g).regions = s.regions := State.bumpBy_regions s g 1
@[simp] theorem State.bump_tenants (g : Fld) : (s.bump g).tenants = s.tenants := State.bumpBy_tenants s g 1
@[simp] theorem State.bump_ddr (g : Fld) : (s.bump g).ddr = s.ddr := State.bumpBy_ddr s g 1
@[simp] theorem State.bump_poison (g : Fld) : (s.bump g).poison = s.poison := State.bumpBy_poison s g 1
@[simp] theorem State.bump_pst (g : Fld) : (s.bump g).pst = s.pst := State.bumpBy_pst s g 1
@[simp] theorem State.bump_hst (g : Fld) : (s.bump g).hst = s.hst := State.bumpBy_hst s g 1
@[simp] theorem State.bump_phl (g : Fld) : (s.bump g).phl = s.phl := State.bumpBy_phl s g 1
@[simp] theorem State.bump_dst (g : Fld) : (s.bump g).dst = s.dst := State.bumpBy_dst s g 1
@[simp] theorem State.bump_pe (g : Fld) : (s.bump g).pe = s.pe := State.bumpBy_pe s g 1
@[simp] theorem State.bump_mod (g : Fld) : (s.bump g).mod = s.mod := State.bumpBy_mod s g 1
@[simp] theorem State.bump_seq (g : Fld) : (s.bump g).seq = s.seq := State.bumpBy_seq s g 1
@[simp] theorem State.bump_contrail (g : Fld) : (s.bump g).contrail = s.contrail := State.bumpBy_contrail s g 1
@[simp] theorem State.bump_nc (g : Fld) : (s.bump g).nc = s.nc := State.bumpBy_nc s g 1
@[simp] theorem State.bump_tir (g : Fld) : (s.bump g).tir = s.tir := State.bumpBy_tir s g 1
@[simp] theorem State.bump_cip (g : Fld) : (s.bump g).cip = s.cip := State.bumpBy_cip s g 1
@[simp] theorem State.bump_fab (g : Fld) : (s.bump g).fab = s.fab := State.bumpBy_fab s g 1
@[simp] theorem State.bump_mem (g : Fld) : (s.bump g).mem = s.mem := State.bumpBy_mem s g 1
@[simp] theorem State.bump_cal (g : Fld) : (s.bump g).cal = s.cal := State.bumpBy_cal s g 1
@[simp] theorem State.bump_cfl (g : Fld) : (s.bump g).cfl = s.cfl := State.bumpBy_cfl s g 1
@[simp] theorem State.bump_lps (g : Fld) : (s.bump g).lps = s.lps := State.bumpBy_lps s g 1
@[simp] theorem State.bump_dbg (g : Fld) : (s.bump g).dbg = s.dbg := State.bumpBy_dbg s g 1
@[simp] theorem State.bump_svc (g : Fld) : (s.bump g).svc = s.svc := State.bumpBy_svc s g 1
@[simp] theorem State.bump_eid (g : Fld) : (s.bump g).eid = s.eid := State.bumpBy_eid s g 1
@[simp] theorem State.bump_jtagPins (g : Fld) : (s.bump g).jtagPins = s.jtagPins := State.bumpBy_jtagPins s g 1

/-! `State.flag` -/

@[simp] theorem State.flag_pending (g : Fld) : (s.flag g).pending = s.pending := State.setFld_pending s g 1
@[simp] theorem State.flag_time (g : Fld) : (s.flag g).time = s.time := State.setFld_time s g 1
@[simp] theorem State.flag_freeCtr (g : Fld) : (s.flag g).freeCtr = s.freeCtr := State.setFld_freeCtr s g 1
@[simp] theorem State.flag_boot (g : Fld) : (s.flag g).boot = s.boot := State.setFld_boot s g 1
@[simp] theorem State.flag_staged (g : Fld) : (s.flag g).staged = s.staged := State.setFld_staged s g 1
@[simp] theorem State.flag_marks (g : Fld) : (s.flag g).marks = s.marks := State.setFld_marks s g 1
@[simp] theorem State.flag_out (g : Fld) : (s.flag g).out = s.out := State.setFld_out s g 1
@[simp] theorem State.flag_isl (g : Fld) : (s.flag g).isl = s.isl := State.setFld_isl s g 1
@[simp] theorem State.flag_clocks (g : Fld) : (s.flag g).clocks = s.clocks := State.setFld_clocks s g 1
@[simp] theorem State.flag_xing (g : Fld) : (s.flag g).xing = s.xing := State.setFld_xing s g 1
@[simp] theorem State.flag_lost (g : Fld) : (s.flag g).lost = s.lost := State.setFld_lost s g 1
@[simp] theorem State.flag_early (g : Fld) : (s.flag g).early = s.early := State.setFld_early s g 1
@[simp] theorem State.flag_regions (g : Fld) : (s.flag g).regions = s.regions := State.setFld_regions s g 1
@[simp] theorem State.flag_tenants (g : Fld) : (s.flag g).tenants = s.tenants := State.setFld_tenants s g 1
@[simp] theorem State.flag_ddr (g : Fld) : (s.flag g).ddr = s.ddr := State.setFld_ddr s g 1
@[simp] theorem State.flag_poison (g : Fld) : (s.flag g).poison = s.poison := State.setFld_poison s g 1
@[simp] theorem State.flag_pst (g : Fld) : (s.flag g).pst = s.pst := State.setFld_pst s g 1
@[simp] theorem State.flag_hst (g : Fld) : (s.flag g).hst = s.hst := State.setFld_hst s g 1
@[simp] theorem State.flag_phl (g : Fld) : (s.flag g).phl = s.phl := State.setFld_phl s g 1
@[simp] theorem State.flag_dst (g : Fld) : (s.flag g).dst = s.dst := State.setFld_dst s g 1
@[simp] theorem State.flag_pe (g : Fld) : (s.flag g).pe = s.pe := State.setFld_pe s g 1
@[simp] theorem State.flag_mod (g : Fld) : (s.flag g).mod = s.mod := State.setFld_mod s g 1
@[simp] theorem State.flag_seq (g : Fld) : (s.flag g).seq = s.seq := State.setFld_seq s g 1
@[simp] theorem State.flag_contrail (g : Fld) : (s.flag g).contrail = s.contrail := State.setFld_contrail s g 1
@[simp] theorem State.flag_nc (g : Fld) : (s.flag g).nc = s.nc := State.setFld_nc s g 1
@[simp] theorem State.flag_tir (g : Fld) : (s.flag g).tir = s.tir := State.setFld_tir s g 1
@[simp] theorem State.flag_cip (g : Fld) : (s.flag g).cip = s.cip := State.setFld_cip s g 1
@[simp] theorem State.flag_fab (g : Fld) : (s.flag g).fab = s.fab := State.setFld_fab s g 1
@[simp] theorem State.flag_mem (g : Fld) : (s.flag g).mem = s.mem := State.setFld_mem s g 1
@[simp] theorem State.flag_cal (g : Fld) : (s.flag g).cal = s.cal := State.setFld_cal s g 1
@[simp] theorem State.flag_cfl (g : Fld) : (s.flag g).cfl = s.cfl := State.setFld_cfl s g 1
@[simp] theorem State.flag_lps (g : Fld) : (s.flag g).lps = s.lps := State.setFld_lps s g 1
@[simp] theorem State.flag_dbg (g : Fld) : (s.flag g).dbg = s.dbg := State.setFld_dbg s g 1
@[simp] theorem State.flag_svc (g : Fld) : (s.flag g).svc = s.svc := State.setFld_svc s g 1
@[simp] theorem State.flag_eid (g : Fld) : (s.flag g).eid = s.eid := State.setFld_eid s g 1
@[simp] theorem State.flag_jtagPins (g : Fld) : (s.flag g).jtagPins = s.jtagPins := State.setFld_jtagPins s g 1

/-! `State.countEvent` -/

@[simp] theorem State.countEvent_pending (c n : Nat) (ten un : Option Nat) : (s.countEvent c n ten un).pending = s.pending := State.withRegs_pending s _
@[simp] theorem State.countEvent_time (c n : Nat) (ten un : Option Nat) : (s.countEvent c n ten un).time = s.time := State.withRegs_time s _
@[simp] theorem State.countEvent_freeCtr (c n : Nat) (ten un : Option Nat) : (s.countEvent c n ten un).freeCtr = s.freeCtr := State.withRegs_freeCtr s _
@[simp] theorem State.countEvent_boot (c n : Nat) (ten un : Option Nat) : (s.countEvent c n ten un).boot = s.boot := State.withRegs_boot s _
@[simp] theorem State.countEvent_staged (c n : Nat) (ten un : Option Nat) : (s.countEvent c n ten un).staged = s.staged := State.withRegs_staged s _
@[simp] theorem State.countEvent_marks (c n : Nat) (ten un : Option Nat) : (s.countEvent c n ten un).marks = s.marks := State.withRegs_marks s _
@[simp] theorem State.countEvent_out (c n : Nat) (ten un : Option Nat) : (s.countEvent c n ten un).out = s.out := State.withRegs_out s _
@[simp] theorem State.countEvent_isl (c n : Nat) (ten un : Option Nat) : (s.countEvent c n ten un).isl = s.isl := State.withRegs_isl s _
@[simp] theorem State.countEvent_clocks (c n : Nat) (ten un : Option Nat) : (s.countEvent c n ten un).clocks = s.clocks := State.withRegs_clocks s _
@[simp] theorem State.countEvent_xing (c n : Nat) (ten un : Option Nat) : (s.countEvent c n ten un).xing = s.xing := State.withRegs_xing s _
@[simp] theorem State.countEvent_lost (c n : Nat) (ten un : Option Nat) : (s.countEvent c n ten un).lost = s.lost := State.withRegs_lost s _
@[simp] theorem State.countEvent_early (c n : Nat) (ten un : Option Nat) : (s.countEvent c n ten un).early = s.early := State.withRegs_early s _
@[simp] theorem State.countEvent_regions (c n : Nat) (ten un : Option Nat) : (s.countEvent c n ten un).regions = s.regions := State.withRegs_regions s _
@[simp] theorem State.countEvent_tenants (c n : Nat) (ten un : Option Nat) : (s.countEvent c n ten un).tenants = s.tenants := State.withRegs_tenants s _
@[simp] theorem State.countEvent_ddr (c n : Nat) (ten un : Option Nat) : (s.countEvent c n ten un).ddr = s.ddr := State.withRegs_ddr s _
@[simp] theorem State.countEvent_poison (c n : Nat) (ten un : Option Nat) : (s.countEvent c n ten un).poison = s.poison := State.withRegs_poison s _
@[simp] theorem State.countEvent_pst (c n : Nat) (ten un : Option Nat) : (s.countEvent c n ten un).pst = s.pst := State.withRegs_pst s _
@[simp] theorem State.countEvent_hst (c n : Nat) (ten un : Option Nat) : (s.countEvent c n ten un).hst = s.hst := State.withRegs_hst s _
@[simp] theorem State.countEvent_phl (c n : Nat) (ten un : Option Nat) : (s.countEvent c n ten un).phl = s.phl := State.withRegs_phl s _
@[simp] theorem State.countEvent_dst (c n : Nat) (ten un : Option Nat) : (s.countEvent c n ten un).dst = s.dst := State.withRegs_dst s _
@[simp] theorem State.countEvent_pe (c n : Nat) (ten un : Option Nat) : (s.countEvent c n ten un).pe = s.pe := State.withRegs_pe s _
@[simp] theorem State.countEvent_mod (c n : Nat) (ten un : Option Nat) : (s.countEvent c n ten un).mod = s.mod := State.withRegs_mod s _
@[simp] theorem State.countEvent_seq (c n : Nat) (ten un : Option Nat) : (s.countEvent c n ten un).seq = s.seq := State.withRegs_seq s _
@[simp] theorem State.countEvent_contrail (c n : Nat) (ten un : Option Nat) : (s.countEvent c n ten un).contrail = s.contrail := State.withRegs_contrail s _
@[simp] theorem State.countEvent_nc (c n : Nat) (ten un : Option Nat) : (s.countEvent c n ten un).nc = s.nc := State.withRegs_nc s _
@[simp] theorem State.countEvent_tir (c n : Nat) (ten un : Option Nat) : (s.countEvent c n ten un).tir = s.tir := State.withRegs_tir s _
@[simp] theorem State.countEvent_cip (c n : Nat) (ten un : Option Nat) : (s.countEvent c n ten un).cip = s.cip := State.withRegs_cip s _
@[simp] theorem State.countEvent_fab (c n : Nat) (ten un : Option Nat) : (s.countEvent c n ten un).fab = s.fab := State.withRegs_fab s _
@[simp] theorem State.countEvent_mem (c n : Nat) (ten un : Option Nat) : (s.countEvent c n ten un).mem = s.mem := State.withRegs_mem s _
@[simp] theorem State.countEvent_cal (c n : Nat) (ten un : Option Nat) : (s.countEvent c n ten un).cal = s.cal := State.withRegs_cal s _
@[simp] theorem State.countEvent_cfl (c n : Nat) (ten un : Option Nat) : (s.countEvent c n ten un).cfl = s.cfl := State.withRegs_cfl s _
@[simp] theorem State.countEvent_lps (c n : Nat) (ten un : Option Nat) : (s.countEvent c n ten un).lps = s.lps := State.withRegs_lps s _
@[simp] theorem State.countEvent_dbg (c n : Nat) (ten un : Option Nat) : (s.countEvent c n ten un).dbg = s.dbg := State.withRegs_dbg s _
@[simp] theorem State.countEvent_svc (c n : Nat) (ten un : Option Nat) : (s.countEvent c n ten un).svc = s.svc := State.withRegs_svc s _
@[simp] theorem State.countEvent_eid (c n : Nat) (ten un : Option Nat) : (s.countEvent c n ten un).eid = s.eid := State.withRegs_eid s _
@[simp] theorem State.countEvent_jtagPins (c n : Nat) (ten un : Option Nat) : (s.countEvent c n ten un).jtagPins = s.jtagPins := State.withRegs_jtagPins s _

/-! `State.setRun` -/

@[simp] theorem State.setRun_pending (i : Island) (r : Run) : (s.setRun i r).pending = s.pending := by rfl
@[simp] theorem State.setRun_time (i : Island) (r : Run) : (s.setRun i r).time = s.time := by rfl
@[simp] theorem State.setRun_freeCtr (i : Island) (r : Run) : (s.setRun i r).freeCtr = s.freeCtr := by rfl
@[simp] theorem State.setRun_boot (i : Island) (r : Run) : (s.setRun i r).boot = s.boot := by rfl
@[simp] theorem State.setRun_regs (i : Island) (r : Run) : (s.setRun i r).regs = s.regs := by rfl
@[simp] theorem State.setRun_staged (i : Island) (r : Run) : (s.setRun i r).staged = s.staged := by rfl
@[simp] theorem State.setRun_marks (i : Island) (r : Run) : (s.setRun i r).marks = s.marks := by rfl
@[simp] theorem State.setRun_out (i : Island) (r : Run) : (s.setRun i r).out = s.out := by rfl
@[simp] theorem State.setRun_isl (i : Island) (r : Run) : (s.setRun i r).isl = s.isl.set i.code r := by rfl
@[simp] theorem State.setRun_clocks (i : Island) (r : Run) : (s.setRun i r).clocks = s.clocks := by rfl
@[simp] theorem State.setRun_xing (i : Island) (r : Run) : (s.setRun i r).xing = s.xing := by rfl
@[simp] theorem State.setRun_lost (i : Island) (r : Run) : (s.setRun i r).lost = s.lost := by rfl
@[simp] theorem State.setRun_early (i : Island) (r : Run) : (s.setRun i r).early = s.early := by rfl
@[simp] theorem State.setRun_regions (i : Island) (r : Run) : (s.setRun i r).regions = s.regions := by rfl
@[simp] theorem State.setRun_tenants (i : Island) (r : Run) : (s.setRun i r).tenants = s.tenants := by rfl
@[simp] theorem State.setRun_ddr (i : Island) (r : Run) : (s.setRun i r).ddr = s.ddr := by rfl
@[simp] theorem State.setRun_poison (i : Island) (r : Run) : (s.setRun i r).poison = s.poison := by rfl
@[simp] theorem State.setRun_pst (i : Island) (r : Run) : (s.setRun i r).pst = s.pst := by rfl
@[simp] theorem State.setRun_hst (i : Island) (r : Run) : (s.setRun i r).hst = s.hst := by rfl
@[simp] theorem State.setRun_phl (i : Island) (r : Run) : (s.setRun i r).phl = s.phl := by rfl
@[simp] theorem State.setRun_dst (i : Island) (r : Run) : (s.setRun i r).dst = s.dst := by rfl
@[simp] theorem State.setRun_pe (i : Island) (r : Run) : (s.setRun i r).pe = s.pe := by rfl
@[simp] theorem State.setRun_mod (i : Island) (r : Run) : (s.setRun i r).mod = s.mod := by rfl
@[simp] theorem State.setRun_seq (i : Island) (r : Run) : (s.setRun i r).seq = s.seq := by rfl
@[simp] theorem State.setRun_contrail (i : Island) (r : Run) : (s.setRun i r).contrail = s.contrail := by rfl
@[simp] theorem State.setRun_nc (i : Island) (r : Run) : (s.setRun i r).nc = s.nc := by rfl
@[simp] theorem State.setRun_tir (i : Island) (r : Run) : (s.setRun i r).tir = s.tir := by rfl
@[simp] theorem State.setRun_cip (i : Island) (r : Run) : (s.setRun i r).cip = s.cip := by rfl
@[simp] theorem State.setRun_fab (i : Island) (r : Run) : (s.setRun i r).fab = s.fab := by rfl
@[simp] theorem State.setRun_mem (i : Island) (r : Run) : (s.setRun i r).mem = s.mem := by rfl
@[simp] theorem State.setRun_cal (i : Island) (r : Run) : (s.setRun i r).cal = s.cal := by rfl
@[simp] theorem State.setRun_cfl (i : Island) (r : Run) : (s.setRun i r).cfl = s.cfl := by rfl
@[simp] theorem State.setRun_lps (i : Island) (r : Run) : (s.setRun i r).lps = s.lps := by rfl
@[simp] theorem State.setRun_dbg (i : Island) (r : Run) : (s.setRun i r).dbg = s.dbg := by rfl
@[simp] theorem State.setRun_svc (i : Island) (r : Run) : (s.setRun i r).svc = s.svc := by rfl
@[simp] theorem State.setRun_eid (i : Island) (r : Run) : (s.setRun i r).eid = s.eid := by rfl
@[simp] theorem State.setRun_jtagPins (i : Island) (r : Run) : (s.setRun i r).jtagPins = s.jtagPins := by rfl

/-! `State.emit` -/

@[simp] theorem State.emit_pending (o : Out) : (s.emit o).pending = s.pending := by rfl
@[simp] theorem State.emit_time (o : Out) : (s.emit o).time = s.time := by rfl
@[simp] theorem State.emit_freeCtr (o : Out) : (s.emit o).freeCtr = s.freeCtr := by rfl
@[simp] theorem State.emit_boot (o : Out) : (s.emit o).boot = s.boot := by rfl
@[simp] theorem State.emit_regs (o : Out) : (s.emit o).regs = s.regs := by rfl
@[simp] theorem State.emit_staged (o : Out) : (s.emit o).staged = s.staged := by rfl
@[simp] theorem State.emit_marks (o : Out) : (s.emit o).marks = s.marks := by rfl
@[simp] theorem State.emit_out (o : Out) : (s.emit o).out = s.out ++ [o] := by rfl
@[simp] theorem State.emit_isl (o : Out) : (s.emit o).isl = s.isl := by rfl
@[simp] theorem State.emit_clocks (o : Out) : (s.emit o).clocks = s.clocks := by rfl
@[simp] theorem State.emit_xing (o : Out) : (s.emit o).xing = s.xing := by rfl
@[simp] theorem State.emit_lost (o : Out) : (s.emit o).lost = s.lost := by rfl
@[simp] theorem State.emit_early (o : Out) : (s.emit o).early = s.early := by rfl
@[simp] theorem State.emit_regions (o : Out) : (s.emit o).regions = s.regions := by rfl
@[simp] theorem State.emit_tenants (o : Out) : (s.emit o).tenants = s.tenants := by rfl
@[simp] theorem State.emit_ddr (o : Out) : (s.emit o).ddr = s.ddr := by rfl
@[simp] theorem State.emit_poison (o : Out) : (s.emit o).poison = s.poison := by rfl
@[simp] theorem State.emit_pst (o : Out) : (s.emit o).pst = s.pst := by rfl
@[simp] theorem State.emit_hst (o : Out) : (s.emit o).hst = s.hst := by rfl
@[simp] theorem State.emit_phl (o : Out) : (s.emit o).phl = s.phl := by rfl
@[simp] theorem State.emit_dst (o : Out) : (s.emit o).dst = s.dst := by rfl
@[simp] theorem State.emit_pe (o : Out) : (s.emit o).pe = s.pe := by rfl
@[simp] theorem State.emit_mod (o : Out) : (s.emit o).mod = s.mod := by rfl
@[simp] theorem State.emit_seq (o : Out) : (s.emit o).seq = s.seq := by rfl
@[simp] theorem State.emit_contrail (o : Out) : (s.emit o).contrail = s.contrail := by rfl
@[simp] theorem State.emit_nc (o : Out) : (s.emit o).nc = s.nc := by rfl
@[simp] theorem State.emit_tir (o : Out) : (s.emit o).tir = s.tir := by rfl
@[simp] theorem State.emit_cip (o : Out) : (s.emit o).cip = s.cip := by rfl
@[simp] theorem State.emit_fab (o : Out) : (s.emit o).fab = s.fab := by rfl
@[simp] theorem State.emit_mem (o : Out) : (s.emit o).mem = s.mem := by rfl
@[simp] theorem State.emit_cal (o : Out) : (s.emit o).cal = s.cal := by rfl
@[simp] theorem State.emit_cfl (o : Out) : (s.emit o).cfl = s.cfl := by rfl
@[simp] theorem State.emit_lps (o : Out) : (s.emit o).lps = s.lps := by rfl
@[simp] theorem State.emit_dbg (o : Out) : (s.emit o).dbg = s.dbg := by rfl
@[simp] theorem State.emit_svc (o : Out) : (s.emit o).svc = s.svc := by rfl
@[simp] theorem State.emit_eid (o : Out) : (s.emit o).eid = s.eid := by rfl
@[simp] theorem State.emit_jtagPins (o : Out) : (s.emit o).jtagPins = s.jtagPins := by rfl

/-! `State.drawFree` -/

@[simp] theorem State.drawFree_pending : s.drawFree.pending = s.pending := by rfl
@[simp] theorem State.drawFree_time : s.drawFree.time = s.time := by rfl
@[simp] theorem State.drawFree_freeCtr : s.drawFree.freeCtr = s.freeCtr + 1 := by rfl
@[simp] theorem State.drawFree_boot : s.drawFree.boot = s.boot := by rfl
@[simp] theorem State.drawFree_regs : s.drawFree.regs = s.regs := by rfl
@[simp] theorem State.drawFree_staged : s.drawFree.staged = s.staged := by rfl
@[simp] theorem State.drawFree_marks : s.drawFree.marks = s.marks := by rfl
@[simp] theorem State.drawFree_out : s.drawFree.out = s.out := by rfl
@[simp] theorem State.drawFree_isl : s.drawFree.isl = s.isl := by rfl
@[simp] theorem State.drawFree_clocks : s.drawFree.clocks = s.clocks := by rfl
@[simp] theorem State.drawFree_xing : s.drawFree.xing = s.xing := by rfl
@[simp] theorem State.drawFree_lost : s.drawFree.lost = s.lost := by rfl
@[simp] theorem State.drawFree_early : s.drawFree.early = s.early := by rfl
@[simp] theorem State.drawFree_regions : s.drawFree.regions = s.regions := by rfl
@[simp] theorem State.drawFree_tenants : s.drawFree.tenants = s.tenants := by rfl
@[simp] theorem State.drawFree_ddr : s.drawFree.ddr = s.ddr := by rfl
@[simp] theorem State.drawFree_poison : s.drawFree.poison = s.poison := by rfl
@[simp] theorem State.drawFree_pst : s.drawFree.pst = s.pst := by rfl
@[simp] theorem State.drawFree_hst : s.drawFree.hst = s.hst := by rfl
@[simp] theorem State.drawFree_phl : s.drawFree.phl = s.phl := by rfl
@[simp] theorem State.drawFree_dst : s.drawFree.dst = s.dst := by rfl
@[simp] theorem State.drawFree_pe : s.drawFree.pe = s.pe := by rfl
@[simp] theorem State.drawFree_mod : s.drawFree.mod = s.mod := by rfl
@[simp] theorem State.drawFree_seq : s.drawFree.seq = s.seq := by rfl
@[simp] theorem State.drawFree_contrail : s.drawFree.contrail = s.contrail := by rfl
@[simp] theorem State.drawFree_nc : s.drawFree.nc = s.nc := by rfl
@[simp] theorem State.drawFree_tir : s.drawFree.tir = s.tir := by rfl
@[simp] theorem State.drawFree_cip : s.drawFree.cip = s.cip := by rfl
@[simp] theorem State.drawFree_fab : s.drawFree.fab = s.fab := by rfl
@[simp] theorem State.drawFree_mem : s.drawFree.mem = s.mem := by rfl
@[simp] theorem State.drawFree_cal : s.drawFree.cal = s.cal := by rfl
@[simp] theorem State.drawFree_cfl : s.drawFree.cfl = s.cfl := by rfl
@[simp] theorem State.drawFree_lps : s.drawFree.lps = s.lps := by rfl
@[simp] theorem State.drawFree_dbg : s.drawFree.dbg = s.dbg := by rfl
@[simp] theorem State.drawFree_svc : s.drawFree.svc = s.svc := by rfl
@[simp] theorem State.drawFree_eid : s.drawFree.eid = s.eid := by rfl
@[simp] theorem State.drawFree_jtagPins : s.drawFree.jtagPins = s.jtagPins := by rfl

/-! `State.mark` -/

@[simp] theorem State.mark_pending (k : Nat) : (s.mark k).pending = s.pending := by rfl
@[simp] theorem State.mark_time (k : Nat) : (s.mark k).time = s.time := by rfl
@[simp] theorem State.mark_freeCtr (k : Nat) : (s.mark k).freeCtr = s.freeCtr := by rfl
@[simp] theorem State.mark_boot (k : Nat) : (s.mark k).boot = s.boot := by rfl
@[simp] theorem State.mark_regs (k : Nat) : (s.mark k).regs = s.regs := by rfl
@[simp] theorem State.mark_staged (k : Nat) : (s.mark k).staged = s.staged := by rfl
@[simp] theorem State.mark_out (k : Nat) : (s.mark k).out = s.out := by rfl
@[simp] theorem State.mark_isl (k : Nat) : (s.mark k).isl = s.isl := by rfl
@[simp] theorem State.mark_clocks (k : Nat) : (s.mark k).clocks = s.clocks := by rfl
@[simp] theorem State.mark_xing (k : Nat) : (s.mark k).xing = s.xing := by rfl
@[simp] theorem State.mark_lost (k : Nat) : (s.mark k).lost = s.lost := by rfl
@[simp] theorem State.mark_early (k : Nat) : (s.mark k).early = s.early := by rfl
@[simp] theorem State.mark_regions (k : Nat) : (s.mark k).regions = s.regions := by rfl
@[simp] theorem State.mark_tenants (k : Nat) : (s.mark k).tenants = s.tenants := by rfl
@[simp] theorem State.mark_ddr (k : Nat) : (s.mark k).ddr = s.ddr := by rfl
@[simp] theorem State.mark_poison (k : Nat) : (s.mark k).poison = s.poison := by rfl
@[simp] theorem State.mark_pst (k : Nat) : (s.mark k).pst = s.pst := by rfl
@[simp] theorem State.mark_hst (k : Nat) : (s.mark k).hst = s.hst := by rfl
@[simp] theorem State.mark_phl (k : Nat) : (s.mark k).phl = s.phl := by rfl
@[simp] theorem State.mark_dst (k : Nat) : (s.mark k).dst = s.dst := by rfl
@[simp] theorem State.mark_pe (k : Nat) : (s.mark k).pe = s.pe := by rfl
@[simp] theorem State.mark_mod (k : Nat) : (s.mark k).mod = s.mod := by rfl
@[simp] theorem State.mark_seq (k : Nat) : (s.mark k).seq = s.seq := by rfl
@[simp] theorem State.mark_contrail (k : Nat) : (s.mark k).contrail = s.contrail := by rfl
@[simp] theorem State.mark_nc (k : Nat) : (s.mark k).nc = s.nc := by rfl
@[simp] theorem State.mark_tir (k : Nat) : (s.mark k).tir = s.tir := by rfl
@[simp] theorem State.mark_cip (k : Nat) : (s.mark k).cip = s.cip := by rfl
@[simp] theorem State.mark_fab (k : Nat) : (s.mark k).fab = s.fab := by rfl
@[simp] theorem State.mark_mem (k : Nat) : (s.mark k).mem = s.mem := by rfl
@[simp] theorem State.mark_cal (k : Nat) : (s.mark k).cal = s.cal := by rfl
@[simp] theorem State.mark_cfl (k : Nat) : (s.mark k).cfl = s.cfl := by rfl
@[simp] theorem State.mark_lps (k : Nat) : (s.mark k).lps = s.lps := by rfl
@[simp] theorem State.mark_dbg (k : Nat) : (s.mark k).dbg = s.dbg := by rfl
@[simp] theorem State.mark_svc (k : Nat) : (s.mark k).svc = s.svc := by rfl
@[simp] theorem State.mark_eid (k : Nat) : (s.mark k).eid = s.eid := by rfl
@[simp] theorem State.mark_jtagPins (k : Nat) : (s.mark k).jtagPins = s.jtagPins := by rfl

/-! `State.pushRecord` -/

@[simp] theorem State.pushRecord_pending (i : Island) (r : Record) : (s.pushRecord i r).pending = s.pending := by rfl
@[simp] theorem State.pushRecord_time (i : Island) (r : Record) : (s.pushRecord i r).time = s.time := by rfl
@[simp] theorem State.pushRecord_freeCtr (i : Island) (r : Record) : (s.pushRecord i r).freeCtr = s.freeCtr := by rfl
@[simp] theorem State.pushRecord_boot (i : Island) (r : Record) : (s.pushRecord i r).boot = s.boot := by rfl
@[simp] theorem State.pushRecord_regs (i : Island) (r : Record) : (s.pushRecord i r).regs = s.regs := by rfl
@[simp] theorem State.pushRecord_staged (i : Island) (r : Record) : (s.pushRecord i r).staged = s.staged := by rfl
@[simp] theorem State.pushRecord_marks (i : Island) (r : Record) : (s.pushRecord i r).marks = s.marks := by rfl
@[simp] theorem State.pushRecord_out (i : Island) (r : Record) : (s.pushRecord i r).out = s.out := by rfl
@[simp] theorem State.pushRecord_isl (i : Island) (r : Record) : (s.pushRecord i r).isl = s.isl := by rfl
@[simp] theorem State.pushRecord_clocks (i : Island) (r : Record) : (s.pushRecord i r).clocks = s.clocks := by rfl
@[simp] theorem State.pushRecord_regions (i : Island) (r : Record) : (s.pushRecord i r).regions = s.regions := by rfl
@[simp] theorem State.pushRecord_tenants (i : Island) (r : Record) : (s.pushRecord i r).tenants = s.tenants := by rfl
@[simp] theorem State.pushRecord_ddr (i : Island) (r : Record) : (s.pushRecord i r).ddr = s.ddr := by rfl
@[simp] theorem State.pushRecord_poison (i : Island) (r : Record) : (s.pushRecord i r).poison = s.poison := by rfl
@[simp] theorem State.pushRecord_pst (i : Island) (r : Record) : (s.pushRecord i r).pst = s.pst := by rfl
@[simp] theorem State.pushRecord_hst (i : Island) (r : Record) : (s.pushRecord i r).hst = s.hst := by rfl
@[simp] theorem State.pushRecord_phl (i : Island) (r : Record) : (s.pushRecord i r).phl = s.phl := by rfl
@[simp] theorem State.pushRecord_dst (i : Island) (r : Record) : (s.pushRecord i r).dst = s.dst := by rfl
@[simp] theorem State.pushRecord_pe (i : Island) (r : Record) : (s.pushRecord i r).pe = s.pe := by rfl
@[simp] theorem State.pushRecord_mod (i : Island) (r : Record) : (s.pushRecord i r).mod = s.mod := by rfl
@[simp] theorem State.pushRecord_seq (i : Island) (r : Record) : (s.pushRecord i r).seq = s.seq := by rfl
@[simp] theorem State.pushRecord_contrail (i : Island) (r : Record) : (s.pushRecord i r).contrail = s.contrail := by rfl
@[simp] theorem State.pushRecord_nc (i : Island) (r : Record) : (s.pushRecord i r).nc = s.nc := by rfl
@[simp] theorem State.pushRecord_tir (i : Island) (r : Record) : (s.pushRecord i r).tir = s.tir := by rfl
@[simp] theorem State.pushRecord_cip (i : Island) (r : Record) : (s.pushRecord i r).cip = s.cip := by rfl
@[simp] theorem State.pushRecord_fab (i : Island) (r : Record) : (s.pushRecord i r).fab = s.fab := by rfl
@[simp] theorem State.pushRecord_mem (i : Island) (r : Record) : (s.pushRecord i r).mem = s.mem := by rfl
@[simp] theorem State.pushRecord_cal (i : Island) (r : Record) : (s.pushRecord i r).cal = s.cal := by rfl
@[simp] theorem State.pushRecord_cfl (i : Island) (r : Record) : (s.pushRecord i r).cfl = s.cfl := by rfl
@[simp] theorem State.pushRecord_lps (i : Island) (r : Record) : (s.pushRecord i r).lps = s.lps := by rfl
@[simp] theorem State.pushRecord_dbg (i : Island) (r : Record) : (s.pushRecord i r).dbg = s.dbg := by rfl
@[simp] theorem State.pushRecord_svc (i : Island) (r : Record) : (s.pushRecord i r).svc = s.svc := by rfl
@[simp] theorem State.pushRecord_eid (i : Island) (r : Record) : (s.pushRecord i r).eid = s.eid := by rfl
@[simp] theorem State.pushRecord_jtagPins (i : Island) (r : Record) : (s.pushRecord i r).jtagPins = s.jtagPins := by rfl

/-! `State.recordFull` -/

@[simp] theorem State.recordFull_pending (sev : Nat) (i : Island) (cat inst obj reg : Nat) (a b : Word) : (s.recordFull sev i cat inst obj reg a b).pending = s.pending := by unfold State.recordFull; split <;> rfl
@[simp] theorem State.recordFull_time (sev : Nat) (i : Island) (cat inst obj reg : Nat) (a b : Word) : (s.recordFull sev i cat inst obj reg a b).time = s.time := by unfold State.recordFull; split <;> rfl
@[simp] theorem State.recordFull_freeCtr (sev : Nat) (i : Island) (cat inst obj reg : Nat) (a b : Word) : (s.recordFull sev i cat inst obj reg a b).freeCtr = s.freeCtr := by unfold State.recordFull; split <;> rfl
@[simp] theorem State.recordFull_boot (sev : Nat) (i : Island) (cat inst obj reg : Nat) (a b : Word) : (s.recordFull sev i cat inst obj reg a b).boot = s.boot := by unfold State.recordFull; split <;> rfl
@[simp] theorem State.recordFull_regs (sev : Nat) (i : Island) (cat inst obj reg : Nat) (a b : Word) : (s.recordFull sev i cat inst obj reg a b).regs = s.regs := by unfold State.recordFull; split <;> rfl
@[simp] theorem State.recordFull_staged (sev : Nat) (i : Island) (cat inst obj reg : Nat) (a b : Word) : (s.recordFull sev i cat inst obj reg a b).staged = s.staged := by unfold State.recordFull; split <;> rfl
@[simp] theorem State.recordFull_marks (sev : Nat) (i : Island) (cat inst obj reg : Nat) (a b : Word) : (s.recordFull sev i cat inst obj reg a b).marks = s.marks := by unfold State.recordFull; split <;> rfl
@[simp] theorem State.recordFull_out (sev : Nat) (i : Island) (cat inst obj reg : Nat) (a b : Word) : (s.recordFull sev i cat inst obj reg a b).out = s.out := by unfold State.recordFull; split <;> rfl
@[simp] theorem State.recordFull_isl (sev : Nat) (i : Island) (cat inst obj reg : Nat) (a b : Word) : (s.recordFull sev i cat inst obj reg a b).isl = s.isl := by unfold State.recordFull; split <;> rfl
@[simp] theorem State.recordFull_clocks (sev : Nat) (i : Island) (cat inst obj reg : Nat) (a b : Word) : (s.recordFull sev i cat inst obj reg a b).clocks = s.clocks := by unfold State.recordFull; split <;> rfl
@[simp] theorem State.recordFull_regions (sev : Nat) (i : Island) (cat inst obj reg : Nat) (a b : Word) : (s.recordFull sev i cat inst obj reg a b).regions = s.regions := by unfold State.recordFull; split <;> rfl
@[simp] theorem State.recordFull_tenants (sev : Nat) (i : Island) (cat inst obj reg : Nat) (a b : Word) : (s.recordFull sev i cat inst obj reg a b).tenants = s.tenants := by unfold State.recordFull; split <;> rfl
@[simp] theorem State.recordFull_ddr (sev : Nat) (i : Island) (cat inst obj reg : Nat) (a b : Word) : (s.recordFull sev i cat inst obj reg a b).ddr = s.ddr := by unfold State.recordFull; split <;> rfl
@[simp] theorem State.recordFull_poison (sev : Nat) (i : Island) (cat inst obj reg : Nat) (a b : Word) : (s.recordFull sev i cat inst obj reg a b).poison = s.poison := by unfold State.recordFull; split <;> rfl
@[simp] theorem State.recordFull_pst (sev : Nat) (i : Island) (cat inst obj reg : Nat) (a b : Word) : (s.recordFull sev i cat inst obj reg a b).pst = s.pst := by unfold State.recordFull; split <;> rfl
@[simp] theorem State.recordFull_hst (sev : Nat) (i : Island) (cat inst obj reg : Nat) (a b : Word) : (s.recordFull sev i cat inst obj reg a b).hst = s.hst := by unfold State.recordFull; split <;> rfl
@[simp] theorem State.recordFull_phl (sev : Nat) (i : Island) (cat inst obj reg : Nat) (a b : Word) : (s.recordFull sev i cat inst obj reg a b).phl = s.phl := by unfold State.recordFull; split <;> rfl
@[simp] theorem State.recordFull_dst (sev : Nat) (i : Island) (cat inst obj reg : Nat) (a b : Word) : (s.recordFull sev i cat inst obj reg a b).dst = s.dst := by unfold State.recordFull; split <;> rfl
@[simp] theorem State.recordFull_pe (sev : Nat) (i : Island) (cat inst obj reg : Nat) (a b : Word) : (s.recordFull sev i cat inst obj reg a b).pe = s.pe := by unfold State.recordFull; split <;> rfl
@[simp] theorem State.recordFull_mod (sev : Nat) (i : Island) (cat inst obj reg : Nat) (a b : Word) : (s.recordFull sev i cat inst obj reg a b).mod = s.mod := by unfold State.recordFull; split <;> rfl
@[simp] theorem State.recordFull_seq (sev : Nat) (i : Island) (cat inst obj reg : Nat) (a b : Word) : (s.recordFull sev i cat inst obj reg a b).seq = s.seq := by unfold State.recordFull; split <;> rfl
@[simp] theorem State.recordFull_contrail (sev : Nat) (i : Island) (cat inst obj reg : Nat) (a b : Word) : (s.recordFull sev i cat inst obj reg a b).contrail = s.contrail := by unfold State.recordFull; split <;> rfl
@[simp] theorem State.recordFull_nc (sev : Nat) (i : Island) (cat inst obj reg : Nat) (a b : Word) : (s.recordFull sev i cat inst obj reg a b).nc = s.nc := by unfold State.recordFull; split <;> rfl
@[simp] theorem State.recordFull_tir (sev : Nat) (i : Island) (cat inst obj reg : Nat) (a b : Word) : (s.recordFull sev i cat inst obj reg a b).tir = s.tir := by unfold State.recordFull; split <;> rfl
@[simp] theorem State.recordFull_cip (sev : Nat) (i : Island) (cat inst obj reg : Nat) (a b : Word) : (s.recordFull sev i cat inst obj reg a b).cip = s.cip := by unfold State.recordFull; split <;> rfl
@[simp] theorem State.recordFull_fab (sev : Nat) (i : Island) (cat inst obj reg : Nat) (a b : Word) : (s.recordFull sev i cat inst obj reg a b).fab = s.fab := by unfold State.recordFull; split <;> rfl
@[simp] theorem State.recordFull_mem (sev : Nat) (i : Island) (cat inst obj reg : Nat) (a b : Word) : (s.recordFull sev i cat inst obj reg a b).mem = s.mem := by unfold State.recordFull; split <;> rfl
@[simp] theorem State.recordFull_cal (sev : Nat) (i : Island) (cat inst obj reg : Nat) (a b : Word) : (s.recordFull sev i cat inst obj reg a b).cal = s.cal := by unfold State.recordFull; split <;> rfl
@[simp] theorem State.recordFull_cfl (sev : Nat) (i : Island) (cat inst obj reg : Nat) (a b : Word) : (s.recordFull sev i cat inst obj reg a b).cfl = s.cfl := by unfold State.recordFull; split <;> rfl
@[simp] theorem State.recordFull_lps (sev : Nat) (i : Island) (cat inst obj reg : Nat) (a b : Word) : (s.recordFull sev i cat inst obj reg a b).lps = s.lps := by unfold State.recordFull; split <;> rfl
@[simp] theorem State.recordFull_dbg (sev : Nat) (i : Island) (cat inst obj reg : Nat) (a b : Word) : (s.recordFull sev i cat inst obj reg a b).dbg = s.dbg := by unfold State.recordFull; split <;> rfl
@[simp] theorem State.recordFull_svc (sev : Nat) (i : Island) (cat inst obj reg : Nat) (a b : Word) : (s.recordFull sev i cat inst obj reg a b).svc = s.svc := by unfold State.recordFull; split <;> rfl
@[simp] theorem State.recordFull_eid (sev : Nat) (i : Island) (cat inst obj reg : Nat) (a b : Word) : (s.recordFull sev i cat inst obj reg a b).eid = s.eid := by unfold State.recordFull; split <;> rfl
@[simp] theorem State.recordFull_jtagPins (sev : Nat) (i : Island) (cat inst obj reg : Nat) (a b : Word) : (s.recordFull sev i cat inst obj reg a b).jtagPins = s.jtagPins := by unfold State.recordFull; split <;> rfl

/-! `State.record` -/

@[simp] theorem State.record_pending (sev : Nat) (i : Island) (cat inst obj reg : Nat) : (s.record sev i cat inst obj reg).pending = s.pending := by simp [State.record]
@[simp] theorem State.record_time (sev : Nat) (i : Island) (cat inst obj reg : Nat) : (s.record sev i cat inst obj reg).time = s.time := by simp [State.record]
@[simp] theorem State.record_freeCtr (sev : Nat) (i : Island) (cat inst obj reg : Nat) : (s.record sev i cat inst obj reg).freeCtr = s.freeCtr := by simp [State.record]
@[simp] theorem State.record_boot (sev : Nat) (i : Island) (cat inst obj reg : Nat) : (s.record sev i cat inst obj reg).boot = s.boot := by simp [State.record]
@[simp] theorem State.record_regs (sev : Nat) (i : Island) (cat inst obj reg : Nat) : (s.record sev i cat inst obj reg).regs = s.regs := by simp [State.record]
@[simp] theorem State.record_staged (sev : Nat) (i : Island) (cat inst obj reg : Nat) : (s.record sev i cat inst obj reg).staged = s.staged := by simp [State.record]
@[simp] theorem State.record_marks (sev : Nat) (i : Island) (cat inst obj reg : Nat) : (s.record sev i cat inst obj reg).marks = s.marks := by simp [State.record]
@[simp] theorem State.record_out (sev : Nat) (i : Island) (cat inst obj reg : Nat) : (s.record sev i cat inst obj reg).out = s.out := by simp [State.record]
@[simp] theorem State.record_isl (sev : Nat) (i : Island) (cat inst obj reg : Nat) : (s.record sev i cat inst obj reg).isl = s.isl := by simp [State.record]
@[simp] theorem State.record_clocks (sev : Nat) (i : Island) (cat inst obj reg : Nat) : (s.record sev i cat inst obj reg).clocks = s.clocks := by simp [State.record]
@[simp] theorem State.record_regions (sev : Nat) (i : Island) (cat inst obj reg : Nat) : (s.record sev i cat inst obj reg).regions = s.regions := by simp [State.record]
@[simp] theorem State.record_tenants (sev : Nat) (i : Island) (cat inst obj reg : Nat) : (s.record sev i cat inst obj reg).tenants = s.tenants := by simp [State.record]
@[simp] theorem State.record_ddr (sev : Nat) (i : Island) (cat inst obj reg : Nat) : (s.record sev i cat inst obj reg).ddr = s.ddr := by simp [State.record]
@[simp] theorem State.record_poison (sev : Nat) (i : Island) (cat inst obj reg : Nat) : (s.record sev i cat inst obj reg).poison = s.poison := by simp [State.record]
@[simp] theorem State.record_pst (sev : Nat) (i : Island) (cat inst obj reg : Nat) : (s.record sev i cat inst obj reg).pst = s.pst := by simp [State.record]
@[simp] theorem State.record_hst (sev : Nat) (i : Island) (cat inst obj reg : Nat) : (s.record sev i cat inst obj reg).hst = s.hst := by simp [State.record]
@[simp] theorem State.record_phl (sev : Nat) (i : Island) (cat inst obj reg : Nat) : (s.record sev i cat inst obj reg).phl = s.phl := by simp [State.record]
@[simp] theorem State.record_dst (sev : Nat) (i : Island) (cat inst obj reg : Nat) : (s.record sev i cat inst obj reg).dst = s.dst := by simp [State.record]
@[simp] theorem State.record_pe (sev : Nat) (i : Island) (cat inst obj reg : Nat) : (s.record sev i cat inst obj reg).pe = s.pe := by simp [State.record]
@[simp] theorem State.record_mod (sev : Nat) (i : Island) (cat inst obj reg : Nat) : (s.record sev i cat inst obj reg).mod = s.mod := by simp [State.record]
@[simp] theorem State.record_seq (sev : Nat) (i : Island) (cat inst obj reg : Nat) : (s.record sev i cat inst obj reg).seq = s.seq := by simp [State.record]
@[simp] theorem State.record_contrail (sev : Nat) (i : Island) (cat inst obj reg : Nat) : (s.record sev i cat inst obj reg).contrail = s.contrail := by simp [State.record]
@[simp] theorem State.record_nc (sev : Nat) (i : Island) (cat inst obj reg : Nat) : (s.record sev i cat inst obj reg).nc = s.nc := by simp [State.record]
@[simp] theorem State.record_tir (sev : Nat) (i : Island) (cat inst obj reg : Nat) : (s.record sev i cat inst obj reg).tir = s.tir := by simp [State.record]
@[simp] theorem State.record_cip (sev : Nat) (i : Island) (cat inst obj reg : Nat) : (s.record sev i cat inst obj reg).cip = s.cip := by simp [State.record]
@[simp] theorem State.record_fab (sev : Nat) (i : Island) (cat inst obj reg : Nat) : (s.record sev i cat inst obj reg).fab = s.fab := by simp [State.record]
@[simp] theorem State.record_mem (sev : Nat) (i : Island) (cat inst obj reg : Nat) : (s.record sev i cat inst obj reg).mem = s.mem := by simp [State.record]
@[simp] theorem State.record_cal (sev : Nat) (i : Island) (cat inst obj reg : Nat) : (s.record sev i cat inst obj reg).cal = s.cal := by simp [State.record]
@[simp] theorem State.record_cfl (sev : Nat) (i : Island) (cat inst obj reg : Nat) : (s.record sev i cat inst obj reg).cfl = s.cfl := by simp [State.record]
@[simp] theorem State.record_lps (sev : Nat) (i : Island) (cat inst obj reg : Nat) : (s.record sev i cat inst obj reg).lps = s.lps := by simp [State.record]
@[simp] theorem State.record_dbg (sev : Nat) (i : Island) (cat inst obj reg : Nat) : (s.record sev i cat inst obj reg).dbg = s.dbg := by simp [State.record]
@[simp] theorem State.record_svc (sev : Nat) (i : Island) (cat inst obj reg : Nat) : (s.record sev i cat inst obj reg).svc = s.svc := by simp [State.record]
@[simp] theorem State.record_eid (sev : Nat) (i : Island) (cat inst obj reg : Nat) : (s.record sev i cat inst obj reg).eid = s.eid := by simp [State.record]
@[simp] theorem State.record_jtagPins (sev : Nat) (i : Island) (cat inst obj reg : Nat) : (s.record sev i cat inst obj reg).jtagPins = s.jtagPins := by simp [State.record]

/-! `State.recState` -/

@[simp] theorem State.recState_pending (sev : Nat) (i : Island) (g : Fld) : (s.recState sev i g).pending = s.pending := by simp [State.recState]
@[simp] theorem State.recState_time (sev : Nat) (i : Island) (g : Fld) : (s.recState sev i g).time = s.time := by simp [State.recState]
@[simp] theorem State.recState_freeCtr (sev : Nat) (i : Island) (g : Fld) : (s.recState sev i g).freeCtr = s.freeCtr := by simp [State.recState]
@[simp] theorem State.recState_boot (sev : Nat) (i : Island) (g : Fld) : (s.recState sev i g).boot = s.boot := by simp [State.recState]
@[simp] theorem State.recState_regs (sev : Nat) (i : Island) (g : Fld) : (s.recState sev i g).regs = s.regs := by simp [State.recState]
@[simp] theorem State.recState_staged (sev : Nat) (i : Island) (g : Fld) : (s.recState sev i g).staged = s.staged := by simp [State.recState]
@[simp] theorem State.recState_marks (sev : Nat) (i : Island) (g : Fld) : (s.recState sev i g).marks = s.marks := by simp [State.recState]
@[simp] theorem State.recState_out (sev : Nat) (i : Island) (g : Fld) : (s.recState sev i g).out = s.out := by simp [State.recState]
@[simp] theorem State.recState_isl (sev : Nat) (i : Island) (g : Fld) : (s.recState sev i g).isl = s.isl := by simp [State.recState]
@[simp] theorem State.recState_clocks (sev : Nat) (i : Island) (g : Fld) : (s.recState sev i g).clocks = s.clocks := by simp [State.recState]
@[simp] theorem State.recState_regions (sev : Nat) (i : Island) (g : Fld) : (s.recState sev i g).regions = s.regions := by simp [State.recState]
@[simp] theorem State.recState_tenants (sev : Nat) (i : Island) (g : Fld) : (s.recState sev i g).tenants = s.tenants := by simp [State.recState]
@[simp] theorem State.recState_ddr (sev : Nat) (i : Island) (g : Fld) : (s.recState sev i g).ddr = s.ddr := by simp [State.recState]
@[simp] theorem State.recState_poison (sev : Nat) (i : Island) (g : Fld) : (s.recState sev i g).poison = s.poison := by simp [State.recState]
@[simp] theorem State.recState_pst (sev : Nat) (i : Island) (g : Fld) : (s.recState sev i g).pst = s.pst := by simp [State.recState]
@[simp] theorem State.recState_hst (sev : Nat) (i : Island) (g : Fld) : (s.recState sev i g).hst = s.hst := by simp [State.recState]
@[simp] theorem State.recState_phl (sev : Nat) (i : Island) (g : Fld) : (s.recState sev i g).phl = s.phl := by simp [State.recState]
@[simp] theorem State.recState_dst (sev : Nat) (i : Island) (g : Fld) : (s.recState sev i g).dst = s.dst := by simp [State.recState]
@[simp] theorem State.recState_pe (sev : Nat) (i : Island) (g : Fld) : (s.recState sev i g).pe = s.pe := by simp [State.recState]
@[simp] theorem State.recState_mod (sev : Nat) (i : Island) (g : Fld) : (s.recState sev i g).mod = s.mod := by simp [State.recState]
@[simp] theorem State.recState_seq (sev : Nat) (i : Island) (g : Fld) : (s.recState sev i g).seq = s.seq := by simp [State.recState]
@[simp] theorem State.recState_contrail (sev : Nat) (i : Island) (g : Fld) : (s.recState sev i g).contrail = s.contrail := by simp [State.recState]
@[simp] theorem State.recState_nc (sev : Nat) (i : Island) (g : Fld) : (s.recState sev i g).nc = s.nc := by simp [State.recState]
@[simp] theorem State.recState_tir (sev : Nat) (i : Island) (g : Fld) : (s.recState sev i g).tir = s.tir := by simp [State.recState]
@[simp] theorem State.recState_cip (sev : Nat) (i : Island) (g : Fld) : (s.recState sev i g).cip = s.cip := by simp [State.recState]
@[simp] theorem State.recState_fab (sev : Nat) (i : Island) (g : Fld) : (s.recState sev i g).fab = s.fab := by simp [State.recState]
@[simp] theorem State.recState_mem (sev : Nat) (i : Island) (g : Fld) : (s.recState sev i g).mem = s.mem := by simp [State.recState]
@[simp] theorem State.recState_cal (sev : Nat) (i : Island) (g : Fld) : (s.recState sev i g).cal = s.cal := by simp [State.recState]
@[simp] theorem State.recState_cfl (sev : Nat) (i : Island) (g : Fld) : (s.recState sev i g).cfl = s.cfl := by simp [State.recState]
@[simp] theorem State.recState_lps (sev : Nat) (i : Island) (g : Fld) : (s.recState sev i g).lps = s.lps := by simp [State.recState]
@[simp] theorem State.recState_dbg (sev : Nat) (i : Island) (g : Fld) : (s.recState sev i g).dbg = s.dbg := by simp [State.recState]
@[simp] theorem State.recState_svc (sev : Nat) (i : Island) (g : Fld) : (s.recState sev i g).svc = s.svc := by simp [State.recState]
@[simp] theorem State.recState_eid (sev : Nat) (i : Island) (g : Fld) : (s.recState sev i g).eid = s.eid := by simp [State.recState]
@[simp] theorem State.recState_jtagPins (sev : Nat) (i : Island) (g : Fld) : (s.recState sev i g).jtagPins = s.jtagPins := by simp [State.recState]

/-! `State.recFlag` -/

@[simp] theorem State.recFlag_pending (sev : Nat) (i : Island) (g : Fld) (obj : Nat) : (s.recFlag sev i g obj).pending = s.pending := by simp [State.recFlag]
@[simp] theorem State.recFlag_time (sev : Nat) (i : Island) (g : Fld) (obj : Nat) : (s.recFlag sev i g obj).time = s.time := by simp [State.recFlag]
@[simp] theorem State.recFlag_freeCtr (sev : Nat) (i : Island) (g : Fld) (obj : Nat) : (s.recFlag sev i g obj).freeCtr = s.freeCtr := by simp [State.recFlag]
@[simp] theorem State.recFlag_boot (sev : Nat) (i : Island) (g : Fld) (obj : Nat) : (s.recFlag sev i g obj).boot = s.boot := by simp [State.recFlag]
@[simp] theorem State.recFlag_staged (sev : Nat) (i : Island) (g : Fld) (obj : Nat) : (s.recFlag sev i g obj).staged = s.staged := by simp [State.recFlag]
@[simp] theorem State.recFlag_marks (sev : Nat) (i : Island) (g : Fld) (obj : Nat) : (s.recFlag sev i g obj).marks = s.marks := by simp [State.recFlag]
@[simp] theorem State.recFlag_out (sev : Nat) (i : Island) (g : Fld) (obj : Nat) : (s.recFlag sev i g obj).out = s.out := by simp [State.recFlag]
@[simp] theorem State.recFlag_isl (sev : Nat) (i : Island) (g : Fld) (obj : Nat) : (s.recFlag sev i g obj).isl = s.isl := by simp [State.recFlag]
@[simp] theorem State.recFlag_clocks (sev : Nat) (i : Island) (g : Fld) (obj : Nat) : (s.recFlag sev i g obj).clocks = s.clocks := by simp [State.recFlag]
@[simp] theorem State.recFlag_regions (sev : Nat) (i : Island) (g : Fld) (obj : Nat) : (s.recFlag sev i g obj).regions = s.regions := by simp [State.recFlag]
@[simp] theorem State.recFlag_tenants (sev : Nat) (i : Island) (g : Fld) (obj : Nat) : (s.recFlag sev i g obj).tenants = s.tenants := by simp [State.recFlag]
@[simp] theorem State.recFlag_ddr (sev : Nat) (i : Island) (g : Fld) (obj : Nat) : (s.recFlag sev i g obj).ddr = s.ddr := by simp [State.recFlag]
@[simp] theorem State.recFlag_poison (sev : Nat) (i : Island) (g : Fld) (obj : Nat) : (s.recFlag sev i g obj).poison = s.poison := by simp [State.recFlag]
@[simp] theorem State.recFlag_pst (sev : Nat) (i : Island) (g : Fld) (obj : Nat) : (s.recFlag sev i g obj).pst = s.pst := by simp [State.recFlag]
@[simp] theorem State.recFlag_hst (sev : Nat) (i : Island) (g : Fld) (obj : Nat) : (s.recFlag sev i g obj).hst = s.hst := by simp [State.recFlag]
@[simp] theorem State.recFlag_phl (sev : Nat) (i : Island) (g : Fld) (obj : Nat) : (s.recFlag sev i g obj).phl = s.phl := by simp [State.recFlag]
@[simp] theorem State.recFlag_dst (sev : Nat) (i : Island) (g : Fld) (obj : Nat) : (s.recFlag sev i g obj).dst = s.dst := by simp [State.recFlag]
@[simp] theorem State.recFlag_pe (sev : Nat) (i : Island) (g : Fld) (obj : Nat) : (s.recFlag sev i g obj).pe = s.pe := by simp [State.recFlag]
@[simp] theorem State.recFlag_mod (sev : Nat) (i : Island) (g : Fld) (obj : Nat) : (s.recFlag sev i g obj).mod = s.mod := by simp [State.recFlag]
@[simp] theorem State.recFlag_seq (sev : Nat) (i : Island) (g : Fld) (obj : Nat) : (s.recFlag sev i g obj).seq = s.seq := by simp [State.recFlag]
@[simp] theorem State.recFlag_contrail (sev : Nat) (i : Island) (g : Fld) (obj : Nat) : (s.recFlag sev i g obj).contrail = s.contrail := by simp [State.recFlag]
@[simp] theorem State.recFlag_nc (sev : Nat) (i : Island) (g : Fld) (obj : Nat) : (s.recFlag sev i g obj).nc = s.nc := by simp [State.recFlag]
@[simp] theorem State.recFlag_tir (sev : Nat) (i : Island) (g : Fld) (obj : Nat) : (s.recFlag sev i g obj).tir = s.tir := by simp [State.recFlag]
@[simp] theorem State.recFlag_cip (sev : Nat) (i : Island) (g : Fld) (obj : Nat) : (s.recFlag sev i g obj).cip = s.cip := by simp [State.recFlag]
@[simp] theorem State.recFlag_fab (sev : Nat) (i : Island) (g : Fld) (obj : Nat) : (s.recFlag sev i g obj).fab = s.fab := by simp [State.recFlag]
@[simp] theorem State.recFlag_mem (sev : Nat) (i : Island) (g : Fld) (obj : Nat) : (s.recFlag sev i g obj).mem = s.mem := by simp [State.recFlag]
@[simp] theorem State.recFlag_cal (sev : Nat) (i : Island) (g : Fld) (obj : Nat) : (s.recFlag sev i g obj).cal = s.cal := by simp [State.recFlag]
@[simp] theorem State.recFlag_cfl (sev : Nat) (i : Island) (g : Fld) (obj : Nat) : (s.recFlag sev i g obj).cfl = s.cfl := by simp [State.recFlag]
@[simp] theorem State.recFlag_lps (sev : Nat) (i : Island) (g : Fld) (obj : Nat) : (s.recFlag sev i g obj).lps = s.lps := by simp [State.recFlag]
@[simp] theorem State.recFlag_dbg (sev : Nat) (i : Island) (g : Fld) (obj : Nat) : (s.recFlag sev i g obj).dbg = s.dbg := by simp [State.recFlag]
@[simp] theorem State.recFlag_svc (sev : Nat) (i : Island) (g : Fld) (obj : Nat) : (s.recFlag sev i g obj).svc = s.svc := by simp [State.recFlag]
@[simp] theorem State.recFlag_eid (sev : Nat) (i : Island) (g : Fld) (obj : Nat) : (s.recFlag sev i g obj).eid = s.eid := by simp [State.recFlag]
@[simp] theorem State.recFlag_jtagPins (sev : Nat) (i : Island) (g : Fld) (obj : Nat) : (s.recFlag sev i g obj).jtagPins = s.jtagPins := by simp [State.recFlag]

/-! `State.noticeOnce` -/

@[simp] theorem State.noticeOnce_pending (k : Nat) (i : Island) (g : Fld) (obj : Nat) (a : Word) : (s.noticeOnce k i g obj a).pending = s.pending := by unfold State.noticeOnce; split <;> simp
@[simp] theorem State.noticeOnce_time (k : Nat) (i : Island) (g : Fld) (obj : Nat) (a : Word) : (s.noticeOnce k i g obj a).time = s.time := by unfold State.noticeOnce; split <;> simp
@[simp] theorem State.noticeOnce_freeCtr (k : Nat) (i : Island) (g : Fld) (obj : Nat) (a : Word) : (s.noticeOnce k i g obj a).freeCtr = s.freeCtr := by unfold State.noticeOnce; split <;> simp
@[simp] theorem State.noticeOnce_boot (k : Nat) (i : Island) (g : Fld) (obj : Nat) (a : Word) : (s.noticeOnce k i g obj a).boot = s.boot := by unfold State.noticeOnce; split <;> simp
@[simp] theorem State.noticeOnce_regs (k : Nat) (i : Island) (g : Fld) (obj : Nat) (a : Word) : (s.noticeOnce k i g obj a).regs = s.regs := by unfold State.noticeOnce; split <;> simp
@[simp] theorem State.noticeOnce_staged (k : Nat) (i : Island) (g : Fld) (obj : Nat) (a : Word) : (s.noticeOnce k i g obj a).staged = s.staged := by unfold State.noticeOnce; split <;> simp
@[simp] theorem State.noticeOnce_out (k : Nat) (i : Island) (g : Fld) (obj : Nat) (a : Word) : (s.noticeOnce k i g obj a).out = s.out := by unfold State.noticeOnce; split <;> simp
@[simp] theorem State.noticeOnce_isl (k : Nat) (i : Island) (g : Fld) (obj : Nat) (a : Word) : (s.noticeOnce k i g obj a).isl = s.isl := by unfold State.noticeOnce; split <;> simp
@[simp] theorem State.noticeOnce_clocks (k : Nat) (i : Island) (g : Fld) (obj : Nat) (a : Word) : (s.noticeOnce k i g obj a).clocks = s.clocks := by unfold State.noticeOnce; split <;> simp
@[simp] theorem State.noticeOnce_regions (k : Nat) (i : Island) (g : Fld) (obj : Nat) (a : Word) : (s.noticeOnce k i g obj a).regions = s.regions := by unfold State.noticeOnce; split <;> simp
@[simp] theorem State.noticeOnce_tenants (k : Nat) (i : Island) (g : Fld) (obj : Nat) (a : Word) : (s.noticeOnce k i g obj a).tenants = s.tenants := by unfold State.noticeOnce; split <;> simp
@[simp] theorem State.noticeOnce_ddr (k : Nat) (i : Island) (g : Fld) (obj : Nat) (a : Word) : (s.noticeOnce k i g obj a).ddr = s.ddr := by unfold State.noticeOnce; split <;> simp
@[simp] theorem State.noticeOnce_poison (k : Nat) (i : Island) (g : Fld) (obj : Nat) (a : Word) : (s.noticeOnce k i g obj a).poison = s.poison := by unfold State.noticeOnce; split <;> simp
@[simp] theorem State.noticeOnce_pst (k : Nat) (i : Island) (g : Fld) (obj : Nat) (a : Word) : (s.noticeOnce k i g obj a).pst = s.pst := by unfold State.noticeOnce; split <;> simp
@[simp] theorem State.noticeOnce_hst (k : Nat) (i : Island) (g : Fld) (obj : Nat) (a : Word) : (s.noticeOnce k i g obj a).hst = s.hst := by unfold State.noticeOnce; split <;> simp
@[simp] theorem State.noticeOnce_phl (k : Nat) (i : Island) (g : Fld) (obj : Nat) (a : Word) : (s.noticeOnce k i g obj a).phl = s.phl := by unfold State.noticeOnce; split <;> simp
@[simp] theorem State.noticeOnce_dst (k : Nat) (i : Island) (g : Fld) (obj : Nat) (a : Word) : (s.noticeOnce k i g obj a).dst = s.dst := by unfold State.noticeOnce; split <;> simp
@[simp] theorem State.noticeOnce_pe (k : Nat) (i : Island) (g : Fld) (obj : Nat) (a : Word) : (s.noticeOnce k i g obj a).pe = s.pe := by unfold State.noticeOnce; split <;> simp
@[simp] theorem State.noticeOnce_mod (k : Nat) (i : Island) (g : Fld) (obj : Nat) (a : Word) : (s.noticeOnce k i g obj a).mod = s.mod := by unfold State.noticeOnce; split <;> simp
@[simp] theorem State.noticeOnce_seq (k : Nat) (i : Island) (g : Fld) (obj : Nat) (a : Word) : (s.noticeOnce k i g obj a).seq = s.seq := by unfold State.noticeOnce; split <;> simp
@[simp] theorem State.noticeOnce_contrail (k : Nat) (i : Island) (g : Fld) (obj : Nat) (a : Word) : (s.noticeOnce k i g obj a).contrail = s.contrail := by unfold State.noticeOnce; split <;> simp
@[simp] theorem State.noticeOnce_nc (k : Nat) (i : Island) (g : Fld) (obj : Nat) (a : Word) : (s.noticeOnce k i g obj a).nc = s.nc := by unfold State.noticeOnce; split <;> simp
@[simp] theorem State.noticeOnce_tir (k : Nat) (i : Island) (g : Fld) (obj : Nat) (a : Word) : (s.noticeOnce k i g obj a).tir = s.tir := by unfold State.noticeOnce; split <;> simp
@[simp] theorem State.noticeOnce_cip (k : Nat) (i : Island) (g : Fld) (obj : Nat) (a : Word) : (s.noticeOnce k i g obj a).cip = s.cip := by unfold State.noticeOnce; split <;> simp
@[simp] theorem State.noticeOnce_fab (k : Nat) (i : Island) (g : Fld) (obj : Nat) (a : Word) : (s.noticeOnce k i g obj a).fab = s.fab := by unfold State.noticeOnce; split <;> simp
@[simp] theorem State.noticeOnce_mem (k : Nat) (i : Island) (g : Fld) (obj : Nat) (a : Word) : (s.noticeOnce k i g obj a).mem = s.mem := by unfold State.noticeOnce; split <;> simp
@[simp] theorem State.noticeOnce_cal (k : Nat) (i : Island) (g : Fld) (obj : Nat) (a : Word) : (s.noticeOnce k i g obj a).cal = s.cal := by unfold State.noticeOnce; split <;> simp
@[simp] theorem State.noticeOnce_cfl (k : Nat) (i : Island) (g : Fld) (obj : Nat) (a : Word) : (s.noticeOnce k i g obj a).cfl = s.cfl := by unfold State.noticeOnce; split <;> simp
@[simp] theorem State.noticeOnce_lps (k : Nat) (i : Island) (g : Fld) (obj : Nat) (a : Word) : (s.noticeOnce k i g obj a).lps = s.lps := by unfold State.noticeOnce; split <;> simp
@[simp] theorem State.noticeOnce_dbg (k : Nat) (i : Island) (g : Fld) (obj : Nat) (a : Word) : (s.noticeOnce k i g obj a).dbg = s.dbg := by unfold State.noticeOnce; split <;> simp
@[simp] theorem State.noticeOnce_svc (k : Nat) (i : Island) (g : Fld) (obj : Nat) (a : Word) : (s.noticeOnce k i g obj a).svc = s.svc := by unfold State.noticeOnce; split <;> simp
@[simp] theorem State.noticeOnce_eid (k : Nat) (i : Island) (g : Fld) (obj : Nat) (a : Word) : (s.noticeOnce k i g obj a).eid = s.eid := by unfold State.noticeOnce; split <;> simp
@[simp] theorem State.noticeOnce_jtagPins (k : Nat) (i : Island) (g : Fld) (obj : Nat) (a : Word) : (s.noticeOnce k i g obj a).jtagPins = s.jtagPins := by unfold State.noticeOnce; split <;> simp

/-! `State.setErr` -/

@[simp] theorem State.setErr_pending (kind path addr lsb : Nat) (c : Option Fld) : (s.setErr kind path addr lsb c).pending = s.pending := State.withRegs_pending s _
@[simp] theorem State.setErr_time (kind path addr lsb : Nat) (c : Option Fld) : (s.setErr kind path addr lsb c).time = s.time := State.withRegs_time s _
@[simp] theorem State.setErr_freeCtr (kind path addr lsb : Nat) (c : Option Fld) : (s.setErr kind path addr lsb c).freeCtr = s.freeCtr := State.withRegs_freeCtr s _
@[simp] theorem State.setErr_boot (kind path addr lsb : Nat) (c : Option Fld) : (s.setErr kind path addr lsb c).boot = s.boot := State.withRegs_boot s _
@[simp] theorem State.setErr_staged (kind path addr lsb : Nat) (c : Option Fld) : (s.setErr kind path addr lsb c).staged = s.staged := State.withRegs_staged s _
@[simp] theorem State.setErr_marks (kind path addr lsb : Nat) (c : Option Fld) : (s.setErr kind path addr lsb c).marks = s.marks := State.withRegs_marks s _
@[simp] theorem State.setErr_out (kind path addr lsb : Nat) (c : Option Fld) : (s.setErr kind path addr lsb c).out = s.out := State.withRegs_out s _
@[simp] theorem State.setErr_isl (kind path addr lsb : Nat) (c : Option Fld) : (s.setErr kind path addr lsb c).isl = s.isl := State.withRegs_isl s _
@[simp] theorem State.setErr_clocks (kind path addr lsb : Nat) (c : Option Fld) : (s.setErr kind path addr lsb c).clocks = s.clocks := State.withRegs_clocks s _
@[simp] theorem State.setErr_xing (kind path addr lsb : Nat) (c : Option Fld) : (s.setErr kind path addr lsb c).xing = s.xing := State.withRegs_xing s _
@[simp] theorem State.setErr_lost (kind path addr lsb : Nat) (c : Option Fld) : (s.setErr kind path addr lsb c).lost = s.lost := State.withRegs_lost s _
@[simp] theorem State.setErr_early (kind path addr lsb : Nat) (c : Option Fld) : (s.setErr kind path addr lsb c).early = s.early := State.withRegs_early s _
@[simp] theorem State.setErr_regions (kind path addr lsb : Nat) (c : Option Fld) : (s.setErr kind path addr lsb c).regions = s.regions := State.withRegs_regions s _
@[simp] theorem State.setErr_tenants (kind path addr lsb : Nat) (c : Option Fld) : (s.setErr kind path addr lsb c).tenants = s.tenants := State.withRegs_tenants s _
@[simp] theorem State.setErr_ddr (kind path addr lsb : Nat) (c : Option Fld) : (s.setErr kind path addr lsb c).ddr = s.ddr := State.withRegs_ddr s _
@[simp] theorem State.setErr_poison (kind path addr lsb : Nat) (c : Option Fld) : (s.setErr kind path addr lsb c).poison = s.poison := State.withRegs_poison s _
@[simp] theorem State.setErr_pst (kind path addr lsb : Nat) (c : Option Fld) : (s.setErr kind path addr lsb c).pst = s.pst := State.withRegs_pst s _
@[simp] theorem State.setErr_hst (kind path addr lsb : Nat) (c : Option Fld) : (s.setErr kind path addr lsb c).hst = s.hst := State.withRegs_hst s _
@[simp] theorem State.setErr_phl (kind path addr lsb : Nat) (c : Option Fld) : (s.setErr kind path addr lsb c).phl = s.phl := State.withRegs_phl s _
@[simp] theorem State.setErr_dst (kind path addr lsb : Nat) (c : Option Fld) : (s.setErr kind path addr lsb c).dst = s.dst := State.withRegs_dst s _
@[simp] theorem State.setErr_pe (kind path addr lsb : Nat) (c : Option Fld) : (s.setErr kind path addr lsb c).pe = s.pe := State.withRegs_pe s _
@[simp] theorem State.setErr_mod (kind path addr lsb : Nat) (c : Option Fld) : (s.setErr kind path addr lsb c).mod = s.mod := State.withRegs_mod s _
@[simp] theorem State.setErr_seq (kind path addr lsb : Nat) (c : Option Fld) : (s.setErr kind path addr lsb c).seq = s.seq := State.withRegs_seq s _
@[simp] theorem State.setErr_contrail (kind path addr lsb : Nat) (c : Option Fld) : (s.setErr kind path addr lsb c).contrail = s.contrail := State.withRegs_contrail s _
@[simp] theorem State.setErr_nc (kind path addr lsb : Nat) (c : Option Fld) : (s.setErr kind path addr lsb c).nc = s.nc := State.withRegs_nc s _
@[simp] theorem State.setErr_tir (kind path addr lsb : Nat) (c : Option Fld) : (s.setErr kind path addr lsb c).tir = s.tir := State.withRegs_tir s _
@[simp] theorem State.setErr_cip (kind path addr lsb : Nat) (c : Option Fld) : (s.setErr kind path addr lsb c).cip = s.cip := State.withRegs_cip s _
@[simp] theorem State.setErr_fab (kind path addr lsb : Nat) (c : Option Fld) : (s.setErr kind path addr lsb c).fab = s.fab := State.withRegs_fab s _
@[simp] theorem State.setErr_mem (kind path addr lsb : Nat) (c : Option Fld) : (s.setErr kind path addr lsb c).mem = s.mem := State.withRegs_mem s _
@[simp] theorem State.setErr_cal (kind path addr lsb : Nat) (c : Option Fld) : (s.setErr kind path addr lsb c).cal = s.cal := State.withRegs_cal s _
@[simp] theorem State.setErr_cfl (kind path addr lsb : Nat) (c : Option Fld) : (s.setErr kind path addr lsb c).cfl = s.cfl := State.withRegs_cfl s _
@[simp] theorem State.setErr_lps (kind path addr lsb : Nat) (c : Option Fld) : (s.setErr kind path addr lsb c).lps = s.lps := State.withRegs_lps s _
@[simp] theorem State.setErr_dbg (kind path addr lsb : Nat) (c : Option Fld) : (s.setErr kind path addr lsb c).dbg = s.dbg := State.withRegs_dbg s _
@[simp] theorem State.setErr_svc (kind path addr lsb : Nat) (c : Option Fld) : (s.setErr kind path addr lsb c).svc = s.svc := State.withRegs_svc s _
@[simp] theorem State.setErr_eid (kind path addr lsb : Nat) (c : Option Fld) : (s.setErr kind path addr lsb c).eid = s.eid := State.withRegs_eid s _
@[simp] theorem State.setErr_jtagPins (kind path addr lsb : Nat) (c : Option Fld) : (s.setErr kind path addr lsb c).jtagPins = s.jtagPins := State.withRegs_jtagPins s _

/-! `State.errNotice` -/

@[simp] theorem State.errNotice_pending (kind : Nat) : (s.errNotice kind).pending = s.pending := by unfold State.errNotice; (repeat' split) <;> simp
@[simp] theorem State.errNotice_time (kind : Nat) : (s.errNotice kind).time = s.time := by unfold State.errNotice; (repeat' split) <;> simp
@[simp] theorem State.errNotice_freeCtr (kind : Nat) : (s.errNotice kind).freeCtr = s.freeCtr := by unfold State.errNotice; (repeat' split) <;> simp
@[simp] theorem State.errNotice_boot (kind : Nat) : (s.errNotice kind).boot = s.boot := by unfold State.errNotice; (repeat' split) <;> simp
@[simp] theorem State.errNotice_regs (kind : Nat) : (s.errNotice kind).regs = s.regs := by unfold State.errNotice; (repeat' split) <;> simp
@[simp] theorem State.errNotice_staged (kind : Nat) : (s.errNotice kind).staged = s.staged := by unfold State.errNotice; (repeat' split) <;> simp
@[simp] theorem State.errNotice_out (kind : Nat) : (s.errNotice kind).out = s.out := by unfold State.errNotice; (repeat' split) <;> simp
@[simp] theorem State.errNotice_isl (kind : Nat) : (s.errNotice kind).isl = s.isl := by unfold State.errNotice; (repeat' split) <;> simp
@[simp] theorem State.errNotice_clocks (kind : Nat) : (s.errNotice kind).clocks = s.clocks := by unfold State.errNotice; (repeat' split) <;> simp
@[simp] theorem State.errNotice_regions (kind : Nat) : (s.errNotice kind).regions = s.regions := by unfold State.errNotice; (repeat' split) <;> simp
@[simp] theorem State.errNotice_tenants (kind : Nat) : (s.errNotice kind).tenants = s.tenants := by unfold State.errNotice; (repeat' split) <;> simp
@[simp] theorem State.errNotice_ddr (kind : Nat) : (s.errNotice kind).ddr = s.ddr := by unfold State.errNotice; (repeat' split) <;> simp
@[simp] theorem State.errNotice_poison (kind : Nat) : (s.errNotice kind).poison = s.poison := by unfold State.errNotice; (repeat' split) <;> simp
@[simp] theorem State.errNotice_pst (kind : Nat) : (s.errNotice kind).pst = s.pst := by unfold State.errNotice; (repeat' split) <;> simp
@[simp] theorem State.errNotice_hst (kind : Nat) : (s.errNotice kind).hst = s.hst := by unfold State.errNotice; (repeat' split) <;> simp
@[simp] theorem State.errNotice_phl (kind : Nat) : (s.errNotice kind).phl = s.phl := by unfold State.errNotice; (repeat' split) <;> simp
@[simp] theorem State.errNotice_dst (kind : Nat) : (s.errNotice kind).dst = s.dst := by unfold State.errNotice; (repeat' split) <;> simp
@[simp] theorem State.errNotice_pe (kind : Nat) : (s.errNotice kind).pe = s.pe := by unfold State.errNotice; (repeat' split) <;> simp
@[simp] theorem State.errNotice_mod (kind : Nat) : (s.errNotice kind).mod = s.mod := by unfold State.errNotice; (repeat' split) <;> simp
@[simp] theorem State.errNotice_seq (kind : Nat) : (s.errNotice kind).seq = s.seq := by unfold State.errNotice; (repeat' split) <;> simp
@[simp] theorem State.errNotice_contrail (kind : Nat) : (s.errNotice kind).contrail = s.contrail := by unfold State.errNotice; (repeat' split) <;> simp
@[simp] theorem State.errNotice_nc (kind : Nat) : (s.errNotice kind).nc = s.nc := by unfold State.errNotice; (repeat' split) <;> simp
@[simp] theorem State.errNotice_tir (kind : Nat) : (s.errNotice kind).tir = s.tir := by unfold State.errNotice; (repeat' split) <;> simp
@[simp] theorem State.errNotice_cip (kind : Nat) : (s.errNotice kind).cip = s.cip := by unfold State.errNotice; (repeat' split) <;> simp
@[simp] theorem State.errNotice_fab (kind : Nat) : (s.errNotice kind).fab = s.fab := by unfold State.errNotice; (repeat' split) <;> simp
@[simp] theorem State.errNotice_mem (kind : Nat) : (s.errNotice kind).mem = s.mem := by unfold State.errNotice; (repeat' split) <;> simp
@[simp] theorem State.errNotice_cal (kind : Nat) : (s.errNotice kind).cal = s.cal := by unfold State.errNotice; (repeat' split) <;> simp
@[simp] theorem State.errNotice_cfl (kind : Nat) : (s.errNotice kind).cfl = s.cfl := by unfold State.errNotice; (repeat' split) <;> simp
@[simp] theorem State.errNotice_lps (kind : Nat) : (s.errNotice kind).lps = s.lps := by unfold State.errNotice; (repeat' split) <;> simp
@[simp] theorem State.errNotice_dbg (kind : Nat) : (s.errNotice kind).dbg = s.dbg := by unfold State.errNotice; (repeat' split) <;> simp
@[simp] theorem State.errNotice_svc (kind : Nat) : (s.errNotice kind).svc = s.svc := by unfold State.errNotice; (repeat' split) <;> simp
@[simp] theorem State.errNotice_eid (kind : Nat) : (s.errNotice kind).eid = s.eid := by unfold State.errNotice; (repeat' split) <;> simp
@[simp] theorem State.errNotice_jtagPins (kind : Nat) : (s.errNotice kind).jtagPins = s.jtagPins := by unfold State.errNotice; (repeat' split) <;> simp

/-! `State.genErr` -/

@[simp] theorem State.genErr_pending (kind path addr lsb : Nat) (c : Option Fld) : (s.genErr kind path addr lsb c).pending = s.pending := by simp [State.genErr]
@[simp] theorem State.genErr_time (kind path addr lsb : Nat) (c : Option Fld) : (s.genErr kind path addr lsb c).time = s.time := by simp [State.genErr]
@[simp] theorem State.genErr_freeCtr (kind path addr lsb : Nat) (c : Option Fld) : (s.genErr kind path addr lsb c).freeCtr = s.freeCtr := by simp [State.genErr]
@[simp] theorem State.genErr_boot (kind path addr lsb : Nat) (c : Option Fld) : (s.genErr kind path addr lsb c).boot = s.boot := by simp [State.genErr]
@[simp] theorem State.genErr_staged (kind path addr lsb : Nat) (c : Option Fld) : (s.genErr kind path addr lsb c).staged = s.staged := by simp [State.genErr]
@[simp] theorem State.genErr_out (kind path addr lsb : Nat) (c : Option Fld) : (s.genErr kind path addr lsb c).out = s.out := by simp [State.genErr]
@[simp] theorem State.genErr_isl (kind path addr lsb : Nat) (c : Option Fld) : (s.genErr kind path addr lsb c).isl = s.isl := by simp [State.genErr]
@[simp] theorem State.genErr_clocks (kind path addr lsb : Nat) (c : Option Fld) : (s.genErr kind path addr lsb c).clocks = s.clocks := by simp [State.genErr]
@[simp] theorem State.genErr_regions (kind path addr lsb : Nat) (c : Option Fld) : (s.genErr kind path addr lsb c).regions = s.regions := by simp [State.genErr]
@[simp] theorem State.genErr_tenants (kind path addr lsb : Nat) (c : Option Fld) : (s.genErr kind path addr lsb c).tenants = s.tenants := by simp [State.genErr]
@[simp] theorem State.genErr_ddr (kind path addr lsb : Nat) (c : Option Fld) : (s.genErr kind path addr lsb c).ddr = s.ddr := by simp [State.genErr]
@[simp] theorem State.genErr_poison (kind path addr lsb : Nat) (c : Option Fld) : (s.genErr kind path addr lsb c).poison = s.poison := by simp [State.genErr]
@[simp] theorem State.genErr_pst (kind path addr lsb : Nat) (c : Option Fld) : (s.genErr kind path addr lsb c).pst = s.pst := by simp [State.genErr]
@[simp] theorem State.genErr_hst (kind path addr lsb : Nat) (c : Option Fld) : (s.genErr kind path addr lsb c).hst = s.hst := by simp [State.genErr]
@[simp] theorem State.genErr_phl (kind path addr lsb : Nat) (c : Option Fld) : (s.genErr kind path addr lsb c).phl = s.phl := by simp [State.genErr]
@[simp] theorem State.genErr_dst (kind path addr lsb : Nat) (c : Option Fld) : (s.genErr kind path addr lsb c).dst = s.dst := by simp [State.genErr]
@[simp] theorem State.genErr_pe (kind path addr lsb : Nat) (c : Option Fld) : (s.genErr kind path addr lsb c).pe = s.pe := by simp [State.genErr]
@[simp] theorem State.genErr_mod (kind path addr lsb : Nat) (c : Option Fld) : (s.genErr kind path addr lsb c).mod = s.mod := by simp [State.genErr]
@[simp] theorem State.genErr_seq (kind path addr lsb : Nat) (c : Option Fld) : (s.genErr kind path addr lsb c).seq = s.seq := by simp [State.genErr]
@[simp] theorem State.genErr_contrail (kind path addr lsb : Nat) (c : Option Fld) : (s.genErr kind path addr lsb c).contrail = s.contrail := by simp [State.genErr]
@[simp] theorem State.genErr_nc (kind path addr lsb : Nat) (c : Option Fld) : (s.genErr kind path addr lsb c).nc = s.nc := by simp [State.genErr]
@[simp] theorem State.genErr_tir (kind path addr lsb : Nat) (c : Option Fld) : (s.genErr kind path addr lsb c).tir = s.tir := by simp [State.genErr]
@[simp] theorem State.genErr_cip (kind path addr lsb : Nat) (c : Option Fld) : (s.genErr kind path addr lsb c).cip = s.cip := by simp [State.genErr]
@[simp] theorem State.genErr_fab (kind path addr lsb : Nat) (c : Option Fld) : (s.genErr kind path addr lsb c).fab = s.fab := by simp [State.genErr]
@[simp] theorem State.genErr_mem (kind path addr lsb : Nat) (c : Option Fld) : (s.genErr kind path addr lsb c).mem = s.mem := by simp [State.genErr]
@[simp] theorem State.genErr_cal (kind path addr lsb : Nat) (c : Option Fld) : (s.genErr kind path addr lsb c).cal = s.cal := by simp [State.genErr]
@[simp] theorem State.genErr_cfl (kind path addr lsb : Nat) (c : Option Fld) : (s.genErr kind path addr lsb c).cfl = s.cfl := by simp [State.genErr]
@[simp] theorem State.genErr_lps (kind path addr lsb : Nat) (c : Option Fld) : (s.genErr kind path addr lsb c).lps = s.lps := by simp [State.genErr]
@[simp] theorem State.genErr_dbg (kind path addr lsb : Nat) (c : Option Fld) : (s.genErr kind path addr lsb c).dbg = s.dbg := by simp [State.genErr]
@[simp] theorem State.genErr_svc (kind path addr lsb : Nat) (c : Option Fld) : (s.genErr kind path addr lsb c).svc = s.svc := by simp [State.genErr]
@[simp] theorem State.genErr_eid (kind path addr lsb : Nat) (c : Option Fld) : (s.genErr kind path addr lsb c).eid = s.eid := by simp [State.genErr]
@[simp] theorem State.genErr_jtagPins (kind path addr lsb : Nat) (c : Option Fld) : (s.genErr kind path addr lsb c).jtagPins = s.jtagPins := by simp [State.genErr]

/-! `State.deny` -/

@[simp] theorem State.deny_pending (p : Path) (a lsb : Nat) : (s.deny p a lsb).pending = s.pending := by simp [State.deny]
@[simp] theorem State.deny_time (p : Path) (a lsb : Nat) : (s.deny p a lsb).time = s.time := by simp [State.deny]
@[simp] theorem State.deny_freeCtr (p : Path) (a lsb : Nat) : (s.deny p a lsb).freeCtr = s.freeCtr := by simp [State.deny]
@[simp] theorem State.deny_boot (p : Path) (a lsb : Nat) : (s.deny p a lsb).boot = s.boot := by simp [State.deny]
@[simp] theorem State.deny_staged (p : Path) (a lsb : Nat) : (s.deny p a lsb).staged = s.staged := by simp [State.deny]
@[simp] theorem State.deny_out (p : Path) (a lsb : Nat) : (s.deny p a lsb).out = s.out := by simp [State.deny]
@[simp] theorem State.deny_isl (p : Path) (a lsb : Nat) : (s.deny p a lsb).isl = s.isl := by simp [State.deny]
@[simp] theorem State.deny_clocks (p : Path) (a lsb : Nat) : (s.deny p a lsb).clocks = s.clocks := by simp [State.deny]
@[simp] theorem State.deny_regions (p : Path) (a lsb : Nat) : (s.deny p a lsb).regions = s.regions := by simp [State.deny]
@[simp] theorem State.deny_tenants (p : Path) (a lsb : Nat) : (s.deny p a lsb).tenants = s.tenants := by simp [State.deny]
@[simp] theorem State.deny_ddr (p : Path) (a lsb : Nat) : (s.deny p a lsb).ddr = s.ddr := by simp [State.deny]
@[simp] theorem State.deny_poison (p : Path) (a lsb : Nat) : (s.deny p a lsb).poison = s.poison := by simp [State.deny]
@[simp] theorem State.deny_pst (p : Path) (a lsb : Nat) : (s.deny p a lsb).pst = s.pst := by simp [State.deny]
@[simp] theorem State.deny_hst (p : Path) (a lsb : Nat) : (s.deny p a lsb).hst = s.hst := by simp [State.deny]
@[simp] theorem State.deny_phl (p : Path) (a lsb : Nat) : (s.deny p a lsb).phl = s.phl := by simp [State.deny]
@[simp] theorem State.deny_dst (p : Path) (a lsb : Nat) : (s.deny p a lsb).dst = s.dst := by simp [State.deny]
@[simp] theorem State.deny_pe (p : Path) (a lsb : Nat) : (s.deny p a lsb).pe = s.pe := by simp [State.deny]
@[simp] theorem State.deny_mod (p : Path) (a lsb : Nat) : (s.deny p a lsb).mod = s.mod := by simp [State.deny]
@[simp] theorem State.deny_seq (p : Path) (a lsb : Nat) : (s.deny p a lsb).seq = s.seq := by simp [State.deny]
@[simp] theorem State.deny_contrail (p : Path) (a lsb : Nat) : (s.deny p a lsb).contrail = s.contrail := by simp [State.deny]
@[simp] theorem State.deny_nc (p : Path) (a lsb : Nat) : (s.deny p a lsb).nc = s.nc := by simp [State.deny]
@[simp] theorem State.deny_tir (p : Path) (a lsb : Nat) : (s.deny p a lsb).tir = s.tir := by simp [State.deny]
@[simp] theorem State.deny_cip (p : Path) (a lsb : Nat) : (s.deny p a lsb).cip = s.cip := by simp [State.deny]
@[simp] theorem State.deny_fab (p : Path) (a lsb : Nat) : (s.deny p a lsb).fab = s.fab := by simp [State.deny]
@[simp] theorem State.deny_mem (p : Path) (a lsb : Nat) : (s.deny p a lsb).mem = s.mem := by simp [State.deny]
@[simp] theorem State.deny_cal (p : Path) (a lsb : Nat) : (s.deny p a lsb).cal = s.cal := by simp [State.deny]
@[simp] theorem State.deny_cfl (p : Path) (a lsb : Nat) : (s.deny p a lsb).cfl = s.cfl := by simp [State.deny]
@[simp] theorem State.deny_lps (p : Path) (a lsb : Nat) : (s.deny p a lsb).lps = s.lps := by simp [State.deny]
@[simp] theorem State.deny_dbg (p : Path) (a lsb : Nat) : (s.deny p a lsb).dbg = s.dbg := by simp [State.deny]
@[simp] theorem State.deny_svc (p : Path) (a lsb : Nat) : (s.deny p a lsb).svc = s.svc := by simp [State.deny]
@[simp] theorem State.deny_eid (p : Path) (a lsb : Nat) : (s.deny p a lsb).eid = s.eid := by simp [State.deny]
@[simp] theorem State.deny_jtagPins (p : Path) (a lsb : Nat) : (s.deny p a lsb).jtagPins = s.jtagPins := by simp [State.deny]

/-! `State.setUnits` -/

@[simp] theorem State.setUnits_pending (l : List CUnit) : (s.setUnits l).pending = s.pending := by rfl
@[simp] theorem State.setUnits_time (l : List CUnit) : (s.setUnits l).time = s.time := by rfl
@[simp] theorem State.setUnits_freeCtr (l : List CUnit) : (s.setUnits l).freeCtr = s.freeCtr := by rfl
@[simp] theorem State.setUnits_boot (l : List CUnit) : (s.setUnits l).boot = s.boot := by rfl
@[simp] theorem State.setUnits_regs (l : List CUnit) : (s.setUnits l).regs = s.regs := by rfl
@[simp] theorem State.setUnits_staged (l : List CUnit) : (s.setUnits l).staged = s.staged := by rfl
@[simp] theorem State.setUnits_marks (l : List CUnit) : (s.setUnits l).marks = s.marks := by rfl
@[simp] theorem State.setUnits_out (l : List CUnit) : (s.setUnits l).out = s.out := by rfl
@[simp] theorem State.setUnits_isl (l : List CUnit) : (s.setUnits l).isl = s.isl := by rfl
@[simp] theorem State.setUnits_clocks (l : List CUnit) : (s.setUnits l).clocks = s.clocks := by rfl
@[simp] theorem State.setUnits_xing (l : List CUnit) : (s.setUnits l).xing = s.xing := by rfl
@[simp] theorem State.setUnits_lost (l : List CUnit) : (s.setUnits l).lost = s.lost := by rfl
@[simp] theorem State.setUnits_early (l : List CUnit) : (s.setUnits l).early = s.early := by rfl
@[simp] theorem State.setUnits_regions (l : List CUnit) : (s.setUnits l).regions = s.regions := by rfl
@[simp] theorem State.setUnits_tenants (l : List CUnit) : (s.setUnits l).tenants = s.tenants := by rfl
@[simp] theorem State.setUnits_ddr (l : List CUnit) : (s.setUnits l).ddr = s.ddr := by rfl
@[simp] theorem State.setUnits_poison (l : List CUnit) : (s.setUnits l).poison = s.poison := by rfl
@[simp] theorem State.setUnits_hst (l : List CUnit) : (s.setUnits l).hst = s.hst := by rfl
@[simp] theorem State.setUnits_phl (l : List CUnit) : (s.setUnits l).phl = s.phl := by rfl
@[simp] theorem State.setUnits_dst (l : List CUnit) : (s.setUnits l).dst = s.dst := by rfl
@[simp] theorem State.setUnits_pe (l : List CUnit) : (s.setUnits l).pe = s.pe := by rfl
@[simp] theorem State.setUnits_mod (l : List CUnit) : (s.setUnits l).mod = s.mod := by rfl
@[simp] theorem State.setUnits_seq (l : List CUnit) : (s.setUnits l).seq = s.seq := by rfl
@[simp] theorem State.setUnits_contrail (l : List CUnit) : (s.setUnits l).contrail = s.contrail := by rfl
@[simp] theorem State.setUnits_nc (l : List CUnit) : (s.setUnits l).nc = s.nc := by rfl
@[simp] theorem State.setUnits_tir (l : List CUnit) : (s.setUnits l).tir = s.tir := by rfl
@[simp] theorem State.setUnits_cip (l : List CUnit) : (s.setUnits l).cip = s.cip := by rfl
@[simp] theorem State.setUnits_fab (l : List CUnit) : (s.setUnits l).fab = s.fab := by rfl
@[simp] theorem State.setUnits_mem (l : List CUnit) : (s.setUnits l).mem = s.mem := by rfl
@[simp] theorem State.setUnits_cal (l : List CUnit) : (s.setUnits l).cal = s.cal := by rfl
@[simp] theorem State.setUnits_cfl (l : List CUnit) : (s.setUnits l).cfl = s.cfl := by rfl
@[simp] theorem State.setUnits_lps (l : List CUnit) : (s.setUnits l).lps = s.lps := by rfl
@[simp] theorem State.setUnits_dbg (l : List CUnit) : (s.setUnits l).dbg = s.dbg := by rfl
@[simp] theorem State.setUnits_svc (l : List CUnit) : (s.setUnits l).svc = s.svc := by rfl
@[simp] theorem State.setUnits_eid (l : List CUnit) : (s.setUnits l).eid = s.eid := by rfl
@[simp] theorem State.setUnits_jtagPins (l : List CUnit) : (s.setUnits l).jtagPins = s.jtagPins := by rfl

/-! `State.updUnit` -/

@[simp] theorem State.updUnit_pending (n : Nat) (f : CUnit → CUnit) : (s.updUnit n f).pending = s.pending := by rfl
@[simp] theorem State.updUnit_time (n : Nat) (f : CUnit → CUnit) : (s.updUnit n f).time = s.time := by rfl
@[simp] theorem State.updUnit_freeCtr (n : Nat) (f : CUnit → CUnit) : (s.updUnit n f).freeCtr = s.freeCtr := by rfl
@[simp] theorem State.updUnit_boot (n : Nat) (f : CUnit → CUnit) : (s.updUnit n f).boot = s.boot := by rfl
@[simp] theorem State.updUnit_regs (n : Nat) (f : CUnit → CUnit) : (s.updUnit n f).regs = s.regs := by rfl
@[simp] theorem State.updUnit_staged (n : Nat) (f : CUnit → CUnit) : (s.updUnit n f).staged = s.staged := by rfl
@[simp] theorem State.updUnit_marks (n : Nat) (f : CUnit → CUnit) : (s.updUnit n f).marks = s.marks := by rfl
@[simp] theorem State.updUnit_out (n : Nat) (f : CUnit → CUnit) : (s.updUnit n f).out = s.out := by rfl
@[simp] theorem State.updUnit_isl (n : Nat) (f : CUnit → CUnit) : (s.updUnit n f).isl = s.isl := by rfl
@[simp] theorem State.updUnit_clocks (n : Nat) (f : CUnit → CUnit) : (s.updUnit n f).clocks = s.clocks := by rfl
@[simp] theorem State.updUnit_xing (n : Nat) (f : CUnit → CUnit) : (s.updUnit n f).xing = s.xing := by rfl
@[simp] theorem State.updUnit_lost (n : Nat) (f : CUnit → CUnit) : (s.updUnit n f).lost = s.lost := by rfl
@[simp] theorem State.updUnit_early (n : Nat) (f : CUnit → CUnit) : (s.updUnit n f).early = s.early := by rfl
@[simp] theorem State.updUnit_regions (n : Nat) (f : CUnit → CUnit) : (s.updUnit n f).regions = s.regions := by rfl
@[simp] theorem State.updUnit_tenants (n : Nat) (f : CUnit → CUnit) : (s.updUnit n f).tenants = s.tenants := by rfl
@[simp] theorem State.updUnit_ddr (n : Nat) (f : CUnit → CUnit) : (s.updUnit n f).ddr = s.ddr := by rfl
@[simp] theorem State.updUnit_poison (n : Nat) (f : CUnit → CUnit) : (s.updUnit n f).poison = s.poison := by rfl
@[simp] theorem State.updUnit_hst (n : Nat) (f : CUnit → CUnit) : (s.updUnit n f).hst = s.hst := by rfl
@[simp] theorem State.updUnit_phl (n : Nat) (f : CUnit → CUnit) : (s.updUnit n f).phl = s.phl := by rfl
@[simp] theorem State.updUnit_dst (n : Nat) (f : CUnit → CUnit) : (s.updUnit n f).dst = s.dst := by rfl
@[simp] theorem State.updUnit_pe (n : Nat) (f : CUnit → CUnit) : (s.updUnit n f).pe = s.pe := by rfl
@[simp] theorem State.updUnit_mod (n : Nat) (f : CUnit → CUnit) : (s.updUnit n f).mod = s.mod := by rfl
@[simp] theorem State.updUnit_seq (n : Nat) (f : CUnit → CUnit) : (s.updUnit n f).seq = s.seq := by rfl
@[simp] theorem State.updUnit_contrail (n : Nat) (f : CUnit → CUnit) : (s.updUnit n f).contrail = s.contrail := by rfl
@[simp] theorem State.updUnit_nc (n : Nat) (f : CUnit → CUnit) : (s.updUnit n f).nc = s.nc := by rfl
@[simp] theorem State.updUnit_tir (n : Nat) (f : CUnit → CUnit) : (s.updUnit n f).tir = s.tir := by rfl
@[simp] theorem State.updUnit_cip (n : Nat) (f : CUnit → CUnit) : (s.updUnit n f).cip = s.cip := by rfl
@[simp] theorem State.updUnit_fab (n : Nat) (f : CUnit → CUnit) : (s.updUnit n f).fab = s.fab := by rfl
@[simp] theorem State.updUnit_mem (n : Nat) (f : CUnit → CUnit) : (s.updUnit n f).mem = s.mem := by rfl
@[simp] theorem State.updUnit_cal (n : Nat) (f : CUnit → CUnit) : (s.updUnit n f).cal = s.cal := by rfl
@[simp] theorem State.updUnit_cfl (n : Nat) (f : CUnit → CUnit) : (s.updUnit n f).cfl = s.cfl := by rfl
@[simp] theorem State.updUnit_lps (n : Nat) (f : CUnit → CUnit) : (s.updUnit n f).lps = s.lps := by rfl
@[simp] theorem State.updUnit_dbg (n : Nat) (f : CUnit → CUnit) : (s.updUnit n f).dbg = s.dbg := by rfl
@[simp] theorem State.updUnit_svc (n : Nat) (f : CUnit → CUnit) : (s.updUnit n f).svc = s.svc := by rfl
@[simp] theorem State.updUnit_eid (n : Nat) (f : CUnit → CUnit) : (s.updUnit n f).eid = s.eid := by rfl
@[simp] theorem State.updUnit_jtagPins (n : Nat) (f : CUnit → CUnit) : (s.updUnit n f).jtagPins = s.jtagPins := by rfl

/-! `State.updRegion` -/

@[simp] theorem State.updRegion_pending (n : Nat) (f : Region → Region) : (s.updRegion n f).pending = s.pending := by rfl
@[simp] theorem State.updRegion_time (n : Nat) (f : Region → Region) : (s.updRegion n f).time = s.time := by rfl
@[simp] theorem State.updRegion_freeCtr (n : Nat) (f : Region → Region) : (s.updRegion n f).freeCtr = s.freeCtr := by rfl
@[simp] theorem State.updRegion_boot (n : Nat) (f : Region → Region) : (s.updRegion n f).boot = s.boot := by rfl
@[simp] theorem State.updRegion_regs (n : Nat) (f : Region → Region) : (s.updRegion n f).regs = s.regs := by rfl
@[simp] theorem State.updRegion_staged (n : Nat) (f : Region → Region) : (s.updRegion n f).staged = s.staged := by rfl
@[simp] theorem State.updRegion_marks (n : Nat) (f : Region → Region) : (s.updRegion n f).marks = s.marks := by rfl
@[simp] theorem State.updRegion_out (n : Nat) (f : Region → Region) : (s.updRegion n f).out = s.out := by rfl
@[simp] theorem State.updRegion_isl (n : Nat) (f : Region → Region) : (s.updRegion n f).isl = s.isl := by rfl
@[simp] theorem State.updRegion_clocks (n : Nat) (f : Region → Region) : (s.updRegion n f).clocks = s.clocks := by rfl
@[simp] theorem State.updRegion_xing (n : Nat) (f : Region → Region) : (s.updRegion n f).xing = s.xing := by rfl
@[simp] theorem State.updRegion_lost (n : Nat) (f : Region → Region) : (s.updRegion n f).lost = s.lost := by rfl
@[simp] theorem State.updRegion_early (n : Nat) (f : Region → Region) : (s.updRegion n f).early = s.early := by rfl
@[simp] theorem State.updRegion_regions (n : Nat) (f : Region → Region) : (s.updRegion n f).regions = Tab.upd s.regions n f := by rfl
@[simp] theorem State.updRegion_tenants (n : Nat) (f : Region → Region) : (s.updRegion n f).tenants = s.tenants := by rfl
@[simp] theorem State.updRegion_ddr (n : Nat) (f : Region → Region) : (s.updRegion n f).ddr = s.ddr := by rfl
@[simp] theorem State.updRegion_poison (n : Nat) (f : Region → Region) : (s.updRegion n f).poison = s.poison := by rfl
@[simp] theorem State.updRegion_pst (n : Nat) (f : Region → Region) : (s.updRegion n f).pst = s.pst := by rfl
@[simp] theorem State.updRegion_hst (n : Nat) (f : Region → Region) : (s.updRegion n f).hst = s.hst := by rfl
@[simp] theorem State.updRegion_phl (n : Nat) (f : Region → Region) : (s.updRegion n f).phl = s.phl := by rfl
@[simp] theorem State.updRegion_dst (n : Nat) (f : Region → Region) : (s.updRegion n f).dst = s.dst := by rfl
@[simp] theorem State.updRegion_pe (n : Nat) (f : Region → Region) : (s.updRegion n f).pe = s.pe := by rfl
@[simp] theorem State.updRegion_mod (n : Nat) (f : Region → Region) : (s.updRegion n f).mod = s.mod := by rfl
@[simp] theorem State.updRegion_seq (n : Nat) (f : Region → Region) : (s.updRegion n f).seq = s.seq := by rfl
@[simp] theorem State.updRegion_contrail (n : Nat) (f : Region → Region) : (s.updRegion n f).contrail = s.contrail := by rfl
@[simp] theorem State.updRegion_nc (n : Nat) (f : Region → Region) : (s.updRegion n f).nc = s.nc := by rfl
@[simp] theorem State.updRegion_tir (n : Nat) (f : Region → Region) : (s.updRegion n f).tir = s.tir := by rfl
@[simp] theorem State.updRegion_cip (n : Nat) (f : Region → Region) : (s.updRegion n f).cip = s.cip := by rfl
@[simp] theorem State.updRegion_fab (n : Nat) (f : Region → Region) : (s.updRegion n f).fab = s.fab := by rfl
@[simp] theorem State.updRegion_mem (n : Nat) (f : Region → Region) : (s.updRegion n f).mem = s.mem := by rfl
@[simp] theorem State.updRegion_cal (n : Nat) (f : Region → Region) : (s.updRegion n f).cal = s.cal := by rfl
@[simp] theorem State.updRegion_cfl (n : Nat) (f : Region → Region) : (s.updRegion n f).cfl = s.cfl := by rfl
@[simp] theorem State.updRegion_lps (n : Nat) (f : Region → Region) : (s.updRegion n f).lps = s.lps := by rfl
@[simp] theorem State.updRegion_dbg (n : Nat) (f : Region → Region) : (s.updRegion n f).dbg = s.dbg := by rfl
@[simp] theorem State.updRegion_svc (n : Nat) (f : Region → Region) : (s.updRegion n f).svc = s.svc := by rfl
@[simp] theorem State.updRegion_eid (n : Nat) (f : Region → Region) : (s.updRegion n f).eid = s.eid := by rfl
@[simp] theorem State.updRegion_jtagPins (n : Nat) (f : Region → Region) : (s.updRegion n f).jtagPins = s.jtagPins := by rfl

/-! `State.updPe` -/

@[simp] theorem State.updPe_pending (f : PeState → PeState) : (s.updPe f).pending = s.pending := by rfl
@[simp] theorem State.updPe_time (f : PeState → PeState) : (s.updPe f).time = s.time := by rfl
@[simp] theorem State.updPe_freeCtr (f : PeState → PeState) : (s.updPe f).freeCtr = s.freeCtr := by rfl
@[simp] theorem State.updPe_boot (f : PeState → PeState) : (s.updPe f).boot = s.boot := by rfl
@[simp] theorem State.updPe_regs (f : PeState → PeState) : (s.updPe f).regs = s.regs := by rfl
@[simp] theorem State.updPe_staged (f : PeState → PeState) : (s.updPe f).staged = s.staged := by rfl
@[simp] theorem State.updPe_marks (f : PeState → PeState) : (s.updPe f).marks = s.marks := by rfl
@[simp] theorem State.updPe_out (f : PeState → PeState) : (s.updPe f).out = s.out := by rfl
@[simp] theorem State.updPe_isl (f : PeState → PeState) : (s.updPe f).isl = s.isl := by rfl
@[simp] theorem State.updPe_clocks (f : PeState → PeState) : (s.updPe f).clocks = s.clocks := by rfl
@[simp] theorem State.updPe_xing (f : PeState → PeState) : (s.updPe f).xing = s.xing := by rfl
@[simp] theorem State.updPe_lost (f : PeState → PeState) : (s.updPe f).lost = s.lost := by rfl
@[simp] theorem State.updPe_early (f : PeState → PeState) : (s.updPe f).early = s.early := by rfl
@[simp] theorem State.updPe_regions (f : PeState → PeState) : (s.updPe f).regions = s.regions := by rfl
@[simp] theorem State.updPe_tenants (f : PeState → PeState) : (s.updPe f).tenants = s.tenants := by rfl
@[simp] theorem State.updPe_ddr (f : PeState → PeState) : (s.updPe f).ddr = s.ddr := by rfl
@[simp] theorem State.updPe_poison (f : PeState → PeState) : (s.updPe f).poison = s.poison := by rfl
@[simp] theorem State.updPe_pst (f : PeState → PeState) : (s.updPe f).pst = s.pst := by rfl
@[simp] theorem State.updPe_hst (f : PeState → PeState) : (s.updPe f).hst = s.hst := by rfl
@[simp] theorem State.updPe_phl (f : PeState → PeState) : (s.updPe f).phl = s.phl := by rfl
@[simp] theorem State.updPe_dst (f : PeState → PeState) : (s.updPe f).dst = s.dst := by rfl
@[simp] theorem State.updPe_pe (f : PeState → PeState) : (s.updPe f).pe = f s.pe := by rfl
@[simp] theorem State.updPe_mod (f : PeState → PeState) : (s.updPe f).mod = s.mod := by rfl
@[simp] theorem State.updPe_seq (f : PeState → PeState) : (s.updPe f).seq = s.seq := by rfl
@[simp] theorem State.updPe_contrail (f : PeState → PeState) : (s.updPe f).contrail = s.contrail := by rfl
@[simp] theorem State.updPe_nc (f : PeState → PeState) : (s.updPe f).nc = s.nc := by rfl
@[simp] theorem State.updPe_tir (f : PeState → PeState) : (s.updPe f).tir = s.tir := by rfl
@[simp] theorem State.updPe_cip (f : PeState → PeState) : (s.updPe f).cip = s.cip := by rfl
@[simp] theorem State.updPe_fab (f : PeState → PeState) : (s.updPe f).fab = s.fab := by rfl
@[simp] theorem State.updPe_mem (f : PeState → PeState) : (s.updPe f).mem = s.mem := by rfl
@[simp] theorem State.updPe_cal (f : PeState → PeState) : (s.updPe f).cal = s.cal := by rfl
@[simp] theorem State.updPe_cfl (f : PeState → PeState) : (s.updPe f).cfl = s.cfl := by rfl
@[simp] theorem State.updPe_lps (f : PeState → PeState) : (s.updPe f).lps = s.lps := by rfl
@[simp] theorem State.updPe_dbg (f : PeState → PeState) : (s.updPe f).dbg = s.dbg := by rfl
@[simp] theorem State.updPe_svc (f : PeState → PeState) : (s.updPe f).svc = s.svc := by rfl
@[simp] theorem State.updPe_eid (f : PeState → PeState) : (s.updPe f).eid = s.eid := by rfl
@[simp] theorem State.updPe_jtagPins (f : PeState → PeState) : (s.updPe f).jtagPins = s.jtagPins := by rfl

/-! `State.updCmd` -/

@[simp] theorem State.updCmd_pending (c : Nat) (f : Cmd → Cmd) : (s.updCmd c f).pending = s.pending := by rfl
@[simp] theorem State.updCmd_time (c : Nat) (f : Cmd → Cmd) : (s.updCmd c f).time = s.time := by rfl
@[simp] theorem State.updCmd_freeCtr (c : Nat) (f : Cmd → Cmd) : (s.updCmd c f).freeCtr = s.freeCtr := by rfl
@[simp] theorem State.updCmd_boot (c : Nat) (f : Cmd → Cmd) : (s.updCmd c f).boot = s.boot := by rfl
@[simp] theorem State.updCmd_regs (c : Nat) (f : Cmd → Cmd) : (s.updCmd c f).regs = s.regs := by rfl
@[simp] theorem State.updCmd_staged (c : Nat) (f : Cmd → Cmd) : (s.updCmd c f).staged = s.staged := by rfl
@[simp] theorem State.updCmd_marks (c : Nat) (f : Cmd → Cmd) : (s.updCmd c f).marks = s.marks := by rfl
@[simp] theorem State.updCmd_out (c : Nat) (f : Cmd → Cmd) : (s.updCmd c f).out = s.out := by rfl
@[simp] theorem State.updCmd_isl (c : Nat) (f : Cmd → Cmd) : (s.updCmd c f).isl = s.isl := by rfl
@[simp] theorem State.updCmd_clocks (c : Nat) (f : Cmd → Cmd) : (s.updCmd c f).clocks = s.clocks := by rfl
@[simp] theorem State.updCmd_xing (c : Nat) (f : Cmd → Cmd) : (s.updCmd c f).xing = s.xing := by rfl
@[simp] theorem State.updCmd_lost (c : Nat) (f : Cmd → Cmd) : (s.updCmd c f).lost = s.lost := by rfl
@[simp] theorem State.updCmd_early (c : Nat) (f : Cmd → Cmd) : (s.updCmd c f).early = s.early := by rfl
@[simp] theorem State.updCmd_regions (c : Nat) (f : Cmd → Cmd) : (s.updCmd c f).regions = s.regions := by rfl
@[simp] theorem State.updCmd_tenants (c : Nat) (f : Cmd → Cmd) : (s.updCmd c f).tenants = s.tenants := by rfl
@[simp] theorem State.updCmd_ddr (c : Nat) (f : Cmd → Cmd) : (s.updCmd c f).ddr = s.ddr := by rfl
@[simp] theorem State.updCmd_poison (c : Nat) (f : Cmd → Cmd) : (s.updCmd c f).poison = s.poison := by rfl
@[simp] theorem State.updCmd_pst (c : Nat) (f : Cmd → Cmd) : (s.updCmd c f).pst = s.pst := by rfl
@[simp] theorem State.updCmd_hst (c : Nat) (f : Cmd → Cmd) : (s.updCmd c f).hst = s.hst := by rfl
@[simp] theorem State.updCmd_phl (c : Nat) (f : Cmd → Cmd) : (s.updCmd c f).phl = s.phl := by rfl
@[simp] theorem State.updCmd_dst (c : Nat) (f : Cmd → Cmd) : (s.updCmd c f).dst = s.dst := by rfl
@[simp] theorem State.updCmd_mod (c : Nat) (f : Cmd → Cmd) : (s.updCmd c f).mod = s.mod := by rfl
@[simp] theorem State.updCmd_seq (c : Nat) (f : Cmd → Cmd) : (s.updCmd c f).seq = s.seq := by rfl
@[simp] theorem State.updCmd_contrail (c : Nat) (f : Cmd → Cmd) : (s.updCmd c f).contrail = s.contrail := by rfl
@[simp] theorem State.updCmd_nc (c : Nat) (f : Cmd → Cmd) : (s.updCmd c f).nc = s.nc := by rfl
@[simp] theorem State.updCmd_tir (c : Nat) (f : Cmd → Cmd) : (s.updCmd c f).tir = s.tir := by rfl
@[simp] theorem State.updCmd_cip (c : Nat) (f : Cmd → Cmd) : (s.updCmd c f).cip = s.cip := by rfl
@[simp] theorem State.updCmd_fab (c : Nat) (f : Cmd → Cmd) : (s.updCmd c f).fab = s.fab := by rfl
@[simp] theorem State.updCmd_mem (c : Nat) (f : Cmd → Cmd) : (s.updCmd c f).mem = s.mem := by rfl
@[simp] theorem State.updCmd_cal (c : Nat) (f : Cmd → Cmd) : (s.updCmd c f).cal = s.cal := by rfl
@[simp] theorem State.updCmd_cfl (c : Nat) (f : Cmd → Cmd) : (s.updCmd c f).cfl = s.cfl := by rfl
@[simp] theorem State.updCmd_lps (c : Nat) (f : Cmd → Cmd) : (s.updCmd c f).lps = s.lps := by rfl
@[simp] theorem State.updCmd_dbg (c : Nat) (f : Cmd → Cmd) : (s.updCmd c f).dbg = s.dbg := by rfl
@[simp] theorem State.updCmd_svc (c : Nat) (f : Cmd → Cmd) : (s.updCmd c f).svc = s.svc := by rfl
@[simp] theorem State.updCmd_eid (c : Nat) (f : Cmd → Cmd) : (s.updCmd c f).eid = s.eid := by rfl
@[simp] theorem State.updCmd_jtagPins (c : Nat) (f : Cmd → Cmd) : (s.updCmd c f).jtagPins = s.jtagPins := by rfl

/-! `State.updOp` -/

@[simp] theorem State.updOp_pending (c n : Nat) (f : Op → Op) : (s.updOp c n f).pending = s.pending := by rfl
@[simp] theorem State.updOp_time (c n : Nat) (f : Op → Op) : (s.updOp c n f).time = s.time := by rfl
@[simp] theorem State.updOp_freeCtr (c n : Nat) (f : Op → Op) : (s.updOp c n f).freeCtr = s.freeCtr := by rfl
@[simp] theorem State.updOp_boot (c n : Nat) (f : Op → Op) : (s.updOp c n f).boot = s.boot := by rfl
@[simp] theorem State.updOp_regs (c n : Nat) (f : Op → Op) : (s.updOp c n f).regs = s.regs := by rfl
@[simp] theorem State.updOp_staged (c n : Nat) (f : Op → Op) : (s.updOp c n f).staged = s.staged := by rfl
@[simp] theorem State.updOp_marks (c n : Nat) (f : Op → Op) : (s.updOp c n f).marks = s.marks := by rfl
@[simp] theorem State.updOp_out (c n : Nat) (f : Op → Op) : (s.updOp c n f).out = s.out := by rfl
@[simp] theorem State.updOp_isl (c n : Nat) (f : Op → Op) : (s.updOp c n f).isl = s.isl := by rfl
@[simp] theorem State.updOp_clocks (c n : Nat) (f : Op → Op) : (s.updOp c n f).clocks = s.clocks := by rfl
@[simp] theorem State.updOp_xing (c n : Nat) (f : Op → Op) : (s.updOp c n f).xing = s.xing := by rfl
@[simp] theorem State.updOp_lost (c n : Nat) (f : Op → Op) : (s.updOp c n f).lost = s.lost := by rfl
@[simp] theorem State.updOp_early (c n : Nat) (f : Op → Op) : (s.updOp c n f).early = s.early := by rfl
@[simp] theorem State.updOp_regions (c n : Nat) (f : Op → Op) : (s.updOp c n f).regions = s.regions := by rfl
@[simp] theorem State.updOp_tenants (c n : Nat) (f : Op → Op) : (s.updOp c n f).tenants = s.tenants := by rfl
@[simp] theorem State.updOp_ddr (c n : Nat) (f : Op → Op) : (s.updOp c n f).ddr = s.ddr := by rfl
@[simp] theorem State.updOp_poison (c n : Nat) (f : Op → Op) : (s.updOp c n f).poison = s.poison := by rfl
@[simp] theorem State.updOp_pst (c n : Nat) (f : Op → Op) : (s.updOp c n f).pst = s.pst := by rfl
@[simp] theorem State.updOp_hst (c n : Nat) (f : Op → Op) : (s.updOp c n f).hst = s.hst := by rfl
@[simp] theorem State.updOp_phl (c n : Nat) (f : Op → Op) : (s.updOp c n f).phl = s.phl := by rfl
@[simp] theorem State.updOp_dst (c n : Nat) (f : Op → Op) : (s.updOp c n f).dst = s.dst := by rfl
@[simp] theorem State.updOp_mod (c n : Nat) (f : Op → Op) : (s.updOp c n f).mod = s.mod := by rfl
@[simp] theorem State.updOp_seq (c n : Nat) (f : Op → Op) : (s.updOp c n f).seq = s.seq := by rfl
@[simp] theorem State.updOp_contrail (c n : Nat) (f : Op → Op) : (s.updOp c n f).contrail = s.contrail := by rfl
@[simp] theorem State.updOp_nc (c n : Nat) (f : Op → Op) : (s.updOp c n f).nc = s.nc := by rfl
@[simp] theorem State.updOp_tir (c n : Nat) (f : Op → Op) : (s.updOp c n f).tir = s.tir := by rfl
@[simp] theorem State.updOp_cip (c n : Nat) (f : Op → Op) : (s.updOp c n f).cip = s.cip := by rfl
@[simp] theorem State.updOp_fab (c n : Nat) (f : Op → Op) : (s.updOp c n f).fab = s.fab := by rfl
@[simp] theorem State.updOp_mem (c n : Nat) (f : Op → Op) : (s.updOp c n f).mem = s.mem := by rfl
@[simp] theorem State.updOp_cal (c n : Nat) (f : Op → Op) : (s.updOp c n f).cal = s.cal := by rfl
@[simp] theorem State.updOp_cfl (c n : Nat) (f : Op → Op) : (s.updOp c n f).cfl = s.cfl := by rfl
@[simp] theorem State.updOp_lps (c n : Nat) (f : Op → Op) : (s.updOp c n f).lps = s.lps := by rfl
@[simp] theorem State.updOp_dbg (c n : Nat) (f : Op → Op) : (s.updOp c n f).dbg = s.dbg := by rfl
@[simp] theorem State.updOp_svc (c n : Nat) (f : Op → Op) : (s.updOp c n f).svc = s.svc := by rfl
@[simp] theorem State.updOp_eid (c n : Nat) (f : Op → Op) : (s.updOp c n f).eid = s.eid := by rfl
@[simp] theorem State.updOp_jtagPins (c n : Nat) (f : Op → Op) : (s.updOp c n f).jtagPins = s.jtagPins := by rfl

/-! `State.updQp` -/

@[simp] theorem State.updQp_pending (q : Nat) (f : Qp → Qp) : (s.updQp q f).pending = s.pending := by rfl
@[simp] theorem State.updQp_time (q : Nat) (f : Qp → Qp) : (s.updQp q f).time = s.time := by rfl
@[simp] theorem State.updQp_freeCtr (q : Nat) (f : Qp → Qp) : (s.updQp q f).freeCtr = s.freeCtr := by rfl
@[simp] theorem State.updQp_boot (q : Nat) (f : Qp → Qp) : (s.updQp q f).boot = s.boot := by rfl
@[simp] theorem State.updQp_regs (q : Nat) (f : Qp → Qp) : (s.updQp q f).regs = s.regs := by rfl
@[simp] theorem State.updQp_staged (q : Nat) (f : Qp → Qp) : (s.updQp q f).staged = s.staged := by rfl
@[simp] theorem State.updQp_marks (q : Nat) (f : Qp → Qp) : (s.updQp q f).marks = s.marks := by rfl
@[simp] theorem State.updQp_out (q : Nat) (f : Qp → Qp) : (s.updQp q f).out = s.out := by rfl
@[simp] theorem State.updQp_isl (q : Nat) (f : Qp → Qp) : (s.updQp q f).isl = s.isl := by rfl
@[simp] theorem State.updQp_clocks (q : Nat) (f : Qp → Qp) : (s.updQp q f).clocks = s.clocks := by rfl
@[simp] theorem State.updQp_xing (q : Nat) (f : Qp → Qp) : (s.updQp q f).xing = s.xing := by rfl
@[simp] theorem State.updQp_lost (q : Nat) (f : Qp → Qp) : (s.updQp q f).lost = s.lost := by rfl
@[simp] theorem State.updQp_early (q : Nat) (f : Qp → Qp) : (s.updQp q f).early = s.early := by rfl
@[simp] theorem State.updQp_regions (q : Nat) (f : Qp → Qp) : (s.updQp q f).regions = s.regions := by rfl
@[simp] theorem State.updQp_tenants (q : Nat) (f : Qp → Qp) : (s.updQp q f).tenants = s.tenants := by rfl
@[simp] theorem State.updQp_ddr (q : Nat) (f : Qp → Qp) : (s.updQp q f).ddr = s.ddr := by rfl
@[simp] theorem State.updQp_poison (q : Nat) (f : Qp → Qp) : (s.updQp q f).poison = s.poison := by rfl
@[simp] theorem State.updQp_pst (q : Nat) (f : Qp → Qp) : (s.updQp q f).pst = s.pst := by rfl
@[simp] theorem State.updQp_hst (q : Nat) (f : Qp → Qp) : (s.updQp q f).hst = s.hst := by rfl
@[simp] theorem State.updQp_phl (q : Nat) (f : Qp → Qp) : (s.updQp q f).phl = s.phl := by rfl
@[simp] theorem State.updQp_dst (q : Nat) (f : Qp → Qp) : (s.updQp q f).dst = s.dst := by rfl
@[simp] theorem State.updQp_mod (q : Nat) (f : Qp → Qp) : (s.updQp q f).mod = s.mod := by rfl
@[simp] theorem State.updQp_seq (q : Nat) (f : Qp → Qp) : (s.updQp q f).seq = s.seq := by rfl
@[simp] theorem State.updQp_contrail (q : Nat) (f : Qp → Qp) : (s.updQp q f).contrail = s.contrail := by rfl
@[simp] theorem State.updQp_nc (q : Nat) (f : Qp → Qp) : (s.updQp q f).nc = s.nc := by rfl
@[simp] theorem State.updQp_tir (q : Nat) (f : Qp → Qp) : (s.updQp q f).tir = s.tir := by rfl
@[simp] theorem State.updQp_cip (q : Nat) (f : Qp → Qp) : (s.updQp q f).cip = s.cip := by rfl
@[simp] theorem State.updQp_fab (q : Nat) (f : Qp → Qp) : (s.updQp q f).fab = s.fab := by rfl
@[simp] theorem State.updQp_mem (q : Nat) (f : Qp → Qp) : (s.updQp q f).mem = s.mem := by rfl
@[simp] theorem State.updQp_cal (q : Nat) (f : Qp → Qp) : (s.updQp q f).cal = s.cal := by rfl
@[simp] theorem State.updQp_cfl (q : Nat) (f : Qp → Qp) : (s.updQp q f).cfl = s.cfl := by rfl
@[simp] theorem State.updQp_lps (q : Nat) (f : Qp → Qp) : (s.updQp q f).lps = s.lps := by rfl
@[simp] theorem State.updQp_dbg (q : Nat) (f : Qp → Qp) : (s.updQp q f).dbg = s.dbg := by rfl
@[simp] theorem State.updQp_svc (q : Nat) (f : Qp → Qp) : (s.updQp q f).svc = s.svc := by rfl
@[simp] theorem State.updQp_eid (q : Nat) (f : Qp → Qp) : (s.updQp q f).eid = s.eid := by rfl
@[simp] theorem State.updQp_jtagPins (q : Nat) (f : Qp → Qp) : (s.updQp q f).jtagPins = s.jtagPins := by rfl

/-! `State.updStrand` -/

@[simp] theorem State.updStrand_pending (k : Nat) (f : Strand → Strand) : (s.updStrand k f).pending = s.pending := by rfl
@[simp] theorem State.updStrand_time (k : Nat) (f : Strand → Strand) : (s.updStrand k f).time = s.time := by rfl
@[simp] theorem State.updStrand_freeCtr (k : Nat) (f : Strand → Strand) : (s.updStrand k f).freeCtr = s.freeCtr := by rfl
@[simp] theorem State.updStrand_boot (k : Nat) (f : Strand → Strand) : (s.updStrand k f).boot = s.boot := by rfl
@[simp] theorem State.updStrand_regs (k : Nat) (f : Strand → Strand) : (s.updStrand k f).regs = s.regs := by rfl
@[simp] theorem State.updStrand_staged (k : Nat) (f : Strand → Strand) : (s.updStrand k f).staged = s.staged := by rfl
@[simp] theorem State.updStrand_marks (k : Nat) (f : Strand → Strand) : (s.updStrand k f).marks = s.marks := by rfl
@[simp] theorem State.updStrand_out (k : Nat) (f : Strand → Strand) : (s.updStrand k f).out = s.out := by rfl
@[simp] theorem State.updStrand_isl (k : Nat) (f : Strand → Strand) : (s.updStrand k f).isl = s.isl := by rfl
@[simp] theorem State.updStrand_clocks (k : Nat) (f : Strand → Strand) : (s.updStrand k f).clocks = s.clocks := by rfl
@[simp] theorem State.updStrand_xing (k : Nat) (f : Strand → Strand) : (s.updStrand k f).xing = s.xing := by rfl
@[simp] theorem State.updStrand_lost (k : Nat) (f : Strand → Strand) : (s.updStrand k f).lost = s.lost := by rfl
@[simp] theorem State.updStrand_early (k : Nat) (f : Strand → Strand) : (s.updStrand k f).early = s.early := by rfl
@[simp] theorem State.updStrand_regions (k : Nat) (f : Strand → Strand) : (s.updStrand k f).regions = s.regions := by rfl
@[simp] theorem State.updStrand_tenants (k : Nat) (f : Strand → Strand) : (s.updStrand k f).tenants = s.tenants := by rfl
@[simp] theorem State.updStrand_ddr (k : Nat) (f : Strand → Strand) : (s.updStrand k f).ddr = s.ddr := by rfl
@[simp] theorem State.updStrand_poison (k : Nat) (f : Strand → Strand) : (s.updStrand k f).poison = s.poison := by rfl
@[simp] theorem State.updStrand_pst (k : Nat) (f : Strand → Strand) : (s.updStrand k f).pst = s.pst := by rfl
@[simp] theorem State.updStrand_hst (k : Nat) (f : Strand → Strand) : (s.updStrand k f).hst = s.hst := by rfl
@[simp] theorem State.updStrand_phl (k : Nat) (f : Strand → Strand) : (s.updStrand k f).phl = s.phl := by rfl
@[simp] theorem State.updStrand_dst (k : Nat) (f : Strand → Strand) : (s.updStrand k f).dst = s.dst := by rfl
@[simp] theorem State.updStrand_mod (k : Nat) (f : Strand → Strand) : (s.updStrand k f).mod = s.mod := by rfl
@[simp] theorem State.updStrand_seq (k : Nat) (f : Strand → Strand) : (s.updStrand k f).seq = s.seq := by rfl
@[simp] theorem State.updStrand_contrail (k : Nat) (f : Strand → Strand) : (s.updStrand k f).contrail = s.contrail := by rfl
@[simp] theorem State.updStrand_nc (k : Nat) (f : Strand → Strand) : (s.updStrand k f).nc = s.nc := by rfl
@[simp] theorem State.updStrand_tir (k : Nat) (f : Strand → Strand) : (s.updStrand k f).tir = s.tir := by rfl
@[simp] theorem State.updStrand_cip (k : Nat) (f : Strand → Strand) : (s.updStrand k f).cip = s.cip := by rfl
@[simp] theorem State.updStrand_fab (k : Nat) (f : Strand → Strand) : (s.updStrand k f).fab = s.fab := by rfl
@[simp] theorem State.updStrand_mem (k : Nat) (f : Strand → Strand) : (s.updStrand k f).mem = s.mem := by rfl
@[simp] theorem State.updStrand_cal (k : Nat) (f : Strand → Strand) : (s.updStrand k f).cal = s.cal := by rfl
@[simp] theorem State.updStrand_cfl (k : Nat) (f : Strand → Strand) : (s.updStrand k f).cfl = s.cfl := by rfl
@[simp] theorem State.updStrand_lps (k : Nat) (f : Strand → Strand) : (s.updStrand k f).lps = s.lps := by rfl
@[simp] theorem State.updStrand_dbg (k : Nat) (f : Strand → Strand) : (s.updStrand k f).dbg = s.dbg := by rfl
@[simp] theorem State.updStrand_svc (k : Nat) (f : Strand → Strand) : (s.updStrand k f).svc = s.svc := by rfl
@[simp] theorem State.updStrand_eid (k : Nat) (f : Strand → Strand) : (s.updStrand k f).eid = s.eid := by rfl
@[simp] theorem State.updStrand_jtagPins (k : Nat) (f : Strand → Strand) : (s.updStrand k f).jtagPins = s.jtagPins := by rfl

/-! `State.counted` -/

@[simp] theorem State.counted_pending (k c : Nat) : (s.counted k c).pending = s.pending := by rfl
@[simp] theorem State.counted_time (k c : Nat) : (s.counted k c).time = s.time := by rfl
@[simp] theorem State.counted_freeCtr (k c : Nat) : (s.counted k c).freeCtr = s.freeCtr := by rfl
@[simp] theorem State.counted_boot (k c : Nat) : (s.counted k c).boot = s.boot := by rfl
@[simp] theorem State.counted_regs (k c : Nat) : (s.counted k c).regs = s.regs := by rfl
@[simp] theorem State.counted_staged (k c : Nat) : (s.counted k c).staged = s.staged := by rfl
@[simp] theorem State.counted_marks (k c : Nat) : (s.counted k c).marks = s.marks := by rfl
@[simp] theorem State.counted_out (k c : Nat) : (s.counted k c).out = s.out := by rfl
@[simp] theorem State.counted_isl (k c : Nat) : (s.counted k c).isl = s.isl := by rfl
@[simp] theorem State.counted_clocks (k c : Nat) : (s.counted k c).clocks = s.clocks := by rfl
@[simp] theorem State.counted_xing (k c : Nat) : (s.counted k c).xing = s.xing := by rfl
@[simp] theorem State.counted_lost (k c : Nat) : (s.counted k c).lost = s.lost := by rfl
@[simp] theorem State.counted_early (k c : Nat) : (s.counted k c).early = s.early := by rfl
@[simp] theorem State.counted_regions (k c : Nat) : (s.counted k c).regions = s.regions := by rfl
@[simp] theorem State.counted_tenants (k c : Nat) : (s.counted k c).tenants = s.tenants := by rfl
@[simp] theorem State.counted_ddr (k c : Nat) : (s.counted k c).ddr = s.ddr := by rfl
@[simp] theorem State.counted_poison (k c : Nat) : (s.counted k c).poison = s.poison := by rfl
@[simp] theorem State.counted_pst (k c : Nat) : (s.counted k c).pst = s.pst := by rfl
@[simp] theorem State.counted_hst (k c : Nat) : (s.counted k c).hst = s.hst := by rfl
@[simp] theorem State.counted_phl (k c : Nat) : (s.counted k c).phl = s.phl := by rfl
@[simp] theorem State.counted_dst (k c : Nat) : (s.counted k c).dst = s.dst := by rfl
@[simp] theorem State.counted_mod (k c : Nat) : (s.counted k c).mod = s.mod := by rfl
@[simp] theorem State.counted_seq (k c : Nat) : (s.counted k c).seq = s.seq := by rfl
@[simp] theorem State.counted_contrail (k c : Nat) : (s.counted k c).contrail = s.contrail := by rfl
@[simp] theorem State.counted_nc (k c : Nat) : (s.counted k c).nc = s.nc := by rfl
@[simp] theorem State.counted_tir (k c : Nat) : (s.counted k c).tir = s.tir := by rfl
@[simp] theorem State.counted_cip (k c : Nat) : (s.counted k c).cip = s.cip := by rfl
@[simp] theorem State.counted_fab (k c : Nat) : (s.counted k c).fab = s.fab := by rfl
@[simp] theorem State.counted_mem (k c : Nat) : (s.counted k c).mem = s.mem := by rfl
@[simp] theorem State.counted_cal (k c : Nat) : (s.counted k c).cal = s.cal := by rfl
@[simp] theorem State.counted_cfl (k c : Nat) : (s.counted k c).cfl = s.cfl := by rfl
@[simp] theorem State.counted_lps (k c : Nat) : (s.counted k c).lps = s.lps := by rfl
@[simp] theorem State.counted_dbg (k c : Nat) : (s.counted k c).dbg = s.dbg := by rfl
@[simp] theorem State.counted_svc (k c : Nat) : (s.counted k c).svc = s.svc := by rfl
@[simp] theorem State.counted_eid (k c : Nat) : (s.counted k c).eid = s.eid := by rfl
@[simp] theorem State.counted_jtagPins (k c : Nat) : (s.counted k c).jtagPins = s.jtagPins := by rfl

/-! `State.updPhl` -/

@[simp] theorem State.updPhl_pending (f : PhlState → PhlState) : (s.updPhl f).pending = s.pending := by rfl
@[simp] theorem State.updPhl_time (f : PhlState → PhlState) : (s.updPhl f).time = s.time := by rfl
@[simp] theorem State.updPhl_freeCtr (f : PhlState → PhlState) : (s.updPhl f).freeCtr = s.freeCtr := by rfl
@[simp] theorem State.updPhl_boot (f : PhlState → PhlState) : (s.updPhl f).boot = s.boot := by rfl
@[simp] theorem State.updPhl_regs (f : PhlState → PhlState) : (s.updPhl f).regs = s.regs := by rfl
@[simp] theorem State.updPhl_staged (f : PhlState → PhlState) : (s.updPhl f).staged = s.staged := by rfl
@[simp] theorem State.updPhl_marks (f : PhlState → PhlState) : (s.updPhl f).marks = s.marks := by rfl
@[simp] theorem State.updPhl_out (f : PhlState → PhlState) : (s.updPhl f).out = s.out := by rfl
@[simp] theorem State.updPhl_isl (f : PhlState → PhlState) : (s.updPhl f).isl = s.isl := by rfl
@[simp] theorem State.updPhl_clocks (f : PhlState → PhlState) : (s.updPhl f).clocks = s.clocks := by rfl
@[simp] theorem State.updPhl_xing (f : PhlState → PhlState) : (s.updPhl f).xing = s.xing := by rfl
@[simp] theorem State.updPhl_lost (f : PhlState → PhlState) : (s.updPhl f).lost = s.lost := by rfl
@[simp] theorem State.updPhl_early (f : PhlState → PhlState) : (s.updPhl f).early = s.early := by rfl
@[simp] theorem State.updPhl_regions (f : PhlState → PhlState) : (s.updPhl f).regions = s.regions := by rfl
@[simp] theorem State.updPhl_tenants (f : PhlState → PhlState) : (s.updPhl f).tenants = s.tenants := by rfl
@[simp] theorem State.updPhl_ddr (f : PhlState → PhlState) : (s.updPhl f).ddr = s.ddr := by rfl
@[simp] theorem State.updPhl_poison (f : PhlState → PhlState) : (s.updPhl f).poison = s.poison := by rfl
@[simp] theorem State.updPhl_pst (f : PhlState → PhlState) : (s.updPhl f).pst = s.pst := by rfl
@[simp] theorem State.updPhl_hst (f : PhlState → PhlState) : (s.updPhl f).hst = s.hst := by rfl
@[simp] theorem State.updPhl_phl (f : PhlState → PhlState) : (s.updPhl f).phl = f s.phl := by rfl
@[simp] theorem State.updPhl_dst (f : PhlState → PhlState) : (s.updPhl f).dst = s.dst := by rfl
@[simp] theorem State.updPhl_pe (f : PhlState → PhlState) : (s.updPhl f).pe = s.pe := by rfl
@[simp] theorem State.updPhl_mod (f : PhlState → PhlState) : (s.updPhl f).mod = s.mod := by rfl
@[simp] theorem State.updPhl_seq (f : PhlState → PhlState) : (s.updPhl f).seq = s.seq := by rfl
@[simp] theorem State.updPhl_contrail (f : PhlState → PhlState) : (s.updPhl f).contrail = s.contrail := by rfl
@[simp] theorem State.updPhl_nc (f : PhlState → PhlState) : (s.updPhl f).nc = s.nc := by rfl
@[simp] theorem State.updPhl_tir (f : PhlState → PhlState) : (s.updPhl f).tir = s.tir := by rfl
@[simp] theorem State.updPhl_cip (f : PhlState → PhlState) : (s.updPhl f).cip = s.cip := by rfl
@[simp] theorem State.updPhl_fab (f : PhlState → PhlState) : (s.updPhl f).fab = s.fab := by rfl
@[simp] theorem State.updPhl_mem (f : PhlState → PhlState) : (s.updPhl f).mem = s.mem := by rfl
@[simp] theorem State.updPhl_cal (f : PhlState → PhlState) : (s.updPhl f).cal = s.cal := by rfl
@[simp] theorem State.updPhl_cfl (f : PhlState → PhlState) : (s.updPhl f).cfl = s.cfl := by rfl
@[simp] theorem State.updPhl_lps (f : PhlState → PhlState) : (s.updPhl f).lps = s.lps := by rfl
@[simp] theorem State.updPhl_dbg (f : PhlState → PhlState) : (s.updPhl f).dbg = s.dbg := by rfl
@[simp] theorem State.updPhl_svc (f : PhlState → PhlState) : (s.updPhl f).svc = s.svc := by rfl
@[simp] theorem State.updPhl_eid (f : PhlState → PhlState) : (s.updPhl f).eid = s.eid := by rfl
@[simp] theorem State.updPhl_jtagPins (f : PhlState → PhlState) : (s.updPhl f).jtagPins = s.jtagPins := by rfl

/-! `State.numberFrame` -/

@[simp] theorem State.numberFrame_pending (f : Frame) : (s.numberFrame f).pending = s.pending := by rfl
@[simp] theorem State.numberFrame_time (f : Frame) : (s.numberFrame f).time = s.time := by rfl
@[simp] theorem State.numberFrame_freeCtr (f : Frame) : (s.numberFrame f).freeCtr = s.freeCtr := by rfl
@[simp] theorem State.numberFrame_boot (f : Frame) : (s.numberFrame f).boot = s.boot := by rfl
@[simp] theorem State.numberFrame_regs (f : Frame) : (s.numberFrame f).regs = s.regs := by rfl
@[simp] theorem State.numberFrame_staged (f : Frame) : (s.numberFrame f).staged = s.staged := by rfl
@[simp] theorem State.numberFrame_marks (f : Frame) : (s.numberFrame f).marks = s.marks := by rfl
@[simp] theorem State.numberFrame_out (f : Frame) : (s.numberFrame f).out = s.out := by rfl
@[simp] theorem State.numberFrame_isl (f : Frame) : (s.numberFrame f).isl = s.isl := by rfl
@[simp] theorem State.numberFrame_clocks (f : Frame) : (s.numberFrame f).clocks = s.clocks := by rfl
@[simp] theorem State.numberFrame_xing (f : Frame) : (s.numberFrame f).xing = s.xing := by rfl
@[simp] theorem State.numberFrame_lost (f : Frame) : (s.numberFrame f).lost = s.lost := by rfl
@[simp] theorem State.numberFrame_early (f : Frame) : (s.numberFrame f).early = s.early := by rfl
@[simp] theorem State.numberFrame_regions (f : Frame) : (s.numberFrame f).regions = s.regions := by rfl
@[simp] theorem State.numberFrame_tenants (f : Frame) : (s.numberFrame f).tenants = s.tenants := by rfl
@[simp] theorem State.numberFrame_ddr (f : Frame) : (s.numberFrame f).ddr = s.ddr := by rfl
@[simp] theorem State.numberFrame_poison (f : Frame) : (s.numberFrame f).poison = s.poison := by rfl
@[simp] theorem State.numberFrame_pst (f : Frame) : (s.numberFrame f).pst = s.pst := by rfl
@[simp] theorem State.numberFrame_hst (f : Frame) : (s.numberFrame f).hst = s.hst := by rfl
@[simp] theorem State.numberFrame_dst (f : Frame) : (s.numberFrame f).dst = s.dst := by rfl
@[simp] theorem State.numberFrame_pe (f : Frame) : (s.numberFrame f).pe = s.pe := by rfl
@[simp] theorem State.numberFrame_mod (f : Frame) : (s.numberFrame f).mod = s.mod := by rfl
@[simp] theorem State.numberFrame_seq (f : Frame) : (s.numberFrame f).seq = s.seq := by rfl
@[simp] theorem State.numberFrame_contrail (f : Frame) : (s.numberFrame f).contrail = s.contrail := by rfl
@[simp] theorem State.numberFrame_nc (f : Frame) : (s.numberFrame f).nc = s.nc := by rfl
@[simp] theorem State.numberFrame_tir (f : Frame) : (s.numberFrame f).tir = s.tir := by rfl
@[simp] theorem State.numberFrame_cip (f : Frame) : (s.numberFrame f).cip = s.cip := by rfl
@[simp] theorem State.numberFrame_fab (f : Frame) : (s.numberFrame f).fab = s.fab := by rfl
@[simp] theorem State.numberFrame_mem (f : Frame) : (s.numberFrame f).mem = s.mem := by rfl
@[simp] theorem State.numberFrame_cal (f : Frame) : (s.numberFrame f).cal = s.cal := by rfl
@[simp] theorem State.numberFrame_cfl (f : Frame) : (s.numberFrame f).cfl = s.cfl := by rfl
@[simp] theorem State.numberFrame_lps (f : Frame) : (s.numberFrame f).lps = s.lps := by rfl
@[simp] theorem State.numberFrame_dbg (f : Frame) : (s.numberFrame f).dbg = s.dbg := by rfl
@[simp] theorem State.numberFrame_svc (f : Frame) : (s.numberFrame f).svc = s.svc := by rfl
@[simp] theorem State.numberFrame_eid (f : Frame) : (s.numberFrame f).eid = s.eid := by rfl
@[simp] theorem State.numberFrame_jtagPins (f : Frame) : (s.numberFrame f).jtagPins = s.jtagPins := by rfl

/-! `State.sendFrames` -/

/-- Sending the oldest frame that waits touches the link side and what goes out. -/
theorem State.sendNext_eq : ∃ p o, s.sendNext = { s with phl := p, out := o } := by
  unfold State.sendNext
  split
  · split
    · exact ⟨_, _, rfl⟩
    · exact ⟨s.phl, s.out, rfl⟩
  · exact ⟨s.phl, s.out, rfl⟩

theorem State.sendWaiting_eq (k : Nat) : ∀ s : State, ∃ p o, s.sendWaiting k = { s with phl := p, out := o } := by
  induction k with
  | zero => exact fun s => ⟨s.phl, s.out, rfl⟩
  | succ k ih =>
    intro s
    obtain ⟨p, o, h⟩ := s.sendNext_eq
    obtain ⟨q, r, g⟩ := ih s.sendNext
    exact ⟨q, r, by rw [State.sendWaiting, g, h]⟩

/-- Sending touches the link side and what goes out, and nothing else. -/
theorem State.sendFrames_eq : ∃ p o, s.sendFrames = { s with phl := p, out := o } := State.sendWaiting_eq _ s

@[simp] theorem State.sendFrames_pending : s.sendFrames.pending = s.pending := by obtain ⟨_, _, h⟩ := s.sendFrames_eq; rw [h]
@[simp] theorem State.sendFrames_time : s.sendFrames.time = s.time := by obtain ⟨_, _, h⟩ := s.sendFrames_eq; rw [h]
@[simp] theorem State.sendFrames_freeCtr : s.sendFrames.freeCtr = s.freeCtr := by obtain ⟨_, _, h⟩ := s.sendFrames_eq; rw [h]
@[simp] theorem State.sendFrames_boot : s.sendFrames.boot = s.boot := by obtain ⟨_, _, h⟩ := s.sendFrames_eq; rw [h]
@[simp] theorem State.sendFrames_regs : s.sendFrames.regs = s.regs := by obtain ⟨_, _, h⟩ := s.sendFrames_eq; rw [h]
@[simp] theorem State.sendFrames_staged : s.sendFrames.staged = s.staged := by obtain ⟨_, _, h⟩ := s.sendFrames_eq; rw [h]
@[simp] theorem State.sendFrames_marks : s.sendFrames.marks = s.marks := by obtain ⟨_, _, h⟩ := s.sendFrames_eq; rw [h]
@[simp] theorem State.sendFrames_isl : s.sendFrames.isl = s.isl := by obtain ⟨_, _, h⟩ := s.sendFrames_eq; rw [h]
@[simp] theorem State.sendFrames_clocks : s.sendFrames.clocks = s.clocks := by obtain ⟨_, _, h⟩ := s.sendFrames_eq; rw [h]
@[simp] theorem State.sendFrames_xing : s.sendFrames.xing = s.xing := by obtain ⟨_, _, h⟩ := s.sendFrames_eq; rw [h]
@[simp] theorem State.sendFrames_lost : s.sendFrames.lost = s.lost := by obtain ⟨_, _, h⟩ := s.sendFrames_eq; rw [h]
@[simp] theorem State.sendFrames_early : s.sendFrames.early = s.early := by obtain ⟨_, _, h⟩ := s.sendFrames_eq; rw [h]
@[simp] theorem State.sendFrames_regions : s.sendFrames.regions = s.regions := by obtain ⟨_, _, h⟩ := s.sendFrames_eq; rw [h]
@[simp] theorem State.sendFrames_tenants : s.sendFrames.tenants = s.tenants := by obtain ⟨_, _, h⟩ := s.sendFrames_eq; rw [h]
@[simp] theorem State.sendFrames_ddr : s.sendFrames.ddr = s.ddr := by obtain ⟨_, _, h⟩ := s.sendFrames_eq; rw [h]
@[simp] theorem State.sendFrames_poison : s.sendFrames.poison = s.poison := by obtain ⟨_, _, h⟩ := s.sendFrames_eq; rw [h]
@[simp] theorem State.sendFrames_pst : s.sendFrames.pst = s.pst := by obtain ⟨_, _, h⟩ := s.sendFrames_eq; rw [h]
@[simp] theorem State.sendFrames_hst : s.sendFrames.hst = s.hst := by obtain ⟨_, _, h⟩ := s.sendFrames_eq; rw [h]
@[simp] theorem State.sendFrames_dst : s.sendFrames.dst = s.dst := by obtain ⟨_, _, h⟩ := s.sendFrames_eq; rw [h]
@[simp] theorem State.sendFrames_pe : s.sendFrames.pe = s.pe := by obtain ⟨_, _, h⟩ := s.sendFrames_eq; rw [h]
@[simp] theorem State.sendFrames_mod : s.sendFrames.mod = s.mod := by obtain ⟨_, _, h⟩ := s.sendFrames_eq; rw [h]
@[simp] theorem State.sendFrames_seq : s.sendFrames.seq = s.seq := by obtain ⟨_, _, h⟩ := s.sendFrames_eq; rw [h]
@[simp] theorem State.sendFrames_contrail : s.sendFrames.contrail = s.contrail := by obtain ⟨_, _, h⟩ := s.sendFrames_eq; rw [h]
@[simp] theorem State.sendFrames_nc : s.sendFrames.nc = s.nc := by obtain ⟨_, _, h⟩ := s.sendFrames_eq; rw [h]
@[simp] theorem State.sendFrames_tir : s.sendFrames.tir = s.tir := by obtain ⟨_, _, h⟩ := s.sendFrames_eq; rw [h]
@[simp] theorem State.sendFrames_cip : s.sendFrames.cip = s.cip := by obtain ⟨_, _, h⟩ := s.sendFrames_eq; rw [h]
@[simp] theorem State.sendFrames_fab : s.sendFrames.fab = s.fab := by obtain ⟨_, _, h⟩ := s.sendFrames_eq; rw [h]
@[simp] theorem State.sendFrames_mem : s.sendFrames.mem = s.mem := by obtain ⟨_, _, h⟩ := s.sendFrames_eq; rw [h]
@[simp] theorem State.sendFrames_cal : s.sendFrames.cal = s.cal := by obtain ⟨_, _, h⟩ := s.sendFrames_eq; rw [h]
@[simp] theorem State.sendFrames_cfl : s.sendFrames.cfl = s.cfl := by obtain ⟨_, _, h⟩ := s.sendFrames_eq; rw [h]
@[simp] theorem State.sendFrames_lps : s.sendFrames.lps = s.lps := by obtain ⟨_, _, h⟩ := s.sendFrames_eq; rw [h]
@[simp] theorem State.sendFrames_dbg : s.sendFrames.dbg = s.dbg := by obtain ⟨_, _, h⟩ := s.sendFrames_eq; rw [h]
@[simp] theorem State.sendFrames_svc : s.sendFrames.svc = s.svc := by obtain ⟨_, _, h⟩ := s.sendFrames_eq; rw [h]
@[simp] theorem State.sendFrames_eid : s.sendFrames.eid = s.eid := by obtain ⟨_, _, h⟩ := s.sendFrames_eq; rw [h]
@[simp] theorem State.sendFrames_jtagPins : s.sendFrames.jtagPins = s.jtagPins := by obtain ⟨_, _, h⟩ := s.sendFrames_eq; rw [h]

/-! `State.sendFrame` -/

@[simp] theorem State.sendFrame_pending (f : Frame) : (s.sendFrame f).pending = s.pending := by simp [State.sendFrame]
@[simp] theorem State.sendFrame_time (f : Frame) : (s.sendFrame f).time = s.time := by simp [State.sendFrame]
@[simp] theorem State.sendFrame_freeCtr (f : Frame) : (s.sendFrame f).freeCtr = s.freeCtr := by simp [State.sendFrame]
@[simp] theorem State.sendFrame_boot (f : Frame) : (s.sendFrame f).boot = s.boot := by simp [State.sendFrame]
@[simp] theorem State.sendFrame_staged (f : Frame) : (s.sendFrame f).staged = s.staged := by simp [State.sendFrame]
@[simp] theorem State.sendFrame_marks (f : Frame) : (s.sendFrame f).marks = s.marks := by simp [State.sendFrame]
@[simp] theorem State.sendFrame_isl (f : Frame) : (s.sendFrame f).isl = s.isl := by simp [State.sendFrame]
@[simp] theorem State.sendFrame_clocks (f : Frame) : (s.sendFrame f).clocks = s.clocks := by simp [State.sendFrame]
@[simp] theorem State.sendFrame_xing (f : Frame) : (s.sendFrame f).xing = s.xing := by simp [State.sendFrame]
@[simp] theorem State.sendFrame_lost (f : Frame) : (s.sendFrame f).lost = s.lost := by simp [State.sendFrame]
@[simp] theorem State.sendFrame_early (f : Frame) : (s.sendFrame f).early = s.early := by simp [State.sendFrame]
@[simp] theorem State.sendFrame_regions (f : Frame) : (s.sendFrame f).regions = s.regions := by simp [State.sendFrame]
@[simp] theorem State.sendFrame_tenants (f : Frame) : (s.sendFrame f).tenants = s.tenants := by simp [State.sendFrame]
@[simp] theorem State.sendFrame_ddr (f : Frame) : (s.sendFrame f).ddr = s.ddr := by simp [State.sendFrame]
@[simp] theorem State.sendFrame_poison (f : Frame) : (s.sendFrame f).poison = s.poison := by simp [State.sendFrame]
@[simp] theorem State.sendFrame_pst (f : Frame) : (s.sendFrame f).pst = s.pst := by simp [State.sendFrame]
@[simp] theorem State.sendFrame_hst (f : Frame) : (s.sendFrame f).hst = s.hst := by simp [State.sendFrame]
@[simp] theorem State.sendFrame_dst (f : Frame) : (s.sendFrame f).dst = s.dst := by simp [State.sendFrame]
@[simp] theorem State.sendFrame_pe (f : Frame) : (s.sendFrame f).pe = s.pe := by simp [State.sendFrame]
@[simp] theorem State.sendFrame_mod (f : Frame) : (s.sendFrame f).mod = s.mod := by simp [State.sendFrame]
@[simp] theorem State.sendFrame_seq (f : Frame) : (s.sendFrame f).seq = s.seq := by simp [State.sendFrame]
@[simp] theorem State.sendFrame_contrail (f : Frame) : (s.sendFrame f).contrail = s.contrail := by simp [State.sendFrame]
@[simp] theorem State.sendFrame_nc (f : Frame) : (s.sendFrame f).nc = s.nc := by simp [State.sendFrame]
@[simp] theorem State.sendFrame_tir (f : Frame) : (s.sendFrame f).tir = s.tir := by simp [State.sendFrame]
@[simp] theorem State.sendFrame_cip (f : Frame) : (s.sendFrame f).cip = s.cip := by simp [State.sendFrame]
@[simp] theorem State.sendFrame_fab (f : Frame) : (s.sendFrame f).fab = s.fab := by simp [State.sendFrame]
@[simp] theorem State.sendFrame_mem (f : Frame) : (s.sendFrame f).mem = s.mem := by simp [State.sendFrame]
@[simp] theorem State.sendFrame_cal (f : Frame) : (s.sendFrame f).cal = s.cal := by simp [State.sendFrame]
@[simp] theorem State.sendFrame_cfl (f : Frame) : (s.sendFrame f).cfl = s.cfl := by simp [State.sendFrame]
@[simp] theorem State.sendFrame_lps (f : Frame) : (s.sendFrame f).lps = s.lps := by simp [State.sendFrame]
@[simp] theorem State.sendFrame_dbg (f : Frame) : (s.sendFrame f).dbg = s.dbg := by simp [State.sendFrame]
@[simp] theorem State.sendFrame_svc (f : Frame) : (s.sendFrame f).svc = s.svc := by simp [State.sendFrame]
@[simp] theorem State.sendFrame_eid (f : Frame) : (s.sendFrame f).eid = s.eid := by simp [State.sendFrame]
@[simp] theorem State.sendFrame_jtagPins (f : Frame) : (s.sendFrame f).jtagPins = s.jtagPins := by simp [State.sendFrame]

/-! `State.updDst` -/

@[simp] theorem State.updDst_pending (f : DstState → DstState) : (s.updDst f).pending = s.pending := by rfl
@[simp] theorem State.updDst_time (f : DstState → DstState) : (s.updDst f).time = s.time := by rfl
@[simp] theorem State.updDst_freeCtr (f : DstState → DstState) : (s.updDst f).freeCtr = s.freeCtr := by rfl
@[simp] theorem State.updDst_boot (f : DstState → DstState) : (s.updDst f).boot = s.boot := by rfl
@[simp] theorem State.updDst_regs (f : DstState → DstState) : (s.updDst f).regs = s.regs := by rfl
@[simp] theorem State.updDst_staged (f : DstState → DstState) : (s.updDst f).staged = s.staged := by rfl
@[simp] theorem State.updDst_marks (f : DstState → DstState) : (s.updDst f).marks = s.marks := by rfl
@[simp] theorem State.updDst_out (f : DstState → DstState) : (s.updDst f).out = s.out := by rfl
@[simp] theorem State.updDst_isl (f : DstState → DstState) : (s.updDst f).isl = s.isl := by rfl
@[simp] theorem State.updDst_clocks (f : DstState → DstState) : (s.updDst f).clocks = s.clocks := by rfl
@[simp] theorem State.updDst_xing (f : DstState → DstState) : (s.updDst f).xing = s.xing := by rfl
@[simp] theorem State.updDst_lost (f : DstState → DstState) : (s.updDst f).lost = s.lost := by rfl
@[simp] theorem State.updDst_early (f : DstState → DstState) : (s.updDst f).early = s.early := by rfl
@[simp] theorem State.updDst_regions (f : DstState → DstState) : (s.updDst f).regions = s.regions := by rfl
@[simp] theorem State.updDst_tenants (f : DstState → DstState) : (s.updDst f).tenants = s.tenants := by rfl
@[simp] theorem State.updDst_ddr (f : DstState → DstState) : (s.updDst f).ddr = s.ddr := by rfl
@[simp] theorem State.updDst_poison (f : DstState → DstState) : (s.updDst f).poison = s.poison := by rfl
@[simp] theorem State.updDst_pst (f : DstState → DstState) : (s.updDst f).pst = s.pst := by rfl
@[simp] theorem State.updDst_hst (f : DstState → DstState) : (s.updDst f).hst = s.hst := by rfl
@[simp] theorem State.updDst_phl (f : DstState → DstState) : (s.updDst f).phl = s.phl := by rfl
@[simp] theorem State.updDst_dst (f : DstState → DstState) : (s.updDst f).dst = f s.dst := by rfl
@[simp] theorem State.updDst_pe (f : DstState → DstState) : (s.updDst f).pe = s.pe := by rfl
@[simp] theorem State.updDst_mod (f : DstState → DstState) : (s.updDst f).mod = s.mod := by rfl
@[simp] theorem State.updDst_seq (f : DstState → DstState) : (s.updDst f).seq = s.seq := by rfl
@[simp] theorem State.updDst_contrail (f : DstState → DstState) : (s.updDst f).contrail = s.contrail := by rfl
@[simp] theorem State.updDst_nc (f : DstState → DstState) : (s.updDst f).nc = s.nc := by rfl
@[simp] theorem State.updDst_tir (f : DstState → DstState) : (s.updDst f).tir = s.tir := by rfl
@[simp] theorem State.updDst_cip (f : DstState → DstState) : (s.updDst f).cip = s.cip := by rfl
@[simp] theorem State.updDst_fab (f : DstState → DstState) : (s.updDst f).fab = s.fab := by rfl
@[simp] theorem State.updDst_mem (f : DstState → DstState) : (s.updDst f).mem = s.mem := by rfl
@[simp] theorem State.updDst_cal (f : DstState → DstState) : (s.updDst f).cal = s.cal := by rfl
@[simp] theorem State.updDst_cfl (f : DstState → DstState) : (s.updDst f).cfl = s.cfl := by rfl
@[simp] theorem State.updDst_lps (f : DstState → DstState) : (s.updDst f).lps = s.lps := by rfl
@[simp] theorem State.updDst_dbg (f : DstState → DstState) : (s.updDst f).dbg = s.dbg := by rfl
@[simp] theorem State.updDst_svc (f : DstState → DstState) : (s.updDst f).svc = s.svc := by rfl
@[simp] theorem State.updDst_eid (f : DstState → DstState) : (s.updDst f).eid = s.eid := by rfl
@[simp] theorem State.updDst_jtagPins (f : DstState → DstState) : (s.updDst f).jtagPins = s.jtagPins := by rfl

/-! `State.updMod` -/

@[simp] theorem State.updMod_pending (f : ModState → ModState) : (s.updMod f).pending = s.pending := by rfl
@[simp] theorem State.updMod_time (f : ModState → ModState) : (s.updMod f).time = s.time := by rfl
@[simp] theorem State.updMod_freeCtr (f : ModState → ModState) : (s.updMod f).freeCtr = s.freeCtr := by rfl
@[simp] theorem State.updMod_boot (f : ModState → ModState) : (s.updMod f).boot = s.boot := by rfl
@[simp] theorem State.updMod_regs (f : ModState → ModState) : (s.updMod f).regs = s.regs := by rfl
@[simp] theorem State.updMod_staged (f : ModState → ModState) : (s.updMod f).staged = s.staged := by rfl
@[simp] theorem State.updMod_marks (f : ModState → ModState) : (s.updMod f).marks = s.marks := by rfl
@[simp] theorem State.updMod_out (f : ModState → ModState) : (s.updMod f).out = s.out := by rfl
@[simp] theorem State.updMod_isl (f : ModState → ModState) : (s.updMod f).isl = s.isl := by rfl
@[simp] theorem State.updMod_clocks (f : ModState → ModState) : (s.updMod f).clocks = s.clocks := by rfl
@[simp] theorem State.updMod_xing (f : ModState → ModState) : (s.updMod f).xing = s.xing := by rfl
@[simp] theorem State.updMod_lost (f : ModState → ModState) : (s.updMod f).lost = s.lost := by rfl
@[simp] theorem State.updMod_early (f : ModState → ModState) : (s.updMod f).early = s.early := by rfl
@[simp] theorem State.updMod_regions (f : ModState → ModState) : (s.updMod f).regions = s.regions := by rfl
@[simp] theorem State.updMod_tenants (f : ModState → ModState) : (s.updMod f).tenants = s.tenants := by rfl
@[simp] theorem State.updMod_ddr (f : ModState → ModState) : (s.updMod f).ddr = s.ddr := by rfl
@[simp] theorem State.updMod_poison (f : ModState → ModState) : (s.updMod f).poison = s.poison := by rfl
@[simp] theorem State.updMod_pst (f : ModState → ModState) : (s.updMod f).pst = s.pst := by rfl
@[simp] theorem State.updMod_hst (f : ModState → ModState) : (s.updMod f).hst = s.hst := by rfl
@[simp] theorem State.updMod_phl (f : ModState → ModState) : (s.updMod f).phl = s.phl := by rfl
@[simp] theorem State.updMod_dst (f : ModState → ModState) : (s.updMod f).dst = s.dst := by rfl
@[simp] theorem State.updMod_pe (f : ModState → ModState) : (s.updMod f).pe = s.pe := by rfl
@[simp] theorem State.updMod_mod (f : ModState → ModState) : (s.updMod f).mod = f s.mod := by rfl
@[simp] theorem State.updMod_seq (f : ModState → ModState) : (s.updMod f).seq = s.seq := by rfl
@[simp] theorem State.updMod_contrail (f : ModState → ModState) : (s.updMod f).contrail = s.contrail := by rfl
@[simp] theorem State.updMod_nc (f : ModState → ModState) : (s.updMod f).nc = s.nc := by rfl
@[simp] theorem State.updMod_tir (f : ModState → ModState) : (s.updMod f).tir = s.tir := by rfl
@[simp] theorem State.updMod_cip (f : ModState → ModState) : (s.updMod f).cip = s.cip := by rfl
@[simp] theorem State.updMod_fab (f : ModState → ModState) : (s.updMod f).fab = s.fab := by rfl
@[simp] theorem State.updMod_mem (f : ModState → ModState) : (s.updMod f).mem = s.mem := by rfl
@[simp] theorem State.updMod_cal (f : ModState → ModState) : (s.updMod f).cal = s.cal := by rfl
@[simp] theorem State.updMod_cfl (f : ModState → ModState) : (s.updMod f).cfl = s.cfl := by rfl
@[simp] theorem State.updMod_lps (f : ModState → ModState) : (s.updMod f).lps = s.lps := by rfl
@[simp] theorem State.updMod_dbg (f : ModState → ModState) : (s.updMod f).dbg = s.dbg := by rfl
@[simp] theorem State.updMod_svc (f : ModState → ModState) : (s.updMod f).svc = s.svc := by rfl
@[simp] theorem State.updMod_eid (f : ModState → ModState) : (s.updMod f).eid = s.eid := by rfl
@[simp] theorem State.updMod_jtagPins (f : ModState → ModState) : (s.updMod f).jtagPins = s.jtagPins := by rfl

/-! `State.updSeq` -/

@[simp] theorem State.updSeq_pending (f : SeqState → SeqState) : (s.updSeq f).pending = s.pending := by rfl
@[simp] theorem State.updSeq_time (f : SeqState → SeqState) : (s.updSeq f).time = s.time := by rfl
@[simp] theorem State.updSeq_freeCtr (f : SeqState → SeqState) : (s.updSeq f).freeCtr = s.freeCtr := by rfl
@[simp] theorem State.updSeq_boot (f : SeqState → SeqState) : (s.updSeq f).boot = s.boot := by rfl
@[simp] theorem State.updSeq_regs (f : SeqState → SeqState) : (s.updSeq f).regs = s.regs := by rfl
@[simp] theorem State.updSeq_staged (f : SeqState → SeqState) : (s.updSeq f).staged = s.staged := by rfl
@[simp] theorem State.updSeq_marks (f : SeqState → SeqState) : (s.updSeq f).marks = s.marks := by rfl
@[simp] theorem State.updSeq_out (f : SeqState → SeqState) : (s.updSeq f).out = s.out := by rfl
@[simp] theorem State.updSeq_isl (f : SeqState → SeqState) : (s.updSeq f).isl = s.isl := by rfl
@[simp] theorem State.updSeq_clocks (f : SeqState → SeqState) : (s.updSeq f).clocks = s.clocks := by rfl
@[simp] theorem State.updSeq_xing (f : SeqState → SeqState) : (s.updSeq f).xing = s.xing := by rfl
@[simp] theorem State.updSeq_lost (f : SeqState → SeqState) : (s.updSeq f).lost = s.lost := by rfl
@[simp] theorem State.updSeq_early (f : SeqState → SeqState) : (s.updSeq f).early = s.early := by rfl
@[simp] theorem State.updSeq_regions (f : SeqState → SeqState) : (s.updSeq f).regions = s.regions := by rfl
@[simp] theorem State.updSeq_tenants (f : SeqState → SeqState) : (s.updSeq f).tenants = s.tenants := by rfl
@[simp] theorem State.updSeq_ddr (f : SeqState → SeqState) : (s.updSeq f).ddr = s.ddr := by rfl
@[simp] theorem State.updSeq_poison (f : SeqState → SeqState) : (s.updSeq f).poison = s.poison := by rfl
@[simp] theorem State.updSeq_pst (f : SeqState → SeqState) : (s.updSeq f).pst = s.pst := by rfl
@[simp] theorem State.updSeq_hst (f : SeqState → SeqState) : (s.updSeq f).hst = s.hst := by rfl
@[simp] theorem State.updSeq_phl (f : SeqState → SeqState) : (s.updSeq f).phl = s.phl := by rfl
@[simp] theorem State.updSeq_dst (f : SeqState → SeqState) : (s.updSeq f).dst = s.dst := by rfl
@[simp] theorem State.updSeq_pe (f : SeqState → SeqState) : (s.updSeq f).pe = s.pe := by rfl
@[simp] theorem State.updSeq_mod (f : SeqState → SeqState) : (s.updSeq f).mod = s.mod := by rfl
@[simp] theorem State.updSeq_seq (f : SeqState → SeqState) : (s.updSeq f).seq = f s.seq := by rfl
@[simp] theorem State.updSeq_contrail (f : SeqState → SeqState) : (s.updSeq f).contrail = s.contrail := by rfl
@[simp] theorem State.updSeq_nc (f : SeqState → SeqState) : (s.updSeq f).nc = s.nc := by rfl
@[simp] theorem State.updSeq_tir (f : SeqState → SeqState) : (s.updSeq f).tir = s.tir := by rfl
@[simp] theorem State.updSeq_cip (f : SeqState → SeqState) : (s.updSeq f).cip = s.cip := by rfl
@[simp] theorem State.updSeq_fab (f : SeqState → SeqState) : (s.updSeq f).fab = s.fab := by rfl
@[simp] theorem State.updSeq_mem (f : SeqState → SeqState) : (s.updSeq f).mem = s.mem := by rfl
@[simp] theorem State.updSeq_cal (f : SeqState → SeqState) : (s.updSeq f).cal = s.cal := by rfl
@[simp] theorem State.updSeq_cfl (f : SeqState → SeqState) : (s.updSeq f).cfl = s.cfl := by rfl
@[simp] theorem State.updSeq_lps (f : SeqState → SeqState) : (s.updSeq f).lps = s.lps := by rfl
@[simp] theorem State.updSeq_dbg (f : SeqState → SeqState) : (s.updSeq f).dbg = s.dbg := by rfl
@[simp] theorem State.updSeq_svc (f : SeqState → SeqState) : (s.updSeq f).svc = s.svc := by rfl
@[simp] theorem State.updSeq_eid (f : SeqState → SeqState) : (s.updSeq f).eid = s.eid := by rfl
@[simp] theorem State.updSeq_jtagPins (f : SeqState → SeqState) : (s.updSeq f).jtagPins = s.jtagPins := by rfl

/-! `State.updRec` -/

@[simp] theorem State.updRec_pending (f : RecState → RecState) : (s.updRec f).pending = s.pending := by rfl
@[simp] theorem State.updRec_time (f : RecState → RecState) : (s.updRec f).time = s.time := by rfl
@[simp] theorem State.updRec_freeCtr (f : RecState → RecState) : (s.updRec f).freeCtr = s.freeCtr := by rfl
@[simp] theorem State.updRec_boot (f : RecState → RecState) : (s.updRec f).boot = s.boot := by rfl
@[simp] theorem State.updRec_regs (f : RecState → RecState) : (s.updRec f).regs = s.regs := by rfl
@[simp] theorem State.updRec_staged (f : RecState → RecState) : (s.updRec f).staged = s.staged := by rfl
@[simp] theorem State.updRec_marks (f : RecState → RecState) : (s.updRec f).marks = s.marks := by rfl
@[simp] theorem State.updRec_out (f : RecState → RecState) : (s.updRec f).out = s.out := by rfl
@[simp] theorem State.updRec_isl (f : RecState → RecState) : (s.updRec f).isl = s.isl := by rfl
@[simp] theorem State.updRec_clocks (f : RecState → RecState) : (s.updRec f).clocks = s.clocks := by rfl
@[simp] theorem State.updRec_xing (f : RecState → RecState) : (s.updRec f).xing = s.xing := by rfl
@[simp] theorem State.updRec_lost (f : RecState → RecState) : (s.updRec f).lost = s.lost := by rfl
@[simp] theorem State.updRec_early (f : RecState → RecState) : (s.updRec f).early = s.early := by rfl
@[simp] theorem State.updRec_regions (f : RecState → RecState) : (s.updRec f).regions = s.regions := by rfl
@[simp] theorem State.updRec_tenants (f : RecState → RecState) : (s.updRec f).tenants = s.tenants := by rfl
@[simp] theorem State.updRec_ddr (f : RecState → RecState) : (s.updRec f).ddr = s.ddr := by rfl
@[simp] theorem State.updRec_poison (f : RecState → RecState) : (s.updRec f).poison = s.poison := by rfl
@[simp] theorem State.updRec_pst (f : RecState → RecState) : (s.updRec f).pst = s.pst := by rfl
@[simp] theorem State.updRec_hst (f : RecState → RecState) : (s.updRec f).hst = s.hst := by rfl
@[simp] theorem State.updRec_phl (f : RecState → RecState) : (s.updRec f).phl = s.phl := by rfl
@[simp] theorem State.updRec_dst (f : RecState → RecState) : (s.updRec f).dst = s.dst := by rfl
@[simp] theorem State.updRec_pe (f : RecState → RecState) : (s.updRec f).pe = s.pe := by rfl
@[simp] theorem State.updRec_mod (f : RecState → RecState) : (s.updRec f).mod = s.mod := by rfl
@[simp] theorem State.updRec_seq (f : RecState → RecState) : (s.updRec f).seq = s.seq := by rfl
@[simp] theorem State.updRec_contrail (f : RecState → RecState) : (s.updRec f).contrail = f s.contrail := by rfl
@[simp] theorem State.updRec_nc (f : RecState → RecState) : (s.updRec f).nc = s.nc := by rfl
@[simp] theorem State.updRec_tir (f : RecState → RecState) : (s.updRec f).tir = s.tir := by rfl
@[simp] theorem State.updRec_cip (f : RecState → RecState) : (s.updRec f).cip = s.cip := by rfl
@[simp] theorem State.updRec_fab (f : RecState → RecState) : (s.updRec f).fab = s.fab := by rfl
@[simp] theorem State.updRec_mem (f : RecState → RecState) : (s.updRec f).mem = s.mem := by rfl
@[simp] theorem State.updRec_cal (f : RecState → RecState) : (s.updRec f).cal = s.cal := by rfl
@[simp] theorem State.updRec_cfl (f : RecState → RecState) : (s.updRec f).cfl = s.cfl := by rfl
@[simp] theorem State.updRec_lps (f : RecState → RecState) : (s.updRec f).lps = s.lps := by rfl
@[simp] theorem State.updRec_dbg (f : RecState → RecState) : (s.updRec f).dbg = s.dbg := by rfl
@[simp] theorem State.updRec_svc (f : RecState → RecState) : (s.updRec f).svc = s.svc := by rfl
@[simp] theorem State.updRec_eid (f : RecState → RecState) : (s.updRec f).eid = s.eid := by rfl
@[simp] theorem State.updRec_jtagPins (f : RecState → RecState) : (s.updRec f).jtagPins = s.jtagPins := by rfl

/-! `State.updNc` -/

@[simp] theorem State.updNc_pending (f : NcState → NcState) : (s.updNc f).pending = s.pending := by rfl
@[simp] theorem State.updNc_time (f : NcState → NcState) : (s.updNc f).time = s.time := by rfl
@[simp] theorem State.updNc_freeCtr (f : NcState → NcState) : (s.updNc f).freeCtr = s.freeCtr := by rfl
@[simp] theorem State.updNc_boot (f : NcState → NcState) : (s.updNc f).boot = s.boot := by rfl
@[simp] theorem State.updNc_regs (f : NcState → NcState) : (s.updNc f).regs = s.regs := by rfl
@[simp] theorem State.updNc_staged (f : NcState → NcState) : (s.updNc f).staged = s.staged := by rfl
@[simp] theorem State.updNc_marks (f : NcState → NcState) : (s.updNc f).marks = s.marks := by rfl
@[simp] theorem State.updNc_out (f : NcState → NcState) : (s.updNc f).out = s.out := by rfl
@[simp] theorem State.updNc_isl (f : NcState → NcState) : (s.updNc f).isl = s.isl := by rfl
@[simp] theorem State.updNc_clocks (f : NcState → NcState) : (s.updNc f).clocks = s.clocks := by rfl
@[simp] theorem State.updNc_xing (f : NcState → NcState) : (s.updNc f).xing = s.xing := by rfl
@[simp] theorem State.updNc_lost (f : NcState → NcState) : (s.updNc f).lost = s.lost := by rfl
@[simp] theorem State.updNc_early (f : NcState → NcState) : (s.updNc f).early = s.early := by rfl
@[simp] theorem State.updNc_regions (f : NcState → NcState) : (s.updNc f).regions = s.regions := by rfl
@[simp] theorem State.updNc_tenants (f : NcState → NcState) : (s.updNc f).tenants = s.tenants := by rfl
@[simp] theorem State.updNc_ddr (f : NcState → NcState) : (s.updNc f).ddr = s.ddr := by rfl
@[simp] theorem State.updNc_poison (f : NcState → NcState) : (s.updNc f).poison = s.poison := by rfl
@[simp] theorem State.updNc_pst (f : NcState → NcState) : (s.updNc f).pst = s.pst := by rfl
@[simp] theorem State.updNc_hst (f : NcState → NcState) : (s.updNc f).hst = s.hst := by rfl
@[simp] theorem State.updNc_phl (f : NcState → NcState) : (s.updNc f).phl = s.phl := by rfl
@[simp] theorem State.updNc_dst (f : NcState → NcState) : (s.updNc f).dst = s.dst := by rfl
@[simp] theorem State.updNc_pe (f : NcState → NcState) : (s.updNc f).pe = s.pe := by rfl
@[simp] theorem State.updNc_mod (f : NcState → NcState) : (s.updNc f).mod = s.mod := by rfl
@[simp] theorem State.updNc_seq (f : NcState → NcState) : (s.updNc f).seq = s.seq := by rfl
@[simp] theorem State.updNc_contrail (f : NcState → NcState) : (s.updNc f).contrail = s.contrail := by rfl
@[simp] theorem State.updNc_nc (f : NcState → NcState) : (s.updNc f).nc = f s.nc := by rfl
@[simp] theorem State.updNc_tir (f : NcState → NcState) : (s.updNc f).tir = s.tir := by rfl
@[simp] theorem State.updNc_cip (f : NcState → NcState) : (s.updNc f).cip = s.cip := by rfl
@[simp] theorem State.updNc_fab (f : NcState → NcState) : (s.updNc f).fab = s.fab := by rfl
@[simp] theorem State.updNc_mem (f : NcState → NcState) : (s.updNc f).mem = s.mem := by rfl
@[simp] theorem State.updNc_cal (f : NcState → NcState) : (s.updNc f).cal = s.cal := by rfl
@[simp] theorem State.updNc_cfl (f : NcState → NcState) : (s.updNc f).cfl = s.cfl := by rfl
@[simp] theorem State.updNc_lps (f : NcState → NcState) : (s.updNc f).lps = s.lps := by rfl
@[simp] theorem State.updNc_dbg (f : NcState → NcState) : (s.updNc f).dbg = s.dbg := by rfl
@[simp] theorem State.updNc_svc (f : NcState → NcState) : (s.updNc f).svc = s.svc := by rfl
@[simp] theorem State.updNc_eid (f : NcState → NcState) : (s.updNc f).eid = s.eid := by rfl
@[simp] theorem State.updNc_jtagPins (f : NcState → NcState) : (s.updNc f).jtagPins = s.jtagPins := by rfl

/-! `State.updTir` -/

@[simp] theorem State.updTir_pending (f : TirState → TirState) : (s.updTir f).pending = s.pending := by rfl
@[simp] theorem State.updTir_time (f : TirState → TirState) : (s.updTir f).time = s.time := by rfl
@[simp] theorem State.updTir_freeCtr (f : TirState → TirState) : (s.updTir f).freeCtr = s.freeCtr := by rfl
@[simp] theorem State.updTir_boot (f : TirState → TirState) : (s.updTir f).boot = s.boot := by rfl
@[simp] theorem State.updTir_regs (f : TirState → TirState) : (s.updTir f).regs = s.regs := by rfl
@[simp] theorem State.updTir_staged (f : TirState → TirState) : (s.updTir f).staged = s.staged := by rfl
@[simp] theorem State.updTir_marks (f : TirState → TirState) : (s.updTir f).marks = s.marks := by rfl
@[simp] theorem State.updTir_out (f : TirState → TirState) : (s.updTir f).out = s.out := by rfl
@[simp] theorem State.updTir_isl (f : TirState → TirState) : (s.updTir f).isl = s.isl := by rfl
@[simp] theorem State.updTir_clocks (f : TirState → TirState) : (s.updTir f).clocks = s.clocks := by rfl
@[simp] theorem State.updTir_xing (f : TirState → TirState) : (s.updTir f).xing = s.xing := by rfl
@[simp] theorem State.updTir_lost (f : TirState → TirState) : (s.updTir f).lost = s.lost := by rfl
@[simp] theorem State.updTir_early (f : TirState → TirState) : (s.updTir f).early = s.early := by rfl
@[simp] theorem State.updTir_regions (f : TirState → TirState) : (s.updTir f).regions = s.regions := by rfl
@[simp] theorem State.updTir_tenants (f : TirState → TirState) : (s.updTir f).tenants = s.tenants := by rfl
@[simp] theorem State.updTir_ddr (f : TirState → TirState) : (s.updTir f).ddr = s.ddr := by rfl
@[simp] theorem State.updTir_poison (f : TirState → TirState) : (s.updTir f).poison = s.poison := by rfl
@[simp] theorem State.updTir_pst (f : TirState → TirState) : (s.updTir f).pst = s.pst := by rfl
@[simp] theorem State.updTir_hst (f : TirState → TirState) : (s.updTir f).hst = s.hst := by rfl
@[simp] theorem State.updTir_phl (f : TirState → TirState) : (s.updTir f).phl = s.phl := by rfl
@[simp] theorem State.updTir_dst (f : TirState → TirState) : (s.updTir f).dst = s.dst := by rfl
@[simp] theorem State.updTir_pe (f : TirState → TirState) : (s.updTir f).pe = s.pe := by rfl
@[simp] theorem State.updTir_mod (f : TirState → TirState) : (s.updTir f).mod = s.mod := by rfl
@[simp] theorem State.updTir_seq (f : TirState → TirState) : (s.updTir f).seq = s.seq := by rfl
@[simp] theorem State.updTir_contrail (f : TirState → TirState) : (s.updTir f).contrail = s.contrail := by rfl
@[simp] theorem State.updTir_nc (f : TirState → TirState) : (s.updTir f).nc = s.nc := by rfl
@[simp] theorem State.updTir_tir (f : TirState → TirState) : (s.updTir f).tir = f s.tir := by rfl
@[simp] theorem State.updTir_cip (f : TirState → TirState) : (s.updTir f).cip = s.cip := by rfl
@[simp] theorem State.updTir_fab (f : TirState → TirState) : (s.updTir f).fab = s.fab := by rfl
@[simp] theorem State.updTir_mem (f : TirState → TirState) : (s.updTir f).mem = s.mem := by rfl
@[simp] theorem State.updTir_cal (f : TirState → TirState) : (s.updTir f).cal = s.cal := by rfl
@[simp] theorem State.updTir_cfl (f : TirState → TirState) : (s.updTir f).cfl = s.cfl := by rfl
@[simp] theorem State.updTir_lps (f : TirState → TirState) : (s.updTir f).lps = s.lps := by rfl
@[simp] theorem State.updTir_dbg (f : TirState → TirState) : (s.updTir f).dbg = s.dbg := by rfl
@[simp] theorem State.updTir_svc (f : TirState → TirState) : (s.updTir f).svc = s.svc := by rfl
@[simp] theorem State.updTir_eid (f : TirState → TirState) : (s.updTir f).eid = s.eid := by rfl
@[simp] theorem State.updTir_jtagPins (f : TirState → TirState) : (s.updTir f).jtagPins = s.jtagPins := by rfl

/-! `State.updCip` -/

@[simp] theorem State.updCip_pending (f : CipState → CipState) : (s.updCip f).pending = s.pending := by rfl
@[simp] theorem State.updCip_time (f : CipState → CipState) : (s.updCip f).time = s.time := by rfl
@[simp] theorem State.updCip_freeCtr (f : CipState → CipState) : (s.updCip f).freeCtr = s.freeCtr := by rfl
@[simp] theorem State.updCip_boot (f : CipState → CipState) : (s.updCip f).boot = s.boot := by rfl
@[simp] theorem State.updCip_regs (f : CipState → CipState) : (s.updCip f).regs = s.regs := by rfl
@[simp] theorem State.updCip_staged (f : CipState → CipState) : (s.updCip f).staged = s.staged := by rfl
@[simp] theorem State.updCip_marks (f : CipState → CipState) : (s.updCip f).marks = s.marks := by rfl
@[simp] theorem State.updCip_out (f : CipState → CipState) : (s.updCip f).out = s.out := by rfl
@[simp] theorem State.updCip_isl (f : CipState → CipState) : (s.updCip f).isl = s.isl := by rfl
@[simp] theorem State.updCip_clocks (f : CipState → CipState) : (s.updCip f).clocks = s.clocks := by rfl
@[simp] theorem State.updCip_xing (f : CipState → CipState) : (s.updCip f).xing = s.xing := by rfl
@[simp] theorem State.updCip_lost (f : CipState → CipState) : (s.updCip f).lost = s.lost := by rfl
@[simp] theorem State.updCip_early (f : CipState → CipState) : (s.updCip f).early = s.early := by rfl
@[simp] theorem State.updCip_regions (f : CipState → CipState) : (s.updCip f).regions = s.regions := by rfl
@[simp] theorem State.updCip_tenants (f : CipState → CipState) : (s.updCip f).tenants = s.tenants := by rfl
@[simp] theorem State.updCip_ddr (f : CipState → CipState) : (s.updCip f).ddr = s.ddr := by rfl
@[simp] theorem State.updCip_poison (f : CipState → CipState) : (s.updCip f).poison = s.poison := by rfl
@[simp] theorem State.updCip_pst (f : CipState → CipState) : (s.updCip f).pst = s.pst := by rfl
@[simp] theorem State.updCip_hst (f : CipState → CipState) : (s.updCip f).hst = s.hst := by rfl
@[simp] theorem State.updCip_phl (f : CipState → CipState) : (s.updCip f).phl = s.phl := by rfl
@[simp] theorem State.updCip_dst (f : CipState → CipState) : (s.updCip f).dst = s.dst := by rfl
@[simp] theorem State.updCip_pe (f : CipState → CipState) : (s.updCip f).pe = s.pe := by rfl
@[simp] theorem State.updCip_mod (f : CipState → CipState) : (s.updCip f).mod = s.mod := by rfl
@[simp] theorem State.updCip_seq (f : CipState → CipState) : (s.updCip f).seq = s.seq := by rfl
@[simp] theorem State.updCip_contrail (f : CipState → CipState) : (s.updCip f).contrail = s.contrail := by rfl
@[simp] theorem State.updCip_nc (f : CipState → CipState) : (s.updCip f).nc = s.nc := by rfl
@[simp] theorem State.updCip_tir (f : CipState → CipState) : (s.updCip f).tir = s.tir := by rfl
@[simp] theorem State.updCip_cip (f : CipState → CipState) : (s.updCip f).cip = f s.cip := by rfl
@[simp] theorem State.updCip_fab (f : CipState → CipState) : (s.updCip f).fab = s.fab := by rfl
@[simp] theorem State.updCip_mem (f : CipState → CipState) : (s.updCip f).mem = s.mem := by rfl
@[simp] theorem State.updCip_cal (f : CipState → CipState) : (s.updCip f).cal = s.cal := by rfl
@[simp] theorem State.updCip_cfl (f : CipState → CipState) : (s.updCip f).cfl = s.cfl := by rfl
@[simp] theorem State.updCip_lps (f : CipState → CipState) : (s.updCip f).lps = s.lps := by rfl
@[simp] theorem State.updCip_dbg (f : CipState → CipState) : (s.updCip f).dbg = s.dbg := by rfl
@[simp] theorem State.updCip_svc (f : CipState → CipState) : (s.updCip f).svc = s.svc := by rfl
@[simp] theorem State.updCip_eid (f : CipState → CipState) : (s.updCip f).eid = s.eid := by rfl
@[simp] theorem State.updCip_jtagPins (f : CipState → CipState) : (s.updCip f).jtagPins = s.jtagPins := by rfl

/-! `State.updFab` -/

@[simp] theorem State.updFab_pending (f : FabState → FabState) : (s.updFab f).pending = s.pending := by rfl
@[simp] theorem State.updFab_time (f : FabState → FabState) : (s.updFab f).time = s.time := by rfl
@[simp] theorem State.updFab_freeCtr (f : FabState → FabState) : (s.updFab f).freeCtr = s.freeCtr := by rfl
@[simp] theorem State.updFab_boot (f : FabState → FabState) : (s.updFab f).boot = s.boot := by rfl
@[simp] theorem State.updFab_regs (f : FabState → FabState) : (s.updFab f).regs = s.regs := by rfl
@[simp] theorem State.updFab_staged (f : FabState → FabState) : (s.updFab f).staged = s.staged := by rfl
@[simp] theorem State.updFab_marks (f : FabState → FabState) : (s.updFab f).marks = s.marks := by rfl
@[simp] theorem State.updFab_out (f : FabState → FabState) : (s.updFab f).out = s.out := by rfl
@[simp] theorem State.updFab_isl (f : FabState → FabState) : (s.updFab f).isl = s.isl := by rfl
@[simp] theorem State.updFab_clocks (f : FabState → FabState) : (s.updFab f).clocks = s.clocks := by rfl
@[simp] theorem State.updFab_xing (f : FabState → FabState) : (s.updFab f).xing = s.xing := by rfl
@[simp] theorem State.updFab_lost (f : FabState → FabState) : (s.updFab f).lost = s.lost := by rfl
@[simp] theorem State.updFab_early (f : FabState → FabState) : (s.updFab f).early = s.early := by rfl
@[simp] theorem State.updFab_regions (f : FabState → FabState) : (s.updFab f).regions = s.regions := by rfl
@[simp] theorem State.updFab_tenants (f : FabState → FabState) : (s.updFab f).tenants = s.tenants := by rfl
@[simp] theorem State.updFab_ddr (f : FabState → FabState) : (s.updFab f).ddr = s.ddr := by rfl
@[simp] theorem State.updFab_poison (f : FabState → FabState) : (s.updFab f).poison = s.poison := by rfl
@[simp] theorem State.updFab_pst (f : FabState → FabState) : (s.updFab f).pst = s.pst := by rfl
@[simp] theorem State.updFab_hst (f : FabState → FabState) : (s.updFab f).hst = s.hst := by rfl
@[simp] theorem State.updFab_phl (f : FabState → FabState) : (s.updFab f).phl = s.phl := by rfl
@[simp] theorem State.updFab_dst (f : FabState → FabState) : (s.updFab f).dst = s.dst := by rfl
@[simp] theorem State.updFab_pe (f : FabState → FabState) : (s.updFab f).pe = s.pe := by rfl
@[simp] theorem State.updFab_mod (f : FabState → FabState) : (s.updFab f).mod = s.mod := by rfl
@[simp] theorem State.updFab_seq (f : FabState → FabState) : (s.updFab f).seq = s.seq := by rfl
@[simp] theorem State.updFab_contrail (f : FabState → FabState) : (s.updFab f).contrail = s.contrail := by rfl
@[simp] theorem State.updFab_nc (f : FabState → FabState) : (s.updFab f).nc = s.nc := by rfl
@[simp] theorem State.updFab_tir (f : FabState → FabState) : (s.updFab f).tir = s.tir := by rfl
@[simp] theorem State.updFab_cip (f : FabState → FabState) : (s.updFab f).cip = s.cip := by rfl
@[simp] theorem State.updFab_fab (f : FabState → FabState) : (s.updFab f).fab = f s.fab := by rfl
@[simp] theorem State.updFab_mem (f : FabState → FabState) : (s.updFab f).mem = s.mem := by rfl
@[simp] theorem State.updFab_cal (f : FabState → FabState) : (s.updFab f).cal = s.cal := by rfl
@[simp] theorem State.updFab_cfl (f : FabState → FabState) : (s.updFab f).cfl = s.cfl := by rfl
@[simp] theorem State.updFab_lps (f : FabState → FabState) : (s.updFab f).lps = s.lps := by rfl
@[simp] theorem State.updFab_dbg (f : FabState → FabState) : (s.updFab f).dbg = s.dbg := by rfl
@[simp] theorem State.updFab_svc (f : FabState → FabState) : (s.updFab f).svc = s.svc := by rfl
@[simp] theorem State.updFab_eid (f : FabState → FabState) : (s.updFab f).eid = s.eid := by rfl
@[simp] theorem State.updFab_jtagPins (f : FabState → FabState) : (s.updFab f).jtagPins = s.jtagPins := by rfl

/-! `State.updSes` -/

@[simp] theorem State.updSes_pending (n : Nat) (f : Session → Session) : (s.updSes n f).pending = s.pending := by rfl
@[simp] theorem State.updSes_time (n : Nat) (f : Session → Session) : (s.updSes n f).time = s.time := by rfl
@[simp] theorem State.updSes_freeCtr (n : Nat) (f : Session → Session) : (s.updSes n f).freeCtr = s.freeCtr := by rfl
@[simp] theorem State.updSes_boot (n : Nat) (f : Session → Session) : (s.updSes n f).boot = s.boot := by rfl
@[simp] theorem State.updSes_regs (n : Nat) (f : Session → Session) : (s.updSes n f).regs = s.regs := by rfl
@[simp] theorem State.updSes_staged (n : Nat) (f : Session → Session) : (s.updSes n f).staged = s.staged := by rfl
@[simp] theorem State.updSes_marks (n : Nat) (f : Session → Session) : (s.updSes n f).marks = s.marks := by rfl
@[simp] theorem State.updSes_out (n : Nat) (f : Session → Session) : (s.updSes n f).out = s.out := by rfl
@[simp] theorem State.updSes_isl (n : Nat) (f : Session → Session) : (s.updSes n f).isl = s.isl := by rfl
@[simp] theorem State.updSes_clocks (n : Nat) (f : Session → Session) : (s.updSes n f).clocks = s.clocks := by rfl
@[simp] theorem State.updSes_xing (n : Nat) (f : Session → Session) : (s.updSes n f).xing = s.xing := by rfl
@[simp] theorem State.updSes_lost (n : Nat) (f : Session → Session) : (s.updSes n f).lost = s.lost := by rfl
@[simp] theorem State.updSes_early (n : Nat) (f : Session → Session) : (s.updSes n f).early = s.early := by rfl
@[simp] theorem State.updSes_regions (n : Nat) (f : Session → Session) : (s.updSes n f).regions = s.regions := by rfl
@[simp] theorem State.updSes_tenants (n : Nat) (f : Session → Session) : (s.updSes n f).tenants = s.tenants := by rfl
@[simp] theorem State.updSes_ddr (n : Nat) (f : Session → Session) : (s.updSes n f).ddr = s.ddr := by rfl
@[simp] theorem State.updSes_poison (n : Nat) (f : Session → Session) : (s.updSes n f).poison = s.poison := by rfl
@[simp] theorem State.updSes_pst (n : Nat) (f : Session → Session) : (s.updSes n f).pst = s.pst := by rfl
@[simp] theorem State.updSes_hst (n : Nat) (f : Session → Session) : (s.updSes n f).hst = s.hst := by rfl
@[simp] theorem State.updSes_phl (n : Nat) (f : Session → Session) : (s.updSes n f).phl = s.phl := by rfl
@[simp] theorem State.updSes_dst (n : Nat) (f : Session → Session) : (s.updSes n f).dst = s.dst := by rfl
@[simp] theorem State.updSes_pe (n : Nat) (f : Session → Session) : (s.updSes n f).pe = s.pe := by rfl
@[simp] theorem State.updSes_mod (n : Nat) (f : Session → Session) : (s.updSes n f).mod = s.mod := by rfl
@[simp] theorem State.updSes_seq (n : Nat) (f : Session → Session) : (s.updSes n f).seq = s.seq := by rfl
@[simp] theorem State.updSes_contrail (n : Nat) (f : Session → Session) : (s.updSes n f).contrail = s.contrail := by rfl
@[simp] theorem State.updSes_nc (n : Nat) (f : Session → Session) : (s.updSes n f).nc = s.nc := by rfl
@[simp] theorem State.updSes_tir (n : Nat) (f : Session → Session) : (s.updSes n f).tir = s.tir := by rfl
@[simp] theorem State.updSes_cip (n : Nat) (f : Session → Session) : (s.updSes n f).cip = s.cip := by rfl
@[simp] theorem State.updSes_mem (n : Nat) (f : Session → Session) : (s.updSes n f).mem = s.mem := by rfl
@[simp] theorem State.updSes_cal (n : Nat) (f : Session → Session) : (s.updSes n f).cal = s.cal := by rfl
@[simp] theorem State.updSes_cfl (n : Nat) (f : Session → Session) : (s.updSes n f).cfl = s.cfl := by rfl
@[simp] theorem State.updSes_lps (n : Nat) (f : Session → Session) : (s.updSes n f).lps = s.lps := by rfl
@[simp] theorem State.updSes_dbg (n : Nat) (f : Session → Session) : (s.updSes n f).dbg = s.dbg := by rfl
@[simp] theorem State.updSes_svc (n : Nat) (f : Session → Session) : (s.updSes n f).svc = s.svc := by rfl
@[simp] theorem State.updSes_eid (n : Nat) (f : Session → Session) : (s.updSes n f).eid = s.eid := by rfl
@[simp] theorem State.updSes_jtagPins (n : Nat) (f : Session → Session) : (s.updSes n f).jtagPins = s.jtagPins := by rfl

/-! `State.setPath` -/

@[simp] theorem State.setPath_pending (p : FabPort) (f : PathState → PathState) : (s.setPath p f).pending = s.pending := by rfl
@[simp] theorem State.setPath_time (p : FabPort) (f : PathState → PathState) : (s.setPath p f).time = s.time := by rfl
@[simp] theorem State.setPath_freeCtr (p : FabPort) (f : PathState → PathState) : (s.setPath p f).freeCtr = s.freeCtr := by rfl
@[simp] theorem State.setPath_boot (p : FabPort) (f : PathState → PathState) : (s.setPath p f).boot = s.boot := by rfl
@[simp] theorem State.setPath_regs (p : FabPort) (f : PathState → PathState) : (s.setPath p f).regs = s.regs := by rfl
@[simp] theorem State.setPath_staged (p : FabPort) (f : PathState → PathState) : (s.setPath p f).staged = s.staged := by rfl
@[simp] theorem State.setPath_marks (p : FabPort) (f : PathState → PathState) : (s.setPath p f).marks = s.marks := by rfl
@[simp] theorem State.setPath_out (p : FabPort) (f : PathState → PathState) : (s.setPath p f).out = s.out := by rfl
@[simp] theorem State.setPath_isl (p : FabPort) (f : PathState → PathState) : (s.setPath p f).isl = s.isl := by rfl
@[simp] theorem State.setPath_clocks (p : FabPort) (f : PathState → PathState) : (s.setPath p f).clocks = s.clocks := by rfl
@[simp] theorem State.setPath_xing (p : FabPort) (f : PathState → PathState) : (s.setPath p f).xing = s.xing := by rfl
@[simp] theorem State.setPath_lost (p : FabPort) (f : PathState → PathState) : (s.setPath p f).lost = s.lost := by rfl
@[simp] theorem State.setPath_early (p : FabPort) (f : PathState → PathState) : (s.setPath p f).early = s.early := by rfl
@[simp] theorem State.setPath_regions (p : FabPort) (f : PathState → PathState) : (s.setPath p f).regions = s.regions := by rfl
@[simp] theorem State.setPath_tenants (p : FabPort) (f : PathState → PathState) : (s.setPath p f).tenants = s.tenants := by rfl
@[simp] theorem State.setPath_ddr (p : FabPort) (f : PathState → PathState) : (s.setPath p f).ddr = s.ddr := by rfl
@[simp] theorem State.setPath_poison (p : FabPort) (f : PathState → PathState) : (s.setPath p f).poison = s.poison := by rfl
@[simp] theorem State.setPath_pst (p : FabPort) (f : PathState → PathState) : (s.setPath p f).pst = s.pst := by rfl
@[simp] theorem State.setPath_hst (p : FabPort) (f : PathState → PathState) : (s.setPath p f).hst = s.hst := by rfl
@[simp] theorem State.setPath_phl (p : FabPort) (f : PathState → PathState) : (s.setPath p f).phl = s.phl := by rfl
@[simp] theorem State.setPath_dst (p : FabPort) (f : PathState → PathState) : (s.setPath p f).dst = s.dst := by rfl
@[simp] theorem State.setPath_pe (p : FabPort) (f : PathState → PathState) : (s.setPath p f).pe = s.pe := by rfl
@[simp] theorem State.setPath_mod (p : FabPort) (f : PathState → PathState) : (s.setPath p f).mod = s.mod := by rfl
@[simp] theorem State.setPath_seq (p : FabPort) (f : PathState → PathState) : (s.setPath p f).seq = s.seq := by rfl
@[simp] theorem State.setPath_contrail (p : FabPort) (f : PathState → PathState) : (s.setPath p f).contrail = s.contrail := by rfl
@[simp] theorem State.setPath_nc (p : FabPort) (f : PathState → PathState) : (s.setPath p f).nc = s.nc := by rfl
@[simp] theorem State.setPath_tir (p : FabPort) (f : PathState → PathState) : (s.setPath p f).tir = s.tir := by rfl
@[simp] theorem State.setPath_cip (p : FabPort) (f : PathState → PathState) : (s.setPath p f).cip = s.cip := by rfl
@[simp] theorem State.setPath_mem (p : FabPort) (f : PathState → PathState) : (s.setPath p f).mem = s.mem := by rfl
@[simp] theorem State.setPath_cal (p : FabPort) (f : PathState → PathState) : (s.setPath p f).cal = s.cal := by rfl
@[simp] theorem State.setPath_cfl (p : FabPort) (f : PathState → PathState) : (s.setPath p f).cfl = s.cfl := by rfl
@[simp] theorem State.setPath_lps (p : FabPort) (f : PathState → PathState) : (s.setPath p f).lps = s.lps := by rfl
@[simp] theorem State.setPath_dbg (p : FabPort) (f : PathState → PathState) : (s.setPath p f).dbg = s.dbg := by rfl
@[simp] theorem State.setPath_svc (p : FabPort) (f : PathState → PathState) : (s.setPath p f).svc = s.svc := by rfl
@[simp] theorem State.setPath_eid (p : FabPort) (f : PathState → PathState) : (s.setPath p f).eid = s.eid := by rfl
@[simp] theorem State.setPath_jtagPins (p : FabPort) (f : PathState → PathState) : (s.setPath p f).jtagPins = s.jtagPins := by rfl

/-! `State.updMem` -/

@[simp] theorem State.updMem_pending (f : MemState → MemState) : (s.updMem f).pending = s.pending := by rfl
@[simp] theorem State.updMem_time (f : MemState → MemState) : (s.updMem f).time = s.time := by rfl
@[simp] theorem State.updMem_freeCtr (f : MemState → MemState) : (s.updMem f).freeCtr = s.freeCtr := by rfl
@[simp] theorem State.updMem_boot (f : MemState → MemState) : (s.updMem f).boot = s.boot := by rfl
@[simp] theorem State.updMem_regs (f : MemState → MemState) : (s.updMem f).regs = s.regs := by rfl
@[simp] theorem State.updMem_staged (f : MemState → MemState) : (s.updMem f).staged = s.staged := by rfl
@[simp] theorem State.updMem_marks (f : MemState → MemState) : (s.updMem f).marks = s.marks := by rfl
@[simp] theorem State.updMem_out (f : MemState → MemState) : (s.updMem f).out = s.out := by rfl
@[simp] theorem State.updMem_isl (f : MemState → MemState) : (s.updMem f).isl = s.isl := by rfl
@[simp] theorem State.updMem_clocks (f : MemState → MemState) : (s.updMem f).clocks = s.clocks := by rfl
@[simp] theorem State.updMem_xing (f : MemState → MemState) : (s.updMem f).xing = s.xing := by rfl
@[simp] theorem State.updMem_lost (f : MemState → MemState) : (s.updMem f).lost = s.lost := by rfl
@[simp] theorem State.updMem_early (f : MemState → MemState) : (s.updMem f).early = s.early := by rfl
@[simp] theorem State.updMem_regions (f : MemState → MemState) : (s.updMem f).regions = s.regions := by rfl
@[simp] theorem State.updMem_tenants (f : MemState → MemState) : (s.updMem f).tenants = s.tenants := by rfl
@[simp] theorem State.updMem_ddr (f : MemState → MemState) : (s.updMem f).ddr = s.ddr := by rfl
@[simp] theorem State.updMem_poison (f : MemState → MemState) : (s.updMem f).poison = s.poison := by rfl
@[simp] theorem State.updMem_pst (f : MemState → MemState) : (s.updMem f).pst = s.pst := by rfl
@[simp] theorem State.updMem_hst (f : MemState → MemState) : (s.updMem f).hst = s.hst := by rfl
@[simp] theorem State.updMem_phl (f : MemState → MemState) : (s.updMem f).phl = s.phl := by rfl
@[simp] theorem State.updMem_dst (f : MemState → MemState) : (s.updMem f).dst = s.dst := by rfl
@[simp] theorem State.updMem_pe (f : MemState → MemState) : (s.updMem f).pe = s.pe := by rfl
@[simp] theorem State.updMem_mod (f : MemState → MemState) : (s.updMem f).mod = s.mod := by rfl
@[simp] theorem State.updMem_seq (f : MemState → MemState) : (s.updMem f).seq = s.seq := by rfl
@[simp] theorem State.updMem_contrail (f : MemState → MemState) : (s.updMem f).contrail = s.contrail := by rfl
@[simp] theorem State.updMem_nc (f : MemState → MemState) : (s.updMem f).nc = s.nc := by rfl
@[simp] theorem State.updMem_tir (f : MemState → MemState) : (s.updMem f).tir = s.tir := by rfl
@[simp] theorem State.updMem_cip (f : MemState → MemState) : (s.updMem f).cip = s.cip := by rfl
@[simp] theorem State.updMem_fab (f : MemState → MemState) : (s.updMem f).fab = s.fab := by rfl
@[simp] theorem State.updMem_mem (f : MemState → MemState) : (s.updMem f).mem = f s.mem := by rfl
@[simp] theorem State.updMem_cal (f : MemState → MemState) : (s.updMem f).cal = s.cal := by rfl
@[simp] theorem State.updMem_cfl (f : MemState → MemState) : (s.updMem f).cfl = s.cfl := by rfl
@[simp] theorem State.updMem_lps (f : MemState → MemState) : (s.updMem f).lps = s.lps := by rfl
@[simp] theorem State.updMem_dbg (f : MemState → MemState) : (s.updMem f).dbg = s.dbg := by rfl
@[simp] theorem State.updMem_svc (f : MemState → MemState) : (s.updMem f).svc = s.svc := by rfl
@[simp] theorem State.updMem_eid (f : MemState → MemState) : (s.updMem f).eid = s.eid := by rfl
@[simp] theorem State.updMem_jtagPins (f : MemState → MemState) : (s.updMem f).jtagPins = s.jtagPins := by rfl

/-! `State.updCh` -/

@[simp] theorem State.updCh_pending (k : Nat) (f : MemCh → MemCh) : (s.updCh k f).pending = s.pending := by rfl
@[simp] theorem State.updCh_time (k : Nat) (f : MemCh → MemCh) : (s.updCh k f).time = s.time := by rfl
@[simp] theorem State.updCh_freeCtr (k : Nat) (f : MemCh → MemCh) : (s.updCh k f).freeCtr = s.freeCtr := by rfl
@[simp] theorem State.updCh_boot (k : Nat) (f : MemCh → MemCh) : (s.updCh k f).boot = s.boot := by rfl
@[simp] theorem State.updCh_regs (k : Nat) (f : MemCh → MemCh) : (s.updCh k f).regs = s.regs := by rfl
@[simp] theorem State.updCh_staged (k : Nat) (f : MemCh → MemCh) : (s.updCh k f).staged = s.staged := by rfl
@[simp] theorem State.updCh_marks (k : Nat) (f : MemCh → MemCh) : (s.updCh k f).marks = s.marks := by rfl
@[simp] theorem State.updCh_out (k : Nat) (f : MemCh → MemCh) : (s.updCh k f).out = s.out := by rfl
@[simp] theorem State.updCh_isl (k : Nat) (f : MemCh → MemCh) : (s.updCh k f).isl = s.isl := by rfl
@[simp] theorem State.updCh_clocks (k : Nat) (f : MemCh → MemCh) : (s.updCh k f).clocks = s.clocks := by rfl
@[simp] theorem State.updCh_xing (k : Nat) (f : MemCh → MemCh) : (s.updCh k f).xing = s.xing := by rfl
@[simp] theorem State.updCh_lost (k : Nat) (f : MemCh → MemCh) : (s.updCh k f).lost = s.lost := by rfl
@[simp] theorem State.updCh_early (k : Nat) (f : MemCh → MemCh) : (s.updCh k f).early = s.early := by rfl
@[simp] theorem State.updCh_regions (k : Nat) (f : MemCh → MemCh) : (s.updCh k f).regions = s.regions := by rfl
@[simp] theorem State.updCh_tenants (k : Nat) (f : MemCh → MemCh) : (s.updCh k f).tenants = s.tenants := by rfl
@[simp] theorem State.updCh_ddr (k : Nat) (f : MemCh → MemCh) : (s.updCh k f).ddr = s.ddr := by rfl
@[simp] theorem State.updCh_poison (k : Nat) (f : MemCh → MemCh) : (s.updCh k f).poison = s.poison := by rfl
@[simp] theorem State.updCh_pst (k : Nat) (f : MemCh → MemCh) : (s.updCh k f).pst = s.pst := by rfl
@[simp] theorem State.updCh_hst (k : Nat) (f : MemCh → MemCh) : (s.updCh k f).hst = s.hst := by rfl
@[simp] theorem State.updCh_phl (k : Nat) (f : MemCh → MemCh) : (s.updCh k f).phl = s.phl := by rfl
@[simp] theorem State.updCh_dst (k : Nat) (f : MemCh → MemCh) : (s.updCh k f).dst = s.dst := by rfl
@[simp] theorem State.updCh_pe (k : Nat) (f : MemCh → MemCh) : (s.updCh k f).pe = s.pe := by rfl
@[simp] theorem State.updCh_mod (k : Nat) (f : MemCh → MemCh) : (s.updCh k f).mod = s.mod := by rfl
@[simp] theorem State.updCh_seq (k : Nat) (f : MemCh → MemCh) : (s.updCh k f).seq = s.seq := by rfl
@[simp] theorem State.updCh_contrail (k : Nat) (f : MemCh → MemCh) : (s.updCh k f).contrail = s.contrail := by rfl
@[simp] theorem State.updCh_nc (k : Nat) (f : MemCh → MemCh) : (s.updCh k f).nc = s.nc := by rfl
@[simp] theorem State.updCh_tir (k : Nat) (f : MemCh → MemCh) : (s.updCh k f).tir = s.tir := by rfl
@[simp] theorem State.updCh_cip (k : Nat) (f : MemCh → MemCh) : (s.updCh k f).cip = s.cip := by rfl
@[simp] theorem State.updCh_fab (k : Nat) (f : MemCh → MemCh) : (s.updCh k f).fab = s.fab := by rfl
@[simp] theorem State.updCh_cal (k : Nat) (f : MemCh → MemCh) : (s.updCh k f).cal = s.cal := by rfl
@[simp] theorem State.updCh_cfl (k : Nat) (f : MemCh → MemCh) : (s.updCh k f).cfl = s.cfl := by rfl
@[simp] theorem State.updCh_lps (k : Nat) (f : MemCh → MemCh) : (s.updCh k f).lps = s.lps := by rfl
@[simp] theorem State.updCh_dbg (k : Nat) (f : MemCh → MemCh) : (s.updCh k f).dbg = s.dbg := by rfl
@[simp] theorem State.updCh_svc (k : Nat) (f : MemCh → MemCh) : (s.updCh k f).svc = s.svc := by rfl
@[simp] theorem State.updCh_eid (k : Nat) (f : MemCh → MemCh) : (s.updCh k f).eid = s.eid := by rfl
@[simp] theorem State.updCh_jtagPins (k : Nat) (f : MemCh → MemCh) : (s.updCh k f).jtagPins = s.jtagPins := by rfl

/-! `State.updCal` -/

@[simp] theorem State.updCal_pending (f : CalState → CalState) : (s.updCal f).pending = s.pending := by rfl
@[simp] theorem State.updCal_time (f : CalState → CalState) : (s.updCal f).time = s.time := by rfl
@[simp] theorem State.updCal_freeCtr (f : CalState → CalState) : (s.updCal f).freeCtr = s.freeCtr := by rfl
@[simp] theorem State.updCal_boot (f : CalState → CalState) : (s.updCal f).boot = s.boot := by rfl
@[simp] theorem State.updCal_regs (f : CalState → CalState) : (s.updCal f).regs = s.regs := by rfl
@[simp] theorem State.updCal_staged (f : CalState → CalState) : (s.updCal f).staged = s.staged := by rfl
@[simp] theorem State.updCal_marks (f : CalState → CalState) : (s.updCal f).marks = s.marks := by rfl
@[simp] theorem State.updCal_out (f : CalState → CalState) : (s.updCal f).out = s.out := by rfl
@[simp] theorem State.updCal_isl (f : CalState → CalState) : (s.updCal f).isl = s.isl := by rfl
@[simp] theorem State.updCal_clocks (f : CalState → CalState) : (s.updCal f).clocks = s.clocks := by rfl
@[simp] theorem State.updCal_xing (f : CalState → CalState) : (s.updCal f).xing = s.xing := by rfl
@[simp] theorem State.updCal_lost (f : CalState → CalState) : (s.updCal f).lost = s.lost := by rfl
@[simp] theorem State.updCal_early (f : CalState → CalState) : (s.updCal f).early = s.early := by rfl
@[simp] theorem State.updCal_regions (f : CalState → CalState) : (s.updCal f).regions = s.regions := by rfl
@[simp] theorem State.updCal_tenants (f : CalState → CalState) : (s.updCal f).tenants = s.tenants := by rfl
@[simp] theorem State.updCal_ddr (f : CalState → CalState) : (s.updCal f).ddr = s.ddr := by rfl
@[simp] theorem State.updCal_poison (f : CalState → CalState) : (s.updCal f).poison = s.poison := by rfl
@[simp] theorem State.updCal_pst (f : CalState → CalState) : (s.updCal f).pst = s.pst := by rfl
@[simp] theorem State.updCal_hst (f : CalState → CalState) : (s.updCal f).hst = s.hst := by rfl
@[simp] theorem State.updCal_phl (f : CalState → CalState) : (s.updCal f).phl = s.phl := by rfl
@[simp] theorem State.updCal_dst (f : CalState → CalState) : (s.updCal f).dst = s.dst := by rfl
@[simp] theorem State.updCal_pe (f : CalState → CalState) : (s.updCal f).pe = s.pe := by rfl
@[simp] theorem State.updCal_mod (f : CalState → CalState) : (s.updCal f).mod = s.mod := by rfl
@[simp] theorem State.updCal_seq (f : CalState → CalState) : (s.updCal f).seq = s.seq := by rfl
@[simp] theorem State.updCal_contrail (f : CalState → CalState) : (s.updCal f).contrail = s.contrail := by rfl
@[simp] theorem State.updCal_nc (f : CalState → CalState) : (s.updCal f).nc = s.nc := by rfl
@[simp] theorem State.updCal_tir (f : CalState → CalState) : (s.updCal f).tir = s.tir := by rfl
@[simp] theorem State.updCal_cip (f : CalState → CalState) : (s.updCal f).cip = s.cip := by rfl
@[simp] theorem State.updCal_fab (f : CalState → CalState) : (s.updCal f).fab = s.fab := by rfl
@[simp] theorem State.updCal_mem (f : CalState → CalState) : (s.updCal f).mem = s.mem := by rfl
@[simp] theorem State.updCal_cal (f : CalState → CalState) : (s.updCal f).cal = f s.cal := by rfl
@[simp] theorem State.updCal_cfl (f : CalState → CalState) : (s.updCal f).cfl = s.cfl := by rfl
@[simp] theorem State.updCal_lps (f : CalState → CalState) : (s.updCal f).lps = s.lps := by rfl
@[simp] theorem State.updCal_dbg (f : CalState → CalState) : (s.updCal f).dbg = s.dbg := by rfl
@[simp] theorem State.updCal_svc (f : CalState → CalState) : (s.updCal f).svc = s.svc := by rfl
@[simp] theorem State.updCal_eid (f : CalState → CalState) : (s.updCal f).eid = s.eid := by rfl
@[simp] theorem State.updCal_jtagPins (f : CalState → CalState) : (s.updCal f).jtagPins = s.jtagPins := by rfl

/-! `State.updCfl` -/

@[simp] theorem State.updCfl_pending (f : CflState → CflState) : (s.updCfl f).pending = s.pending := by rfl
@[simp] theorem State.updCfl_time (f : CflState → CflState) : (s.updCfl f).time = s.time := by rfl
@[simp] theorem State.updCfl_freeCtr (f : CflState → CflState) : (s.updCfl f).freeCtr = s.freeCtr := by rfl
@[simp] theorem State.updCfl_boot (f : CflState → CflState) : (s.updCfl f).boot = s.boot := by rfl
@[simp] theorem State.updCfl_regs (f : CflState → CflState) : (s.updCfl f).regs = s.regs := by rfl
@[simp] theorem State.updCfl_staged (f : CflState → CflState) : (s.updCfl f).staged = s.staged := by rfl
@[simp] theorem State.updCfl_marks (f : CflState → CflState) : (s.updCfl f).marks = s.marks := by rfl
@[simp] theorem State.updCfl_out (f : CflState → CflState) : (s.updCfl f).out = s.out := by rfl
@[simp] theorem State.updCfl_isl (f : CflState → CflState) : (s.updCfl f).isl = s.isl := by rfl
@[simp] theorem State.updCfl_clocks (f : CflState → CflState) : (s.updCfl f).clocks = s.clocks := by rfl
@[simp] theorem State.updCfl_xing (f : CflState → CflState) : (s.updCfl f).xing = s.xing := by rfl
@[simp] theorem State.updCfl_lost (f : CflState → CflState) : (s.updCfl f).lost = s.lost := by rfl
@[simp] theorem State.updCfl_early (f : CflState → CflState) : (s.updCfl f).early = s.early := by rfl
@[simp] theorem State.updCfl_regions (f : CflState → CflState) : (s.updCfl f).regions = s.regions := by rfl
@[simp] theorem State.updCfl_tenants (f : CflState → CflState) : (s.updCfl f).tenants = s.tenants := by rfl
@[simp] theorem State.updCfl_ddr (f : CflState → CflState) : (s.updCfl f).ddr = s.ddr := by rfl
@[simp] theorem State.updCfl_poison (f : CflState → CflState) : (s.updCfl f).poison = s.poison := by rfl
@[simp] theorem State.updCfl_pst (f : CflState → CflState) : (s.updCfl f).pst = s.pst := by rfl
@[simp] theorem State.updCfl_hst (f : CflState → CflState) : (s.updCfl f).hst = s.hst := by rfl
@[simp] theorem State.updCfl_phl (f : CflState → CflState) : (s.updCfl f).phl = s.phl := by rfl
@[simp] theorem State.updCfl_dst (f : CflState → CflState) : (s.updCfl f).dst = s.dst := by rfl
@[simp] theorem State.updCfl_pe (f : CflState → CflState) : (s.updCfl f).pe = s.pe := by rfl
@[simp] theorem State.updCfl_mod (f : CflState → CflState) : (s.updCfl f).mod = s.mod := by rfl
@[simp] theorem State.updCfl_seq (f : CflState → CflState) : (s.updCfl f).seq = s.seq := by rfl
@[simp] theorem State.updCfl_contrail (f : CflState → CflState) : (s.updCfl f).contrail = s.contrail := by rfl
@[simp] theorem State.updCfl_nc (f : CflState → CflState) : (s.updCfl f).nc = s.nc := by rfl
@[simp] theorem State.updCfl_tir (f : CflState → CflState) : (s.updCfl f).tir = s.tir := by rfl
@[simp] theorem State.updCfl_cip (f : CflState → CflState) : (s.updCfl f).cip = s.cip := by rfl
@[simp] theorem State.updCfl_fab (f : CflState → CflState) : (s.updCfl f).fab = s.fab := by rfl
@[simp] theorem State.updCfl_mem (f : CflState → CflState) : (s.updCfl f).mem = s.mem := by rfl
@[simp] theorem State.updCfl_cal (f : CflState → CflState) : (s.updCfl f).cal = s.cal := by rfl
@[simp] theorem State.updCfl_cfl (f : CflState → CflState) : (s.updCfl f).cfl = f s.cfl := by rfl
@[simp] theorem State.updCfl_lps (f : CflState → CflState) : (s.updCfl f).lps = s.lps := by rfl
@[simp] theorem State.updCfl_dbg (f : CflState → CflState) : (s.updCfl f).dbg = s.dbg := by rfl
@[simp] theorem State.updCfl_svc (f : CflState → CflState) : (s.updCfl f).svc = s.svc := by rfl
@[simp] theorem State.updCfl_eid (f : CflState → CflState) : (s.updCfl f).eid = s.eid := by rfl
@[simp] theorem State.updCfl_jtagPins (f : CflState → CflState) : (s.updCfl f).jtagPins = s.jtagPins := by rfl

/-! `State.updSector` -/

@[simp] theorem State.updSector_pending (n : Nat) (f : Sector → Sector) : (s.updSector n f).pending = s.pending := by rfl
@[simp] theorem State.updSector_time (n : Nat) (f : Sector → Sector) : (s.updSector n f).time = s.time := by rfl
@[simp] theorem State.updSector_freeCtr (n : Nat) (f : Sector → Sector) : (s.updSector n f).freeCtr = s.freeCtr := by rfl
@[simp] theorem State.updSector_boot (n : Nat) (f : Sector → Sector) : (s.updSector n f).boot = s.boot := by rfl
@[simp] theorem State.updSector_regs (n : Nat) (f : Sector → Sector) : (s.updSector n f).regs = s.regs := by rfl
@[simp] theorem State.updSector_staged (n : Nat) (f : Sector → Sector) : (s.updSector n f).staged = s.staged := by rfl
@[simp] theorem State.updSector_marks (n : Nat) (f : Sector → Sector) : (s.updSector n f).marks = s.marks := by rfl
@[simp] theorem State.updSector_out (n : Nat) (f : Sector → Sector) : (s.updSector n f).out = s.out := by rfl
@[simp] theorem State.updSector_isl (n : Nat) (f : Sector → Sector) : (s.updSector n f).isl = s.isl := by rfl
@[simp] theorem State.updSector_clocks (n : Nat) (f : Sector → Sector) : (s.updSector n f).clocks = s.clocks := by rfl
@[simp] theorem State.updSector_xing (n : Nat) (f : Sector → Sector) : (s.updSector n f).xing = s.xing := by rfl
@[simp] theorem State.updSector_lost (n : Nat) (f : Sector → Sector) : (s.updSector n f).lost = s.lost := by rfl
@[simp] theorem State.updSector_early (n : Nat) (f : Sector → Sector) : (s.updSector n f).early = s.early := by rfl
@[simp] theorem State.updSector_regions (n : Nat) (f : Sector → Sector) : (s.updSector n f).regions = s.regions := by rfl
@[simp] theorem State.updSector_tenants (n : Nat) (f : Sector → Sector) : (s.updSector n f).tenants = s.tenants := by rfl
@[simp] theorem State.updSector_ddr (n : Nat) (f : Sector → Sector) : (s.updSector n f).ddr = s.ddr := by rfl
@[simp] theorem State.updSector_poison (n : Nat) (f : Sector → Sector) : (s.updSector n f).poison = s.poison := by rfl
@[simp] theorem State.updSector_pst (n : Nat) (f : Sector → Sector) : (s.updSector n f).pst = s.pst := by rfl
@[simp] theorem State.updSector_hst (n : Nat) (f : Sector → Sector) : (s.updSector n f).hst = s.hst := by rfl
@[simp] theorem State.updSector_phl (n : Nat) (f : Sector → Sector) : (s.updSector n f).phl = s.phl := by rfl
@[simp] theorem State.updSector_dst (n : Nat) (f : Sector → Sector) : (s.updSector n f).dst = s.dst := by rfl
@[simp] theorem State.updSector_pe (n : Nat) (f : Sector → Sector) : (s.updSector n f).pe = s.pe := by rfl
@[simp] theorem State.updSector_mod (n : Nat) (f : Sector → Sector) : (s.updSector n f).mod = s.mod := by rfl
@[simp] theorem State.updSector_seq (n : Nat) (f : Sector → Sector) : (s.updSector n f).seq = s.seq := by rfl
@[simp] theorem State.updSector_contrail (n : Nat) (f : Sector → Sector) : (s.updSector n f).contrail = s.contrail := by rfl
@[simp] theorem State.updSector_nc (n : Nat) (f : Sector → Sector) : (s.updSector n f).nc = s.nc := by rfl
@[simp] theorem State.updSector_tir (n : Nat) (f : Sector → Sector) : (s.updSector n f).tir = s.tir := by rfl
@[simp] theorem State.updSector_cip (n : Nat) (f : Sector → Sector) : (s.updSector n f).cip = s.cip := by rfl
@[simp] theorem State.updSector_fab (n : Nat) (f : Sector → Sector) : (s.updSector n f).fab = s.fab := by rfl
@[simp] theorem State.updSector_mem (n : Nat) (f : Sector → Sector) : (s.updSector n f).mem = s.mem := by rfl
@[simp] theorem State.updSector_cal (n : Nat) (f : Sector → Sector) : (s.updSector n f).cal = s.cal := by rfl
@[simp] theorem State.updSector_lps (n : Nat) (f : Sector → Sector) : (s.updSector n f).lps = s.lps := by rfl
@[simp] theorem State.updSector_dbg (n : Nat) (f : Sector → Sector) : (s.updSector n f).dbg = s.dbg := by rfl
@[simp] theorem State.updSector_svc (n : Nat) (f : Sector → Sector) : (s.updSector n f).svc = s.svc := by rfl
@[simp] theorem State.updSector_eid (n : Nat) (f : Sector → Sector) : (s.updSector n f).eid = s.eid := by rfl
@[simp] theorem State.updSector_jtagPins (n : Nat) (f : Sector → Sector) : (s.updSector n f).jtagPins = s.jtagPins := by rfl

/-! `State.updBank` -/

@[simp] theorem State.updBank_pending (n : Nat) (f : Bank → Bank) : (s.updBank n f).pending = s.pending := by rfl
@[simp] theorem State.updBank_time (n : Nat) (f : Bank → Bank) : (s.updBank n f).time = s.time := by rfl
@[simp] theorem State.updBank_freeCtr (n : Nat) (f : Bank → Bank) : (s.updBank n f).freeCtr = s.freeCtr := by rfl
@[simp] theorem State.updBank_boot (n : Nat) (f : Bank → Bank) : (s.updBank n f).boot = s.boot := by rfl
@[simp] theorem State.updBank_regs (n : Nat) (f : Bank → Bank) : (s.updBank n f).regs = s.regs := by rfl
@[simp] theorem State.updBank_staged (n : Nat) (f : Bank → Bank) : (s.updBank n f).staged = s.staged := by rfl
@[simp] theorem State.updBank_marks (n : Nat) (f : Bank → Bank) : (s.updBank n f).marks = s.marks := by rfl
@[simp] theorem State.updBank_out (n : Nat) (f : Bank → Bank) : (s.updBank n f).out = s.out := by rfl
@[simp] theorem State.updBank_isl (n : Nat) (f : Bank → Bank) : (s.updBank n f).isl = s.isl := by rfl
@[simp] theorem State.updBank_clocks (n : Nat) (f : Bank → Bank) : (s.updBank n f).clocks = s.clocks := by rfl
@[simp] theorem State.updBank_xing (n : Nat) (f : Bank → Bank) : (s.updBank n f).xing = s.xing := by rfl
@[simp] theorem State.updBank_lost (n : Nat) (f : Bank → Bank) : (s.updBank n f).lost = s.lost := by rfl
@[simp] theorem State.updBank_early (n : Nat) (f : Bank → Bank) : (s.updBank n f).early = s.early := by rfl
@[simp] theorem State.updBank_regions (n : Nat) (f : Bank → Bank) : (s.updBank n f).regions = s.regions := by rfl
@[simp] theorem State.updBank_tenants (n : Nat) (f : Bank → Bank) : (s.updBank n f).tenants = s.tenants := by rfl
@[simp] theorem State.updBank_ddr (n : Nat) (f : Bank → Bank) : (s.updBank n f).ddr = s.ddr := by rfl
@[simp] theorem State.updBank_poison (n : Nat) (f : Bank → Bank) : (s.updBank n f).poison = s.poison := by rfl
@[simp] theorem State.updBank_pst (n : Nat) (f : Bank → Bank) : (s.updBank n f).pst = s.pst := by rfl
@[simp] theorem State.updBank_hst (n : Nat) (f : Bank → Bank) : (s.updBank n f).hst = s.hst := by rfl
@[simp] theorem State.updBank_phl (n : Nat) (f : Bank → Bank) : (s.updBank n f).phl = s.phl := by rfl
@[simp] theorem State.updBank_dst (n : Nat) (f : Bank → Bank) : (s.updBank n f).dst = s.dst := by rfl
@[simp] theorem State.updBank_pe (n : Nat) (f : Bank → Bank) : (s.updBank n f).pe = s.pe := by rfl
@[simp] theorem State.updBank_mod (n : Nat) (f : Bank → Bank) : (s.updBank n f).mod = s.mod := by rfl
@[simp] theorem State.updBank_seq (n : Nat) (f : Bank → Bank) : (s.updBank n f).seq = s.seq := by rfl
@[simp] theorem State.updBank_contrail (n : Nat) (f : Bank → Bank) : (s.updBank n f).contrail = s.contrail := by rfl
@[simp] theorem State.updBank_nc (n : Nat) (f : Bank → Bank) : (s.updBank n f).nc = s.nc := by rfl
@[simp] theorem State.updBank_tir (n : Nat) (f : Bank → Bank) : (s.updBank n f).tir = s.tir := by rfl
@[simp] theorem State.updBank_cip (n : Nat) (f : Bank → Bank) : (s.updBank n f).cip = s.cip := by rfl
@[simp] theorem State.updBank_fab (n : Nat) (f : Bank → Bank) : (s.updBank n f).fab = s.fab := by rfl
@[simp] theorem State.updBank_mem (n : Nat) (f : Bank → Bank) : (s.updBank n f).mem = s.mem := by rfl
@[simp] theorem State.updBank_cal (n : Nat) (f : Bank → Bank) : (s.updBank n f).cal = s.cal := by rfl
@[simp] theorem State.updBank_lps (n : Nat) (f : Bank → Bank) : (s.updBank n f).lps = s.lps := by rfl
@[simp] theorem State.updBank_dbg (n : Nat) (f : Bank → Bank) : (s.updBank n f).dbg = s.dbg := by rfl
@[simp] theorem State.updBank_svc (n : Nat) (f : Bank → Bank) : (s.updBank n f).svc = s.svc := by rfl
@[simp] theorem State.updBank_eid (n : Nat) (f : Bank → Bank) : (s.updBank n f).eid = s.eid := by rfl
@[simp] theorem State.updBank_jtagPins (n : Nat) (f : Bank → Bank) : (s.updBank n f).jtagPins = s.jtagPins := by rfl

/-! `State.updLps` -/

@[simp] theorem State.updLps_pending (f : LpsState → LpsState) : (s.updLps f).pending = s.pending := by rfl
@[simp] theorem State.updLps_time (f : LpsState → LpsState) : (s.updLps f).time = s.time := by rfl
@[simp] theorem State.updLps_freeCtr (f : LpsState → LpsState) : (s.updLps f).freeCtr = s.freeCtr := by rfl
@[simp] theorem State.updLps_boot (f : LpsState → LpsState) : (s.updLps f).boot = s.boot := by rfl
@[simp] theorem State.updLps_regs (f : LpsState → LpsState) : (s.updLps f).regs = s.regs := by rfl
@[simp] theorem State.updLps_staged (f : LpsState → LpsState) : (s.updLps f).staged = s.staged := by rfl
@[simp] theorem State.updLps_marks (f : LpsState → LpsState) : (s.updLps f).marks = s.marks := by rfl
@[simp] theorem State.updLps_out (f : LpsState → LpsState) : (s.updLps f).out = s.out := by rfl
@[simp] theorem State.updLps_isl (f : LpsState → LpsState) : (s.updLps f).isl = s.isl := by rfl
@[simp] theorem State.updLps_clocks (f : LpsState → LpsState) : (s.updLps f).clocks = s.clocks := by rfl
@[simp] theorem State.updLps_xing (f : LpsState → LpsState) : (s.updLps f).xing = s.xing := by rfl
@[simp] theorem State.updLps_lost (f : LpsState → LpsState) : (s.updLps f).lost = s.lost := by rfl
@[simp] theorem State.updLps_early (f : LpsState → LpsState) : (s.updLps f).early = s.early := by rfl
@[simp] theorem State.updLps_regions (f : LpsState → LpsState) : (s.updLps f).regions = s.regions := by rfl
@[simp] theorem State.updLps_tenants (f : LpsState → LpsState) : (s.updLps f).tenants = s.tenants := by rfl
@[simp] theorem State.updLps_ddr (f : LpsState → LpsState) : (s.updLps f).ddr = s.ddr := by rfl
@[simp] theorem State.updLps_poison (f : LpsState → LpsState) : (s.updLps f).poison = s.poison := by rfl
@[simp] theorem State.updLps_pst (f : LpsState → LpsState) : (s.updLps f).pst = s.pst := by rfl
@[simp] theorem State.updLps_hst (f : LpsState → LpsState) : (s.updLps f).hst = s.hst := by rfl
@[simp] theorem State.updLps_phl (f : LpsState → LpsState) : (s.updLps f).phl = s.phl := by rfl
@[simp] theorem State.updLps_dst (f : LpsState → LpsState) : (s.updLps f).dst = s.dst := by rfl
@[simp] theorem State.updLps_pe (f : LpsState → LpsState) : (s.updLps f).pe = s.pe := by rfl
@[simp] theorem State.updLps_mod (f : LpsState → LpsState) : (s.updLps f).mod = s.mod := by rfl
@[simp] theorem State.updLps_seq (f : LpsState → LpsState) : (s.updLps f).seq = s.seq := by rfl
@[simp] theorem State.updLps_contrail (f : LpsState → LpsState) : (s.updLps f).contrail = s.contrail := by rfl
@[simp] theorem State.updLps_nc (f : LpsState → LpsState) : (s.updLps f).nc = s.nc := by rfl
@[simp] theorem State.updLps_tir (f : LpsState → LpsState) : (s.updLps f).tir = s.tir := by rfl
@[simp] theorem State.updLps_cip (f : LpsState → LpsState) : (s.updLps f).cip = s.cip := by rfl
@[simp] theorem State.updLps_fab (f : LpsState → LpsState) : (s.updLps f).fab = s.fab := by rfl
@[simp] theorem State.updLps_mem (f : LpsState → LpsState) : (s.updLps f).mem = s.mem := by rfl
@[simp] theorem State.updLps_cal (f : LpsState → LpsState) : (s.updLps f).cal = s.cal := by rfl
@[simp] theorem State.updLps_cfl (f : LpsState → LpsState) : (s.updLps f).cfl = s.cfl := by rfl
@[simp] theorem State.updLps_lps (f : LpsState → LpsState) : (s.updLps f).lps = f s.lps := by rfl
@[simp] theorem State.updLps_dbg (f : LpsState → LpsState) : (s.updLps f).dbg = s.dbg := by rfl
@[simp] theorem State.updLps_svc (f : LpsState → LpsState) : (s.updLps f).svc = s.svc := by rfl
@[simp] theorem State.updLps_eid (f : LpsState → LpsState) : (s.updLps f).eid = s.eid := by rfl
@[simp] theorem State.updLps_jtagPins (f : LpsState → LpsState) : (s.updLps f).jtagPins = s.jtagPins := by rfl

/-! `State.updDbg` -/

@[simp] theorem State.updDbg_pending (f : DbgState → DbgState) : (s.updDbg f).pending = s.pending := by rfl
@[simp] theorem State.updDbg_time (f : DbgState → DbgState) : (s.updDbg f).time = s.time := by rfl
@[simp] theorem State.updDbg_freeCtr (f : DbgState → DbgState) : (s.updDbg f).freeCtr = s.freeCtr := by rfl
@[simp] theorem State.updDbg_boot (f : DbgState → DbgState) : (s.updDbg f).boot = s.boot := by rfl
@[simp] theorem State.updDbg_regs (f : DbgState → DbgState) : (s.updDbg f).regs = s.regs := by rfl
@[simp] theorem State.updDbg_staged (f : DbgState → DbgState) : (s.updDbg f).staged = s.staged := by rfl
@[simp] theorem State.updDbg_marks (f : DbgState → DbgState) : (s.updDbg f).marks = s.marks := by rfl
@[simp] theorem State.updDbg_out (f : DbgState → DbgState) : (s.updDbg f).out = s.out := by rfl
@[simp] theorem State.updDbg_isl (f : DbgState → DbgState) : (s.updDbg f).isl = s.isl := by rfl
@[simp] theorem State.updDbg_clocks (f : DbgState → DbgState) : (s.updDbg f).clocks = s.clocks := by rfl
@[simp] theorem State.updDbg_xing (f : DbgState → DbgState) : (s.updDbg f).xing = s.xing := by rfl
@[simp] theorem State.updDbg_lost (f : DbgState → DbgState) : (s.updDbg f).lost = s.lost := by rfl
@[simp] theorem State.updDbg_early (f : DbgState → DbgState) : (s.updDbg f).early = s.early := by rfl
@[simp] theorem State.updDbg_regions (f : DbgState → DbgState) : (s.updDbg f).regions = s.regions := by rfl
@[simp] theorem State.updDbg_tenants (f : DbgState → DbgState) : (s.updDbg f).tenants = s.tenants := by rfl
@[simp] theorem State.updDbg_ddr (f : DbgState → DbgState) : (s.updDbg f).ddr = s.ddr := by rfl
@[simp] theorem State.updDbg_poison (f : DbgState → DbgState) : (s.updDbg f).poison = s.poison := by rfl
@[simp] theorem State.updDbg_pst (f : DbgState → DbgState) : (s.updDbg f).pst = s.pst := by rfl
@[simp] theorem State.updDbg_hst (f : DbgState → DbgState) : (s.updDbg f).hst = s.hst := by rfl
@[simp] theorem State.updDbg_phl (f : DbgState → DbgState) : (s.updDbg f).phl = s.phl := by rfl
@[simp] theorem State.updDbg_dst (f : DbgState → DbgState) : (s.updDbg f).dst = s.dst := by rfl
@[simp] theorem State.updDbg_pe (f : DbgState → DbgState) : (s.updDbg f).pe = s.pe := by rfl
@[simp] theorem State.updDbg_mod (f : DbgState → DbgState) : (s.updDbg f).mod = s.mod := by rfl
@[simp] theorem State.updDbg_seq (f : DbgState → DbgState) : (s.updDbg f).seq = s.seq := by rfl
@[simp] theorem State.updDbg_contrail (f : DbgState → DbgState) : (s.updDbg f).contrail = s.contrail := by rfl
@[simp] theorem State.updDbg_nc (f : DbgState → DbgState) : (s.updDbg f).nc = s.nc := by rfl
@[simp] theorem State.updDbg_tir (f : DbgState → DbgState) : (s.updDbg f).tir = s.tir := by rfl
@[simp] theorem State.updDbg_cip (f : DbgState → DbgState) : (s.updDbg f).cip = s.cip := by rfl
@[simp] theorem State.updDbg_fab (f : DbgState → DbgState) : (s.updDbg f).fab = s.fab := by rfl
@[simp] theorem State.updDbg_mem (f : DbgState → DbgState) : (s.updDbg f).mem = s.mem := by rfl
@[simp] theorem State.updDbg_cal (f : DbgState → DbgState) : (s.updDbg f).cal = s.cal := by rfl
@[simp] theorem State.updDbg_cfl (f : DbgState → DbgState) : (s.updDbg f).cfl = s.cfl := by rfl
@[simp] theorem State.updDbg_lps (f : DbgState → DbgState) : (s.updDbg f).lps = s.lps := by rfl
@[simp] theorem State.updDbg_dbg (f : DbgState → DbgState) : (s.updDbg f).dbg = f s.dbg := by rfl
@[simp] theorem State.updDbg_svc (f : DbgState → DbgState) : (s.updDbg f).svc = s.svc := by rfl
@[simp] theorem State.updDbg_eid (f : DbgState → DbgState) : (s.updDbg f).eid = s.eid := by rfl
@[simp] theorem State.updDbg_jtagPins (f : DbgState → DbgState) : (s.updDbg f).jtagPins = s.jtagPins := by rfl

/-! `State.updSvc` -/

@[simp] theorem State.updSvc_pending (f : SvcState → SvcState) : (s.updSvc f).pending = s.pending := by rfl
@[simp] theorem State.updSvc_time (f : SvcState → SvcState) : (s.updSvc f).time = s.time := by rfl
@[simp] theorem State.updSvc_freeCtr (f : SvcState → SvcState) : (s.updSvc f).freeCtr = s.freeCtr := by rfl
@[simp] theorem State.updSvc_boot (f : SvcState → SvcState) : (s.updSvc f).boot = s.boot := by rfl
@[simp] theorem State.updSvc_regs (f : SvcState → SvcState) : (s.updSvc f).regs = s.regs := by rfl
@[simp] theorem State.updSvc_staged (f : SvcState → SvcState) : (s.updSvc f).staged = s.staged := by rfl
@[simp] theorem State.updSvc_marks (f : SvcState → SvcState) : (s.updSvc f).marks = s.marks := by rfl
@[simp] theorem State.updSvc_out (f : SvcState → SvcState) : (s.updSvc f).out = s.out := by rfl
@[simp] theorem State.updSvc_isl (f : SvcState → SvcState) : (s.updSvc f).isl = s.isl := by rfl
@[simp] theorem State.updSvc_clocks (f : SvcState → SvcState) : (s.updSvc f).clocks = s.clocks := by rfl
@[simp] theorem State.updSvc_xing (f : SvcState → SvcState) : (s.updSvc f).xing = s.xing := by rfl
@[simp] theorem State.updSvc_lost (f : SvcState → SvcState) : (s.updSvc f).lost = s.lost := by rfl
@[simp] theorem State.updSvc_early (f : SvcState → SvcState) : (s.updSvc f).early = s.early := by rfl
@[simp] theorem State.updSvc_regions (f : SvcState → SvcState) : (s.updSvc f).regions = s.regions := by rfl
@[simp] theorem State.updSvc_tenants (f : SvcState → SvcState) : (s.updSvc f).tenants = s.tenants := by rfl
@[simp] theorem State.updSvc_ddr (f : SvcState → SvcState) : (s.updSvc f).ddr = s.ddr := by rfl
@[simp] theorem State.updSvc_poison (f : SvcState → SvcState) : (s.updSvc f).poison = s.poison := by rfl
@[simp] theorem State.updSvc_pst (f : SvcState → SvcState) : (s.updSvc f).pst = s.pst := by rfl
@[simp] theorem State.updSvc_hst (f : SvcState → SvcState) : (s.updSvc f).hst = s.hst := by rfl
@[simp] theorem State.updSvc_phl (f : SvcState → SvcState) : (s.updSvc f).phl = s.phl := by rfl
@[simp] theorem State.updSvc_dst (f : SvcState → SvcState) : (s.updSvc f).dst = s.dst := by rfl
@[simp] theorem State.updSvc_pe (f : SvcState → SvcState) : (s.updSvc f).pe = s.pe := by rfl
@[simp] theorem State.updSvc_mod (f : SvcState → SvcState) : (s.updSvc f).mod = s.mod := by rfl
@[simp] theorem State.updSvc_seq (f : SvcState → SvcState) : (s.updSvc f).seq = s.seq := by rfl
@[simp] theorem State.updSvc_contrail (f : SvcState → SvcState) : (s.updSvc f).contrail = s.contrail := by rfl
@[simp] theorem State.updSvc_nc (f : SvcState → SvcState) : (s.updSvc f).nc = s.nc := by rfl
@[simp] theorem State.updSvc_tir (f : SvcState → SvcState) : (s.updSvc f).tir = s.tir := by rfl
@[simp] theorem State.updSvc_cip (f : SvcState → SvcState) : (s.updSvc f).cip = s.cip := by rfl
@[simp] theorem State.updSvc_fab (f : SvcState → SvcState) : (s.updSvc f).fab = s.fab := by rfl
@[simp] theorem State.updSvc_mem (f : SvcState → SvcState) : (s.updSvc f).mem = s.mem := by rfl
@[simp] theorem State.updSvc_cal (f : SvcState → SvcState) : (s.updSvc f).cal = s.cal := by rfl
@[simp] theorem State.updSvc_cfl (f : SvcState → SvcState) : (s.updSvc f).cfl = s.cfl := by rfl
@[simp] theorem State.updSvc_lps (f : SvcState → SvcState) : (s.updSvc f).lps = s.lps := by rfl
@[simp] theorem State.updSvc_dbg (f : SvcState → SvcState) : (s.updSvc f).dbg = s.dbg := by rfl
@[simp] theorem State.updSvc_svc (f : SvcState → SvcState) : (s.updSvc f).svc = f s.svc := by rfl
@[simp] theorem State.updSvc_eid (f : SvcState → SvcState) : (s.updSvc f).eid = s.eid := by rfl
@[simp] theorem State.updSvc_jtagPins (f : SvcState → SvcState) : (s.updSvc f).jtagPins = s.jtagPins := by rfl

/-! `State.setPort` -/

@[simp] theorem State.setPort_pending (p : Port) (q : PortState) : (s.setPort p q).pending = s.pending := by cases p <;> rfl
@[simp] theorem State.setPort_time (p : Port) (q : PortState) : (s.setPort p q).time = s.time := by cases p <;> rfl
@[simp] theorem State.setPort_freeCtr (p : Port) (q : PortState) : (s.setPort p q).freeCtr = s.freeCtr := by cases p <;> rfl
@[simp] theorem State.setPort_boot (p : Port) (q : PortState) : (s.setPort p q).boot = s.boot := by cases p <;> rfl
@[simp] theorem State.setPort_regs (p : Port) (q : PortState) : (s.setPort p q).regs = s.regs := by cases p <;> rfl
@[simp] theorem State.setPort_staged (p : Port) (q : PortState) : (s.setPort p q).staged = s.staged := by cases p <;> rfl
@[simp] theorem State.setPort_marks (p : Port) (q : PortState) : (s.setPort p q).marks = s.marks := by cases p <;> rfl
@[simp] theorem State.setPort_out (p : Port) (q : PortState) : (s.setPort p q).out = s.out := by cases p <;> rfl
@[simp] theorem State.setPort_isl (p : Port) (q : PortState) : (s.setPort p q).isl = s.isl := by cases p <;> rfl
@[simp] theorem State.setPort_clocks (p : Port) (q : PortState) : (s.setPort p q).clocks = s.clocks := by cases p <;> rfl
@[simp] theorem State.setPort_xing (p : Port) (q : PortState) : (s.setPort p q).xing = s.xing := by cases p <;> rfl
@[simp] theorem State.setPort_lost (p : Port) (q : PortState) : (s.setPort p q).lost = s.lost := by cases p <;> rfl
@[simp] theorem State.setPort_early (p : Port) (q : PortState) : (s.setPort p q).early = s.early := by cases p <;> rfl
@[simp] theorem State.setPort_regions (p : Port) (q : PortState) : (s.setPort p q).regions = s.regions := by cases p <;> rfl
@[simp] theorem State.setPort_tenants (p : Port) (q : PortState) : (s.setPort p q).tenants = s.tenants := by cases p <;> rfl
@[simp] theorem State.setPort_ddr (p : Port) (q : PortState) : (s.setPort p q).ddr = s.ddr := by cases p <;> rfl
@[simp] theorem State.setPort_poison (p : Port) (q : PortState) : (s.setPort p q).poison = s.poison := by cases p <;> rfl
@[simp] theorem State.setPort_pst (p : Port) (q : PortState) : (s.setPort p q).pst = s.pst := by cases p <;> rfl
@[simp] theorem State.setPort_phl (p : Port) (q : PortState) : (s.setPort p q).phl = s.phl := by cases p <;> rfl
@[simp] theorem State.setPort_dst (p : Port) (q : PortState) : (s.setPort p q).dst = s.dst := by cases p <;> rfl
@[simp] theorem State.setPort_pe (p : Port) (q : PortState) : (s.setPort p q).pe = s.pe := by cases p <;> rfl
@[simp] theorem State.setPort_mod (p : Port) (q : PortState) : (s.setPort p q).mod = s.mod := by cases p <;> rfl
@[simp] theorem State.setPort_seq (p : Port) (q : PortState) : (s.setPort p q).seq = s.seq := by cases p <;> rfl
@[simp] theorem State.setPort_contrail (p : Port) (q : PortState) : (s.setPort p q).contrail = s.contrail := by cases p <;> rfl
@[simp] theorem State.setPort_nc (p : Port) (q : PortState) : (s.setPort p q).nc = s.nc := by cases p <;> rfl
@[simp] theorem State.setPort_tir (p : Port) (q : PortState) : (s.setPort p q).tir = s.tir := by cases p <;> rfl
@[simp] theorem State.setPort_cip (p : Port) (q : PortState) : (s.setPort p q).cip = s.cip := by cases p <;> rfl
@[simp] theorem State.setPort_fab (p : Port) (q : PortState) : (s.setPort p q).fab = s.fab := by cases p <;> rfl
@[simp] theorem State.setPort_mem (p : Port) (q : PortState) : (s.setPort p q).mem = s.mem := by cases p <;> rfl
@[simp] theorem State.setPort_cal (p : Port) (q : PortState) : (s.setPort p q).cal = s.cal := by cases p <;> rfl
@[simp] theorem State.setPort_cfl (p : Port) (q : PortState) : (s.setPort p q).cfl = s.cfl := by cases p <;> rfl
@[simp] theorem State.setPort_lps (p : Port) (q : PortState) : (s.setPort p q).lps = s.lps := by cases p <;> rfl
@[simp] theorem State.setPort_dbg (p : Port) (q : PortState) : (s.setPort p q).dbg = s.dbg := by cases p <;> rfl
@[simp] theorem State.setPort_svc (p : Port) (q : PortState) : (s.setPort p q).svc = s.svc := by cases p <;> rfl
@[simp] theorem State.setPort_eid (p : Port) (q : PortState) : (s.setPort p q).eid = s.eid := by cases p <;> rfl
@[simp] theorem State.setPort_jtagPins (p : Port) (q : PortState) : (s.setPort p q).jtagPins = s.jtagPins := by cases p <;> rfl

end Sys2Proof.Machine
end

