-- ==== Sys2Proof/Laws/Frame.lean ====
section
/-! SUPPORT. Frames: how `OnlyParts` composes, and what each shared operation can touch. -/

namespace Sys2Proof.Machine

variable {s t u : State} {l m : List Part}

theorem OnlyParts.refl (s : State) (l : List Part) : OnlyParts l s s := by
  intro p _; cases p <;> simp [Part.kept]

theorem Part.kept_trans {p : Part} (h : p.kept s t) (k : p.kept t u) : p.kept s u := by
  cases p <;> simp only [Part.kept] at h k ⊢ <;> first
    | exact k.trans h
    | exact fun a => (k a).trans (h a)
    | exact fun a ha => (k a ha).trans (h a ha)
    | exact ⟨k.1.trans h.1, k.2.1.trans h.2.1, fun a ha => (k.2.2 a ha).trans (h.2.2 a ha)⟩
    | exact ⟨k.1.trans h.1, k.2.trans h.2⟩

theorem OnlyParts.trans (h : OnlyParts l s t) (k : OnlyParts l t u) : OnlyParts l s u :=
  fun p hp => Part.kept_trans (h p hp) (k p hp)

/-- A longer list claims less. -/
theorem OnlyParts.mono (h : OnlyParts l s t) (hl : l ⊆ m) : OnlyParts m s t := fun p hp => h p (fun hq => hp (hl hq))

/-- Two steps, each with its own list. -/
theorem OnlyParts.comp {m : List Part} (h : OnlyParts l s t) (k : OnlyParts m t u) : OnlyParts (l ++ m) s u :=
  (h.mono (by simp)).trans (k.mono (by simp))

theorem OnlyParts.ite {c : Bool} (h : OnlyParts l s t) (k : OnlyParts l s u) : OnlyParts l s (if c then t else u) := by
  cases c <;> assumption

theorem RegsBut.refl (s : State) (r : List Nat) : RegsBut r s s := fun _ _ _ => rfl

theorem RegsBut.trans {r : List Nat} (h : RegsBut r s t) (k : RegsBut r t u) : RegsBut r s u :=
  fun a ha hp => (k a ha hp).trans (h a ha hp)

theorem RegsBut.setRaw (s : State) (a : Nat) (v : Word) {r : List Nat} (h : a ∈ r) : RegsBut r s (s.setRaw a v) :=
  fun _ hb _ => State.raw_setRaw_ne s v (fun e => hb (e ▸ h))

theorem RegsBut.setFld (s : State) (f : Fld) (v : Nat) {r : List Nat} (h : f.addr ∈ r) : RegsBut r s (s.setFld f v) :=
  fun _ hb _ => State.raw_setFld_ne s f v (fun e => hb (e ▸ h))

theorem RegsBut.bumpBy (s : State) (f : Fld) (n : Nat) {r : List Nat} (h : f.addr ∈ r) : RegsBut r s (s.bumpBy f n) :=
  fun _ hb _ => State.raw_bumpBy_ne s f n (fun e => hb (e ▸ h))

/-- What a state's register reads depends on its register table alone. -/
theorem State.raw_congr (h : t.regs = s.regs) (a : Nat) : t.raw a = s.raw a := by simp [State.raw, h]

theorem RegsBut.of_regs (h : t.regs = s.regs) (r : List Nat) : RegsBut r s t := fun a _ _ => State.raw_congr h a

/-- What a read of a device address returns depends on the ingress buffer, the mirror copies, the near cache and DDR5. -/
theorem State.byte_congr (hp : t.pst = s.pst) (hq : t.phl = s.phl) (hn : t.nc = s.nc) (hd : t.ddr = s.ddr) (a : Nat) :
    t.byte a = s.byte a := by
  simp [State.byte, State.visibleCells, State.backing, NcState.serving, hp, hq, hn, hd]

/-! ### One update -/

theorem State.withPending_only (s : State) (q : List Instr) : OnlyParts [.queue] s (s.withPending q) := by
  intro p hp; cases p <;> first
    | exact absurd (by decide) hp
    | (simp [Part.kept]; done)
    | exact fun a _ => State.raw_congr (by simp) a
    | exact fun a => State.byte_congr (by simp) (by simp) (by simp) (by simp) a

theorem State.setRun_only (s : State) (i : Island) (r : Run) : OnlyParts [.islands] s (s.setRun i r) := by
  intro p hp; cases p <;> first
    | exact absurd (by decide) hp
    | (simp [Part.kept]; done)
    | exact fun a _ => State.raw_congr (by simp) a
    | exact fun a => State.byte_congr (by simp) (by simp) (by simp) (by simp) a

theorem State.emit_only (s : State) (o : Out) : OnlyParts [.out] s (s.emit o) := by
  intro p hp; cases p <;> first
    | exact absurd (by decide) hp
    | (simp [Part.kept]; done)
    | exact fun a _ => State.raw_congr (by simp) a
    | exact fun a => State.byte_congr (by simp) (by simp) (by simp) (by simp) a

theorem State.drawFree_only (s : State) : OnlyParts [.draws] s s.drawFree := by
  intro p hp; cases p <;> first
    | exact absurd (by decide) hp
    | (simp [Part.kept]; done)
    | exact fun a _ => State.raw_congr (by simp) a
    | exact fun a => State.byte_congr (by simp) (by simp) (by simp) (by simp) a

theorem State.mark_only (s : State) (k : Nat) : OnlyParts [.marks] s (s.mark k) := by
  intro p hp; cases p <;> first
    | exact absurd (by decide) hp
    | (simp [Part.kept]; done)
    | exact fun a _ => State.raw_congr (by simp) a
    | exact fun a => State.byte_congr (by simp) (by simp) (by simp) (by simp) a

theorem State.setUnits_only (s : State) (l : List CUnit) : OnlyParts [.pst, .bytes] s (s.setUnits l) := by
  intro p hp; cases p <;> first
    | exact absurd (by decide) hp
    | (simp [Part.kept]; done)
    | exact fun a _ => State.raw_congr (by simp) a

theorem State.updUnit_only (s : State) (n : Nat) (f : CUnit → CUnit) : OnlyParts [.pst, .bytes] s (s.updUnit n f) := by
  intro p hp; cases p <;> first
    | exact absurd (by decide) hp
    | (simp [Part.kept]; done)
    | exact fun a _ => State.raw_congr (by simp) a

theorem State.updRegion_only (s : State) (n : Nat) (f : Region → Region) : OnlyParts [.regions] s (s.updRegion n f) := by
  intro p hp; cases p <;> first
    | exact absurd (by decide) hp
    | (simp [Part.kept]; done)
    | exact fun a _ => State.raw_congr (by simp) a
    | exact fun a => State.byte_congr (by simp) (by simp) (by simp) (by simp) a

theorem State.updPe_only (s : State) (f : PeState → PeState) : OnlyParts [.pe] s (s.updPe f) := by
  intro p hp; cases p <;> first
    | exact absurd (by decide) hp
    | (simp [Part.kept]; done)
    | exact fun a _ => State.raw_congr (by simp) a
    | exact fun a => State.byte_congr (by simp) (by simp) (by simp) (by simp) a

theorem State.updCmd_only (s : State) (c : Nat) (f : Cmd → Cmd) : OnlyParts [.pe] s (s.updCmd c f) := by
  intro p hp; cases p <;> first
    | exact absurd (by decide) hp
    | (simp [Part.kept]; done)
    | exact fun a _ => State.raw_congr (by simp) a
    | exact fun a => State.byte_congr (by simp) (by simp) (by simp) (by simp) a

theorem State.updOp_only (s : State) (c n : Nat) (f : Op → Op) : OnlyParts [.pe] s (s.updOp c n f) := by
  intro p hp; cases p <;> first
    | exact absurd (by decide) hp
    | (simp [Part.kept]; done)
    | exact fun a _ => State.raw_congr (by simp) a
    | exact fun a => State.byte_congr (by simp) (by simp) (by simp) (by simp) a

theorem State.updQp_only (s : State) (q : Nat) (f : Qp → Qp) : OnlyParts [.pe] s (s.updQp q f) := by
  intro p hp; cases p <;> first
    | exact absurd (by decide) hp
    | (simp [Part.kept]; done)
    | exact fun a _ => State.raw_congr (by simp) a
    | exact fun a => State.byte_congr (by simp) (by simp) (by simp) (by simp) a

theorem State.updStrand_only (s : State) (k : Nat) (f : Strand → Strand) : OnlyParts [.pe] s (s.updStrand k f) := by
  intro p hp; cases p <;> first
    | exact absurd (by decide) hp
    | (simp [Part.kept]; done)
    | exact fun a _ => State.raw_congr (by simp) a
    | exact fun a => State.byte_congr (by simp) (by simp) (by simp) (by simp) a

theorem State.updPhl_only (s : State) (f : PhlState → PhlState) : OnlyParts [.phl, .bytes] s (s.updPhl f) := by
  intro p hp; cases p <;> first
    | exact absurd (by decide) hp
    | (simp [Part.kept]; done)
    | exact fun a _ => State.raw_congr (by simp) a

theorem State.updDst_only (s : State) (f : DstState → DstState) : OnlyParts [.dst] s (s.updDst f) := by
  intro p hp; cases p <;> first
    | exact absurd (by decide) hp
    | (simp [Part.kept]; done)
    | exact fun a _ => State.raw_congr (by simp) a
    | exact fun a => State.byte_congr (by simp) (by simp) (by simp) (by simp) a

theorem State.updMod_only (s : State) (f : ModState → ModState) : OnlyParts [.mod] s (s.updMod f) := by
  intro p hp; cases p <;> first
    | exact absurd (by decide) hp
    | (simp [Part.kept]; done)
    | exact fun a _ => State.raw_congr (by simp) a
    | exact fun a => State.byte_congr (by simp) (by simp) (by simp) (by simp) a

theorem State.updSeq_only (s : State) (f : SeqState → SeqState) : OnlyParts [.seq] s (s.updSeq f) := by
  intro p hp; cases p <;> first
    | exact absurd (by decide) hp
    | (simp [Part.kept]; done)
    | exact fun a _ => State.raw_congr (by simp) a
    | exact fun a => State.byte_congr (by simp) (by simp) (by simp) (by simp) a

theorem State.updRec_only (s : State) (f : RecState → RecState) : OnlyParts [.contrail] s (s.updRec f) := by
  intro p hp; cases p <;> first
    | exact absurd (by decide) hp
    | (simp [Part.kept]; done)
    | exact fun a _ => State.raw_congr (by simp) a
    | exact fun a => State.byte_congr (by simp) (by simp) (by simp) (by simp) a

theorem State.updNc_only (s : State) (f : NcState → NcState) : OnlyParts [.nc, .bytes] s (s.updNc f) := by
  intro p hp; cases p <;> first
    | exact absurd (by decide) hp
    | (simp [Part.kept]; done)
    | exact fun a _ => State.raw_congr (by simp) a

theorem State.updTir_only (s : State) (f : TirState → TirState) : OnlyParts [.tir] s (s.updTir f) := by
  intro p hp; cases p <;> first
    | exact absurd (by decide) hp
    | (simp [Part.kept]; done)
    | exact fun a _ => State.raw_congr (by simp) a
    | exact fun a => State.byte_congr (by simp) (by simp) (by simp) (by simp) a

theorem State.updCip_only (s : State) (f : CipState → CipState) : OnlyParts [.cip] s (s.updCip f) := by
  intro p hp; cases p <;> first
    | exact absurd (by decide) hp
    | (simp [Part.kept]; done)
    | exact fun a _ => State.raw_congr (by simp) a
    | exact fun a => State.byte_congr (by simp) (by simp) (by simp) (by simp) a

theorem State.updFab_only (s : State) (f : FabState → FabState) : OnlyParts [.fab] s (s.updFab f) := by
  intro p hp; cases p <;> first
    | exact absurd (by decide) hp
    | (simp [Part.kept]; done)
    | exact fun a _ => State.raw_congr (by simp) a
    | exact fun a => State.byte_congr (by simp) (by simp) (by simp) (by simp) a

theorem State.updSes_only (s : State) (n : Nat) (f : Session → Session) : OnlyParts [.fab] s (s.updSes n f) := by
  intro p hp; cases p <;> first
    | exact absurd (by decide) hp
    | (simp [Part.kept]; done)
    | exact fun a _ => State.raw_congr (by simp) a
    | exact fun a => State.byte_congr (by simp) (by simp) (by simp) (by simp) a

theorem State.setPath_only (s : State) (p : FabPort) (f : PathState → PathState) : OnlyParts [.fab] s (s.setPath p f) := by
  intro p hp; cases p <;> first
    | exact absurd (by decide) hp
    | (simp [Part.kept]; done)
    | exact fun a _ => State.raw_congr (by simp) a
    | exact fun a => State.byte_congr (by simp) (by simp) (by simp) (by simp) a

theorem State.updMem_only (s : State) (f : MemState → MemState) : OnlyParts [.mem] s (s.updMem f) := by
  intro p hp; cases p <;> first
    | exact absurd (by decide) hp
    | (simp [Part.kept]; done)
    | exact fun a _ => State.raw_congr (by simp) a
    | exact fun a => State.byte_congr (by simp) (by simp) (by simp) (by simp) a

theorem State.updCh_only (s : State) (k : Nat) (f : MemCh → MemCh) : OnlyParts [.mem] s (s.updCh k f) := by
  intro p hp; cases p <;> first
    | exact absurd (by decide) hp
    | (simp [Part.kept]; done)
    | exact fun a _ => State.raw_congr (by simp) a
    | exact fun a => State.byte_congr (by simp) (by simp) (by simp) (by simp) a

theorem State.updCal_only (s : State) (f : CalState → CalState) : OnlyParts [.cal] s (s.updCal f) := by
  intro p hp; cases p <;> first
    | exact absurd (by decide) hp
    | (simp [Part.kept]; done)
    | exact fun a _ => State.raw_congr (by simp) a
    | exact fun a => State.byte_congr (by simp) (by simp) (by simp) (by simp) a

theorem State.updCfl_only (s : State) (f : CflState → CflState) : OnlyParts [.cfl] s (s.updCfl f) := by
  intro p hp; cases p <;> first
    | exact absurd (by decide) hp
    | (simp [Part.kept]; done)
    | exact fun a _ => State.raw_congr (by simp) a
    | exact fun a => State.byte_congr (by simp) (by simp) (by simp) (by simp) a

theorem State.updSector_only (s : State) (n : Nat) (f : Sector → Sector) : OnlyParts [.cfl] s (s.updSector n f) := by
  intro p hp; cases p <;> first
    | exact absurd (by decide) hp
    | (simp [Part.kept]; done)
    | exact fun a _ => State.raw_congr (by simp) a
    | exact fun a => State.byte_congr (by simp) (by simp) (by simp) (by simp) a

theorem State.updBank_only (s : State) (n : Nat) (f : Bank → Bank) : OnlyParts [.cfl] s (s.updBank n f) := by
  intro p hp; cases p <;> first
    | exact absurd (by decide) hp
    | (simp [Part.kept]; done)
    | exact fun a _ => State.raw_congr (by simp) a
    | exact fun a => State.byte_congr (by simp) (by simp) (by simp) (by simp) a

theorem State.updLps_only (s : State) (f : LpsState → LpsState) : OnlyParts [.lps] s (s.updLps f) := by
  intro p hp; cases p <;> first
    | exact absurd (by decide) hp
    | (simp [Part.kept]; done)
    | exact fun a _ => State.raw_congr (by simp) a
    | exact fun a => State.byte_congr (by simp) (by simp) (by simp) (by simp) a

theorem State.updDbg_only (s : State) (f : DbgState → DbgState) : OnlyParts [.dbg] s (s.updDbg f) := by
  intro p hp; cases p <;> first
    | exact absurd (by decide) hp
    | (simp [Part.kept]; done)
    | exact fun a _ => State.raw_congr (by simp) a
    | exact fun a => State.byte_congr (by simp) (by simp) (by simp) (by simp) a

theorem State.updSvc_only (s : State) (f : SvcState → SvcState) : OnlyParts [.svc] s (s.updSvc f) := by
  intro p hp; cases p <;> first
    | exact absurd (by decide) hp
    | (simp [Part.kept]; done)
    | exact fun a _ => State.raw_congr (by simp) a
    | exact fun a => State.byte_congr (by simp) (by simp) (by simp) (by simp) a

theorem State.setPort_only (s : State) (p : Port) (q : PortState) : OnlyParts [.hst] s (s.setPort p q) := by
  intro p hp; cases p <;> first
    | exact absurd (by decide) hp
    | (simp [Part.kept]; done)
    | exact fun a _ => State.raw_congr (by simp) a
    | exact fun a => State.byte_congr (by simp) (by simp) (by simp) (by simp) a

/-! ### Registers -/

theorem State.withRegs_only (s : State) (t : Tab Word) : OnlyParts [.regs, .pmu] s (s.withRegs t) := by
  intro p hp; cases p <;> first
    | exact absurd (by decide) hp
    | (simp [Part.kept]; done)
    | exact fun a => State.byte_congr (by simp) (by simp) (by simp) (by simp) a

/-- A change of the register table that leaves the performance counters alone. -/
theorem State.withRegs_only' (s : State) (t : Tab Word)
    (h : ∀ a, isPmu a = true → (s.withRegs t).raw a = s.raw a) : OnlyParts [.regs] s (s.withRegs t) := by
  intro p hp
  by_cases hq : p = .pmu
  · subst hq; exact h
  · exact State.withRegs_only s t p (by simp at hp ⊢; exact ⟨hp, hq⟩)

theorem State.setRaw_only (s : State) (a : Nat) (v : Word) (h : isPmu a = false) : OnlyParts [.regs] s (s.setRaw a v) :=
  State.withRegs_only' s _ (fun b hb => State.raw_setRaw_ne s v (fun e => by simp [e, h] at hb))

theorem State.setFld_only (s : State) (f : Fld) (v : Nat) (h : isPmu f.addr = false) : OnlyParts [.regs] s (s.setFld f v) :=
  State.withRegs_only' s _ (fun b hb => State.raw_setFld_ne s f v (fun e => by simp [e, h] at hb))

theorem State.bumpBy_only (s : State) (f : Fld) (n : Nat) (h : isPmu f.addr = false) : OnlyParts [.regs] s (s.bumpBy f n) :=
  State.withRegs_only' s _ (fun b hb => State.raw_bumpBy_ne s f n (fun e => by simp [e, h] at hb))

theorem State.bump_only (s : State) (f : Fld) (h : isPmu f.addr = false) : OnlyParts [.regs] s (s.bump f) :=
  State.bumpBy_only s f 1 h

theorem State.flag_only (s : State) (f : Fld) (h : isPmu f.addr = false) : OnlyParts [.regs] s (s.flag f) :=
  State.setFld_only s f 1 h

/-! ### Records -/

theorem State.pushRecord_only (s : State) (i : Island) (r : Record) : OnlyParts [.records] s (s.pushRecord i r) := by
  intro p hp; cases p <;> first
    | exact absurd (by decide) hp
    | (simp [Part.kept]; done)
    | exact fun a _ => State.raw_congr (by simp) a
    | exact fun a => State.byte_congr (by simp) (by simp) (by simp) (by simp) a
    | skip
  intro k hk
  unfold State.pushRecord; dsimp only
  split
  · exact Tab.get_put_ne _ _ (by omega)
  · rfl

theorem State.recordFull_only (s : State) (sev : Nat) (i : Island) (cat inst obj reg : Nat) (a b : Word) :
    OnlyParts [.records] s (s.recordFull sev i cat inst obj reg a b) := by
  unfold State.recordFull; split
  · exact OnlyParts.refl s _
  · exact State.pushRecord_only s i _

theorem State.record_only (s : State) (sev : Nat) (i : Island) (cat inst obj reg : Nat) :
    OnlyParts [.records] s (s.record sev i cat inst obj reg) := State.recordFull_only s sev i cat inst obj reg 0 0

theorem State.recState_only (s : State) (sev : Nat) (i : Island) (f : Fld) : OnlyParts [.records] s (s.recState sev i f) :=
  State.record_only s sev i 1 f.lsb 0 f.addr

theorem State.recFlag_only (s : State) (sev : Nat) (i : Island) (f : Fld) (obj : Nat) (h : isPmu f.addr = false) :
    OnlyParts [.regs, .records] s (s.recFlag sev i f obj) :=
  (State.flag_only s f h).comp (State.record_only _ sev i 2 f.lsb obj f.addr)

theorem State.noticeOnce_only (s : State) (k : Nat) (i : Island) (f : Fld) (obj : Nat) (a : Word) :
    OnlyParts [.marks, .records] s (s.noticeOnce k i f obj a) := by
  unfold State.noticeOnce; split
  · exact (State.mark_only s k).comp (State.recordFull_only _ sevNotice i 3 f.lsb obj f.addr a 0)
  · exact OnlyParts.refl s _

/-! ### Performance events -/

theorem getD_putFld_ne (t : Tab Word) (f : Fld) (v : Nat) {a : Nat} (h : a ≠ f.addr) : Tab.get (putFld t f v) a = Tab.get t a :=
  get_putReg_ne t _ h

/-- Counting an event touches the counters and overflow flags alone. -/
theorem get_pmuAdd (t : Tab Word) {n : Nat} (k : Nat) (hn : n < 512) {a : Nat} (ha : isPmu a = false) :
    Tab.get (pmuAdd t n k) a = Tab.get t a := by
  have c : ∀ m, m < 512 → a ≠ (F.PMU_CNT.COUNT m).addr := by
    intro m hm e; simp [isPmu, e, F.PMU_CNT.COUNT, Addr.PMU_CNT] at ha; omega
  have o : ∀ m, m < 512 → a ≠ Addr.PMU_OVF (m / 64) := by
    intro m hm e; simp [isPmu, e, Addr.PMU_OVF] at ha; omega
  unfold pmuAdd; dsimp only
  split
  · exact getD_putFld_ne t _ _ (c n hn)
  · split
    · rename_i h
      have h1 : n + 1 < 512 := by omega
      split
      · rw [getD_putFld_ne _ _ _ (c _ h1), getD_putFld_ne _ _ _ (c n hn)]
      · rw [getD_putFld_ne _ _ _ (o _ h1), getD_putFld_ne _ _ _ (c _ h1), getD_putFld_ne _ _ _ (c n hn)]
    · rw [getD_putFld_ne _ _ _ (o n hn), getD_putFld_ne _ _ _ (c n hn)]

theorem get_pmuFold (l : List Nat) (t : Tab Word) (k : Nat) (hl : ∀ n ∈ l, n < 512) {a : Nat} (ha : isPmu a = false) :
    Tab.get (l.foldl (fun t n => pmuAdd t n k) t) a = Tab.get t a := by
  induction l generalizing t with
  | nil => rfl
  | cons n r ih => rw [List.foldl_cons, ih _ (fun m hm => hl m (by simp [hm])), get_pmuAdd t k (hl n (by simp)) ha]

theorem State.pmuCounters_lt (s : State) (c : Nat) (ten un : Option Nat) : ∀ n ∈ s.pmuCounters c ten un, n < 512 := by
  intro n hn
  unfold State.pmuCounters at hn
  split at hn
  · simp only [List.mem_map, List.mem_filter, Bool.and_eq_true, decide_eq_true_eq] at hn
    obtain ⟨e, ⟨_, ⟨⟨⟨⟨_, h⟩, _⟩, _⟩, _⟩⟩, rfl⟩ := hn
    simp only [Addr.PMU_SEL] at h ⊢; omega
  · simp at hn

theorem State.countEvent_only (s : State) (c n : Nat) (ten un : Option Nat) : OnlyParts [.pmu] s (s.countEvent c n ten un) := by
  intro p hp
  by_cases hq : p = .regs
  · subst hq; intro a ha
    unfold State.raw; unfold State.countEvent
    rw [State.withRegs_regs, get_pmuFold _ _ _ (State.pmuCounters_lt s c ten un) ha]
  · exact State.withRegs_only s _ p (by simp at hp ⊢; exact ⟨hq, hp⟩)

theorem State.numberFrame_only (s : State) (f : Frame) : OnlyParts [.phl] s (s.numberFrame f) := by
  intro p hp; cases p <;> first
    | exact absurd (by decide) hp
    | (simp [Part.kept]; done)
    | exact fun a _ => State.raw_congr (by simp) a
    | exact fun a => rfl

theorem State.sendNext_byte (s : State) (a : Nat) : s.sendNext.byte a = s.byte a := by
  unfold State.sendNext
  split
  · split <;> rfl
  · rfl

theorem State.sendWaiting_byte (k : Nat) : ∀ (s : State) (a : Nat), (s.sendWaiting k).byte a = s.byte a := by
  induction k with
  | zero => exact fun _ _ => rfl
  | succ k ih => exact fun s a => (ih s.sendNext a).trans (s.sendNext_byte a)

theorem State.sendFrames_only (s : State) : OnlyParts [.phl, .out] s s.sendFrames := by
  intro p hp; cases p <;> first
    | exact absurd (by decide) hp
    | (simp [Part.kept]; done)
    | exact fun a _ => State.raw_congr (by simp) a
    | exact fun a => State.sendWaiting_byte _ s a

theorem State.sendFrame_only (s : State) (f : Frame) : OnlyParts [.phl, .out, .pmu] s (s.sendFrame f) :=
  ((s.numberFrame_only f).comp ((s.numberFrame f).sendFrames_only.comp (State.countEvent_only _ 0x030 1 none none))).mono
    (by decide)

theorem State.counted_only (s : State) (k c : Nat) : OnlyParts [.pe] s (s.counted k c) :=
  ((State.updPe_only s _).trans (State.updStrand_only _ k _)).trans (State.updCmd_only _ c _)

end Sys2Proof.Machine
end

