-- ==== Sys2Proof/Laws/Memory.lean ====
section
/-! SUPPORT. Byte memory: reading after writing, and that every operation keeps the one canonical form. -/

namespace Sys2Proof.Machine

@[simp] theorem Memory.read_nil (a : Nat) : Memory.read [] a = 0 := rfl

/-- Tails of a canonical memory are canonical, and the head is its least address. -/
theorem Memory.wf_tail {a : Nat} {v : Byte} {r : Memory} (h : Memory.wf ((a, v) :: r) = true) : Memory.wf r = true := by
  cases r with
  | nil => rfl
  | cons c r => obtain ⟨b, w⟩ := c; simp [Memory.wf] at h; exact h.2

theorem Memory.wf_head {a : Nat} {v : Byte} {r : Memory} (h : Memory.wf ((a, v) :: r) = true) : v ≠ 0 := by
  cases r with
  | nil => simpa [Memory.wf] using h
  | cons c r => obtain ⟨b, w⟩ := c; simp [Memory.wf] at h; exact h.1.2

/-- Every listed address lies above the head's. -/
theorem Memory.wf_lt {a : Nat} {v : Byte} {r : Memory} (h : Memory.wf ((a, v) :: r) = true) : ∀ c ∈ r, a < c.1 := by
  induction r generalizing a v with
  | nil => simp
  | cons c r ih =>
    obtain ⟨b, w⟩ := c
    have hab : a < b := by simp [Memory.wf] at h; exact h.1.1
    intro c hc
    rcases List.mem_cons.mp hc with rfl | hc
    · exact hab
    · exact lt_trans hab (ih (Memory.wf_tail h) c hc)

/-- An address below every listed one reads as zero. -/
theorem Memory.read_below {m : Memory} {a : Nat} (h : ∀ c ∈ m, a < c.1) : m.read a = 0 := by
  induction m with
  | nil => rfl
  | cons c r ih =>
    obtain ⟨b, w⟩ := c
    have hb : a < b := h (b, w) (by simp)
    have : ¬ b = a := by omega
    simp [Memory.read, this]
    exact ih (fun c hc => h c (by simp [hc]))

/-- Canonical form of a list with a head put on. -/
theorem Memory.wf_cons {a : Nat} {v : Byte} {r : Memory} (hv : v ≠ 0) (hr : Memory.wf r = true) (hl : ∀ c ∈ r, a < c.1) :
    Memory.wf ((a, v) :: r) = true := by
  cases r with
  | nil => simpa [Memory.wf] using hv
  | cons c r =>
    obtain ⟨b, w⟩ := c
    have hb : a < b := hl (b, w) (by simp)
    have hv' : ¬ v = 0#8 := hv
    simp [Memory.wf, hv', hb, hr]

/-- A written byte lies among the old addresses or is the one written. -/
theorem Memory.mem_write {m : Memory} {a : Nat} {v : Byte} {c : Host.Cell} (h : c ∈ m.write a v) : c ∈ m ∨ c = (a, v) := by
  induction m with
  | nil => unfold Memory.write at h; split at h <;> simp_all
  | cons d r ih =>
    obtain ⟨b, w⟩ := d
    unfold Memory.write at h
    split at h
    · split at h <;> simp_all
      tauto
    · split at h
      · split at h <;> simp_all
        · tauto
      · rcases List.mem_cons.mp h with h | h
        · simp [h]
        · rcases ih h with h | h <;> simp [h]

/-- A write keeps the canonical form. -/
theorem Memory.wf_write {m : Memory} (a : Nat) (v : Byte) (h : Memory.wf m = true) : Memory.wf (m.write a v) = true := by
  induction m with
  | nil => unfold Memory.write; split <;> simp_all [Memory.wf]
  | cons c r ih =>
    obtain ⟨b, w⟩ := c
    have hr := Memory.wf_tail h
    have hl := Memory.wf_lt h
    have hw := Memory.wf_head h
    unfold Memory.write
    split
    · rename_i hab
      split
      · exact h
      · rename_i hv
        refine Memory.wf_cons hv h ?_
        intro c hc
        rcases List.mem_cons.mp hc with rfl | hc
        · exact hab
        · exact lt_trans hab (hl c hc)
    · split
      · rename_i hab; subst hab
        split
        · exact hr
        · rename_i hv; exact Memory.wf_cons hv hr hl
      · rename_i h1 h2
        refine Memory.wf_cons hw (ih hr) ?_
        intro c hc
        rcases Memory.mem_write hc with hc | rfl
        · exact hl c hc
        · simp; omega

/-- The byte written is read back. -/
theorem Memory.read_write_self {m : Memory} (a : Nat) (v : Byte) (h : Memory.wf m = true) : (m.write a v).read a = v := by
  induction m with
  | nil => unfold Memory.write; split <;> simp_all [Memory.read]
  | cons c r ih =>
    obtain ⟨b, w⟩ := c
    have hl := Memory.wf_lt h
    unfold Memory.write
    split
    · rename_i hab
      split
      · rename_i hv; subst hv
        apply Memory.read_below
        intro c hc
        rcases List.mem_cons.mp hc with rfl | hc
        · exact hab
        · exact lt_trans hab (hl c hc)
      · simp [Memory.read]
    · split
      · rename_i hab; subst hab
        split
        · rename_i hv; subst hv; exact Memory.read_below hl
        · simp [Memory.read]
      · rename_i h1 h2
        have : ¬ b = a := fun e => h2 e.symm
        simp [Memory.read, this, ih (Memory.wf_tail h)]

/-- A write leaves every other byte. -/
theorem Memory.read_write_ne (m : Memory) {a x : Nat} (v : Byte) (hx : x ≠ a) : (m.write a v).read x = m.read x := by
  have hne : ¬ a = x := fun e => hx e.symm
  induction m with
  | nil => unfold Memory.write; split <;> simp [Memory.read, hne]
  | cons c r ih =>
    obtain ⟨b, w⟩ := c
    unfold Memory.write
    split
    · split <;> simp [Memory.read, hne]
    · split
      · rename_i hab; subst hab
        split <;> simp [Memory.read, hne]
      · simp [Memory.read, ih]

/-- Writing cells keeps the canonical form. -/
theorem Memory.wf_writeCells {m : Memory} (cs : List Host.Cell) (h : Memory.wf m = true) : Memory.wf (m.writeCells cs) = true := by
  unfold Memory.writeCells
  induction cs generalizing m with
  | nil => exact h
  | cons c cs ih => exact ih (Memory.wf_write c.1 c.2 h)

/-- Bytes outside the written cells are unchanged. -/
theorem Memory.read_writeCells_ne {m : Memory} {cs : List Host.Cell} {x : Nat} (hx : ∀ c ∈ cs, c.1 ≠ x) :
    (m.writeCells cs).read x = m.read x := by
  unfold Memory.writeCells
  induction cs generalizing m with
  | nil => rfl
  | cons c cs ih =>
    simp only [List.foldl_cons]
    rw [ih (fun d hd => hx d (by simp [hd])), Memory.read_write_ne m c.2 (fun e => hx c (by simp) e.symm)]

/-- Leaving cells out keeps the canonical form. -/
theorem Memory.wf_filter {m : Memory} (p : Host.Cell → Bool) (h : Memory.wf m = true) : Memory.wf (m.filter p) = true := by
  induction m with
  | nil => rfl
  | cons c r ih =>
    obtain ⟨b, w⟩ := c
    have hr := ih (Memory.wf_tail h)
    by_cases hp : p (b, w) = true
    · rw [List.filter_cons_of_pos hp]
      exact Memory.wf_cons (Memory.wf_head h) hr (fun c hc => Memory.wf_lt h c (List.mem_filter.mp hc).1)
    · rw [List.filter_cons_of_neg hp]; exact hr

theorem Memory.wf_clear {m : Memory} (lo n : Nat) (h : Memory.wf m = true) : Memory.wf (m.clear lo n) = true :=
  Memory.wf_filter _ h

theorem Memory.wf_slice {m : Memory} (lo n : Nat) (h : Memory.wf m = true) : Memory.wf (m.slice lo n) = true :=
  Memory.wf_filter _ h

/-- A cleared byte reads as zero, and every other byte as before. -/
theorem Memory.read_clear (m : Memory) (lo n x : Nat) :
    (m.clear lo n).read x = if lo ≤ x ∧ x < lo + n then 0 else m.read x := by
  induction m with
  | nil => simp [Memory.clear, Memory.read]
  | cons c r ih =>
    obtain ⟨b, w⟩ := c
    simp only [Memory.clear] at ih ⊢
    by_cases hb : lo ≤ b ∧ b < lo + n
    · rw [List.filter_cons_of_neg (by simp [hb])]
      rw [ih]
      by_cases hx : lo ≤ x ∧ x < lo + n
      · simp [hx]
      · have hne : ¬ b = x := fun e => hx (e ▸ hb)
        simp [hx, Memory.read, hne]
    · rw [List.filter_cons_of_pos (by simp; omega)]
      by_cases hx : b = x
      · subst hx; simp [Memory.read, hb]
      · simp only [Memory.read, if_neg hx]; exact ih

end Sys2Proof.Machine
end

