-- ==== Sys2Proof/Laws/Strand.lean ====
section
/-! SUPPORT. Strands: registers, issue, and how a strand goes on. -/

namespace Sys2Proof.Machine

@[simp] theorem Strand.reg_zero (st : Strand) : st.reg 0 = 0 := rfl

/-- A register reads as written; s0 reads as zero; the others stay. -/
theorem Strand.reg_setReg (st : Strand) (d n : Nat) (v : Word) (hn : n < 32) :
    (st.setReg d v).reg n = if n = d ∧ d ≠ 0 then v else st.reg n := by
  unfold Strand.setReg Strand.reg
  by_cases hd : d = 0
  · subst hd; simp
  · by_cases h0 : n = 0
    · subst h0; simp [hd]; intro h; exact absurd h.symm hd
    · by_cases e : n = d
      · subst e; simp [hd, hn]
      · simp [hd, h0, e, hn]

@[simp] theorem Strand.setReg_frames (st : Strand) (d : Nat) (v : Word) : (st.setReg d v).frames = st.frames := by
  unfold Strand.setReg; split <;> rfl
@[simp] theorem Strand.setReg_h (st : Strand) (d : Nat) (v : Word) : (st.setReg d v).h = st.h := by
  unfold Strand.setReg; split <;> rfl
@[simp] theorem Strand.setReg_loanH (st : Strand) (d : Nat) (v : Word) : (st.setReg d v).loanH = st.loanH := by
  unfold Strand.setReg; split <;> rfl
@[simp] theorem Strand.setReg_k (st : Strand) (d : Nat) (v : Word) : (st.setReg d v).k = st.k := by
  unfold Strand.setReg; split <;> rfl
@[simp] theorem Strand.setReg_scratch (st : Strand) (d : Nat) (v : Word) : (st.setReg d v).scratch = st.scratch := by
  unfold Strand.setReg; split <;> rfl
@[simp] theorem Strand.setReg_cmd (st : Strand) (d : Nat) (v : Word) : (st.setReg d v).cmd = st.cmd := by
  unfold Strand.setReg; split <;> rfl
@[simp] theorem Strand.setReg_qp (st : Strand) (d : Nat) (v : Word) : (st.setReg d v).qp = st.qp := by
  unfold Strand.setReg; split <;> rfl
@[simp] theorem Strand.setReg_spilled (st : Strand) (d : Nat) (v : Word) : (st.setReg d v).spilled = st.spilled := by
  unfold Strand.setReg; split <;> rfl
@[simp] theorem Strand.setReg_delaying (st : Strand) (d : Nat) (v : Word) : (st.setReg d v).delaying = st.delaying := by
  unfold Strand.setReg; split <;> rfl

/-! ### Strands and commands after one update -/

@[simp] theorem State.strandAt_updStrand_self (s : State) (k : Nat) (f : Strand → Strand) :
    (s.updStrand k f).strandAt k = (s.strandAt k).map f := by simp [State.strandAt, State.updStrand]

theorem State.strandAt_updStrand_ne (s : State) {k j : Nat} (f : Strand → Strand) (h : j ≠ k) :
    (s.updStrand k f).strandAt j = s.strandAt j := by simp [State.strandAt, State.updStrand, Tab.get_upd_ne _ _ h]

@[simp] theorem State.cmdOf_updStrand (s : State) (k c : Nat) (f : Strand → Strand) : (s.updStrand k f).cmdOf c = s.cmdOf c := rfl

@[simp] theorem State.cmdOf_updCmd_self (s : State) (c : Nat) (f : Cmd → Cmd) : (s.updCmd c f).cmdOf c = (s.cmdOf c).map f := by
  simp [State.cmdOf, State.updCmd]

theorem State.cmdOf_updCmd_ne (s : State) {c d : Nat} (f : Cmd → Cmd) (h : d ≠ c) : (s.updCmd c f).cmdOf d = s.cmdOf d := by
  simp [State.cmdOf, State.updCmd, Tab.get_upd_ne _ _ h]

@[simp] theorem State.strandAt_updCmd (s : State) (c k : Nat) (f : Cmd → Cmd) : (s.updCmd c f).strandAt k = s.strandAt k := rfl

/-! ### Issue -/

/-- The state in which an instruction's own effect begins: its step is counted, its turn taken, the event counted. -/
def State.issued (s : State) (x : Iss) : State := (s.counted x.k x.st.cmd).countEvent 0x080 1 none (some (x.k / 64))

/-- A strand that can issue does. -/
theorem State.issue_go {s : State} {k : SlotNo} {x : Iss} (h : CanIssue s k x) {op : Nat} (ho : x.i.opn = op)
    (body : Iss → State → State) : s.issue k op body = .next (body x (s.issued x)) := by
  obtain ⟨hk, hs, hc, hw, hr, hp, ha, hsp, hd, hb, ht, hf, hn⟩ := h
  obtain ⟨xk, xst, xc, xi, xpc⟩ := x
  dsimp only at *
  subst hk
  have hn' : ¬ 1048576 ≤ xc.steps := by omega
  simp [State.issue, State.ready, hs, hc, hw, hr, hp, ha, hsp, hd, hb, ht, hf, hn', ho, State.issued]

theorem State.issued_only (s : State) (x : Iss) : OnlyParts [.pe, .pmu] s (s.issued x) :=
  (s.counted_only x.k x.st.cmd).comp (State.countEvent_only _ _ _ _ _)

/-- The strand as it stands while its instruction takes effect. -/
def Iss.now (s : State) (x : Iss) : Strand := { x.st with turn := s.pe.issues + 1, aged := false, stageWait := false }

theorem State.issued_strand {s : State} {k : SlotNo} {x : Iss} (h : CanIssue s k x) :
    (s.issued x).strandAt x.k = some (x.now s) := by
  have hs : Tab.get s.pe.strands x.k = some x.st := h.2.1
  simp [State.issued, State.counted, State.strandAt, State.updStrand, State.updPe, State.updCmd, hs, Iss.now]

theorem State.issued_strand_ne (s : State) (x : Iss) {j : Nat} (h : j ≠ x.k) : (s.issued x).strandAt j = s.strandAt j := by
  simp [State.issued, State.counted, State.strandAt, State.updStrand, State.updPe, State.updCmd, Tab.get_upd_ne _ _ h]

theorem State.issued_cmd {s : State} {k : SlotNo} {x : Iss} (h : CanIssue s k x) :
    (s.issued x).cmdOf x.st.cmd = some { x.c with steps := x.c.steps + 1 } := by
  have hc : Tab.get s.pe.cmds x.st.cmd = some x.c := h.2.2.1
  simp [State.issued, State.counted, State.cmdOf, State.updStrand, State.updPe, State.updCmd, hc]

theorem State.issued_cmd_ne (s : State) (x : Iss) {c : Nat} (h : c ≠ x.st.cmd) : (s.issued x).cmdOf c = s.cmdOf c := by
  simp [State.issued, State.counted, State.cmdOf, State.updStrand, State.updPe, State.updCmd, Tab.get_upd_ne _ _ h]

theorem State.issued_qps (s : State) (x : Iss) : (s.issued x).pe.qps = s.pe.qps := by
  simp [State.issued, State.counted, State.updStrand, State.updPe, State.updCmd]

theorem State.issued_procs (s : State) (x : Iss) : (s.issued x).pe.procs = s.pe.procs := by
  simp [State.issued, State.counted, State.updStrand, State.updPe, State.updCmd]

theorem State.issued_onlySlot (s : State) (x : Iss) : OnlySlot s (s.issued x) x :=
  ⟨fun _ h => s.issued_strand_ne x h, fun _ h => s.issued_cmd_ne x h, s.issued_qps x, s.issued_procs x⟩

/-! ### Going on -/

/-- The innermost invocation of `st` runs a program that has a word at index `n`. -/
def State.topHas (s : State) (st : Strand) (n : Nat) : Prop :=
  match st.frames with
  | [] => False
  | f :: _ => n < (s.progWords f.prog).length

/-- The invocations with the innermost one at index `n`. -/
def Strand.framesTo (st : Strand) (n : Nat) : List Invocation :=
  match st.frames with
  | [] => []
  | f :: r => { f with pc := n } :: r

/-- With a word at the new index, `goto` moves the innermost invocation there and does nothing else. -/
theorem State.goto_has {s : State} {k n : Nat} {st : Strand} (hs : s.strandAt k = some st) (h : s.topHas st n) :
    s.goto k n = s.updStrand k (fun x => { x with frames := st.framesTo n }) := by
  unfold State.topHas at h
  unfold State.goto Strand.framesTo; rw [hs]; dsimp only
  cases hf : st.frames with
  | nil => rw [hf] at h; exact h.elim
  | cons f r =>
    rw [hf] at h; dsimp only at h ⊢
    have hd : s.dropFinished ({ f with pc := n } :: r) = { f with pc := n } :: r := by simp [State.dropFinished, h]
    simp only [State.setFrames, hd, List.isEmpty_cons, Bool.false_eq_true, if_false]

theorem State.progWords_congr {s t : State} (h : t.pe.procs = s.pe.procs) (p : Prog) : t.progWords p = s.progWords p := by
  cases p <;> simp [State.progWords, h]

theorem State.topHas_of {s t : State} {x : Iss} {n : Nat} {st : Strand} (h : HasWord s x n) (hp : t.pe.procs = s.pe.procs)
    (hf : st.frames = x.st.frames) : t.topHas st n := by
  unfold State.topHas; unfold HasWord at h; rw [hf]
  cases hx : x.st.frames with
  | nil => simp [hx] at h
  | cons f r => simp only [hx, List.head?_cons, Option.any_some, decide_eq_true_eq] at h; show n < (t.progWords f.prog).length; rw [State.progWords_congr hp]; exact h

theorem Strand.framesTo_eq {st : Strand} {x : Iss} (hf : st.frames = x.st.frames) (n : Nat) : st.framesTo n = x.framesAt n := by
  unfold Strand.framesTo Iss.framesAt; rw [hf]; try rfl

/-- A strand changed by `f` that then goes on to `n`: what the state after holds. -/
theorem State.move_on {s : State} {k : SlotNo} {x : Iss} (h : CanIssue s k x) {n : Nat} (hn : HasWord s x n)
    (f : Strand → Strand) (hf : (f (x.now s)).frames = x.st.frames) :
    ((s.issued x).updStrand x.k f).goto x.k n =
      ((s.issued x).updStrand x.k f).updStrand x.k (fun y => { y with frames := x.framesAt n }) := by
  have e : ((s.issued x).updStrand x.k f).strandAt x.k = some (f (x.now s)) := by simp [State.issued_strand h]
  rw [State.goto_has e (State.topHas_of hn (by simp [State.updStrand, State.issued_procs]) hf), Strand.framesTo_eq hf]

/-- An instruction that writes `d` at issue and goes on. -/
theorem State.finishInt_spec {s : State} {k : SlotNo} {x : Iss} (h : CanIssue s k x) (hn : HasWord s x (x.pc + 1)) (v : Word) :
    let t := (s.issued x).finishInt x v
    StrandIs t x (x.framesAt (x.pc + 1)) (x.regs x.i.d.toNat v) ∧ Counted t x ∧ OnlySlot s t x ∧ OnlyParts [.pe, .pmu] s t := by
  dsimp only
  have hx : (x.now s).frames = x.st.frames := rfl
  unfold State.finishInt
  rw [State.move_on h hn _ (by simp [hx])]
  refine ⟨⟨{ (x.now s).setReg x.i.dn v with frames := x.framesAt (x.pc + 1) }, by simp [State.issued_strand h], rfl, ?_, ?_⟩, ?_, ?_, ?_⟩
  · intro n hn
    exact (Strand.reg_setReg (x.now s) x.i.dn n v hn)
  · obtain ⟨_, _, _, _, _, _, _, hsp, hd, _⟩ := h
    simp [Iss.now, hsp, hd]
  · simp [Counted, State.issued_cmd h]
  · exact ⟨fun j hj => by rw [State.strandAt_updStrand_ne _ _ hj, State.strandAt_updStrand_ne _ _ hj, State.issued_strand_ne s x hj],
      fun c hc => by simp [State.issued_cmd_ne s x hc], by simp [State.updStrand, State.issued_qps],
      by simp [State.updStrand, State.issued_procs]⟩
  · exact (s.issued_only x).trans ((OnlyParts.trans (State.updStrand_only _ _ _) (State.updStrand_only _ _ _)).mono (by simp))

end Sys2Proof.Machine
end

