-- ==== Sys2Proof/WellFormed.lean ====
section
/-! DEFINITION. The commands that the outside can form: lengths of what they carry, and numbers that name something.
A command outside these is no command of the device; exec is total all the same. -/

namespace Sys2Proof

/-- LENGTH of a mirror frame: at most 16,384 bytes (Table TWN-3). -/
def MFrame.wf (f : MFrame) : Bool := decide (f.data.length ≤ 16384)

/-- Seven TLC and one SLC read offset a die; a die number once (Table CAL-5). -/
def TrainResult.wf (r : TrainResult) : Bool := decide ((r.offsets.map (·.1)).Nodup)

/-- Interfaces of Table CAL-1. -/
def ifaceOk (iface : BitVec 3) : Bool := decide (iface.toNat ≤ 5)

/-- Message lengths of R330; a strand's message brings none. -/
def CipWork.fits (w : CipWork) (bytes : Nat) : Bool :=
  match w with
  | .strand _ _ => decide (bytes = 0)
  | .packet => decide (bytes ≤ 2 ^ 36 - 32)
  | .chainStep | .appendDigest => true
  | .save | .demandRestore | .restore | .destage => decide (16 ≤ bytes) && decide (bytes ≤ 2 ^ 24) && decide (bytes % 16 = 0)

def Instr.wf (c : Instr) : Bool :=
  match c with
  | .linkUp _ _ speed _ decoders => decide (3 ≤ speed.toNat) && decide (speed.toNat ≤ 6) && decide (decoders.length ≤ 16)
  | .crossingItemArrival _ _ _ _ brings => decide (brings.length ≤ 64)
  | .fenceRead _ _ o len _ => decide (1 ≤ len.toNat) && decide (o.toNat + len.toNat ≤ 64)
  | .rootProvision _ nonce ciphertext tag => decide (nonce.length = 8) && decide (ciphertext.length = 32) && decide (tag.length = 16)
  | .adminSet _ nonce ciphertext tag => decide (nonce.length = 8) && decide (ciphertext.length = 32) && decide (tag.length = 16)
  | .fabricLinkTrained _ rate => decide (rate ≠ 3)
  | .cipMessage work bytes => work.fits bytes.toNat
  | .flitReplay _ _ count => decide (count.toNat ≤ 256)
  | .mdata f => f.wf
  | .mfwd f => f.wf
  | .mord f => f.wf
  | .mcv f => f.wf
  | .mdrop f => f.wf
  | .xopen f => f.wf
  | .xgrant f => f.wf
  | .rpage f => f.wf
  | .rreq f => f.wf
  | .lease f _ => f.wf
  | .mackf f => f.wf
  | .ctrlHmap f => f.wf
  | .ctrlTime f => f.wf
  | .resyncStart f => f.wf
  | .resyncEnd f => f.wf
  | .ctrlSession f _ => f.wf
  | .channelServed f => f.wf
  | .channelReturned f => f.wf
  | .garbageCollection erased _ => decide (erased.toNat ≤ 1000)
  | .patrol _ _ worst _ _ => decide (worst.toNat ≤ 100)
  | .restoreEntry _ channels _ => decide (channels.toNat ≤ 32)
  | .populationCheck dimms => decide (dimms.length ≤ 32)
  | .senseOutOfWindow input _ => decide (input.toNat ≤ 8)
  | .railLoss _ kind _ => decide (kind ≠ 3)
  | .training iface _ result => ifaceOk iface && result.wf
  | .recalWindow iface _ => ifaceOk iface
  | .recalWindowEnd iface _ _ result => ifaceOk iface && result.wf
  | .gapFittedChange iface _ _ => ifaceOk iface
  | .gapDeferral iface _ _ => ifaceOk iface
  | .cflOperationComplete _ _ pulses _ => decide (pulses.toNat ≤ 16)
  | .hazeEntry isl => decide (isl ≠ .aon)
  | .hazeWake isl => decide (isl ≠ .aon)
  | .chIn _ _ dimms => decide (dimms.length ≤ 2)
  | .registerWrite _ _ size values => decide (size ≠ 0) && decide (values.length = (size.toNat + 7) / 8)
  | .registerReadClear _ _ size => decide (size ≠ 0)
  | .sidebandRead _ _ _ _ bytes => decide (bytes.length ≤ 256)
  | .aonResetRelease | .timeBaseResync _ | .pfailNAccept _ | .refclkLoss
  | .ringFrameForward _ _ _ | .placement _ _ | .commitUnit _ | .extentReservation _ | .memWr _ _ _ _ _
  | .memWrPtl _ _ _ _ _ _ | .heldWriteRelease _ _ | .memRd _ _ _ _ | .memRdData _ _ _ _ | .memInv _ _ _ _
  | .unsupportedRequest _ _ _ | .viral _ | .linkLevelRetry _ _ | .linkDown _ | .headroomRefresh | .fenceComplete _ _
  | .fenceTimeout _ _ | .fenceStatusRead _ _ _ | .fenceClear _ _ | .gpfFlush _ | .gpfLate _ | .hstPortEnable _ _
  | .contrailRecord _ | .flushMs | .recScan _ | .recordRead _ _ | .contrailClear _ | .seqUnlatch _
  | .quarantineClear _ | .planKey _ _ | .debugUnlock _ | .nonceLife | .unlockExpiry | .lock | .bypass | .idcode
  | .samplePreload | .extest | .clamp | .highz | .dbgreg _ _ _ | .scandump | .sramdump _ | .counterWrap _ | .clearAll
  | .write _ _ | .append _ _ | .readReq _ _ _ | .readData _ _ | .atomic _ _ | .fence _ _ | .ack _ _ | .receipt _ _
  | .creditReq _ _ | .submit _ _ | .probe _ _ | .open_ _ _ | .openAck _ _ | .close _ _ | .rekey _ | .contextFetch _
  | .grantRound | .grantExpiry _ _ | .receiptInterval _ | .retransmit _ _ | .skewWindowExpiry _ _ _
  | .reasmTimeout _ _ | .msgLifetime _ _ | .msgLifetimeTimeout _ _ | .sessionDead _ | .sessionReopen _
  | .pathWindow _ | .probeInt _ _ | .pathReturnTime _ | .fabricLinkDown _ | .fabPathOff _ _ | .return_ _
  | .ptpEventMessage _ _ | .ptpLock | .sessionCreate _ _ | .sessionDestroy _ _ | .keyCreate | .keyRevoke _
  | .keyRead _ | .malformedFrame _ _ | .noValidCopy _ | .pausePfcFrame _ | .neighbourDiscovery _ _ | .sqTail _ _ _ _
  | .cqHead _ _ _ _ | .privilegedDoorbell _ _ _ | .commandFetch _ | .strandStart _ | .commandDurable _
  | .completionPost _ | .waitLimitExpiry _ | .strandResume _ | .strandAging _ | .instructionCompletion _ _ _ | .nop _
  | .br _ | .brc _ | .call _ | .ret _ | .wait _ | .yld _ | .yldResume _ | .sig _ | .hlt _ | .trap _ | .add _ | .sub _
  | .and _ | .or _ | .xor _ | .shl _ | .shr _ | .li _ | .cmp _ | .mov _ | .ld _ | .st _ | .cpy _ | .fil _ | .zro _
  | .cmpm _ | .aadd _ | .acas _ | .fnc _ | .cmt _ | .mirw _ | .mirwTimeLimit _ _ | .app _ | .recordPosition _
  | .chainStep _ | .seal _ | .sealTimeout _ | .autoCheckpoint _ | .vrfy _ | .drv _ | .enc _ | .dec _ | .dig _
  | .mac _ | .put _ | .get _ | .getCreditReserve _ _ | .radd _ | .rcas _ | .rfnc _ | .pft _ | .pro _ | .dem _
  | .pin _ | .unpin _ | .loan _ | .lrls _ | .cln _ | .inv _ | .cli _ | .zln _ | .wlk _ | .wul _ | .hmapCreate _
  | .hmapModify _ | .hmapDelete _ | .hmapRead _ | .qctlCreate _ | .destroy _ | .handles _ | .procLoad _
  | .procRetire _ | .admit_ _ | .planAmend _ | .planQuery _ | .fillComplete _ | .victimWriteBack _ | .pinFill _
  | .ncEnable _ | .invAll | .ncDrainEnd | .invalidatingEnd | .loanGrant _ _ _ _ _ _ _ _ | .reclaim _ _
  | .reclaimExpiry _ _ | .loanLost _ | .loanAdvertisement _ | .lendEn _ | .planInstall _ _ | .cipUnitFree _
  | .cipAging _ | .cipParityError _ _ _ | .keyDerivation _ _ _ | .as8200Mode _ | .phLinkUp _ _ | .portFailed _
  | .widthDegrade _ | .portTrainingRetry _ | .fallbackExit | .mack _ _ | .xopenQueuedGrant | .linkId _ _
  | .resyncComplete | .leaseRenewal | .leaseExpiry | .leaseGuardExpiry | .fbConfirmExpiry | .hbStatic _
  | .twinHbInEdge | .linkWait | .forceAlone _ | .flitError _ | .ceilingRecompute _ | .chargeGrant | .destageStart _
  | .destageComplete _ _ _ | .mapSegmentWrite _ | .wearMove _ _ | .holdUpTest | .testNow | .testRetry
  | .hupTestResult _ _ | .saveEntry | .saveComplete | .vMin | .resetSave | .pageRestored _ _ | .demandDeadline _
  | .restoreComplete | .pageQuery _ | .mapSegmentReload _ | .thermalSensorRead _ _ | .pmicRead _ _
  | .correctedError _ _ | .uncorrectableError _ | .repairComplete _ _ _ | .repairDeadline _ | .pageRetirement _
  | .initialFill _ | .backgroundFill _ | .driftScrub | .scrubBehind | .onDelay | .stepGood | .ctlRelease _ _ _
  | .pfailDebounce | .on _ | .off _ | .cascRelease _ | .cascFltN _ | .cascFltRelease | .pgTimeout _ | .offTimeout _
  | .channelDischarged _ | .stuck _ | .channelOn _ _ | .channelOff _ _ | .stretchExpiry _ | .pulse _ _
  | .faultBufferCopy | .thermalRead _ | .thermalTripHold | .standbyRailLoss | .cascInFall | .nandWindowDeferral _
  | .fabricWindowDeferral _ | .retrainFromSeed _ _ _ | .fullRetrain _ _ _ | .cflRead _ _ | .cflProgram _ _
  | .cflErase _ _ | .eraseSuspend _ _ | .eraseResume _ _ | .autoResume _ | .pvMargin _ _ | .evMargin _ _
  | .readFrow _ _ | .marginPatrol _ _ _ | .wpClr _ _ _ | .wpSet _ _ _ | .overcastVote | .enter _ | .islandReady _
  | .islandRefuse _ | .voteTimeout _ | .nightfallEntry | .night _ | .wake _ | .ph0SignalDetect | .wakeComplete _
  | .padRelease _ _ | .lpsResume _ _ | .drain _ _ | .halt _ | .resume _ _ | .service _ | .serve _ | .intakeClose
  | .drainClose | .drainComplete | .haltHold | .stillairFreeze | .freeze _ | .thaw _ | .reset _ | .fwHandover _ _
  | .firmwareReady | .handoverLimit | .mcodeSwap _ _ | .drainLimit | .chOut _ _ | .chFillComplete | .retrain _ _ _
  | .nandRetire _ _ _ | .pathOut _ _ | .pathIn _ _ | .abort _ | .migrationComplete | .stageCommit _ _
  | .stagedApply _ | .mctpRead _ _ | .mctpWrite _ _ | .mctpControlMessage _ | .fmApi _ _ _ | .fmBind _ _ _ _ | .poolMembers _ _ => true

end Sys2Proof
end

