-- ==== Sys2Proof/Tests/Slice0.lean ====
section
/-! SUPPORT. Tests: ill-formed commands that the checks refuse, words of the spec's tables, and for every statement that has
hypotheses a state and operands that meet them together. -/

namespace Sys2Proof.Tests

open Sys2Proof Sys2Proof.Machine

set_option maxRecDepth 20000
set_option Elab.async false

/-! ### Small states -/

/-- A device that runs alone: every island running, SOLO, REC released. -/
def base : State :=
  { State.reset with
    isl := List.replicate 15 .running, mod := { State.reset.mod with mode := .solo }
    contrail := { State.reset.contrail with released := true } }

/-- The lanes of every link are trained. -/
def withLanes (s : State) : State :=
  let u (iface n : Nat) : Nat × CalUnit := (unitKey iface n, { CalUnit.untrained with st := 2 })
  { s with cal := { s.cal with units := [u 3 0, u 3 1, u 4 0, u 4 1, u 4 2, u 4 3, u 5 0, u 5 1] } }

def ordinary (floor : Class) : Region :=
  { base := 0x10000, len := 0x10000, floor := floor, atomic := false, sealed := false, downgrade := false, homeOdd := false,
    wpol := 4, tenant := 1, grant := 15, sealCfg := ⟨0, 0, 0⟩, placement := 0, written := false, nextPos := 0, warned := false }

def smallTenant : Tenant :=
  { ddrMib := 64, ncMib := 0, ceilMib := 64, credits := 0, contexts := 0, ctxResident := 0, strandsMin := 1, strandsMax := 4 }

/-- A handle of region 5 with every right, and a scratch handle. -/
def handle5 : Word := 0x53D
def handleScratch : Word := 0xF

def smallQp (priv : Bool) : Qp :=
  { tenant := if priv then 0 else 1, depth := 4, sqBase := 0x10000, cqBase := 0x11000, jBase := 0x12000, jRegion := 5, cls := 0,
    maxStrands := 4, defWait := 10, priv := priv, handles := [handle5, handleScratch], sqTail := 0, sqHead := 0, cqTail := 0,
    cqHead := 0, phase := true, posted := [], turn := 0, fseq := 0, life := .active, destroyer := [], as8200 := false,
    sigSecond := 1, sigCount := 0, sigDropped := 0 }

def smallCmd (ws : List (BitVec 128)) : Cmd :=
  { qp := 1, fseq := 1, sqIndex := 0, sqHead := 1, tag := 7, cookie := 9, inline := true, proc := 0, words := ws, args := [],
    onYield := false, barrier := false, waitLimit := 10, rejected := false, state := .executing, accepted := true, started := true,
    ended := false, closing := false, closed := false, status := 0, faulted := false, hist := [], ops := [], nextOp := 0,
    lastStatus := 0, result := 0, steps := 0, faultOp := 0, faultPc := 0, tAccept := 0, tEnd := 0 }

/-- Register n holds 3 n; register 2 holds 0 so that it can serve as an offset. -/
def smallStrand (fs : List Invocation) : Strand :=
  { cmd := 0, qp := 1, frames := fs, s := (List.range 32).map (fun n => if n = 2 then 0 else BitVec.ofNat 64 (3 * n)),
    h := [handle5, handleScratch], loanH := [], k := List.replicate 8 none, scratch := [(8, 0x5A)], stageWait := false, aged := false,
    turn := 0, spilled := false, delaying := false }

/-- A word: opcode, d, a, b, form M, imm32, upper half. -/
def word (op d a b : Nat) (ext : Bool) (imm hi : Nat) : BitVec 128 :=
  IWord.toBits { op := BitVec.ofNat 8 op, w := false, q := false, f := false, z11 := false, cls := 0, m := false, z15 := false,
                 d := BitVec.ofNat 5 d, a := BitVec.ofNat 5 a, b := BitVec.ofNat 5 b, ext := ext, imm32 := BitVec.ofNat 32 imm,
                 hi := BitVec.ofNat 64 hi }

def halt : BitVec 128 := word 0x08 0 0 0 false 0 0

def programOf (w : BitVec 128) : List (BitVec 128) := [w, halt, halt]

def frameOf (w : BitVec 128) (pc : Nat) : Invocation := { prog := .inline (programOf w), pc := pc, counters := [] }

/-- Slot 0 holds a strand of command 0 whose next word is `w`, under region 5 of the floor given. -/
def strandOn (floor : Class) (priv : Bool) (w : BitVec 128) : State :=
  { base with
    regions := [(5, ordinary floor)], tenants := [(0, smallTenant), (1, smallTenant)]
    pe := { base.pe with
      qps := [(1, smallQp priv)], cmds := [(0, smallCmd (programOf w))], nextCmd := 1, strands := [(0, smallStrand [frameOf w 0])] } }

def strandState (w : BitVec 128) : State := strandOn .d0 false w

/-- What issues there. -/
def issOf (w : BitVec 128) : Iss :=
  { k := 0, st := smallStrand [frameOf w 0], c := smallCmd (programOf w), i := IWord.ofBits w, pc := 0 }

/-- The state a command answers. -/
def after (r : Res) : State :=
  match r with
  | .next t => t
  | _ => State.reset

def regsOf (t : State) (k : Nat) : List Word := ((t.strandAt k).map (·.s)).getD []

def pcOf (t : State) (k : Nat) : List Nat := ((t.strandAt k).map (fun st => st.frames.map (·.pc))).getD []

/-- Units in the buffer: first address, length, the addresses and bytes of its cells. -/
def unitsOf (t : State) : List (Nat × Nat × List Nat × List Nat) :=
  t.pst.units.map (fun u => (u.dpa, u.len, u.cells.map (·.1), u.cells.map (·.2.toNat)))

/-! ### Ill-formed commands -/

/-- A frame of 16,385 bytes. -/
def longFrame : MFrame :=
  { fallback := false, cls := 2, last := true, region := 5, msn := 9, dpa := 0, position := 0, epoch := 0, ref := 0, aux := 0
    data := List.replicate 16385 0 }

/-- Offsets of one die twice. -/
def twiceDie : TrainResult := ⟨true, 0, 0, 0, [], [(3, 1), (3, 2)], [], none⟩

theorem test_wf_numbers : ([.linkUp .hp0 true 2 false [], .linkUp .hp0 true 7 true [],
    .linkUp .hp0 true 3 false (List.replicate 17 ⟨0, 0, 0, 0, 1, 256, 0⟩), .crossingItemArrival 26 true .nc .good (List.replicate 65 0), .fenceRead .hp0 1 0 0 0, .fenceRead .hp0 1 60 5 0, .fabricLinkTrained .fa0 3,
    .cipMessage (.strand 0 0) 1, .cipMessage .save 17, .flitReplay .ph0 0 257, .garbageCollection 1001 ⟨0, 0, 0, 0, 0⟩,
    .patrol ⟨0, 0, 0, 0, 0⟩ false 101 false ⟨0, 0, 0, 0, 0⟩,
    .restoreEntry 0 33 0, .senseOutOfWindow 9 0, .railLoss 0 3 0, .recalWindow 6 0, .gapFittedChange 6 0 0, .gapDeferral 7 0 false,
    .cflOperationComplete 0 true 17 0, .hazeEntry .aon, .hazeWake .aon] : List Instr).all (fun c => !c.wf) = true := by decide

theorem test_wf_contents : ([.rootProvision .mctp [] (List.replicate 32 0) (List.replicate 16 0), .rootProvision .mctp (List.replicate 8 0) [] (List.replicate 16 0),
    .rootProvision .mctp (List.replicate 8 0) (List.replicate 32 0) [], .adminSet .mctp [] (List.replicate 32 0) (List.replicate 16 0),
    .adminSet .mctp (List.replicate 8 0) [] (List.replicate 16 0), .adminSet .mctp (List.replicate 8 0) (List.replicate 32 0) [],
    .populationCheck (List.replicate 33 ⟨0, 0, 0, 0, true, true⟩), .chIn .ctl 0 (List.replicate 3 ⟨0, 0, 0, 0, true, true⟩), .training 6 0 { twiceDie with offsets := [] },
    .training 2 0 twiceDie, .recalWindowEnd 6 0 false { twiceDie with offsets := [] }, .recalWindowEnd 2 0 false twiceDie, .registerWrite .ctl 0 16 [1],
    .registerWrite .ctl 0 0 [], .registerReadClear .ctl 0 0, .sidebandRead .ctl 0 0 0 (List.replicate 257 0)] : List Instr).all (fun c => !c.wf) = true := by decide

theorem longFrame_wf : longFrame.wf = false :=
  decide_eq_false (by rw [show longFrame.data.length = 16385 from List.length_replicate]; omega)

theorem test_wf_frames : ([.mdata longFrame, .mfwd longFrame, .mord longFrame, .mcv longFrame, .mdrop longFrame, .xopen longFrame, .xgrant longFrame,
    .rpage longFrame, .rreq longFrame, .lease longFrame 0, .mackf longFrame, .ctrlHmap longFrame, .ctrlTime longFrame, .resyncStart longFrame,
    .resyncEnd longFrame, .channelServed longFrame, .channelReturned longFrame] : List Instr).all (fun c => !c.wf) = true := by
  simp only [List.all_cons, List.all_nil, Instr.wf, longFrame_wf, Bool.not_false, Bool.and_self]

theorem test_wf_session_frame (x : SessionParams) : (Instr.ctrlSession longFrame x).wf = false := longFrame_wf

/-! ### Strand instructions -/

/-- Words 0x10 to 0x19 with d = 3, a = 4, b = 5, imm32 = −1. -/
def intWord (op : Nat) : BitVec 128 := word op 3 4 5 false 0xFFFFFFFF 0x123456789

theorem test_integer_can_issue : ∀ op ∈ [0x10, 0x11, 0x12, 0x13, 0x14, 0x15, 0x16, 0x17, 0x18, 0x19],
    CanIssue (strandState (intWord op)) 0 (issOf (intWord op)) ∧ HasWord (strandState (intWord op)) (issOf (intWord op)) 1 ∧
    (issOf (intWord op)).i.op = BitVec.ofNat 8 op := by decide +kernel

/-- s4 = 12 and B = 14: the results of Table ISA-8, by hand. -/
theorem test_integer_results :
    [(regsOf (after (exec (.add 0) (strandState (intWord 0x10)))) 0).getD 3 0,
     (regsOf (after (exec (.sub 0) (strandState (intWord 0x11)))) 0).getD 3 0,
     (regsOf (after (exec (.and 0) (strandState (intWord 0x12)))) 0).getD 3 0,
     (regsOf (after (exec (.or 0) (strandState (intWord 0x13)))) 0).getD 3 0,
     (regsOf (after (exec (.xor 0) (strandState (intWord 0x14)))) 0).getD 3 0,
     (regsOf (after (exec (.shl 0) (strandState (intWord 0x15)))) 0).getD 3 0,
     (regsOf (after (exec (.shr 0) (strandState (intWord 0x16)))) 0).getD 3 0,
     (regsOf (after (exec (.li 0) (strandState (intWord 0x17)))) 0).getD 3 0,
     (regsOf (after (exec (.cmp 0) (strandState (intWord 0x18)))) 0).getD 3 0,
     (regsOf (after (exec (.mov 0) (strandState (intWord 0x19)))) 0).getD 3 0] =
    [26, 0xFFFFFFFFFFFFFFFE, 12, 14, 2, 0x30000, 0, 0x123456789, 0x0A, 12] := by decide +kernel

def nopWord : BitVec 128 := word 0x00 0 0 0 false 0 0
def waitWord : BitVec 128 := word 0x05 0 0 0 false 0 0
def brForward : BitVec 128 := word 0x01 0 0 0 false 2 0
def brBack : BitVec 128 := word 0x01 0 0 0 false 0 2
/-- Conditions 11 NZ (holds: s4 = 12) and 10 Z (does not). -/
def brcTaken : BitVec 128 := word 0x02 11 4 0 false 2 0
def brcNot : BitVec 128 := word 0x02 10 4 0 false 2 0
def sigWord : BitVec 128 := word 0x07 0 4 5 false 2 0

/-- The word in slot 0 issues and two words follow it. -/
abbrev Issues (w : BitVec 128) : Prop :=
  CanIssue (strandState w) 0 (issOf w) ∧ HasWord (strandState w) (issOf w) 1 ∧ HasWord (strandState w) (issOf w) 2 ∧
  (strandState w).svc.proc ≠ 2

theorem test_control_can_issue : ∀ n < 7,
    Issues ([nopWord, waitWord, brForward, brBack, brcTaken, brcNot, sigWord].getD n 0) := by decide +kernel

/-- The strand of `brBack` with its counter at the bound. -/
def spentBranch : State × Iss :=
  let f : Invocation := { prog := .inline (programOf brBack), pc := 0, counters := [(0, 2)] }
  ({ strandState brBack with pe := { (strandState brBack).pe with strands := [(0, smallStrand [f])] } },
   { issOf brBack with st := smallStrand [f] })

theorem test_branch_hypotheses :
    (0 < (issOf brForward).i.imm32.toInt ∧ 0 < (issOf brcTaken).i.imm32.toInt ∧ (issOf brBack).i.imm32.toInt ≤ 0 ∧
      (issOf brBack).i.bound = 2 ∧ (issOf brcTaken).i.d = 11 ∧ (issOf brcNot).i.d = 10) ∧
    CanIssue spentBranch.1 0 spentBranch.2 ∧ spentBranch.2.i.bound = 2 ∧ spentBranch.1.svc.proc ≠ 2 ∧
    (Tab.get (strandState sigWord).pe.qps 1).map (·.sigSecond) = some 1 ∧ (strandState sigWord).time / 1000000000 = 0 ∧
    TakesRecord (strandState sigWord) .pe (issOf sigWord).i.imm32.toNat := by decide +kernel

theorem test_control_results :
    pcOf (after (exec (.nop 0) (strandState nopWord))) 0 = [1] ∧ pcOf (after (exec (.wait 0) (strandState waitWord))) 0 = [1] ∧
    pcOf (after (exec (.br 0) (strandState brForward))) 0 = [2] ∧ pcOf (after (exec (.br 0) (strandState brBack))) 0 = [0] ∧
    pcOf (after (exec (.brc 0) (strandState brcTaken))) 0 = [2] ∧ pcOf (after (exec (.brc 0) (strandState brcNot))) 0 = [1] ∧
    (after (exec (.br 0) spentBranch.1)).strandAt 0 = none ∧ (after (exec (.br 0) spentBranch.1)).fld F.PE_CNT3.BOUND_FAULTS = 1 ∧
    ((after (exec (.sig 0) (strandState sigWord))).recordsFrom .pe).map (fun r => (r.sev, r.object, r.arg0, r.arg1)) =
      [(2, 1, 12, 15)] := by decide +kernel

def callWord : BitVec 128 := word 0x03 0 0 0 false 6 0
def retWord : BitVec 128 := word 0x04 3 4 0 false 0 0
def trapWord : BitVec 128 := word 0x09 0 0 0 false 0x55 0
def yldWord (us : Nat) : BitVec 128 := word 0x06 0 0 0 false us 0

/-- With procedure 6 loaded. -/
def withProc (s : State) : State := { s with pe := { s.pe with procs := [(6, { words := [halt], retired := false })] } }

/-- A strand inside a call. -/
def inCall : State × Iss :=
  ({ strandState retWord with pe := { (strandState retWord).pe with strands := [(0, smallStrand [frameOf retWord 0, frameOf halt 1])] } },
   { issOf retWord with st := smallStrand [frameOf retWord 0, frameOf halt 1] })

theorem test_call_hypotheses :
    CanIssue (withProc (strandState callWord)) 0 (issOf callWord) ∧ (issOf callWord).i.imm32.toNat % 4096 = 6 ∧
    (withProc (strandState callWord)).reachesPriv 8 ((withProc (strandState callWord)).progWords (.proc 6)) = false ∧
    CanIssue inCall.1 0 inCall.2 ∧ inCall.2.st.frames = [frameOf retWord 0, frameOf halt 1] := by decide +kernel

theorem test_end_hypotheses : (∀ n < 5, Issues ([retWord, halt, trapWord, yldWord 0, yldWord 3].getD n 0)) ∧
    (strandState (yldWord 3)).spillFull = false := by decide +kernel

theorem test_call_results :
    pcOf (after (exec (.call 0) (withProc (strandState callWord)))) 0 = [0, 1] ∧ pcOf (after (exec (.ret 0) inCall.1)) 0 = [1] ∧
    (regsOf (after (exec (.ret 0) inCall.1)) 0).getD 3 0 = 12 ∧
    (after (exec (.ret 0) (strandState retWord))).strandAt 0 = none ∧ (after (exec (.hlt 0) (strandState halt))).strandAt 0 = none ∧
    ((after (exec (.trap 0) (strandState trapWord))).cmdOf 0).map (fun c => (c.status, c.result, c.faultOp, c.lastStatus)) =
      some (ST.fault, 0x55, 9, 93) ∧
    pcOf (after (exec (.yld 0) (strandState (yldWord 0)))) 0 = [1] ∧
    pcOf (after (exec (.yld 0) (strandState (yldWord 3)))) 4096 = [1] := by decide +kernel

/-- A strand in the spill area. -/
def spilled (delay : Bool) : State :=
  let s := strandState nopWord
  { s with
    regs := [(Addr.PE_ENGINE_EN, 0)]
    pe := { s.pe with strands := [(4098, { smallStrand [frameOf nopWord 0] with spilled := true, delaying := delay })] } }

theorem test_resume_hypotheses : ∀ d, (spilled d).running .pe = true ∧
    (spilled d).strandAt (4096 + (2 : BitVec 12).toNat) = some { smallStrand [frameOf nopWord 0] with spilled := true, delaying := d } ∧
    ({ spilled d with regs := [] }).placeSlot (({ spilled d with regs := [] } : State).qpPriv 1) = some 0 ∧
    (strandState nopWord).strandReady 0 (smallStrand [frameOf nopWord 0]) = true := by decide +kernel

theorem test_resume_results : ∀ d, ((after (exec (if d then .yldResume 2 else .strandResume 2) { spilled d with regs := [] })).strandAt 0).map
    (fun st => (st.spilled, st.delaying)) = some (false, false) := by decide +kernel

/-! ### Memory and durability instructions -/

/-- Form M: primary handle `hp` at s2 + `off`, secondary handle 0 at s2 + `simm`, a length of `len`. -/
def memWord (op d b off hp simm len : Nat) : BitVec 128 :=
  word op d 2 b true off (hp + 2 * 2 ^ 14 + simm * 2 ^ 20 + (len - 1) * 2 ^ 44)

/-- Region 5 holds 11 22 33 44 at its offset 0x10. -/
def memState (w : BitVec 128) : State :=
  { strandState w with ddr := [(0x10010, 0x11), (0x10011, 0x22), (0x10012, 0x33), (0x10013, 0x44)] }

/-- The instruction issues over region 5, and what the statements ask of the strand beside its checks. -/
abbrev MemIssues (w : BitVec 128) : Prop :=
  CanIssue (memState w) 0 (issOf w) ∧ HasWord (memState w) (issOf w) 1 ∧ FreshOp (issOf w) ∧ (memState w).svc.proc ≠ 2

def ldScratch : BitVec 128 := memWord 0x20 3 0 8 1 0 1
def stScratch : BitVec 128 := memWord 0x21 0 4 16 1 2 1
def ldWord : BitVec 128 := memWord 0x20 3 0 0x10 0 0 4
def cmpmWord : BitVec 128 := memWord 0x25 3 0 0x10 0 0x20 4
def stWord : BitVec 128 := memWord 0x21 0 4 0x40 0 2 4
def cpyWord : BitVec 128 := memWord 0x22 3 0 0x40 0 0x10 4
def filWord : BitVec 128 := memWord 0x23 4 0 0x40 0 0 3
def zroWord : BitVec 128 := memWord 0x24 0 0 0x10 0 0 4
def aaddWord : BitVec 128 := memWord 0x28 3 4 0x10 0 0 1
def acasWord : BitVec 128 := memWord 0x29 3 4 0x10 0 0 1
def fncWord : BitVec 128 := memWord 0x30 0 0 0 0 0 1
def cmtWord : BitVec 128 := memWord 0x31 3 0 0 0 0 1
def mirwWord (ms : Nat) : BitVec 128 := memWord 0x32 3 0 ms 0 0 1

def memWords : List (BitVec 128) :=
  [ldScratch, stScratch, ldWord, cmpmWord, stWord, cpyWord, filWord, zroWord, aaddWord, acasWord, fncWord, cmtWord, mirwWord 0]

theorem test_memory_can_issue : ∀ n < 13, MemIssues (memWords.getD n 0) := by decide +kernel

theorem test_scratch_hypotheses :
    hKind ((issOf ldScratch).st.handle ((issOf ldScratch).st.primHandle (issOf ldScratch).i)) = .scratch ∧
    (memState ldScratch).checks (issOf ldScratch).st [(issOf ldScratch).primAcc .localOrScratch (issOf ldScratch).len rightR false none]
      true (widthOk ((issOf ldScratch).st.primOff (issOf ldScratch).i) (issOf ldScratch).len) = none ∧
    (memState stScratch).checks (issOf stScratch).st
      [(issOf stScratch).primAcc .localOrScratch (issOf stScratch).len rightW true (some (issOf stScratch).cls)]
      true (widthOk ((issOf stScratch).st.primOff (issOf stScratch).i) (issOf stScratch).len) = none := by decide +kernel

theorem test_scratch_results :
    (regsOf (after (exec (.ld 0) (memState ldScratch))) 0).getD 3 0 = 0x5A ∧
    ((after (exec (.st 0) (memState stScratch))).strandAt 0).map (fun st => st.scratch) = some [(8, 0x5A), (16, 14)] := by decide +kernel

/-- The range an instruction names, from its primary operand. -/
def primOf (w : BitVec 128) (want : Want) (rights : Nat) (cls : Option Class) : Acc :=
  (issOf w).primAcc want (issOf w).len rights cls.isSome cls

def secOf (w : BitVec 128) : Acc := (issOf w).secAcc .local_ (issOf w).len rightR false none

/-- A range that can be read, holds no poison and needs no fill. -/
abbrev ReadsWell (s : State) (x : Iss) (lo len : Nat) : Prop := Readable s x 5 lo len ∧ Clean s lo len ∧ NoFill s lo len

theorem test_load_hypotheses :
    Passes (memState ldWord) (issOf ldWord) [primOf ldWord .localOrScratch rightR none] true (widthOk 0x10 4) ∧
    hKind ((issOf ldWord).st.handle 0) = .local_ ∧
    (memState ldWord).accDpa (issOf ldWord).st (primOf ldWord .localOrScratch rightR none) = 0x10010 ∧ (issOf ldWord).len = 4 ∧
    ReadsWell { memState ldWord with nc := { NcState.reset with st := .off } } (issOf ldWord) 0x10010 4 ∧
    Readable (memState ldWord) (issOf ldWord) 5 0x10010 4 := by decide +kernel

theorem test_compare_hypotheses :
    Passes (memState cmpmWord) (issOf cmpmWord) [primOf cmpmWord .local_ rightR none, secOf cmpmWord] true (issOf cmpmWord).lenOk ∧
    Readable (memState cmpmWord) (issOf cmpmWord) 5 0x10010 4 ∧ Readable (memState cmpmWord) (issOf cmpmWord) 5 0x10020 4 ∧ Clean (memState cmpmWord) 0x10010 4 ∧
    Clean (memState cmpmWord) 0x10020 4 ∧ (memState cmpmWord).accDpa (issOf cmpmWord).st (secOf cmpmWord) = 0x10020 := by decide +kernel

/-- The near cache looks nothing up. -/
def ncOff (s : State) : State := { s with nc := { s.nc with st := .off } }

theorem test_write_hypotheses :
    Passes (memState stWord) (issOf stWord) [primOf stWord .localOrScratch rightW (some .d0)] true (widthOk 0x40 4) ∧
    Passes (ncOff (memState cpyWord)) (issOf cpyWord) [primOf cpyWord .local_ rightW (some .d0), secOf cpyWord] true true ∧
    ReadsWell (ncOff (memState cpyWord)) (issOf cpyWord) 0x10010 4 ∧
    (∀ n < 4, WritesOne (memState ([stWord, cpyWord, filWord, zroWord].getD n 0)) (issOf ([stWord, cpyWord, filWord, zroWord].getD n 0))
      5 (0x10000 + [0x40, 0x40, 0x40, 0x10].getD n 0) ([4, 4, 3, 4].getD n 0)) := by decide +kernel

theorem test_fill_hypotheses :
    Passes (memState filWord) (issOf filWord) [primOf filWord .local_ rightW (some .d0)] true true ∧
    Passes (memState zroWord) (issOf zroWord) [primOf zroWord .local_ rightW (some .d0)] true true ∧
    Passes (memState aaddWord) (issOf aaddWord) [(issOf aaddWord).primAcc .local_ 8 rightAtom true (some .d0)] true true ∧
    Passes (memState acasWord) (issOf acasWord) [(issOf acasWord).primAcc .local_ 8 rightAtom true (some .d0)] true true ∧
    (memState aaddWord).unitsNumbered = true := by decide +kernel

/-- What the newest operation of command 0 completes with. -/
def doneOf (t : State) : Option (Option OpDone) := ((t.cmdOf 0).bind (fun c => c.ops.getLast?)).map (·.done)

theorem test_memory_results :
    doneOf (after (exec (.ld 0) (memState ldWord))) = some (some ⟨0, some 0x44332211, 0⟩) ∧
    doneOf (after (exec (.cmpm 0) (memState cmpmWord))) = some (some ⟨0, some 0, 0⟩) := by decide +kernel

theorem test_store_results :
    unitsOf (after (exec (.st 0) (memState stWord))) = [(0x10040, 4, [0x10040, 0x10041, 0x10042, 0x10043], [14, 0, 0, 0])] ∧
    unitsOf (after (exec (.cpy 0) (memState cpyWord))) = [(0x10040, 4, [0x10040, 0x10041, 0x10042, 0x10043], [0x11, 0x22, 0x33, 0x44])] ∧
    unitsOf (after (exec (.fil 0) (memState filWord))) = [(0x10040, 3, [0x10040, 0x10041, 0x10042], [12, 0, 0])] ∧
    (unitsOf (after (exec (.zro 0) (memState zroWord)))).map (fun u => u.2.2.2) = [[0, 0, 0, 0]] := by decide +kernel

theorem test_atomic_results :
    ((after (exec (.aadd 0) (memState aaddWord))).pst.units.map (·.atomic)) = [some (.add 12)] ∧
    ((after (exec (.acas 0) (memState acasWord))).pst.units.map (·.atomic)) = [some (.cas 12 0)] := by decide +kernel

/-- A strand whose operation 0, a MIRW that waits, or an LD whose value is known, is outstanding. -/
def opOutstanding (opcode : Nat) (d : Option OpDone) (quiet : Bool) : State :=
  let s := memState nopWord
  let o : Op := { (issOf nopWord).op s with opcode := opcode, dest := 3, quiet := quiet, region := 5, pages := [4], done := d, phase := if d.isSome then .ready else .source }
  { s with
    phl := { s.phl with separation := [4] }
    pe := { s.pe with cmds := [(0, { smallCmd (programOf nopWord) with ops := [o], nextOp := 1 })] } }

theorem test_mirw_hypotheses : ∀ ms < 2,
    (strandOn .d2 false (mirwWord ms)).checks (issOf (mirwWord ms)).st
      [{ (issOf (mirwWord ms)).primAcc .local_ 0 0 false none with off := 0 }] true true = none ∧
    CanIssue (strandOn .d2 false (mirwWord ms)) 0 (issOf (mirwWord ms)) ∧
    (strandOn .d2 false (mirwWord ms)).accRegion (issOf (mirwWord ms)).st
      { (issOf (mirwWord ms)).primAcc .local_ 0 0 false none with off := 0 } = some (ordinary .d2) ∧
    (strandOn .d2 false (mirwWord ms)).uncopied (ordinary .d2) = [] ∧
    ((opOutstanding 0x32 none false).opOf 0 0).any (fun o => o.pages.any (fun p => ((opOutstanding 0x32 none false).uncopied (ordinary .d0)).contains p)) = true ∧ (opOutstanding 0x32 none false).slotOf 0 = some 0 := by
  decide +kernel

theorem test_durability_results :
    doneOf (after (exec (.fnc 0) (memState fncWord))) = some none ∧ doneOf (after (exec (.cmt 0) (memState cmtWord))) = some none ∧
    (regsOf (after (exec (.mirw 0) (strandOn .d1 false (mirwWord 0)))) 0).getD 3 0 = 1 ∧
    (regsOf (after (exec (.mirw 0) (strandOn .d2 false (mirwWord 0)))) 0).getD 3 0 = 2 ∧
    (regsOf (after (exec (.mirwTimeLimit 0 0) (opOutstanding 0x32 none false))) 0).getD 3 0 = 1 ∧
    (regsOf (after (exec (.mirwTimeLimit 0 0) (opOutstanding 0x32 none false))) 0).getD 31 0 = 0x0A := by decide +kernel

def ldDone (st : Status) : State := opOutstanding 0x20 (some ⟨st, some 77, 2⟩) false

theorem test_completion_hypotheses : (ldDone 0).running .pe = true ∧ (ldDone 0).mod.frozen = false ∧
    ((ldDone 0).opOf 0 0).map (fun o => (o.phase, o.quiet, o.units)) = some (.ready, false, []) ∧ (ldDone 0).slotOf 0 = some 0 ∧
    ((opOutstanding 0x20 (some ⟨0, none, 0⟩) true).opOf 0 0).map (·.quiet) = some true ∧ (ldDone ST.internal).svc.proc ≠ 2 := by
  decide +kernel

theorem test_completion_results :
    (regsOf (after (exec (.instructionCompletion 0 0 []) (ldDone 0))) 0).getD 3 0 = 77 ∧
    (regsOf (after (exec (.instructionCompletion 0 0 []) (ldDone 0))) 0).getD 31 0 = 0x200 ∧
    (regsOf (after (exec (.instructionCompletion 0 0 []) (ldDone ST.poison))) 0).getD 31 0 = 0x09 ∧
    (after (exec (.instructionCompletion 0 0 []) (ldDone ST.internal))).strandAt 0 = none := by decide +kernel

/-- Every instruction of the statement with an offset past the region's end fails with ST_BOUNDS. -/
def badWord (op : Nat) : BitVec 128 := memWord op 3 0 0xFFFF8 0 0xFFFF8 8

theorem test_failed_check_hypotheses : ∀ op ∈ [0x20, 0x21, 0x22, 0x23, 0x24, 0x25, 0x28, 0x29],
    CanIssue (memState (badWord op)) 0 (issOf (badWord op)) ∧
    (memState (badWord op)).checks (issOf (badWord op)).st [(issOf (badWord op)).primAcc .local_ 8 rightR false none] true true =
      some ST.bounds := by decide +kernel

theorem test_failed_point_hypotheses : ∀ op ∈ [0x31, 0x32],
    CanIssue (memState (memWord op 3 0 0 7 0 1)) 0 (issOf (memWord op 3 0 0 7 0 1)) ∧
    (memState (memWord op 3 0 0 7 0 1)).checks (issOf (memWord op 3 0 0 7 0 1)).st
      [{ (issOf (memWord op 3 0 0 7 0 1)).primAcc .local_ 0 0 false none with off := 0 }] true true = some ST.bounds := by
  decide +kernel

theorem test_failed_check_results :
    ((after (exec (.ld 0) (memState (badWord 0x20)))).cmdOf 0).map (fun c => (c.status, c.faultOp)) = some (ST.bounds, 0x20) ∧
    ((after (exec (.cpy 0) (memState (badWord 0x22)))).cmdOf 0).map (fun c => (c.status, c.faultOp)) = some (ST.bounds, 0x22) ∧
    (after (exec (.fil 0) (memState (badWord 0x23)))).pst.units = [] := by decide +kernel

/-! ### Sealed logs and crypto instructions -/

def sealedRegion : Region := { ordinary .d1 with base := 0x100000, len := 0x100000, sealed := true, sealCfg := ⟨1, 0, 100⟩ }

def emptyLog : SealLog :=
  { items := [], nextId := 0, seq := 0, off := 65536, head := List.replicate 32 0, ckpt := 1, doneSeq := 0, doneOff := 65536,
    doneHead := List.replicate 32 0, doneCkpt := 1, soloRecord := false, covered := 0, doneCovered := 0, autoStopped := false }

/-- Region 5 is SEALED and 1 MiB long; region 6, below it, is an ordinary one that handle 2 names. -/
def sealState (w : BitVec 128) (l : SealLog) : State :=
  let s := memState w
  { s with
    regions := [(5, sealedRegion), (6, ordinary .d0)]
    cip := { s.cip with logs := [(5, l)] }
    pe := { s.pe with strands := [(0, { smallStrand [frameOf w 0] with h := [handle5, handleScratch, 0x63D] })] } }

def sealIss (w : BitVec 128) : Iss := { issOf w with st := { smallStrand [frameOf w 0] with h := [handle5, handleScratch, 0x63D] } }

/-- APP of four bytes of region 6 from its offset 0x10, by handle 2. -/
def appWord : BitVec 128 := word 0x38 3 0 0 true 0 (2 * 2 ^ 4 + 2 * 2 ^ 14 + 0x10 * 2 ^ 20 + 3 * 2 ^ 44)
def sealWord : BitVec 128 := memWord 0x39 3 0 0 0 0 1
/-- VRFY of no record. -/
def vrfyNone : BitVec 128 := word 0x3A 3 2 2 true 0 0
def vrfyWord : BitVec 128 := word 0x3A 3 1 1 true 0 0

/-- The access an append names. -/
def sealAcc (w : BitVec 128) (rights : Nat) (cls : Option Class) : Acc :=
  { (sealIss w).primAcc .local_ 0 rights false cls with off := 0, sealedOnly := true }

/-- A record of four bytes that waits for its position, from operation 0 of command 0. -/
def waitingItem : SealItem :=
  { newItem 4 (.strand 0 0) 0 .d3 with payload := [0x11, 0x22, 0x33, 0x44], ready := true }

def oneWaiting : SealLog := { emptyLog with items := [waitingItem], nextId := 1 }

/-- It has its position, as unit 0. -/
def onePlaced : SealLog :=
  { emptyLog with items := [{ waitingItem with unit := some 0, seq := 1, off := 65536 }], nextId := 1, seq := 1, off := 65664 }

def withSealOp (s : State) : State :=
  { s with pe := { s.pe with cmds := [(0, { smallCmd (programOf nopWord) with ops := [(issOf nopWord).op s], nextOp := 1 })] } }

/-- The record's page is dirty already, so that its charge is granted. -/
def charged (s : State) : State :=
  { s with dst := { s.dst with pages := [(0x110000 / 16384, dirtied 1 0 none)] } }

/-- The record has its position, its unit in the buffer. -/
def placed : State :=
  after (exec (.recordPosition 5) (charged (withSealOp (sealState nopWord oneWaiting))))

/-- A checkpoint of operation 0 waits to be signed, as unit 0. -/
def ckptWaiting : SealLog :=
  { emptyLog with items := [{ newItem 0 (.strand 0 0) 0 .d3 with ckpt := true, unit := some 0, no := 1 }], nextId := 1, ckpt := 2 }

theorem test_append_hypotheses :
    CanIssue (sealState appWord emptyLog) 0 (sealIss appWord) ∧ HasWord (sealState appWord emptyLog) (sealIss appWord) 1 ∧
    (sealState appWord emptyLog).accRegion (sealIss appWord).st (sealAcc appWord rightAppend (some .d0)) =
      some sealedRegion ∧
    (sealState appWord emptyLog).isHome sealedRegion = true ∧
    (sealState appWord emptyLog).checks (sealIss appWord).st
      [{ sealAcc appWord rightAppend (some .d0) with short := (sealState appWord emptyLog).logShort 5 sealedRegion 4 },
       (sealIss appWord).secAcc .local_ 4 rightR false none] true true = none := by decide +kernel

theorem test_append_source :
    Readable (ncOff (sealState appWord emptyLog)) (sealIss appWord) 6 0x10010 4 ∧ Clean (ncOff (sealState appWord emptyLog)) 0x10010 4 ∧
    NoFill (ncOff (sealState appWord emptyLog)) 0x10010 4 ∧
    (sealState appWord emptyLog).accDpa (sealIss appWord).st ((sealIss appWord).secAcc .local_ 4 rightR false none) = 0x10010 := by
  decide +kernel

theorem test_position_hypotheses :
    (sealState nopWord oneWaiting).nextRecord oneWaiting = some waitingItem ∧ waitingItem.door = .strand 0 0 ∧
    (charged (sealState nopWord oneWaiting)).chargeFits
      (recordUnit 0 5 sealedRegion oneWaiting waitingItem) = true ∧
    (charged (sealState nopWord oneWaiting)).tenantWaits 1 0 = false ∧ (sealState nopWord oneWaiting).unitsNumbered = true := by
  decide +kernel

theorem test_chain_hypotheses :
    onePlaced.nextLink = some { waitingItem with unit := some 0, seq := 1, off := 65536 } ∧
    (sealState nopWord onePlaced).running .cip = true := by decide +kernel

theorem test_seal_hypotheses :
    CanIssue (sealState sealWord emptyLog) 0 (sealIss sealWord) ∧ FreshOp (sealIss sealWord) ∧
    Passes (sealState sealWord emptyLog) (sealIss sealWord) [sealAcc sealWord rightAppend (some .d0)] true true ∧
    ckptFull sealedRegion emptyLog = false ∧ sealedRegion.sealCfg.autoMs ≠ 0 ∧ onePlaced.covered < onePlaced.seq ∧
    ckptFull sealedRegion { onePlaced with ckpt := 256 } = true ∧ ckptWaiting.unsigned.map (·.door) = some (.strand 0 0) ∧
    ((withSealOp (sealState nopWord ckptWaiting)).opOf 0 0).isSome = true := by decide +kernel

theorem test_verify_hypotheses :
    CanIssue (sealState vrfyNone emptyLog) 0 (sealIss vrfyNone) ∧ (sealIss vrfyNone).sb = 0 ∧
    (sealState vrfyNone emptyLog).checks (sealIss vrfyNone).st [sealAcc vrfyNone rightR none] true true = none ∧
    CanIssue (sealState vrfyWord emptyLog) 0 (sealIss vrfyWord) ∧ (sealIss vrfyWord).sa = 3 ∧ (sealIss vrfyWord).sb = 3 ∧
    (sealState vrfyWord { emptyLog with doneSeq := 5 }).srcReady 0x100000 65536 0 = true := by decide +kernel

theorem test_seal_results :
    ((after (exec (.app 0) (ncOff (sealState appWord emptyLog)))).log 5).map (fun l => l.items.map (fun i => (i.len, i.ready))) =
      some [(4, false)] ∧
    (placed.log 5).map (fun l => (l.seq, l.off)) = some (1, 65664) ∧ placed.pst.units.map (fun u => (u.dpa, u.len)) = [(0x110000, 128)] ∧
    ((after (exec (.seal 0) (sealState sealWord emptyLog))).log 5).map (fun l => (l.ckpt, l.items.map (·.no))) = some (2, [1]) := by
  decide +kernel

theorem test_checkpoint_results :
    ((after (exec (.autoCheckpoint 5) (sealState nopWord onePlaced))).log 5).map (fun l => (l.ckpt, l.covered)) = some (2, 1) ∧
    ((after (exec (.autoCheckpoint 5) (sealState nopWord { onePlaced with ckpt := 256 }))).log 5).map (·.autoStopped) = some true ∧
    ((after (exec (.sealTimeout 5) (withSealOp (sealState nopWord ckptWaiting)))).log 5).map (·.ckpt) = some 1 ∧
    doneOf (after (exec (.sealTimeout 5) (withSealOp (sealState nopWord ckptWaiting)))) = some (some ⟨ST.timeout, none, 0⟩) ∧
    (regsOf (after (exec (.vrfy 0) (sealState vrfyNone emptyLog))) 0).getD 3 0 = BitVec.allOnes 64 := by decide +kernel

/-- DRV of key slot 1: root `root`, use `use`, purpose 0x80. -/
def drvWord (root use purpose : Nat) : BitVec 128 := word 0x40 1 4 5 true (root + use * 2 ^ 8 + purpose * 2 ^ 16) 0

def drvKey : KeyRef := { root := 1, use := 1, purpose := 0x80, tenant := 1, region := 12, node := 0, epoch := 15 }

theorem test_drv_hypotheses :
    CanIssue (strandState (drvWord 1 1 0x80)) 0 (issOf (drvWord 1 1 0x80)) ∧
    (issOf (drvWord 1 1 0x80)).keyRef (strandState (drvWord 1 1 0x80)) = drvKey ∧
    CanIssue (strandState (drvWord 2 1 0x80)) 0 (issOf (drvWord 2 1 0x80)) ∧
    (strandState (drvWord 2 1 0x80)).qpPriv 1 = false ∧ ((issOf (drvWord 2 1 0x80)).keyRef (strandState (drvWord 2 1 0x80))).root = 2 := by
  decide +kernel

/-- The DRV waits for its derivation, or holds its result. -/
def drvOut (d : Option OpDone) : State :=
  let s := strandState nopWord
  let o : Op := { (issOf nopWord).op s with opcode := 0x40, key := some drvKey, keys := [1], done := d, phase := if d.isSome then .ready else .external }
  { s with pe := { s.pe with cmds := [(0, { smallCmd (programOf nopWord) with ops := [o], nextOp := 1 })] } }

theorem test_derivation_hypotheses :
    ((drvOut none).opOf 0 0).map (fun o => (o.phase, o.opcode, o.key)) = some (.external, 0x40, some drvKey) ∧
    ((drvOut (some ⟨0, none, 0⟩)).opOf 0 0).map (fun o => (o.phase, o.keys, o.units)) = some (.ready, [1], []) ∧
    (drvOut none).running .cip = true ∧ (drvOut none).slotOf 0 = some 0 := by decide +kernel

theorem test_drv_results :
    (after (exec (.drv 0) (strandState (drvWord 1 1 0x80)))).fld F.CIP_CNT1.KEY_MISSES = 1 ∧
    doneOf (after (exec (.drv 0) { strandState (drvWord 1 1 0x80) with cip := { CipState.reset with cache := [drvKey] } })) =
      some (some ⟨0, none, 0⟩) ∧
    (after (exec (.drv 0) (strandState (drvWord 2 1 0x80)))).strandAt 0 = none ∧
    (after (exec (.keyDerivation 0 0 2) (drvOut none))).cip.cache = [drvKey] ∧
    (after (exec (.keyDerivation 0 0 2) (drvOut none))).fld F.CIP_CNT3.KDU_RERUNS = 2 ∧
    doneOf (after (exec (.keyDerivation 0 0 3) (drvOut none))) = some (some ⟨ST.internal, none, 0⟩) ∧
    ((after (exec (.instructionCompletion 0 0 []) (drvOut (some ⟨0, none, 0⟩)))).strandAt 0).map (fun st => st.k.take 2) =
      some [none, some drvKey] := by decide +kernel

/-- ENC, DEC, DIG and MAC of 16 bytes from offset 0x10 to 0x100, key slot 1; `m` chooses GCM. -/
def cipherWord (op : Nat) (m : Bool) : BitVec 128 :=
  IWord.toBits { IWord.ofBits (memWord op (if op = 0x43 then 0 else 1) 0 0x100 0 0x10 16) with m := m }

def cipherKey (use : Nat) : KeyRef := { drvKey with use := use }

def cipherStrand (w : BitVec 128) (use : Nat) : Strand :=
  { smallStrand [frameOf w 0] with k := [none, some (cipherKey use), none, none, none, none, none, none] }

def cipherState (w : BitVec 128) (use : Nat) : State :=
  ncOff { memState w with pe := { (memState w).pe with strands := [(0, cipherStrand w use)] } }

def cipherIss (w : BitVec 128) (use : Nat) : Iss := { issOf w with st := cipherStrand w use }

/-- What the statement asks of ENC, DEC, DIG and MAC, the key beside. -/
abbrev CipherReady (w : BitVec 128) (use out : Nat) : Prop :=
  CanIssue (cipherState w use) 0 (cipherIss w use) ∧ HasWord (cipherState w use) (cipherIss w use) 1 ∧ FreshOp (cipherIss w use) ∧
  Passes (cipherState w use) (cipherIss w use) [(cipherIss w use).primAcc .local_ out rightW true (some .d0),
    (cipherIss w use).secAcc .local_ 16 rightR false none] true true ∧
  ReadsWell (cipherState w use) (cipherIss w use) 0x10010 16

theorem test_enc_hypotheses : CipherReady (cipherWord 0x41 false) 0 16 := by decide +kernel

theorem test_dec_hypotheses : CipherReady (cipherWord 0x42 false) 0 16 := by decide +kernel

theorem test_cipher_keys : (cipherIss (cipherWord 0x41 false) 0).i.m = false ∧ (cipherIss (cipherWord 0x42 true) 1).i.m = true ∧
    (cipherStrand (cipherWord 0x41 false) 0).k.getD 1 none = some (cipherKey 0) := by decide +kernel

theorem test_cipher_hypotheses_gcm : CipherReady (cipherWord 0x42 true) 1 0 := by decide +kernel

theorem test_digest_hypotheses : CipherReady (cipherWord 0x43 false) 0 32 := by decide +kernel

theorem test_mac_hypotheses : CipherReady (cipherWord 0x44 false) 2 32 := by decide +kernel

theorem test_cipher_lengths : cipherLenOk true false false 16 = true ∧ cipherLenOk false false false 16 = true ∧
    cipherLenOk false true false 16 = true ∧ (issOf (cipherWord 0x43 false)).lenOk = true := by decide +kernel

/-- Operation 0 of command 0, whose input `l` CIP has. -/
def cipherOp (opcode : Nat) (key : Option KeyRef) (stage : CipStage) (l : List Byte) : Op :=
  { (issOf nopWord).op (memState nopWord) with
    opcode := opcode, dest := 0, quiet := false, phase := .source, region := 5, prim := 0x10100, key := key, len := l.length,
    units := [], input := some l, cip := stage, out := 0, done := none }

def cipherCmd (o : Op) : Cmd := { smallCmd (programOf nopWord) with ops := [o], nextOp := 1 }

def withOp (o : Op) : State := { memState nopWord with pe := { (memState nopWord).pe with cmds := [(0, cipherCmd o)] } }

/-- ENC, DIG and MAC of two bytes once their message has run. -/
def endedOps : List Op := [cipherOp 0x41 (some (cipherKey 1)) .done [7, 8], cipherOp 0x43 none .done [7, 8], cipherOp 0x44 (some (cipherKey 2)) .done [7, 8],
  cipherOp 0x42 (some (cipherKey 1)) .done [7, 8]]

theorem test_cipher_end_hypotheses : ∀ o ∈ endedOps,
    MayProgress (withOp o) 0 0 o (cipherCmd o) 0 (smallStrand [frameOf nopWord 0]) ∧ o.phase = .source ∧ o.input = some [7, 8] ∧
    o.cip = .done ∧ (withOp o).mayAdmit (cipherCmd o) o = true ∧ (Tab.get (withOp o).regions o.region).isSome = true ∧ o.units = [] ∧
    ∀ n ∈ [16, 18, 32], OneUnit (withOp o) o.region o.prim n := by decide +kernel

theorem test_digest_result : unitsOf (after (exec (.instructionCompletion 0 0 []) (withOp (cipherOp 0x43 none .done [])))) =
    [(0x10100, 32, (List.range 32).map (0x10100 + ·),
      [0xe3, 0xb0, 0xc4, 0x42, 0x98, 0xfc, 0x1c, 0x14, 0x9a, 0xfb, 0xf4, 0xc8, 0x99, 0x6f, 0xb9, 0x24,
       0x27, 0xae, 0x41, 0xe4, 0x64, 0x9b, 0x93, 0x4c, 0xa4, 0x95, 0x99, 0x1b, 0x78, 0x52, 0xb8, 0x55])] := by decide +kernel

/-- XTS and a GCM seal always give an output; of two tags one at least does not agree. -/
theorem test_cipher_outputs (key : List Byte) (v : Word) (enc : Bool) (l t u : List Byte) (h : t ≠ u) (ht : t.length = 16)
    (hu : u.length = 16) :
    (∃ b, cipherBytes key v enc false l = some b) ∧ (∃ b, cipherBytes key v true true l = some b) ∧
    (cipherBytes key v false true t = none ∨ cipherBytes key v false true u = none) := by
  refine ⟨⟨_, rfl⟩, ⟨_, rfl⟩, ?_⟩
  simp only [cipherBytes, Bool.not_true, Bool.false_eq_true, if_false, gcmOpen, ht, hu, Nat.sub_self, List.take_zero, List.drop_zero]
  by_cases h1 : gcmTag (aesKeys (key.take 32)) (gcmIv key v) [] [] = t
  · right; rw [if_neg (fun e => h (h1.symm.trans e))]
  · left; rw [if_neg h1]

def someMsg (cls : Nat) : CipMsg := { id := 9, work := .save, lane := false, cls := cls, left := 64, len := 64, bad := [] }

/-- Every AES core runs a message of class `cls`. -/
def busyCores (cls : Nat) : State :=
  { base with cip := { CipState.reset with units := (List.range 20).map (fun u => (u, { running := some (someMsg cls), suspended := [], errors := [] })),
                                           waiting := [{ someMsg 3 with id := 4 }], nextMsg := 20 } }

/-- The message of 64 bytes of a piece of work. -/
def newMsg (s : State) (w : CipWork) (cls : Nat) : CipMsg :=
  { id := s.cip.nextMsg, work := w, lane := false, cls := cls, left := 64, len := 64, bad := [] }

theorem test_scheduler_hypotheses :
    base.noUnit false = false ∧ base.cipMsg .restore 64 = some (newMsg base .restore 1) ∧ base.cipRoom .restore = true ∧
    (busyCores 2).cipMsg .destage 64 = some (newMsg (busyCores 2) .destage 2) ∧ (busyCores 2).cipRoom .destage = true ∧
    (base.unitsFor (newMsg base .restore 1)).find? (fun u => (base.cipUnit u).running.isNone) = some 0 ∧
    ((busyCores 2).unitsFor (newMsg (busyCores 2) .restore 1)).find? (fun u => ((busyCores 2).cipUnit u).running.isNone) = none ∧
    ((busyCores 2).preemptee (newMsg (busyCores 2) .restore 1)).map (·.1) = some 0 ∧
    (busyCores 2).preemptee (newMsg (busyCores 2) .destage 2) = none ∧ ((busyCores 2).cipUnit 3).running = some (someMsg 2) ∧
    (busyCores 2).cip.waiting.map (fun m => (m.id, m.cls)) = [(4, 3)] ∧ 3 ∈ (busyCores 2).unitsInService false := by decide +kernel

theorem test_scheduler_results :
    ((after (exec (.cipMessage .restore 64) base)).cipUnit 0).running = some (newMsg base .restore 1) ∧
    ((after (exec (.cipMessage .restore 64) (busyCores 2))).cipUnit 0).suspended = [someMsg 2] ∧
    (after (exec (.cipMessage .destage 64) (busyCores 2))).cip.waiting.map (·.id) = [4, 20] ∧
    (((after (exec (.cipUnitFree 3) (busyCores 2))).cipUnit 3).running).map (·.id) = some 4 ∧
    (after (exec (.cipAging 4) (busyCores 2))).cip.waiting.map (·.cls) = [2] := by decide +kernel

/-- A strand's message has the class of its queue pair; its end is its operation's. -/
theorem test_strand_message : (withOp (cipherOp 0x41 (some (cipherKey 0)) .none [1, 2])).cipMsg (.strand 0 0) 0 =
      some { id := 0, work := .strand 0 0, lane := false, cls := 0, left := 2, len := 2, bad := [] } ∧
    ((after (exec (.cipUnitFree 0) (after (exec (.cipMessage (.strand 0 0) 0) (withOp (cipherOp 0x41 (some (cipherKey 0)) .none [1, 2])))))).opOf 0 0).map
      (·.cip) = some .done := by decide +kernel

theorem test_parity_results :
    (after (exec (.cipParityError 3 false 0) (busyCores 2))).fld F.CIP_PAR_LOG.UNIT = 3 ∧
    (after (exec (.cipParityError 3 false 0) (busyCores 2))).fld F.CIP_ERR.PARITY = 1 ∧
    ((Tab.get (after (exec (.as8200Mode true) { strandState nopWord with regs := [(Addr.CIP_CTX_SEL, 1)] })).pe.qps 1).map (·.as8200)) =
      some true := by decide +kernel

/-! ### Remote instructions -/

/-- Session 3 of tenant 1, OPEN, with a key for region 9. -/
def ringKey : RingKey := { region := 9, key := 0x77, offset := 0, len := 0x1000, rights := 15, expiry := 9 }

def sessionParams : SessionParams :=
  { session := 3, tenant := 1, peerNode := 6, peerSession := 4, addrA := 1, addrB := 2, pair := 0, relaxed := false, host := false,
    probe := false, entropy := 0, ring := [ringKey] }

def smallSession : Session :=
  { mkSession sessionParams 1024 with st := .open_, epoch := 1, msgNext := 5, creditLimit := 8, lots := [(8, 1000)] }

/-- Handle 2: region 9 over session 3 with every right. -/
def handleRemote : Word := 0x300093E

/-- The small strand with the remote handle in h2; `ring`: a loan over the ring stands there. -/
def remoteStrand (w : BitVec 128) (ring : Bool) : Strand :=
  { smallStrand [frameOf w 0] with h := [handle5, handleScratch, handleRemote], loanH := if ring then [(2, 0)] else [] }

def ringLoan : LoanIn :=
  { cmd := 0, op := 0, st := .active, bytes := 0x1000, lender := 8, session := none, region := 9, offset := 0x100, key := 0x77, tried := 0 }

def remoteState (w : BitVec 128) (ring : Bool) : State :=
  let s := ncOff (memState w)
  { s with
    pe := { s.pe with strands := [(0, remoteStrand w ring)] }
    fab := { s.fab with sessions := [(3, smallSession)] }
    tir := { s.tir with loansIn := [(0, ringLoan)] } }.setFld F.FAB_CREDIT.POOL_SIZE 100

def remoteIss (w : BitVec 128) (ring : Bool) : Iss := { issOf w with st := remoteStrand w ring }

abbrev RemoteIssues (w : BitVec 128) (ring : Bool) : Prop :=
  CanIssue (remoteState w ring) 0 (remoteIss w ring) ∧ HasWord (remoteState w ring) (remoteIss w ring) 1 ∧ FreshOp (remoteIss w ring)

/-- Form M with primary handle `hp` and secondary handle `hs`. -/
def farWord (op hp hs off simm len : Nat) : BitVec 128 :=
  word op 3 2 4 true off (hp + hs * 2 ^ 4 + 2 * 2 ^ 14 + simm * 2 ^ 20 + (len - 1) * 2 ^ 44)

def putWord : BitVec 128 := farWord 0x50 2 0 0x40 0x10 4
def getWord : BitVec 128 := farWord 0x51 0 2 0x40 0x20 4
def raddWord : BitVec 128 := farWord 0x52 2 0 0x40 0 1
def rcasWord : BitVec 128 := farWord 0x53 2 0 0x40 0 1
def rfncWord : BitVec 128 := farWord 0x54 2 0 0 0 1

theorem test_remote_can_issue : ∀ n < 5, RemoteIssues ([putWord, getWord, raddWord, rcasWord, rfncWord].getD n 0) false := by
  decide +kernel

theorem test_ring_can_issue : ∀ n < 3, RemoteIssues ([putWord, getWord, rfncWord].getD n 0) true := by decide +kernel

def putChecks (ring : Bool) : Bool :=
  let x := remoteIss putWord ring
  let s := remoteState putWord ring
  s.checks x.st [x.primAcc .remote x.len rightW false none, x.secAcc .local_ x.len rightR false none] true x.lenOk == none &&
  (s.reach x 2).any (fun r => !loanClassBad (some r) x.cls && r.session.all (· < ringLink) &&
    r.session == (if ring then none else some 3) && r.loan == (if ring then some 0 else none)) &&
  decide (x.c.ops = []) && (s.ses 3).any (fun y => y.st == .open_)

theorem test_put_hypotheses : putChecks false = true ∧ putChecks true = true ∧ (remoteIss putWord false).len = 4 ∧
    (remoteState putWord false).accDpa (remoteIss putWord false).st (secOf putWord) = 0x10010 ∧
    ReadsWell (remoteState putWord false) (remoteIss putWord false) 0x10010 4 ∧
    ReadsWell (remoteState putWord true) (remoteIss putWord true) 0x10010 4 := by decide +kernel

def getChecks (ring : Bool) : Bool :=
  let x := remoteIss getWord ring
  let s := remoteState getWord ring
  s.checks x.st [x.primAcc .local_ x.len rightW true (some x.cls), x.secAcc .remote x.len rightR false none] true x.lenOk == none &&
  (s.reach x 2).any (fun r => r.session.all (· < ringLink) && r.loan.all (· < 2 ^ 17)) && !x.zeroLen && s.poolFree == 100

def pointChecks (w : BitVec 128) (ring : Bool) (len rights : Nat) : Bool :=
  let x := remoteIss w ring
  let s := remoteState w ring
  s.checks x.st [x.primAcc .remote len rights false none] true true == none && (s.reach x 2).isSome

theorem test_remote_hypotheses : getChecks false = true ∧ getChecks true = true ∧ pointChecks raddWord false 8 rightAtom = true ∧
    pointChecks rcasWord false 8 rightAtom = true ∧ pointChecks rfncWord false 0 0 = true ∧ pointChecks rfncWord true 0 0 = true := by
  decide +kernel

/-- What the last message of session 3 says. -/
def lastMsg (t : State) : Option (List Nat × List Byte) :=
  ((t.ses 3).bind (fun x => x.tx.getLast?)).map (fun m => ([m.msg, m.typ, m.region, m.offset, m.len], m.data))

theorem test_remote_results :
    lastMsg (after (exec (.put 0) (remoteState putWord false))) = some ([5, 1, 9, 0x40, 4], [0x11, 0x22, 0x33, 0x44]) ∧
    lastMsg (after (exec (.get 0) (remoteState getWord false))) = some ([5, 3, 9, 0x20, 4], []) := by decide +kernel

theorem test_remote_small_results :
    lastMsg (after (exec (.radd 0) (remoteState raddWord false))) = some ([5, 5, 9, 0x40, 8], []) ∧
    lastMsg (after (exec (.rcas 0) (remoteState rcasWord false))) = some ([5, 5, 9, 0x40, 8], []) ∧
    lastMsg (after (exec (.rfnc 0) (remoteState rfncWord false))) = some ([5, 6, 9, 0, 8], []) := by decide +kernel

theorem test_ring_results :
    (after (exec (.put 0) (remoteState putWord true))).out = [.loanWrite true 0 0x140 [0x11, 0x22, 0x33, 0x44]] ∧
    (after (exec (.get 0) (remoteState getWord true))).out = [.loanRead true 0 0x120 4] ∧
    doneOf (after (exec (.rfnc 0) (remoteState rfncWord true))) = some (some ⟨0, none, 3⟩) := by decide +kernel

/-- A GET of session 3 that waits for its reservation. -/
def waitingGet : State :=
  let s := after (exec (.get 0) (remoteState getWord false))
  s.updSes 3 (updTx 5 (fun m => { m with reserved := false, sent := 0 }))

theorem test_reserve_hypotheses : waitingGet.running .fab = true ∧ ((waitingGet.ses 3).bind (fun y => y.tx.find? (fun m => m.msg == 5))).any
    (fun m => m.typ == 3 && !m.reserved && decide (creditsOf m.len ≤ waitingGet.poolFree)) = true ∧
    ((after (exec (.getCreditReserve 3 5) waitingGet)).ses 3).map (fun y => y.tx.map (·.reserved)) = some [true] := by decide +kernel

/-! ### The near cache and moves -/

/-- Block 16 (DPA 0x10000) resident, with sector 0 dirty. -/
def block16 : NcLine := { way := 0, valid := 0xFFFF, dirty := 1, pin := false, wlk := false, filling := 0 }

/-- The near cache ON, with these lines; tenant 1 has a share of it, and the lines' bytes agree with DDR5 where they are clean. -/
def ncState (w : BitVec 128) (l : Tab NcLine) : State :=
  let s := memState w
  { s with nc := { s.nc with st := .on, lines := l, data := [(0x10000, 0x99), (0x10010, 0x11), (0x10011, 0x22), (0x10012, 0x33), (0x10013, 0x44)] }
           tenants := [(0, smallTenant), (1, { smallTenant with ncMib := 1 })] }

def proWord (op : Nat) : BitVec 128 := memWord op 3 0 0x10 0 0 4

theorem test_tier_can_issue : ∀ n < 12, CanIssue (ncState (proWord ([0x60, 0x61, 0x62, 0x63, 0x64, 0x70, 0x71, 0x72, 0x73, 0x74, 0x75, 0x65].getD n 0)) [(16, block16)]) 0
    (issOf (proWord ([0x60, 0x61, 0x62, 0x63, 0x64, 0x70, 0x71, 0x72, 0x73, 0x74, 0x75, 0x65].getD n 0))) := by decide +kernel

theorem test_tier_checks : ∀ n < 10,
    let w := proWord ([0x60, 0x61, 0x62, 0x63, 0x64, 0x70, 0x71, 0x72, 0x74, 0x75].getD n 0)
    Passes (ncState w [(16, block16)]) (issOf w) [(issOf w).tierAcc rightR] true true ∧
    Passes (ncState w [(16, block16)]) (issOf w) [(issOf w).tierAcc rightW] true true ∧
    (ncState w [(16, block16)]).accDpa (issOf w).st ((issOf w).tierAcc rightR) = 0x10010 := by decide +kernel

theorem test_tier_hypotheses :
    OneResident (ncState (proWord 0x61) [(16, block16)]) 0x10010 4 16 block16 ∧
    OneMissing (ncState (proWord 0x61) []) 0x10010 4 16 0 ∧ (ncState (proWord 0x61) [(16, block16)]).lockFits 16 = true ∧
    (ncState (proWord 0x61) [(16, block16)]).memoriesSound = true ∧ (ncState (proWord 0x61) [(16, block16)]).nc.serving = true := by
  decide +kernel

theorem test_tier_agrees (w : BitVec 128) (y : Nat) : (ncState w [(16, block16)]).agreesAt y := by
  intro h k
  by_cases e : y = 0x10000
  · subst e; exact absurd k (by simp [ncState, NcState.dirtyOf, Tab.get, blockOf, block16, sectorOf])
  · simp [ncState, memState, strandState, strandOn, Memory.read]
    grind

theorem test_tier_dirty_sound (w : BitVec 128) : (ncState w [(16, block16)]).dirtySound := by
  intro b
  by_cases e : 16 = b
  · subst e; exact ⟨by simp [ncState, NcState.dirtyOf, NcState.validOf, Tab.get, block16], fun h => absurd h (by simp [ncState, NcState.serving])⟩
  · simp [ncState, memState, strandState, strandOn, NcState.dirtyOf, NcState.validOf, NcState.inVictim, Tab.get, e, base, State.reset, NcState.reset]

def lineOf (t : State) (b : Nat) : Option NcLine := Tab.get t.nc.lines b

theorem test_tier_results :
    doneOf (after (exec (.pro 0) (ncState (proWord 0x61) [(16, block16)]))) = some (some ⟨0, none, 0⟩) ∧
    lineOf (after (exec (.pro 0) (ncState (proWord 0x61) []))) 16 = some { way := 0, valid := 0, dirty := 0, pin := false, wlk := false, filling := 0xFFFF } ∧
    lineOf (after (exec (.pin 0) (ncState (proWord 0x63) [(16, block16)]))) 16 = some { block16 with pin := true } ∧
    doneOf (after (exec (.wlk 0) (ncState (proWord 0x74) [(16, block16)]))) = some (some ⟨0, some 1, 0⟩) := by decide +kernel

theorem test_demote_results :
    lineOf (after (exec (.dem 0) (ncState (proWord 0x62) [(16, block16)]))) 16 = none ∧
    (after (exec (.dem 0) (ncState (proWord 0x62) [(16, block16)]))).byte 0x10000 = 0x99 ∧
    lineOf (after (exec (.dem 0) (ncState (proWord 0x62) [(16, { block16 with wlk := true })]))) 16 = some { block16 with dirty := 0, wlk := true } ∧
    doneOf (after (exec (.dem 0) (ncState (proWord 0x62) [(16, { block16 with wlk := true })]))) = some (some ⟨ST.busy, none, 0⟩) := by
  decide +kernel

theorem test_maintenance_results :
    lineOf (after (exec (.cln 0) (ncState (proWord 0x70) [(16, block16)]))) 16 = some { block16 with dirty := 0 } ∧
    doneOf (after (exec (.inv 0) (ncState (proWord 0x71) [(16, block16)]))) = some (some ⟨0, some 1, 0⟩) ∧
    lineOf (after (exec (.cli 0) (ncState (proWord 0x72) [(16, block16)]))) 16 = none ∧
    lineOf (after (exec (.unpin 0) (ncState (proWord 0x64) [(16, { block16 with pin := true })]))) 16 = some block16 ∧
    lineOf (after (exec (.wul 0) (ncState (proWord 0x75) [(16, { block16 with wlk := true })]))) 16 = some block16 := by decide +kernel

/-- ZLN over the first 256 bytes of region 5. -/
def zlnWord : BitVec 128 := memWord 0x73 0 0 0 0 0 256

theorem test_zln_hypotheses : Passes (memState zlnWord) (issOf zlnWord) [primOf zlnWord .local_ rightW (some .d0)] true true ∧
    CanIssue (memState zlnWord) 0 (issOf zlnWord) ∧ WritesOne (memState zlnWord) (issOf zlnWord) 5 0x10000 256 := by decide +kernel

/-- The fill of block 16 is under way; block 20 stands in the victim buffer with a dirty sector. -/
def filling16 : State :=
  let s := ncState nopWord [(16, { block16 with valid := 1, filling := 0xFFFE })]
  { s with nc := { s.nc with victim := [{ block := 20, valid := 3, dirty := 1 }] } }

def pinnedState : State :=
  { ncState nopWord [] with regions := [(5, { ordinary .d0 with placement := 1 })] }

theorem test_near_cache_hypotheses :
    filling16.running .nc = true ∧ filling16.memoriesSound = true ∧ filling16.tir.moves = [] ∧ filling16.nc.serving = true ∧
    (filling16.nc.inVictim 20).map (fun v => (v.dirty != 0, v.dirty &&& ~~~v.valid == 0)) = some (true, true) ∧
    pinnedState.running .tir = true ∧ (ordinary .d0).pinned = false ∧ { ordinary .d0 with placement := 1 }.pinned = true ∧
    (blocksOf 0x10000 0x10000).find? (fun b => !((Tab.get pinnedState.nc.lines b).map (·.pin)).getD false) = some 16 := by decide +kernel

theorem test_near_cache_results :
    (lineOf (after (exec (.fillComplete 16) filling16)) 16).map (fun l => (l.valid, l.filling)) = some (0xFFFF, 0) ∧
    (after (exec (.victimWriteBack 20) filling16)).nc.victim.map (·.dirty) = [0] ∧
    (after (exec (.pinFill 5) pinnedState)).tir.moves.map (fun m => (m.held, m.left.length)) = [(true, 16)] := by decide +kernel

def ncIn (st : NcSt) : State := { base with nc := { base.nc with st := st, onAfter := true, staleRisk := true } }

theorem test_near_cache_states :
    (after (exec (.ncEnable false) (ncIn .on))).nc.st = .draining ∧ (after (exec (.ncEnable true) (ncIn .off))).nc.st = .on ∧
    (after (exec .invAll (ncIn .off))).nc.st = .invalidating ∧ (after (exec .ncDrainEnd (ncIn .draining))).nc.st = .off ∧
    (after (exec .invalidatingEnd (ncIn .invalidating))).nc.st = .on ∧ (ncIn .draining).nc.dirtySectors = 0 := by decide +kernel

/-! ### Loans -/

/-- Slot 0 runs a LOAN of 4 KiB; PH1 is up. -/
def loanWord : BitVec 128 := memWord 0x65 3 0 0 1 0 4096

def loanState (known : Bool) : State :=
  let s := memState loanWord
  { s with phl := { s.phl with ph1 := { s.phl.ph1 with up := known } } }

def lrlsWord : BitVec 128 := memWord 0x66 0 0 0 2 0 1

theorem test_loan_hypotheses : CanIssue (loanState true) 0 (issOf loanWord) ∧ HasWord (loanState true) (issOf loanWord) 1 ∧
    (loanState true).lenderAt 0 = some (.ring 1) ∧ (loanState false).lenderAt 0 = none ∧ modeRefuses (loanState true).mod.mode 0x65 = false ∧
    ((issOf loanWord).i.len + 1) % 4096 = 0 ∧ RemoteIssues lrlsWord true ∧
    Tab.get (remoteIss lrlsWord true).st.loanH ((remoteIss lrlsWord true).st.primHandle (remoteIss lrlsWord true).i) = some 0 := by
  decide +kernel

/-- The state after that LOAN, before its lender answers. -/
def reserving : State := after (exec (.loan 0) (loanState true))

def lender : State :=
  { base with tir := { base.tir with loansOut := [(2, { borrower := 6, mib := 1, notice := false })] }
              fab := { base.fab with members := [6, 8] } }

theorem test_loan_event_hypotheses :
    reserving.running .tir = true ∧ reserving.on F.TIR_PLACE_CTL.PLANNED = false ∧ reserving.loanSession none = true ∧
    (Tab.get reserving.tir.loansIn 0).map (fun l => (l.st, (reserving.slotOf l.cmd).isSome, (reserving.opOf l.cmd l.op).isSome)) =
      some (.reserving, true, true) ∧ lender.on F.TIR_PLACE_CTL.LEND_EN = false ∧ Tab.sorted lender.tir.loansOut = true := by
  decide +kernel

theorem test_loan_results :
    reserving.out = [.loanAsk 0 4096 (.ring 1)] ∧ doneOf (after (exec (.loan 0) (loanState false))) = some (some ⟨ST.busy, none, 0⟩) ∧
    doneOf (after (exec (.loanGrant false 0 8 1 none 9 0 7) reserving)) = some (some ⟨0, some 0, 0⟩) ∧
    (after (exec (.lrls 0) (remoteState lrlsWord true))).tir.loansIn = [] ∧
    (after (exec (.reclaim true 0) lender)).tir.loansOut.map (fun e => e.2.notice) = [true] ∧
    (after (exec (.reclaim true 0) lender)).out = [.loanNotice 2 6] := by decide +kernel

def noticed : State :=
  let s := remoteState nopWord true
  { s with tir := { s.tir with loansIn := [(0, { ringLoan with st := .notice })], loansOut := [(2, { borrower := 6, mib := 1, notice := true })] } }

theorem test_loan_end_results :
    (after (exec (.reclaimExpiry false 0) noticed)).tir.loansIn = [] ∧ (after (exec (.reclaimExpiry true 2) noticed)).tir.loansOut = [] ∧
    ((after (exec (.reclaimExpiry false 0) noticed)).strandAt 0).map (fun st => st.h.getD 2 1) = some 0 ∧
    (after (exec (.loanLost 0) (remoteState nopWord true))).fld F.TIR_ERR.LOAN_LOST = 1 := by decide +kernel

def lends : State := lender.setFld F.TIR_PLACE_CTL.LEND_EN 1

/-- It may lend from 1 TiB of DDR5. -/
def roomy : State := { lends.setFld F.TIR_PLACE_CTL.LEND_MAX_GIB 4 with mem := { lends.mem with dpc := 1, gib := 64 } }

theorem test_lender_hypotheses : lends.lendsNow = true ∧ lends.isMember 6 = true ∧ lends.running .tir = true ∧
    roomy.lendsNow = true ∧ 1 ≤ roomy.lendRoom ∧ Tab.has roomy.tir.loansOut 3 = false ∧ roomy.on F.TIR_PLACE_CTL.PLANNED = false ∧
    (after (exec (.loanGrant true 3 6 1 none 0 0 0) roomy)).tir.loansOut.length = 2 := by decide +kernel

/-! ### Privileged instructions -/

/-- A privileged strand whose parameter block stands at DPA 0x10040; 1 TiB of DDR5 is installed. -/
def privState (w : BitVec 128) (blk : List Byte) : State :=
  let s := strandOn .d0 true w
  { s with ddr := (cellsAt 0x10040 blk).filter (fun c => c.2 != 0)
           mem := { s.mem with dpc := 1, gib := 64, limit := 2 ^ 22 } }

/-- Operation `op` of the instruction, its block at offset 0x40 of h0. -/
def privWord (opcode op : Nat) : BitVec 128 := memWord opcode 3 0 op 0 0x40 1

/-- Region 6: two 4 KiB units at 0x40000, floor D0, tenant 1, UNCACHED. -/
def newBlock : List Byte :=
  leBytes 8 6 ++ leBytes 8 0x40000 ++ leBytes 8 2 ++ leBytes 8 (4 * 64 + 65536) ++ leBytes 8 15 ++ leBytes 24 0

/-- Region 5 with half its length. -/
def halfBlock : List Byte :=
  leBytes 8 5 ++ leBytes 8 0x10000 ++ leBytes 8 8 ++ leBytes 8 (4 * 64 + 65536) ++ leBytes 8 15 ++ leBytes 24 0

def bareBlock : List Byte := leBytes 8 5 ++ leBytes 56 0

abbrev PrivIssues (s : State) (w : BitVec 128) (len : Nat) : Prop :=
  CanIssue s 0 (issOf w) ∧ HasWord s (issOf w) 1 ∧ FreshOp (issOf w) ∧ HasParams s (issOf w) [(issOf w).blkAcc len] len

set_option synthInstance.maxSize 1000 in
theorem test_hmap_issues : ∀ n < 3, PrivIssues (privState (privWord 0x80 n) ([newBlock, halfBlock, bareBlock].getD n [])) (privWord 0x80 n) 64 := by
  decide +kernel

theorem test_hmap_hypotheses :
    (privState (privWord 0x80 0) newBlock).createStatus (HBlock.ofBytes newBlock) false = none ∧
    (privState (privWord 0x80 0) newBlock).needsLent 8192 = false ∧ (privState (privWord 0x80 0) newBlock).planned = false ∧
    (HBlock.ofBytes newBlock).sealed = false ∧ (issOf (privWord 0x80 0)).params (privState (privWord 0x80 0) newBlock) 64 = newBlock ∧
    (privState (privWord 0x80 1) halfBlock).modifyStatus 5 (ordinary .d0) (HBlock.ofBytes halfBlock) false = none ∧
    (privState (privWord 0x80 1) halfBlock).mustFence 1 (HBlock.ofBytes halfBlock) = false ∧
    (HBlock.ofBytes bareBlock).notBare = false ∧ (privState (privWord 0x80 2) bareBlock).mustFence 2 (HBlock.ofBytes bareBlock) = false := by
  decide +kernel

theorem test_hmap_read_hypotheses :
    HasParams (privState (privWord 0x80 3) bareBlock) (issOf (privWord 0x80 3)) [(issOf (privWord 0x80 3)).resAcc, (issOf (privWord 0x80 3)).blkAcc 64] 64 ∧
    CanIssue (privState (privWord 0x80 3) bareBlock) 0 (issOf (privWord 0x80 3)) ∧
    WritesOne (privState (privWord 0x80 3) bareBlock) (issOf (privWord 0x80 3)) 5 0x10003 64 := by decide +kernel

theorem test_hmap_results :
    ((Tab.get (after (exec (.hmapCreate 0) (privState (privWord 0x80 0) newBlock))).regions 6).map (fun r => (r.base, r.len, r.tenant))) = some (0x40000, 8192, 1) ∧
    ((Tab.get (after (exec (.hmapModify 0) (privState (privWord 0x80 1) halfBlock))).regions 5).map (·.len)) = some 0x8000 ∧
    Tab.get (after (exec (.hmapDelete 0) (privState (privWord 0x80 2) bareBlock))).regions 5 = none ∧
    (unitsOf (after (exec (.hmapRead 0) (privState (privWord 0x80 3) bareBlock)))).map (fun u => (u.1, u.2.1)) = [(0x10003, 64)] := by
  decide +kernel

/-- A queue pair of tenant 1 with 64 entries: SQ at 0x12000, CQ at 0x14000, journal at 0x80000. -/
def qpBlock : List Byte :=
  leBytes 8 (1 + 6 * 2 ^ 12 + 4 * 2 ^ 32 + 10 * 2 ^ 48) ++ leBytes 8 0x12000 ++ leBytes 8 0x14000 ++ leBytes 8 0x80000 ++ leBytes 160 0

def qctlState (op : Nat) (blk : List Byte) : State :=
  let s := privState (privWord 0x81 op) blk
  { s with
    tenants := [(0, smallTenant), (1, { smallTenant with contexts := 8 })]
    pe := { s.pe with qps := [(1, smallQp true), (20, smallQp false)], procs := [(7, { words := [halt], retired := false })] } }

set_option synthInstance.maxSize 1000 in
theorem test_qctl_issues : ∀ n < 3, PrivIssues (qctlState n (if n = 0 then qpBlock else leBytes 8 20)) (privWord 0x81 n) 192 := by
  decide +kernel

/-- An image of one HLT, at 0x10200. -/
def loadBlock : List Byte := leBytes 8 9 ++ leBytes 8 0x10200 ++ leBytes 8 16

def loadState : State :=
  let s := qctlState 3 loadBlock
  { s with ddr := s.ddr ++ (cellsAt 0x10200 (leBytes 16 halt.toNat)).filter (fun c => c.2 != 0) }

theorem test_proc_issues : PrivIssues loadState (privWord 0x81 3) 192 ∧
    PrivIssues (qctlState 4 (leBytes 8 7)) (privWord 0x81 4) 192 := by decide +kernel

theorem test_qctl_hypotheses :
    (qctlState 0 qpBlock).qctlStatus (QBlock.ofBytes ((issOf (privWord 0x81 0)).params (qctlState 0 qpBlock) 192)) = none ∧
    (qctlState 0 qpBlock).needsLent journalLen = false ∧ (qctlState 1 (leBytes 8 20)).qpCmds 20 = [] ∧
    (qctlState 1 (leBytes 8 20)).regionBusy 5 = false ∧ (qctlState 1 (leBytes 8 1)).qpCmds 1 ≠ [] ∧
    wordsZero ((issOf (privWord 0x81 1)).params (qctlState 1 (leBytes 8 20)) 192) 1 = true := by decide +kernel

theorem test_handles_hypotheses :
    (qctlState 2 (leBytes 8 20)).handlesBad 1 (handlesOf ((issOf (privWord 0x81 2)).params (qctlState 2 (leBytes 8 20)) 192)) = false ∧
    (handlesOf ((issOf (privWord 0x81 2)).params (qctlState 2 (leBytes 8 20)) 192)).any handleStray = false ∧
    loadState.verifyImage 9 (loadState.bytes 0x10200 16) = none ∧ loadState.srcReady 0x10200 16 0 = true ∧
    (Tab.get loadState.pe.procs 9) = none := by decide +kernel

theorem test_qctl_create_result :
    ((Tab.get (after (exec (.qctlCreate 0) (qctlState 0 qpBlock))).pe.qps 16).map (fun q => (q.depth, q.sqBase, q.cqBase, q.jBase))) =
      some (64, 0x12000, 0x14000, 0x80000) := by decide +kernel

theorem test_qctl_results :
    (after (exec (.destroy 0) (qctlState 1 (leBytes 8 20)))).pe.qps.map (·.1) = [1] ∧
    ((Tab.get (after (exec (.handles 0) (qctlState 2 (leBytes 8 20)))).pe.qps 20).map (·.handles.length)) = some 16 ∧
    ((Tab.get (after (exec (.procLoad 0) loadState)).pe.procs 9).map (·.words)) = some [halt] ∧
    ((Tab.get (after (exec (.procRetire 0) (qctlState 4 (leBytes 8 7)))).pe.procs 7).map (·.retired)) = some true := by decide +kernel

/-- Tenant 3 with 1 MiB of DDR5; tenant 3 with more than there is; a release of tenant 2. -/
def admitOf (t mib : Nat) : List Byte := leBytes 8 t ++ leBytes 8 mib ++ leBytes 48 0

def admitState (t mib : Nat) : State :=
  let s := privState (privWord 0x82 0) (admitOf t mib)
  { s with tenants := s.tenants ++ [(2, Tenant.none_)] }

theorem test_admit_hypotheses :
    PrivIssues (admitState 3 1) (privWord 0x82 0) 64 ∧ (admitState 3 1).planMissing = false ∧
    admitBlock (admitOf 3 1) = (3, { Tenant.none_ with ddrMib := 1 }, false) ∧ (admitState 3 1).admitMask 3 { Tenant.none_ with ddrMib := 1 } = 0 ∧
    (admitState 3 (2 ^ 30)).admitMask 3 { Tenant.none_ with ddrMib := 2 ^ 30 } = 1 ∧ (admitState 2 0).tenantOwns 2 = false := by
  decide +kernel

theorem test_admit_results :
    (after (exec (.admit_ 0) (admitState 3 1))).tenants.map (·.1) = [0, 1, 2, 3] ∧
    doneOf (after (exec (.admit_ 0) (admitState 3 (2 ^ 30)))) = some (some ⟨ST.busy, some 1, 0⟩) ∧
    (after (exec (.admit_ 0) (admitState 2 0))).tenants.map (·.1) = [0, 1] := by decide +kernel

/-- An amendment of one BORROW entry: 1 GiB from node 8. -/
def amendBlock (id no : Nat) : List Byte :=
  leBytes 8 id ++ leBytes 4 no ++ leBytes 2 1 ++ leBytes 50 0 ++ leBytes 8 4 ++ leBytes 56 (8 + 2 ^ 18) ++ leBytes 96 0

def planState (op : Nat) : State :=
  let s := (privState (privWord 0x83 op) (amendBlock 0x55 1)).setFld F.TIR_PLACE_CTL.PLANNED 1
  { s with tir := { s.tir with plan := some { id := 0x55, amend := 0, entries := 0, bytes := [], lend := [], borrow := [] } } }

theorem test_plan_hypotheses :
    CanIssue (planState 0) 0 (issOf (privWord 0x83 0)) ∧ (planState 0).amendLen (issOf (privWord 0x83 0)) = 224 ∧
    HasParams (planState 0) (issOf (privWord 0x83 0)) [(issOf (privWord 0x83 0)).blkAcc 224] 224 ∧
    (issOf (privWord 0x83 0)).params (planState 0) 224 = amendBlock 0x55 1 ∧ planForm (amendBlock 0x55 1) = true ∧
    (planEntries (amendBlock 0x55 1) 1).all (fun e => !entryStray e && (blkWord e 0 % 256 == 4)) = true := by decide +kernel

theorem test_query_hypotheses :
    CanIssue (planState 1) 0 (issOf (privWord 0x83 1)) ∧ Passes (planState 1) (issOf (privWord 0x83 1)) [(issOf (privWord 0x83 1)).resAcc] true true ∧
    WritesOne (planState 1) (issOf (privWord 0x83 1)) 5 0x10001 64 ∧
    (planEntries (amendBlock 0x55 1) 1).all (fun e => !entryStray e && (blkWord e 0 == 4)) = true ∧
    (unitsOf (after (exec (.planQuery 0) (planState 1)))).map (fun u => u.1) = [0x10001] := by decide +kernel

/-! ### Queue pairs -/

/-- Queue pair 20 of tenant 1 with an entry to fetch: an INLINE program of one HLT, tag 7. -/
def entryBytes : List Byte := leBytes 8 (1 + 2 ^ 8 + 7 * 2 ^ 16) ++ leBytes 8 9 ++ leBytes 16 halt.toNat ++ leBytes 32 0

def queueState : State :=
  let s := strandState nopWord
  ({ s with
    ddr := (cellsAt 0x10000 entryBytes).filter (fun c => c.2 != 0)
    regions := [(5, ordinary .d0), (7, { ordinary .d2 with base := 0x40000, len := 0x40000, downgrade := true })]
    pe := { s.pe with qps := [(20, { smallQp false with jBase := 0x40000, jRegion := 7, sqTail := 1 })], cmds := [], nextCmd := 0, strands := [] }
    hst := { s.hst with hp0 := { s.hst.hp0 with link := 2, mldSwitch := true } } }.setFld F.PE_CTL.ENABLE 1).setFld (F.HST_PORT_CTL.MLD .hp0) 1 |>.setFld (F.HST_PORT_CTL.ENABLE .hp0) 1|>.setFld
      (F.HST_LD_MAP.TENANT .hp0 3) 1 |>.setFld (F.HST_LD_MAP.ENABLE .hp0 3) 1 |>.setRaw Addr.PE_ENGINE_EN 1

theorem test_doorbell_hypotheses : queueState.portUp .hp0 = true ∧ queueState.ldEnabled .hp0 3 = true ∧ queueState.ldTenant .hp0 3 = 1 ∧
    ((Tab.get queueState.pe.qps 20).map (fun q => (q.tenant, q.depth, ringGap q.depth q.cqHead 0, q.posted.length))) = some (1, 4, 0, 0) ∧
    ((Tab.get (after (exec (.sqTail .hp0 3 20 (some 2)) queueState)).pe.qps 20).map (·.sqTail)) = some 2 ∧
    (after (exec (.sqTail .hp0 3 9 (some 2)) queueState)).pe.qps = queueState.pe.qps := by decide +kernel

theorem test_fetch_hypotheses : queueState.fetches = true ∧
    (Tab.get queueState.pe.qps 20).any (fun q => queueState.fetchable 20 q && queueState.fetchTurn 20 q &&
      (queueState.fetchCheck q (QEntry.ofBytes entryBytes)).isNone) = true ∧
    queueState.d0Pending 0x10000 64 = false ∧ queueState.unitsNumbered = true ∧ queueState.bytes 0x10000 64 = entryBytes ∧
    ({ queueState with mod := { queueState.mod with mode := .halt } }.fetchCheck (smallQp false) (QEntry.ofBytes entryBytes)) = some ST.mode := by
  decide +kernel

def fetched : State := after (exec (.commandFetch 20) queueState)

theorem test_start_hypotheses : fetched.running .pe = true ∧
    (fetched.cmdOf 0).map (fun c => (c.started, c.tag, c.fseq, fetched.mayStart 0 c)) = some (false, 7, 1, true) ∧
    fetched.placeSlot false = some 0 ∧ fetched.tenantSlot 1 = true ∧ fetched.unitsNumbered = true ∧
    fetched.pst.units.map (fun u => (u.dpa, u.len)) = [(0x40000, 64)] := by decide +kernel

def started : State := after (exec (.strandStart 0) fetched)

/-- The command has ended and its journal entry ACCEPTED is durable. -/
def settledState (failed closed : Bool) : State :=
  started.updCmd 0 (fun c => { c with accepted := true, ended := true, faulted := failed, closed := closed, closing := closed,
                                      state := if closed then .durable else c.state })

theorem test_command_end_hypotheses : (started.strandAt 0).isSome = true ∧
    ((settledState false false).cmdOf 0).any (fun c => c.settled && !c.failed && c.accepted && !c.closing) = true ∧
    ((settledState true false).cmdOf 0).any (fun c => c.settled && c.failed && c.accepted && !c.closing) = true ∧
    ((settledState false true).regionAt 0x11000).map (·.1) = some 5 ∧ (settledState false true).unitsNumbered = true := by decide +kernel

theorem test_command_end_results :
    ((after (exec (.commandDurable 0) (settledState false false))).cmdOf 0).map (fun c => (c.state, c.closing)) = some (.durable, true) ∧
    ((after (exec (.commandDurable 0) (settledState true false))).cmdOf 0).map (fun c => (c.state, c.closing)) = some (.failed, true) ∧
    (after (exec (.completionPost 0) (settledState false true))).pst.units.map (fun u => (u.dpa, u.len)) =
      [(0x40000, 64), (0x40000, 64), (0x11000, 32), (0x40000, 64)] := by decide +kernel

/-- An LD of command 0 waits for page 4; a ST waits for headroom with unit 3. -/
def waitOp : Op := { (issOf nopWord).op (memState nopWord) with opcode := 0x20, prim := 0x10010, len := 4, region := 5 }

def waitingState : State :=
  let s := memState nopWord
  { s with
    regions := [(5, ordinary .d1)]
    dst := { s.dst with pages := [(4, { dirty := false, tenant := 1, destaging := false, redirtied := false, since := 0, written := true, unrestored := true, demand := true })] }
    pe := { s.pe with strands := [(0, { smallStrand [frameOf nopWord 0] with stageWait := true })]
                      cmds := [(0, { smallCmd (programOf nopWord) with ops := [waitOp], nextOp := 1 })] } }

def waitUnit : CUnit := { mkUnit 3 5 (ordinary .d1) 0x10010 4 (cellsAt 0x10010 [1, 2, 3, 4]) .d1 (.strand 0 0) false with written := true }

def noHeadroom : State :=
  let s := memState nopWord
  { s with
    pst := { s.pst with units := [waitUnit], nextUnit := 4 }
    pe := { s.pe with strands := [(0, { smallStrand [frameOf nopWord 0] with stageWait := true })]
                      cmds := [(0, { smallCmd (programOf nopWord) with
                        ops := [{ waitOp with opcode := 0x21, phase := .units, units := [3] }], nextOp := 1, hist := [{ id := 3, op := 0, region := 5, settle := .pending, reported := false }] })] } }

theorem test_wait_limit_hypotheses :
    waitingState.ceilingWaits waitOp = [] ∧ waitingState.tierFetch waitOp = true ∧ waitingState.sourceUnrestored waitOp = true ∧
    noHeadroom.ceilingWaits { waitOp with opcode := 0x21, phase := .units, units := [3] } = [waitUnit] ∧
    noHeadroom.tierFetch { waitOp with opcode := 0x21, phase := .units, units := [3] } = false ∧ noHeadroom.unitsNumbered = true ∧
    noHeadroom.hst.reads = [] := by decide +kernel

theorem test_wait_limit_results :
    doneOf (after (exec (.waitLimitExpiry 0) waitingState)) = some (some ⟨ST.restoring, none, 0⟩) ∧
    (after (exec (.waitLimitExpiry 0) noHeadroom)).pst.units = [] ∧
    ((after (exec (.waitLimitExpiry 0) noHeadroom)).cmdOf 0).map (fun c => c.hist.map (·.settle)) = some [.failed ST.ceiling] := by decide +kernel

/-! ### Units -/

/-- Two units of region 5 that cover one byte in common, the first ready to commit. -/
def twoUnits (committed : Bool) : State :=
  let s := memState nopWord
  let u := mkUnit 0 5 (ordinary .d1) 0x10010 4 (cellsAt 0x10010 [1, 2, 3, 4]) .d1 (.strand 0 0) false
  let v := mkUnit 1 5 (ordinary .d1) 0x10013 2 (cellsAt 0x10013 [5, 6]) .d1 .device false
  { ncOff s with pst := { s.pst with units := [{ u with written := true, charged := true, position := 1, committed := committed },
                                         { v with written := true, charged := true, position := 2 }], nextUnit := 2 } }

theorem test_commit_hypotheses : (twoUnits false).unitsNumbered = true ∧
    (twoUnits false).pst.units.all (fun u => u.id != 0 || ((twoUnits false).commitReady u && (twoUnits false).reachable u == some .d1 &&
      !(twoUnits false).modeOut u)) = true ∧ (twoUnits false).running .pst = true ∧ (twoUnits false).hst.reads = [] ∧
    (twoUnits true).placing = true ∧ (twoUnits true).pst.units.all (fun u => u.id != 0 || ((twoUnits true).placeTurn u &&
      !(twoUnits true).unrestoredIn u.dpa u.len && !(twoUnits true).repairing u.dpa u.len)) = true ∧ (twoUnits true).nc.st = .off := by
  decide +kernel

theorem test_commit_results :
    (after (exec (.commitUnit 0) (twoUnits false))).bytes 0x10010 5 = [1, 2, 3, 4, 0] ∧
    (after (exec (.commitUnit 1) (twoUnits false))).bytes 0x10010 5 = [0x11, 0x22, 0x33, 0x44, 0] ∧
    (after (exec (.placement false 0) (twoUnits true))).bytes 0x10010 5 = [1, 2, 3, 4, 0] ∧
    (after (exec (.placement false 0) (twoUnits true))).pst.units.map (·.id) = [1] ∧
    (after (exec (.placement false 0) (twoUnits true))).memoriesSound = true := by decide +kernel

/-- A unit of a strand whose data is on crossing 12, at D0 or D1. -/
def crossingOf (cls : Class) : State :=
  let s := memState nopWord
  let u := mkUnit 0 5 (ordinary cls) 0x10010 4 (cellsAt 0x10010 [1, 2, 3, 4]) cls (.strand 0 0) false
  { s with pst := { s.pst with units := [u], nextUnit := 1 }, xing := [(24, [.write 0])]
           phl := { s.phl with copies := [{ uid := 0, msn := 9, extent := false, ref := none, region := 5, dpa := 0x10020, cls := .d2, position := 1, last := true, cells := [(0x10020, 7)], committed := true, charged := true }] } }

def crossing : State := crossingOf .d1

theorem test_crossing_hypotheses : crossing.running .pst = true ∧ crossing.channel = none ∧ (crossing.port .hp0).closing = false ∧
    (crossing.port .hp1).closing = false ∧ crossing.unitsNumbered = true ∧
    (after (exec (.crossingItemArrival 12 true .pe .good []) crossing)).pst.units.map (fun u => (u.written, u.committed)) = [(true, false)] ∧
    (after (exec (.crossingItemArrival 12 true .pe .good []) (crossingOf .d0))).pst.units.map (fun u => (u.written, u.committed)) = [(true, true)] ∧
    (crossingOf .d0).pst.units.all (fun u => u.volatile && !(crossingOf .d0).modeOut u && u.chained && u.hold == .none && !u.charged) = true ∧
    (after (exec (.crossingItemArrival 12 true .pe .resentBad []) crossing)).pst.units = [] ∧
    (after (exec (.placement true 9) crossing)).phl.copies = [] ∧
    Memory.read (after (exec (.placement true 9) crossing)).ddr 0x10020 = 7 := by decide +kernel

def extentState (door : Door) : State :=
  let s := memState nopWord
  let e : Extent := { region := 5, dpa := 0x10010, declared := 4, arrived := cellsAt 0x10010 [1, 2, 3, 4], got := 4, cls := .d0, door := door, opened := false, xopen := none, granted := false, sent := [] }
  { s with pst := { s.pst with extents := [(2, e)], nextExtent := 3 } }

theorem test_extent_hypotheses : (extentState (.strand 0 0)).unitsNumbered = true ∧
    (Tab.get (extentState (.strand 0 0)).pst.extents 2).any (fun e => (extentState (.strand 0 0)).extentFits e && !e.opened) = true ∧
    (after (exec (.extentReservation 2) (extentState (.strand 0 0)))).pst.units.map (·.extent) = [true] ∧
    (after (exec (.extentReservation 2) (extentState (.fabric 3 1 false)))).pst.extents.map (fun e => e.2.opened) = [true] := by decide +kernel

/-! ### Host ports -/

/-- HP0 in L0 under an MLD switch with five credits, its LD 3 bound to tenant 1 with a fence window at page 0x30; a decoder maps the
first MiB to it. -/
def hostState : State :=
  ((({ ncOff (memState nopWord) with
      hst := { base.hst with
        hp0 := { base.hst.hp0 with link := 2, mldSwitch := true, credits := 5, rxSeq := 7 }
        decoders := [(.hp0, { ld := 3, base := 0, size := 0x100000, dpa := 0, ways := 1, gran := 256, index := 0 })] }
      mem := { base.mem with dpc := 1, gib := 64 } }.setFld
      (F.HST_LD_MAP.TENANT .hp0 3) 1).setFld
    (F.HST_LD_MAP.ENABLE .hp0 3) 1).setFld (F.HST_LD_FENCE.ENABLE .hp0 3) 1).setFld (F.HST_LD_FENCE.DPA_PAGE .hp0 3) 0x30 |>.setFld
    (F.HST_PORT_CTL.MLD .hp0) 1

/-- What Table HST-2 makes of a request to that LD: the region, or the status. -/
def caseOf (dpa : Nat) (write : Bool) : Nat × Nat :=
  match hostState.addrCase .hp0 3 dpa write with
  | .fault st => (1, st.toNat)
  | .region n _ => (0, n)

theorem test_host_hypotheses :
    hostState.portUp .hp0 = true ∧ hostState.ldEnabled .hp0 3 = true ∧ hostState.ldEnabled .hp0 4 = false ∧
    hostState.hdmDpa .hp0 3 0x10000 = some 0x10000 ∧ hostState.hdmDpa .hp0 3 0x100000 = none ∧ 0 < (hostState.port .hp0).credits ∧
    hostState.inOwnFence .hp0 3 0x10000 = false ∧ caseOf 0x10000 true = (0, 5) ∧ caseOf 0x90000 true = (1, 0x02) ∧
    caseOf 0x10000 false = (0, 5) ∧ hostState.unrestored 0x10000 = false ∧ hostState.unitsNumbered = true ∧
    hostState.ldHolds .hp0 3 = false ∧ hostState.readsOut .hp0 + hostState.fencesOut .hp0 = 0 := by decide +kernel

theorem test_host_read_hypotheses : NoFill hostState 0x10000 64 ∧ hostState.lineBlockedBut (hostState.openExtents 0x10000 64) 0x10000 64 0 = false ∧
    hostState.readAtTwin (ordinary .d0) 0x10000 64 = false ∧
    (twoUnits false).lineBlockedBut ((twoUnits false).openExtents 0x10000 64) 0x10000 64 2 = true ∧
    { hostState with phl := { hostState.phl with twin := .paired } }.readAtTwin { ordinary .d0 with homeOdd := true } 0x10000 64 = true := by
  decide +kernel

theorem test_host_results :
    ((unitsOf (after (exec (.memWr .hp0 3 0x400 5 false) hostState))).map (fun u => (u.1, u.2.1, u.2.2.2.take 2))) = [(0x10000, 64, [5, 0])] ∧
    ((unitsOf (after (exec (.memWrPtl .hp0 3 0x400 5 2 false) hostState))).map (fun u => u.2.2)) = [([0x10001], [0])] ∧
    ((after (exec (.memWr .hp0 3 0x2400 5 false) hostState)).ld .hp0 3).status = ST.bounds ∧
    (after (exec (.memWr .hp0 4 0x400 5 false) hostState)).out.getLast? = some (.unsupported .hp0 0) := by decide +kernel

theorem test_host_read_results :
    ((after (exec (.memRd .hp0 3 0x400 9) hostState)).out.map (fun o => match o with
      | .cxlData _ _ tag b _ _ => (tag, (b.getD 0x10 0).toNat)
      | _ => (0, 0))) = [(9, 0x11)] ∧
    (after (exec (.memInv .hp0 3 0x400 9) hostState)).out = [.cxlInv .hp0 3 9 (hostState.devLoad .hp0 3)] := by decide +kernel

/-- A line under repair makes a read of it wait. -/
def blockedState : State := { hostState with mem := { hostState.mem with repairs := [{ line := 0x10000, fromTwin := false, demand := false }] } }

/-- A held write of LD 3, which needs no charge. -/
def heldState : State :=
  let u := { mkUnit 0 5 (ordinary .d0) 0x10000 64 [] .d0 (.cxl .hp0 3) false with hold := .credit, written := true }
  { hostState with pst := { hostState.pst with units := [u], nextUnit := 1 } }

theorem test_held_hypotheses : (heldState.oldestHeld .hp0 3).map (fun u => (u.id, u.free, u.hold)) = some (0, true, .credit) ∧
    heldState.unitsNumbered = true ∧ heldState.ldHolds .hp0 3 = true ∧
    (after (exec (.heldWriteRelease .hp0 3) heldState)).out = [.cxlCredits .hp0 1] ∧
    (after (exec (.heldWriteRelease .hp0 3) heldState)).pst.units.map (fun u => (u.hold, u.charged)) = [(.none, true)] := by decide +kernel

/-- A fence read of 64 bytes waits in LD 3's window, for a write that has settled or not. -/
def fenceState (settled : Bool) : State :=
  hostState.setLd .hp0 3 { LdState.empty with
    taken := [{ id := 0, dpa := 0x10000, settle := if settled then .reached .d0 else .pending }]
    waiting := [{ bound := 1, off := 0, len := 64, tag := 8 }] }

theorem test_fence_hypotheses : (fenceState true).fenceOpen .hp0 3 = true ∧ ((fenceState true).ld .hp0 3).settled 1 = true ∧
    ((fenceState false).ld .hp0 3).settled 1 = false ∧ (fenceState true).fencesOut .hp0 = 1 := by decide +kernel

theorem test_fence_results :
    ((after (exec (.fenceComplete .hp0 3) (fenceState true))).ld .hp0 3).seq = 1 ∧
    ((after (exec (.fenceComplete .hp0 3) (fenceState true))).ld .hp0 3).taken = [] ∧
    ((after (exec (.fenceTimeout .hp0 3) (fenceState false))).ld .hp0 3).waiting = [] ∧
    (after (exec (.fenceTimeout .hp0 3) (fenceState false))).fld (F.HST_CNT2.FENCE_TIMEOUTS .hp0) = 1 := by decide +kernel

theorem test_flush_hypotheses : hostState.portSettled .hp0 0 = true ∧ (fenceState false).portSettled .hp0 1 = false ∧
    (hostState.port .hp0).gpf = none ∧ (after (exec (.gpfFlush .hp0) hostState)).out = [.gpfDone .hp0] ∧
    (hostState.setPort .hp0 { hostState.port .hp0 with gpf := some 0 }).portUp .hp0 = true := by decide +kernel

/-- The port's link before it comes up. -/
def linkState : State :=
  ({ hostState with cal := { hostState.cal with units := [(unitKey 3 0, { hostState.calUnit (unitKey 3 0) with st := 2 })] } }.setPort .hp0
    { hostState.port .hp0 with link := 1 }).setFld (F.HST_PORT_CTL.ENABLE .hp0) 1

theorem test_link_hypotheses : linkState.linkAllowed = true ∧ linkState.lanesTrained 3 Port.hp0.idx = true ∧ (hostState.port .hp0).flitSeen 6 = true ∧ linkState.on (F.HST_PORT_CTL.ENABLE .hp0) = true ∧
    (hostState.port .hp0).link = 2 ∧ hostState.portCrossing .hp0 = false ∧
    (heldState.updUnit 0 (fun u => { u with written := false })).portCrossing .hp0 = true ∧
    ((after (exec (.linkUp .hp0 true 5 true []) linkState)).port .hp0).width = 16 ∧
    ((after (exec (.linkDown .hp0) hostState)).port .hp0).link = 0 := by decide +kernel

/-! ### Records and counters -/

def aRecord (no sev : Nat) : Record :=
  { time := 0, no := no, sev := sev, island := 6, cat := 1, inst := 0, boot := 0, lostBefore := 0, object := 0, reg := 0, value := 0,
    arg0 := 0, arg1 := 0 }

/-- A record of severity `sev` from PST waits; `n` records are unflushed. -/
def recState (scanned : Bool) (n sev : Nat) : State :=
  { base with
    xing := [(70, [.record (aRecord 0 sev)])]
    contrail := { base.contrail with scanned := scanned, ring := [aRecord 5 2], nextNo := 6, unflushed := List.replicate n 5 } }

theorem test_record_hypotheses : (recState true 1 4).recUp = true ∧ (Tab.get (recState true 1 4).xing (64 + Island.pst.code)).isSome = true ∧
    (recState true 8192 4).contrail.victim 4 = some 5 ∧ (recState true 8192 2).contrail.victim 2 = none ∧
    8192 ≤ (recState true 8192 4).contrail.unflushed.length ∧ 8448 ≤ (recState true 8448 4).contrail.unflushed.length ∧
    { (recState true 8448 7).contrail with ring := [] }.victim 6 = none ∧ (aRecord 0 7).rank = 6 ∧ (aRecord 0 2).rank = 2 := by decide +kernel

theorem test_record_results :
    (after (exec (.contrailRecord .pst) (recState true 1 4))).contrail.ring.map (fun r => (r.no, r.sev)) = [(5, 2), (6, 4)] ∧
    (after (exec (.contrailRecord .pst) (recState true 1 4))).contrail.flushing = true ∧
    (after (exec (.contrailRecord .pst) (recState true 1 2))).contrail.flushing = false ∧
    (after (exec (.contrailRecord .pst) (recState true 8192 2))).fld F.REC_CNT0.LOST_LOW = 1 ∧
    (after (exec (.contrailRecord .pst) (recState false 1 4))).contrail.waiting.length = 1 := by decide +kernel

/-- Two records in the log, the second a clear of severity 2. -/
def logState (clear : Bool) : State :=
  { base with contrail := { base.contrail with
      log := [aRecord 3 2, { aRecord 4 7 with cat := 7, inst := if clear then 1 else 2, arg0 := 4 }] } }

theorem test_scan_hypotheses : (logState true).recUp = true ∧ ((logState true).contrail.log.map (·.isClear)) = [false, true] ∧
    ((logState false).contrail.log.map (·.isClear)) = [false, false] ∧
    ((after (exec (.recScan [3]) (logState false))).contrail.log.map (·.no)) = [4] ∧
    (after (exec (.recScan [3]) (logState false))).fld F.REC_CNT1.SCAN_BAD = 1 ∧
    ((after (exec (.recScan []) (logState true))).contrail.log.map (·.no)) = [4] ∧
    (after (exec (.recScan []) (logState true))).contrail.nextNo = 5 := by decide +kernel

theorem test_read_out_hypotheses :
    ((recState true 1 4).contrail.readable.find? (fun x => x.no == 5)).isSome = true ∧ (recState true 1 4).contrail.nextNo = 6 ∧
    (after (exec (.recordRead 5 false) (recState true 1 4))).fld F.REC_RD_SEL.STATUS = 0 ∧
    (after (exec (.recordRead 2 false) (recState true 1 4))).fld F.REC_RD_SEL.STATUS = 1 ∧
    (after (exec (.recordRead 2 true) (recState true 1 4))).fld F.REC_RD_SEL.RECORD_NO = 5 ∧
    (after (exec (.recordRead 6 false) (recState true 1 4))).fld F.REC_RD_SEL.STATUS = 2 := by decide +kernel

/-- Counter `n` counts an event and stands at its top. -/
def pmuState (n : Nat) (chain : Bool) : State :=
  (((((base.setFld F.PMU_CTL.ENABLE 1).setFld (F.PMU_GRP.ENABLE 0) 1).setFld (F.PMU_SEL.EVENT n) 5).setFld (F.PMU_CNT.COUNT n)
    (2 ^ 48 - 1)).setFld (F.PMU_SEL.CHAIN (n + 1)) (if chain then 1 else 0)).setFld (F.PMU_CNT.COUNT (n + 1)) 9

theorem test_counter_hypotheses : (pmuState 2 true).on F.PMU_CTL.ENABLE = true ∧ (pmuState 2 true).on (F.PMU_GRP.ENABLE 0) = true ∧
    (pmuState 2 true).fld (F.PMU_SEL.EVENT 2) = 5 ∧ (pmuState 2 true).fld (F.PMU_CNT.COUNT 2) = 2 ^ 48 - 1 ∧
    (pmuState 2 true).fld (F.PMU_SEL.CHAIN 3) = 1 ∧ (pmuState 3 false).fld (F.PMU_SEL.CHAIN 3) = 0 ∧
    (after (exec (.counterWrap 2) (pmuState 2 true))).fld (F.PMU_CNT.COUNT 3) = 10 ∧
    ((after (exec (.counterWrap 2) (pmuState 2 false))).raw (Addr.PMU_OVF 0)) = 4 ∧
    (after (exec .clearAll (pmuState 2 false))).fld (F.PMU_CNT.COUNT 2) = 0 := by decide +kernel

/-! ### Tokens and JTAG -/

/-- The administration key is not set yet, so that its first setting needs no token. -/
theorem test_token_hypotheses : base.running .aon = true ∧ base.tooSoon = false ∧ base.tokenGood 7 = true ∧
    { base with dbg := { base.dbg with refusedAt := some 0 } }.tooSoon = true ∧ base.rootBlank 2 = true ∧
    { base with cip := { base.cip with fabricRoot := some 1 } }.rootBlank 2 = false ∧ (base.setRaw Addr.DBG_AUTH_ARG 2).authArg = 2 ∧
    mctpOnly 1 = false ∧ mctpOnly 3 = true ∧ base.running .cfl = true ∧ TakesRecord base .aon sevAudit := by decide +kernel

theorem test_token_results :
    (after (exec (.adminSet .jtag [] [] []) base)).fld F.DBG_AUTH_CMD.STATUS = ST.rights.toNat ∧
    (after (exec (.debugUnlock .ctl) { base with dbg := { base.dbg with refusedAt := some 0 } })).fld F.DBG_AUTH_CMD.STATUS = ST.busy.toNat ∧
    (after (exec (.debugUnlock .ctl) base)).fld F.DBG_AUTH_CMD.STATUS = ST.key.toNat ∧
    (after (exec (.debugUnlock .ctl) base)).fld F.DBG_CNT0.REFUSED = 1 ∧
    (after (exec .unlockExpiry { base with dbg := { base.dbg with unlocked := some 60 } })).dbg.unlocked = none ∧
    ((after (exec (.debugUnlock .ctl) base)).recordsFrom .aon).map (fun r => (r.sev, r.cat, r.inst)) = [(7, 7, 134)] := by decide +kernel

/-- Unlocked and frozen. -/
def openState : State :=
  { base with dbg := { base.dbg with unlocked := some 0 }, mod := { base.mod with frozen := true } }

theorem test_jtag_hypotheses : openState.dumpOpen = true ∧ base.dumpOpen = false ∧ base.seq.st = .off ∧
    (after (exec .idcode base)).out = [.jtag 1 [0x9F, 0x0C, 0x64, 0x19]] ∧ (after (exec .extest base)).jtagPins = 1 ∧
    (after (exec .extest { base with seq := { base.seq with st := .up } })).fld F.DBG_CTL.JTAG_REFUSED = 1 ∧
    (after (exec .bypass (after (exec .extest base)))).jtagPins = 0 := by decide +kernel

/-! ### Fabric -/

/-- A packet of session 3's peer, node 6, for this device, node 0: type, flags, PSN, message, length, payload. -/
def packetOf (typ extra psn msg len off key : Nat) (d : List Byte) : Packet :=
  { addr := 1, w0 := w64 (2 + 16 * typ + extra + 6 * 2 ^ 16 + base.node * 2 ^ 34), w1 := w64 (3 + psn * 2 ^ 32), w2 := w64 (msg + len * 2 ^ 42),
    w3 := w64 (off + 5 * 2 ^ 44), w4 := w64 (key + d.length * 2 ^ 32), w5 := 0, w6 := 0, payload := d, tagOk := true }

/-- A control packet. -/
def ctlOf (typ : Nat) (w2 w3 w4 w5 w6 : Nat) : Packet :=
  { packetOf typ 0 0 0 0 0 0 [] with w2 := w64 w2, w3 := w64 w3, w4 := w64 w4, w5 := w64 w5, w6 := w64 w6 }

def openSession : Session :=
  { smallSession with granted := 4, grants := [{ credits := 4, issued := 0, readOnly := false, whole := none }] }

/-- Session 3 receives on FA0; key 0 opens region 5. -/
def fabricState : State :=
  let s := ncOff (memState nopWord)
  ({ s with fab := { s.fab with
      sessions := [(3, openSession)], members := [6], resident := [6]
      keys := [(0, { used := true, tag := 0, region := 5, offset := 0, len := 0x1000, rights := 15, expiry := 9, any := false, session := 3 })]
      paths := [{ PathState.reset with link := true }, { PathState.reset with link := true }, PathState.reset, PathState.reset] } }.setFld
    F.FAB_CTL.ENABLE 1).setFld F.FAB_CREDIT.POOL_SIZE 100

def writePacket : Packet := packetOf 1 0 0 0 4 0x40 0 [1, 2, 3, 4]
def atomicPacket : Packet := { packetOf 5 0 0 0 8 0x40 0 [] with w5 := 7 }
def readPacket : Packet := packetOf 3 0 0 0 4 0x10 0 []
def fencePacket : Packet := packetOf 6 0 0 0 1 0 0 []
def submitPacket : Packet := { packetOf 10 0 0 0 64 0 0 (List.replicate 64 9) with w5 := 1 }

def leftGrant : List Grant := [{ credits := 3, issued := 0, readOnly := false, whole := none }]

abbrev Accepted (k : Packet) (typ : Nat) : Prop :=
  NewMessage fabricState .fa0 k openSession typ leftGrant ∧ fabricState.messageStatus 3 openSession k = none

set_option synthInstance.maxSize 1000 in
theorem test_packet_hypotheses : Accepted writePacket 1 ∧ Accepted atomicPacket 5 ∧ Accepted readPacket 3 ∧ Accepted fencePacket 6 ∧
    Accepted submitPacket 10 := by decide +kernel

theorem test_packet_state : fabricState.wantsWhole 1 5 = false ∧ fabricState.readAtTwin (ordinary .d0) 0x10010 4 = false ∧
    fabricState.repairing 0x10010 4 = false ∧ (pagesOf 0x10010 4).any (fun q => fabricState.unrestored (16384 * q)) = false ∧
    fabricState.phl.copies = [] ∧ fabricState.pst.units = [] ∧ fabricState.hst.reads = [] ∧ Clean fabricState 0x10010 4 ∧
    (Tab.get fabricState.pe.qps 1).any (fun q => q.tenant == 1 && decide ((q.sqTail + 1) % q.depth ≠ q.sqHead) &&
      (fabricState.regionAt (q.sqBase + 64 * q.sqTail)).isSome) = true := by decide +kernel

def sesOf (t : State) : Session := (t.ses 3).getD openSession

theorem test_packet_results :
    unitsOf (after (exec (.write .fa0 writePacket) fabricState)) = [(0x10040, 4, [0x10040, 0x10041, 0x10042, 0x10043], [1, 2, 3, 4])] ∧
    ((after (exec (.atomic .fa0 atomicPacket) fabricState)).pst.units.map (·.atomic)) = [some (.add 7)] ∧
    (sesOf (after (exec (.readReq .fa0 readPacket []) fabricState))).acks.map (fun a => (a.msg, a.status)) = [(0, 0)] ∧
    (sesOf (after (exec (.fence .fa0 fencePacket) fabricState))).rxBase = 1 ∧
    (unitsOf (after (exec (.submit .fa0 submitPacket) fabricState))).map (·.1) = [0x10000] ∧
    (after (exec (.write .fb0 writePacket) (after (exec (.write .fa0 writePacket) fabricState)))).fld F.FAB_CNT0.STRANGERS = 1 := by
  decide +kernel

/-- The types of the packets that leave, with the path each goes on. -/
def packetsOut (t : State) : List (Nat × Nat) := t.out.filterMap (fun o => match o with
  | .aft2 p k => some (p.idx, bitsOf (k.header.getD 0 0) 4 4)
  | _ => none)

theorem test_read_data_sent : packetsOut (after (exec (.readReq .fa0 readPacket []) fabricState)) = [(0, 4), (1, 4), (0, 7), (1, 7)] ∧
    (sesOf (after (exec (.readReq .fa0 readPacket []) fabricState))).unreceipted.map (fun e => e.pkt.payload) = [[0x11, 0x22, 0x33, 0x44]] := by
  decide +kernel

/-- Region 5 is sealed, with a log, and message 0 holds an extent of 64 bytes. -/
def appendState : State :=
  { fabricState with
    regions := [(5, { sealedRegion with floor := .d3 })], cip := { fabricState.cip with logs := [(5, emptyLog)] }
    fab := { fabricState.fab with sessions := [(3, { openSession with grants := [{ credits := 4, issued := 0, readOnly := false, whole := some 0 }] })] }
    pst := { fabricState.pst with
      extents := [(2, { region := 5, dpa := 0x10000, declared := 64, arrived := [], got := 0, cls := .d3, door := .fabric 3 0 false,
                        opened := true, xopen := none, granted := false, sent := [] })] } }

def appendPacket : Packet := packetOf 2 (2 ^ 9 * 3) 0 0 64 0 0 (List.replicate 64 7)

theorem test_append_packet : NewMessage appendState .fa0 appendPacket (sesOf appendState) 2
      [{ credits := 3, issued := 0, readOnly := false, whole := some 0 }] ∧
    appendState.messageStatus 3 (sesOf appendState) appendPacket = none ∧ (appendState.extentOf 3 0).map (·.1) = some 2 ∧
    ((Tab.get (after (exec (.append .fa0 appendPacket) appendState)).cip.logs 5).map (fun l => l.items.map (fun i => (i.ready, i.payload.length)))) =
      some [(true, 64)] := by decide +kernel

/-- A GET of message 5 waits for its data. -/
def getMsg : TxMsg :=
  { msg := 5, typ := 3, cls := .d0, final := false, subop := false, region := 9, offset := 0, key := 0, len := 4, data := [], op0 := 0,
    op1 := 0, cmd := 0, op := 0, count := 1, sent := 1, reserve := 1, reserved := true, back := [], asked := true, answer := none }

def getState : State := fabricState.updSes 3 (fun x => { x with tx := [getMsg] })

def dataPacket : Packet := { packetOf 4 0 0 5 4 0 0 [9, 8, 7, 6] with w3 := 0 }

theorem test_data_packet : NewPacket getState .fa0 dataPacket (sesOf getState) 4 ∧
    (sesOf (after (exec (.readData .fa0 dataPacket) getState))).tx.map (·.back) = [[(0, [9, 8, 7, 6])]] := by decide +kernel

theorem test_packet_drops :
    packetOk { writePacket with w5 := 1 } = false ∧ (fabricState.gate .fa0 { writePacket with addr := 9 }).isNone = true ∧
    spend 1 0 5 false openSession.grants = none ∧
    ((sesOf (after (exec (.write .fa0 writePacket) fabricState))).kept.map (·.psn)) = [0] ∧
    ((sesOf (after (exec (.write .fb0 { writePacket with addr := 2 }) (after (exec (.write .fa0 writePacket) fabricState))))).kept) = [] ∧
    fabricState.messageStatus 3 openSession (packetOf 1 0 0 0 4 0x40 1 [1, 2, 3, 4]) = some ST.key ∧
    (sesOf (after (exec (.write .fa0 (packetOf 1 0 0 0 4 0x40 1 [1, 2, 3, 4])) fabricState))).acks.map (·.status) = [ST.key] ∧
    (sesOf (after (exec (.fence .fa0 fencePacket) fabricState))).isRetired 0 = true := by decide +kernel

def parkedState : State := after (exec (.write .fa0 writePacket) { fabricState with fab := { fabricState.fab with resident := [] } })

theorem test_parked : (sesOf parkedState).parked.length = 1 ∧ parkedState.fld F.FAB_CNT2.CTX_PARKED = 1 ∧ (sesOf parkedState).rx = [] ∧
    (parkedState.bringContext 6).isSome = true ∧ parkedState.messageStatus 3 (sesOf parkedState) writePacket = none ∧
    (unitsOf (after (exec (.contextFetch 3) parkedState))).map (·.1) = [0x10040] := by decide +kernel

/-- Every context here belongs to session 3, which waits for one. -/
theorem test_no_room (s : State) (n : Nat) (hn : contextRoom ≤ n) (h : s.fab.resident = List.replicate n 6) (hs : s.evictable 6 = false) :
    s.bringContext 8 = none := by
  have hl : (List.replicate n 6).filter (fun c => c != 8) = List.replicate n 6 := by
    rw [List.filter_eq_self]; intro a ha; rw [List.eq_of_mem_replicate ha]; rfl
  have hf : (List.replicate n 6).find? (s.makesRoom (List.replicate n 6) 8) = none := by
    rw [List.find?_eq_none]; intro a ha; simp [List.eq_of_mem_replicate ha, State.makesRoom, hs]
  have hc : s.ctxRoom (List.replicate n 6) 8 = false := by simp [State.ctxRoom, hn]
  simp only [State.bringContext, h, hl, hf, hc]; rfl

/-! ### Control packets, sessions, paths -/

/-- Session 3 with one message of operation 0 of command 0, sent and not acknowledged. -/
def sentState (st : SesSt) : State :=
  let s := withSealOp fabricState
  s.updSes 3 (fun x => { x with st := st, unreceipted := [{ psn := 0, msg := 5, retries := 0, pkt := writePacket }],
                                tx := [{ getMsg with typ := 5, len := 8, back := [] }] })

def ackPacket : Packet := ctlOf 7 5 0 0 0 77
def receiptPacket : Packet := ctlOf 8 0 0 9 0 0
def creditPacket (typ len : Nat) : Packet := ctlOf 9 (8 + typ * 2 ^ 32 + len * 2 ^ 40) (5 * 2 ^ 44) 0 0 0
def probePacket : Packet := ctlOf 11 0 0 0 44 0
def openPacket : Packet := ctlOf 12 (9 + 1024 * 2 ^ 32) 0 0 0 0
def openAckPacket : Packet := ctlOf 13 (9 + 1024 * 2 ^ 32) 0 0 0 0
def closePacket : Packet := ctlOf 14 0 0 0 0 0

/-- The session in state `st`, epoch 9 proposed, the fabric root fused. -/
def inState (st : SesSt) : State :=
  let s := fabricState.updSes 3 (fun x => { x with st := st, proposed := some 9 })
  { s with cip := { s.cip with fabricRoot := some 1 } }

theorem test_control_hypotheses : CtlPacket (sentState .open_) .fa0 ackPacket (sesOf (sentState .open_)) 7 ∧
    CtlPacket fabricState .fa0 receiptPacket openSession 8 ∧ CtlPacket fabricState .fa0 (creditPacket 1 4) openSession 9 ∧
    CtlPacket fabricState .fa0 probePacket openSession 11 ∧ CtlPacket (inState .ready) .fa0 openPacket (sesOf (inState .ready)) 12 ∧
    CtlPacket (inState .failed) .fa0 openAckPacket (sesOf (inState .failed)) 13 ∧ CtlPacket fabricState .fa0 closePacket openSession 14 ∧
    openSession.isRetired 8 = false ∧ fabricState.haltRefuses openSession = false ∧ (fabricState.extentOf 3 8).isNone = true ∧
    appendState.wantsWhole 2 5 = true ∧ CtlPacket appendState .fa0 (creditPacket 2 64) (sesOf appendState) 9 ∧ fabricState.ctrlTakes 6 = true ∧
    { fabricState with fab := { fabricState.fab with ctrl := [(6, (0, 16))] } }.ctrlTakes 6 = false := by decide +kernel

theorem test_control_packet_results :
    ((after (exec (.ack .fa0 ackPacket) (sentState .open_))).opOf 0 0).map (fun o => o.done) = some (some ⟨0, some 77, 0⟩) ∧
    (sesOf (after (exec (.receipt .fa0 receiptPacket) fabricState))).creditLimit = 9 ∧
    (sesOf (after (exec (.creditReq .fa0 (creditPacket 1 4)) fabricState))).requests.map (·.left) = [1] ∧
    (after (exec (.creditReq .fa0 (creditPacket 2 64)) appendState)).pst.extents.map (·.1) = [0, 2] ∧
    (after (exec (.probe .fa0 probePacket) fabricState)).out.length = 1 ∧
    (sesOf (after (exec (.open_ .fa0 openPacket) (inState .ready)))).epoch = 9 ∧
    (sesOf (after (exec (.openAck .fa0 openAckPacket) (inState .failed)))).st = .open_ ∧
    ((after (exec (.close .fa0 closePacket) fabricState)).ses 3).isNone = true := by decide +kernel

theorem test_session_hypotheses : (sentState .open_).running .fab = true ∧ (sesOf (sentState .open_)).unreceipted.length = 1 ∧
    ((sesOf (sentState .open_)).tx.find? (fun m => m.msg == 5 && m.answer.isNone && decide (0 < m.sent))).isSome = true ∧
    0 < fabricState.fld F.FAB_TIMER0.MAX_RETRY ∧ fabricState.running .ctl = true ∧
    (sesOf (after (exec (.rekey 3) (fabricState.updSes 3 (fun x => { x with psnNext := 2 ^ 32 }))))).proposed = some 2 ∧
    (after (exec (.sessionReopen 3) (inState .failed))).out.length = 2 ∧
    (sesOf (after (exec (.retransmit 3 0) (sentState .open_)))).unreceipted.map (·.retries) = [1] ∧
    (sesOf (after (exec (.sessionDead 3) (sentState .open_)))).st = .failed ∧
    ((after (exec (.msgLifetimeTimeout 3 5) (sentState .open_))).opOf 0 0).map (fun o => o.done) = some (some (OpDone.err ST.timeout)) ∧
    (after (exec (.receiptInterval 3) fabricState)).out.length = 2 := by decide +kernel

/-- Tenant 1 has 8 credits, and its session asks for one. -/
def creditState : State :=
  let s := fabricState.updSes 3 (fun x => { x with requests := [{ msg := 8, typ := 1, left := 1, whole := false }] })
  { s with tenants := [(0, smallTenant), (1, { smallTenant with credits := 8 })], dst := { s.dst with ceff := 1024 } }

theorem test_grant_hypotheses : creditState.grantOrder = [3] ∧ creditState.granting 1 = .all ∧ 1 ≤ creditState.fld F.FAB_CREDIT.GRANT_QUANTUM ∧
    1 ≤ creditState.ownCredit 1 ∧ (sesOf (after (exec .grantRound creditState))).granted = 5 ∧ fabricState.grantOrder = [] ∧
    (sesOf (after (exec (.grantExpiry 3 none) fabricState))).grants = [] := by decide +kernel

def openMsg : RxMsg :=
  { msg := 0, typ := 1, cls := .d0, region := 5, base := 0x10000, len := 2048, count := 2, psn0 := some 0, got := [], final := none, units := [],
    extent := none, entry := [], result := 0 }

def tornState : State := fabricState.updSes 3 (fun x => { x with rx := [openMsg] })

theorem test_torn_hypotheses : (sesOf tornState).st = .open_ ∧ (sesOf tornState).rx = [openMsg] ∧ tornState.pst.units = [] ∧
    tornState.hst.reads = [] ∧ (sesOf (after (exec (.reasmTimeout 3 0) tornState))).acks.map (·.status) = [ST.torn] ∧
    (sesOf (after (exec (.msgLifetime 3 0) tornState))).cum = 2 := by decide +kernel

def keptState : State := fabricState.updSes 3 (fun x => { x with kept := [{ psn := 0, port := .fa0, pkt := writePacket }] })

theorem test_path_hypotheses : (sesOf keptState).kept.length = 1 ∧ keptState.fab.paths.length = 4 ∧ keptState.portWindow .fb0 = false ∧
    1 < keptState.fld F.FAB_PATH_CTL.SUSPECT_THR ∧ keptState.fld F.FAB_PATH_CTL.SUSPECT_THR ≤ keptState.fld F.FAB_PATH_CTL.FAIL_THR ∧
    keptState.fld F.FAB_PATH_CTL.FAIL_THR ≤ 65535 ∧ (keptState.path .fb0).st = 0 ∧ (keptState.path .fb0).link = true ∧ keptState.fabUp .fa0 = true ∧
    (after (exec (.skewWindowExpiry 3 (some 0) .fa0) keptState)).fld (F.FAB_PATH_CNT.MISSING 1) = 1 ∧
    (sesOf (after (exec (.probeInt 3 .fa0) (fabricState.updSes 3 (fun x => { x with params := { x.params with probe := true } }))))).probing = [(.fa0, 0)] := by
  decide +kernel

def pathIn (st : Nat) : State := fabricState.setPath .fa0 (fun q => { q with st := st, errors := [0] })

theorem test_path_results :
    ((after (exec (.pathWindow .fa0) (pathIn 1))).path .fa0).st = 0 ∧ ((after (exec (.return_ .fa0) (pathIn 2))).path .fa0).st = 0 ∧
    ((after (exec (.pathReturnTime .fa0) ((pathIn 2).setFld F.FAB_CTL.AUTO_RETURN 1))).path .fa0).st = 0 ∧
    ((after (exec (.fabricLinkDown .fa0) fabricState)).path .fa0).st = 2 ∧ ((after (exec (.noValidCopy .fa0) fabricState)).path .fa0).st = 2 ∧
    ((after (exec (.fabricLinkTrained .fa0 1) (withLanes fabricState))).path .fa0).held = true ∧
    ((after (exec (.fabPathOff .fa0 true) fabricState)).path .fa0).st = 3 ∧ ((after (exec (.fabPathOff .fa0 false) (pathIn 3))).path .fa0).st = 2 ∧
    (after (exec (.ptpEventMessage .fa0 7) fabricState)).fab.stamps = [(0, 7, 0)] ∧
    (after (exec (.pausePfcFrame .fa0) fabricState)).fld F.FAB_CNT5.PAUSE_RX = 1 ∧
    (after (exec (.neighbourDiscovery .fa0 5) fabricState)).out = [.neighbour .fa0 5] := by decide +kernel

/-- A new session, of tenant 1 with contexts. -/
def newSession : SessionParams := { sessionParams with session := 8, entropy := 0xC000 }

def manageState : State :=
  { fabricState with tenants := [(0, smallTenant), (1, { smallTenant with contexts := 8 })] }

theorem test_manage_hypotheses : manageState.svc.proc ≠ 1 ∧ manageState.sessionStatus newSession = none ∧
    manageState.sessionStatus { newSession with session := 3 } = some ST.busy ∧
    ((after (exec (.sessionCreate .mctp newSession) manageState)).ses 8).map (·.st) = some .ready ∧
    ((after (exec (.sessionDestroy .mctp 3) (inState .ready))).ses 3).isNone = true ∧
    (sesOf (after (exec (.sessionDestroy .mctp 3) (sentState .open_)))).st = .closing := by decide +kernel

def keyState : State := ((fabricState.setFld F.FAB_KEY_DATA0.REGION 5).setFld F.FAB_KEY_DATA2.LENGTH 64).setFld F.FAB_KEY_DATA1.SESSION 3

theorem test_key_hypotheses : keyState.keyRefused (keyState.keyData keyState.freeKey.2) = none ∧ keyState.freeKey = (1, 0) ∧
    fabricState.keyRefused (fabricState.keyData fabricState.freeKey.2) = some ST.bounds ∧ (keyState.usedKey 0).isSome = true ∧
    (keyState.usedKey 7).isNone = true ∧ (Tab.get (after (exec .keyCreate keyState)).fab.keys 1).map (·.len) = some 64 ∧
    (after (exec (.keyRead 0) keyState)).fld F.FAB_KEY_DATA2.LENGTH = 0x1000 ∧
    ((Tab.get (after (exec (.keyRevoke 0) keyState)).fab.keys 0).map (·.used)) = some false := by decide +kernel

/-! ### The twin -/

def upPort : PhState := { up := true, trained := true, failed := false, width := 8, flits := [], fack := 0, discarding := false }

/-- A device in SERVE whose twin state is `w`, with PH0 up and region 5. -/
def twinState (w : Twin) : State :=
  { ncOff base with
    regions := [(5, ordinary .d1)], tenants := [(0, smallTenant), (1, smallTenant)], mod := { base.mod with mode := .serve }
    phl := { base.phl with ph0 := upPort, ph1 := upPort, twin := w, primary := false, leaseRunning := false, guardPassed := false, hbIn := .toggling,
                           unacked := [], copies := [], rxNext := 9, txNext := 4, epoch := 0, resyncLeft := [], linkIdSeen := true, credit := 4096 } }

def twinFrame (aux ref : Nat) (d : List Byte) : MFrame :=
  { fallback := false, cls := 2, last := true, region := 5, msn := 9, dpa := 0x10040, position := 3, epoch := 0,
    ref := BitVec.ofNat 32 ref, aux := BitVec.ofNat 32 aux, data := d }

def awayUnit : CUnit :=
  { mkUnit 2 5 (ordinary .d2) 0x10040 2 (cellsAt 0x10040 [1, 2]) .d2 (.strand 0 0) true with msn := some 7 }

def withUnit (s : State) (u : CUnit) : State := { s with pst := { s.pst with units := [u], nextUnit := 3 } }

def heldCopy : Copy :=
  { uid := 0, msn := 5, extent := false, ref := none, region := 5, dpa := 0x10080, cls := .d2, position := 1, last := true, cells := cellsAt 0x10080 [6], committed := false, charged := false }

def withCopy : State := (twinState .paired).updPhl (fun x => { x with copies := [heldCopy] })

def sentTwin (encrypt : Nat) : State :=
  ((twinState .paired).updPhl (fun x => { x with unacked := [{ Frame.mk0 1 with msn := 2 }, { Frame.mk0 1 with msn := 3 }] })).setFld F.PHL_CTL.ENCRYPT encrypt

theorem test_mack_hypotheses : (sentTwin 0).running .phl = true ∧ (sentTwin 0).on F.PHL_CTL.ENCRYPT = false ∧ (sentTwin 1).on F.PHL_CTL.ENCRYPT = true ∧
    ((sentTwin 0).phl.txNext + 2 ^ 33 - 1 - 2) % 2 ^ 32 < 2 ^ 24 ∧ ((sentTwin 0).phl.unacked.any (fun f => msnLe f.msn 2)) = true ∧
    (after (exec (.mack 2 5) (sentTwin 0))).phl.unacked.map (·.msn) = [3] ∧
    (after (exec (.mackf (twinFrame 3 0 [])) (sentTwin 1))).phl.unacked.length = 0 := by decide +kernel

theorem test_frame_hypotheses : FrameTaken (twinState .paired) (twinFrame 0 7 [1]) ∧ FrameTaken (twinState .resyncIn) (twinFrame 0 7 [1]) ∧
    FrameTaken withCopy (twinFrame 5 5 [1]) ∧ bitmapMsns 5 [1] = [5] ∧ withCopy.pieced 5 = false ∧ withCopy.copyFits heldCopy = false ∧
    (withUnit (twinState .paired) awayUnit).unitsNumbered = true ∧ (twinState .paired).unitsNumbered = true ∧
    (withUnit (twinState .paired) awayUnit).pst.units.find? (fun u => u.away && decide (u.position = 0) && u.msn == some 7) = some awayUnit := by
  decide +kernel

theorem test_frame_results :
    ((after (exec (.mdata (twinFrame 0 0 [1, 2])) (twinState .paired))).phl.copies.map (fun c => (c.msn, c.dpa, c.cells.map (·.1)))) =
      [(9, 0x10040, [0x10040, 0x10041])] ∧
    ((after (exec (.mord (twinFrame 0 7 [])) (withUnit (twinState .paired) awayUnit))).phl.copies.map (fun c => (c.msn, c.cells.map (·.2.toNat)))) =
      [(9, [1, 2])] ∧
    ((after (exec (.mord (twinFrame 6 7 [])) (withUnit (twinState .paired) awayUnit))).pst.units.length) = 0 ∧
    unitsOf (after (exec (.mfwd (twinFrame 0 0 [4, 5])) (twinState .paired))) = [(0x10040, 2, [0x10040, 0x10041], [4, 5])] ∧
    (after (exec (.mcv (twinFrame 5 0 [1])) withCopy)).byte 0x10080 = 6 ∧ withCopy.byte 0x10080 = 0 ∧
    (after (exec (.mcv (twinFrame 5 0 [1])) withCopy)).fld F.DST_CNT1.COPY_WAITS = 1 ∧
    (after (exec (.mdrop (twinFrame 0 5 [])) withCopy)).phl.copies.length = 0 := by decide +kernel

def grantState (q : List XReq) : State := let s := twinState .paired; { s with pst := { s.pst with xreqs := q } }

def waitingReq : XReq := { msn := 3, region := 5, units4k := 1, granted := false }

theorem test_extent_frames : (twinState .paired).kibFits 4 = true ∧
    ((after (exec (.xopen (twinFrame 1 0 [])) (twinState .paired))).pst.xreqs.map (·.granted)) = [true] ∧
    ((after (exec (.xopen (twinFrame 1 0 [])) (grantState [waitingReq]))).pst.xreqs.map (·.granted)) = [false, false] ∧
    ((after (exec .xopenQueuedGrant (grantState [waitingReq]))).pst.xreqs.map (·.granted)) = [true] ∧
    (after (exec .xopenQueuedGrant (grantState [waitingReq]))).phl.unacked.map (fun f => (f.ty, f.ref, f.aux)) = [(7, 3, 0)] ∧
    (after (exec (.xgrant (twinFrame 0 3 [])) (grantState []))).phl.rxNext = 10 := by decide +kernel

/-- A region of class D2 holds page 4, which has still to come. -/
def pageState : State :=
  let s := twinState .resyncIn
  { s with regions := [(5, ordinary .d2)], mod := { s.mod with mode := .restore }, phl := { s.phl with resyncLeft := [4] } }

theorem test_page_hypotheses : FrameTaken pageState { twinFrame 0 0 [] with dpa := 0x10000 } ∧ Memory.wf pageState.ddr = true ∧
    pageState.mirrorBlocks 4 = [0x10000, 0x11000, 0x12000, 0x13000] ∧
    ((List.range 4).findSome? (fun i => (twinState .resyncOut).regionAt (4 * 16384 + i * 4096))).isSome = true ∧
    FrameTaken (twinState .resyncOut) (twinFrame 0 0 []) := by decide +kernel

/-- A region to create: number 6, one block at 0x20000, class D0, tenant 1. -/
def hmapBytes : List Byte := leBytes 8 6 ++ leBytes 8 0x20000 ++ leBytes 8 1 ++ leBytes 8 0x10000 ++ leBytes 32 0

theorem test_control_frames : (HBlock.ofBytes hmapBytes).region = 6 ∧ (HBlock.ofBytes hmapBytes).units = 1 ∧ (HBlock.ofBytes hmapBytes).sealed = false ∧
    ((Tab.get (after (exec (.ctrlHmap (twinFrame 1 0 hmapBytes)) (twinState .paired))).regions 6).map (·.base)) = some 0x20000 ∧
    (after (exec (.ctrlTime (twinFrame 2 0 (leBytes 8 77))) (twinState .paired))).time = 77 ∧
    (after (exec (.channelServed (twinFrame 0x306 0 [])) (twinState .paired))).phl.twinChOut = [3] ∧
    (after (exec (.ctrlSession (twinFrame 0 0 []) sessionParams) (twinState .paired))).fab.twinDefs.length = 1 ∧
    (after (exec (.resyncStart (twinFrame 3 0 [])) { twinState .resyncIn with regions := [(5, ordinary .d2)] })).phl.resyncLeft = [4, 5, 6, 7] := by decide +kernel

def unrestoredPage : Page :=
  { dirty := false, tenant := 1, destaging := false, redirtied := false, since := 0, written := false, unrestored := true, demand := false }

/-- RESTORE with a page left, in twin state `w`. -/
def restoring (w : Twin) : State :=
  let s := twinState w
  { s with mod := { s.mod with mode := .restore }, dst := { s.dst with pages := [(9, unrestoredPage)] }, phl := { s.phl with linkIdSeen := false, heldAtSave := true } }

theorem test_restoring : Restoring (restoring .linking) ∧ Settled (restoring .linking) ∧ Settled (twinState .paired) ∧ Settled (twinState .resyncOut) ∧
    FrameTaken (restoring .resyncIn) (twinFrame 4 0 []) ∧
    (after (exec (.resyncEnd (twinFrame 4 0 [])) (restoring .resyncIn))).phl.twin = .paired ∧
    (after (exec .linkWait (restoring .linking))).phl.twin = .alone ∧ (after (exec (.forceAlone .mctp) (restoring .linking))).phl.epoch = 1 := by decide +kernel

/-- A port that is down. -/
def portDown (p : PhPort) : State := ((withLanes (twinState .paired)).setPh p PhState.reset).setFld F.PHL_CTL.ENABLE 1

/-- The device at position 1, whose partner is position 0. -/
def oddPortDown : State := let s := portDown .ph0; { s with seq := { s.seq with position := 1 } }

theorem test_port_hypotheses : oddPortDown.odd = true ∧ oddPortDown.on F.PHL_CTL.ENABLE = true ∧ (oddPortDown.ph .ph0).up = false ∧
    oddPortDown.lanesTrained 5 PhPort.ph0.idx = true ∧ (portDown .ph1).lanesTrained 5 PhPort.ph1.idx = true ∧
    (let q := (after (exec (.phLinkUp .ph0 true) oddPortDown)).ph .ph0; q.trained = true ∧ q.up = false) ∧
    (after (exec (.phLinkUp .ph0 true) oddPortDown)).out.length = 1 ∧
    ((after (exec (.phLinkUp .ph1 false) (portDown .ph1))).ph .ph1).width = 4 ∧
    ((after (exec (.flitReplay .ph1 7 2) (twinState .paired))).ph .ph1).flits = [(7, 1), (8, 1)] ∧
    ((after (exec (.flitError .ph1) (twinState .paired))).ph .ph1).discarding = true ∧
    ((after (exec (.widthDegrade .ph1) (twinState .paired))).ph .ph1).width = 4 ∧
    (after (exec (.portFailed .ph0) (twinState .paired))).phl.twin = .fallback ∧ (after (exec (.portFailed .ph1) (twinState .paired))).fld F.PHL_ERR.PH1_FAIL = 1 ∧
    ((after (exec (.portTrainingRetry .ph1) ((portDown .ph1).setPh .ph1 { PhState.reset with failed := true }))).ph .ph1).failed = false := by decide +kernel

def leaseState (w : Twin) (p l g : Bool) : State :=
  (twinState w).updPhl (fun x => { x with primary := p, leaseRunning := l, guardPassed := g, unacked := if p then [Frame.mk0 1] else [] })

theorem test_twin_results : (twinState .fallback).toMirror.length = 0 ∧ (after (exec .fallbackExit (twinState .fallback))).phl.twin = .paired ∧
    (after (exec .resyncComplete { twinState .resyncOut with mod := { base.mod with mode := .solo } })).mod.mode = .serve ∧
    (leaseState .paired true true false).twinSession = false ∧
    (after (exec .leaseRenewal (leaseState .paired true true false))).phl.unacked.map (·.ty) = [1, 10, 13] ∧
    (after (exec .leaseExpiry (leaseState .paired true true false))).phl.leaseRunning = false ∧
    (after (exec .leaseGuardExpiry (leaseState .paired true false false))).phl.guardPassed = true ∧
    (after (exec .fbConfirmExpiry (leaseState .paired true true false))).phl.twin = .unconfirmed ∧
    (after (exec .fbConfirmExpiry (leaseState .paired false false false))).phl.twin = .lost ∧
    (after (exec .fbConfirmExpiry (leaseState .paired false false false))).mod.mode = .halt := by decide +kernel

theorem test_lease_results : FrameTaken (leaseState .paired true true false) (twinFrame 1 0 []) ∧
    (leaseState .paired true true false).phl.leaseNo = 0 ∧ (after (exec (.lease (twinFrame 1 0 []) 2) (leaseState .paired true false true))).phl.leaseRunning = true ∧
    (after (exec (.lease (twinFrame 0 6 []) 2) (leaseState .paired false false true))).phl.unacked.map (fun f => (f.ty, f.ref)) = [(10, 6)] ∧
    (after (exec (.lease (twinFrame 0 6 []) 2) (twinState .linking))).phl.twinMode = 2 ∧
    (after (exec (.hbStatic .high) (twinState .paired))).fld F.PHL_ERR.HB_FAULT = 1 ∧ (after (exec (.hbStatic .low) (twinState .paired))).phl.hbIn = .low ∧
    (1 : BitVec 3).toNat ≠ (twinState .paired).seq.position := by decide +kernel

/-- The partner's LINK_ID, which agrees. -/
def otherId : LinkId :=
  { position := 0, node := 3, product := BitVec.ofNat 16 (base.fld F.GEN_ID.PRODUCT), encrypt := false, epoch := 0, primary := false, sent := 20, acked := 0,
    received := 0, saveComplete := false, imageKept := false }

/-- RESTORE at position 1 with the lanes of PH0 and PH1 trained and their LINK_IDs to come; the twin sessions exist. -/
def linkWaits (w : Twin) : State :=
  let s := ((restoring w).setPh .ph0 { upPort with up := false }).setPh .ph1 { upPort with up := false }
  let x : Session := mkSession sessionParams 1024
  { s with seq := { s.seq with position := 1 }, fab := { s.fab with sessions := [(2 ^ 20 - 2, x), (2 ^ 20 - 1, x)] } }

theorem test_link_results : (linkWaits .linking).matches_ otherId = true ∧ (linkWaits .linking).matches_ { otherId with position := 2 } = false ∧
    (linkWaits .linking).svc.chOut = [] ∧
    (linkWaits .linking).phl.twinWait = [] ∧ (linkWaits .linking).phl.hmapIn = [] ∧ (linkWaits .linking).regions.all (fun e => !(linkWaits .linking).ownPriv e.1) = true ∧
    (List.range 2).all (fun n => ((linkWaits .linking).ses (2 ^ 20 - 1 - n)).isSome) = true ∧ Restoring (linkWaits .linking) ∧ Settled (linkWaits .linking) ∧
    (linkWaits .absent).decidesLink = false ∧ (after (exec (.linkId .ph0 otherId) (linkWaits .linking))).phl.twin = .paired ∧
    (after (exec (.linkId .ph0 otherId) (linkWaits .linking))).phl.rxNext = 21 ∧
    (after (exec (.linkId .ph0 { otherId with position := 2 }) (linkWaits .linking))).fld F.PHL_ERR.PEER_MISMATCH = 1 ∧
    ((after (exec (.linkId .ph1 otherId) (linkWaits .linking))).ph .ph1).up = true ∧
    (after (exec (.linkId .ph1 { otherId with product := 0 }) (linkWaits .linking))).fld F.PHL_ERR.PEER_MISMATCH = 1 := by decide +kernel

/-! ### Destage, save, restore -/

/-- Page 4, dirty since the start. -/
def dirtyPage : Page :=
  { dirty := true, tenant := 1, destaging := false, redirtied := false, since := 0, written := true, unrestored := false, demand := false }

/-- A device in SOLO with page 4 of a D1 region dirty and holding one byte. -/
def destageState (dirty : Bool) : State :=
  let s := twinState .alone
  ({ s with
    time := 10 ^ 12, mod := { s.mod with mode := .solo, prev := .restore }, seq := { s.seq with st := .up }, ddr := if dirty then [(0x10020, 7)] else []
    dst := { s.dst with pages := [(4, dirtyPage)], ceff := 1024, channels := 32, saveErased := 4096 } }.setFld F.DST_HUP_CFG.P_SAVE 100).setFld
    F.DST_HUP_CFG.PRESENT 1

/-- A D1 write of a strand waits for its charge, the pool being full until now. -/
def chargeState : State :=
  let u : CUnit := { mkUnit 2 5 (ordinary .d1) 0x14040 2 (cellsAt 0x14040 [1, 2]) .d1 (.strand 0 0) false with written := true }
  withUnit (destageState true) u

def copyChargeState : State := (destageState true).updPhl (fun x => { x with copies := [{ heldCopy with committed := true, dpa := 0x14080, cells := cellsAt 0x14080 [6] }] })

theorem test_ceiling_hypotheses : (destageState true).fld F.DST_HUP_CFG.P_SAVE ≠ 0 ∧ chargeState.nextCharge.map (·.id) = some 2 ∧ chargeState.waitingCopies = [] ∧
    chargeState.unitsNumbered = true ∧ (copyChargeState.waitingCopies.find? (fun c => copyChargeState.copyFits c)).isSome = true ∧
    copyChargeState.nextCharge.isNone = true ∧ ((after (exec .chargeGrant chargeState)).pst.units.map (·.charged)) = [true] ∧
    ((after (exec .chargeGrant copyChargeState)).phl.copies.map (·.charged)) = [true] ∧
    (after (exec (.ceilingRecompute 0) (destageState true))).dst.saveTerm = 2048 := by decide +kernel

theorem test_destage_hypotheses : (destageState true).mayDestage 4 = true ∧ (destageState false).mayDestage 4 = true ∧
    ((blocksOf (4 * 16384) 16384).all (fun b => (Tab.get (destageState true).nc.lines b).isNone && ((destageState true).nc.inVictim b).isNone)) = true ∧
    (destageState true).pageImage 4 = [(0x10020, 7)] ∧ (destageState false).pageImage 4 = [] ∧ (destageState true).pagePoison 4 = [] ∧
    ((Tab.get (after (exec (.destageStart 4) (destageState true))).dst.pages 4).map (·.destaging)) = some true ∧
    ((Tab.get (after (exec (.destageStart 4) (destageState false))).dst.map 4).map (·.zero)) = some true := by decide +kernel

/-- The destage has started. -/
def underway : State := (destageState true).updDst (fun d => { d with pages := [(4, { dirtyPage with destaging := true })] })

def nandAt (block : Nat) : NandAddr := { channel := 1, ce := 0, lun := 0, block := BitVec.ofNat 18 block, page := 3 }

def nandBlocks : Tab NandBlock :=
  [(nandKey (nandAt 5), { erases := 0, refreshed := false, retired := false }),
   (nandKey (nandAt 7), { erases := 1000, refreshed := false, retired := false })]

def mappedState : State := (destageState true).updDst (fun d => { d with map := [(4, mapEntryAt (nandAt 5) 0 false)], dirtySegs := [(0, (4096, 0))], segReload := [2], blocks := nandBlocks })

theorem test_destage_results : (after (exec (.destageComplete 4 (nandAt 5) true) underway)).dst.nand = [(0x10020, 7)] ∧
    ((Tab.get (after (exec (.destageComplete 4 (nandAt 5) true) underway)).dst.pages 4).map (·.dirty)) = some false ∧
    (after (exec (.destageComplete 4 (nandAt 5) false) (underway.updDst (fun d => { d with saving := true })))).fld F.DST_CNT3.SAVE_PROG_FAILS = 1 ∧
    (after (exec (.mapSegmentWrite 0) mappedState)).dst.dirtySegs = [] ∧ (after (exec (.mapSegmentReload 2) mappedState)).dst.segReload = [] ∧
    (after (exec (.garbageCollection 3 (nandAt 6)) mappedState)).dst.gcRunning = true ∧ mappedState.gcVictim = some (nandKey (nandAt 5)) ∧
    mappedState.wearLow (nandKey (nandAt 5)) = true ∧ mappedState.wearLow (nandKey (nandAt 7)) = false ∧
    ((Tab.get (after (exec (.garbageCollection 3 (nandAt 6)) mappedState)).dst.map 4).map (·.block)) = some 6 ∧ nandKey (nandAt 5) ≠ nandKey (nandAt 6) ∧ Tab.sorted mappedState.dst.map = true ∧
    ((Tab.get (after (exec (.wearMove (nandAt 5) (nandAt 6)) mappedState)).dst.map 4).map (·.block)) = some 6 ∧
    mappedState.fld F.DST_NAND_CFG.REFRESH_PCT < 50 ∧ (after (exec (.patrol (nandAt 5) false 50 true (nandAt 6)) mappedState)).fld F.DST_CNT3.REFRESHES = 1 ∧
    (after (exec (.pageQuery 4) (destageState true))).fld F.DST_PAGE_Q.STATE = 2 := by decide +kernel

def testingState : State := let s := destageState true; { s with dst := { s.dst with testing := true, deferred := 1 }, seq := { s.seq with hupTestEn := true } }

theorem test_holdup_results : (destageState true).seq.st = .up ∧ (destageState true).dst.testing = false ∧
    (after (exec .holdUpTest (destageState true))).freeCtr = 2 ∧ (after (exec .testNow (destageState true))).fld F.DST_HUP_CTL.TEST_NOW = 1 ∧
    (after (exec (.hupTestResult 0 0) testingState)).dst.testing = false ∧
    ((after (exec (.hupTestResult (BitVec.ofNat 16 (testingState.fld F.DST_HUP_RATED.RATED_C)) 0) testingState)).dst.measValid = true) ∧
    (after (exec (.hupTestResult 65535 65535) testingState)).fld F.DST_ERR.HUP_IMPLAUSIBLE = 1 := by decide +kernel

def inSaveMode (st : SeqSt) (saving : Bool) : State :=
  let s := destageState true
  { s with mod := { s.mod with mode := .save, prev := .solo }, seq := { s.seq with st := st, en := 3 }, dst := { s.dst with saving := saving, dirtyChannels := [4] }
           contrail := { s.contrail with released := false } }

theorem test_save_hypotheses : (destageState true).mayReset = true ∧ (destageState true).isl.length = 15 ∧ (destageState true).seq.hupTestEn = false ∧
    (after (exec .resetSave (destageState true))).mod.mode = .save ∧ (inSaveMode .up true).contrail.unflushed = [] ∧ (inSaveMode .up true).recUp = false ∧
    (inSaveMode .up true).savePages = [4] ∧ channelOf 4 = 4 ∧ (inSaveMode .saveHold true).busyStep.isSome = true ∧
    (inSaveMode .saveHold true).seq.failPath = false := by decide +kernel

theorem test_save_results : (after (exec .saveEntry (inSaveMode .up false))).dst.dirtyChannels = [4] ∧
    (after (exec .saveEntry (inSaveMode .up false))).run .hst = .off ∧
    ((after (exec .saveComplete (inSaveMode .up true))).dst.images.map (fun i => (i.no, i.complete, i.pages))) = [(1, true, [4])] ∧
    (after (exec .saveComplete (inSaveMode .up true))).mod.mode = .cold ∧ (after (exec .vMin (inSaveMode .saveHold true))).seq.st = .rampDown ∧
    ((after (exec .vMin (inSaveMode .saveHold true))).dst.images.map (·.complete)) = [false] := by decide +kernel

/-- COLD with the memory trained; page 4 is on NAND. -/
def coldState : State :=
  let s := destageState false
  let u : CalUnit := { CalUnit.untrained with st := 2 }
  { s with
    mod := { s.mod with mode := .cold }, phl := { s.phl with twin := .linking, linkIdSeen := false }, mem := { s.mem with stackDone := true, valid := true, dpc := 1, gib := 1 }
    cal := { s.cal with units := (List.range 16).map (fun k => (k, u)) ++ (List.range 32).map (fun k => (unitKey 2 k, u)) }
    dst := { s.dst with pages := [], map := [(4, mapEntryAt (nandAt 5) 0 false)], nand := [(0x10020, 7)] } }

theorem test_restore_entry : coldState.mayRestore = true ∧ coldState.nandPages = [4] ∧ coldState.dst.images = [] ∧ coldState.pe.cmds = [] ∧
    coldState.dst.nandShort = false ∧ coldState.rawShort 0 = true ∧ coldState.rawShort 0xFFFFF = false ∧
    (after (exec (.restoreEntry 1 32 0xFFFFF) coldState)).mod.mode = .restore ∧ (after (exec (.restoreEntry 1 32 0) coldState)).dst.nandShort = true := by
  decide +kernel

/-- Page 4 is still to be restored from NAND. -/
def restoreState : State :=
  (destageState false).updDst (fun d => { d with pages := [(4, { unrestoredPage with demand := true })], map := [(4, mapEntryAt (nandAt 5) 0 false)],
                                                 nand := [(0x10020, 7)] })

theorem test_restore_page : restoreState.mayRead 4 = true ∧ restoreState.svc.filling = [] ∧ restoreState.dst.lostPage 4 = false ∧
    Memory.wf (restoreState.dst.pageBytes 4) = true ∧ (after (exec (.pageRestored 4 true) restoreState)).ddr = [(0x10020, 7)] ∧
    (after (exec (.pageRestored 4 true) restoreState)).unrestored 0x10000 = false ∧
    (after (exec (.pageRestored 4 false) restoreState)).poison.length = 256 ∧ restoreState.pe.cmds = [] ∧
    (after (exec (.demandDeadline 4) restoreState)).fld F.DST_CNT3.DEADLINE_POISONS = 1 := by decide +kernel

def lastPage (w : Twin) : State := let s := twinState w; { s with mod := { s.mod with mode := .restore } }

theorem test_restore_complete : (lastPage .alone).unrestoredPages = [] ∧ (lastPage .alone).fab.defs.length = 0 ∧
    (after (exec .restoreComplete (lastPage .alone))).mod.mode = .solo ∧ (after (exec .restoreComplete (lastPage .paired))).mod.mode = .serve := by decide +kernel

/-! ### DRAM -/

def dimmAt (k : Nat) : Dimm := { channel := BitVec.ofNat 4 k, slot := 0, gib := 64, speed := 3, typeOk := true, sideOk := true }

def dimms16 : List Dimm := (List.range 16).map dimmAt

def popState : State := let s := destageState false; { s with mod := { s.mod with mode := .cold } }

theorem test_population : popState.svc.chOut = [] ∧ popState.mem.chans.length = 16 ∧
    (∀ k < 16, (dimms16.filter (fun d => d.channel.toNat == k)).length = 1) ∧ dimms16.all (fun d => d.typeOk && d.sideOk && decide (d.gib.toNat = 64) && d.speed != 0) = true ∧
    (after (exec (.populationCheck dimms16) popState)).mem.valid = true ∧ (after (exec (.populationCheck dimms16) popState)).mem.gib = 64 ∧
    (after (exec (.populationCheck []) popState)).mem.invalid = true := by decide +kernel

/-- Twins are paired; page 4 lies in channel 4. -/
def dramState : State :=
  let s := twinState .paired
  { s with regions := [(5, ordinary .d2)], ddr := [(0x10020, 7)], mem := { s.mem with valid := true, limit := 4096, scrubPos := 3 } }

def inCh4 (f : MemCh → MemCh) : State := dramState.updCh 4 f

theorem test_channel_results : (dramState.ch 4).lost = false ∧ (dramState.ch 4).out = false ∧ dramState.phl.twin.linked = true ∧
    ((after (exec (.thermalSensorRead 4 95) dramState)).ch 4).temp = 95 ∧ ((after (exec (.pmicRead 4 true) dramState)).ch 4).out = true ∧
    (after (exec (.pmicRead 4 true) dramState)).svc.chOut = [4] ∧ (after (exec (.pmicRead 4 true) dramState)).phl.unacked.map (·.aux) = [1030] := by decide +kernel

/-- Line 0x400 is the first of page 4; position 5 has been corrected in all but one of the lines of its threshold. -/
def nearThreshold : State := inCh4 (fun c => { c with
  corrected := (List.range (dramState.fld F.MEM_CTL.DEV_THR - 1)).map (fun i => (5, 64 * i)) })

theorem test_corrected_results : channelOf (pageOf (64 * 0x400)) = 4 ∧ 1 ≠ dramState.fld F.MEM_CTL.DEV_THR ∧ dramState.on F.MEM_CTL.DEV_ERASE_EN = true ∧
    ((nearThreshold.ch 4).corrected.filter (fun e => e.1 == 5)).length + 1 = nearThreshold.fld F.MEM_CTL.DEV_THR ∧
    ((nearThreshold.ch 4).corrected.contains (5, 64 * 0x400)) = false ∧
    ((after (exec (.correctedError (.ddr 0x400 0 5 false) true) dramState)).ch 4).hard = [65536] ∧
    ((after (exec (.correctedError (.ddr 0x400 0 5 false) false) nearThreshold)).ch 4).erased = [(0, 5)] ∧
    (after (exec (.correctedError .other false) dramState)).fld F.MEM_CNT0.CORRECTED = 1 := by decide +kernel

def repairState : State := dramState.updMem (fun m => { m with repairs := [{ line := 0x10000, fromTwin := true, demand := true }] })

theorem test_uncorrectable_results : dramState.repairing 0x10000 64 = false ∧ dramState.on F.MEM_CTL.REPAIR_EN = true ∧ dramState.twinSupplies 0x10000 = true ∧
    (after (exec (.uncorrectableError (.ddr 0x400)) dramState)).out = [.repairRead 0x10000] ∧
    (after (exec (.uncorrectableError (.ddr 0x400)) (dramState.setFld F.MEM_CTL.REPAIR_EN 0))).poison = [0x10000] ∧
    (after (exec (.uncorrectableError (.mapEntry 4)) dramState)).dst.segReload = [0] ∧ repairState.nc.serving = false ∧ Memory.wf repairState.ddr = true ∧
    (after (exec (.repairComplete 0x400 9 false) repairState)).ddr = [(0x10000, 9)] ∧
    (after (exec (.repairDeadline 0x400) repairState)).mem.repairs.map (·.demand) = [false] := by decide +kernel

def queuePairs : State := let s := dramState; { s with pe := { s.pe with qps := [(1, smallQp false)] } }

theorem test_queue_stopped : ((Tab.get queuePairs.pe.qps 1).map (·.life)) = some .active ∧
    ((Tab.get (after (exec (.uncorrectableError (.queuePair 1)) queuePairs)).pe.qps 1).map (·.life)) = some .stopped := by decide +kernel

/-- Three hard lines in page 4. -/
def hardState (spare : Nat) : State := inCh4 (fun c => { c with hard := [0x10000, 0x10040, 0x10080], spare := spare })

theorem test_retirement : (hardState 1).retireDue 4 = true ∧ (hardState 0).groupFree = true ∧
    ((after (exec (.pageRetirement 4) (hardState 1))).ch 4).redirects = [4] ∧ (after (exec (.pageRetirement 4) (hardState 0))).mem.limit = 4095 ∧
    ({ hardState 0 with mem := { (hardState 0).mem with limit := 0 } }).groupFree = false := by decide +kernel

def trainedStacks : State :=
  let s := dramState
  let u : CalUnit := { CalUnit.untrained with st := 2 }
  { s with cal := { s.cal with units := [(32, u), (33, u)] }, seq := { s.seq with good := 2 } }

theorem test_fills : trainedStacks.stackTrained 0 = true ∧ trainedStacks.stackTrained 1 = true ∧ trainedStacks.chGood 1 = true ∧
    (after (exec (.initialFill true) trainedStacks)).mem.stackDone = true ∧ (after (exec (.initialFill false) trainedStacks)).mem.sramDone = true ∧
    (after (exec (.backgroundFill 9) dramState)).mem.init = [9] ∧ dramState.on F.MEM_SCRUB_CTL.ENABLE = true ∧ dramState.ddrWindow = false ∧
    (after (exec .driftScrub dramState)).mem.scrubPos = 4 ∧
    (after (exec .driftScrub (dramState.updMem (fun m => { m with limit := 4 })))).mem.passes = 1 ∧
    (after (exec .scrubBehind { dramState with time := 10 ^ 19 })).mem.behind = true := by decide +kernel

/-! ### Rails -/

/-- The sequencer in a state, in COLD. -/
def seqState (f : SeqState → SeqState) : State := ({ base with mod := { base.mod with mode := .cold } }).updSeq f

def offState : State := seqState (fun q => q)

/-- Step 2 is coming up: its channels are on, those of steps 0 and 1 good. -/
def rampState : State := seqState (fun q => { q with st := .rampUp, step := 2, en := 15, good := 3 })

/-- Everything is on and good. -/
def upState : State := (seqState (fun q => { q with
  st := .up, step := 14, en := BitVec.allOnes 32, good := BitVec.allOnes 32, pfailHigh := true })).updMod (fun m => { m with mode := .solo })

theorem test_requests : offState.seq.st = .off ∧ offState.seq.fltHigh = true ∧ offState.seq.fltDrive = false ∧ offState.seq.tripHold = 0 ∧
    (after (execOn .ctl offState)).seq.st = .cascWait ∧ offState.on F.SEQ_CTL.AUTO_ON = true ∧
    (after (execPfailDebounce offState)).seq.st = .cascWait ∧ (after (execPfailDebounce (offState.setFld F.SEQ_CTL.AUTO_ON 0))).seq.pfailHigh = true ∧
    (after (execOn .ctl (seqState (fun q => { q with st := .rampDown })))).seq.onPending = true ∧
    (after (execOff .ctl (seqState (fun q => { q with st := .cascWait })))).seq.st = .off := by decide +kernel

theorem test_off_in_up : (upState.busyStep) = some 14 ∧ (after (execOff .ctl (upState.updMod (fun m => { m with mode := .halt })))).seq.en = 0x3FFFFFFF#32 ∧
    (after (execOff .ctl upState)).seq.en = BitVec.allOnes 32 ∧
    (after (execCascRelease 3 (seqState (fun q => { q with st := .cascWait })))).seq.position = 3 ∧
    (after (execCascRelease 9 (seqState (fun q => { q with st := .cascWait })))).seq.posError = true := by decide +kernel

theorem test_cascade : (after (execCascFltN .low upState)).fld F.SEQ_STATUS.FLT_SEEN = 1 ∧
    (after (execCascFltN .low (seqState (fun q => { q with st := .cascWait })))).seq.st = .off ∧
    (after (execCascFltRelease (seqState (fun q => { q with fltDrive := true })))).seq.fltDrive = false ∧
    (after (execCascInFall (seqState (fun q => { q with cascIn := true, released := true })))).early ++
      (after (execCascInFall (seqState (fun q => { q with cascIn := true, released := false })))).early = [] ∧
    (after (execAonResetRelease { base with isl := .inReset :: List.replicate 14 .off })).run .aon = .running ∧
    base.clocks.length = 15 ∧ (after (execTimeBaseResync .pe { base with time := 77 })).clocks[Island.pe.code]? = some 77 := by decide +kernel

theorem test_steps : (after (execOnDelay (seqState (fun q => { q with st := .rampUp, step := 2, en := 3, good := 3 })))).seq.en = 15 ∧
    rampState.nextStep 2 = some 3 ∧ rampState.run .cal = .running ∧ (after (execStepGood rampState)).seq.step = 3 ∧
    (after (execStepGood rampState)).seq.good = 15 ∧
    upState.nextStep 13 = none ∧ (after (execStepGood (upState.updSeq (fun q => { q with st := .rampUp, step := 13 })))).seq.st = .up := by decide +kernel

/-- Channel 14 is being switched on by command, and is not yet good. -/
def chOnState : State := upState.updSeq (fun q => { q with chCmd := some (14, true), good := q.good &&& ~~~(1#32 <<< 14) })

/-- Channel 14 is falling. -/
def fallingState : State := upState.updSeq (fun q => { q with en := 0xFFFFBFFF#32, finished := 0xFFFFBFFF#32, chCmd := some (14, false) })

theorem test_channel_commands : (after (execStepGood chOnState)).seq.chCmd = none ∧ (after (execPgTimeout 14 chOnState)).fld F.SEQ_CH_FAILED.FAILED = 0x4000 ∧
    chOnState.svc.proc = 0 ∧ (after (execPgTimeout 14 chOnState)).chOn 14 = false ∧ rampState.busyStep = some 2 ∧
    (after (execPgTimeout 2 rampState)).seq.st = .rampDown ∧ fallingState.chFalling 14 = true ∧
    (after (execOffTimeout 14 fallingState)).fld F.SEQ_CNT0.DISCHARGE_TIMEOUTS = 1 ∧ (after (execChannelDischarged 14 fallingState)).seq.chCmd = none ∧
    (after (execStuck 14 (fallingState.setFld (F.SEQ_CH_CFG.OFF_MODE 14) 0))).seq.stuck = true ∧
    (after (execOffTimeout 14 (fallingState.setFld (F.SEQ_CH_CFG.OFF_MODE 14) 1))).seq.chCmd = none := by decide +kernel

theorem test_down_timeouts :
    (after (execOffTimeout 14 (fallingState.updSeq (fun q => { q with st := .rampDown, timeoutPath := true, chCmd := none, step := 6 })))).chGood 14 = false ∧
    (after (execChannelOn .ctl 0 upState)).fld F.SEQ_CH_CMD.STATUS = ST.rights.toNat ∧ upState.chClass 14 = 2 ∧ upState.chClass 6 = 1 ∧
    (after (execChannelOn .ctl 14 offState)).fld F.SEQ_CH_CMD.STATUS = ST.mode.toNat ∧
    (after (execChannelOff .ctl 6 upState)).dst.nandOut = [0, 1, 2, 3] ∧
    (after (execChannelOn .ctl 14 (fallingState.updSeq (fun q => { q with chCmd := none })))).seq.chCmd = some (14, true) ∧
    (after (execChannelOn .ctl 14 (upState.setFld F.SEQ_CH_FAILED.FAILED 0x4000))).fld F.SEQ_CH_CMD.STATUS = ST.fault.toNat := by decide +kernel

theorem test_power_loss : 10 ≤ offState.fld F.SEQ_CTL.PFAIL_FILTER ∧ upState.lps.deep = false ∧ upState.mod.mode = .solo ∧
    (after (execPfailNAccept 3 upState)).fld F.SEQ_CNT0.PFAIL_GLITCHES = 1 ∧ (after (execPfailNAccept 99 offState)).fld F.SEQ_CNT0.PFAIL_ACCEPTS = 1 ∧
    (after (execPfailNAccept 99 upState)).mod.mode = .save ∧ (after (execRefclkLoss upState)).run .ctl = .inReset := by decide +kernel

theorem test_rail_losses : upState.chClass 30 = 3 ∧ upState.fld (F.SEQ_CH_CFG.SNS 30) = 0 ∧ upState.on (F.SEQ_CH_CFG.AUX_FATAL 30) = false ∧
    (after (execRailLoss 30 1 0 upState)).fld F.SEQ_CNT0.RAIL_FAILS = 1 ∧ (after (execRailLoss 6 1 0 upState)).dst.nandOut = [0, 1, 2, 3] ∧
    (after (execRailLoss 0 1 0 (upState.setFld (F.SEQ_CH_CFG.SNS 0) 0))).dst.lastIncomplete = true := by decide +kernel

theorem test_senses : (after (execSenseOutOfWindow 8 5 upState)).dst.hupCode = 5 ∧
    ((List.range 32).all (fun c => decide (c < 2) || upState.fld (F.SEQ_CH_CFG.SNS c) != 7)) = true ∧ upState.senseLow 6 5 = false ∧
    (after (execSenseOutOfWindow 6 5 upState)).seq.codes = [0, 0, 0, 0, 0, 0, 5, 0, 0] ∧ upState.fld F.SEQ_CTL.SNS_12V = 6 ∧
    upState.on F.SEQ_CTL.V12_PFAIL = true ∧ ((upState.setFld (F.SEQ_SNS.UV_MV 6) 9).senseLow 6 0) = true ∧
    (after (execSenseOutOfWindow 6 0 ((upState.updSeq (fun q => { q with st := .off })).setFld (F.SEQ_SNS.UV_MV 6) 9))).fld F.SEQ_CNT0.PFAIL_ACCEPTS = 1 := by
  decide +kernel

theorem test_outputs : (after (execFaultBufferCopy (upState.updSeq (fun q => { q with buffer := [upState.mkFault 3 1 0] })))).seq.flash.length = 1 ∧
    upState.cfl.bank0.running = none ∧ upState.assertActive 1 = false ∧ (upState.updSeq (fun q => { q with st := .latched })).assertActive 1 = upState.on (F.SEQ_RST.ON_LATCH 1) ∧
    ((after (execPulse .ctl 1 upState)).seq.rst[1]?).map (·.pulsing) = some true ∧
    ((after (execStretchExpiry 1 (upState.updSeq (fun q => { q with rst := List.replicate 4 ⟨true, true, false⟩ })))).seq.rst[1]?).map (·.asserted) = some false := by
  decide +kernel

theorem test_thermal : (after (execThermalRead 80 upState)).seq.temp = 80 ∧
    (after (execThermalRead 120 (offState.updSeq (fun q => { q with hot := true })))).fld F.GEN_THERM.TRIPPED = 1 ∧
    (after (execThermalTripHold (offState.updSeq (fun q => { q with tripHold := 1, temp := 99 })))).seq.tripHold = 2 ∧
    (after (execStandbyRailLoss upState)).dst.lastIncomplete = true := by decide +kernel

/-- In UP and COLD with both fills done; slot A holds the start of a bootable image. -/
def releaseState : State :=
  let s := upState.updMod (fun m => { m with mode := .cold })
  { s with mem := { s.mem with sramDone := true, stackDone := true } }

theorem test_release : releaseState.mayRelease = true ∧ (releaseState.bootSlot false false) = none ∧
    (after (execCtlRelease true true false releaseState)).fld F.CFL_ERR.FROW_BAD = 1 ∧
    (after (execCtlRelease false false true releaseState)).seq.bootFail = 1 := by decide +kernel

/-- MAGIC and a LENGTH of zero in slot A, each byte stored inverted. -/
def bootable : State := releaseState.updCfl (fun c => { c with array :=
  [(65536, 0xFE), (65537, 0xF0), (65538, 0xBF), (65539, 0x69), (65544, 0xFF), (65545, 0xFF), (65546, 0xFF), (65547, 0xFF)] })

theorem test_boot_slot : bootable.bootSlot true false = some 0 ∧ bootable.isl.length = 15 ∧ bootable.mayRelease = true := by decide +kernel

/-! ### Calibration -/

def goodResult : TrainResult := ⟨true, 0x55, 40, 9, [{ lane := 1, dir := 0, w := 30, h := 70 }], [], [], none⟩

def badResult : TrainResult := { goodResult with ok := false }

/-- Everything is powered, and unit `k` has the contents given. -/
def calState (k : Nat) (x : CalUnit) : State :=
  let s := upState.updCal (fun c => { c with units := [(k, x)] })
  { s with mem := { s.mem with valid := true, speed := 3 } }

/-- Stack 1 with two attempts behind it. -/
def triedTwice : CalUnit := { CalUnit.untrained with st := 1, tries := 2, fromSeed := false }

def trainedUnit : CalUnit := { CalUnit.untrained with st := 2 }

theorem test_training : (calState 33 CalUnit.untrained).trainable 1 1 = true ∧ (calState 33 CalUnit.untrained).awaits 1 1 = true ∧
    eyeFailed 1 (eyeTab goodResult.eyes) = false ∧ (calState 33 CalUnit.untrained).running .cfl = true ∧
    ((after (execTraining 1 1 goodResult (calState 33 CalUnit.untrained))).calUnit 33).st = 2 ∧
    (Tab.get (after (execTraining 1 1 goodResult (calState 33 CalUnit.untrained))).cal.seeds 33).isSome = true ∧
    ((after (execTraining 1 1 badResult (calState 33 CalUnit.untrained))).calUnit 33).tries = 1 ∧
    (after (execTraining 1 1 badResult (calState 33 triedTwice))).seq.bootFail = 2 := by decide +kernel

/-- A seed of another temperature is not used, one of the same is discarded. -/
def seededState (temp : BitVec 8) : State := (calState 33 CalUnit.untrained).updCal (fun c => { c with seeds := [(33, ⟨1, temp, 9⟩)] })

theorem test_seeds : (seededState 40).on F.CAL_CTL.SEED_EN = true ∧ (seededState 40).seededTry 1 1 badResult = true ∧ (seededState 120).seedRejected 1 1 badResult = true ∧
    (after (execTraining 1 1 badResult (seededState 40))).cal.seeds = [] ∧
    (after (execTraining 1 1 badResult (seededState 120))).fld F.CAL_CNT0.SEED_REJECTS = 1 := by decide +kernel

theorem test_training_failures : (after (execTraining 2 3 badResult (calState 67 triedTwice))).dst.nandOut = [3] ∧
    (calState 67 triedTwice).trainable 2 3 = true ∧ (calState 0 triedTwice).trainable 0 0 = true ∧ (calState 0 triedTwice).twinServes = false ∧
    ((after (execTraining 0 0 badResult (calState 0 triedTwice))).calUnit 0).tries = 3 ∧
    ((after (execTraining 0 0 badResult (calState 0 { triedTwice with tries := 3 }))).calUnit 0).st = 3 ∧
    ((after (execTraining 0 0 { badResult with oneDevice := some [(2, 4)] } (calState 0 triedTwice))).ch 0).erased = [(2, 4)] ∧
    (after (execTraining 0 0 goodResult (calState 0 { triedTwice with tries := 3 }))).mem.speed = 2 := by decide +kernel

theorem test_link_failures : (((calState 130 triedTwice).setFld F.FAB_CTL.ENABLE 1).trainable 4 2) = true ∧
    ((after (execTraining 4 2 badResult ((calState 130 triedTwice).setFld F.FAB_CTL.ENABLE 1))).calUnit 130).st = 3 ∧
    (((calState 160 triedTwice).setFld F.PHL_CTL.ENABLE 1).trainable 5 0) = true ∧
    ((after (execTraining 5 0 badResult ((calState 160 triedTwice).setFld F.PHL_CTL.ENABLE 1))).calUnit 160).st = 3 := by decide +kernel

theorem test_windows : (calState 33 trainedUnit).mayWindow 1 1 = true ∧ (calState 33 trainedUnit).putOff 1 1 = false ∧
    ((after (execRecalWindow 1 1 (calState 33 trainedUnit))).calUnit 33).window = true ∧
    ((after (execRecalWindowEnd 1 1 true goodResult (calState 33 { trainedUnit with window := true }))).calUnit 33).settings = 0x55 ∧
    ((after (execRecalWindowEnd 1 1 true goodResult (calState 33 { triedTwice with window := true }))).calUnit 33).window = false ∧
    (calState 67 { trainedUnit with deferred := true }).mayWindow 2 3 = true ∧
    ((after (execNandWindowDeferral 3 (calState 67 { trainedUnit with deferred := true }))).calUnit 67).window = true := by decide +kernel

/-- A repair from NAND waits on channel 3. -/
def demandState : State :=
  let s := calState 67 trainedUnit
  { s with mem := { s.mem with repairs := [{ line := 0x10000, fromTwin := false, demand := true }] }
           dst := { s.dst with map := [(4, { mapEntryAt (nandAt 5) 0 false with channel := 3 })] } }

theorem test_put_off : demandState.mayWindow 2 3 = true ∧ demandState.putOff 2 3 = true ∧
    (after (execRecalWindow 2 3 demandState)).fld F.CAL_CNT0.WINDOWS_DEFERRED = 1 ∧ (calState 96 trainedUnit).mayGap 3 0 = true ∧
    ((after (execGapFittedChange 3 0 7 (calState 96 trainedUnit))).calUnit 96).settings = 7 ∧
    (after (execGapDeferral 3 0 false (calState 96 trainedUnit))).fld F.CAL_CNT0.GAP_DEFERRALS = 1 ∧
    ((after (execGapDeferral 3 0 true (calState 96 { trainedUnit with gapWait := true }))).recordsFrom .cal).length = 1 ∧
    ((after (execFabricWindowDeferral 2 (calState 130 { trainedUnit with deferred := true }))).recordsFrom .cal).length = 1 ∧
    TakesRecord (calState 130 trainedUnit) .cal sevWarn := by decide +kernel

theorem test_retrain_commands : (calState 33 trainedUnit).unitOut 1 1 = false ∧ isUnit 1 9 = false ∧ (calState 96 trainedUnit).unitOut 3 0 = true ∧
    (after (execFullRetrain .ctl 1 9 (calState 33 trainedUnit))).fld F.CAL_CMD.STATUS = ST.fault.toNat ∧
    (after (execRetrainFromSeed .ctl 1 1 (calState 33 trainedUnit))).fld F.CAL_CMD.STATUS = ST.busy.toNat ∧
    (after (execRetrainFromSeed .ctl 3 0 (calState 96 trainedUnit))).cal.cmd = some 96 ∧
    ((after (execFullRetrain .ctl 3 0 (calState 96 trainedUnit))).calUnit 96).fromSeed = false := by decide +kernel

/-! ### Configuration flash -/

/-- The flash idle, its sectors in the Contrail log, where nothing is protected, and slot B booted. -/
def flashState (f : CflState → CflState) : State := (calState 33 trainedUnit).updCfl (fun c => f { c with bootedSlot := 1 })

def idleFlash : State := flashState (fun c => c)

/-- Bank 1 erases sector 11344. -/
def erasingFlash : State := flashState (fun c => { c with bank1 := { running := some { op := 3, fa := 46465024 }, suspended := none } })

def suspendedFlash : State := flashState (fun c => { c with bank1 := { running := none, suspended := some 11344 } })

theorem test_flash_hypotheses : idleFlash.running .cfl = true ∧ idleFlash.cfl.busy = false ∧ idleFlash.cfl.stopped = false ∧ norSector 46465024 = 11344 ∧
    norBank 46465024 = 1 ∧ idleFlash.wpBit 11344 = false ∧ idleFlash.wpBit 0 = true ∧ idleFlash.erasing 46465024 = false ∧ erasingFlash.erasing 46465024 = true ∧
    idleFlash.norBlank 46465024 256 = true := by decide +kernel

theorem test_flash_answers : (after (execCflRead .ctl 1 idleFlash)).fld F.CFL_CMD.STATUS = ST.fault.toNat ∧
    (after (execPvMargin .ctl 1 idleFlash)).fld F.CFL_CMD.STATUS = ST.fault.toNat ∧ (after (execEvMargin .ctl 256 idleFlash)).fld F.CFL_CMD.STATUS = ST.fault.toNat ∧
    (after (execCflRead .ctl 46465024 erasingFlash)).fld F.CFL_CMD.STATUS = ST.busy.toNat ∧
    (after (execCflProgram .mctp 46465024 idleFlash)).fld F.GEN_CNT0.PATH_DENIED = 1 ∧ (after (execCflProgram .ctl 0 idleFlash)).fld F.CFL_ERR.WP_VIOLATION = 1 ∧
    (after (execCflErase .ctl 0 idleFlash)).fld F.CFL_CNT1.WP_VIOLATIONS = 1 ∧
    (after (execCflErase .ctl 46465024 erasingFlash)).fld F.CFL_CMD.STATUS = ST.busy.toNat := by decide +kernel

theorem test_flash_starts : (after (execCflRead .ctl 46469120 erasingFlash)).cfl.bank1.suspended = some 11344 ∧
    (after (execCflProgram .ctl 46465024 idleFlash)).cfl.bank1.running = some { op := 2, fa := 46465024 } ∧
    ((after (execCflErase .ctl 46465024 idleFlash)).sector 11344).erases = 1 ∧ (after (execReadFrow .ctl 256 idleFlash)).cfl.busy = true ∧
    (after (execEraseSuspend .ctl 33554432 erasingFlash)).cfl.bank1.suspended = some 11344 ∧
    (after (execEraseResume .ctl 33554432 suspendedFlash)).cfl.bank1.running = some { op := 3, fa := 46465024 } ∧
    (after (execEraseResume .ctl 33554432 idleFlash)).fld F.CFL_CMD.STATUS = 0 ∧
    ((suspendedFlash.setFld F.CFL_CTL.AUTO_RESUME 1).on F.CFL_CTL.AUTO_RESUME) = true ∧
    (after (execAutoResume 1 (suspendedFlash.setFld F.CFL_CTL.AUTO_RESUME 1))).cfl.bank1.suspended = none := by decide +kernel

/-- Bank 1 runs an operation on the page at 46465024, whose first byte is 0x0F; the buffer starts with 0x77. -/
def flashRuns (op : Nat) : State :=
  (flashState (fun c => { c with bank1 := { running := some { op := op, fa := 46465024 }, suspended := none }, array := [(46465024, 0xF0)], busy := true })).setRaw
    (Addr.CFL_BUF 0) 0x77

theorem test_flash_ends : Memory.wf (flashRuns 1).cfl.array = true ∧ (after (execCflOperationComplete 1 true 3 0 (flashRuns 1))).raw (Addr.CFL_BUF 0) = 0xFFFFFFFFFFFFFF0F#64 ∧
    (after (execCflOperationComplete 1 true 3 0 (flashRuns 2))).norByte 46465024 = 0x77 ∧ (after (execCflOperationComplete 1 true 3 0 (flashRuns 2))).fld F.CFL_CNT0.PROGRAMS = 1 ∧
    ((after (execCflOperationComplete 1 true 3 9 (flashRuns 6))).sector 11344).worn = true := by decide +kernel

theorem test_margins : idleFlash.norBlank 46465024 4096 = true ∧ (flashRuns 1).norBlank 46465024 256 = false ∧
    (after (execMarginPatrol false 46465024 5 idleFlash)).fld F.CFL_CNT1.MARGIN_FAILS = 1 ∧
    (after (execMarginPatrol true 46465024 5 (flashRuns 1))).fld F.CFL_CNT1.MARGIN_FAILS = 1 := by decide +kernel

theorem test_protection : (after (execWpClr .mctp 0 1 idleFlash)).fld F.GEN_CNT0.PATH_DENIED = 1 ∧
    (after (execWpClr .ctl 8208 1 idleFlash)).fld F.CFL_ERR.WP_CLR_REFUSED = 1 ∧ slotFirst idleFlash.cfl.bootedSlot = 8208 ∧
    neverProtected 11344 = true ∧ (after (execWpSet .ctl 177 0x10000 idleFlash)).wpBit 11344 = false ∧
    (after (execWpSet .ctl 0 1 (idleFlash.setRaw (Addr.CFL_WP 0) 0))).wpBit 0 = true := by decide +kernel

/-! ### Low power -/

/-- In HALT with every link down, deep sleep enabled and every island asleep. -/
def sleepy (f : LpsState → LpsState) : State :=
  let s := (({ base with mod := { base.mod with mode := .halt }, isl := .running :: List.replicate 14 .gated }).setFld F.LPS_CTL.DEEP_EN 1).setFld F.LPS_CTL.HAZE_EN 1
  s.updLps f

theorem test_haze : ((base.setFld F.LPS_CTL.HAZE_EN 1).setFld F.LPS_HAZE_MASK.ISLANDS 0x3FFF).mayHaze .tir = true ∧
    (after (execHazeEntry .tir ((base.setFld F.LPS_CTL.HAZE_EN 1).setFld F.LPS_HAZE_MASK.ISLANDS 0x3FFF))).run .tir = .gated ∧
    (sleepy id).isHeld .pe = false ∧ (after (execHazeWake .pe (sleepy id))).run .pe = .running := by decide +kernel

theorem test_vote : (sleepy id).mayVote = true ∧ stopOrder.all (fun i => (sleepy id).run i == .gated) = true ∧
    (after (execOvercastVote (sleepy id))).lps.st = 1 ∧ (after (execEnter .ctl (sleepy id))).fld F.LPS_CMD.ENTER = 1 := by decide +kernel

/-- The vote has come to the island at this place of the order. -/
def voteAt (n : Nat) : State := sleepy (fun l => { l with st := 1, ready := n })

theorem test_votes : (voteAt 0).voting .pe = true ∧ (voteAt 0).canReady .pe = true ∧ (after (execIslandReady .pe (voteAt 0))).lps.ready = 1 ∧
    (after (execIslandReady .dst (voteAt 6))).lps.cleanCurrent = true ∧ (after (execIslandReady .nc (voteAt 8))).lps.ready = 9 ∧
    (after (execIslandReady .ctl (voteAt 13))).run .pe = .off ∧ (voteAt 6).voting .dst = true ∧
    (after (execIslandRefuse .dst (voteAt 6))).lps.lastRefuser = Island.dst.code ∧ (after (execVoteTimeout .pe (voteAt 0))).fld F.LPS_CNT0.REFUSALS = 1 := by
  decide +kernel

def overcast : State := (sleepy (fun l => { l with st := 2, cleanCurrent := true })).updSeq (fun q => { q with en := BitVec.allOnes 32 })

theorem test_night : (after (execNight .ctl overcast)).seq.en = 0xFFFFC01B#32 ∧ (overcast.setFld F.LPS_CTL.NIGHT_EN 1).on F.LPS_CTL.NIGHT_EN = true ∧
    (after (execNightfallEntry (overcast.setFld F.LPS_CTL.NIGHT_EN 1))).lps.st = 3 ∧ (after (execWake .ctl overcast)).lps.st = 4 ∧
    (after (execWake .ctl (voteAt 0))).lps.lastRefuser = 0 + Island.ctl.code ∧ (after (execPh0SignalDetect overcast)).lps.source = 3 ∧
    (after (execPh0SignalDetect (overcast.updLps (fun l => { l with st := 3 })))).lps.st = 3 ∧ overcast.running .phl = false ∧
    (after (execTwinHbInEdge overcast)).lps.source = 4 ∧ (after (execTwinHbInEdge (sleepy id))).phl.hbIn = .toggling := by decide +kernel

def waking (from_ : Nat) : State := overcast.updLps (fun l => { l with st := 4, from_ := from_, latched := 14 })

theorem test_wake : (waking 2).mayWakeEnd = true ∧ (waking 2).lps.waiting = [] ∧ regsCanonical (waking 2).regs = true ∧
    (after (execWakeComplete 2 (waking 2))).run .pe = .gated ∧ (after (execWakeComplete 2 (waking 2))).fld F.LPS_LOST.BANKS = 2 ∧
    (after (execWakeComplete 2 (waking 2))).lps.st = 0 := by decide +kernel

theorem test_pads : ((waking 2).updLps (fun l => { l with cleanCurrent := false })).padsFree 1 = 1 ∧
    (after (execPadRelease .ctl 15 ((waking 2).updLps (fun l => { l with cleanCurrent := false, latched := 15 })))).lps.st = 0 ∧
    (after (execPadRelease .ctl 2 overcast)).lps.latched = 0 ∧
    (after (execLpsResume .ctl 2 (overcast.updLps (fun l => { l with held := 0x7FFF })))).run .ctl = .running ∧
    (after (execLpsResume .mctp 2 overcast)).fld F.GEN_CNT0.PATH_DENIED = 1 := by decide +kernel

/-! ### Modes -/

/-- Twins paired, in a mode, with nothing open. -/
def modeState (m : Mode) : State := (twinState .paired).updMod (fun x => { x with mode := m, prev := .restore })

def aloneIn (m : Mode) : State := (twinState .alone).updMod (fun x => { x with mode := m, prev := .restore })

theorem test_mode_hypotheses : (modeState .serve).serving = true ∧ (modeState .serve).resyncing = false ∧ (modeState .serve).partOut = false ∧
    Settled (modeState .serve) ∧ (modeState .serve).svc.proc = 0 ∧ (modeState .drain).inDrain = true ∧ (modeState .service).inService = true ∧
    ((modeState .serve).updPhl (fun x => { x with twin := .resyncOut })).resyncing = true ∧
    ({ modeState .service with svc := { base.svc with chOut := [3] } }).partOut = true := by decide +kernel

theorem test_mode_commands : (after (execDrain .ctl 2 (modeState .serve))).mod.mode = .drain ∧ (after (execDrain .ctl 3 (modeState .serve))).fld F.MOD_CMD.STATUS = ST.fault.toNat ∧
    (after (execDrain .ctl 2 (modeState .halt))).fld F.MOD_CMD.STATUS = ST.mode.toNat ∧ (after (execHalt .ctl (modeState .serve))).phl.twin = .lost ∧
    (after (execHalt .ctl (aloneIn .solo))).mod.haltCause = 1 ∧ (after (execHalt .ctl (modeState .cold))).fld F.MOD_CMD.STATUS = ST.mode.toNat ∧
    (after (execService .ctl (modeState .serve))).mod.mode = .service ∧ (after (execServe .ctl (modeState .drain))).mod.mode = .serve ∧
    (after (execServe .ctl (aloneIn .service))).fld F.MOD_CNT0.SOLO_ENTRIES = 1 := by decide +kernel

def lostState : State := (modeState .halt).updPhl (fun x => { x with twin := .lost, linkIdSeen := false, lostByCommand := true })

theorem test_resume : (after (execResume .ctl false (aloneIn .halt))).mod.mode = .solo ∧ (aloneIn .halt).mod.haltCause ≠ 3 ∧
    (after (execResume .ctl false lostState)).phl.twin = .linking ∧ (after (execResume .ctl false (modeState .serve))).fld F.MOD_CMD.STATUS = ST.mode.toNat ∧
    (after (execResume .ctl false (lostState.updPhl (fun x => { x with linkIdSeen := true, twinMode := 7, epoch := 3, peerEpoch := 5 })))).fld F.MOD_ERR.RESUME_REFUSED = 1 := by
  decide +kernel

def drainTo (target : Nat) : State := (modeState .drain).updMod (fun m => { m with target := target })

theorem test_drain : ((modeState .drain).setFld F.MOD_CTL.CLOSE_PAGES 5).on F.MOD_CTL.CLOSE_PAGES = true ∧ (modeState .drain).dirtyPages = 0 ∧
    (after (execIntakeClose ((modeState .drain).setFld F.MOD_CTL.CLOSE_PAGES 5))).mod.intakeClosed = true ∧
    (after (execDrainClose (modeState .drain))).fld F.MOD_ERR.DRAIN_TIMED_OUT = 1 ∧ Settled (drainTo 7) ∧
    (after (execDrainComplete (drainTo 7))).mod.haltCause = 2 ∧ (after (execDrainComplete (drainTo 6))).mod.mode = .service ∧
    (after (execDrainComplete (drainTo 2))).mod.mode = .serve ∧ (after (execHaltHold (modeState .halt))).mod.haltHeld = true ∧
    (modeState .halt).mod.haltHeld = false := by decide +kernel

def unlocked (s : State) : State := s.updDbg (fun d => { d with unlocked := some 0 })

theorem test_freeze : (unlocked base).debugOpen = true ∧ base.debugOpen = false ∧ (after (execFreeze .ctl (unlocked base))).mod.frozen = true ∧
    (base.setFld F.DBG_CTL.PIN_EN 1).on F.DBG_CTL.PIN_EN = true ∧ (after (execStillairFreeze (base.setFld F.DBG_CTL.PIN_EN 1))).mod.frozen = true ∧
    (after (execThaw .ctl (unlocked (base.updMod (fun m => { m with frozen := true }))))).fld F.MOD_CNT0.FREEZES = 1 ∧ base.phl.twin.watched = false ∧
    (after (execReset .ctl (unlocked (upState.updMod (fun m => { m with frozen := true }))))).mod.mode = .save ∧
    (after (execReset .ctl (unlocked (base.updMod (fun m => { m with frozen := true }))))).mod.frozen = false := by decide +kernel

/-! ### Live service -/

/-- SERVICE with the twins paired; the other slot boots, and the sequencer is up with channel 14 + 2 off. -/
def serviceState (f : SvcState → SvcState) : State :=
  let s := modeState .service
  { s with
    cfl := bootable.cfl, svc := f { s.svc with runningSlot := 1 }
    seq := { upState.seq with en := 0xFFFEFFFF#32 }, phl := { s.phl with twinMode := 2 } }

def idleService : State := serviceState id

theorem test_service_hypotheses : idleService.running .ctl = true ∧ idleService.svc.proc = 0 ∧ idleService.inService = true ∧
    idleService.slotBoots idleService.otherSlot true = true ∧ idleService.isl.length = 15 ∧ idleService.engineOn 3 = true ∧
    idleService.engineDrained 3 = true ∧ idleService.twinTakes = true ∧ idleService.chanOut 2 = false ∧ idleService.mem.chans.length = 16 ∧
    idleService.fab.paths.length = 4 ∧ (idleService.path FabPort.fa0.partner).st = 0 := by decide +kernel

theorem test_service_waits : (after (execAbort .ctl (serviceState (fun v => { v with proc := 1 })))).svc.waiting = [.abort .ctl] ∧
    after (execRetrain .ctl 2 7 (serviceState (fun v => { v with proc := 6 }))) = serviceState (fun v => { v with proc := 6 }) ∧
    (after (execRetrain .ctl 2 7 (modeState .serve))).fld F.SVC_CMD.STATUS = ST.mode.toNat := by decide +kernel

theorem test_handover : (after (execFwHandover .ctl true idleService)).run .ctl = .inReset ∧
    (after (execFwHandover .ctl false idleService)).fld F.SVC_CMD.STATUS = ST.fault.toNat ∧
    (after (execHandoverLimit (serviceState (fun v => { v with proc := 1 })))).fld F.SVC_ERR.HANDOVER_FAIL = 1 ∧
    (serviceState (fun v => { v with proc := 1 })).svc.waiting = [] := by decide +kernel

theorem test_swap : (after (execMcodeSwap .ctl 3 idleService)).svc.mcode = 8 ∧
    (after (execMcodeSwap .ctl 0 { idleService with pe := { base.pe with strands := [(0, smallStrand [])] } })).engineOn 0 = false ∧
    { idleService with pe := { base.pe with strands := [(0, smallStrand [])] } }.engineDrained 0 = false ∧
    (after (execDrainLimit ((serviceState (fun v => { v with proc := 2, unit := 3 })).enableEngine 3 false))).engineOn 3 = true ∧
    (after (execMcodeSwap .ctl 3 (idleService.enableEngine 3 false))).fld F.SVC_CMD.STATUS = ST.fault.toNat := by decide +kernel

theorem test_channel_service : (after (execChOut .ctl 2 idleService)).chanOut 2 = true ∧ (after (execChOut .ctl 2 idleService)).svc.chOut = [2] ∧
    (after (execChOut .ctl 2 (aloneIn .service))).fld F.SVC_CMD.STATUS = ST.busy.toNat ∧
    (after (execChIn .ctl 2 [] idleService)).fld F.SVC_CMD.STATUS = ST.fault.toNat ∧
    (serviceState (fun v => { v with chOut := [2] })).svc.chOut.contains 2 = true ∧
    (after (execChIn .ctl 2 [] { serviceState (fun v => { v with chOut := [2] }) with mem := { base.mem with dpc := 1 } })).fld F.SVC_ERR.CH_IN_FAIL = 1 := by
  decide +kernel

/-- No RDIMM is needed where none is fitted. -/
def returning : State := let s := serviceState (fun v => { v with chOut := [2] }); { s with mem := { s.mem with dpc := 0 } }

theorem test_ch_in : returning.dimmsFit 2 [] = true ∧ returning.seq.st = .up ∧ returning.chClass 16 = 2 ∧ returning.chOn 16 = false ∧
    Nat.testBit (returning.fld F.SEQ_CH_FAILED.FAILED) 16 = false ∧ (after (execChIn .ctl 2 [] returning)).cal.cmd = some 2 ∧
    (after (execChIn .ctl 2 [] returning)).seq.chCmd = some (16, true) := by decide +kernel

def fillingState : State := serviceState (fun v => { v with chOut := [2], proc := 4, unit := 2, phase := 3 })

theorem test_fill : fillingState.filled 2 = true ∧ fillingState.hst.reads = [] ∧ (after (execChFillComplete fillingState)).svc.chOut = [] ∧
    (after (execChFillComplete fillingState)).fld F.SVC_CNT0.CHANNEL_SERVICES = 1 ∧ (after (execAbort .ctl fillingState)).fld F.SVC_ERR.ABORTED = 1 ∧
    ((after (execAbort .ctl fillingState)).ch 2).lost = true := by decide +kernel

theorem test_retrain : isUnit 0 2 = true ∧ isUnit 2 7 = true ∧ isUnit 3 1 = true ∧ isUnit 5 2 = false ∧ isUnit 4 3 = true ∧
    (after (execRetrain .ctl 0 2 idleService)).cal.cmd = some 2 ∧ 7 ∈ (after (execRetrain .ctl 2 7 idleService)).dst.nandOut ∧
    (after (execRetrain .ctl 3 1 idleService)).svc.proc = 5 ∧ (after (execRetrain .ctl 4 3 idleService)).cal.cmd = some 131 ∧
    (after (execRetrain .ctl 1 0 idleService)).fld F.SVC_CMD.STATUS = ST.fault.toNat := by decide +kernel

def migrating : State := serviceState (fun v => { v with migrating := [(3, 1)], proc := 6, unit := 3, ce := 1 })

theorem test_packages : migrating.running .dst = true ∧ (after (execMigrationComplete migrating)).svc.migrating = [] ∧
    (after (execMigrationComplete migrating)).svc.proc = 0 ∧ (after (execAbort .ctl migrating)).svc.migrating = [] ∧
    after (execAbort .ctl idleService) = idleService := by decide +kernel

theorem test_ports : (after (execPathOut .ctl .fa0 idleService)).svc.portOut = [0] ∧ ((after (execPathOut .ctl .fa0 idleService)).path .fa0).st = 3 ∧
    ((after (execPathIn .ctl .fa0 (after (execPathOut .ctl .fa0 idleService)))).path .fa0).st = 2 ∧
    (after (execPathIn .ctl .fa0 idleService)).fld F.SVC_CMD.STATUS = ST.fault.toNat := by decide +kernel

/-! ### Rules word for word -/

theorem test_charge_hypotheses : Tab.sorted (destageState true).dst.pages = true ∧ (destageState true).tenantPages 1 = 1 ∧
    (destageState true).running .dst = true ∧ (destageState true).running .mem = true ∧
    (after (exec (.destageStart 4) (destageState true))).tenantPages 1 = 1 ∧ (after (exec (.destageStart 4) (destageState false))).tenantPages 1 = 0 ∧
    Memory.wf underway.ddr = true ∧ Memory.wf underway.dst.nand = true ∧ underway.dst.saving = false ∧
    (after (exec (.destageComplete 4 (nandAt 5) true) underway)).tenantPages 1 = 0 := by decide +kernel

/-- The units of `twoUnits`, the later one over the earlier one's last byte, both written and charged. -/
theorem test_order_hypotheses : (twoUnits false).pst.units.map (fun u => (u.id, u.region, u.charged, u.away, u.committed)) =
      [(0, 5, true, false, false), (1, 5, true, false, false)] ∧
    ((twoUnits false).pst.units.head?).any (fun u => u.overlaps 0x10013 2) = true ∧
    (after (execCommitUnit 1 (twoUnits false))).pst.units.map (·.committed) = [false, false] ∧
    ((twoUnits true).pst.units.getLast?).any (fun v => (twoUnits true).commitReady v && !(twoUnits true).modeOut v &&
      (twoUnits true).reachable v == some .d1 && v.atomic.isNone && v.record.isNone) = true ∧
    (after (execCommitUnit 1 (twoUnits true))).bytes 0x10010 5 = [1, 2, 3, 5, 6] ∧
    (after (execPlacement false 1 (after (execCommitUnit 1 (twoUnits true))))).pst.units.map (·.id) = [0, 1] := by decide +kernel

theorem test_channel_alone : chOnState.seq.chCmd = some (14, true) ∧ chOnState.seq.buffer.length < 16 ∧ chOnState.chGood 14 = false ∧
    (after (execPgTimeout 14 chOnState)).seq.buffer.map (fun r => (r.ch, r.phase)) = [(14, 4)] ∧ (after (execPgTimeout 14 chOnState)).seq.st = .up ∧
    (after (execPgTimeout 14 chOnState)).seq.en = 0xFFFFBFFF#32 ∧ upState.seq.chCmd = none ∧
    (after (execRailLoss 14 1 0 (chOnState.updSeq (fun q => { q with good := BitVec.allOnes 32 })))).fld F.SEQ_CH_CMD.STATUS = ST.fault.toNat ∧
    (after (execRailLoss 14 2 0 (chOnState.setFld (F.SEQ_CH_CFG.SNS 14) 3))).fld F.SEQ_CH_FAILED.FAILED = 0x4000 := by decide +kernel

/-- The write the fence waits for has number 0. -/
def incompleteState : State := let s := fenceState false; { s with pst := { s.pst with nextUnit := 1 } }

theorem test_fence_incomplete : incompleteState.fenceOpen .hp0 3 = true ∧ (incompleteState.ld .hp0 3).settled 1 = false ∧
    (incompleteState.ld .hp0 3).waiting.map (·.bound) = [1] ∧ incompleteState.fencesOut .hp0 = 1 ∧
    ((after (execFenceTimeout .hp0 3 incompleteState)).out.map (fun o => match o with
      | .cxlData _ _ tag b _ _ => (tag, b.length, (b.getD 16 0).toNat)
      | _ => (0, 0, 0))) = [(8, 64, 131)] := by decide +kernel

/-! ### Register accesses -/

/-- A register of PST holds a counter; SEQ_ERR has a W1C flag; a tenant of LD 3 of HP0 is staged. -/
def regState : State := { base with svc := { base.svc with proc := 0 }, staged := [⟨0x700218, 0, 12, 5⟩] }

theorem test_reach : Reaches regState .ctl 0x100 ∧ Reaches regState .mctp Addr.SEQ_CTL ∧ Reaches regState .ctl 0x700010 ∧
    Reaches regState .mctp (Addr.PE_PQ_DB 3) ∧ Reaches (unlocked regState) .jtag Addr.SEQ_CTL := by decide +kernel

/-! ### Conditions of further clauses -/

/-- The instruction with register 2, which holds 0, as its length (R141). -/
def lengthZero (w : BitVec 128) : BitVec 128 :=
  IWord.toBits { IWord.ofBits w with b := 2, hi := (IWord.ofBits w).hi ||| (1#64 <<< 19) }

abbrev NoLength (w : BitVec 128) (second : Bool) : Prop :=
  (issOf (lengthZero w)).zeroLen = true ∧ CanIssue (memState (lengthZero w)) 0 (issOf (lengthZero w)) ∧
  modeRefuses (memState (lengthZero w)).mod.mode (issOf (lengthZero w)).i.opn = false ∧
  (memState (lengthZero w)).checks (issOf (lengthZero w)).st
    (primOf (lengthZero w) .local_ rightW (some .d0) :: if second then [secOf (lengthZero w)] else []) true (issOf (lengthZero w)).lenOk = none

set_option synthInstance.maxSize 1000 in
theorem test_length_zero : NoLength cpyWord true ∧ NoLength filWord false ∧ NoLength zroWord false ∧ NoLength cmpmWord true ∧
    pcOf (after (exec (.zro 0) (memState (lengthZero zroWord)))) 0 = [1] := by decide +kernel

theorem test_remote_length_zero : (remoteIss (lengthZero putWord) false).zeroLen = true ∧
    ((remoteState (lengthZero putWord) false).reach (remoteIss (lengthZero putWord) false) 2).any
      (fun r => !loanClassBad (some r) (remoteIss (lengthZero putWord) false).cls) = true ∧
    pcOf (after (exec (.put 0) (remoteState (lengthZero putWord) false))) 0 = [1] ∧
    lastMsg (after (exec (.get 0) (remoteState (lengthZero getWord) false))) = none := by decide +kernel

/-- Page 4 of a D2 region has been committed without the twin. -/
def separated (ms : Nat) : State :=
  let s := strandOn .d2 false (mirwWord ms)
  { s with phl := { s.phl with separation := [4] } }

theorem test_uncopied : (separated 0).uncopied (ordinary .d2) = [4] ∧ (issOf (mirwWord 0)).i.imm32 = 0 ∧ (issOf (mirwWord 1)).i.imm32 ≠ 0 ∧
    (regsOf (after (exec (.mirw 0) (separated 0))) 0).getD 3 0 = 1 ∧ doneOf (after (exec (.mirw 0) (separated 1))) = some none := by decide +kernel

/-- APP's record has its input, and CIP its digest. -/
def appendEnd : Op := { cipherOp 0x38 none .done [1, 2, 3, 4] with phase := .source }

def appendEndState : State :=
  let s := sealState nopWord { emptyLog with items := [newItem 4 (.strand 0 0) 0 .d3], nextId := 1 }
  { s with pe := { s.pe with cmds := [(0, cipherCmd appendEnd)] } }

theorem test_append_end : MayProgress appendEndState 0 0 appendEnd (cipherCmd appendEnd) 0
      { smallStrand [frameOf nopWord 0] with h := [handle5, handleScratch, 0x63D] } ∧
    appendEnd.opcode = 0x38 ∧ appendEnd.units = [] ∧ appendEnd.done = none ∧ appendEnd.input = some [1, 2, 3, 4] ∧
    appendEndState.isHome sealedRegion = true ∧ appendEndState.mayAdmit (cipherCmd appendEnd) appendEnd = true ∧
    ((after (exec (.instructionCompletion 0 0 []) appendEndState)).log 5).map (fun l => l.items.map (fun i => (i.ready, i.payload))) =
      some [(true, [1, 2, 3, 4])] := by decide +kernel

/-- A VRFY whose records are all walked and whose digests CIP has. -/
def walkedState : State :=
  let o := { cipherOp 0x3A none .done [] with phase := .source, input := none, prim := 1, len := 0, sec := 0 }
  let s := sealState nopWord { emptyLog with doneSeq := 1, doneOff := 65664, seq := 1, off := 65664 }
  { s with pe := { s.pe with cmds := [(0, cipherCmd o)] } }

theorem test_verify_end : (walkedState.opOf 0 0).map (fun o => (o.phase, o.cip, o.units, o.opcode)) = some (.source, .done, [], 0x3A) ∧
    walkedState.srcReady 0x100000 65664 0 = true ∧ (walkedState.walkStart sealedRegion 0 1).1 = 1 ∧
    (walkedState.verify 5 sealedRegion 0 1 false (1 + 0 - 1) 1 65536 []).st = 0 := by decide +kernel

/-- Two other lenders advertise capacity, and PH1 is down. -/
def otherLender (adverts : List (Nat × Nat)) : State :=
  { reserving with phl := { reserving.phl with ph1 := PhState.reset }, tir := { reserving.tir with adverts := adverts } }

theorem test_refused_loan : (otherLender [(6, 2), (8, 1)]).lenderAt 1 = some (.node 8) ∧ (otherLender []).lenderAt 1 = none ∧
    ((otherLender []).opOf 0 0).isSome = true ∧ (after (exec (.loanLost 0) (otherLender [(6, 2), (8, 1)]))).out.getLast? = some (.loanAsk 0 4096 (.node 8)) ∧
    doneOf (after (exec (.loanLost 0) (otherLender []))) = some (some ⟨ST.busy, none, 0⟩) := by decide +kernel

theorem test_direct_post : (settledState false true).mod.mode ≠ .save ∧ ((settledState false true).regionAt 0x11000).any (fun e =>
      (settledState false true).isHome e.2) = true ∧ (settledState false true).rangeAway 0x11000 32 = false ∧
    ((settledState false true).cmdOf 0).map (·.closed) = some true ∧ (settledState false true).hst.reads = [] := by decide +kernel

theorem test_own_window : hostState.inOwnFence .hp0 3 0x30000 = true ∧ hostState.hdmDpa .hp0 3 0x30000 = some 0x30000 ∧
    hostState.hdmDpa .hp0 3 0x30080 = some 0x30080 ∧ hostState.fencesOut .hp0 < 256 ∧
    ((after (exec (.memRd .hp0 3 0xC00 9) hostState)).ld .hp0 3).waiting.map (·.tag) = [9] ∧
    ((after (exec (.memRd .hp0 3 0xC01 9) hostState)).out.length) = 1 ∧
    ((after (exec (.memWr .hp0 3 0xC02 0 false) (hostState.setLd .hp0 3 { LdState.empty with status := 3 }))).ld .hp0 3).status = 0 := by decide +kernel

/-- A flush of HP0 is under way that covers a write which has not settled. -/
def lateFlush : State := (fenceState false).setPort .hp0 { (fenceState false).port .hp0 with gpf := some 1 }

theorem test_late_flush : lateFlush.portUp .hp0 = true ∧ lateFlush.portSettled .hp0 1 = false ∧
    (after (exec (.gpfLate .hp0) lateFlush)).fld (F.HST_ERR.GPF_LATE .hp0) = 1 ∧ (heldState.port .hp0).link = 2 ∧
    heldState.mod.mode ≠ .save := by decide +kernel

/-- Outcomes of messages 0 and 1 stand for the next FENCE. -/
def outcomesState : State := fabricState.updSes 3 (fun x => { x with outcomes := [(0, ST.key, none), (1, ST.poison, none)] })

theorem test_fence_outcomes : (sesOf outcomesState).outcomes.find? (fun o => decide (o.1 < 2) && o.2.1 != 0) = some (0, ST.key, none) ∧
    ((sesOf outcomesState).fenceAck 2).status = ST.key ∧ ((sesOf outcomesState).fenceAck 0).status = 0 ∧
    ((sesOf outcomesState).fenceAck 0).cls = 3 ∧ readGranted (sesOf getState) dataPacket = true := by decide +kernel

/-- Session 3 is one with the twin. -/
def twinSes (st : SesSt) : State :=
  let s := fabricState.updSes 3 (fun x => { x with st := st, params := { x.params with tenant := 0, probe := true } })
  { s with phl := { s.phl with peerKnown := true, peerNode := 6, linkIdSeen := false }, regs := s.regs }.setFld F.PHL_FB_CTL.FB_ENABLE 1

theorem test_twin_session : (twinSes .open_).twinWrite (sesOf (twinSes .open_)) 1 = true ∧ fabricState.twinWrite openSession 1 = false ∧
    NewPacket (twinSes .open_) .fa0 writePacket (sesOf (twinSes .open_)) 1 ∧ (twinSes .open_).twinSession = true ∧
    (sesOf (after (exec (.write .fa0 writePacket) (twinSes .open_)))).acks.map (·.status) = [0] ∧
    (after (exec (.write .fa0 writePacket) (twinSes .open_))).pst.units = [] := by decide +kernel

theorem test_ack_conditions : (sentState .open_).isTwinSes (sesOf (sentState .open_)) = false ∧ fabricState.isTwinSes openSession = false ∧
    openSession.tx = [] ∧ isViolation 0 = false ∧ ((sesOf getState).tx.find? (fun m => m.msg == 5 && m.answer.isNone)).map (·.typ) = some 3 ∧
    CtlPacket getState .fa0 ackPacket (sesOf getState) 7 ∧
    (sesOf (after (exec (.ack .fa0 ackPacket) getState))).tx.map (·.answer) = [some (0, 0, 77)] ∧
    fabricState.turnUnit 3 = none ∧ fabricState.turnSubmit 3 = none ∧ openSession.replies = [] := by decide +kernel

/-- The control queue is full, or CTL is in reset. -/
def fullQueue : State := { fabricState with fab := { fabricState.fab with ctrlQueue := List.replicate 4096 (.fa0, closePacket) } }
def noFirmware : State := { fabricState with isl := fabricState.isl.set Island.ctl.code .inReset }

theorem test_control_queue : 4096 ≤ fullQueue.fab.ctrlQueue.length ∧ noFirmware.running .ctl = false ∧ fabricState.fab.ctrlQueue = [] ∧
    fabricState.isMember 6 = true ∧ openPacket.dst = fabricState.node ∧ (inState .ready).keyable (sesOf (inState .ready)) = true ∧
    (after (exec (.close .fa0 closePacket) noFirmware)).fab.ctrlQueue.length = 1 ∧
    (after (exec (.close .fa0 closePacket) fullQueue)).fld F.FAB_CNT5.CTRL_DROPS = 1 ∧
    ({ openSession with closeSeen := true } : Session).idle = true ∧ ({ sesOf (sentState .open_) with closeSeen := true } : Session).idle = false ∧
    (sesOf (after (exec (.close .fa0 closePacket) (sentState .open_)))).st = .closing := by decide +kernel

theorem test_session_conditions : MayControl openSession ∧ (sesOf (sentState .closing)).st = .closing ∧
    ((after (exec (.sessionDestroy .mctp 3) (sentState .closing))).ses 3).isSome = true ∧
    (fabricState.path .fa0).st ≠ 2 ∧ fabricState.cleanWindow (pathIn 1 |>.path .fa0) = true ∧
    (pathIn 2).pairDown 1 = false ∧ (pathIn 2).pairDown 0 = false ∧ fabricState.running .ctl = true ∧
    (after (exec (.ptpEventMessage .fa0 7) fabricState)).out = [.ptp .fa0 7] := by decide +kernel

/-- FA0 has failed with a probe outstanding on it. -/
def probeLost : State := (pathIn 2).updSes 3 (fun x => { x with probing := [(.fa0, 0)] })

theorem test_probe_lost : (probeLost.path .fa0).st = 2 ∧ (sesOf probeLost).probing = [(.fa0, 0)] ∧
    (after (exec (.skewWindowExpiry 3 none .fa0) probeLost)).fld (F.FAB_PATH_CNT.MISSING 0) = 1 := by decide +kernel

theorem test_frame_conditions :
    (after (exec (.mdata (twinFrame 0 7 [1, 2])) (twinState .paired))).phl.copies.map (fun c => (c.ref, c.last)) = [(some 7, true)] ∧
    (after (exec (.mfwd (twinFrame 2 0 [4, 5])) (twinState .paired))).pst.units.map (fun u => (u.dpa, u.len, u.cells.map (·.1))) =
      [(0x10040, 64, [0x10040, 0x10041])] ∧
    ((after (exec (.mfwd { twinFrame 2 0 [4, 5] with last := false }) (twinState .paired))).phl.fwdParts.map (·.dpa)) = [0x10040] ∧
    (twinState .paired).phl.fwdParts = [] ∧ (twinState .paired).phl.twinWait = [] ∧ (twinState .paired).phl.hmapIn = [] ∧ (twinState .paired).phl.txWait = [] ∧
    ((twinState .paired).port .hp0).owed = 0 ∧ (twinState .paired).phl.primary = false := by decide +kernel

theorem test_session_frames :
    (after (exec (.ctrlHmap (twinFrame 1 4 [])) ((twinState .paired).updPhl (fun x => { x with hmapOut := [4, 6] })))).phl.hmapOut = [6] ∧
    (after (exec (.ctrlSession (twinFrame 0x100 0 (leBytes 4 3)) sessionParams) { twinState .paired with
      fab := { (twinState .paired).fab with twinDefs := [sessionParams] } })).fab.twinDefs = [] ∧
    (after (exec (.ctrlSession (twinFrame 0x30200 0 (leBytes 4 6)) sessionParams) (twinState .paired))).fab.members = [6] ∧
    (after (exec (.ctrlSession (twinFrame 0x10300 0 [0x82, 1]) sessionParams) (twinState .paired))).phl.changeIn = [0x82, 1] ∧
    (Tab.get (after (exec (.ctrlSession (twinFrame 0x30300 0 ([0x82, 0, 0, 0] ++ admitOf 3 1)) sessionParams) (twinState .paired))).tenants 3).isSome = true := by
  decide +kernel

/-- At the end of a resync all that this device holds has been named. -/
def toldState : State :=
  let s := restoring .resyncIn
  let x : Session := mkSession sessionParams 1024
  { s with phl := { s.phl with told := [(0, 5), (1, 1)] }, fab := { s.fab with sessions := [(2 ^ 20 - 2, x), (2 ^ 20 - 1, x)] } }

theorem test_told : toldState.phl.ph0.up = true ∧ Restoring toldState ∧ Settled toldState ∧
    toldState.regions.all (fun e => toldState.phl.told.contains (0, e.1) || toldState.ownPriv e.1) = true ∧
    toldState.tenants.all (fun e => e.1 == 0 || toldState.phl.told.contains (1, e.1)) = true ∧
    toldState.pe.qps.all (fun e => decide (e.1 < 16) || toldState.phl.told.contains (2, e.1)) = true ∧
    (List.range 2).all (fun n => (toldState.ses (2 ^ 20 - 1 - n)).isSome) = true ∧
    (after (exec (.resyncEnd (twinFrame 4 0 [])) toldState)).phl.twin = .paired := by decide +kernel

/-- LINK_ID over a twin session is to come, to the device at position 1. -/
def fallbackLink : State :=
  let s := twinSes .open_
  { s with seq := { s.seq with position := 1 }, phl := { s.phl with twin := .absent, ph0 := { upPort with up := false } } }

theorem test_fallback_link : fallbackLink.twinSession = true ∧ fallbackLink.phl.linkIdSeen = false ∧ fallbackLink.matches_ otherId = true ∧
    fallbackLink.decidesLink = false ∧ (after (exec (.linkId .fallback otherId) fallbackLink)).phl.linkIdSeen = true ∧
    fallbackLink.matches_ { otherId with product := 0 } = false ∧ fallbackLink.cip.fabricRoot = none ∧
    (fallbackLink.setFld F.PHL_CTL.ENCRYPT 1).matches_ { otherId with encrypt := true } = true := by decide +kernel

/-- HALT in UP with nothing dirty, and with a dirty page. -/
def haltedUp (dirty : Bool) : State :=
  let s := upState.updMod (fun m => { m with mode := .halt })
  if dirty then { s with dst := { s.dst with pages := [(4, dirtyPage)] }, regions := [(5, ordinary .d1)], ddr := [(0x10020, 7)] } else s

theorem test_off_conditions : (haltedUp false).savePages = [] ∧ (haltedUp false).pst.units = [] ∧ (haltedUp false).phl.copies = [] ∧
    (haltedUp true).savePages = [4] ∧ (haltedUp true).nothingAdmitted = false ∧ (haltedUp true).dst.testing = false ∧
    (after (execOff .ctl (haltedUp true))).mod.mode = .save ∧ (after (execOff .ctl (haltedUp true))).seq.offPending = true := by decide +kernel

def offSave : State := (inSaveMode .up true).updSeq (fun q => { q with offPending := true })

theorem test_save_conditions : offSave.busyStep.isSome = true ∧ (after (execSaveComplete offSave)).seq.st = .rampDown ∧
    crossing.deliveredTo .pst = false ∧ (inSaveMode .up false).deliveredTo .pst = true ∧ (after (execSaveEntry { inSaveMode .up false with xing := crossing.xing })).dst.saving = false := by
  decide +kernel

/-- COLD after a complete save that holds one committed unit. -/
def imageState : State :=
  { coldState with dst := { coldState.dst with images := (after (execSaveComplete (inSaveMode .up true))).dst.images } }

theorem test_image : imageState.dst.images.map (·.complete) = [true] ∧ imageState.phl.linkIdSeen = false ∧ imageState.tir.plan = none ∧
    (after (execRestoreEntry 1 32 0xFFFFF imageState)).mod.mode = .restore := by decide +kernel

/-- A committed unit of line 0x10000 waits to be placed. -/
def scrubbed : State := { dramState with pst := (twoUnits true).pst }

theorem test_scrub_conditions : scrubbed.writeWaits 0x10000 = true ∧ dramState.writeWaits 0x10000 = false ∧
    (after (execCorrectedError (.ddr 0x400 0 5 true) true scrubbed)).fld F.MEM_CNT3.SCRUB_CANCELS = 1 ∧
    (Tab.get ((nearThreshold.updCh 4 (fun c => { c with erased := [(0, 3)] })).ch 4).erased 0) = some 3 ∧
    ((after (execUncorrectableError (.sealState 5) (sealState nopWord onePlaced))).log 5).map (fun l => (l.seq, l.items.length)) = some (1, 1) := by
  decide +kernel

def saveWindow : State := (calState 33 { triedTwice with window := true }).updMod (fun m => { m with mode := .save })

theorem test_save_window : saveWindow.mod.mode = .save ∧ saveWindow.isl.length = 15 ∧ (saveWindow.calUnit 33).window = true ∧
    (after (execRecalWindowEnd 1 1 true goodResult saveWindow)).run .cal = .inReset ∧ upState.fab.paths.length = 4 ∧ upState.lps.deep = false ∧
    (after (execRefclkLoss upState)).mod.mode = .save := by decide +kernel

theorem test_erasing : erasingFlash.erasing 46465024 = true ∧ suspendedFlash.erasing 46465024 = true ∧ idleFlash.erasing 46465024 = false ∧
    (after (execPvMargin .ctl 46465024 erasingFlash)).fld F.CFL_CMD.STATUS = ST.busy.toNat ∧
    (after (execEvMargin .ctl 46465024 erasingFlash)).fld F.CFL_CMD.STATUS = ST.busy.toNat := by decide +kernel

theorem test_last_votes : (voteAt 11).voting .contrail = true ∧ (voteAt 11).canReady .contrail = true ∧ (voteAt 13).voting .ctl = true ∧
    (voteAt 13).canReady .ctl = true ∧ (voteAt 13).contrail.unflushed = [] ∧ (List.range 15).all (fun k => (Tab.get (voteAt 13).xing (64 + k)).isNone) = true := by
  decide +kernel


/-! ### Soundness -/

theorem test_reset_sound : State.reset.sound = true := by decide +kernel

theorem test_small_states_sound : base.sound = true ∧ (strandState halt).sound = true ∧ fabricState.sound = true ∧ (destageState true).sound = true ∧
    (idleService.setFld F.SVC_CMD.STATUS 9).sound = true := by decide +kernel

end Sys2Proof.Tests
end

section
namespace Sys2Proof.Machine

/-! ### The register map, scanned once -/

/-- Two fields of a register have no bit in common. -/
def FieldDesc.apart (f g : FieldDesc) : Bool := decide (f.lsb + f.width ≤ g.lsb) || decide (g.lsb + g.width ≤ f.lsb)

/-- No performance counter, no stage register, and none of the registers that other rows count or report in. -/
def plainAddr (a : Nat) : Bool :=
  !isPmu a && !isStage a && !isBlkId a && !([Addr.GEN_ERR, Addr.GEN_ERR_LOG, Addr.GEN_CNT0, Addr.DST_CNT0].contains a)

/-- The field can be staged: it takes written values, and not at once. -/
def FieldDesc.held (f : FieldDesc) : Bool := f.acc == .rw && f.upd != .live

/-- What the proofs need of a description: its fields fit a register, no two of them share a bit, and one with a field that can be
staged lies at plain addresses. -/
def RegDesc.wellPlaced (d : RegDesc) : Bool :=
  d.fields.all (fun f => decide (0 < f.width) && decide (f.lsb + f.width ≤ 64)) &&
  decide (d.fields.Pairwise (fun f g => f.apart g = true)) &&
  (!d.fields.any FieldDesc.held || (List.range d.count).all (fun i => plainAddr (d.addr + 8 * i)))

theorem regWindows_wellPlaced : regWindows.all (fun w => w.1.all RegDesc.wellPlaced) = true := by decide +kernel

/-- A described address lies in the array of a description of its window. -/
theorem findReg_place {a : Nat} {d : RegDesc} (h : findReg a = some d) :
    (∃ w ∈ regWindows, d ∈ w.1) ∧ ∃ i < d.count, a = d.addr + 8 * i := by
  have hm := List.mem_of_find?_eq_some h
  have hp := List.find?_some h
  simp only [Bool.and_eq_true, decide_eq_true_eq, beq_iff_eq] at hp
  constructor
  · by_cases hi : a / 0x100000 < regWindows.length
    · rw [List.getD_eq_getElem _ _ hi] at hm
      exact ⟨_, List.getElem_mem hi, hm⟩
    · rw [List.getD_eq_default _ _ (by omega)] at hm
      simp at hm
  · exact ⟨(a - d.addr) / 8, by omega, by omega⟩

theorem findReg_wellPlaced {a : Nat} {d : RegDesc} (h : findReg a = some d) : d.wellPlaced = true := by
  obtain ⟨⟨w, hw, hd⟩, -⟩ := findReg_place h
  exact List.all_eq_true.mp (List.all_eq_true.mp regWindows_wellPlaced w hw) d hd

theorem findReg_width {a : Nat} {d : RegDesc} (h : findReg a = some d) {f : FieldDesc} (hf : f ∈ d.fields) :
    0 < f.width ∧ f.lsb + f.width ≤ 64 := by
  have hd := findReg_wellPlaced h
  simp only [RegDesc.wellPlaced, Bool.and_eq_true, List.all_eq_true, decide_eq_true_eq] at hd
  obtain ⟨⟨hfit, -⟩, -⟩ := hd
  exact hfit f hf

theorem findReg_fits {a : Nat} {d : RegDesc} (h : findReg a = some d) {f : FieldDesc} (hf : f ∈ d.fields) : f.lsb + f.width ≤ 64 :=
  (findReg_width h hf).2

theorem findReg_apart {a : Nat} {d : RegDesc} (h : findReg a = some d) : d.fields.Pairwise (fun f g => f.apart g = true) := by
  have hd := findReg_wellPlaced h
  simp only [RegDesc.wellPlaced, Bool.and_eq_true, decide_eq_true_eq] at hd
  obtain ⟨⟨-, hapart⟩, -⟩ := hd
  exact hapart

theorem FieldDesc.apart_comm (f g : FieldDesc) : f.apart g = g.apart f := Bool.or_comm _ _

theorem FieldDesc.apart_iff {f g : FieldDesc} : f.apart g = true ↔ f.lsb + f.width ≤ g.lsb ∨ g.lsb + g.width ≤ f.lsb := by
  simp [FieldDesc.apart]

theorem findReg_plain {a : Nat} {d : RegDesc} (h : findReg a = some d) {f : FieldDesc} (hf : f ∈ d.fields) (hh : f.held = true) :
    plainAddr a = true := by
  have hd := findReg_wellPlaced h
  obtain ⟨-, i, hi, rfl⟩ := findReg_place h
  simp only [RegDesc.wellPlaced, Bool.and_eq_true, Bool.or_eq_true, Bool.not_eq_true'] at hd
  rcases hd.2 with hn | hp
  · exact absurd hh (by simpa using List.any_eq_false.mp hn f hf)
  · exact List.all_eq_true.mp hp i (by simpa using hi)

end Sys2Proof.Machine
end

section
namespace Sys2Proof.Machine

/-! ### GEN_ERR -/

theorem State.fld_congr {s t : State} (h : t.regs = s.regs) (f : Fld) : t.fld f = s.fld f := by
  unfold State.fld; rw [State.raw_congr h]

/-- A field of the register file as it stands after two updates, the second of which leaves the field's register. -/
theorem State.fld_of_raw {s t : State} {f : Fld} (h : t.raw f.addr = s.raw f.addr) : t.fld f = s.fld f := by
  unfold State.fld; rw [h]

/-- The state with the counter of a GEN_ERR bit raised, where it has one. -/
def State.bumpOpt (s : State) (cnt : Option Fld) : State :=
  match cnt with
  | some f => s.bump f
  | none => s

theorem State.withRegs_putFld (s : State) (t : Tab Word) (f : Fld) (v : Nat) : s.withRegs (putFld t f v) = (s.withRegs t).setFld f v := rfl

theorem State.withRegs_self (s : State) : s.withRegs s.regs = s := rfl

/-- A GEN_ERR bit is five fields set, its counter aside. -/
theorem State.setErr_eq (s : State) (kind path addr lsb : Nat) (cnt : Option Fld) :
    s.setErr kind path addr lsb cnt = ((((((s.bumpOpt cnt).setFld ⟨Addr.GEN_ERR, kind - 1, 1⟩ 1).setFld F.GEN_ERR_LOG.OFFSET addr).setFld
      F.GEN_ERR_LOG.PATH path).setFld F.GEN_ERR_LOG.KIND kind).setFld F.GEN_ERR_LOG.FIELD_LSB lsb) := by
  unfold State.setErr errTable
  cases cnt with
  | none => rw [State.withRegs_putFld, State.withRegs_putFld, State.withRegs_putFld, State.withRegs_putFld, State.withRegs_putFld,
      State.withRegs_self, State.bumpOpt]
  | some f => rw [State.withRegs_putFld, State.withRegs_putFld, State.withRegs_putFld, State.withRegs_putFld, State.withRegs_putFld,
      State.bumpOpt, State.bump, State.bumpBy]

theorem State.genErr_fld (s : State) (kind path addr lsb : Nat) (cnt : Option Fld) (f : Fld) :
    (s.genErr kind path addr lsb cnt).fld f = (s.setErr kind path addr lsb cnt).fld f :=
  State.fld_congr (State.errNotice_regs _ kind) f

/-- A GEN_ERR bit that names the access, and whose counter, where it has one, is one of GEN_CNT0. -/
theorem State.setErr_flds (s : State) {kind path addr : Nat} (lsb : Nat) (cnt : Option Fld) (hk : kind < 16) (hp : path < 8) (ha : addr < 2 ^ 25)
    (hc : ∀ f, cnt = some f → f.addr = Addr.GEN_CNT0 ∧ f.lsb + f.width ≤ 64) :
    (s.setErr kind path addr lsb cnt).fld ⟨Addr.GEN_ERR, kind - 1, 1⟩ = 1 ∧
    (s.setErr kind path addr lsb cnt).fld F.GEN_ERR_LOG.OFFSET = addr ∧
    (s.setErr kind path addr lsb cnt).fld F.GEN_ERR_LOG.PATH = path ∧
    (s.setErr kind path addr lsb cnt).fld F.GEN_ERR_LOG.KIND = kind ∧
    ∀ f, cnt = some f → Rises s (s.setErr kind path addr lsb cnt) f 1 := by
  have ne1 : Addr.GEN_ERR ≠ Addr.GEN_ERR_LOG := by decide
  have ne2 : Addr.GEN_CNT0 ≠ Addr.GEN_ERR_LOG := by decide
  have ne3 : Addr.GEN_CNT0 ≠ Addr.GEN_ERR := by decide
  have hflag : (⟨Addr.GEN_ERR, kind - 1, 1⟩ : Fld).lsb + (⟨Addr.GEN_ERR, kind - 1, 1⟩ : Fld).width ≤ 64 := by
    show kind - 1 + 1 ≤ 64
    omega
  rw [State.setErr_eq]
  refine ⟨?_, ?_, ?_, ?_, fun f hf => ?_⟩
  · rw [State.fld_setFld_ne _ _ _ _ ne1, State.fld_setFld_ne _ _ _ _ ne1, State.fld_setFld_ne _ _ _ _ ne1,
      State.fld_setFld_ne _ _ _ _ ne1, State.fld_setFld_self _ _ _ hflag]
    rfl
  · rw [State.fld_setFld_beside _ F.GEN_ERR_LOG.FIELD_LSB F.GEN_ERR_LOG.OFFSET _ (by decide) rfl (by decide), State.fld_setFld_beside _ F.GEN_ERR_LOG.KIND F.GEN_ERR_LOG.OFFSET _ (by decide) rfl (by decide),
      State.fld_setFld_beside _ F.GEN_ERR_LOG.PATH F.GEN_ERR_LOG.OFFSET _ (by decide) rfl (by decide), State.fld_setFld_self _ F.GEN_ERR_LOG.OFFSET _ (by decide)]
    exact Nat.mod_eq_of_lt ha
  · rw [State.fld_setFld_beside _ F.GEN_ERR_LOG.FIELD_LSB F.GEN_ERR_LOG.PATH _ (by decide) rfl (by decide), State.fld_setFld_beside _ F.GEN_ERR_LOG.KIND F.GEN_ERR_LOG.PATH _ (by decide) rfl (by decide),
      State.fld_setFld_self _ F.GEN_ERR_LOG.PATH _ (by decide)]
    exact Nat.mod_eq_of_lt hp
  · rw [State.fld_setFld_beside _ F.GEN_ERR_LOG.FIELD_LSB F.GEN_ERR_LOG.KIND _ (by decide) rfl (by decide), State.fld_setFld_self _ F.GEN_ERR_LOG.KIND _ (by decide)]
    exact Nat.mod_eq_of_lt hk
  · subst hf
    obtain ⟨hfa, hfw⟩ := hc f rfl
    have e2 : f.addr ≠ Addr.GEN_ERR_LOG := hfa ▸ ne2
    have e3 : f.addr ≠ Addr.GEN_ERR := hfa ▸ ne3
    unfold Rises
    rw [State.fld_setFld_ne _ _ _ _ e2, State.fld_setFld_ne _ _ _ _ e2, State.fld_setFld_ne _ _ _ _ e2, State.fld_setFld_ne _ _ _ _ e2,
      State.fld_setFld_ne _ _ _ _ e3]
    exact State.fld_bumpBy_self s f 1 hfw

/-- What a GEN_ERR bit may change. -/
theorem State.setErr_regsBut (s : State) (kind path addr lsb : Nat) (cnt : Option Fld)
    (hc : ∀ f, cnt = some f → f.addr = Addr.GEN_CNT0) :
    ∀ a, a ∉ [Addr.GEN_ERR, Addr.GEN_ERR_LOG, Addr.GEN_CNT0] → (s.setErr kind path addr lsb cnt).raw a = s.raw a := by
  intro a ha
  simp only [List.mem_cons, List.not_mem_nil, or_false, not_or] at ha
  obtain ⟨h1, h2, h3⟩ := ha
  rw [State.setErr_eq, State.raw_setFld_ne _ _ _ h2, State.raw_setFld_ne _ _ _ h2, State.raw_setFld_ne _ _ _ h2,
    State.raw_setFld_ne _ _ _ h2, State.raw_setFld_ne _ _ _ h1]
  cases cnt with
  | none => rfl
  | some f => exact State.raw_bumpBy_ne s f 1 (by rw [hc f rfl]; exact h3)

theorem State.setErr_only (s : State) (kind path addr lsb : Nat) (cnt : Option Fld) (hc : ∀ f, cnt = some f → f.addr = Addr.GEN_CNT0) :
    OnlyParts [.regs] s (s.setErr kind path addr lsb cnt) := by
  refine State.withRegs_only' s _ fun a ha => State.setErr_regsBut s kind path addr lsb cnt hc a ?_
  intro hm
  simp only [List.mem_cons, List.not_mem_nil, or_false] at hm
  rcases hm with rfl | rfl | rfl <;> exact absurd ha (by decide)

theorem State.errNotice_only (s : State) (kind : Nat) : OnlyParts [.records, .marks] s (s.errNotice kind) := by
  unfold State.errNotice
  split
  · exact OnlyParts.refl s _
  · split
    · exact ((s.mark_only _).comp (State.record_only _ _ _ _ _ _ _)).mono (by decide)
    · exact OnlyParts.refl s _

theorem State.genErr_only (s : State) (kind path addr lsb : Nat) (cnt : Option Fld) (hc : ∀ f, cnt = some f → f.addr = Addr.GEN_CNT0) :
    OnlyParts [.regs, .records, .marks] s (s.genErr kind path addr lsb cnt) :=
  ((s.setErr_only kind path addr lsb cnt hc).comp (State.errNotice_only _ kind)).mono (by decide)

theorem pathCode_lt (p : Path) : p.code < 8 := by cases p <;> decide

/-- An access that is not carried out leaves its GEN_ERR bit, and nothing else. -/
theorem State.genErr_accessError (s : State) {kind a : Nat} (p : Path) (lsb : Nat) (cnt : Option Fld) (hk : kind < 16) (ha : a < 2 ^ 25)
    (hc : ∀ f, cnt = some f → f.addr = Addr.GEN_CNT0 ∧ f.lsb + f.width ≤ 64) :
    AccessError [] s (s.genErr kind p.code a lsb cnt) kind p a cnt := by
  obtain ⟨h1, h2, h3, h4, h5⟩ := s.setErr_flds lsb cnt hk (pathCode_lt p) ha hc
  have hc' : ∀ f, cnt = some f → f.addr = Addr.GEN_CNT0 := fun f hf => (hc f hf).1
  refine ⟨s.genErr_only kind p.code a lsb cnt hc', fun b hb _ => ?_, ?_, ?_, ?_, ?_, fun f hf => ?_⟩
  · exact (State.raw_congr (State.errNotice_regs _ kind) b).trans (s.setErr_regsBut kind p.code a lsb cnt hc' b hb)
  · rw [State.genErr_fld, h1]
  · rw [State.genErr_fld, h2]
  · rw [State.genErr_fld, h3]
  · rw [State.genErr_fld, h4]
  · unfold Rises
    rw [State.genErr_fld]
    exact h5 f hf

theorem State.deny_accessError (s : State) (p : Path) {a : Nat} (ha : a < 2 ^ 25) :
    AccessError [] s (s.deny p a 0) 4 p a (some F.GEN_CNT0.PATH_DENIED) :=
  s.genErr_accessError p 0 _ (by decide) ha (by rintro f ⟨⟩; decide)

theorem State.unmap_accessError (s : State) (p : Path) {a : Nat} (ha : a < 2 ^ 25) :
    AccessError [] s (s.unmap p a) 2 p a (some F.GEN_CNT0.UNMAPPED) :=
  s.genErr_accessError p 0 _ (by decide) ha (by rintro f ⟨⟩; decide)

theorem State.unserve_accessError (s : State) (p : Path) {a : Nat} (ha : a < 2 ^ 25) :
    AccessError [] s (s.unserve p a) 5 p a (some F.GEN_CNT0.UNSERVED) :=
  s.genErr_accessError p 0 _ (by decide) ha (by rintro f ⟨⟩; decide)

theorem State.misalign_accessError (s : State) (p : Path) {a : Nat} (ha : a < 2 ^ 25) : AccessError [] s (s.misalign p a) 6 p a none :=
  s.genErr_accessError p 0 _ (by decide) ha (by rintro f ⟨⟩)

/-- An answer that goes out after the GEN_ERR bit. -/
theorem AccessError.emit {s t : State} {kind : Nat} {p : Path} {a : Nat} {cnt : Option Fld} (h : AccessError [] s t kind p a cnt) (o : Out) :
    AccessError [.out] s (t.emit o) kind p a cnt := by
  obtain ⟨ho, hr, h1, h2, h3, h4, h5⟩ := h
  exact ⟨(ho.comp (t.emit_only o)).mono (by decide), hr, h1, h2, h3, h4, h5⟩

/-! ### Where an access goes -/

section Access
variable {s : State} {path : Path} {a : Nat}

theorem Reaches.hazed (h : Reaches s path a) : s.hazed (windowIsland (windowOf a)) = false := by
  obtain ⟨-, -, -, -, -, hr, -, -⟩ := h
  simp only [State.running, Bool.and_eq_true, beq_iff_eq] at hr
  simp [State.hazed, hr.1]

theorem State.wakeFor_of_not_hazed {w : Nat} (h : s.hazed (windowIsland w) = false) : s.wakeFor w = s := by
  simp [State.wakeFor, h]

/-- A window in Haze is served: the access wakes it. -/
theorem State.not_hazed_of_unserved {w : Nat} (h : s.servesWindow w = false) : s.hazed (windowIsland w) = false := by
  simp only [State.servesWindow, Bool.or_eq_false_iff, Bool.and_eq_false_iff] at h
  obtain ⟨-, hg | hf⟩ := h
  · simp [State.hazed, hg]
  · simp [State.hazed, hf]

theorem State.regReach_of_reaches (h : Reaches s path a) : s.regReach path a = .reg := by
  obtain ⟨-, hs, ha, -, hb, hr, hd, -⟩ := h
  have ha' : ¬ 0x1400000 ≤ a := by omega
  simp [State.regReach, State.servesWindow, hs, ha', hb, hr, hd]

theorem State.regReach_denied (h : s.pathShut path = true ∨ (a < 0x1400000 ∧ a.testBit 18 = true ∧ path ≠ .ctl)) :
    s.regReach path a = .denied := by
  by_cases hs : s.pathShut path = true
  · simp [State.regReach, hs]
  · obtain ⟨ha, hb, hp⟩ := h.resolve_left hs
    have ha' : ¬ 0x1400000 ≤ a := by omega
    simp [State.regReach, hs, ha', hb, hp]

theorem State.regReach_firmware (hs : s.pathShut path = false) (ha : a < 0x1400000) (hb : a.testBit 18 = true) (hp : path = .ctl) :
    s.regReach path a = .firmware := by
  have ha' : ¬ 0x1400000 ≤ a := by omega
  subst hp
  simp [State.regReach, hs, ha', hb]

theorem State.regReach_unmapped (hs : s.pathShut path = false) (h : 0x1400000 ≤ a ∨
    (a.testBit 18 = false ∧ s.running (windowIsland (windowOf a)) = true ∧ described a = false)) : s.regReach path a = .unmapped := by
  by_cases ha : 0x1400000 ≤ a
  · simp [State.regReach, hs, ha]
  · obtain ⟨hb, hr, hd⟩ := h.resolve_left ha
    simp [State.regReach, State.servesWindow, hs, ha, hb, hr, hd]

theorem State.regReach_unserved (hs : s.pathShut path = false) (ha : a < 0x1400000) (hb : a.testBit 18 = false)
    (hv : s.servesWindow (windowOf a) = false) : s.regReach path a = .unserved := by
  have ha' : ¬ 0x1400000 ≤ a := by omega
  simp [State.regReach, hs, ha', hb, hv]

end Access
end Sys2Proof.Machine
end

section
namespace Sys2Proof.Machine

/-! ### Folds over parts that lie beside each other -/

/-- A fold over elements that lie beside each other, seen through a view that only `f` touches: what `f` does to that view. -/
theorem foldl_view {σ α β : Type} {step : σ → α → σ} {V : σ → β} {R : α → α → Prop} (hR : ∀ x y, R x y → R y x) {f : α} :
    ∀ (l : List α) (t : σ), (∀ t g, g ∈ l → R g f → V (step t g) = V t) → f ∈ l → l.Pairwise R →
      ∃ t1, V t1 = V t ∧ V (l.foldl step t) = V (step t1 f) := by
  intro l
  induction l with
  | nil => intro t _ hf; simp at hf
  | cons g r ih =>
    intro t hV hf hp
    obtain ⟨hg, hr⟩ := List.pairwise_cons.mp hp
    rcases List.mem_cons.mp hf with rfl | hf
    · refine ⟨t, rfl, ?_⟩
      have rest : ∀ (l : List α) (u : σ), (∀ g ∈ l, g ∈ r) → V (l.foldl step u) = V u := by
        intro l
        induction l with
        | nil => intro u _; rfl
        | cons h q ihq =>
          intro u hl
          have hh := hl h (by simp)
          rw [List.foldl_cons, ihq _ (fun g hgq => hl g (by simp [hgq])), hV u h (by simp [hh]) (hR _ _ (hg h hh))]
      rw [List.foldl_cons]
      exact rest r _ (fun _ h => h)
    · obtain ⟨t1, h1, h2⟩ := ih (step t g) (fun t x hx => hV t x (by simp [hx])) hf hr
      exact ⟨t1, h1.trans (hV t g (by simp) (hg f hf)), h2⟩

/-- What every step of a fold keeps, the fold keeps. -/
theorem foldl_keeps {σ α : Type} {step : σ → α → σ} (P : σ → σ → Prop) (hrefl : ∀ t, P t t) (htrans : ∀ {t u w}, P t u → P u w → P t w) :
    ∀ (l : List α) (t : σ), (∀ t g, g ∈ l → P t (step t g)) → P t (l.foldl step t) := by
  intro l
  induction l with
  | nil => exact fun t _ => hrefl t
  | cons g r ih =>
    intro t h
    exact htrans (h t g (by simp)) (ih _ (fun u x hx => h u x (by simp [hx])))

/-! ### Staged values -/

def State.withStaged (s : State) (l : List Staged) : State := { s with staged := l }

@[simp] theorem State.withStaged_staged (s : State) (l : List Staged) : (s.withStaged l).staged = l := rfl
@[simp] theorem State.withStaged_regs (s : State) (l : List Staged) : (s.withStaged l).regs = s.regs := rfl
@[simp] theorem State.withStaged_pst (s : State) (l : List Staged) : (s.withStaged l).pst = s.pst := rfl

theorem State.withStaged_only (s : State) (l : List Staged) : OnlyParts [.staged] s (s.withStaged l) := by
  intro p hp
  cases p with
  | staged => exact absurd (by decide) hp
  | records => exact ⟨rfl, rfl, fun _ _ => rfl⟩
  | pins => exact ⟨rfl, rfl⟩
  | regs => exact fun _ _ => rfl
  | pmu => exact fun _ _ => rfl
  | crossings => exact fun _ _ => rfl
  | bytes => exact fun _ => rfl
  | ddr => exact fun _ => rfl
  | _ => rfl

/-- The staged value stands at the field with lowest bit `lsb` of register `a`. -/
def Staged.isAt (a lsb : Nat) (x : Staged) : Bool := x.addr == a && x.lsb == lsb

/-- Two lists of staged values agree but at one field. -/
def SameBeside (a lsb : Nat) (l m : List Staged) : Prop := m.filter (fun x => !x.isAt a lsb) = l.filter (fun x => !x.isAt a lsb)

theorem SameBeside.refl (a lsb : Nat) (l : List Staged) : SameBeside a lsb l l := rfl

theorem SameBeside.filter (a lsb : Nat) (l : List Staged) : SameBeside a lsb l (l.filter (fun x => !x.isAt a lsb)) := by
  simp [SameBeside, List.filter_filter]

theorem SameBeside.put (l : List Staged) (x : Staged) : SameBeside x.addr x.lsb l (putStaged l x) := by
  have hx : (!x.isAt x.addr x.lsb) = false := by simp [Staged.isAt]
  have e : putStaged l x = l.filter (fun y => !y.isAt x.addr x.lsb) ++ [x] := rfl
  simp [SameBeside, e, List.filter_filter, List.filter_append, hx]

theorem SameBeside.mem {a lsb : Nat} {l m : List Staged} (h : SameBeside a lsb l m) {x : Staged} (hx : x.isAt a lsb = false) :
    x ∈ m ↔ x ∈ l := by
  have e : ∀ k : List Staged, x ∈ k ↔ x ∈ k.filter (fun x => !x.isAt a lsb) := fun k => by simp [hx]
  rw [e m, h, ← e l]

theorem SameBeside.find {a lsb b k : Nat} {l m : List Staged} (h : SameBeside a lsb l m) (hb : b ≠ a ∨ k ≠ lsb) :
    m.find? (fun x => x.isAt b k) = l.find? (fun x => x.isAt b k) := by
  have e : ∀ q : List Staged, q.find? (fun x => x.isAt b k) = (q.filter (fun x => !x.isAt a lsb)).find? (fun x => x.isAt b k) := by
    intro q
    rw [List.find?_filter]
    congr 1
    funext x
    cases hx : x.isAt b k with
    | false => simp
    | true =>
      simp only [Staged.isAt, Bool.and_eq_true, beq_iff_eq] at hx
      have : x.isAt a lsb = false := by
        simp only [Staged.isAt, Bool.and_eq_false_iff, beq_eq_false_iff_ne, hx.1, hx.2]
        exact hb
      simp [this]
  rw [e m, h, ← e l]

/-- The value put is found at its field. -/
theorem find_putStaged (l : List Staged) (x : Staged) : (putStaged l x).find? (fun y => y.isAt x.addr x.lsb) = some x := by
  have hn : (l.filter (fun y => !(y.addr == x.addr && y.lsb == x.lsb))).find? (fun y => y.isAt x.addr x.lsb) = none := by
    rw [List.find?_eq_none]
    intro y hy
    have h := (List.mem_filter.mp hy).2
    rw [Bool.not_eq_true'] at h
    simp [Staged.isAt, h]
  rw [putStaged, List.find?_append, hn]
  simp [Staged.isAt]

/-! ### The credited reservation -/

/-- The fields of the credited reservation (R20). -/
def creditFlds : List Fld := [F.HST_ADM_CTL.HOLD_POOL .hp0, F.HST_ADM_CTL.HOLD_POOL .hp1, F.FAB_CREDIT.POOL_SIZE, F.PHL_CTL.PH0_RESERVE]

theorem credField_eq (x : Staged) : credField x = creditFlds.any (fun f => f.addr == x.addr && f.lsb == x.lsb) := rfl

/-- The credit fields stand in registers of their own, and their descriptions give them their widths. -/
theorem creditFlds_described : creditFlds.all (fun f =>
    creditFlds.all (fun g => g.addr != f.addr || g == f) &&
    (match findReg f.addr with
     | some d => d.fields.all (fun e => e.lsb != f.lsb || e.width == f.width)
     | none => true)) = true := by decide +kernel

/-- A staged value of a credit field is all that its register holds of the credited reservation. -/
theorem creditFld_of_credField {a : Nat} {d : RegDesc} (hd : findReg a = some d) {f : FieldDesc} (hf : f ∈ d.fields) {n : Nat}
    (hc : credField ⟨a, f.lsb, f.width, n⟩ = true) {g : Fld} (hg : g ∈ creditFlds) (hga : g.addr = a) : g = ⟨a, f.lsb, f.width⟩ := by
  rw [credField_eq, List.any_eq_true] at hc
  obtain ⟨c, hcm, hca⟩ := hc
  simp only [Bool.and_eq_true, beq_iff_eq] at hca
  obtain ⟨hca, hcl⟩ := hca
  have hall := List.all_eq_true.mp creditFlds_described c hcm
  rw [Bool.and_eq_true, hca, hd] at hall
  obtain ⟨hu, hw⟩ := hall
  have hgc : g = c := by
    have := List.all_eq_true.mp hu g hg
    simpa [hga] using this
  have hcw : f.width = c.width := by
    have := List.all_eq_true.mp hw f hf
    simpa [hcl] using this
  subst hgc
  cases g
  simp_all

theorem State.creditedKib_congr {s t : State} (h : ∀ g ∈ creditFlds, t.fld g = s.fld g) : t.creditedKib = s.creditedKib := by
  unfold State.creditedKib
  rw [h _ (by simp [creditFlds]), h _ (by simp [creditFlds]), h _ (by simp [creditFlds]), h _ (by simp [creditFlds])]

theorem State.inForce_fld (s : State) (x : Staged) (g : Fld) : (s.inForce x).fld g = (s.setFld ⟨x.addr, x.lsb, x.width⟩ x.val).fld g :=
  State.fld_congr rfl g

theorem State.mayForce_of_not_credField (s : State) {x : Staged} (h : credField x = false) : s.mayForce x = true := by
  simp [State.mayForce, h]

/-- Whether a staged value may take effect depends on the credit fields and the open extents. -/
theorem State.mayForce_congr {s t : State} {x : Staged} (hx : ∀ g ∈ creditFlds, g.addr = x.addr → g = ⟨x.addr, x.lsb, x.width⟩)
    (hw : x.lsb + x.width ≤ 64) (hf : ∀ g ∈ creditFlds, t.fld g = s.fld g) (hp : t.pst = s.pst) : t.mayForce x = s.mayForce x := by
  have hi : ∀ g ∈ creditFlds, (t.inForce x).fld g = (s.inForce x).fld g := by
    intro g hg
    rw [State.inForce_fld, State.inForce_fld]
    by_cases ha : g.addr = x.addr
    · rw [hx g hg ha, State.fld_setFld_self _ _ _ hw, State.fld_setFld_self _ _ _ hw]
    · rw [State.fld_setFld_ne _ _ _ _ ha, State.fld_setFld_ne _ _ _ _ ha, hf g hg]
  have ho : t.openKib = s.openKib := by unfold State.openKib; rw [hp]
  unfold State.mayForce
  rw [State.creditedKib_congr hf, State.creditedKib_congr hi, ho]

/-! ### One field of a write -/

section WriteField
variable (old : State) (a : Nat) (d : RegDesc) (v : Word)

/-- One field of a write sets that field, or leaves it, and may change what is staged at it. -/
theorem writeField_shape (t : State) (l : List Nat) (f : FieldDesc) : ∃ m, SameBeside a f.lsb t.staged m ∧
    ((old.writeField a d v (t, l) f).1 = t.withStaged m ∨ ∃ n, (old.writeField a d v (t, l) f).1 = (t.withStaged m).setFld ⟨a, f.lsb, f.width⟩ n) := by
  have same : t = t.withStaged t.staged := rfl
  unfold State.writeField
  dsimp only
  split
  · exact ⟨_, SameBeside.refl _ _ _, .inr ⟨_, rfl⟩⟩
  · split
    · exact ⟨_, SameBeside.refl _ _ _, .inl same⟩
    · split
      · exact ⟨_, SameBeside.refl _ _ _, .inr ⟨_, rfl⟩⟩
      · exact ⟨_, SameBeside.put _ ⟨a, f.lsb, f.width, bitsOf v f.lsb f.width⟩, .inl rfl⟩
      · split
        · unfold State.setLocked
          dsimp only
          split
          · exact ⟨_, SameBeside.filter _ _ _, .inr ⟨_, rfl⟩⟩
          · refine ⟨_, ?_, .inl rfl⟩
            exact (SameBeside.put (t.staged.filter (fun y => !y.isAt a f.lsb)) ⟨a, f.lsb, f.width, bitsOf v f.lsb f.width⟩).trans
              (SameBeside.filter a f.lsb t.staged)
        · split
          · exact ⟨_, SameBeside.refl _ _ _, .inl same⟩
          · exact ⟨_, SameBeside.refl _ _ _, .inl same⟩
  · exact ⟨_, SameBeside.refl _ _ _, .inl same⟩

theorem writeField_only (t : State) (l : List Nat) (f : FieldDesc) :
    OnlyParts [.regs, .pmu, .staged] t (old.writeField a d v (t, l) f).1 := by
  obtain ⟨m, -, h | ⟨n, h⟩⟩ := writeField_shape old a d v t l f
  · rw [h]; exact (t.withStaged_only m).mono (by decide)
  · rw [h]; exact ((t.withStaged_only m).comp (State.withRegs_only _ _)).mono (by decide)

theorem writeField_raw_ne (t : State) (l : List Nat) (f : FieldDesc) {b : Nat} (hb : b ≠ a) :
    (old.writeField a d v (t, l) f).1.raw b = t.raw b := by
  obtain ⟨m, -, h | ⟨n, h⟩⟩ := writeField_shape old a d v t l f
  · rw [h]; rfl
  · rw [h, State.raw_setFld_ne _ _ _ hb]; rfl

theorem writeField_staged (t : State) (l : List Nat) (f : FieldDesc) :
    SameBeside a f.lsb t.staged (old.writeField a d v (t, l) f).1.staged := by
  obtain ⟨m, hm, h | ⟨n, h⟩⟩ := writeField_shape old a d v t l f
  · rw [h]; exact hm
  · rw [h]; exact hm

theorem writeField_pst (t : State) (l : List Nat) (f : FieldDesc) : (old.writeField a d v (t, l) f).1.pst = t.pst :=
  writeField_only old a d v t l f .pst (by decide)

/-- A field of another register, or beside the one written, keeps its value. -/
theorem writeField_fld_beside (t : State) (l : List Nat) (f : FieldDesc) (hf : f.lsb + f.width ≤ 64) {g : Fld}
    (hg : g.addr ≠ a ∨ g.lsb + g.width ≤ f.lsb ∨ f.lsb + f.width ≤ g.lsb) : (old.writeField a d v (t, l) f).1.fld g = t.fld g := by
  by_cases ha : g.addr = a
  · obtain ⟨m, -, h | ⟨n, h⟩⟩ := writeField_shape old a d v t l f
    · rw [h]; rfl
    · rw [h, State.fld_setFld_beside _ _ _ _ hf ha (hg.resolve_left (fun h => h ha))]; rfl
  · exact State.fld_of_raw (writeField_raw_ne old a d v t l f ha)

/-- The refused fields grow by this one where it is refused. -/
theorem writeField_refused (t : State) (l : List Nat) (f : FieldDesc) :
    (old.writeField a d v (t, l) f).2 = l ++ (if old.lockRefuses a d v f then [f.lsb] else []) := by
  unfold State.writeField State.lockRefuses
  dsimp only
  cases hacc : f.acc <;> simp
  cases hok : old.fieldOk a d v f <;> simp
  cases hupd : f.upd <;> simp
  cases hstop : old.blockStopped a <;> simp
  split <;> simp_all

end WriteField
end Sys2Proof.Machine
end

section
namespace Sys2Proof.Machine

theorem bitsOf_lt (w : Word) (l n : Nat) : bitsOf w l n < 2 ^ n := Nat.mod_lt _ (by positivity)

theorem testBit_w1c (cur n w : Nat) {i : Nat} (hi : i < w) : Nat.testBit (w1c cur n w % 2 ^ w) i = (Nat.testBit cur i && !Nat.testBit n i) := by
  rw [Nat.testBit_mod_two_pow, w1c, Nat.testBit_and, Nat.testBit_xor, Nat.testBit_two_pow_sub_one]
  simp [hi]

/-- A LOCKED field of a stopped block takes its value, or waits with it (R20). -/
theorem State.setLocked_eq (s : State) (x : Staged) : s.setLocked x =
    if s.mayForce x then (s.withStaged (s.staged.filter (fun y => !y.isAt x.addr x.lsb))).setFld ⟨x.addr, x.lsb, x.width⟩ x.val
    else s.withStaged (putStaged (s.staged.filter (fun y => !y.isAt x.addr x.lsb)) x) := rfl

/-! ### What one field of a write does, by its access type and update class -/

section Cases
variable {old : State} {a : Nat} {d : RegDesc} {v : Word} {f : FieldDesc} {t : State} {l : List Nat}

theorem writeField_w1c (h : f.acc = .w1c) : (old.writeField a d v (t, l) f).1 =
    t.setFld ⟨a, f.lsb, f.width⟩ (w1c (old.fld ⟨a, f.lsb, f.width⟩) (bitsOf v f.lsb f.width) f.width) := by
  simp only [State.writeField, h]

theorem writeField_other (h : f.acc ≠ .w1c) (h' : f.acc ≠ .rw) : (old.writeField a d v (t, l) f).1 = t := by
  unfold State.writeField
  cases hacc : f.acc <;> simp_all

theorem writeField_bad (h : f.acc = .rw) (hk : old.fieldOk a d v f = false) : (old.writeField a d v (t, l) f).1 = t := by
  simp [State.writeField, h, hk]

theorem writeField_live (h : f.acc = .rw) (hk : old.fieldOk a d v f = true) (hu : f.upd = .live) :
    (old.writeField a d v (t, l) f).1 = t.setFld ⟨a, f.lsb, f.width⟩ (bitsOf v f.lsb f.width) := by
  simp [State.writeField, h, hk, hu]

theorem writeField_held (h : f.acc = .rw) (hk : old.fieldOk a d v f = true) (hu : f.upd = .staged) :
    (old.writeField a d v (t, l) f).1 = t.withStaged (putStaged t.staged ⟨a, f.lsb, f.width, bitsOf v f.lsb f.width⟩) := by
  simp [State.writeField, h, hk, hu]
  rfl

theorem writeField_locked (h : f.acc = .rw) (hk : old.fieldOk a d v f = true) (hu : f.upd = .locked) :
    (old.writeField a d v (t, l) f).1 =
      if old.blockStopped a then t.setLocked ⟨a, f.lsb, f.width, bitsOf v f.lsb f.width⟩ else t := by
  simp only [State.writeField, h, hk, hu]
  cases old.blockStopped a with
  | true => simp
  | false => simp; split <;> rfl

end Cases

/-! ### The view of one field -/

/-- What a write's effect on field `f` is read from: its value, what is staged at it, and whether its written value may be in force. -/
def fieldView (a : Nat) (v : Word) (f : FieldDesc) (t : State) : Nat × Option Staged × Bool :=
  (t.fld ⟨a, f.lsb, f.width⟩, t.staged.find? (fun x => x.isAt a f.lsb), t.mayForce ⟨a, f.lsb, f.width, bitsOf v f.lsb f.width⟩)

section View
variable {old : State} {a : Nat} {d : RegDesc} {v : Word} {f g : FieldDesc}

/-- A field beside `f` leaves `f`'s view. -/
theorem writeField_view_beside (hd : findReg a = some d) (hf : f ∈ d.fields) (hg : g ∈ d.fields) (hgf : g.apart f = true)
    (acc : State × List Nat) : fieldView a v f (old.writeField a d v acc g).1 = fieldView a v f acc.1 := by
  obtain ⟨t, l⟩ := acc
  have hgw := findReg_fits hd hg
  have hap : f.lsb + f.width ≤ g.lsb ∨ g.lsb + g.width ≤ f.lsb := (FieldDesc.apart_iff.mp hgf).symm
  have hl : f.lsb ≠ g.lsb := by
    have h1 := (findReg_width hd hf).1
    have h2 := (findReg_width hd hg).1
    omega
  have hfld : (old.writeField a d v (t, l) g).1.fld ⟨a, f.lsb, f.width⟩ = t.fld ⟨a, f.lsb, f.width⟩ :=
    writeField_fld_beside old a d v t l g hgw (.inr hap)
  have hfind := (writeField_staged old a d v t l g).find (b := a) (k := f.lsb) (.inr hl)
  have hmay : (old.writeField a d v (t, l) g).1.mayForce ⟨a, f.lsb, f.width, bitsOf v f.lsb f.width⟩ =
      t.mayForce ⟨a, f.lsb, f.width, bitsOf v f.lsb f.width⟩ := by
    cases hc : credField ⟨a, f.lsb, f.width, bitsOf v f.lsb f.width⟩ with
    | false => rw [State.mayForce_of_not_credField _ hc, State.mayForce_of_not_credField _ hc]
    | true =>
      have hx : ∀ c ∈ creditFlds, c.addr = a → c = ⟨a, f.lsb, f.width⟩ := fun c hcm hca => creditFld_of_credField hd hf hc hcm hca
      refine State.mayForce_congr hx (findReg_fits hd hf) (fun c hcm => ?_) (writeField_pst old a d v t l g)
      by_cases hca : c.addr = a
      · rw [hx c hcm hca]; exact hfld
      · exact writeField_fld_beside old a d v t l g hgw (.inl hca)
  simp only [fieldView, hfld, hfind, hmay]

/-- A state whose view of `f` is what the write makes of `f` holds the written field. -/
theorem fieldWritten_of_view {s t u : State} {l : List Nat} (hd : findReg a = some d) (hf : f ∈ d.fields)
    (ht : fieldView a v f t = fieldView a v f s) (hu : fieldView a v f u = fieldView a v f (s.writeField a d v (t, l) f).1) :
    FieldWritten s u a d v f := by
  have hw := findReg_fits hd hf
  have hn : bitsOf v f.lsb f.width % 2 ^ f.width = bitsOf v f.lsb f.width := Nat.mod_eq_of_lt (bitsOf_lt _ _ _)
  simp only [fieldView, Prod.mk.injEq] at ht hu
  obtain ⟨htv, htf, htm⟩ := ht
  obtain ⟨huv, huf, -⟩ := hu
  refine ⟨fun h i hi => ?_, fun h h' => ?_, fun h hk => ?_, fun h hk => ⟨fun hup => ?_, fun hup => ⟨?_, ?_⟩, fun hup => ⟨?_, fun hs hm => ?_⟩⟩⟩
  · rw [huv, writeField_w1c h, State.fld_setFld_self _ _ _ hw]
    exact testBit_w1c _ _ _ hi
  · rw [huv, writeField_other h h', htv]
  · rw [huv, writeField_bad h hk, htv]
  · rw [huv, writeField_live h hk hup, State.fld_setFld_self _ _ _ hw, hn]
  · rw [huv, writeField_held h hk hup]; exact htv
  · exact huf.trans (by rw [writeField_held h hk hup]; exact find_putStaged _ ⟨a, f.lsb, f.width, _⟩)
  · rw [huv, writeField_locked h hk hup, State.setLocked_eq, htm]
    by_cases hs : s.blockStopped a = true
    · by_cases hm : s.mayForce ⟨a, f.lsb, f.width, bitsOf v f.lsb f.width⟩ = true
      · simp only [hs, hm, if_true, and_self]
        rw [State.fld_setFld_self _ _ _ hw, hn]
      · simp only [hs, hm, if_true]
        exact htv
    · simp only [hs]
      exact htv
  · refine huf.trans ?_
    rw [writeField_locked h hk hup, State.setLocked_eq, htm, hs, hm]
    exact find_putStaged _ ⟨a, f.lsb, f.width, _⟩

end View

/-! ### All fields of a write -/

/-- The fields of a write, before the refusal of LOCKED ones is reported. -/
def State.fieldsWritten (s : State) (a : Nat) (d : RegDesc) (v : Word) : State × List Nat := d.fields.foldl (s.writeField a d v) (s, [])

theorem State.writeFields_eq (s : State) (p : Path) (v : Word) {a : Nat} {d : RegDesc} (hd : findReg a = some d) :
    s.writeFields p a v = (s.fieldsWritten a d v).1.lockRefusal p a (s.fieldsWritten a d v).2 := by
  simp only [State.writeFields, hd, State.fieldsWritten]

section Fields
variable {s : State} {a : Nat} {d : RegDesc} {v : Word}

theorem foldl_writeField_refused (old : State) (a : Nat) (d : RegDesc) (v : Word) : ∀ (l : List FieldDesc) (acc : State × List Nat),
    (l.foldl (old.writeField a d v) acc).2 = acc.2 ++ (l.filter (old.lockRefuses a d v)).map (·.lsb) := by
  intro l
  induction l with
  | nil => simp
  | cons f r ih =>
    intro acc
    rw [List.foldl_cons, ih, writeField_refused old a d v acc.1 acc.2 f]
    cases h : old.lockRefuses a d v f <;> simp [h]

theorem fieldsWritten_refused : (s.fieldsWritten a d v).2 = (d.fields.filter (s.lockRefuses a d v)).map (·.lsb) :=
  (foldl_writeField_refused s a d v d.fields (s, [])).trans (List.nil_append _)

theorem fieldsWritten_only : OnlyParts [.regs, .pmu, .staged] s (s.fieldsWritten a d v).1 :=
  foldl_keeps (fun x y : State × List Nat => OnlyParts [.regs, .pmu, .staged] x.1 y.1) (fun _ => OnlyParts.refl _ _) OnlyParts.trans
    d.fields (s, []) (fun t g _ => writeField_only s a d v t.1 t.2 g)

theorem fieldsWritten_raw_ne {b : Nat} (hb : b ≠ a) : (s.fieldsWritten a d v).1.raw b = s.raw b :=
  foldl_keeps (fun x y : State × List Nat => y.1.raw b = x.1.raw b) (fun _ => rfl) (fun h k => k.trans h)
    d.fields (s, []) (fun t g _ => writeField_raw_ne s a d v t.1 t.2 g hb)

/-- What is staged elsewhere stays, and nothing is staged there. -/
theorem fieldsWritten_staged {x : Staged} (hx : x.addr ≠ a ∨ ∀ f ∈ d.fields, f.lsb ≠ x.lsb) :
    x ∈ (s.fieldsWritten a d v).1.staged ↔ x ∈ s.staged :=
  foldl_keeps (fun y z : State × List Nat => x ∈ z.1.staged ↔ x ∈ y.1.staged) (fun _ => Iff.rfl) (fun h k => k.trans h)
    d.fields (s, []) (fun t g hg => (writeField_staged s a d v t.1 t.2 g).mem (by
      simp only [Staged.isAt, Bool.and_eq_false_iff, beq_eq_false_iff_ne]
      exact hx.imp id (fun h => (h g hg).symm)))

theorem fieldsWritten_field (hd : findReg a = some d) {f : FieldDesc} (hf : f ∈ d.fields) :
    FieldWritten s (s.fieldsWritten a d v).1 a d v f := by
  obtain ⟨⟨t, l⟩, ht, hu⟩ := foldl_view (step := s.writeField a d v) (V := fun acc => fieldView a v f acc.1)
    (R := fun g h => g.apart h = true) (fun g h hgh => (FieldDesc.apart_comm h g).trans hgh) d.fields (s, [])
    (fun acc g hg hgf => writeField_view_beside hd hf hg hgf acc) hf (findReg_apart hd)
  exact fieldWritten_of_view hd hf ht hu

end Fields

/-! ### The refusal of LOCKED fields -/

section Refusal

/-- What a written field holds is read from its register and from what is staged. -/
theorem FieldWritten.congr {s t u : State} {a : Nat} {d : RegDesc} {v : Word} {f : FieldDesc} (h : FieldWritten s t a d v f)
    (hr : u.raw a = t.raw a) (hs : u.staged = t.staged) : FieldWritten s u a d v f := by
  have hf : u.fld ⟨a, f.lsb, f.width⟩ = t.fld ⟨a, f.lsb, f.width⟩ := State.fld_of_raw hr
  unfold FieldWritten at h ⊢
  dsimp only at h ⊢
  rw [hf, hs]
  exact h

/-- The report of a refused LOCKED field (R9, R514). -/
theorem State.lockRefusal_reports (s : State) (p : Path) {a : Nat} (x : Nat) (r : List Nat) (ha : a < 2 ^ 25) :
    OnlyParts [.regs, .records] s (s.lockRefusal p a (x :: r)) ∧
    (∀ b, b ∉ [Addr.GEN_ERR, Addr.GEN_ERR_LOG, Addr.GEN_CNT0] → (s.lockRefusal p a (x :: r)).raw b = s.raw b) ∧
    (s.lockRefusal p a (x :: r)).fld F.GEN_ERR.LOCKED_WRITE = 1 ∧ (s.lockRefusal p a (x :: r)).fld F.GEN_ERR_LOG.OFFSET = a ∧
    Rises s (s.lockRefusal p a (x :: r)) F.GEN_CNT0.LOCKED_WRITES 1 := by
  have hc : ∀ f, some F.GEN_CNT0.LOCKED_WRITES = some f → f.addr = Addr.GEN_CNT0 ∧ f.lsb + f.width ≤ 64 := by rintro f ⟨⟩; decide
  have hc' : ∀ f, some F.GEN_CNT0.LOCKED_WRITES = some f → f.addr = Addr.GEN_CNT0 := fun f hf => (hc f hf).1
  have e : s.lockRefusal p a (x :: r) = (s.setErr 1 p.code a (minOf x r) (some F.GEN_CNT0.LOCKED_WRITES)).record sevNotice
      (windowIsland (windowOf a)) 4 (minOf x r) 0 a := rfl
  obtain ⟨h1, h2, -, -, h5⟩ := s.setErr_flds (kind := 1) (minOf x r) _ (by decide) (pathCode_lt p) ha hc
  have hr : ∀ b, (s.lockRefusal p a (x :: r)).raw b = (s.setErr 1 p.code a (minOf x r) (some F.GEN_CNT0.LOCKED_WRITES)).raw b := by
    intro b
    rw [e]
    exact State.raw_congr (State.record_regs _ _ _ _ _ _ _) b
  refine ⟨?_, fun b hb => (hr b).trans (s.setErr_regsBut 1 p.code a _ _ hc' b hb), ?_, ?_, ?_⟩
  · rw [e]
    exact (s.setErr_only 1 p.code a _ _ hc').comp (State.record_only _ _ _ _ _ _ _)
  · exact (State.fld_of_raw (hr _)).trans h1
  · exact (State.fld_of_raw (hr _)).trans h2
  · exact (State.fld_of_raw (hr _)).trans (h5 _ rfl)

end Refusal
end Sys2Proof.Machine
end

section
namespace Sys2Proof.Machine

/-! ### A register's fields after a write -/

section Whole
variable {s : State} {path : Path} {a : Nat} {d : RegDesc} {v : Word}

theorem plainAddr_not_pmu (h : plainAddr a = true) : isPmu a = false := by
  simp only [plainAddr, Bool.and_eq_true, Bool.not_eq_true'] at h
  obtain ⟨⟨⟨hpmu, -⟩, -⟩, -⟩ := h
  exact hpmu

theorem plainAddr_not_gen (h : plainAddr a = true) : a ∉ [Addr.GEN_ERR, Addr.GEN_ERR_LOG, Addr.GEN_CNT0] := by
  simp only [plainAddr, Bool.and_eq_true, Bool.not_eq_true', List.contains_eq_mem, decide_eq_false_iff_not] at h
  exact fun hm => h.2 (by simp only [List.mem_cons, List.not_mem_nil, or_false] at hm ⊢; tauto)

/-- A field that can be refused can be staged. -/
theorem lockRefuses_held {f : FieldDesc} (h : s.lockRefuses a d v f = true) : f.held = true := by
  simp only [State.lockRefuses, Bool.and_eq_true, beq_iff_eq] at h
  obtain ⟨⟨⟨⟨hacc, hupd⟩, -⟩, -⟩, -⟩ := h
  simp [FieldDesc.held, hacc, hupd]

/-- A write none of whose LOCKED fields is refused. -/
theorem writeFields_accepted (hd : findReg a = some d) (hg : d.fields.any (fun f => s.lockRefuses a d v f) = false) :
    s.writeFields path a v = (s.fieldsWritten a d v).1 := by
  have hnil : (s.fieldsWritten a d v).2 = [] := by
    rw [fieldsWritten_refused, List.map_eq_nil_iff, List.filter_eq_nil_iff]
    exact fun f hf => List.any_eq_false.mp hg f hf
  rw [s.writeFields_eq path v hd, hnil]
  rfl

/-- A write with a refused LOCKED field: the rest is written, and the refusal is reported. -/
theorem writeFields_refused (hd : findReg a = some d) (hg : d.fields.any (fun f => s.lockRefuses a d v f) = true) :
    plainAddr a = true ∧ ∃ x r, s.writeFields path a v = (s.fieldsWritten a d v).1.lockRefusal path a (x :: r) := by
  obtain ⟨f, hf, hr⟩ := List.any_eq_true.mp hg
  refine ⟨findReg_plain hd hf (lockRefuses_held hr), ?_⟩
  rw [s.writeFields_eq path v hd]
  cases hl : (s.fieldsWritten a d v).2 with
  | nil =>
    rw [fieldsWritten_refused, List.map_eq_nil_iff, List.filter_eq_nil_iff] at hl
    exact absurd hr (hl f hf)
  | cons x r => exact ⟨x, r, rfl⟩

theorem writeFields_written (hd : findReg a = some d) (ha : a < 2 ^ 25) :
    (∀ f ∈ d.fields, FieldWritten s (s.writeFields path a v) a d v f) ∧
    ∀ x : Staged, (x.addr ≠ a ∨ ∀ f ∈ d.fields, f.lsb ≠ x.lsb) → (x ∈ (s.writeFields path a v).staged ↔ x ∈ s.staged) := by
  cases hg : d.fields.any (fun f => s.lockRefuses a d v f) with
  | false =>
    rw [writeFields_accepted hd hg]
    exact ⟨fun f hf => fieldsWritten_field hd hf, fun x hx => fieldsWritten_staged hx⟩
  | true =>
    obtain ⟨hp, x, r, e⟩ := writeFields_refused (path := path) hd hg
    obtain ⟨ho, hr, -⟩ := (s.fieldsWritten a d v).1.lockRefusal_reports path x r ha
    have hst : ((s.fieldsWritten a d v).1.lockRefusal path a (x :: r)).staged = (s.fieldsWritten a d v).1.staged := ho .staged (by decide)
    rw [e]
    refine ⟨fun f hf => (fieldsWritten_field hd hf).congr (hr a (plainAddr_not_gen hp)) hst, fun y hy => ?_⟩
    rw [hst]
    exact fieldsWritten_staged hy

/-- With no LOCKED field refused, the register alone differs, and what is staged. -/
theorem writeFields_accepted_frame (hd : findReg a = some d) (hg : d.fields.any (fun f => s.lockRefuses a d v f) = false) :
    OnlyParts [.regs, .pmu, .staged] s (s.writeFields path a v) ∧ ∀ b, b ≠ a → (s.writeFields path a v).raw b = s.raw b := by
  rw [writeFields_accepted hd hg]
  exact ⟨fieldsWritten_only, fun b hb => fieldsWritten_raw_ne hb⟩

/-- A list of parts that keeps to registers other than the performance counters. -/
theorem OnlyParts.not_pmu {s t : State} {l m : List Part} (h : OnlyParts l s t) (hl : ∀ p ∈ l, p ∈ m ∨ p = .pmu)
    (hp : ∀ b, isPmu b = true → t.raw b = s.raw b) : OnlyParts m s t := by
  intro p hpm
  by_cases hq : p = .pmu
  · subst hq; exact hp
  · exact h p (fun hm => (hl p hm).elim hpm hq)

/-- A refused LOCKED field sets GEN_ERR.LOCKED_WRITE, is logged and counts. -/
theorem writeFields_refused_frame (hd : findReg a = some d) (hg : d.fields.any (fun f => s.lockRefuses a d v f) = true) (ha : a < 2 ^ 25) :
    let t := s.writeFields path a v
    OnlyParts [.regs, .staged, .records] s t ∧ RegsBut [a, Addr.GEN_ERR, Addr.GEN_ERR_LOG, Addr.GEN_CNT0] s t ∧
    t.fld F.GEN_ERR.LOCKED_WRITE = 1 ∧ t.fld F.GEN_ERR_LOG.OFFSET = a ∧ Rises s t F.GEN_CNT0.LOCKED_WRITES 1 := by
  obtain ⟨hp, x, r, e⟩ := writeFields_refused (path := path) hd hg
  obtain ⟨ho, hr, h1, h2, h3⟩ := (s.fieldsWritten a d v).1.lockRefusal_reports path x r ha
  have hcnt : F.GEN_CNT0.LOCKED_WRITES.addr ≠ a := by
    have h := plainAddr_not_gen hp
    simp only [List.mem_cons, List.not_mem_nil, or_false, not_or] at h
    obtain ⟨-, -, hne⟩ := h
    exact fun he => hne he.symm
  rw [e]
  refine ⟨?_, fun b hb _ => ?_, h1, h2, ?_⟩
  · have hfw : OnlyParts [.regs, .staged] s (s.fieldsWritten a d v).1 :=
      fieldsWritten_only.not_pmu (by decide) (fun b hb => fieldsWritten_raw_ne (fun he => by
        rw [he, plainAddr_not_pmu hp] at hb; exact absurd hb (by decide)))
    exact (hfw.comp ho).mono (by decide)
  · obtain ⟨hba, hb'⟩ := not_or.mp (mt List.mem_cons.mpr hb)
    rw [hr b hb', fieldsWritten_raw_ne hba]
  · unfold Rises at h3 ⊢
    rw [h3, State.fld_of_raw (fieldsWritten_raw_ne hcnt)]

end Whole

/-! ### A write on its path -/

section Write
variable {s : State} {path : Path} {offset : BitVec 25} {v : Word}

/-- An access to a window that CTL serves waits for a handover of the firmware, and no other does. -/
theorem State.onWindow_goes {s : State} {a n : Nat} (c : CtlReq) (r : Res) (h : ctlServes a n = false ∨ s.svc.proc ≠ 1) :
    s.onWindow a n c r = r := by
  unfold State.onWindow State.onCtl
  cases hc : ctlServes a n with
  | false => simp
  | true =>
    have hp : s.svc.proc ≠ 1 := h.resolve_left (by simp [hc])
    simp [hp]

theorem State.onWindow_waits {s : State} {a n : Nat} (c : CtlReq) (r : Res) (hc : ctlServes a n = true) (hp : s.svc.proc = 1) :
    s.onWindow a n c r = .next (s.updSvc (fun v => { v with waiting := v.waiting ++ [c] })) := by
  rw [State.onWindow, if_pos hc, State.onCtl, if_pos hp]
  rfl

theorem State.updSvc_waiting (s : State) (c : CtlReq) : (s.updSvc (fun v => { v with waiting := v.waiting ++ [c] })).svc =
    { s.svc with waiting := s.svc.waiting ++ [c] } := rfl

theorem State.writePath_absent {a n : Nat} {vs : List Word} (h : s.pathThere path = false) : s.writePath path a n vs = s := by
  simp [State.writePath, h]

theorem State.writePath_eight {a : Nat} (h : s.pathThere path = true) (ha : a % 8 = 0) :
    s.writePath path a 8 [v] = (s.writeAt path a v).1 := by
  simp [State.writePath, h, alignedAccess, ha, List.range_succ]

theorem exec_registerWrite (size : BitVec 8) (vs : List Word) (h : ctlServes offset.toNat (size.toNat / 8) = false ∨ s.svc.proc ≠ 1) :
    exec (.registerWrite path offset size vs) s = .next (s.writePath path offset.toNat size.toNat vs) :=
  State.onWindow_goes _ _ h

theorem exec_registerWrite_eight (hp : s.pathThere path = true) (ha : offset.toNat % 8 = 0)
    (hw : ctlServes offset.toNat 1 = false ∨ s.svc.proc ≠ 1) :
    exec (.registerWrite path offset 8 [v]) s = .next (s.writeAt path offset.toNat v).1 :=
  (exec_registerWrite 8 [v] hw).trans (congrArg _ (State.writePath_eight hp ha))

theorem exec_registerWrite_waits (hc : ctlServes offset.toNat 1 = true) (hp : s.svc.proc = 1) :
    exec (.registerWrite path offset 8 [v]) s =
      .next (s.updSvc (fun x => { x with waiting := x.waiting ++ [.write path offset 8 [v]] })) :=
  State.onWindow_waits _ _ hc hp

theorem debugOpen_of_jtag (h : s.pathThere .jtag = true) : s.debugOpen = true := by
  simp only [State.pathThere, Bool.and_eq_true] at h
  exact h.2

/-- DBGREG is an access on JTAG's path. -/
theorem exec_dbgreg_write (h : s.debugOpen = true) :
    exec (.dbgreg true offset v) s = exec (.registerWrite .jtag offset 8 [v]) s := by
  show execDbgreg true offset v s = execRegisterWrite .jtag offset 8 [v] s
  simp [execDbgreg, h]

/-- What holds of one write of a register holds of every command that makes it. -/
theorem gives_of_writeAt (hp : s.pathThere path = true) (ha : offset.toNat % 8 = 0)
    (hw : ctlServes offset.toNat 1 = false ∨ s.svc.proc ≠ 1) {q : State → Prop} (hq : q (s.writeAt path offset.toNat v).1) :
    ∀ c ∈ Instr.registerWrite path offset 8 [v] :: (if path = .jtag then [Instr.dbgreg true offset v] else []), Gives c s q := by
  intro c hc
  refine ⟨_, ?_, hq⟩
  rcases List.mem_cons.mp hc with rfl | hm
  · exact exec_registerWrite_eight hp ha hw
  · by_cases hj : path = .jtag
    · rw [if_pos hj] at hm
      obtain rfl := List.mem_singleton.mp hm
      subst hj
      rw [exec_dbgreg_write (debugOpen_of_jtag hp)]
      exact exec_registerWrite_eight hp ha hw
    · rw [if_neg hj] at hm
      exact absurd hm List.not_mem_nil

end Write

/-! ### What becomes of one write -/

section WriteAt
variable {s : State} {path : Path} {a : Nat} {v : Word}

theorem writeAt_of_reaches (h : Reaches s path a) : s.writeAt path a v = (s.writeReg path a v, ST.ok) := by
  unfold State.writeAt
  rw [State.wakeFor_of_not_hazed h.hazed]
  simp only [State.regReach_of_reaches h]

theorem writeAt_denied (hz : s.hazed (windowIsland (windowOf a)) = false)
    (h : s.pathShut path = true ∨ (a < 0x1400000 ∧ a.testBit 18 = true ∧ path ≠ .ctl)) : s.writeAt path a v = (s.deny path a 0, ST.rights) := by
  unfold State.writeAt
  rw [State.wakeFor_of_not_hazed hz]
  simp only [State.regReach_denied h]

theorem writeAt_firmware (hz : s.hazed (windowIsland (windowOf a)) = false) (hs : s.pathShut path = false) (ha : a < 0x1400000)
    (hb : a.testBit 18 = true) (hp : path = .ctl) : s.writeAt path a v = (s, ST.ok) := by
  unfold State.writeAt
  rw [State.wakeFor_of_not_hazed hz]
  simp only [State.regReach_firmware hs ha hb hp]

theorem writeAt_unmapped (hz : s.hazed (windowIsland (windowOf a)) = false) (hs : s.pathShut path = false)
    (h : 0x1400000 ≤ a ∨ (a.testBit 18 = false ∧ s.running (windowIsland (windowOf a)) = true ∧ described a = false)) :
    s.writeAt path a v = (s.unmap path a, ST.ok) := by
  unfold State.writeAt
  rw [State.wakeFor_of_not_hazed hz]
  simp only [State.regReach_unmapped hs h]

theorem writeAt_unserved (hs : s.pathShut path = false) (ha : a < 0x1400000) (hb : a.testBit 18 = false)
    (hv : s.servesWindow (windowOf a) = false) : s.writeAt path a v = (s.unserve path a, ST.mode) := by
  unfold State.writeAt
  rw [State.wakeFor_of_not_hazed (State.not_hazed_of_unserved hv)]
  simp only [State.regReach_unserved hs ha hb hv]

/-- A write that reaches a register with no effect of its own writes the register's fields. -/
theorem writeReg_plain (hst : isStage a = false) (hb : isBlkId a = false) (hg : a = Addr.GEN_PATH_CTL → path = .ctl ∨ path = .mctp)
    (hc : s.writeCommand path a v = none) (hf : s.fenceOver a v = none) (hw : ∀ t, s.followWrite path a v t = t) :
    s.writeReg path a v = s.writeFields path a v := by
  have hn : ¬(a = Addr.GEN_PATH_CTL ∧ path ≠ .ctl ∧ path ≠ .mctp) := fun ⟨h, h1, h2⟩ => (hg h).elim h1 h2
  unfold State.writeReg
  rw [hb, hst, if_neg (by decide), if_neg (by decide), if_neg hn, hc, hf]
  exact hw _

theorem writeReg_blkId (hb : isBlkId a = true) : s.writeReg path a v = s := by
  simp [State.writeReg, hb]

/-- A write of less than a register is reported and makes no change. -/
theorem State.writePath_partial {n : Nat} {vs : List Word} (hp : s.pathThere path = true) (hal : alignedAccess a n = true) (hn : n < 8)
    (h : Reaches s path (a - a % 8)) : s.writePath path a n vs = s.genErr 3 path.code a 0 none := by
  simp [State.writePath, hp, hal, hn, State.regReach_of_reaches h]

theorem State.writePath_misaligned {n : Nat} {vs : List Word} (hp : s.pathThere path = true) (hs : s.pathShut path = false)
    (hal : alignedAccess a n = false) : s.writePath path a n vs = s.misalign path a := by
  simp [State.writePath, hp, hs, hal]

end WriteAt

/-! ### DBGREG while debug is locked -/

/-- DBGREG acts as BYPASS. -/
theorem jtagRefuse_effect (s : State) :
    OnlyParts [.regs, .out, .pins] s s.jtagRefuse ∧ RegsBut [Addr.DBG_CTL] s s.jtagRefuse ∧ s.jtagRefuse.fld F.DBG_CTL.JTAG_REFUSED = 1 ∧
    s.jtagRefuse.out = s.out ++ [Out.jtag 0 []] ∧ s.jtagRefuse.jtagPins = 0 ∧ s.jtagRefuse.eid = s.eid := by
  have hload : OnlyParts [.out, .pins] s (s.jtagLoad 0 0 []) := by
    intro p hp
    cases p with
    | out => exact absurd (by decide) hp
    | pins => exact absurd (by decide) hp
    | records => exact ⟨rfl, rfl, fun _ _ => rfl⟩
    | regs => exact fun _ _ => rfl
    | pmu => exact fun _ _ => rfl
    | crossings => exact fun _ _ => rfl
    | bytes => exact fun _ => rfl
    | ddr => exact fun _ => rfl
    | _ => rfl
  refine ⟨(hload.comp (State.flag_only _ F.DBG_CTL.JTAG_REFUSED (by decide))).mono (by decide), fun a ha _ => ?_, ?_, rfl, rfl, rfl⟩
  · exact State.raw_flag_ne (s.jtagLoad 0 0 []) F.DBG_CTL.JTAG_REFUSED (fun h => ha (List.mem_singleton.mpr h))
  · exact State.fld_flag_self _ _ (by decide) (by decide)

end Sys2Proof.Machine

open Sys2Proof Sys2Proof.Machine

/-- Settles O55: a write that reaches its register goes through `writeFields`, whose fold over the fields shows each field what
its access type and update class say; the others end in a GEN_ERR bit, wait or change nothing. -/
theorem registerWritesFollowTheirFields : Obligations.RegisterWritesFollowTheirFields := by
  unfold Obligations.RegisterWritesFollowTheirFields
  intro s path offset v
  dsimp only
  have hlt : offset.toNat < 2 ^ 25 := offset.isLt
  refine ⟨fun hopen w => ?locked, fun hp size vs hc hs => ?absent, fun hc hproc => ?ctlWaits, fun d hr hst hb hg hcmd hfo hfw hd => ?register, fun hr hb => ?blockId,
    fun hp hw ha => ⟨fun h hz => ?denied, fun hs hlo hbit hctl hz => ?firmware, fun hs h hz => ?unmapped, fun ⟨hs, hlo, hbit⟩ hv => ?unserved⟩,
    fun size vs hp hs => ⟨fun hal hn hr => ?part, fun hal hproc => ?misaligned⟩⟩
  case locked =>
    refine ⟨s.jtagRefuse, ?_, jtagRefuse_effect s⟩
    show execDbgreg w offset v s = _
    simp [execDbgreg, hopen]
  case absent =>
    have hgo : ctlServes offset.toNat (size.toNat / 8) = false ∨ s.svc.proc ≠ 1 := by
      have hle : size.toNat ≤ 8 := hs
      rcases Nat.lt_or_eq_of_le hle with hlt8 | h8
      · exact .inl (by rw [Nat.div_eq_of_lt hlt8]; rfl)
      · rw [h8]; exact hc (BitVec.eq_of_toNat_eq h8)
    exact ⟨_, exec_registerWrite size vs hgo, State.writePath_absent hp⟩
  case ctlWaits =>
    exact ⟨_, exec_registerWrite_waits hc hproc, s.updSvc_only _, s.updSvc_waiting _⟩
  case register =>
    obtain ⟨hp, hs, hlo, ha, hbit, hrun, hdesc, hw⟩ := id hr
    refine gives_of_writeAt hp ha hw ?_
    rw [writeAt_of_reaches hr, writeReg_plain hst hb hg hcmd hfo hfw]
    obtain ⟨h1, h2⟩ := writeFields_written (s := s) (path := path) (v := v) hd hlt
    exact ⟨h1, h2, writeFields_accepted_frame hd, fun hgone => writeFields_refused_frame hd hgone hlt⟩
  case blockId =>
    obtain ⟨hp, hs, hlo, ha, hbit, hrun, hdesc, hw⟩ := id hr
    refine gives_of_writeAt hp ha hw ?_
    rw [writeAt_of_reaches hr]
    exact writeReg_blkId hb
  case denied =>
    refine gives_of_writeAt hp ha hw ?_
    rw [writeAt_denied hz h]
    exact s.deny_accessError path hlt
  case firmware =>
    refine gives_of_writeAt hp ha hw ?_
    rw [writeAt_firmware hz hs hlo hbit hctl]
  case unmapped =>
    refine gives_of_writeAt hp ha hw ?_
    rw [writeAt_unmapped hz hs (h.imp id (fun ⟨⟨_, _, hbit⟩, hrun, hdesc⟩ => ⟨hbit, hrun, hdesc⟩))]
    exact s.unmap_accessError path hlt
  case unserved =>
    refine gives_of_writeAt hp ha hw ?_
    rw [writeAt_unserved hs hlo hbit hv]
    exact s.unserve_accessError path hlt
  case part =>
    refine ⟨_, exec_registerWrite size vs (.inl (by rw [Nat.div_eq_of_lt hn]; rfl)), ?_⟩
    rw [State.writePath_partial hp hal hn hr]
    exact s.genErr_accessError path 0 none (by decide) hlt (by rintro f ⟨⟩)
  case misaligned =>
    refine ⟨_, exec_registerWrite size vs (.inr hproc), ?_⟩
    rw [State.writePath_misaligned hp hs hal]
    exact s.misalign_accessError path hlt
end

section
namespace Sys2Proof.Machine

/-! ### Reading clears RC fields -/

theorem findReg_apart_of_ne {a : Nat} {d : RegDesc} (h : findReg a = some d) {f g : FieldDesc} (hf : f ∈ d.fields) (hg : g ∈ d.fields)
    (hne : f ≠ g) : f.apart g = true := by
  have hsymm : Std.Symm (fun f g : FieldDesc => f.apart g = true) := ⟨fun x y hxy => (FieldDesc.apart_comm y x).trans hxy⟩
  exact (findReg_apart h).forall hf hg hne

/-- The RC fields that lie wholly within `n` bytes from byte `lo`. -/
def FieldDesc.clearedBy (lo n : Nat) (f : FieldDesc) : Bool :=
  f.acc == .rc && decide (8 * lo ≤ f.lsb) && decide (f.lsb + f.width ≤ 8 * (lo + n))

/-- One field cleared. -/
def State.zeroField (a : Nat) (s : State) (f : FieldDesc) : State := s.setFld ⟨a, f.lsb, f.width⟩ 0

theorem foldl_zeroField (a : Nat) : ∀ (l : List FieldDesc) (s : State), l.foldl (State.zeroField a) s =
    s.withRegs (l.foldl (fun (t : Tab Word) (f : FieldDesc) => putFld t ⟨a, f.lsb, f.width⟩ 0) s.regs) := by
  intro l
  induction l with
  | nil => exact fun _ => rfl
  | cons f r ih => exact fun s => ih (s.zeroField a f)

section ClearRead
variable {s : State} {a lo n : Nat} {d : RegDesc}

theorem clearRead_eq (hd : findReg a = some d) :
    s.clearRead a lo n = (d.fields.filter (FieldDesc.clearedBy lo n)).foldl (State.zeroField a) s := by
  rw [foldl_zeroField]
  unfold State.clearRead
  rw [hd]
  rfl

theorem clearRead_frame : OnlyParts [.regs, .pmu] s (s.clearRead a lo n) ∧ ∀ b, b ≠ a → (s.clearRead a lo n).raw b = s.raw b := by
  cases hd : findReg a with
  | none =>
    have e : s.clearRead a lo n = s := by simp only [State.clearRead, hd]
    rw [e]
    exact ⟨OnlyParts.refl s _, fun _ _ => rfl⟩
  | some d =>
    rw [clearRead_eq hd]
    constructor
    · exact foldl_keeps (OnlyParts [.regs, .pmu]) (fun _ => OnlyParts.refl _ _) OnlyParts.trans _ s (fun t g _ => t.withRegs_only _)
    · intro b hb
      exact foldl_keeps (fun t u : State => u.raw b = t.raw b) (fun _ => rfl) (fun h k => k.trans h) _ s
        (fun t g _ => State.raw_setFld_ne t _ _ hb)

/-- A field beside the one cleared keeps its value. -/
theorem zeroField_fld_beside (hd : findReg a = some d) {f g : FieldDesc} (hf : f ∈ d.fields) (hg : g ∈ d.fields) (hne : g ≠ f) (t : State) :
    (t.zeroField a g).fld ⟨a, f.lsb, f.width⟩ = t.fld ⟨a, f.lsb, f.width⟩ :=
  State.fld_setFld_beside t ⟨a, g.lsb, g.width⟩ ⟨a, f.lsb, f.width⟩ 0 (findReg_fits hd hg) rfl
    (FieldDesc.apart_iff.mp (findReg_apart_of_ne hd hf hg hne.symm))

theorem clearRead_fld (hd : findReg a = some d) {f : FieldDesc} (hf : f ∈ d.fields) : (s.clearRead a lo n).fld ⟨a, f.lsb, f.width⟩ =
    if f.clearedBy lo n then 0 else s.fld ⟨a, f.lsb, f.width⟩ := by
  rw [clearRead_eq hd]
  cases hc : f.clearedBy lo n with
  | true =>
    have hne : ∀ g h : FieldDesc, g.apart h = true → h.apart g = true := fun g h hgh => (FieldDesc.apart_comm h g).trans hgh
    have hbeside : ∀ (t : State) (g : FieldDesc), g ∈ d.fields.filter (FieldDesc.clearedBy lo n) → g.apart f = true →
        (t.zeroField a g).fld ⟨a, f.lsb, f.width⟩ = t.fld ⟨a, f.lsb, f.width⟩ := by
      intro t g hg hgf
      refine zeroField_fld_beside hd hf (List.mem_filter.mp hg).1 (fun e => ?_) t
      subst e
      have hw := (findReg_width hd hf).1
      have := FieldDesc.apart_iff.mp hgf
      omega
    obtain ⟨t, -, ht⟩ := foldl_view (V := fun t : State => t.fld ⟨a, f.lsb, f.width⟩) hne _ s hbeside
      (List.mem_filter.mpr ⟨hf, hc⟩) ((findReg_apart hd).filter _)
    rw [ht, State.zeroField, State.fld_setFld_self t ⟨a, f.lsb, f.width⟩ 0 (findReg_fits hd hf)]
    exact Nat.zero_mod _
  | false =>
    exact foldl_keeps (fun t u : State => u.fld ⟨a, f.lsb, f.width⟩ = t.fld ⟨a, f.lsb, f.width⟩) (fun _ => rfl) (fun h k => k.trans h) _ s
      (fun t g hg => by
        obtain ⟨hgd, hgc⟩ := List.mem_filter.mp hg
        exact zeroField_fld_beside hd hf hgd (fun e => by rw [e, hc] at hgc; exact absurd hgc (by decide)) t)

/-- A read of a register without RC fields clears nothing. -/
theorem clearRead_of_no_rc (h : ∀ d, findReg a = some d → ∀ f ∈ d.fields, f.acc ≠ .rc) : s.clearRead a lo n = s := by
  cases hd : findReg a with
  | none => simp only [State.clearRead, hd]
  | some d =>
    have hnil : d.fields.filter (FieldDesc.clearedBy lo n) = [] := by
      rw [List.filter_eq_nil_iff]
      intro f hf hc
      simp only [FieldDesc.clearedBy, Bool.and_eq_true, beq_iff_eq] at hc
      obtain ⟨⟨hrc, -⟩, -⟩ := hc
      exact h d hd f hf hrc
    rw [clearRead_eq hd, hnil]
    rfl

end ClearRead

/-! ### What becomes of one read -/

section ReadAt
variable {s : State} {path : Path} {at_ n : Nat}

/-- An access lies in the window of the register it reads. -/
theorem windowOf_register (at_ : Nat) : windowOf at_ = windowOf (at_ - at_ % 8) := by
  unfold windowOf
  omega

theorem readAt_of_reaches (h : Reaches s path (at_ - at_ % 8)) : s.readAt path at_ n = (s.clearRead (at_ - at_ % 8) (at_ % 8) n,
    BitVec.ofNat 64 (bitsOf (s.reg (at_ - at_ % 8)) (8 * (at_ % 8)) (8 * n)), ST.ok) := by
  unfold State.readAt
  rw [windowOf_register, State.wakeFor_of_not_hazed h.hazed]
  simp only [State.regReach_of_reaches h]

theorem readAt_denied (hz : s.hazed (windowIsland (windowOf (at_ - at_ % 8))) = false)
    (h : s.pathShut path = true ∨ (at_ - at_ % 8 < 0x1400000 ∧ (at_ - at_ % 8).testBit 18 = true ∧ path ≠ .ctl)) :
    s.readAt path at_ n = (s.deny path (at_ - at_ % 8) 0, 0, ST.rights) := by
  unfold State.readAt
  rw [windowOf_register, State.wakeFor_of_not_hazed hz]
  simp only [State.regReach_denied h]

theorem readAt_unmapped (hz : s.hazed (windowIsland (windowOf (at_ - at_ % 8))) = false) (hs : s.pathShut path = false)
    (h : 0x1400000 ≤ at_ - at_ % 8 ∨ ((at_ - at_ % 8).testBit 18 = false ∧ s.running (windowIsland (windowOf (at_ - at_ % 8))) = true ∧
      described (at_ - at_ % 8) = false)) : s.readAt path at_ n = (s, 0, ST.ok) := by
  unfold State.readAt
  rw [windowOf_register, State.wakeFor_of_not_hazed hz]
  simp only [State.regReach_unmapped hs h]

theorem readAt_unserved (hs : s.pathShut path = false) (ha : at_ - at_ % 8 < 0x1400000) (hb : (at_ - at_ % 8).testBit 18 = false)
    (hv : s.servesWindow (windowOf (at_ - at_ % 8)) = false) :
    s.readAt path at_ n = (s.unserve path (at_ - at_ % 8), 0, ST.mode) := by
  unfold State.readAt
  rw [windowOf_register, State.wakeFor_of_not_hazed (State.not_hazed_of_unserved hv)]
  simp only [State.regReach_unserved hs ha hb hv]

/-- Whatever becomes of a read, it changes no island but the one it wakes. -/
theorem readAt_isl : (s.readAt path at_ n).1.isl = (s.wakeFor (windowOf at_)).isl := by
  unfold State.readAt
  dsimp only
  split
  · exact State.deny_isl _ _ _ _
  · rfl
  · rfl
  · exact State.genErr_isl _ _ _ _ _ _
  · exact clearRead_frame.1 .islands (by decide)

theorem Island.code_inj {i j : Island} (h : i.code = j.code) : i = j := by
  cases i <;> cases j <;> cases h <;> rfl

/-- An access to a window in Haze wakes its island, and no other. -/
theorem State.run_wakeFor {w : Nat} (hz : s.hazed (windowIsland w) = true) (hl : s.isl.length = 15) :
    (s.wakeFor w).run (windowIsland w) = .running ∧ ∀ i, i ≠ windowIsland w → (s.wakeFor w).run i = s.run i := by
  have hc : ∀ i : Island, i.code < 15 := fun i => by cases i <;> decide
  simp only [State.wakeFor, hz, if_true, State.run, State.setRun_isl]
  constructor
  · simp [List.getD_eq_getElem?_getD, hl, hc]
  · intro i hi
    have hne : (windowIsland w).code ≠ i.code := fun h => hi (Island.code_inj h.symm)
    simp [List.getD_eq_getElem?_getD, List.getElem?_set_ne hne]

end ReadAt

/-! ### A read on its path -/

section Read
variable {s : State} {path : Path} {offset : BitVec 25} {size : BitVec 8}

theorem alignedAccess_pos {a n : Nat} (h : alignedAccess a n = true) (hn : n ≤ 8) : (n + 7) / 8 = 1 := by
  simp only [alignedAccess, hn, if_true, Bool.and_eq_true, Bool.or_eq_true, beq_iff_eq] at h
  omega

theorem State.readPath_small {a n : Nat} (hp : s.pathThere path = true) (hal : alignedAccess a n = true) (hn : n ≤ 8) :
    s.readPath path a n = (s.readAt path a n).1.emit (.regValue path (s.readAt path a n).2.1) := by
  simp [State.readPath, hp, hal, hn]

theorem State.readPath_misaligned {a n : Nat} (hp : s.pathThere path = true) (hs : s.pathShut path = false)
    (hal : alignedAccess a n = false) : s.readPath path a n = (s.misalign path a).emit (.regValue path 0) := by
  simp [State.readPath, hp, hs, hal]

theorem exec_registerRead (h : ctlServes (offset.toNat - offset.toNat % 8) ((size.toNat + 7) / 8) = false ∨ s.svc.proc ≠ 1) :
    exec (.registerReadClear path offset size) s = .next (s.readPath path offset.toNat size.toNat) :=
  State.onWindow_goes _ _ h

theorem exec_registerRead_waits (hc : ctlServes (offset.toNat - offset.toNat % 8) 1 = true) (hp : s.svc.proc = 1)
    (h1 : 1 ≤ size.toNat) (h8 : size.toNat ≤ 8) : exec (.registerReadClear path offset size) s =
      .next (s.updSvc (fun x => { x with waiting := x.waiting ++ [.read path offset size] })) := by
  have hn : (size.toNat + 7) / 8 = 1 := by omega
  refine State.onWindow_waits _ _ ?_ hp
  rw [hn]
  exact hc

theorem exec_dbgreg_read (v : Word) (h : s.debugOpen = true) :
    exec (.dbgreg false offset v) s = exec (.registerReadClear .jtag offset 8) s := by
  show execDbgreg false offset v s = execRegisterReadClear .jtag offset 8 s
  simp [execDbgreg, h]

/-- What holds of one read of a register holds of every command that makes it. -/
theorem gives_of_readAt (hp : s.pathThere path = true) (hal : alignedAccess offset.toNat size.toNat = true) (hn : size.toNat ≤ 8)
    (hw : ctlServes (offset.toNat - offset.toNat % 8) 1 = false ∨ s.svc.proc ≠ 1) {q : State → Prop}
    (hq : q ((s.readAt path offset.toNat size.toNat).1.emit (.regValue path (s.readAt path offset.toNat size.toNat).2.1))) :
    ∀ c ∈ Instr.registerReadClear path offset size :: (if path = .jtag ∧ size.toNat = 8 then [Instr.dbgreg false offset 0] else []),
      Gives c s q := by
  have hread : exec (.registerReadClear path offset size) s =
      .next ((s.readAt path offset.toNat size.toNat).1.emit (.regValue path (s.readAt path offset.toNat size.toNat).2.1)) := by
    rw [exec_registerRead (by rw [alignedAccess_pos hal hn]; exact hw), State.readPath_small hp hal hn]
  intro c hc
  refine ⟨_, ?_, hq⟩
  rcases List.mem_cons.mp hc with rfl | hm
  · exact hread
  · by_cases hj : path = .jtag ∧ size.toNat = 8
    · rw [if_pos hj] at hm
      obtain rfl := List.mem_singleton.mp hm
      obtain ⟨rfl, h8⟩ := hj
      obtain rfl : size = 8 := BitVec.eq_of_toNat_eq h8
      rw [exec_dbgreg_read 0 (debugOpen_of_jtag hp)]
      exact hread
    · rw [if_neg hj] at hm
      exact absurd hm List.not_mem_nil

end Read
end Sys2Proof.Machine
end

section
namespace Sys2Proof.Machine

/-! ### MCTP messages (R516) -/

section Mctp
variable {s : State} {offset : BitVec 25}

theorem exec_mctpRead (count : BitVec 8) (h : ctlServes offset.toNat count.toNat = false ∨ s.svc.proc ≠ 1) (hr : s.running .aon = true) :
    exec (.mctpRead offset count) s = .next (s.mctpRead offset.toNat count.toNat) := by
  refine (State.onWindow_goes _ _ h).trans ?_
  rw [when_, if_pos hr]

theorem exec_mctpWrite (vs : List Word) (h : ctlServes offset.toNat vs.length = false ∨ s.svc.proc ≠ 1) (hr : s.running .aon = true) :
    exec (.mctpWrite offset vs) s = .next (s.mctpWrite offset.toNat vs) := by
  refine (State.onWindow_goes _ _ h).trans ?_
  rw [when_, if_pos hr]

/-- A misaligned offset makes no access. -/
theorem mctpBad_misaligned {a : Nat} (h : a % 8 ≠ 0) : s.mctpBad a = (s.misalign .mctp a).emit (.mctp ST.fault []) := by
  rw [State.mctpBad, if_neg h]

/-- Nor does a count outside 1 to 8. -/
theorem mctpBad_aligned {a : Nat} (h : a % 8 = 0) : s.mctpBad a = s.emit (.mctp ST.fault []) := by
  rw [State.mctpBad, if_pos h]

theorem mctpRead_bad {a n : Nat} (h : a % 8 ≠ 0 ∨ n = 0 ∨ 8 < n) : s.mctpRead a n = s.mctpBad a := by
  rw [State.mctpRead, if_pos h]

theorem mctpWrite_bad {a : Nat} {vs : List Word} (h : a % 8 ≠ 0 ∨ vs.length = 0 ∨ 8 < vs.length) : s.mctpWrite a vs = s.mctpBad a := by
  rw [State.mctpWrite, if_pos h]

/-- In P0 a message is served. -/
theorem mctpGo_awake {a n : Nat} (item : MctpAccess) (go : State → State) (h : s.lps.st = 0) : s.mctpGo a n item go = go s := by
  simp [State.mctpGo, State.mctpWakes, h]

theorem mctpRead_awake {a n : Nat} (ha : a % 8 = 0) (h1 : 1 ≤ n) (h8 : n ≤ 8) (h : s.lps.st = 0) : s.mctpRead a n = s.mctpReads a n [] := by
  have hn : ¬(a % 8 ≠ 0 ∨ n = 0 ∨ 8 < n) := by omega
  rw [State.mctpRead, if_neg hn]
  exact mctpGo_awake _ _ h

theorem mctpWrite_awake {a : Nat} {vs : List Word} (ha : a % 8 = 0) (h1 : 1 ≤ vs.length) (h8 : vs.length ≤ 8) (h : s.lps.st = 0) :
    s.mctpWrite a vs = s.mctpWrites a vs := by
  have hn : ¬(a % 8 ≠ 0 ∨ vs.length = 0 ∨ 8 < vs.length) := by omega
  rw [State.mctpWrite, if_neg hn]
  exact mctpGo_awake _ _ h

/-- A whole register is read. -/
theorem bitsOf_whole (w : Word) : BitVec.ofNat 64 (bitsOf w 0 64) = w := by
  unfold bitsOf
  rw [Nat.pow_zero, Nat.div_one, Nat.mod_eq_of_lt w.isLt]
  exact BitVec.ofNat_toNat _ w

theorem Reaches.aligned {path : Path} {a : Nat} (hr : Reaches s path a) : a % 8 = 0 := by
  obtain ⟨-, -, -, ha, -⟩ := hr
  exact ha

theorem readAt_register {a : Nat} (hr : Reaches s .mctp a) (hn : ∀ d, findReg a = some d → ∀ f ∈ d.fields, f.acc ≠ .rc) :
    s.readAt .mctp a 8 = (s, s.reg a, ST.ok) := by
  have ha' : a % 8 = 0 := hr.aligned
  have ha : a - a % 8 = a := by omega
  rw [readAt_of_reaches (by rw [ha]; exact hr), ha, ha', clearRead_of_no_rc hn, Nat.mul_zero, bitsOf_whole]

/-- Registers without RC fields are answered one after another, and nothing changes. -/
theorem mctpReads_registers (n : Nat) : ∀ (a : Nat) (l : List Word),
    (∀ i < n, Reaches s .mctp (a + 8 * i) ∧ ∀ d, findReg (a + 8 * i) = some d → ∀ f ∈ d.fields, f.acc ≠ .rc) →
    s.mctpReads a n l = s.emit (.mctp ST.ok (l ++ (List.range n).map (fun i => s.reg (a + 8 * i)))) := by
  induction n with
  | zero => intro a l _; simp [State.mctpReads]
  | succ n ih =>
    intro a l h
    obtain ⟨hr, hn⟩ := h 0 (by omega)
    rw [Nat.mul_zero, Nat.add_zero] at hr hn
    have hshift : ∀ i, a + 8 + 8 * i = a + 8 * (i + 1) := fun i => by omega
    have hrest := ih (a + 8) (l ++ [s.reg a]) (fun i hi => by rw [hshift]; exact h (i + 1) (by omega))
    rw [State.mctpReads, readAt_register hr hn]
    simp only [if_true]
    rw [hrest, List.range_succ_eq_map, List.map_cons, List.map_map, List.append_assoc]
    simp only [hshift]
    rfl

/-- The handover of a firmware holds none of `n` registers that are reached one by one. -/
theorem ctlServes_of_reaches {a n : Nat} (h : ∀ i < n, Reaches s .mctp (a + 8 * i)) : ctlServes a n = false ∨ s.svc.proc ≠ 1 := by
  by_cases hp : s.svc.proc = 1
  · left
    unfold ctlServes
    rw [List.any_eq_false]
    intro i hi hs
    obtain ⟨-, -, -, -, -, -, -, hw⟩ := h i (List.mem_range.mp hi)
    have hf : ctlServes (a + 8 * i) 1 = false := hw.resolve_right (fun h => h hp)
    simp [ctlServes, List.range_succ] at hf
    simp at hs
    exact absurd hs.2 (by have := hf hs.1; omega)
  · exact .inr hp

/-- A first access that is refused ends a read with its status. -/
theorem mctpReads_refused {a n : Nat} {t : State} {st : Status} (h1 : 1 ≤ n) (h : s.readAt .mctp a 8 = (t, 0, st)) (hst : st ≠ ST.ok) :
    s.mctpReads a n [] = t.emit (.mctp st []) := by
  obtain ⟨m, rfl⟩ : ∃ m, n = m + 1 := ⟨n - 1, by omega⟩
  rw [State.mctpReads, h]
  simp [hst]

theorem mctpWrites_refused {a : Nat} {v : Word} {vs : List Word} {t : State} {st : Status} (h : s.writeAt .mctp a v = (t, st))
    (hst : st ≠ ST.ok) : s.mctpWrites a (v :: vs) = t.emit (.mctp st []) := by
  rw [State.mctpWrites, h]
  simp [hst]

/-- What a refused message leaves besides its answer. -/
theorem AccessError.answered {t : State} {kind : Nat} {p : Path} {a : Nat} {cnt : Option Fld} (h : AccessError [] s t kind p a cnt) (o : Out) :
    (t.emit o).out = s.out ++ [o] ∧ RegsBut [Addr.GEN_ERR, Addr.GEN_ERR_LOG, Addr.GEN_CNT0] s (t.emit o) := by
  obtain ⟨ho, hr, -⟩ := h
  have hout : t.out = s.out := ho .out (by decide)
  exact ⟨by rw [State.emit_out, hout], hr⟩

/-- A message to a sleeping device. -/
def State.held (s : State) (m : MctpAccess) : State := (s.wakeBy 1).updLps (fun l => { l with waiting := l.waiting ++ [m] })

theorem wakeBy_asleep {s : State} (h2 : 2 ≤ s.lps.st) (h4 : s.lps.st ≤ 4) :
    OnlyParts [.lps, .regs] s (s.wakeBy 1) ∧ RegsBut [Addr.LPS_CNT0] s (s.wakeBy 1) ∧ (s.wakeBy 1).lps.st = 4 ∧
    (s.wakeBy 1).lps.waiting = s.lps.waiting := by
  have h1 : s.lps.st ≠ 1 := by omega
  unfold State.wakeBy
  rw [if_neg h1]
  split
  · refine ⟨(s.updLps_only _).comp (State.bump_only _ F.LPS_CNT0.WAKES (by decide)), fun a ha _ => ?_, rfl, rfl⟩
    exact State.raw_bumpBy_ne (s.updLps _) F.LPS_CNT0.WAKES 1 (fun h => ha (List.mem_singleton.mpr h))
  · next hn => exact ⟨OnlyParts.refl s _, RegsBut.refl s _, by omega, rfl⟩

/-- It wakes the device and waits (R451). -/
theorem held_waits {s : State} (m : MctpAccess) (h2 : 2 ≤ s.lps.st) (h4 : s.lps.st ≤ 4) :
    OnlyParts [.lps, .regs] s (s.held m) ∧ RegsBut [Addr.LPS_CNT0] s (s.held m) ∧ (s.held m).lps.st = 4 ∧
    (s.held m).lps.waiting = s.lps.waiting ++ [m] := by
  obtain ⟨ho, hr, hs, hw⟩ := wakeBy_asleep h2 h4
  exact ⟨(ho.comp (State.updLps_only _ _)).mono (by decide), hr, hs, by rw [← hw]; rfl⟩

theorem mctpGo_asleep {s : State} {a : Nat} (item : MctpAccess) (go : State → State) (h2 : 2 ≤ s.lps.st) (h4 : s.lps.st ≤ 4)
    (hf : s.mod.frozen = false) (hlo : a < 0x1400000) (hw : aonWindow (windowOf a) = false) : s.mctpGo a 1 item go = s.held item := by
  have hwakes : s.mctpWakes a 1 = true := by
    have h1 : 1 ≤ s.lps.st := by omega
    simp [State.mctpWakes, h1, hf, List.range_succ, hlo, hw]
  obtain ⟨-, -, h4', -⟩ := wakeBy_asleep h2 h4
  have hst : (s.wakeBy 1).lps.st ≠ 0 := by rw [h4']; decide
  unfold State.mctpGo
  rw [if_pos hwakes]
  exact if_neg hst

theorem mctpRead_asleep {a : Nat} (ha : a % 8 = 0) (h2 : 2 ≤ s.lps.st) (h4 : s.lps.st ≤ 4) (hf : s.mod.frozen = false)
    (hlo : a < 0x1400000) (hw : aonWindow (windowOf a) = false) : s.mctpRead a 1 = s.held (.read a 1) := by
  have hn : ¬(a % 8 ≠ 0 ∨ 1 = 0 ∨ 8 < 1) := by omega
  rw [State.mctpRead, if_neg hn]
  exact mctpGo_asleep _ _ h2 h4 hf hlo hw

theorem mctpWrite_asleep {a : Nat} (v : Word) (ha : a % 8 = 0) (h2 : 2 ≤ s.lps.st) (h4 : s.lps.st ≤ 4) (hf : s.mod.frozen = false)
    (hlo : a < 0x1400000) (hw : aonWindow (windowOf a) = false) : s.mctpWrite a [v] = s.held (.write a [v]) := by
  have hn : ¬(a % 8 ≠ 0 ∨ [v].length = 0 ∨ 8 < [v].length) := by rw [List.length_singleton]; omega
  rw [State.mctpWrite, if_neg hn]
  exact mctpGo_asleep _ _ h2 h4 hf hlo hw

/-- One WRITE over MCTP is the register's write, with its answer. -/
theorem mctpWrites_register {a : Nat} (v : Word) (h : Reaches s .mctp a) :
    s.mctpWrites a [v] = (s.writeAt .mctp a v).1.emit (.mctp ST.ok []) := by
  rw [State.mctpWrites, writeAt_of_reaches h]
  simp [State.mctpWrites]

end Mctp
end Sys2Proof.Machine

open Sys2Proof Sys2Proof.Machine

/-- Settles O56: a read that reaches its register is `clearRead` and the register's bytes, any other is one of the refusals of
`regReach`; MCTP reads and writes are those accesses one after another. -/
theorem registerReadsClearWhatTheyReturn : Obligations.RegisterReadsClearWhatTheyReturn := by
  unfold Obligations.RegisterReadsClearWhatTheyReturn
  dsimp only
  refine ⟨fun s path offset size => ?_, fun s offset haon => ?_⟩
  · have hlt : offset.toNat < 2 ^ 25 := offset.isLt
    have hlt' : offset.toNat - offset.toNat % 8 < 2 ^ 25 := by omega
    refine ⟨fun hc hproc h1 h8 => ⟨_, exec_registerRead_waits hc hproc h1 h8, s.updSvc_only _, s.updSvc_waiting _⟩,
      fun hp hw => ⟨fun hal hn c hc => ⟨fun hr => ?register, fun h hz => ?denied, fun hs h hz => ?unmapped, fun hs hlo hbit hv => ?unserved, fun hz hl => ?haze⟩,
        fun hal hs hproc => ?misaligned⟩⟩
    case register =>
      refine gives_of_readAt hp hal hn hw ?_ c hc
      rw [readAt_of_reaches hr]
      refine ⟨(clearRead_frame.1.comp (State.emit_only _ _)).mono (by decide), fun b hb => clearRead_frame.2 b hb, ?_, fun d hd f hf => ?_⟩
      · rw [State.emit_out, (clearRead_frame.1 : OnlyParts _ s _) .out (by decide)]
      · refine (clearRead_fld (s := s) (lo := offset.toNat % 8) (n := size.toNat) hd hf).trans ?_
        simp only [FieldDesc.clearedBy, Bool.and_eq_true, beq_iff_eq, decide_eq_true_eq, and_assoc]
    case denied =>
      refine gives_of_readAt hp hal hn hw ?_ c hc
      rw [readAt_denied hz h]
      exact ⟨by rw [State.emit_out, State.deny_out], (s.deny_accessError path hlt').emit _⟩
    case unmapped =>
      refine gives_of_readAt hp hal hn hw ?_ c hc
      rw [readAt_unmapped hz hs h]
      exact ⟨rfl, s.emit_only _⟩
    case unserved =>
      refine gives_of_readAt hp hal hn hw ?_ c hc
      rw [readAt_unserved hs hlo hbit hv]
      exact ⟨by rw [State.emit_out, State.unserve, State.genErr_out], (s.unserve_accessError path hlt').emit _⟩
    case haze =>
      refine gives_of_readAt hp hal hn hw ?_ c hc
      have hrun : ∀ i, ((s.readAt path offset.toNat size.toNat).1.emit
          (.regValue path (s.readAt path offset.toNat size.toNat).2.1)).run i = (s.wakeFor (windowOf offset.toNat)).run i := fun i => by
        rw [State.run, State.run, State.emit_isl, readAt_isl]
      rw [← windowOf_register] at hz ⊢
      obtain ⟨h1, h2⟩ := State.run_wakeFor hz hl
      exact ⟨(hrun _).trans h1, fun i hi => (hrun i).trans (h2 i hi)⟩
    case misaligned =>
      refine ⟨_, exec_registerRead (.inr hproc), ?_⟩
      rw [State.readPath_misaligned hp hs hal]
      exact ⟨by rw [State.emit_out, State.misalign, State.genErr_out], (s.misalign_accessError path hlt).emit _⟩
  · have hlt : offset.toNat < 2 ^ 25 := offset.isLt
    refine ⟨fun count vs hproc ha => ⟨?readMisaligned, ?writeMisaligned⟩, fun count vs hproc ha => ⟨fun hbad => ?readBad, fun hbad => ?writeBad⟩, fun count h1 h8 hst hr => ?reads,
      fun v hr hst => ?write, fun count v vs h1 h8 hvs hproc hst ha hlo hz => ⟨fun hbit => ⟨?readDenied, ?writeDenied⟩, fun hbit hv => ⟨?readUnserved, ?writeUnserved⟩⟩,
      fun v h2 h4 hf hproc ha hlo hw => ⟨?readAsleep, ?writeAsleep⟩⟩
    case readMisaligned =>
      refine ⟨_, exec_mctpRead count (.inr hproc) haon, ?_⟩
      rw [mctpRead_bad (.inl ha), mctpBad_misaligned ha]
      exact ⟨by rw [State.emit_out, State.misalign, State.genErr_out], (s.misalign_accessError .mctp hlt).emit _⟩
    case writeMisaligned =>
      refine ⟨_, exec_mctpWrite vs (.inr hproc) haon, ?_⟩
      rw [mctpWrite_bad (.inl ha), mctpBad_misaligned ha]
      exact ⟨by rw [State.emit_out, State.misalign, State.genErr_out], (s.misalign_accessError .mctp hlt).emit _⟩
    case readBad =>
      refine ⟨_, exec_mctpRead count (.inr hproc) haon, ?_⟩
      rw [mctpRead_bad (.inr (hbad.imp (fun h => by rw [h]; rfl) id)), mctpBad_aligned ha]
      exact ⟨rfl, s.emit_only _⟩
    case writeBad =>
      refine ⟨_, exec_mctpWrite vs (.inr hproc) haon, ?_⟩
      rw [mctpWrite_bad (.inr (hbad.imp (fun h => by rw [h]; rfl) id)), mctpBad_aligned ha]
      exact ⟨rfl, s.emit_only _⟩
    case reads =>
      obtain ⟨hr0, -⟩ := hr 0 (by omega)
      have ha : offset.toNat % 8 = 0 := hr0.aligned
      refine ⟨_, exec_mctpRead count (ctlServes_of_reaches (fun i hi => (hr i hi).1)) haon, ?_⟩
      rw [mctpRead_awake ha h1 h8 hst, mctpReads_registers count.toNat offset.toNat [] hr]
      exact ⟨s.emit_only _, rfl⟩
    case write =>
      obtain ⟨hp, hs, hlo, ha, hbit, hrun, hdesc, hw⟩ := id hr
      refine ⟨_, exec_mctpWrite [v] hw haon, _, exec_registerWrite_eight hp ha hw, ?_⟩
      rw [mctpWrite_awake ha (by rw [List.length_singleton]) (by rw [List.length_singleton]; omega) hst, mctpWrites_register v hr]
    case readDenied =>
      have ha' : offset.toNat - offset.toNat % 8 = offset.toNat := by omega
      refine ⟨_, exec_mctpRead count (.inr hproc) haon, ?_⟩
      rw [mctpRead_awake ha h1 h8 hst, mctpReads_refused h1 (readAt_denied (by rw [ha']; exact hz)
        (by rw [ha']; exact .inr ⟨hlo, hbit, by decide⟩)) (by decide), ha']
      exact (s.deny_accessError .mctp hlt).answered _
    case writeDenied =>
      refine ⟨_, exec_mctpWrite (v :: vs) (.inr hproc) haon, ?_⟩
      rw [mctpWrite_awake ha (by simp) (by simp; omega) hst, mctpWrites_refused (writeAt_denied hz (.inr ⟨hlo, hbit, by decide⟩)) (by decide)]
      exact (s.deny_accessError .mctp hlt).answered _
    case readUnserved =>
      have ha' : offset.toNat - offset.toNat % 8 = offset.toNat := by omega
      refine ⟨_, exec_mctpRead count (.inr hproc) haon, ?_⟩
      rw [mctpRead_awake ha h1 h8 hst, mctpReads_refused h1 (readAt_unserved rfl (by rw [ha']; exact hlo) (by rw [ha']; exact hbit)
        (by rw [ha']; exact hv)) (by decide), ha']
      exact (s.unserve_accessError .mctp hlt).answered _
    case writeUnserved =>
      refine ⟨_, exec_mctpWrite (v :: vs) (.inr hproc) haon, ?_⟩
      rw [mctpWrite_awake ha (by simp) (by simp; omega) hst, mctpWrites_refused (writeAt_unserved rfl hlo hbit hv) (by decide)]
      exact (s.unserve_accessError .mctp hlt).answered _
    case readAsleep =>
      exact ⟨_, exec_mctpRead 1 (.inr hproc) haon, by
        rw [show (1 : BitVec 8).toNat = 1 from rfl, mctpRead_asleep ha h2 h4 hf hlo hw]
        exact held_waits _ h2 h4⟩
    case writeAsleep =>
      exact ⟨_, exec_mctpWrite [v] (.inr hproc) haon, by
        rw [mctpWrite_asleep v ha h2 h4 hf hlo hw]
        exact held_waits _ h2 h4⟩
end

section
namespace Sys2Proof.Machine

/-! ### Staged values in force -/

/-- A staged value belongs to a field that can be staged, and fits it. -/
def Staged.Placed (x : Staged) : Prop :=
  x.val < 2 ^ x.width ∧ ∃ d f, findReg x.addr = some d ∧ f ∈ d.fields ∧ f.lsb = x.lsb ∧ f.width = x.width ∧ f.acc = .rw ∧ f.upd ≠ .live

/-- Two staged values belong to different fields. -/
def Staged.Other (x y : Staged) : Prop := ¬(x.addr = y.addr ∧ x.lsb = y.lsb)

theorem Staged.Other.symm {x y : Staged} (h : x.Other y) : y.Other x := fun ⟨h1, h2⟩ => h ⟨h1.symm, h2.symm⟩

section Placed
variable {x y : Staged}

theorem Staged.Placed.width (h : x.Placed) : 0 < x.width ∧ x.lsb + x.width ≤ 64 := by
  obtain ⟨-, d, f, hd, hf, hl, hw, -⟩ := h
  rw [← hl, ← hw]
  exact findReg_width hd hf

theorem Staged.Placed.plain (h : x.Placed) : plainAddr x.addr = true := by
  obtain ⟨-, d, f, hd, hf, -, -, hacc, hupd⟩ := h
  exact findReg_plain hd hf (by simp [FieldDesc.held, hacc, hupd])

/-- Fields that differ have no bit in common. -/
theorem Staged.Placed.beside (hx : x.Placed) (hy : y.Placed) (h : x.Other y) (ha : x.addr = y.addr) :
    x.lsb + x.width ≤ y.lsb ∨ y.lsb + y.width ≤ x.lsb := by
  obtain ⟨-, d, f, hd, hf, hfl, hfw, -⟩ := hx
  obtain ⟨-, e, g, he, hg, hgl, hgw, -⟩ := hy
  obtain rfl : d = e := Option.some.inj (hd.symm.trans (ha ▸ he))
  have hne : f ≠ g := fun e => h ⟨ha, by rw [← hfl, ← hgl, e]⟩
  have := FieldDesc.apart_iff.mp (findReg_apart_of_ne hd hf hg hne)
  rwa [hfl, hfw, hgl, hgw] at this

end Placed

/-- A staged value in force is its field set, and staged no more. -/
theorem State.inForce_eq (s : State) (x : Staged) :
    s.inForce x = (s.setFld ⟨x.addr, x.lsb, x.width⟩ x.val).withStaged (s.staged.filter (· != x)) := rfl

section InForce
variable {s : State} {x y : Staged}

theorem inForce_raw_ne {a : Nat} (h : a ≠ x.addr) : (s.inForce x).raw a = s.raw a := State.raw_setFld_ne s ⟨x.addr, x.lsb, x.width⟩ x.val h

theorem inForce_only (h : x.Placed) : OnlyParts [.regs, .staged] s (s.inForce x) := by
  rw [State.inForce_eq]
  exact (s.setFld_only ⟨x.addr, x.lsb, x.width⟩ x.val (plainAddr_not_pmu h.plain)).comp (State.withStaged_only _ _)

/-- Bits of another field keep their values. -/
theorem inForce_fld_beside (h : x.Placed) {g : Fld} (hg : g.addr = x.addr → g.lsb + g.width ≤ x.lsb ∨ x.lsb + x.width ≤ g.lsb) :
    (s.inForce x).fld g = s.fld g := by
  by_cases ha : g.addr = x.addr
  · rw [State.inForce_fld]
    exact State.fld_setFld_beside s ⟨x.addr, x.lsb, x.width⟩ g x.val h.width.2 ha (hg ha)
  · exact State.fld_of_raw (inForce_raw_ne ha)

theorem inForce_fld_self (h : x.Placed) : (s.inForce x).fld ⟨x.addr, x.lsb, x.width⟩ = x.val := by
  rw [State.inForce_fld, State.fld_setFld_self s ⟨x.addr, x.lsb, x.width⟩ x.val h.width.2]
  exact Nat.mod_eq_of_lt h.1

/-- A value that sets no fence window still sets none after another field has its value. -/
theorem fenceSet_inForce (hx : x.Placed) (hy : y.Placed) (h : x.Other y) : (s.inForce x).fenceSet y = s.fenceSet y := by
  by_cases hl : y.lsb = 0
  · have hbit : bitsOf ((s.inForce x).raw y.addr) 0 1 = bitsOf (s.raw y.addr) 0 1 := by
      refine inForce_fld_beside hx (g := ⟨y.addr, 0, 1⟩) (fun ha => ?_)
      have hb := hx.beside hy h ha.symm
      have hxw := hx.width
      have hyw := hy.width
      show 0 + 1 ≤ x.lsb ∨ x.lsb + x.width ≤ 0
      omega
    simp only [State.fenceSet, hbit]
  · simp only [State.fenceSet, hl, false_and, if_false]

theorem forceOne_eq (hc : credField x = false) (hf : s.fenceSet x = none) : s.forceOne x = s.inForce x := by
  simp [State.forceOne, State.mayForce_of_not_credField s hc, hf]

end InForce

/-! ### All staged values of a block -/

section ForceAll
variable {l : List Staged}

/-- Values that no reservation holds back, and that set no fence window, are all put in force. -/
theorem foldl_forceOne_eq : ∀ (l : List Staged) (s : State), (∀ x ∈ l, x.Placed) → l.Pairwise Staged.Other →
    (∀ x ∈ l, credField x = false ∧ s.fenceSet x = none) → l.foldl (fun (t : State) x => t.forceOne x) s = l.foldl State.inForce s := by
  intro l
  induction l with
  | nil => exact fun _ _ _ _ => rfl
  | cons x r ih =>
    intro s hp ho hf
    obtain ⟨hox, hor⟩ := List.pairwise_cons.mp ho
    obtain ⟨hc, hx⟩ := hf x (by simp)
    rw [List.foldl_cons, List.foldl_cons, forceOne_eq hc hx]
    refine ih _ (fun y hy => hp y (by simp [hy])) hor (fun y hy => ⟨(hf y (by simp [hy])).1, ?_⟩)
    rw [fenceSet_inForce (hp x (by simp)) (hp y (by simp [hy])) (hox y hy)]
    exact (hf y (by simp [hy])).2

theorem foldl_inForce_staged : ∀ (l : List Staged) (s : State), (l.foldl State.inForce s).staged = s.staged.filter (fun y => !l.contains y) := by
  intro l
  induction l with
  | nil => intro s; simp
  | cons x r ih =>
    intro s
    rw [List.foldl_cons, ih, State.inForce_eq, State.withStaged_staged, List.filter_filter]
    congr 1
    funext y
    rw [List.contains_cons, Bool.not_or, Bool.and_comm]
    rfl

theorem foldl_inForce_only (s : State) (hp : ∀ x ∈ l, x.Placed) : OnlyParts [.regs, .staged] s (l.foldl State.inForce s) :=
  foldl_keeps (OnlyParts [.regs, .staged]) (fun _ => OnlyParts.refl _ _) OnlyParts.trans l s (fun _ x hx => inForce_only (hp x hx))

theorem foldl_inForce_raw_ne (s : State) {a : Nat} (ha : a ∉ l.map (·.addr)) : (l.foldl State.inForce s).raw a = s.raw a :=
  foldl_keeps (fun t u : State => u.raw a = t.raw a) (fun _ => rfl) (fun h k => k.trans h) l s
    (fun _ x hx => inForce_raw_ne (fun e => ha (List.mem_map.mpr ⟨x, hx, e.symm⟩)))

theorem foldl_inForce_fld (s : State) (hp : ∀ x ∈ l, x.Placed) (ho : l.Pairwise Staged.Other) {x : Staged} (hx : x ∈ l) :
    (l.foldl State.inForce s).fld ⟨x.addr, x.lsb, x.width⟩ = x.val := by
  obtain ⟨t, -, ht⟩ := foldl_view (V := fun t : State => t.fld ⟨x.addr, x.lsb, x.width⟩) (fun _ _ h => h.symm) l s
    (fun t y hy ho => inForce_fld_beside (hp y hy) (fun ha => (hp x hx).beside (hp y hy) ho.symm ha)) hx ho
  exact ht.trans (inForce_fld_self (hp x hx))

end ForceAll

/-! ### What follows from new values -/

theorem State.zoneStep_only (s : State) (cause : Nat) : OnlyParts [.dst, .regs, .records] s (s.zoneStep cause) := by
  have hdst : ∀ (t : State) (x : DstState), OnlyParts [.dst] t { t with dst := x } := fun t x => t.updDst_only (fun _ => x)
  unfold State.zoneStep
  dsimp only
  split
  · exact OnlyParts.refl s _
  · split
    · exact ((hdst s _).comp (State.recState_only _ _ _ _)).mono (by decide)
    · split
      · have hb := (hdst s { s.dst with zone := s.zoneNow }).comp (State.bump_only _ F.DST_CNT0.AMBER_ENTRIES (by decide))
        split
        · split
          · exact hb.mono (by decide)
          · exact (hb.comp ((hdst _ _).comp (State.recState_only _ _ _ _))).mono (by decide)
        · exact (hb.comp ((hdst _ _).comp (State.recState_only _ _ _ _))).mono (by decide)
      · exact ((hdst s _).comp ((State.bump_only _ F.DST_CNT0.RED_ENTRIES (by decide)).comp (State.recordFull_only _ _ _ _ _ _ _ _ _))).mono
          (by decide)

/-- Zone changes are counted in DST_CNT0, and no other register differs. -/
theorem State.zoneStep_raw_ne (s : State) (cause : Nat) {a : Nat} (ha : a ≠ Addr.DST_CNT0) : (s.zoneStep cause).raw a = s.raw a := by
  have hdst : ∀ (t : State) (x : DstState), ({ t with dst := x } : State).raw a = t.raw a := fun _ _ => rfl
  have hamber : ∀ t : State, (t.bump F.DST_CNT0.AMBER_ENTRIES).raw a = t.raw a := fun t => State.raw_bumpBy_ne t _ 1 ha
  have hred : ∀ t : State, (t.bump F.DST_CNT0.RED_ENTRIES).raw a = t.raw a := fun t => State.raw_bumpBy_ne t _ 1 ha
  have hrec : ∀ (t : State) (sev : Nat) (i : Island) (f : Fld), (t.recState sev i f).raw a = t.raw a :=
    fun t sev i f => State.raw_congr (State.recState_regs t sev i f) a
  have hfull : ∀ (t : State) (sev : Nat) (i : Island) (c n o r : Nat) (x y : Word), (t.recordFull sev i c n o r x y).raw a = t.raw a :=
    fun t sev i c n o r x y => State.raw_congr (State.recordFull_regs t sev i c n o r x y) a
  unfold State.zoneStep
  dsimp only
  split
  · rfl
  · split
    · rw [hrec, hdst]
    · split
      · split
        · split
          · rw [hamber, hdst]
          · rw [hrec, hdst, hamber, hdst]
        · rw [hrec, hdst, hamber, hdst]
      · rw [hfull, hred, hdst]

/-- The parts and registers that new values of window `w` change besides their own. -/
def followParts (w : Nat) : List Part := if w = 1 then [.seq] else if w = 6 then [.dst, .draws, .records] else []
def followRegs (w : Nat) : List Nat := if w = 6 then [Addr.DST_CNT0] else []

theorem State.followStaged_effect (old s : State) (w : Nat) :
    OnlyParts (.regs :: followParts w) s (old.followStaged w s) ∧ ∀ a, a ∉ followRegs w → (old.followStaged w s).raw a = s.raw a := by
  by_cases h1 : w = 1
  · subst h1
    exact ⟨(s.updSeq_only _).mono (by decide), fun _ _ => rfl⟩
  · by_cases h6 : w = 6
    · subst h6
      refine ⟨?_, fun a ha => ?_⟩
      · show OnlyParts _ s s.ceilingNow
        unfold State.ceilingNow
        exact ((s.updDst_only (fun _ => s.ceilingTerms s.dst.hupCode)).comp
          ((State.zoneStep_only _ 1).comp (State.drawFree_only _))).mono (by decide)
      · show s.ceilingNow.raw a = s.raw a
        unfold State.ceilingNow
        exact State.zoneStep_raw_ne { s with dst := s.ceilingTerms s.dst.hupCode } 1 (fun e => ha (by rw [e]; decide))
    · have e : old.followStaged w s = s := by
        unfold State.followStaged
        split
        · exact absurd rfl h1
        · exact absurd rfl h6
        · rfl
      rw [e]
      exact ⟨OnlyParts.refl s _, fun _ _ => rfl⟩

end Sys2Proof.Machine
end

section
namespace Sys2Proof.Machine

/-! ### The staged values of a window -/

/-- The stage register of a window (R10). -/
def stageOf (w : Nat) : Nat := w * 0x100000 + 0x10

section Stage
variable {w : Nat}

theorem isStage_stageOf (hw : w < 20) : isStage (stageOf w) = true := by
  have h : stageOf w % 0x100000 = 0x10 := by unfold stageOf; omega
  have hlt : stageOf w < 0x1400000 := by unfold stageOf; omega
  simp [isStage, h, hlt]

theorem windowOf_stageOf : windowOf (stageOf w) = w := by unfold windowOf stageOf; omega

theorem stageOf_not_blkId : isBlkId (stageOf w) = false := by
  have h : stageOf w % 0x100000 = 0x10 := by unfold stageOf; omega
  simp [isBlkId, h]

theorem stageOf_not_pmu : ∀ w < 20, isPmu (stageOf w) = false := by decide

/-- No field that can be staged stands in a stage register. -/
theorem Staged.Placed.ne_stage {x : Staged} (h : x.Placed) (hw : w < 20) : x.addr ≠ stageOf w := by
  intro e
  have hp := h.plain
  rw [e] at hp
  simp [plainAddr, isStage_stageOf hw] at hp

theorem Staged.Placed.ne_follow {x : Staged} (h : x.Placed) : x.addr ∉ followRegs w := by
  unfold followRegs
  split
  · intro e
    have hp := h.plain
    rw [List.mem_singleton.mp e] at hp
    exact absurd hp (by decide)
  · exact List.not_mem_nil

end Stage

section Apply
variable {s : State} {w : Nat} {p : Staged → Bool}

/-- The staged values of window `w` that satisfy `p`. -/
def stagedIn (w : Nat) (p : Staged → Bool) (x : Staged) : Bool := windowOf x.addr == w && p x

/-- The state with the values of a window in force, before its stage register is cleared. -/
def State.forced (s : State) (w : Nat) (p : Staged → Bool) : State :=
  s.followStaged w ((s.staged.filter (stagedIn w p)).foldl State.inForce s)

theorem applyWhere_eq (hs : StagedWell s) (hf : ∀ x ∈ s.staged, windowOf x.addr = w → credField x = false ∧ s.fenceSet x = none) :
    s.applyWhere w p = if (s.forced w p).stagePending w then s.forced w p else (s.forced w p).setRaw (stageOf w) 0 := by
  have hfold : (s.staged.filter (stagedIn w p)).foldl (fun (t : State) x => t.forceOne x) s =
      (s.staged.filter (stagedIn w p)).foldl State.inForce s := by
    refine foldl_forceOne_eq _ s (fun x hx => hs.2 x (List.mem_filter.mp hx).1) (hs.1.filter _) (fun x hx => ?_)
    obtain ⟨hx, hq⟩ := List.mem_filter.mp hx
    simp only [stagedIn, Bool.and_eq_true, beq_iff_eq] at hq
    exact hf x hx hq.1
  have hq : (fun x : Staged => windowOf x.addr == w && p x) = stagedIn w p := rfl
  unfold State.applyWhere
  dsimp only
  rw [hq, hfold]
  unfold State.forced stageOf
  rfl

theorem forced_staged : (s.forced w p).staged = s.staged.filter (fun x => !stagedIn w p x) := by
  have h1 := (s.followStaged_effect ((s.staged.filter (stagedIn w p)).foldl State.inForce s) w).1 .staged (by
    unfold followParts
    split
    · decide
    · split <;> decide)
  have h2 : (s.forced w p).staged = ((s.staged.filter (stagedIn w p)).foldl State.inForce s).staged := h1
  rw [h2, foldl_inForce_staged]
  refine List.filter_congr (fun x hx => ?_)
  cases hq : stagedIn w p x <;> simp [hx, hq]

theorem forced_only (hs : StagedWell s) : OnlyParts ([.regs, .staged] ++ followParts w) s (s.forced w p) :=
  ((foldl_inForce_only s (fun x hx => hs.2 x (List.mem_filter.mp hx).1)).comp (s.followStaged_effect _ w).1).mono (by
    intro q hq
    simp only [List.mem_append, List.mem_cons, List.not_mem_nil, or_false] at hq ⊢
    tauto)

theorem forced_raw_ne {a : Nat} (ha : a ∉ followRegs w) (hb : a ∉ (s.staged.filter (stagedIn w p)).map (·.addr)) :
    (s.forced w p).raw a = s.raw a :=
  ((s.followStaged_effect _ w).2 a ha).trans (foldl_inForce_raw_ne s hb)

theorem forced_fld (hs : StagedWell s) {x : Staged} (hx : x ∈ s.staged) (hq : stagedIn w p x = true) :
    (s.forced w p).fld ⟨x.addr, x.lsb, x.width⟩ = x.val := by
  refine (State.fld_of_raw ((s.followStaged_effect _ w).2 x.addr (Staged.Placed.ne_follow (hs.2 x hx)))).trans ?_
  exact foldl_inForce_fld s (fun y hy => hs.2 y (List.mem_filter.mp hy).1) (hs.1.filter _) (List.mem_filter.mpr ⟨hx, hq⟩)

/-- PENDING reads 0 once nothing of the window is staged. -/
theorem reg_stage_cleared {t : State} (hw : w < 20) (hr : t.raw (stageOf w) = 0) (hp : t.stagePending w = false) : t.reg (stageOf w) = 0 := by
  unfold State.reg
  rw [if_pos (isStage_stageOf hw), windowOf_stageOf, hr, hp]
  rfl

theorem stagePending_congr {t u : State} (h : u.staged = t.staged) : u.stagePending w = t.stagePending w := by
  unfold State.stagePending
  rw [h]

/-- Beside the stage register nothing differs from the state with the values in force. -/
theorem applyWhere_forced (hw : w < 20) (hs : StagedWell s)
    (hf : ∀ x ∈ s.staged, windowOf x.addr = w → credField x = false ∧ s.fenceSet x = none) :
    (s.applyWhere w p).staged = (s.forced w p).staged ∧ (∀ a, a ≠ stageOf w → (s.applyWhere w p).raw a = (s.forced w p).raw a) ∧
    OnlyParts [.regs] (s.forced w p) (s.applyWhere w p) := by
  rw [applyWhere_eq hs hf]
  split
  · exact ⟨rfl, fun _ _ => rfl, OnlyParts.refl _ _⟩
  · exact ⟨State.setRaw_staged _ _ _, fun a ha => State.raw_setRaw_ne _ _ ha, State.setRaw_only _ _ _ (stageOf_not_pmu w hw)⟩

/-- The staged values of a block that satisfy `p` take effect, all together. -/
theorem applyWhere_effect (hw : w < 20) (hs : StagedWell s)
    (hf : ∀ x ∈ s.staged, windowOf x.addr = w → credField x = false ∧ s.fenceSet x = none) :
    TakesEffect s (s.applyWhere w p) (stagedIn w p) (stageOf w :: followRegs w) ∧
    OnlyParts ([.regs, .staged] ++ followParts w) s (s.applyWhere w p) ∧
    (s.staged.all (fun x => !(windowOf x.addr == w) || stagedIn w p x) = true → (s.applyWhere w p).reg (stageOf w) = 0) := by
  obtain ⟨hst, hraw, honly⟩ := applyWhere_forced (p := p) hw hs hf
  refine ⟨⟨hst.trans forced_staged, fun x hx hq => ?_, fun a ha _ => ?_⟩, ?_, fun h => ?_⟩
  · exact (State.fld_of_raw (hraw x.addr (Staged.Placed.ne_stage (hs.2 x hx) hw))).trans (forced_fld hs hx hq)
  · simp only [List.cons_append, List.mem_cons, List.mem_append, not_or] at ha
    obtain ⟨h1, h2, h3⟩ := ha
    exact (hraw a h1).trans (forced_raw_ne h2 h3)
  · exact ((forced_only hs).comp honly).mono (by
      intro q hq
      simp only [List.mem_append, List.mem_cons, List.not_mem_nil, or_false] at hq ⊢
      tauto)
  · have hpend : (s.forced w p).stagePending w = false := by
      unfold State.stagePending
      rw [forced_staged, List.any_eq_false]
      intro x hx hwx
      obtain ⟨hx, hq⟩ := List.mem_filter.mp hx
      have hxa := List.all_eq_true.mp h x hx
      rw [hwx, Bool.not_true, Bool.false_or] at hxa
      rw [hxa] at hq
      exact absurd hq (by decide)
    rw [applyWhere_eq hs hf, hpend, if_neg (by decide)]
    exact reg_stage_cleared hw (State.raw_setRaw_self _ _ _) ((stagePending_congr (State.setRaw_staged _ _ _)).trans hpend)

/-- COMMIT leaves nothing of the window staged. -/
theorem commitStage_eq (hs : StagedWell s) (hf : ∀ x ∈ s.staged, windowOf x.addr = w → credField x = false ∧ s.fenceSet x = none)
    (hw : w < 20) : s.commitStage w = s.applyWhere w (fun _ => true) := by
  have hst : (s.applyWhere w (fun _ => true)).staged = s.staged.filter (fun x => !stagedIn w (fun _ => true) x) :=
    (applyWhere_effect hw hs hf).1.1
  have hpend : (s.applyWhere w (fun _ => true)).stagePending w = false := by
    unfold State.stagePending
    rw [hst, List.any_eq_false]
    intro x hx hwx
    have hq := (List.mem_filter.mp hx).2
    simp [stagedIn, hwx] at hq
  unfold State.commitStage
  dsimp only
  rw [hpend]
  rfl

end Apply

theorem blockIdx_lt (b : Block) : b.idx < 20 := by cases b <;> decide

/-! ### The doorbells of privileged queues (R112) -/

section Doorbell
variable {s : State} {n : Nat} {q : Qp}

/-- The state with PE_PQ_DBn written. -/
def State.ringWritten (s : State) (n tail head : Nat) : State := (s.setFld (F.PE_PQ_DB.SQ_TAIL n) tail).setFld (F.PE_PQ_DB.CQ_HEAD n) head

theorem ringWritten_pe (s : State) (n tail head : Nat) : (s.ringWritten n tail head).pe = s.pe := by
  rw [State.ringWritten, State.setFld_pe, State.setFld_pe]

theorem pqDb_not_pmu (hn : n < 16) : isPmu (Addr.PE_PQ_DB n) = false := by
  simp only [isPmu, Addr.PE_PQ_DB, Addr.PMU_CNT, Addr.PMU_OVF]
  simp
  omega

theorem pqDb_fields (n : Nat) : (F.PE_PQ_DB.SQ_TAIL n).lsb = 0 ∧ (F.PE_PQ_DB.SQ_TAIL n).width = 12 ∧ (F.PE_PQ_DB.CQ_HEAD n).lsb = 16 ∧
    (F.PE_PQ_DB.CQ_HEAD n).width = 12 ∧ (F.PE_PQ_DB.SQ_TAIL n).addr = Addr.PE_PQ_DB n ∧ (F.PE_PQ_DB.CQ_HEAD n).addr = Addr.PE_PQ_DB n :=
  ⟨rfl, rfl, rfl, rfl, rfl, rfl⟩

/-- PE_PQ_DBn holds what was written. -/
theorem ringWritten_effect (hn : n < 16) {tail head : Nat} (ht : tail < 2 ^ 12) (hh : head < 2 ^ 12) :
    OnlyParts [.regs] s (s.ringWritten n tail head) ∧ RegsBut [Addr.PE_PQ_DB n] s (s.ringWritten n tail head) ∧
    (s.ringWritten n tail head).fld (F.PE_PQ_DB.SQ_TAIL n) = tail ∧ (s.ringWritten n tail head).fld (F.PE_PQ_DB.CQ_HEAD n) = head := by
  obtain ⟨tl, tw, hl, hw, ta, ha⟩ := pqDb_fields n
  have htp : isPmu (F.PE_PQ_DB.SQ_TAIL n).addr = false := ta ▸ pqDb_not_pmu hn
  have hhp : isPmu (F.PE_PQ_DB.CQ_HEAD n).addr = false := ha ▸ pqDb_not_pmu hn
  have htm : (F.PE_PQ_DB.SQ_TAIL n).addr ∈ [Addr.PE_PQ_DB n] := List.mem_singleton.mpr ta
  have hhm : (F.PE_PQ_DB.CQ_HEAD n).addr ∈ [Addr.PE_PQ_DB n] := List.mem_singleton.mpr ha
  have htf : (F.PE_PQ_DB.SQ_TAIL n).lsb + (F.PE_PQ_DB.SQ_TAIL n).width ≤ 64 := by rw [tl, tw]; decide
  have hhf : (F.PE_PQ_DB.CQ_HEAD n).lsb + (F.PE_PQ_DB.CQ_HEAD n).width ≤ 64 := by rw [hl, hw]; decide
  have hb : (F.PE_PQ_DB.SQ_TAIL n).lsb + (F.PE_PQ_DB.SQ_TAIL n).width ≤ (F.PE_PQ_DB.CQ_HEAD n).lsb := by rw [tl, tw, hl]; decide
  unfold State.ringWritten
  refine ⟨(State.setFld_only s _ tail htp).trans (State.setFld_only _ _ head hhp),
    (RegsBut.setFld s _ tail htm).trans (RegsBut.setFld _ _ head hhm), ?_, ?_⟩
  · rw [State.fld_setFld_beside _ (F.PE_PQ_DB.CQ_HEAD n) (F.PE_PQ_DB.SQ_TAIL n) _ hhf (ta.trans ha.symm) (.inl hb),
      State.fld_setFld_self _ _ _ htf, tw]
    exact Nat.mod_eq_of_lt ht
  · rw [State.fld_setFld_self _ _ _ hhf, hw]
    exact Nat.mod_eq_of_lt hh

/-- PE_PQ_DBn rings the queue pair's SQ doorbell, then its CQ doorbell. -/
theorem pqDoorbell_eq (s : State) (n v : Nat) : s.pqDoorbell n v =
    (match Tab.get (s.ringWritten n (v % 2 ^ 12) (v / 2 ^ 16 % 2 ^ 12)).pe.qps n with
     | none => s.ringWritten n (v % 2 ^ 12) (v / 2 ^ 16 % 2 ^ 12)
     | some q =>
       match Tab.get ((s.ringWritten n (v % 2 ^ 12) (v / 2 ^ 16 % 2 ^ 12)).ringSq n q (v % 2 ^ 12)).pe.qps n with
       | some q' => ((s.ringWritten n (v % 2 ^ 12) (v / 2 ^ 16 % 2 ^ 12)).ringSq n q (v % 2 ^ 12)).ringCq n q' (v / 2 ^ 16 % 2 ^ 12)
       | none => (s.ringWritten n (v % 2 ^ 12) (v / 2 ^ 16 % 2 ^ 12)).ringSq n q (v % 2 ^ 12)) := rfl

theorem pqDoorbell_none {v : Nat} (h : Tab.get s.pe.qps n = none) :
    s.pqDoorbell n v = s.ringWritten n (v % 2 ^ 12) (v / 2 ^ 16 % 2 ^ 12) := by
  rw [pqDoorbell_eq, ringWritten_pe, h]

theorem get_updQp_self (s : State) (f : Qp → Qp) (h : Tab.get s.pe.qps n = some q) : Tab.get (s.updQp n f).pe.qps n = some (f q) := by
  have e : (s.updQp n f).pe.qps = Tab.upd s.pe.qps n f := rfl
  rw [e, Tab.get_upd_self, h]
  rfl

theorem get_updQp_ne (s : State) (f : Qp → Qp) {k : Nat} (hk : k ≠ n) : Tab.get (s.updQp n f).pe.qps k = Tab.get s.pe.qps k := by
  have e : (s.updQp n f).pe.qps = Tab.upd s.pe.qps n f := rfl
  rw [e, Tab.get_upd_ne _ _ hk]

theorem updQp_raw (s : State) (f : Qp → Qp) (k : Nat) (a : Nat) : (s.updQp k f).raw a = s.raw a := rfl

def Qp.withTail (q : Qp) (tail : Nat) : Qp := { q with sqTail := tail }

/-- The entries up to the host's head are the queue's no more. -/
def Qp.withHead (q : Qp) (head gap : Nat) : Qp := { q with cqHead := head, posted := q.posted.drop gap }

theorem ringSq_in_range (s : State) {tail : Nat} (h : tail < q.depth) : s.ringSq n q tail = s.updQp n (fun x => x.withTail tail) := by
  rw [State.ringSq, if_neg (by omega)]
  rfl

theorem ringCq_in_range (s : State) {head : Nat} (h : head < q.depth) (hg : ringGap q.depth q.cqHead head ≤ q.posted.length) :
    s.ringCq n q head = s.updQp n (fun x => x.withHead head (ringGap q.depth q.cqHead head)) := by
  rw [State.ringCq, if_neg (by omega)]
  rfl

/-- Both doorbells in range: the tail and the head are taken. -/
theorem pqDoorbell_in_range {v : Nat} (h : Tab.get s.pe.qps n = some q) (ht : v % 2 ^ 12 < q.depth) (hh : v / 2 ^ 16 % 2 ^ 12 < q.depth)
    (hg : ringGap q.depth q.cqHead (v / 2 ^ 16 % 2 ^ 12) ≤ q.posted.length) :
    s.pqDoorbell n v = ((s.ringWritten n (v % 2 ^ 12) (v / 2 ^ 16 % 2 ^ 12)).updQp n (fun x => x.withTail (v % 2 ^ 12))).updQp n
      (fun x => x.withHead (v / 2 ^ 16 % 2 ^ 12) (ringGap q.depth q.cqHead (v / 2 ^ 16 % 2 ^ 12))) := by
  have hw : Tab.get (s.ringWritten n (v % 2 ^ 12) (v / 2 ^ 16 % 2 ^ 12)).pe.qps n = some q := by rw [ringWritten_pe, h]
  rw [pqDoorbell_eq, hw]
  dsimp only
  rw [ringSq_in_range _ ht, get_updQp_self _ _ hw]
  exact ringCq_in_range (q := q.withTail (v % 2 ^ 12)) _ hh hg

/-- Both doorbells out of range: DB_RANGE is set, and the queue pair is as it was. -/
theorem pqDoorbell_out_of_range {v : Nat} (h : Tab.get s.pe.qps n = some q) (ht : q.depth ≤ v % 2 ^ 12) (hh : q.depth ≤ v / 2 ^ 16 % 2 ^ 12) :
    s.pqDoorbell n v = (s.ringWritten n (v % 2 ^ 12) (v / 2 ^ 16 % 2 ^ 12)).rangeDoorbell.rangeDoorbell := by
  have hw : Tab.get (s.ringWritten n (v % 2 ^ 12) (v / 2 ^ 16 % 2 ^ 12)).pe.qps n = some q := by rw [ringWritten_pe, h]
  have hd : Tab.get (s.ringWritten n (v % 2 ^ 12) (v / 2 ^ 16 % 2 ^ 12)).rangeDoorbell.pe.qps n = some q := by
    rw [State.rangeDoorbell, State.flag_pe, hw]
  rw [pqDoorbell_eq, hw]
  dsimp only
  rw [State.ringSq, if_pos ht, hd]
  dsimp only
  rw [State.ringCq, if_pos (.inl hh)]

theorem rangeDoorbell_effect (s : State) : OnlyParts [.regs] s s.rangeDoorbell ∧ RegsBut [F.PE_ERR.DB_RANGE.addr] s s.rangeDoorbell ∧
    s.rangeDoorbell.fld F.PE_ERR.DB_RANGE = 1 :=
  ⟨s.flag_only _ (by decide), RegsBut.setFld s _ 1 (List.mem_singleton.mpr rfl), State.fld_flag_self s _ (by decide) (by decide)⟩

end Doorbell
end Sys2Proof.Machine
end

section
namespace Sys2Proof.Machine

/-! ### Writes of the stage and doorbell registers -/

section StageWrite
variable {s : State} {path : Path}

theorem stageOf_toNat {w : Nat} (hw : w < 20) : (BitVec.ofNat 25 (stageOf w)).toNat = stageOf w := by
  rw [BitVec.toNat_ofNat]
  exact Nat.mod_eq_of_lt (by unfold stageOf; omega)

theorem writeReg_commit {w : Nat} (hw : w < 20) : s.writeReg path (stageOf w) 1 = s.commitStage w := by
  unfold State.writeReg
  rw [if_neg (by rw [stageOf_not_blkId]; decide), if_pos (isStage_stageOf hw), if_pos (by decide), windowOf_stageOf]

/-- STAGE_COMMIT is a write of 1 to the stage register. -/
theorem exec_stageCommit {b : Block} (h : Reaches s path (stageOf b.idx)) :
    exec (.stageCommit path b) s = .next (s.commitStage b.idx) := by
  have hb := blockIdx_lt b
  have ho := stageOf_toNat hb
  obtain ⟨hp, -, -, ha, -, -, -, hw⟩ := id h
  have he : exec (.stageCommit path b) s = exec (.registerWrite path (BitVec.ofNat 25 (stageOf b.idx)) 8 [1]) s := rfl
  rw [he, exec_registerWrite_eight hp (by rw [ho]; exact ha) (by rw [ho]; exact hw), ho, writeAt_of_reaches h, writeReg_commit hb]

theorem exec_stagedApply {b : Block} (hr : s.running (windowIsland b.idx) = true) (hq : s.quiet b.idx = true) :
    exec (.stagedApply b) s = .next (s.applyWhere b.idx s.quietField) := by
  show execStagedApply b s = _
  rw [execStagedApply, when_, hr, hq]
  rfl

theorem pqDb_toNat {n : Nat} (hn : n < 16) : (BitVec.ofNat 25 (Addr.PE_PQ_DB n)).toNat = Addr.PE_PQ_DB n := by
  rw [BitVec.toNat_ofNat]
  exact Nat.mod_eq_of_lt (by unfold Addr.PE_PQ_DB; omega)

theorem writeCommand_pqDb {n : Nat} (hn : n < 16) (v : Word) : s.writeCommand path (Addr.PE_PQ_DB n) v = some (s.pqDoorbell n v.toNat) := by
  have hi : (Addr.PE_PQ_DB n - Addr.PE_PQ_DB 0) / 8 = n := by unfold Addr.PE_PQ_DB; omega
  unfold State.writeCommand
  rw [hi]
  simp (disch := (simp only [Addr.PE_PQ_DB, Addr.SEQ_CMD, Addr.SEQ_CH_CMD, Addr.LPS_CMD, Addr.LPS_PAD, Addr.LPS_LOST, Addr.MOD_CMD,
    Addr.FAB_KEY_CMD, Addr.CAL_CMD, Addr.CFL_CMD, Addr.CFL_WP_CLR, Addr.CFL_WP, Addr.DBG_AUTH_CMD, Addr.DBG_AUTH_TAG, Addr.SVC_CMD,
    Addr.GEN_MBOX_CMD]; omega)) only [if_neg]
  exact if_pos (by unfold Addr.PE_PQ_DB; omega)

theorem writeReg_pqDb {n : Nat} (hn : n < 16) (v : Word) : s.writeReg path (Addr.PE_PQ_DB n) v = s.pqDoorbell n v.toNat := by
  have hb : isBlkId (Addr.PE_PQ_DB n) = false := by
    have h : Addr.PE_PQ_DB n % 0x100000 ≠ 0 := by unfold Addr.PE_PQ_DB; omega
    simp [isBlkId, h]
  have hst : isStage (Addr.PE_PQ_DB n) = false := by
    have h : Addr.PE_PQ_DB n % 0x100000 ≠ 0x10 := by unfold Addr.PE_PQ_DB; omega
    simp [isStage, h]
  have hg : ¬(Addr.PE_PQ_DB n = Addr.GEN_PATH_CTL ∧ path ≠ .ctl ∧ path ≠ .mctp) := fun ⟨h, _⟩ => by
    unfold Addr.PE_PQ_DB Addr.GEN_PATH_CTL at h
    omega
  unfold State.writeReg
  rw [hb, hst, if_neg (by decide), if_neg (by decide), if_neg hg, writeCommand_pqDb hn]

/-- PRIVILEGED_DOORBELL is a write of PE_PQ_DBn. -/
theorem exec_privilegedDoorbell {n : BitVec 4} {v : Word} (h : Reaches s path (Addr.PE_PQ_DB n.toNat)) :
    exec (.privilegedDoorbell path n v) s = .next (s.pqDoorbell n.toNat v.toNat) := by
  have hn : n.toNat < 16 := n.isLt
  have ho := pqDb_toNat hn
  obtain ⟨hp, -, -, ha, -, -, -, hw⟩ := id h
  have he : exec (.privilegedDoorbell path n v) s = exec (.registerWrite path (BitVec.ofNat 25 (Addr.PE_PQ_DB n.toNat)) 8 [v]) s := rfl
  rw [he, exec_registerWrite_eight hp (by rw [ho]; exact ha) (by rw [ho]; exact hw), ho, writeAt_of_reaches h, writeReg_pqDb hn]

end StageWrite

/-! ### What the doorbells leave -/

section Rung
variable {s : State} {n : Nat} {q : Qp} {v : Nat}

/-- PE_PQ_DBn holds the tail and the head of the written value. -/
def HoldsRing (n v : Nat) (t : State) : Prop :=
  t.fld (F.PE_PQ_DB.SQ_TAIL n) = v % 4096 ∧ t.fld (F.PE_PQ_DB.CQ_HEAD n) = v / 65536 % 4096

theorem HoldsRing.congr {t u : State} (h : HoldsRing n v t) (hr : u.raw (Addr.PE_PQ_DB n) = t.raw (Addr.PE_PQ_DB n)) : HoldsRing n v u := by
  obtain ⟨-, -, -, -, ta, ha⟩ := pqDb_fields n
  exact ⟨(State.fld_of_raw (by rw [ta]; exact hr)).trans h.1, (State.fld_of_raw (by rw [ha]; exact hr)).trans h.2⟩

theorem ringWritten_holds (hn : n < 16) : OnlyParts [.regs] s (s.ringWritten n (v % 2 ^ 12) (v / 2 ^ 16 % 2 ^ 12)) ∧
    RegsBut [Addr.PE_PQ_DB n] s (s.ringWritten n (v % 2 ^ 12) (v / 2 ^ 16 % 2 ^ 12)) ∧
    HoldsRing n v (s.ringWritten n (v % 2 ^ 12) (v / 2 ^ 16 % 2 ^ 12)) := by
  obtain ⟨ho, hr, ht, hh⟩ := ringWritten_effect (s := s) hn (tail := v % 2 ^ 12) (head := v / 2 ^ 16 % 2 ^ 12)
    (Nat.mod_lt _ (by decide)) (Nat.mod_lt _ (by decide))
  exact ⟨ho, hr, ht, hh⟩

theorem pqDoorbell_idle (hn : n < 16) (h : Tab.get s.pe.qps n = none) :
    HoldsRing n v (s.pqDoorbell n v) ∧ OnlyParts [.regs] s (s.pqDoorbell n v) ∧ RegsBut [Addr.PE_PQ_DB n] s (s.pqDoorbell n v) := by
  obtain ⟨ho, hr, hh⟩ := ringWritten_holds (s := s) (v := v) hn
  rw [pqDoorbell_none h]
  exact ⟨hh, ho, hr⟩

theorem pqDoorbell_rings (hn : n < 16) (h : Tab.get s.pe.qps n = some q) (ht : v % 4096 < q.depth) (hh : v / 65536 % 4096 < q.depth)
    (hg : ringGap q.depth q.cqHead (v / 65536 % 4096) ≤ q.posted.length) :
    HoldsRing n v (s.pqDoorbell n v) ∧ OnlyParts [.regs, .pe] s (s.pqDoorbell n v) ∧ RegsBut [Addr.PE_PQ_DB n] s (s.pqDoorbell n v) ∧
    Tab.get (s.pqDoorbell n v).pe.qps n = some { q with
      sqTail := v % 4096, cqHead := v / 65536 % 4096, posted := q.posted.drop (ringGap q.depth q.cqHead (v / 65536 % 4096)) } ∧
    ∀ k, k ≠ n → Tab.get (s.pqDoorbell n v).pe.qps k = Tab.get s.pe.qps k := by
  obtain ⟨ho, hr, hk⟩ := ringWritten_holds (s := s) (v := v) hn
  have hw : Tab.get (s.ringWritten n (v % 2 ^ 12) (v / 2 ^ 16 % 2 ^ 12)).pe.qps n = some q := by rw [ringWritten_pe, h]
  rw [pqDoorbell_in_range h ht hh hg]
  refine ⟨hk.congr ((updQp_raw _ _ _ _).trans (updQp_raw _ _ _ _)), (ho.comp ((State.updQp_only _ _ _).trans (State.updQp_only _ _ _))).mono (by decide), fun a ha hp => ?_, ?_, fun k hkn => ?_⟩
  · rw [updQp_raw, updQp_raw, hr a ha hp]
  · exact get_updQp_self _ _ (get_updQp_self _ _ hw)
  · rw [get_updQp_ne _ _ hkn, get_updQp_ne _ _ hkn, ringWritten_pe]

theorem pqDoorbell_refuses (hn : n < 16) (h : Tab.get s.pe.qps n = some q) (ht : q.depth ≤ v % 4096) (hh : q.depth ≤ v / 65536 % 4096) :
    HoldsRing n v (s.pqDoorbell n v) ∧ OnlyParts [.regs] s (s.pqDoorbell n v) ∧
    RegsBut [Addr.PE_PQ_DB n, F.PE_ERR.DB_RANGE.addr] s (s.pqDoorbell n v) ∧ (s.pqDoorbell n v).fld F.PE_ERR.DB_RANGE = 1 := by
  obtain ⟨ho, hr, hk⟩ := ringWritten_holds (s := s) (v := v) hn
  obtain ⟨o1, r1, -⟩ := rangeDoorbell_effect (s.ringWritten n (v % 2 ^ 12) (v / 2 ^ 16 % 2 ^ 12))
  obtain ⟨o2, r2, h2⟩ := rangeDoorbell_effect (s.ringWritten n (v % 2 ^ 12) (v / 2 ^ 16 % 2 ^ 12)).rangeDoorbell
  have hne : Addr.PE_PQ_DB n ∉ [F.PE_ERR.DB_RANGE.addr] := by
    have h : Addr.PE_PQ_DB n ≠ Addr.PE_ERR := by unfold Addr.PE_PQ_DB Addr.PE_ERR; omega
    exact fun hm => h (List.mem_singleton.mp hm)
  rw [pqDoorbell_out_of_range h ht hh]
  refine ⟨hk.congr ?_, ho.trans (o1.trans o2), fun a ha hp => ?_, h2⟩
  · rw [r2 _ hne (pqDb_not_pmu hn), r1 _ hne (pqDb_not_pmu hn)]
  · obtain ⟨ha1, ha2⟩ := not_or.mp (mt List.mem_cons.mpr ha)
    rw [r2 a ha2 hp, r1 a ha2 hp, hr a (fun hm => ha1 (List.mem_singleton.mp hm)) hp]

end Rung
end Sys2Proof.Machine

open Sys2Proof Sys2Proof.Machine

/-- Settles O57: with nothing held back each staged value goes into force as its field set, the fields of different values having
no bit in common; the doorbells are a write of PE_PQ_DBn and the two rings. -/
theorem stagedFieldsTakeEffectTogether : Obligations.StagedFieldsTakeEffectTogether := by
  unfold Obligations.StagedFieldsTakeEffectTogether
  dsimp only
  refine ⟨fun s b hs hf => ?_, fun s path n value hr => ?_⟩
  · have hw := blockIdx_lt b
    have hf' : ∀ x ∈ s.staged, windowOf x.addr = b.idx → credField x = false ∧ s.fenceSet x = none :=
      fun x hx he => hf x hx (beq_iff_eq.mpr he)
    have hregs : (if b.idx = 6 then [b.idx * 0x100000 + 0x10, Addr.DST_CNT0] else [b.idx * 0x100000 + 0x10]) =
        stageOf b.idx :: followRegs b.idx := by
      unfold followRegs
      split <;> rfl
    have hmine : stagedIn b.idx (fun _ => true) = fun x => windowOf x.addr == b.idx := by
      funext x
      simp [stagedIn]
    refine ⟨fun path hp => ⟨_, exec_stageCommit hp, ?_⟩, fun hrun hq => ⟨_, exec_stagedApply hrun hq, ?_⟩⟩
    · rw [commitStage_eq hs hf' hw, hregs, ← hmine]
      obtain ⟨h1, h2, h3⟩ := applyWhere_effect (p := fun _ => true) hw hs hf'
      exact ⟨h1, h2, fun _ => h3 (by simp [hmine])⟩
    · rw [hregs]
      exact applyWhere_effect hw hs hf'
  · have hn : n.toNat < 16 := n.isLt
    have he := exec_privilegedDoorbell (v := value) hr
    exact ⟨fun h => ⟨_, he, pqDoorbell_idle hn h⟩, fun q h => ⟨fun ht hh hg => ⟨_, he, pqDoorbell_rings hn h ht hh hg⟩,
      fun ht hh => ⟨_, he, pqDoorbell_refuses hn h ht hh⟩⟩⟩
end

section
/-! SUPPORT. The link side: what an update of it can touch, and frames as they are sent. -/

namespace Sys2Proof.Machine

theorem when_pos {c : Bool} (h : c = true) (s t : State) : when_ c s t = .next t := by rw [when_, if_pos h]

theorem when_neg {c : Bool} (h : c = false) (s t : State) : when_ c s t = .next s := by rw [when_, h]; rfl

section Copies
variable {s t u : State} {l : List Part}

/-- What a read of a device address returns does not depend on the rest of the link side, nor on that of the ingress buffer. -/
theorem State.byte_of_units (hu : t.pst.units = s.pst.units) (hc : t.phl.copies = s.phl.copies) (hn : t.nc = s.nc) (hd : t.ddr = s.ddr)
    (a : Nat) : t.byte a = s.byte a := by
  have hv : t.visibleCells = s.visibleCells := by unfold State.visibleCells; rw [hu, hc]
  have hb : t.backing a = s.backing a := by unfold State.backing; rw [hn, hd]
  unfold State.byte
  rw [hv, hb]

theorem OnlyParts.drop_bytes (h : OnlyParts (l ++ [.bytes]) s t) (hb : ∀ a, t.byte a = s.byte a) : OnlyParts l s t := fun p hp => by
  by_cases hq : p = .bytes
  · exact hq ▸ hb
  · exact h p (by simp [hp, hq])

theorem State.updPhl_quiet (s : State) {f : PhlState → PhlState} (h : (f s.phl).copies = s.phl.copies) : OnlyParts [.phl] s (s.updPhl f) :=
  OnlyParts.drop_bytes (l := [.phl]) (s.updPhl_only f) (State.byte_of_units rfl h rfl rfl)

end Copies

/-! ### Frames on the wire -/

section Wire
variable {s t : State}

/-- A frame's form on the wire depends on ENCRYPT, the fabric root, the pair's nodes, and the link's epoch. -/
theorem State.wire_congr (he : t.on F.PHL_CTL.ENCRYPT = s.on F.PHL_CTL.ENCRYPT) (hn : t.node = s.node) (hc : t.cip = s.cip) (hq : t.seq = s.seq)
    (hp : t.phl.peerNode = s.phl.peerNode) (hl : t.phl.linkEpoch = s.phl.linkEpoch) (f : Frame) : t.wire f = s.wire f := by
  have hodd : t.odd = s.odd := by unfold State.odd; rw [hq]
  have heven : t.evenNode = s.evenNode := by unfold State.evenNode; rw [hodd, hn, hp]
  have hkey : t.mirrorKey = s.mirrorKey := by unfold State.mirrorKey; rw [hc, heven, hl]
  unfold State.wire
  rw [he, hkey, hl, hq]

theorem State.on_of_raw {f : Fld} (h : t.raw f.addr = s.raw f.addr) : t.on f = s.on f := by unfold State.on; rw [State.fld_of_raw h]

theorem State.channel_congr (hf : t.on F.PHL_FB_CTL.FB_ENABLE = s.on F.PHL_FB_CTL.FB_ENABLE) (ht : t.phl.twin = s.phl.twin)
    (hp : t.phl.ph0.up = s.phl.ph0.up) : t.channel = s.channel := by unfold State.channel; rw [hf, ht, hp]

end Wire

/-! ### Frames are sent -/

section Send
variable {s t u : State} {f : Frame}

/-- Sending moves frames from those that wait to those that are out, and takes their credit. -/
def Moves (s t : State) : Prop :=
  t.phl.unconfirmed = s.phl.unconfirmed ∧
  t.phl = { s.phl with txWait := t.phl.txWait, unacked := t.phl.unacked, credit := t.phl.credit, sentAt := t.phl.sentAt }

theorem Moves.trans (h : Moves s t) (k : Moves t u) : Moves s u := by
  obtain ⟨h1, h2⟩ := h
  obtain ⟨k1, k2⟩ := k
  refine ⟨k1.trans h1, k2.trans ?_⟩
  rw [h2]

theorem sendNext_moves (s : State) : Moves s s.sendNext := by
  unfold State.sendNext
  split
  next fb f l _ hw =>
    split
    · exact ⟨by simp [PhlState.unconfirmed, hw], rfl⟩
    · exact ⟨rfl, rfl⟩
  next => exact ⟨rfl, rfl⟩

theorem sendWaiting_moves (k : Nat) : ∀ s : State, Moves s (s.sendWaiting k) := by
  induction k with
  | zero => exact fun _ => ⟨rfl, rfl⟩
  | succ k ih => exact fun s => (sendNext_moves s).trans (ih s.sendNext)

theorem sendFrames_moves (s : State) : Moves s s.sendFrames := sendWaiting_moves _ s

theorem sendFrames_none (h : s.phl.txWait = []) : s.sendFrames = s := by rw [State.sendFrames, h]; rfl

/-- The frame as it is numbered. -/
def State.numbered (s : State) (f : Frame) : Frame := { f with msn := s.phl.txNext, epoch := s.phl.epoch % 65536 }

theorem sendFrame_phl (s : State) (f : Frame) : (s.sendFrame f).phl = (s.numberFrame f).sendFrames.phl := by
  rw [State.sendFrame, State.countEvent_phl]

theorem sendFrame_out (s : State) (f : Frame) : (s.sendFrame f).out = (s.numberFrame f).sendFrames.out := by
  rw [State.sendFrame, State.countEvent_out]

theorem numberFrame_phl (s : State) (f : Frame) : (s.numberFrame f).phl =
    { s.phl with txNext := (s.phl.txNext + 1) % 2 ^ 32, txWait := s.phl.txWait ++ [s.numbered f] } := rfl

/-- Of the link side a frame sent takes its number and a place among those sent or waiting. -/
theorem sendFrame_link (s : State) (f : Frame) : (s.sendFrame f).phl = { s.phl with
    txNext := (s.phl.txNext + 1) % 2 ^ 32, txWait := (s.sendFrame f).phl.txWait, unacked := (s.sendFrame f).phl.unacked
    credit := (s.sendFrame f).phl.credit, sentAt := (s.sendFrame f).phl.sentAt } := by
  obtain ⟨-, h⟩ := sendFrames_moves (s.numberFrame f)
  rw [sendFrame_phl]
  exact h

theorem sendFrame_unconfirmed (s : State) (f : Frame) : (s.sendFrame f).phl.unconfirmed = s.phl.unconfirmed ++ [s.numbered f] := by
  obtain ⟨h, -⟩ := sendFrames_moves (s.numberFrame f)
  rw [sendFrame_phl, h, numberFrame_phl]
  simp [PhlState.unconfirmed]

theorem sendFrame_txNext (s : State) (f : Frame) : (s.sendFrame f).phl.txNext = (s.phl.txNext + 1) % 2 ^ 32 := by rw [sendFrame_link]

theorem numberFrame_wire (s : State) (f g : Frame) : (s.numberFrame f).wire g = s.wire g :=
  State.wire_congr (State.on_of_raw (State.raw_congr rfl _)) (State.fld_congr rfl _) rfl rfl rfl rfl g

theorem numberFrame_channel (s : State) (f : Frame) : (s.numberFrame f).channel = s.channel :=
  State.channel_congr (State.on_of_raw (State.raw_congr rfl _)) rfl rfl

/-- With none waiting before it, the frame is the only one to be sent. -/
theorem sendFrames_one (s : State) (f : Frame) (h : s.phl.txWait = []) : (s.numberFrame f).sendFrames = (s.numberFrame f).sendNext := by
  rw [State.sendFrames, numberFrame_phl, h]
  rfl

/-- A live channel and credit for it: the frame goes out. -/
theorem sendFrame_goes (s : State) (f : Frame) (h : s.phl.txWait = []) {fb : Bool} (hc : s.channel = some fb)
    (hn : frameCredits f.data.length ≤ s.phl.credit) : (s.sendFrame f).phl.unacked = s.phl.unacked ++ [s.numbered f] ∧
    (s.sendFrame f).phl.credit = s.phl.credit - frameCredits f.data.length ∧
    (s.sendFrame f).out = s.out ++ [Out.phFrame (chanOf fb) (s.wire (s.numbered f))] := by
  have hw : (s.numberFrame f).phl.txWait = [s.numbered f] := by rw [numberFrame_phl, h]; rfl
  have e : (s.numberFrame f).sendFrames = { s.numberFrame f with
      phl := { (s.numberFrame f).phl with txWait := [], unacked := s.phl.unacked ++ [s.numbered f]
                                          credit := s.phl.credit - frameCredits f.data.length
                                          sentAt := Tab.put s.phl.sentAt s.phl.txNext s.time }
      out := s.out ++ [Out.phFrame (chanOf fb) (s.wire (s.numbered f))] } := by
    rw [sendFrames_one s f h, State.sendNext, numberFrame_channel, hc, hw]
    dsimp only
    rw [numberFrame_wire]
    exact if_pos hn
  rw [sendFrame_phl, sendFrame_out, e]
  exact ⟨rfl, rfl, rfl⟩

/-- No live channel or no credit for it: the frame waits. -/
theorem sendFrame_waits (s : State) (f : Frame) (h : s.phl.txWait = []) (hc : s.channel = none ∨ s.phl.credit < frameCredits f.data.length) :
    (s.sendFrame f).phl.txWait = [s.numbered f] ∧ (s.sendFrame f).phl.unacked = s.phl.unacked ∧ (s.sendFrame f).phl.credit = s.phl.credit ∧
    (s.sendFrame f).out = s.out := by
  have hw : (s.numberFrame f).phl.txWait = [s.numbered f] := by rw [numberFrame_phl, h]; rfl
  have e : (s.numberFrame f).sendFrames = s.numberFrame f := by
    rw [sendFrames_one s f h, State.sendNext, numberFrame_channel, hw]
    rcases hc with hc | hc
    · rw [hc]
    · have hn : ¬frameCredits (s.numbered f).data.length ≤ (s.numberFrame f).phl.credit := Nat.not_le.mpr hc
      split
      next fb g l hg hl =>
        obtain ⟨rfl, rfl⟩ := List.cons.inj hl
        exact if_neg hn
      next => rfl
  rw [sendFrame_phl, sendFrame_out, e]
  exact ⟨hw, rfl, rfl, rfl⟩

theorem sendFrame_sends (s : State) (f : Frame) : Sends s (s.sendFrame f) f :=
  ⟨sendFrame_unconfirmed s f, sendFrame_txNext s f, fun h => ⟨fun fb hc hn => by
    obtain ⟨h1, h2, h3⟩ := sendFrame_goes s f h hc hn
    exact ⟨h1, h2, by rw [h3]; exact List.mem_append_right _ (List.mem_singleton.mpr rfl)⟩,
    fun hc => by
      obtain ⟨h1, -, h3, -⟩ := sendFrame_waits s f h hc
      exact ⟨h1, h3⟩⟩⟩

/-- A step before the frame that leaves the stream as it is. -/
theorem Sends.before (h : Sends t u f) (hu : t.phl.unacked = s.phl.unacked) (hw : t.phl.txWait = s.phl.txWait) (hn : t.phl.txNext = s.phl.txNext)
    (he : t.phl.epoch = s.phl.epoch) (hc : t.phl.credit = s.phl.credit) (hch : t.channel = s.channel) (hwire : ∀ g, t.wire g = s.wire g) :
    Sends s u f := by
  obtain ⟨h1, h2, h3⟩ := h
  rw [hn, he, PhlState.unconfirmed, PhlState.unconfirmed, hu, hw] at h1
  rw [hn] at h2
  rw [hn, he, hw, hu, hc, hch, hwire] at h3
  exact ⟨h1, h2, h3⟩

/-- A step after the frame that leaves the stream as it is. -/
theorem Sends.after (h : Sends s t f) (hu : u.phl.unacked = t.phl.unacked) (hw : u.phl.txWait = t.phl.txWait) (hn : u.phl.txNext = t.phl.txNext)
    (hc : u.phl.credit = t.phl.credit) (ho : t.out ⊆ u.out) : Sends s u f := by
  obtain ⟨h1, h2, h3⟩ := h
  refine ⟨by rw [PhlState.unconfirmed, hu, hw]; exact h1, by rw [hn]; exact h2, fun h => ?_⟩
  obtain ⟨h4, h5⟩ := h3 h
  refine ⟨fun fb hch hcr => ?_, fun hx => ?_⟩
  · obtain ⟨h6, h7, h8⟩ := h4 fb hch hcr
    exact ⟨hu.trans h6, hc.trans h7, ho h8⟩
  · obtain ⟨h6, h7⟩ := h5 hx
    exact ⟨hw.trans h6, hc.trans h7⟩

end Send
end Sys2Proof.Machine
end

section
/-! SUPPORT. The ports (07 R222, R223, R225). -/

namespace Sys2Proof.Machine

section Counting
variable {s t u : State} {f : Fld} {n : Nat}

theorem rises_bumpBy (s : State) (h : f.lsb + f.width ≤ 64) (n : Nat) : Rises s (s.bumpBy f n) f n := State.fld_bumpBy_self s f n h

theorem Rises.before (h : Rises t u f n) (hs : t.raw f.addr = s.raw f.addr) : Rises s u f n := by
  unfold Rises at h ⊢
  rw [h, State.fld_of_raw hs]

theorem Rises.after (h : Rises s t f n) (hu : u.raw f.addr = t.raw f.addr) : Rises s u f n := (State.fld_of_raw hu).trans h

end Counting

section Port
variable {s t u : State} {p : PhPort} {y : PhState}

/-- The port is in state `y`, the other as it was, and the frames are none other. -/
def PortAt (s t : State) (p : PhPort) (y : PhState) : Prop :=
  t.ph p = y ∧ (∀ r, r ≠ p → t.ph r = s.ph r) ∧ t.phl.unacked = s.phl.unacked ∧ t.phl.copies = s.phl.copies ∧
  t.phl.rxNext = s.phl.rxNext ∧ t.phl.txNext = s.phl.txNext

theorem State.ph_of_ports (h0 : u.phl.ph0 = t.phl.ph0) (h1 : u.phl.ph1 = t.phl.ph1) (r : PhPort) : u.ph r = t.ph r := by
  cases r
  · exact h0
  · exact h1

theorem PortAt.after (h : PortAt s t p y) (h0 : u.phl.ph0 = t.phl.ph0) (h1 : u.phl.ph1 = t.phl.ph1) (ha : u.phl.unacked = t.phl.unacked)
    (hc : u.phl.copies = t.phl.copies) (hr : u.phl.rxNext = t.phl.rxNext) (hx : u.phl.txNext = t.phl.txNext) : PortAt s u p y := by
  obtain ⟨k1, k2, k3, k4, k5, k6⟩ := h
  have hp := State.ph_of_ports h0 h1
  exact ⟨(hp p).trans k1, fun r hr => (hp r).trans (k2 r hr), ha.trans k3, hc.trans k4, hr.trans k5, hx.trans k6⟩

theorem PortAt.of_phl (h : PortAt s t p y) (e : u.phl = t.phl) : PortAt s u p y := by
  refine h.after ?_ ?_ ?_ ?_ ?_ ?_ <;> rw [e]

theorem setPh_at (s : State) (p : PhPort) (y : PhState) : PortAt s (s.setPh p y) p y := by
  cases p
  · exact ⟨rfl, fun r hr => by cases r; exact absurd rfl hr; rfl, rfl, rfl, rfl, rfl⟩
  · exact ⟨rfl, fun r hr => by cases r; rfl; exact absurd rfl hr, rfl, rfl, rfl, rfl⟩

theorem setPh_only (s : State) (p : PhPort) (y : PhState) : OnlyParts [.phl] s (s.setPh p y) := by
  cases p
  · exact s.updPhl_quiet rfl
  · exact s.updPhl_quiet rfl

theorem setPh_raw (s : State) (p : PhPort) (y : PhState) (a : Nat) : (s.setPh p y).raw a = s.raw a := by cases p <;> rfl

/-- LINK_ID's identity does not depend on the ports. -/
theorem State.identity_congr (hr : t.regs = s.regs) (hq : t.seq = s.seq) (hd : t.dst = s.dst) (hm : t.mod = s.mod)
    (hp : t.phl.primary = s.phl.primary) (he : t.phl.epoch = s.phl.epoch) (ht : t.phl.txNext = s.phl.txNext)
    (ha : t.phl.txAcked = s.phl.txAcked) (hx : t.phl.rxNext = s.phl.rxNext) : t.identity = s.identity := by
  have hon : t.on F.PHL_CTL.ENCRYPT = s.on F.PHL_CTL.ENCRYPT := State.on_of_raw (State.raw_congr hr _)
  have hkept : t.keptImage = s.keptImage := by unfold State.keptImage; rw [hm]
  have hnode : t.node = s.node := State.fld_congr hr _
  unfold State.identity
  rw [hon, hkept, hnode, State.fld_congr hr, hq, hd, hp, he, ht, ha, hx]

/-- The port comes up with its LINK_ID sent; the twin's LINK_ID is to come again where PH0 carries it. -/
theorem sendLinkId_effect (s : State) (p : PhPort) (y : PhState) (hu : y.up = false) :
    let t := (match p with
      | .ph0 => (s.setPh p y).updPhl (fun x => { x with linkIdSeen := false })
      | .ph1 => s.setPh p y).sendLinkId p.chan
    OnlyParts [.phl, .out] s t ∧ PortAt s t p y ∧ (t.ph p).up = false ∧ t.phl.twin = s.phl.twin ∧
    t.phl.linkIdSeen = (s.phl.linkIdSeen && p == .ph1) ∧
    t.out = s.out ++ [.phFrame p.chan ({ Frame.mk0 11 with epoch := s.phl.epoch % 65536, data := s.identity }.plain)] := by
  have hat := setPh_at s p y
  have ho := setPh_only s p y
  cases p
  · refine ⟨(ho.trans (State.updPhl_quiet _ rfl)).comp (State.emit_only _ _), hat, hu, rfl, (Bool.and_false _).symm, ?_⟩
    rw [State.sendLinkId, State.emit_out, State.identity_congr (s := s) rfl rfl rfl rfl rfl rfl rfl rfl rfl]
    rfl
  · refine ⟨ho.comp (State.emit_only _ _), hat, hu, rfl, (Bool.and_true _).symm, ?_⟩
    rw [State.sendLinkId, State.emit_out, State.identity_congr (s := s) rfl rfl rfl rfl rfl rfl rfl rfl rfl]
    rfl

theorem exec_phLinkUp (hr : s.running .phl = true) (p : PhPort) (wide : Bool) (he : s.on F.PHL_CTL.ENABLE = true) (ht : (s.ph p).trained = false)
    (hl : s.lanesTrained 5 p.idx = true) : exec (.phLinkUp p wide) s = .next ((match p with
      | .ph0 => (s.setPh p { PhState.reset with trained := true, width := if wide then 8 else 4 }).updPhl (fun x => { x with linkIdSeen := false })
      | .ph1 => s.setPh p { PhState.reset with trained := true, width := if wide then 8 else 4 }).sendLinkId p.chan) :=
  when_pos (by rw [hr, he, ht, hl]; rfl) _ _

theorem exec_phLinkUp_untrained (p : PhPort) (wide : Bool) (hl : s.lanesTrained 5 p.idx = false) : exec (.phLinkUp p wide) s = .next s :=
  when_neg (by rw [hl, Bool.and_false]) _ _

/-- No kept flit has been replayed often enough to fail the port. -/
theorem replayed_below (l : List (Nat × Nat)) (first count : Nat) (h : ∀ e ∈ l, first ≤ e.1 → e.1 < first + count → e.2 < 7) :
    (replayed l first count).any (fun e => decide (8 ≤ e.2)) = false := by
  rw [List.any_eq_false]
  intro e he
  obtain ⟨i, hi, rfl⟩ := List.mem_map.mp he
  have hic : i < count := List.mem_range.mp hi
  rw [decide_eq_true_eq, not_le]
  cases hf : l.find? (fun e => e.1 == first + i) with
  | none => exact (by decide : 0 + 1 < 8)
  | some x =>
    have hx : x.1 = first + i := by simpa using List.find?_some hf
    have h7 := h x (List.mem_of_find?_eq_some hf) (by omega) (by omega)
    exact Nat.succ_lt_succ h7

theorem exec_flitReplay (hr : s.running .phl = true) (ht : (s.ph p).trained = true) {first : BitVec 64} {count : BitVec 9} (hc : count.toNat ≤ 256)
    (hf : (s.ph p).fack ≤ first.toNat)
    (h7 : ∀ e ∈ (s.ph p).flits, first.toNat ≤ e.1 → e.1 < first.toNat + count.toNat → e.2 < 7) :
    exec (.flitReplay p first count) s = .next ((s.setPh p { s.ph p with
      flits := replayed (s.ph p).flits first.toNat count.toNat, fack := first.toNat }).bumpBy F.PHL_CNT0.REPLAYS count.toNat) := by
  have hlt := replayed_below (s.ph p).flits first.toNat count.toNat h7
  show execFlitReplay p first count s = _
  unfold execFlitReplay
  rw [when_pos (by rw [hr, ht, decide_eq_true hc, decide_eq_true hf]; rfl), hlt]
  rfl

theorem flitReplay_effect (s : State) (p : PhPort) (y : PhState) (n : Nat) :
    let t := (s.setPh p y).bumpBy F.PHL_CNT0.REPLAYS n
    OnlyParts [.phl, .regs] s t ∧ RegsBut [Addr.PHL_CNT0] s t ∧ Rises s t F.PHL_CNT0.REPLAYS n ∧ PortAt s t p y := by
  refine ⟨(setPh_only s p y).comp (State.bumpBy_only _ _ _ (by decide)), fun a ha _ => ?_,
    (rises_bumpBy _ (by decide) n).before (setPh_raw s p y _), (setPh_at s p y).of_phl (State.bumpBy_phl ..)⟩
  rw [State.raw_bumpBy_ne _ _ _ (fun h => ha (List.mem_singleton.mpr h)), setPh_raw]

theorem widthDegrade_effect (s : State) (p : PhPort) (y : PhState) :
    let t := ((s.setPh p y).bump F.PHL_CNT1.DEGRADES).record sevError .phl 3 32 p.idx Addr.PHL_CNT1
    OnlyParts [.phl, .regs, .records] s t ∧ RegsBut [Addr.PHL_CNT1] s t ∧ Rises s t F.PHL_CNT1.DEGRADES 1 ∧ PortAt s t p y := by
  have hraw : ∀ a, (((s.setPh p y).bump F.PHL_CNT1.DEGRADES).record sevError .phl 3 32 p.idx Addr.PHL_CNT1).raw a =
      ((s.setPh p y).bump F.PHL_CNT1.DEGRADES).raw a := fun a => State.raw_congr (State.record_regs ..) a
  refine ⟨((setPh_only s p y).comp (State.bump_only _ F.PHL_CNT1.DEGRADES (by decide))).comp
    (State.record_only _ sevError .phl 3 32 p.idx Addr.PHL_CNT1), fun a ha _ => ?_,
    ((rises_bumpBy _ (by decide) 1).before (setPh_raw s p y _)).after (hraw _), (setPh_at s p y).of_phl ?_⟩
  · rw [hraw, State.bump, State.raw_bumpBy_ne _ _ _ (fun h => ha (List.mem_singleton.mpr h)), setPh_raw]
  · rw [State.record_phl, State.bump_phl]

/-- The port's flag is set with its record. -/
theorem failPort_flag (s : State) (p : PhPort) (y : PhState) {f : Fld} (hf : f.addr = Addr.PHL_ERR) (hw : f.lsb + f.width ≤ 64) (h0 : 0 < f.width)
    (n : Nat) : let t := (s.setPh p y).recFlag sevError .phl f n
    OnlyParts [.phl, .regs, .records] s t ∧ RegsBut [Addr.PHL_ERR] s t ∧ t.fld f = 1 ∧ PortAt s t p y := by
  have hr : ∀ a, ((s.setPh p y).recFlag sevError .phl f n).raw a = ((s.setPh p y).flag f).raw a := fun a => State.raw_congr (State.record_regs ..) a
  refine ⟨(setPh_only s p y).comp (State.recFlag_only _ _ _ _ _ (by rw [hf]; decide)), fun a ha _ => ?_, ?_,
    (setPh_at s p y).of_phl (State.recFlag_phl ..)⟩
  · rw [hr, State.raw_flag_ne _ _ (fun h => ha (List.mem_singleton.mpr (h.trans hf))), setPh_raw]
  · rw [State.fld_of_raw (hr _), State.fld_flag_self _ _ hw h0]

end Port
end Sys2Proof.Machine
end

section
/-! SUPPORT. The twin state changes: the mode that follows it, and a port that fails (07 R223, R242; 16 Table MOD-2). -/

namespace Sys2Proof.Machine

section TwinState
variable {s t : State}

/-- The modes in which a device with its twin goes on. -/
def Holds (m : Mode) : Prop := m = .serve ∨ m = .drain ∨ m = .service

theorem settleMode_holds (hm : Holds s.mod.mode) (ht : s.phl.twin = .paired ∨ s.phl.twin = .fallback) : s.settleMode = s := by
  unfold State.settleMode
  obtain hm | hm | hm := hm <;> obtain ht | ht := ht <;> rw [hm, ht]

/-- Restore goes on while pages are left, also without the twin or with it back. -/
theorem settleMode_restoring (h : Restoring s) (ht : s.phl.twin = .paired ∨ s.phl.twin = .alone) : s.settleMode = s := by
  obtain ⟨hm, hp⟩ := h
  have he : s.unrestoredPages.isEmpty = false := by simpa using hp
  unfold State.settleMode
  obtain ht | ht := ht <;> rw [hm, ht] <;> dsimp only <;> rw [he] <;> rfl

theorem settleMode_unconfirmed (ht : s.phl.twin = .unconfirmed) : s.settleMode = s := by
  unfold State.settleMode
  cases hm : s.mod.mode <;> rw [ht]

theorem settleMode_solo_paired (hm : s.mod.mode = .solo) (ht : s.phl.twin = .paired) : s.settleMode = s.toMode .serve sevNotice := by
  unfold State.settleMode
  rw [hm, ht]

/-- The twin state as it is entered, before the mode follows. -/
def State.twinSet (s : State) (w : Twin) (sev : Nat) : State := (s.updPhl (fun x => { x with twin := w })).recState sev .phl F.PHL_STATUS.TWIN_STATE

theorem setTwin_eq (s : State) (w : Twin) (sev : Nat) : s.setTwin w sev = (s.twinSet w sev).settleMode := rfl

theorem twinSet_only (s : State) (w : Twin) (sev : Nat) : OnlyParts [.phl, .records] s (s.twinSet w sev) :=
  (s.updPhl_quiet rfl).comp (State.recState_only _ sev .phl F.PHL_STATUS.TWIN_STATE)

theorem twinSet_phl (s : State) (w : Twin) (sev : Nat) : (s.twinSet w sev).phl = { s.phl with twin := w } := by
  rw [State.twinSet, State.recState_phl, State.updPhl_phl]

@[simp] theorem twinSet_regs (s : State) (w : Twin) (sev : Nat) : (s.twinSet w sev).regs = s.regs := by simp [State.twinSet]
@[simp] theorem twinSet_mod (s : State) (w : Twin) (sev : Nat) : (s.twinSet w sev).mod = s.mod := by simp [State.twinSet]
@[simp] theorem twinSet_out (s : State) (w : Twin) (sev : Nat) : (s.twinSet w sev).out = s.out := by simp [State.twinSet]
@[simp] theorem twinSet_cip (s : State) (w : Twin) (sev : Nat) : (s.twinSet w sev).cip = s.cip := by simp [State.twinSet]
@[simp] theorem twinSet_seq (s : State) (w : Twin) (sev : Nat) : (s.twinSet w sev).seq = s.seq := by simp [State.twinSet]
@[simp] theorem twinSet_pst (s : State) (w : Twin) (sev : Nat) : (s.twinSet w sev).pst = s.pst := by simp [State.twinSet]
@[simp] theorem twinSet_hst (s : State) (w : Twin) (sev : Nat) : (s.twinSet w sev).hst = s.hst := by simp [State.twinSet]
@[simp] theorem twinSet_dst (s : State) (w : Twin) (sev : Nat) : (s.twinSet w sev).dst = s.dst := by simp [State.twinSet]
@[simp] theorem twinSet_fab (s : State) (w : Twin) (sev : Nat) : (s.twinSet w sev).fab = s.fab := by simp [State.twinSet]
@[simp] theorem twinSet_regions (s : State) (w : Twin) (sev : Nat) : (s.twinSet w sev).regions = s.regions := by simp [State.twinSet]

theorem twinSet_raw (s : State) (w : Twin) (sev a : Nat) : (s.twinSet w sev).raw a = s.raw a := State.raw_congr (twinSet_regs s w sev) a

theorem setTwin_holds {w : Twin} (hm : Holds s.mod.mode) (hw : w = .paired ∨ w = .fallback) (sev : Nat) : s.setTwin w sev = s.twinSet w sev := by
  rw [setTwin_eq]
  exact settleMode_holds (by rw [twinSet_mod]; exact hm) (by rw [twinSet_phl]; exact hw)

theorem Restoring.congr {t : State} (h : Restoring s) (hm : t.mod = s.mod) (hd : t.dst = s.dst) : Restoring t := by
  unfold Restoring State.unrestoredPages
  rw [hm, hd]
  exact h

theorem setTwin_restoring {w : Twin} (h : Restoring s) (hw : w = .paired ∨ w = .alone) (sev : Nat) : s.setTwin w sev = s.twinSet w sev := by
  rw [setTwin_eq]
  exact settleMode_restoring (h.congr (twinSet_mod s w sev) (twinSet_dst s w sev)) (by rw [twinSet_phl]; exact hw)

theorem setTwin_unconfirmed (s : State) (sev : Nat) : s.setTwin .unconfirmed sev = s.twinSet .unconfirmed sev := by
  rw [setTwin_eq]
  exact settleMode_unconfirmed (by rw [twinSet_phl])

theorem setTwin_solo_paired (hm : s.mod.mode = .solo) (sev : Nat) : s.setTwin .paired sev = (s.twinSet .paired sev).toMode .serve sevNotice := by
  rw [setTwin_eq]
  exact settleMode_solo_paired (by rw [twinSet_mod]; exact hm) (by rw [twinSet_phl])

/-- With no frame waiting, those out go again on the fabric where it may carry them. -/
theorem resendFrames_fallback (ht : s.phl.twin = .fallback) (hw : s.phl.txWait = []) : s.resendFrames = { s with
    out := s.out ++ (if s.on F.PHL_FB_CTL.FB_ENABLE then s.phl.unacked.map (fun f => Out.phFrame .fallback (s.wire f)) else []) } := by
  unfold State.resendFrames State.channel
  rw [ht]
  cases s.on F.PHL_FB_CTL.FB_ENABLE
  · exact (congrArg (fun o => { s with out := o }) (List.append_nil s.out)).symm
  · exact sendFrames_none hw

/-- What goes out is all that differs. -/
theorem withOut_only (s : State) (o : List Out) : OnlyParts [.out] s { s with out := o } := by
  intro p hp
  cases p
  case out => exact absurd (List.mem_singleton.mpr rfl) hp
  case regs | pmu | crossings => exact fun _ _ => rfl
  case bytes | ddr => exact fun _ => rfl
  case records => exact ⟨rfl, rfl, fun _ _ => rfl⟩
  case pins => exact ⟨rfl, rfl⟩
  all_goals exact rfl

end TwinState
end Sys2Proof.Machine
end

section
/-! SUPPORT. Ports fail; FALLBACK begins and ends (07 R223, R242, R244). -/

namespace Sys2Proof.Machine

section Fallback
variable {s : State} {p : PhPort}

/-- Counting an entry to FALLBACK changes no frame's form on the wire. -/
theorem bump_wire (s : State) {f : Fld} (hf : f.addr = Addr.PHL_CNT1) (g : Frame) : (s.bump f).wire g = s.wire g := by
  have hraw : ∀ a, a ≠ Addr.PHL_CNT1 → (s.bump f).raw a = s.raw a := fun a ha => State.raw_bumpBy_ne s f 1 (by rw [hf]; exact ha)
  exact State.wire_congr (State.on_of_raw (hraw _ (by decide))) (State.fld_of_raw (hraw _ (by decide))) (State.bump_cip ..) (State.bump_seq ..)
    (by rw [State.bump_phl]) (by rw [State.bump_phl]) g

theorem twinSet_wire (s : State) (w : Twin) (sev : Nat) (g : Frame) : (s.twinSet w sev).wire g = s.wire g :=
  State.wire_congr (State.on_of_raw (twinSet_raw s w sev _)) (State.fld_of_raw (twinSet_raw s w sev _)) (twinSet_cip s w sev)
    (twinSet_seq s w sev) (by rw [twinSet_phl]) (by rw [twinSet_phl]) g

/-- FALLBACK begins in a mode that goes on with it. -/
theorem enterFallback_effect (hm : Holds s.mod.mode) (hw : s.phl.txWait = []) :
    OnlyParts [.phl, .out, .regs, .records] s s.enterFallback ∧ RegsBut [Addr.PHL_CNT1] s s.enterFallback ∧
    Rises s s.enterFallback F.PHL_CNT1.FALLBACK_ENTRIES 1 ∧ s.enterFallback.phl = { s.phl with twin := .fallback } ∧
    s.enterFallback.out = s.out ++ (if s.on F.PHL_FB_CTL.FB_ENABLE then s.phl.unacked.map (fun f => Out.phFrame .fallback (s.wire f)) else []) := by
  have hphl : ((s.twinSet .fallback sevWarn).bump F.PHL_CNT1.FALLBACK_ENTRIES).phl = { s.phl with twin := .fallback } := by
    rw [State.bump_phl, twinSet_phl]
  have hraw : ∀ a, a ≠ Addr.PHL_CNT1 → ((s.twinSet .fallback sevWarn).bump F.PHL_CNT1.FALLBACK_ENTRIES).raw a = s.raw a := fun a ha =>
    (State.raw_bumpBy_ne _ F.PHL_CNT1.FALLBACK_ENTRIES 1 ha).trans (twinSet_raw s _ _ a)
  have hwire : ∀ f, ((s.twinSet .fallback sevWarn).bump F.PHL_CNT1.FALLBACK_ENTRIES).wire f = s.wire f := fun f =>
    (bump_wire _ rfl f).trans (twinSet_wire s _ _ f)
  have hon : ((s.twinSet .fallback sevWarn).bump F.PHL_CNT1.FALLBACK_ENTRIES).on F.PHL_FB_CTL.FB_ENABLE = s.on F.PHL_FB_CTL.FB_ENABLE :=
    State.on_of_raw (hraw _ (by decide))
  have hout : ((s.twinSet .fallback sevWarn).bump F.PHL_CNT1.FALLBACK_ENTRIES).out = s.out := by rw [State.bump_out, twinSet_out]
  rw [State.enterFallback, setTwin_holds hm (.inr rfl), resendFrames_fallback (by rw [hphl]) (by rw [hphl]; exact hw)]
  refine ⟨(((twinSet_only s _ _).comp (State.bump_only _ F.PHL_CNT1.FALLBACK_ENTRIES (by decide))).comp (withOut_only _ _)).mono (by decide),
    fun a ha _ => hraw a (fun h => ha (List.mem_singleton.mpr h)),
    (rises_bumpBy (s.twinSet .fallback sevWarn) (f := F.PHL_CNT1.FALLBACK_ENTRIES) (by decide) 1).before (twinSet_raw s _ _ _), hphl, ?_⟩
  dsimp only
  rw [hout, hon, hphl]
  simp only [hwire]

/-- PH1 fails: its flag and its record. -/
theorem exec_portFailed_ph1 (hr : s.running .phl = true) (ht : (s.ph .ph1).trained = true) : exec (.portFailed .ph1) s =
    .next ((s.setPh .ph1 { PhState.reset with failed := true }).recFlag sevError .phl F.PHL_ERR.PH1_FAIL 1) :=
  when_pos (by rw [hr, ht]; rfl) _ _

/-- PH0 fails with the twins paired: FALLBACK begins. -/
theorem exec_portFailed_ph0 (hr : s.running .phl = true) (ht : (s.ph .ph0).trained = true) (hp : s.phl.twin = .paired) :
    exec (.portFailed .ph0) s =
    .next ((s.setPh .ph0 { PhState.reset with failed := true }).recFlag sevError .phl F.PHL_ERR.PH0_FAIL 0).enterFallback :=
  (when_pos (by rw [hr, ht]; rfl) _ _).trans (congrArg Host.Outcome.next (if_pos hp))

/-- Setting PH0's flag changes no frame's form on the wire. -/
theorem recFlag_wire (s : State) {f : Fld} (hf : f.addr = Addr.PHL_ERR) (sev n : Nat) (g : Frame) : (s.recFlag sev .phl f n).wire g = s.wire g := by
  have hraw : ∀ a, a ≠ Addr.PHL_ERR → (s.recFlag sev .phl f n).raw a = s.raw a := fun a ha =>
    (State.raw_congr (State.record_regs ..) a).trans (State.raw_flag_ne s f (by rw [hf]; exact ha))
  exact State.wire_congr (State.on_of_raw (hraw _ (by decide))) (State.fld_of_raw (hraw _ (by decide))) (State.recFlag_cip ..)
    (State.recFlag_seq ..) (by rw [State.recFlag_phl]) (by rw [State.recFlag_phl]) g

theorem setPh_wire (s : State) (p : PhPort) (y : PhState) (g : Frame) : (s.setPh p y).wire g = s.wire g := by
  cases p <;>
  exact State.wire_congr (State.on_of_raw (setPh_raw s _ y _)) (State.fld_of_raw (setPh_raw s _ y _)) rfl rfl rfl rfl g

theorem portFailed_ph0_effect (hm : s.mod.mode = .serve) (hw : s.phl.txWait = []) (y : PhState) :
    let t := ((s.setPh .ph0 y).recFlag sevError .phl F.PHL_ERR.PH0_FAIL 0).enterFallback
    OnlyParts [.phl, .out, .regs, .records] s t ∧ (RegsBut [Addr.PHL_ERR, Addr.PHL_CNT1] s t ∧ PortAt s t .ph0 y) ∧
    t.fld F.PHL_ERR.PH0_FAIL = 1 ∧ t.phl.twin = .fallback ∧ Rises s t F.PHL_CNT1.FALLBACK_ENTRIES 1 ∧
    t.out = s.out ++ (if s.on F.PHL_FB_CTL.FB_ENABLE then s.phl.unacked.map (fun f => Out.phFrame .fallback (s.wire f)) else []) := by
  intro t
  obtain ⟨o1, r1, f1, p1⟩ := failPort_flag s .ph0 y (f := F.PHL_ERR.PH0_FAIL) rfl (by decide) (by decide) 0
  have hmod : ((s.setPh .ph0 y).recFlag sevError .phl F.PHL_ERR.PH0_FAIL 0).mod = s.mod := State.recFlag_mod ..
  have hphl : ((s.setPh .ph0 y).recFlag sevError .phl F.PHL_ERR.PH0_FAIL 0).phl = { s.phl with ph0 := y } := State.recFlag_phl ..
  obtain ⟨o2, r2, n2, p2, e2⟩ := enterFallback_effect (s := (s.setPh .ph0 y).recFlag sevError .phl F.PHL_ERR.PH0_FAIL 0)
    (by rw [hmod]; exact .inl hm) (by rw [hphl]; exact hw)
  have hraw : ∀ a, a ≠ Addr.PHL_ERR → isPmu a = false → ((s.setPh .ph0 y).recFlag sevError .phl F.PHL_ERR.PH0_FAIL 0).raw a = s.raw a :=
    fun a ha => r1 a (fun h => ha (List.mem_singleton.mp h))
  refine ⟨(o1.comp o2).mono (by decide), ⟨fun a ha hp => ?_, ?_⟩, ?_, by rw [p2], n2.before (hraw _ (by decide) (by decide)), ?_⟩
  · have ha' : a ≠ Addr.PHL_ERR ∧ a ≠ Addr.PHL_CNT1 := by simpa using ha
    rw [r2 a (fun h => ha'.2 (List.mem_singleton.mp h)) hp, hraw a ha'.1 hp]
  · refine p1.after ?_ ?_ ?_ ?_ ?_ ?_ <;> rw [p2]
  · rw [State.fld_of_raw (r2 F.PHL_ERR.PH0_FAIL.addr (by decide) (by decide)), f1]
  · have hon : ((s.setPh .ph0 y).recFlag sevError .phl F.PHL_ERR.PH0_FAIL 0).on F.PHL_FB_CTL.FB_ENABLE = s.on F.PHL_FB_CTL.FB_ENABLE :=
      State.on_of_raw (hraw _ (by decide) (by decide))
    have hout : ((s.setPh .ph0 y).recFlag sevError .phl F.PHL_ERR.PH0_FAIL 0).out = s.out := State.recFlag_out ..
    rw [e2, hon, hphl, hout]
    simp only [recFlag_wire _ (f := F.PHL_ERR.PH0_FAIL) rfl, setPh_wire]

end Fallback
end Sys2Proof.Machine
end

section
/-! SUPPORT. With no unit, extent, record, copy or read open, what settles them leaves the state as it is (02, 07 R240, R248). -/

namespace Sys2Proof.Machine

section Settled
variable {s : State}

theorem updPhl_id {f : PhlState → PhlState} (h : f s.phl = s.phl) : s.updPhl f = s := by unfold State.updPhl; rw [h]

theorem withCopies_id {x : PhlState} {l : List Copy} (h : l = x.copies) : { x with copies := l } = x := by subst h; rfl

theorem serveReads_none (h : s.hst.reads = []) : s.serveReads = s := by
  have e : ({ s with hst := { s.hst with reads := [] } } : State) = s := by rw [← h]
  unfold State.serveReads
  rw [h]
  exact e

theorem settleTwinWait_none (h : s.phl.twinWait = []) : s.settleTwinWait = s := by
  have e : ({ s with phl := { s.phl with twinWait := [] }, out := s.out ++ [] } : State) = s := by rw [← h, List.append_nil]
  unfold State.settleTwinWait
  rw [h]
  exact e

theorem runHmaps_none (h : s.phl.hmapIn = []) : s.runHmaps = s := by
  have e : ({ s with phl := { s.phl with hmapIn := [] } } : State) = s := by rw [← h]
  unfold State.runHmaps
  rw [h]
  exact e

theorem chargeCopies_none (h : s.phl.copies = []) : s.chargeCopies = s := by
  rw [State.chargeCopies, h]
  rfl

theorem takePositions_none (h : s.phl.copies = []) : s.takePositions = s := by
  rw [State.takePositions, h]
  rfl

theorem discardCopies_none (h : s.phl.copies = []) : s.discardCopies = s :=
  updPhl_id (withCopies_id (by rw [h]; rfl))

theorem toMirror_none (h : s.pst.units = []) : s.toMirror = [] := by
  rw [State.toMirror, h]
  rfl

theorem ownUnits_none (h : s.pst.units = []) : s.ownUnits = s := by
  rw [State.ownUnits, h]
  rfl

theorem settleOrdered_none (h : s.pst.units = []) : s.settleOrdered = s := by
  rw [State.settleOrdered, h]
  rfl

theorem setUnits_none (h : s.pst.units = []) (f : CUnit → CUnit) : s.setUnits (s.pst.units.map f) = s := by
  have e : ({ s with pst := { s.pst with units := [] } } : State) = s := by rw [← h]
  unfold State.setUnits
  rw [h]
  exact e

theorem unitsToCopies_none (h : s.pst.units = []) (p : CUnit → Bool) : s.unitsToCopies p = s := by
  have e : ({ s with pst := { s.pst with units := [] }, phl := { s.phl with copies := s.phl.copies ++ [] } } : State) = s := by
    rw [← h, List.append_nil]
  unfold State.unitsToCopies State.setUnits State.updPhl
  rw [h]
  exact e

theorem failExtents_none (h : s.pst.extents = []) (p : Extent → Bool) (st : Status) : s.failExtents p st = s := by
  rw [State.failExtents, h]
  rfl

theorem failItems_none (h : s.cip.logs = []) (st : Status) : s.failItems st = s := by
  rw [State.failItems, h]
  rfl

/-- No log is read again where no region is sealed. -/
theorem rescanLogs_none (h : ∀ e ∈ s.regions, e.2.sealed = false) (p : Region → Bool) : s.rescanLogs p = s := by
  have hf : s.regions.filter (fun e => e.2.sealed && p e.2) = [] := List.filter_eq_nil_iff.mpr (fun e he => by rw [h e he]; simp)
  rw [State.rescanLogs, hf]
  rfl

theorem orphanForwarded_none (hu : s.pst.units = []) (hl : s.cip.logs = []) : s.orphanForwarded = s := by
  have e : ({ s with cip := { s.cip with logs := [] } } : State) = s := by rw [← hl]
  unfold State.orphanForwarded
  rw [setUnits_none hu, State.updCip, hl]
  exact e

theorem soloPolicy_none (hu : s.pst.units = []) (hr : s.hst.reads = []) : s.soloPolicy = s := by
  rw [State.soloPolicy, hu]
  exact serveReads_none hr

/-- The extents the twin reserved for are gone. -/
def State.dropXreqs (s : State) : State := { s with pst := { s.pst with xreqs := [] } }

theorem dropXreqs_only (s : State) : OnlyParts [.pst] s s.dropXreqs := by
  intro p hp
  cases p
  case pst => exact absurd (List.mem_singleton.mpr rfl) hp
  case regs | pmu | crossings => exact fun _ _ => rfl
  case bytes | ddr => exact fun _ => rfl
  case records => exact ⟨rfl, rfl, fun _ _ => rfl⟩
  case pins => exact ⟨rfl, rfl⟩
  all_goals exact rfl

@[simp] theorem dropXreqs_regs (s : State) : s.dropXreqs.regs = s.regs := rfl
@[simp] theorem dropXreqs_pst (s : State) : s.dropXreqs.pst = { s.pst with xreqs := [] } := rfl
@[simp] theorem dropXreqs_phl (s : State) : s.dropXreqs.phl = s.phl := rfl
@[simp] theorem dropXreqs_hst (s : State) : s.dropXreqs.hst = s.hst := rfl
@[simp] theorem dropXreqs_regions (s : State) : s.dropXreqs.regions = s.regions := rfl

theorem soloExtents_none (h : s.pst.extents = []) : s.soloExtents = s.dropXreqs := by
  have e : ({ s with pst := { s.pst with xreqs := [], extents := [] } } : State) = s.dropXreqs := by rw [← h]; rfl
  unfold State.soloExtents
  dsimp only
  rw [failExtents_none h, h]
  exact e

theorem yieldUnits_none (hu : s.pst.units = []) (he : s.pst.extents = []) (hl : s.cip.logs = []) (hr : s.hst.reads = []) : s.yieldUnits = s := by
  unfold State.yieldUnits
  rw [hu]
  dsimp only [List.filter_nil, State.failAll, List.foldl_nil]
  rw [setUnits_none hu, failExtents_none he, failItems_none hl, serveReads_none hr]

/-- The copies of no unit are settled: the counts stay where they are. -/
theorem settleCopies_none (h : s.phl.copies = []) :
    s.settleCopies = (s.bumpBy F.PHL_CNT3.IN_DOUBT_COMMITTED 0).bumpBy F.PHL_CNT3.IN_DOUBT_DROPPED 0 := by
  have hb : s.phl.byUnit = [] := by rw [PhlState.byUnit, h]; rfl
  have hw : s.phl.wholeUnits = ([], []) := by rw [PhlState.wholeUnits, hb]; rfl
  have hnone : (s.phl.copies.filter (fun c => !([] : List Nat).contains c.msn)).map (fun c => { c with committed := true }) = s.phl.copies := by
    rw [h]; rfl
  unfold State.settleCopies
  rw [hw]
  dsimp only
  rw [updPhl_id (withCopies_id hnone), h]
  rfl

/-- With nothing to send, mirror traffic does not wait. -/
theorem pumpMirror_none (h : s.toMirror = []) {fb : Bool} (hc : s.channel = some fb) : s.pumpMirror = s.updPhl (fun x => { x with stalled := false }) := by
  rw [State.pumpMirror, hc, h]
  rfl

theorem unstalled_only (s : State) : OnlyParts [.phl] s (s.updPhl (fun x => { x with stalled := false })) := s.updPhl_quiet rfl

theorem tellOut_none (h : s.svc.chOut = []) : s.tellOut = s := by
  rw [State.tellOut, h]
  rfl

theorem sendPriv_none (h : ∀ e ∈ s.regions, s.ownPriv e.1 = false) : s.sendPriv = s := by
  have hf : s.regions.filter (fun e => s.ownPriv e.1) = [] := List.filter_eq_nil_iff.mpr (fun e he => by rw [h e he]; simp)
  rw [State.sendPriv, hf]
  rfl

/-- The twin sessions are there already. -/
theorem twinSessions_there (h : ∀ n < 2, (s.ses (2 ^ 20 - 1 - n)).isSome = true) : s.twinSessions = s := by
  unfold State.twinSessions
  split
  · rw [List.foldl_cons, if_pos (by rw [h 0 (by decide), Bool.or_true]), List.foldl_cons, if_pos (by rw [h 1 (by decide), Bool.or_true])]
    rfl
  · rfl

end Settled
end Sys2Proof.Machine
end

section
/-! SUPPORT. The twin state moves on: FALLBACK ends, and the device serves alone (07 R240, R244, R248). -/

namespace Sys2Proof.Machine

section Exit
variable {s t : State}

theorem channel_paired (ht : s.phl.twin = .paired) (hu : s.phl.ph0.up = true) : s.channel = some false := by
  unfold State.channel
  rw [ht, hu]
  rfl

theorem toMirror_congr (hp : t.pst = s.pst) (hc : t.phl.twinChOut = s.phl.twinChOut) : t.toMirror = s.toMirror := by
  unfold State.toMirror State.rangeSolo
  rw [hp, hc]

theorem exec_fallbackExit (hr : s.running .phl = true) (ht : s.phl.twin = .fallback) (hu : s.phl.ph0.up = true) (hl : s.phl.linkIdSeen = true) :
    exec .fallbackExit s = .next (s.setTwin .paired sevNotice).pumpMirror :=
  when_pos (by rw [hr, ht, hu, hl]; rfl) _ _

/-- FALLBACK is left for PAIRED, and mirror traffic waits no more. -/
theorem fallbackExit_effect (hm : Holds s.mod.mode) (hu : s.phl.ph0.up = true) (hn : s.toMirror = []) :
    OnlyParts [.phl, .records] s (s.setTwin .paired sevNotice).pumpMirror ∧
    (s.setTwin .paired sevNotice).pumpMirror.phl = { s.phl with twin := .paired, stalled := false } := by
  have hphl := twinSet_phl s .paired sevNotice
  have hmir : (s.twinSet .paired sevNotice).toMirror = [] :=
    (toMirror_congr (twinSet_pst s _ _) (by rw [hphl])).trans hn
  have hch : (s.twinSet .paired sevNotice).channel = some false := channel_paired (by rw [hphl]) (by rw [hphl]; exact hu)
  rw [setTwin_holds hm (.inl rfl), pumpMirror_none hmir hch]
  refine ⟨((twinSet_only s _ _).comp (unstalled_only _)).mono (by decide), ?_⟩
  rw [State.updPhl_phl, hphl]

end Exit

section Alone
variable {s : State}

/-- The link side of a device that serves alone from now on. -/
def PhlState.alone (x : PhlState) : PhlState :=
  { x.quiet with epoch := (x.epoch + 1) % 2 ^ 32, primary := true, leaseRunning := true, guardPassed := false, servedAlone := true
                 linkIdSeen := false, resyncLeft := [], resyncKind := 0, receiver := false }

/-- Regions warn anew of writes at a lower class. -/
def warnAnew (l : Tab Region) : Tab Region := l.map (fun e => (e.1, { e.2 with warned := false }))

/-- Of nothing in doubt nothing is counted. -/
def State.doubtCounted (s : State) : State := (s.bumpBy F.PHL_CNT3.IN_DOUBT_COMMITTED 0).bumpBy F.PHL_CNT3.IN_DOUBT_DROPPED 0

theorem doubtCounted_only (s : State) : OnlyParts [.regs] s s.doubtCounted :=
  (State.bumpBy_only s _ 0 (by decide)).trans (State.bumpBy_only _ F.PHL_CNT3.IN_DOUBT_DROPPED 0 (by decide))

theorem doubtCounted_regsBut (s : State) : RegsBut [Addr.PHL_CNT3] s s.doubtCounted :=
  (RegsBut.bumpBy s F.PHL_CNT3.IN_DOUBT_COMMITTED 0 (List.mem_singleton.mpr rfl)).trans
    (RegsBut.bumpBy _ F.PHL_CNT3.IN_DOUBT_DROPPED 0 (List.mem_singleton.mpr rfl))

@[simp] theorem doubtCounted_phl (s : State) : s.doubtCounted.phl = s.phl := by simp [State.doubtCounted]
@[simp] theorem doubtCounted_pst (s : State) : s.doubtCounted.pst = s.pst := by simp [State.doubtCounted]
@[simp] theorem doubtCounted_regions (s : State) : s.doubtCounted.regions = s.regions := by simp [State.doubtCounted]
@[simp] theorem doubtCounted_cip (s : State) : s.doubtCounted.cip = s.cip := by simp [State.doubtCounted]
@[simp] theorem doubtCounted_hst (s : State) : s.doubtCounted.hst = s.hst := by simp [State.doubtCounted]
@[simp] theorem doubtCounted_mod (s : State) : s.doubtCounted.mod = s.mod := by simp [State.doubtCounted]
@[simp] theorem doubtCounted_dst (s : State) : s.doubtCounted.dst = s.dst := by simp [State.doubtCounted]

/-- The device made ready to serve alone, its twin state and the extents of its twin apart. -/
def State.aloneReady (s : State) : State := { s.updPhl PhlState.alone with regions := warnAnew s.regions }

theorem withRegions_only (s : State) (l : Tab Region) : OnlyParts [.regions] s { s with regions := l } := by
  intro p hp
  cases p
  case regions => exact absurd (List.mem_singleton.mpr rfl) hp
  case regs | pmu | crossings => exact fun _ _ => rfl
  case bytes | ddr => exact fun _ => rfl
  case records => exact ⟨rfl, rfl, fun _ _ => rfl⟩
  case pins => exact ⟨rfl, rfl⟩
  all_goals exact rfl

theorem aloneReady_only (s : State) : OnlyParts [.phl, .regions] s s.aloneReady := (s.updPhl_quiet rfl).comp (withRegions_only _ _)

@[simp] theorem aloneReady_regs (s : State) : s.aloneReady.regs = s.regs := rfl
@[simp] theorem aloneReady_phl (s : State) : s.aloneReady.phl = s.phl.alone := rfl
@[simp] theorem aloneReady_pst (s : State) : s.aloneReady.pst = s.pst := rfl
@[simp] theorem aloneReady_hst (s : State) : s.aloneReady.hst = s.hst := rfl
@[simp] theorem aloneReady_mod (s : State) : s.aloneReady.mod = s.mod := rfl
@[simp] theorem aloneReady_dst (s : State) : s.aloneReady.dst = s.dst := rfl
@[simp] theorem aloneReady_regions (s : State) : s.aloneReady.regions = warnAnew s.regions := rfl

/-- ALONE is entered with nothing open: the twin state is set, and the twin's extents are given up. -/
theorem aloneReady_enters (hs : Settled s) (hr : Restoring s) (hw : s.phl.twinWait = []) (hh : s.phl.hmapIn = []) (sev : Nat) :
    ((((((s.aloneReady.setTwin .alone sev).chargeCopies).ownUnits).soloExtents).soloPolicy).serveReads).settleTwinWait.runHmaps =
    (s.aloneReady.twinSet .alone sev).dropXreqs := by
  obtain ⟨hu, hx, hc, hrd, -, -⟩ := hs
  have hphl : (s.aloneReady.twinSet .alone sev).phl = { s.phl.alone with twin := .alone } := by
    rw [twinSet_phl, aloneReady_phl]
  have hpst : (s.aloneReady.twinSet .alone sev).pst = s.pst := by rw [twinSet_pst, aloneReady_pst]
  have hhst : (s.aloneReady.twinSet .alone sev).hst = s.hst := by rw [twinSet_hst, aloneReady_hst]
  have hset : s.aloneReady.setTwin .alone sev = s.aloneReady.twinSet .alone sev :=
    setTwin_restoring (hr.congr (aloneReady_mod s) (aloneReady_dst s)) (.inr rfl) sev
  rw [hset, chargeCopies_none (by rw [hphl]; exact hc), ownUnits_none (by rw [hpst]; exact hu), soloExtents_none (by rw [hpst]; exact hx),
    soloPolicy_none (by rw [dropXreqs_pst, hpst]; exact hu) (by rw [dropXreqs_hst, hhst]; exact hrd),
    serveReads_none (by rw [dropXreqs_hst, hhst]; exact hrd), settleTwinWait_none (by rw [dropXreqs_phl, hphl]; exact hw),
    runHmaps_none (by rw [dropXreqs_phl, hphl]; exact hh)]

/-- Nothing that is open is open after the counting either. -/
theorem Settled.congr {t : State} (h : Settled s) (hp : t.pst = s.pst) (hl : t.phl.copies = s.phl.copies) (hh : t.hst = s.hst) (hc : t.cip = s.cip)
    (hr : t.regions = s.regions) : Settled t := by
  unfold Settled
  rw [hp, hl, hh, hc, hr]
  exact h

theorem doubtCounted_settled (h : Settled s) : Settled s.doubtCounted :=
  h.congr (doubtCounted_pst s) (by rw [doubtCounted_phl]) (doubtCounted_hst s) (doubtCounted_cip s) (doubtCounted_regions s)

/-- A unit that waits, its twin being gone. -/
def CUnit.unsent (u : CUnit) : CUnit := if u.committed then u else { u with msn := none, parts := 0, copied := false, xref := none, ahead := [] }

/-- ALONE is entered from `s`, what is in doubt having been settled. -/
def State.aloneFrom (s : State) (sev : Nat) : State :=
  let t := (s.updPhl PhlState.alone).setUnits ((s.updPhl PhlState.alone).pst.units.map CUnit.unsent)
  (((((({ t with regions := warnAnew t.regions } : State).setTwin .alone sev).chargeCopies).ownUnits).soloExtents).soloPolicy).serveReads.settleTwinWait.runHmaps

theorem enterAlone_eq (s : State) (sev : Nat) : s.enterAlone sev =
    ((((s.settleCopies).settleOrdered).orphanForwarded).takePositions.rescanLogs (fun r => r.homeOdd != s.odd)).aloneFrom sev := rfl

theorem aloneFrom_settled (hs : Settled s) (hr : Restoring s) (hw : s.phl.twinWait = []) (hh : s.phl.hmapIn = []) (sev : Nat) :
    s.aloneFrom sev = (s.aloneReady.twinSet .alone sev).dropXreqs := by
  have hset : (s.updPhl PhlState.alone).setUnits ((s.updPhl PhlState.alone).pst.units.map CUnit.unsent) = s.updPhl PhlState.alone := by
    obtain ⟨hu, -⟩ := hs
    exact setUnits_none (s := s.updPhl PhlState.alone) hu _
  rw [State.aloneFrom, hset]
  exact aloneReady_enters hs hr hw hh sev

/-- With nothing open, ALONE is entered by the link side, the twin state and the extents of the twin. -/
theorem enterAlone_settled (hs : Settled s) (hr : Restoring s) (hw : s.phl.twinWait = []) (hh : s.phl.hmapIn = []) (sev : Nat) :
    s.enterAlone sev = (s.doubtCounted.aloneReady.twinSet .alone sev).dropXreqs := by
  have hd := doubtCounted_settled hs
  rw [← aloneFrom_settled hd (hr.congr (doubtCounted_mod s) (doubtCounted_dst s)) (by rw [doubtCounted_phl]; exact hw)
    (by rw [doubtCounted_phl]; exact hh)]
  obtain ⟨-, -, hc, -, -, -⟩ := hs
  obtain ⟨hu, -, hc', -, hl, hz⟩ := hd
  rw [enterAlone_eq, settleCopies_none hc]
  change ((((s.doubtCounted).settleOrdered).orphanForwarded).takePositions.rescanLogs (fun r => r.homeOdd != s.odd)).aloneFrom sev = _
  rw [settleOrdered_none hu, orphanForwarded_none hu hl, takePositions_none hc', rescanLogs_none hz]

/-- This device serves alone, with its twin's extents given up. -/
theorem enterAlone_effect (hs : Settled s) (hr : Restoring s) (hw : s.phl.twinWait = []) (hh : s.phl.hmapIn = []) (sev : Nat) :
    OnlyParts [.records, .phl, .pst, .regions, .regs] s (s.enterAlone sev) ∧ RegsBut [Addr.PHL_CNT3] s (s.enterAlone sev) ∧
    (s.enterAlone sev).phl = { s.phl.alone with twin := .alone } ∧ (s.enterAlone sev).pst = { s.pst with xreqs := [] } ∧
    (s.enterAlone sev).regions = warnAnew s.regions := by
  rw [enterAlone_settled hs hr hw hh]
  refine ⟨((((doubtCounted_only s).comp (aloneReady_only _)).comp (twinSet_only _ _ sev)).comp (dropXreqs_only _)).mono (by decide),
    fun a ha hp => ?_, ?_, ?_, ?_⟩
  · rw [State.raw_congr (dropXreqs_regs _), twinSet_raw, State.raw_congr (aloneReady_regs _), doubtCounted_regsBut s a ha hp]
  · rw [dropXreqs_phl, twinSet_phl, aloneReady_phl, doubtCounted_phl]
  · rw [dropXreqs_pst, twinSet_pst, aloneReady_pst, doubtCounted_pst]
  · rw [dropXreqs_regions, twinSet_regions, aloneReady_regions, doubtCounted_regions]

theorem exec_linkWait (hr : s.running .phl = true) (ht : s.phl.twin = .linking) (hh : s.phl.heldAtSave = true) (hl : s.phl.linkIdSeen = false) :
    exec .linkWait s = .next (s.enterAlone sevWarn) :=
  when_pos (by rw [hr, ht, hh, hl]; rfl) _ _

theorem exec_forceAlone (path : Path) (hr : s.running .phl = true) (ht : s.phl.twin = .linking) : exec (.forceAlone path) s =
    .next ((s.enterAlone sevWarn).recordFull sevAudit .phl 1 0 path.code Addr.PHL_STATUS 0 0) :=
  (when_pos (by rw [hr, ht]; rfl) _ _).trans (congrArg Host.Outcome.next (if_pos ht))

end Alone
end Sys2Proof.Machine
end

section
/-! SUPPORT. The twins pair, a resync is over (07 R240, R255). -/

namespace Sys2Proof.Machine

section Paired
variable {s t : State}

/-- The registers that count no performance are as they were. -/
theorem OnlyParts.raw_eq {l : List Part} (h : OnlyParts l s t) (hl : Part.regs ∉ l) {a : Nat} (ha : isPmu a = false) : t.raw a = s.raw a :=
  h .regs hl a ha

theorem twinSessions_congr (h : ∀ n < 2, (s.ses (2 ^ 20 - 1 - n)).isSome = true) (hf : t.fab = s.fab) : t.twinSessions = t :=
  twinSessions_there (fun n hn => by
    have e : t.ses (2 ^ 20 - 1 - n) = s.ses (2 ^ 20 - 1 - n) := by unfold State.ses; rw [hf]
    rw [e]
    exact h n hn)

/-- Over PH0, with no unit open and the twin sessions there, pairing is the twin state and the mode that follows. -/
theorem enterPaired_up (hu : s.phl.ph0.up = true) (hses : ∀ n < 2, (s.ses (2 ^ 20 - 1 - n)).isSome = true)
    (ht : s.setTwin .paired sevNotice = t) (hf : t.fab = s.fab) (hp : t.pst.units = []) (htw : t.phl.twin = .paired) (htu : t.phl.ph0.up = true) :
    s.enterPaired = t.updPhl (fun x => { x with stalled := false }) := by
  unfold State.enterPaired
  dsimp only
  rw [ht, twinSessions_congr hses hf, if_pos hu]
  exact pumpMirror_none (toMirror_none hp) (channel_paired htw htu)

theorem toMode_serve_only (s : State) (sev : Nat) : OnlyParts [.mod, .records] s (s.toMode .serve sev) :=
  (State.updMod_only s _).comp (State.recState_only _ sev .ctl F.MOD_STATUS.MODE)

theorem toMode_serve_mod (s : State) (sev : Nat) : (s.toMode .serve sev).mod.mode = .serve ∧ (s.toMode .serve sev).mod.prev = s.mod.mode := by
  have e : (s.toMode .serve sev).mod = { s.mod with
      mode := .serve, prev := s.mod.mode, enteredAt := s.time, intakeClosed := false, haltHeld := false, resumed := false } := State.recState_mod ..
  rw [e]
  exact ⟨rfl, rfl⟩

@[simp] theorem toMode_serve_phl (s : State) (sev : Nat) : (s.toMode .serve sev).phl = s.phl := State.recState_phl ..
@[simp] theorem toMode_serve_pst (s : State) (sev : Nat) : (s.toMode .serve sev).pst = s.pst := State.recState_pst ..
@[simp] theorem toMode_serve_hst (s : State) (sev : Nat) : (s.toMode .serve sev).hst = s.hst := State.recState_hst ..
@[simp] theorem toMode_serve_fab (s : State) (sev : Nat) : (s.toMode .serve sev).fab = s.fab := State.recState_fab ..
@[simp] theorem toMode_serve_out (s : State) (sev : Nat) : (s.toMode .serve sev).out = s.out := State.recState_out ..
@[simp] theorem toMode_serve_regs (s : State) (sev : Nat) : (s.toMode .serve sev).regs = s.regs := State.recState_regs ..

/-- The link side once a resync is over. -/
def PhlState.resynced (x : PhlState) : PhlState :=
  { x with receiver := false, resyncKind := 0, resyncLeft := [], separation := [], servedAlone := false }

/-- SOLO becomes SERVE with the twin back. -/
def State.resynced (s : State) : State :=
  (((s.updPhl PhlState.resynced).bump F.PHL_CNT1.RESYNCS).twinSet .paired sevNotice).toMode .serve sevNotice

theorem resynced_phl (s : State) : s.resynced.phl = { s.phl.resynced with twin := .paired } := by
  rw [State.resynced, toMode_serve_phl, twinSet_phl, State.bump_phl, State.updPhl_phl]

theorem resynced_pst (s : State) : s.resynced.pst = s.pst := by
  rw [State.resynced, toMode_serve_pst, twinSet_pst, State.bump_pst, State.updPhl_pst]

theorem resynced_hst (s : State) : s.resynced.hst = s.hst := by
  rw [State.resynced, toMode_serve_hst, twinSet_hst, State.bump_hst, State.updPhl_hst]

theorem resynced_fab (s : State) : s.resynced.fab = s.fab := by
  rw [State.resynced, toMode_serve_fab, twinSet_fab, State.bump_fab, State.updPhl_fab]

theorem resynced_out (s : State) : s.resynced.out = s.out := by
  rw [State.resynced, toMode_serve_out, twinSet_out, State.bump_out, State.updPhl_out]

theorem resynced_only (s : State) : OnlyParts [.phl, .regs, .mod, .records] s s.resynced :=
  ((((s.updPhl_quiet rfl).comp (State.bump_only _ F.PHL_CNT1.RESYNCS (by decide))).comp (twinSet_only _ _ _)).comp
    (toMode_serve_only _ _)).mono (by decide)

theorem resynced_raw (s : State) (a : Nat) : s.resynced.raw a = ((s.updPhl PhlState.resynced).bump F.PHL_CNT1.RESYNCS).raw a := by
  rw [State.resynced, State.raw_congr (toMode_serve_regs _ _), twinSet_raw]

theorem resynced_rises (s : State) : Rises s s.resynced F.PHL_CNT1.RESYNCS 1 :=
  ((rises_bumpBy (s.updPhl PhlState.resynced) (f := F.PHL_CNT1.RESYNCS) (by decide) 1).before (State.raw_congr (State.updPhl_regs ..) _)).after
    (resynced_raw s _)

theorem resynced_regsBut (s : State) : RegsBut [Addr.PHL_CNT1] s s.resynced := fun a ha _ => by
  rw [resynced_raw, State.bump, State.raw_bumpBy_ne _ _ _ (fun h => ha (List.mem_singleton.mpr h))]
  exact State.raw_congr (State.updPhl_regs ..) a

theorem resynced_mod (s : State) : s.resynced.mod.mode = .serve ∧ s.resynced.mod.prev = s.mod.mode := by
  obtain ⟨h1, h2⟩ := toMode_serve_mod (((s.updPhl PhlState.resynced).bump F.PHL_CNT1.RESYNCS).twinSet .paired sevNotice) sevNotice
  refine ⟨h1, h2.trans ?_⟩
  rw [twinSet_mod, State.bump_mod, State.updPhl_mod]

/-- A resync ends in SOLO, nothing open. -/
theorem endResync_eq (hp : s.pst.units = []) (hr : s.hst.reads = []) (hm : s.mod.mode = .solo) (hu : s.phl.ph0.up = true)
    (hses : ∀ n < 2, (s.ses (2 ^ 20 - 1 - n)).isSome = true) : s.endResync = s.resynced.updPhl (fun x => { x with stalled := false }) := by
  have hset : ((s.updPhl PhlState.resynced).bump F.PHL_CNT1.RESYNCS).setTwin .paired sevNotice = s.resynced :=
    setTwin_solo_paired (by rw [State.bump_mod, State.updPhl_mod]; exact hm) sevNotice
  have hfab : ((s.updPhl PhlState.resynced).bump F.PHL_CNT1.RESYNCS).fab = s.fab := by rw [State.bump_fab, State.updPhl_fab]
  have hphl : ((s.updPhl PhlState.resynced).bump F.PHL_CNT1.RESYNCS).phl = s.phl.resynced := by rw [State.bump_phl, State.updPhl_phl]
  have hpair : ((s.updPhl PhlState.resynced).bump F.PHL_CNT1.RESYNCS).enterPaired = s.resynced.updPhl (fun x => { x with stalled := false }) :=
    enterPaired_up (by rw [hphl]; exact hu) (fun n hn => by unfold State.ses; rw [hfab]; exact hses n hn) hset (by rw [resynced_fab, hfab])
      (by rw [resynced_pst]; exact hp) (by rw [resynced_phl]) (by rw [resynced_phl]; exact hu)
  unfold State.endResync
  rw [unitsToCopies_none hp]
  exact (congrArg State.serveReads hpair).trans (serveReads_none (by rw [State.updPhl_hst, resynced_hst]; exact hr))

theorem returning_none (hp : s.pst.units = []) (hx : s.pst.extents = []) : s.returning = false := by
  unfold State.returning
  rw [hp, hx]
  rfl

theorem exec_resyncComplete (hr : s.running .phl = true) (ht : s.phl.twin = .resyncOut) (hl : s.phl.resyncLeft = [])
    (hf : ∀ f ∈ s.phl.unconfirmed, f.ty ≠ 8) (hp : s.pst.units = []) (hx : s.pst.extents = []) :
    exec .resyncComplete s = .next (s.sendFrame { Frame.mk0 13 with aux := 4 }).endResync := by
  have hany : s.phl.unconfirmed.any (fun f => f.ty == 8) = false := List.any_eq_false.mpr (fun f h => by simpa using hf f h)
  exact when_pos (by rw [hr, ht, hl, hany, returning_none hp hx]; rfl) _ _

/-- The frame that ends the resync goes out, then the twins are paired and the device serves. -/
theorem resyncComplete_effect (hp : s.pst.units = []) (hr : s.hst.reads = []) (hm : s.mod.mode = .solo) (hu : s.phl.ph0.up = true)
    (hses : ∀ n < 2, (s.ses (2 ^ 20 - 1 - n)).isSome = true) (f : Frame) :
    OnlyParts [.phl, .mod, .out, .regs, .pmu, .records] s (s.sendFrame f).endResync ∧ RegsBut [Addr.PHL_CNT1] s (s.sendFrame f).endResync ∧
    Rises s (s.sendFrame f).endResync F.PHL_CNT1.RESYNCS 1 ∧ (s.sendFrame f).endResync.phl.twin = .paired ∧
    (s.sendFrame f).endResync.mod.mode = .serve ∧ (s.sendFrame f).endResync.mod.prev = .solo ∧
    (s.sendFrame f).endResync.phl.separation = [] ∧ (s.sendFrame f).endResync.phl.servedAlone = false ∧ Sends s (s.sendFrame f).endResync f := by
  have ho := State.sendFrame_only s f
  have hsend := sendFrame_sends s f
  have hraw : ∀ a, isPmu a = false → (s.sendFrame f).raw a = s.raw a := fun a ha => ho.raw_eq (by decide) ha
  have hpst : (s.sendFrame f).pst = s.pst := ho .pst (by decide)
  have hhst : (s.sendFrame f).hst = s.hst := ho .hst (by decide)
  have hmod : (s.sendFrame f).mod = s.mod := ho .mod (by decide)
  have hfab : (s.sendFrame f).fab = s.fab := ho .fab (by decide)
  have hup : (s.sendFrame f).phl.ph0.up = true := by rw [sendFrame_link]; exact hu
  rw [endResync_eq (by rw [hpst]; exact hp) (by rw [hhst]; exact hr) (by rw [hmod]; exact hm) hup
    (fun n hn => by unfold State.ses; rw [hfab]; exact hses n hn)]
  generalize s.sendFrame f = a at ho hsend hraw hmod ⊢
  obtain ⟨hm1, hm2⟩ := resynced_mod a
  refine ⟨((ho.comp (resynced_only a)).comp (unstalled_only _)).mono (by decide), fun b hb hpm => ?_,
    ((resynced_rises a).before (hraw _ (by decide))).after (State.raw_congr (State.updPhl_regs ..) _), ?_,
    by rw [State.updPhl_mod, hm1], by rw [State.updPhl_mod, hm2, hmod, hm], ?_, ?_, hsend.after ?_ ?_ ?_ ?_ ?_⟩
  rotate_right
  · rw [State.updPhl_out, resynced_out]
    exact List.Subset.refl _
  · rw [State.raw_congr (State.updPhl_regs ..), resynced_regsBut a b hb hpm, hraw b hpm]
  all_goals rw [State.updPhl_phl, resynced_phl] <;> rfl

end Paired
end Sys2Proof.Machine
end

section
/-! SUPPORT. The lease (07 R246) and frames of the twin as they are taken (R224, R230). -/

namespace Sys2Proof.Machine

section Lease
variable {s t : State}

/-- A LEASE frame. -/
def leaseFrame (s : State) (grant : Bool) (no : Nat) : Frame := { Frame.mk0 10 with ref := no, aux := b2n grant + s.termAux }

theorem leaseFrame_asks (s : State) (no : Nat) : leaseFrame s false no = { Frame.mk0 10 with ref := no, aux := s.fld F.PHL_LEASE.TERM * 65536 } := by
  have h : b2n false + s.termAux = s.fld F.PHL_LEASE.TERM * 65536 := Nat.zero_add _
  rw [leaseFrame, h]

/-- More goes out. -/
def State.emits (s : State) (o : List Out) : State := { s with out := s.out ++ o }

theorem emits_none (s : State) : s.emits [] = s := by rw [State.emits, List.append_nil]

theorem emits_only (s : State) (o : List Out) : OnlyParts [.out] s (s.emits o) := withOut_only s _

@[simp] theorem emits_phl (s : State) (o : List Out) : (s.emits o).phl = s.phl := rfl

theorem Sends.emits {f : Frame} (h : Sends s t f) (o : List Out) : Sends s (t.emits o) f :=
  h.after rfl rfl rfl rfl (List.subset_append_left _ _)

/-- The frame goes out; over PH0 it may go out on the fabric too. -/
theorem sendLease_eq (s : State) (grant : Bool) (no : Nat) : ∃ o, s.sendLease grant no = (s.sendFrame (leaseFrame s grant no)).emits o := by
  unfold State.sendLease
  dsimp only
  split
  · split
    · exact ⟨_, rfl⟩
    · exact ⟨[], (emits_none _).symm⟩
  · exact ⟨[], (emits_none _).symm⟩

theorem sendLease_phl (s : State) (grant : Bool) (no : Nat) : (s.sendLease grant no).phl = (s.sendFrame (leaseFrame s grant no)).phl := by
  obtain ⟨o, h⟩ := sendLease_eq s grant no
  rw [h, emits_phl]

theorem sendLease_only (s : State) (grant : Bool) (no : Nat) : OnlyParts [.phl, .out, .pmu] s (s.sendLease grant no) := by
  obtain ⟨o, h⟩ := sendLease_eq s grant no
  rw [h]
  exact ((State.sendFrame_only s _).comp (emits_only _ _)).mono (by decide)

theorem sendLease_sends (s : State) (grant : Bool) (no : Nat) : Sends s (s.sendLease grant no) (leaseFrame s grant no) := by
  obtain ⟨o, h⟩ := sendLease_eq s grant no
  rw [h]
  exact (sendFrame_sends s _).emits o

/-- An update of the link side that leaves the stream, the channel and the nodes as they are changes nothing of what is sent. -/
theorem Sends.of_updPhl {f : PhlState → PhlState} {g : Frame} (h : Sends (s.updPhl f) t g) (hu : (f s.phl).unacked = s.phl.unacked)
    (hw : (f s.phl).txWait = s.phl.txWait) (hn : (f s.phl).txNext = s.phl.txNext) (he : (f s.phl).epoch = s.phl.epoch)
    (hc : (f s.phl).credit = s.phl.credit) (ht : (f s.phl).twin = s.phl.twin) (hp : (f s.phl).ph0.up = s.phl.ph0.up)
    (hk : (f s.phl).peerNode = s.phl.peerNode) (hl : (f s.phl).linkEpoch = s.phl.linkEpoch) : Sends s t g :=
  h.before hu hw hn he hc (State.channel_congr (State.on_of_raw (State.raw_congr rfl _)) ht hp)
    (State.wire_congr (State.on_of_raw (State.raw_congr rfl _)) (State.fld_congr rfl _) rfl rfl hk hl)

theorem leaseFrame_congr (h : t.regs = s.regs) (grant : Bool) (no : Nat) : leaseFrame t grant no = leaseFrame s grant no := by
  unfold leaseFrame State.termAux
  rw [State.fld_congr h]

/-- The number of the latest request. -/
def PhlState.asks (x : PhlState) : PhlState := { x with leaseNo := (x.leaseNo + 1) % 2 ^ 32 }

theorem exec_leaseRenewal (hr : s.running .phl = true) (hp : s.phl.primary = true) (hl : s.phl.twin.linked = true) : exec .leaseRenewal s =
    .next ((s.updPhl PhlState.asks).sendLease false ((s.phl.leaseNo + 1) % 2 ^ 32)).sendTime :=
  when_pos (by rw [hr, hp, hl]; rfl) _ _

/-- The time base goes with it over PH0. -/
def timeFrame (s : State) : Frame := { Frame.mk0 13 with aux := 2, data := leBytes 8 s.time }

theorem sendTime_up (h : s.phl.ph0.up = true) : s.sendTime = s.sendFrame (timeFrame s) := if_pos h

theorem sendTime_down (h : s.phl.ph0.up = false) : s.sendTime = s := by
  unfold State.sendTime
  rw [h]
  rfl

theorem sendTime_only (s : State) : OnlyParts [.phl, .out, .pmu] s s.sendTime := by
  cases h : s.phl.ph0.up
  · rw [sendTime_down h]
    exact OnlyParts.refl s _
  · rw [sendTime_up h]
    exact State.sendFrame_only s _

theorem sendTime_leaseNo (s : State) : s.sendTime.phl.leaseNo = s.phl.leaseNo := by
  cases h : s.phl.ph0.up
  · rw [sendTime_down h]
  · rw [sendTime_up h, sendFrame_link]

theorem leaseRenewal_effect (s : State) :
    let t := ((s.updPhl PhlState.asks).sendLease false ((s.phl.leaseNo + 1) % 2 ^ 32)).sendTime
    OnlyParts [.phl, .out, .pmu] s t ∧ t.phl.leaseNo = (s.phl.leaseNo + 1) % 2 ^ 32 ∧
    (s.phl.ph0.up = false → Sends s t (leaseFrame s false ((s.phl.leaseNo + 1) % 2 ^ 32))) ∧
    (s.phl.ph0.up = true → t.phl.unconfirmed = s.phl.unconfirmed ++
      [{ leaseFrame s false ((s.phl.leaseNo + 1) % 2 ^ 32) with msn := s.phl.txNext, epoch := s.phl.epoch % 65536 },
       { timeFrame s with msn := (s.phl.txNext + 1) % 2 ^ 32, epoch := s.phl.epoch % 65536 }]) := by
  intro t
  have ho := sendLease_only (s.updPhl PhlState.asks) false ((s.phl.leaseNo + 1) % 2 ^ 32)
  have hs := sendLease_sends (s.updPhl PhlState.asks) false ((s.phl.leaseNo + 1) % 2 ^ 32)
  have hphl := sendLease_phl (s.updPhl PhlState.asks) false ((s.phl.leaseNo + 1) % 2 ^ 32)
  rw [leaseFrame_congr (State.updPhl_regs ..)] at hs hphl
  rw [sendFrame_link] at hphl
  have htime : ((s.updPhl PhlState.asks).sendLease false ((s.phl.leaseNo + 1) % 2 ^ 32)).time = s.time := ho .time (by decide)
  have h0 : OnlyParts [.phl] s (s.updPhl PhlState.asks) := s.updPhl_quiet rfl
  simp only [t]
  generalize (s.updPhl PhlState.asks).sendLease false ((s.phl.leaseNo + 1) % 2 ^ 32) = a at ho hs hphl htime ⊢
  have hup : a.phl.ph0.up = s.phl.ph0.up := by rw [hphl]; rfl
  have hsend : Sends s a (leaseFrame s false ((s.phl.leaseNo + 1) % 2 ^ 32)) := hs.of_updPhl rfl rfl rfl rfl rfl rfl rfl rfl rfl
  refine ⟨((h0.comp ho).comp (sendTime_only a)).mono (by decide), ?_, fun h => ?_, fun h => ?_⟩
  · rw [sendTime_leaseNo, hphl]
    rfl
  · rw [sendTime_down (hup.trans h)]
    exact hsend
  · obtain ⟨h1, h2, -⟩ := hsend
    have hepoch : a.phl.epoch = s.phl.epoch := by rw [hphl]; rfl
    have ht : timeFrame a = timeFrame s := by unfold timeFrame; rw [htime]
    rw [sendTime_up (hup.trans h), sendFrame_unconfirmed, h1, State.numbered, h2, hepoch, ht, List.append_assoc]
    rfl

/-! ### Expiry -/

theorem arbitrate_confirmed (h : s.phl.twin ≠ .unconfirmed) : s.arbitrate = s := if_neg h

theorem exec_leaseExpiry (hr : s.running .phl = true) (hl : s.phl.leaseRunning = true) (ht : s.phl.twin ≠ .unconfirmed) : exec .leaseExpiry s =
    .next (s.updPhl (fun x => { x with leaseRunning := false, twinMode := 15 })) :=
  (when_pos (by rw [hr, hl]; rfl) _ _).trans (congrArg Host.Outcome.next
    (arbitrate_confirmed (s := s.updPhl (fun x => { x with leaseRunning := false, twinMode := 15 })) ht))

theorem exec_leaseGuardExpiry (hr : s.running .phl = true) (hl : s.phl.leaseRunning = false) (hg : s.phl.guardPassed = false)
    (ht : s.phl.twin ≠ .unconfirmed) : exec .leaseGuardExpiry s = .next (s.updPhl (fun x => { x with guardPassed := true })) :=
  (when_pos (by rw [hr, hl, hg]; rfl) _ _).trans (congrArg Host.Outcome.next
    (arbitrate_confirmed (s := s.updPhl (fun x => { x with guardPassed := true })) ht))

/-- HB_IN held low. -/
theorem exec_hbStatic_low (hr : s.run .aon = .running) (hh : s.phl.hbIn ≠ .low) (ht : s.phl.twin ≠ .unconfirmed) : exec (.hbStatic .low) s =
    .next (s.updPhl (fun x => { x with hbIn := .low })) :=
  (when_pos (by rw [hr]; simpa using hh) _ _).trans (congrArg Host.Outcome.next
    (arbitrate_confirmed (s := s.updPhl (fun x => { x with hbIn := .low })) ht))

/-- HB_IN held high while PH0 works is a fault of the line. -/
theorem exec_hbStatic_high (hr : s.run .aon = .running) (hh : s.phl.hbIn ≠ .high) (hu : s.phl.ph0.up = true) (ht : s.phl.twin ≠ .unconfirmed) :
    exec (.hbStatic .high) s = .next ((s.updPhl (fun x => { x with hbIn := .high })).recFlag sevWarn .phl F.PHL_ERR.HB_FAULT 0) := by
  have harb : ((s.updPhl (fun x => { x with hbIn := .high })).recFlag sevWarn .phl F.PHL_ERR.HB_FAULT 0).arbitrate =
      (s.updPhl (fun x => { x with hbIn := .high })).recFlag sevWarn .phl F.PHL_ERR.HB_FAULT 0 := arbitrate_confirmed (by rw [State.recFlag_phl]; exact ht)
  have hset : s.setHb .high = ((s.updPhl (fun x => { x with hbIn := .high })).recFlag sevWarn .phl F.PHL_ERR.HB_FAULT 0).arbitrate := by
    unfold State.setHb
    rw [hu]
    rfl
  exact (when_pos (by rw [hr]; simpa using hh) _ _).trans (congrArg Host.Outcome.next (hset.trans harb))

/-- A flag of the link with its record. -/
theorem phlFlag_effect (s : State) {f : Fld} (hf : f.addr = Addr.PHL_ERR) (hw : f.lsb + f.width ≤ 64) (h0 : 0 < f.width) (sev n : Nat) :
    OnlyParts [.regs, .records] s (s.recFlag sev .phl f n) ∧ RegsBut [Addr.PHL_ERR] s (s.recFlag sev .phl f n) ∧
    (s.recFlag sev .phl f n).fld f = 1 ∧ (s.recFlag sev .phl f n).phl = s.phl := by
  have hr : ∀ a, (s.recFlag sev .phl f n).raw a = (s.flag f).raw a := fun a => State.raw_congr (State.record_regs ..) a
  refine ⟨State.recFlag_only _ _ _ _ _ (by rw [hf]; decide), fun a ha _ => ?_, ?_, State.recFlag_phl ..⟩
  · rw [hr, State.raw_flag_ne _ _ (fun h => ha (List.mem_singleton.mpr (h.trans hf)))]
  · rw [State.fld_of_raw (hr _), State.fld_flag_self _ _ hw h0]

end Lease
end Sys2Proof.Machine
end

section
/-! SUPPORT. No channel confirms (07 R247 to R249), and frames on the ring (R35). -/

namespace Sys2Proof.Machine

section Silence
variable {s t : State}

/-- The state before is kept, and no channel confirms. -/
def State.silent (s : State) : State := (s.updPhl (fun x => { x with before := x.twin })).twinSet .unconfirmed sevError

theorem silent_phl (s : State) : s.silent.phl = { s.phl with twin := .unconfirmed, before := s.phl.twin } := by
  rw [State.silent, twinSet_phl, State.updPhl_phl]

theorem silent_only (s : State) : OnlyParts [.phl, .records] s s.silent := ((s.updPhl_quiet rfl).comp (twinSet_only _ _ _)).mono (by decide)

theorem enterUnconfirmed_eq (s : State) : s.enterUnconfirmed = s.silent.arbitrate := by rw [State.enterUnconfirmed, setTwin_unconfirmed]; rfl

/-- The lease holder waits while the heartbeat toggles, until the guard has passed. -/
theorem silent_waits (hp : s.phl.primary = true) (hb : s.phl.hbIn = .toggling) (hg : s.phl.guardPassed = false) (ht : s.phl.twin ≠ .resyncIn) :
    s.silent.arbitrate = s.silent := by
  have hv : s.silent.verdict = none := by
    unfold State.verdict
    rw [silent_phl]
    dsimp only
    rw [if_neg ht, hp, hb, hg]
    rfl
  unfold State.arbitrate
  rw [hv, if_pos (by rw [silent_phl])]

/-- The other side gives the lease up. -/
theorem silent_loses (hp : s.phl.primary = false) (hb : s.phl.hbIn = .toggling) (ht : s.phl.twin ≠ .resyncIn) :
    s.silent.arbitrate = (s.silent.bump F.PHL_CNT1.ARBITRATIONS).enterLost false 3 sevError := by
  have hv : s.silent.verdict = some .lost := by
    unfold State.verdict
    rw [silent_phl]
    dsimp only
    rw [if_neg ht, hp, hb]
    rfl
  unfold State.arbitrate
  rw [hv, if_pos (by rw [silent_phl])]

theorem exec_fbConfirmExpiry (hr : s.running .phl = true) (ht : s.phl.twin = .paired ∨ s.phl.twin = .fallback ∨ s.phl.twin = .resyncOut)
    (hu : s.phl.primary = true → s.phl.unacked ≠ []) : exec .fbConfirmExpiry s = .next s.silent.arbitrate := by
  have hw : s.phl.twin.watched = true := by
    obtain h | h | h := ht <;> rw [h] <;> rfl
  have hc : (!s.phl.unacked.isEmpty || !s.phl.primary) = true := by
    cases hp : s.phl.primary
    · exact Bool.or_true _
    · simpa using hu hp
  rw [← enterUnconfirmed_eq]
  exact when_pos (by rw [hr, hw, hc]; rfl) _ _

/-! ### LOST -/

/-- The link side of a device that gives the lease up. -/
def PhlState.lost (x : PhlState) (byCommand : Bool) : PhlState :=
  { x.quiet with twin := .lost, primary := false, leaseRunning := false, guardPassed := false, linkIdSeen := false, lostByCommand := byCommand }

theorem endLent_only (s : State) : OnlyParts [.tir] s s.endLent := s.updTir_only (fun x => { x with loansOut := [] })

theorem toHalt_only (s : State) (cause sev : Nat) : OnlyParts [.mod, .tir, .regs, .records] s (s.toHalt cause sev) :=
  (((((State.updMod_only s (fun x => { x with haltCause := cause })).comp (endLent_only _)).comp
    (State.updMod_only _ (fun x => { x with mode := .halt, prev := x.mode, enteredAt := s.time, intakeClosed := false, haltHeld := false,
                                            resumed := false }))).comp
    (State.bump_only _ F.MOD_CNT0.HALT_ENTRIES (by decide))).comp (State.recState_only _ sev .ctl F.MOD_STATUS.MODE)).mono (by decide)

theorem toHalt_raw (s : State) (cause sev a : Nat) : (s.toHalt cause sev).raw a = (s.bump F.MOD_CNT0.HALT_ENTRIES).raw a := by
  have h1 : (s.toHalt cause sev).regs = (s.bump F.MOD_CNT0.HALT_ENTRIES).regs := State.recState_regs ..
  exact State.raw_congr h1 a

theorem toHalt_mod (s : State) (cause sev : Nat) : (s.toHalt cause sev).mod.mode = .halt ∧ (s.toHalt cause sev).mod.haltCause = cause := by
  have e : (s.toHalt cause sev).mod = { s.mod with
      haltCause := cause, mode := .halt, prev := s.mod.mode, enteredAt := s.time, intakeClosed := false, haltHeld := false, resumed := false } :=
    State.recState_mod ..
  rw [e]
  exact ⟨rfl, rfl⟩

@[simp] theorem toHalt_phl (s : State) (cause sev : Nat) : (s.toHalt cause sev).phl = s.phl := toHalt_only s cause sev .phl (by decide)
@[simp] theorem toHalt_pst (s : State) (cause sev : Nat) : (s.toHalt cause sev).pst = s.pst := toHalt_only s cause sev .pst (by decide)
theorem toHalt_tir (s : State) (cause sev : Nat) : (s.toHalt cause sev).tir = { s.tir with loansOut := [] } := State.recState_tir ..

/-- LOST with nothing open: the link side, the twin's extents, the record. -/
def State.lostReady (s : State) (byCommand : Bool) : State :=
  ((s.updPhl (fun x => x.lost byCommand)).dropXreqs).recState sevError .phl F.PHL_STATUS.TWIN_STATE

@[simp] theorem lostReady_phl (s : State) (b : Bool) : (s.lostReady b).phl = s.phl.lost b := State.recState_phl ..
@[simp] theorem lostReady_pst (s : State) (b : Bool) : (s.lostReady b).pst = { s.pst with xreqs := [] } := State.recState_pst ..
@[simp] theorem lostReady_mod (s : State) (b : Bool) : (s.lostReady b).mod = s.mod := State.recState_mod ..
@[simp] theorem lostReady_tir (s : State) (b : Bool) : (s.lostReady b).tir = s.tir := State.recState_tir ..
@[simp] theorem lostReady_regs (s : State) (b : Bool) : (s.lostReady b).regs = s.regs := State.recState_regs ..

theorem lostReady_only (s : State) (b : Bool) : OnlyParts [.phl, .pst, .records] s (s.lostReady b) :=
  ((s.updPhl_quiet rfl).comp (dropXreqs_only _)).comp (State.recState_only _ _ _ _)

/-- With nothing open, LOST is entered by the link side and HALT. -/
theorem enterLost_settled (hu : s.pst.units = []) (hx : s.pst.extents = []) (hl : s.cip.logs = []) (hr : s.hst.reads = [])
    (hw : s.phl.twinWait = []) (hh : s.phl.hmapIn = []) (hm : s.mod.mode ≠ .halt) (cause : Nat) :
    s.enterLost false cause sevError = (s.lostReady false).toHalt cause sevError := by
  have hmode : ¬(s.lostReady false).mod.mode = .halt := by rw [lostReady_mod]; exact hm
  unfold State.enterLost
  dsimp only
  rw [yieldUnits_none hu hx hl hr]
  change (if (s.lostReady false).mod.mode = .halt then s.lostReady false else (s.lostReady false).toHalt cause sevError).settleTwinWait.runHmaps = _
  rw [if_neg hmode, settleTwinWait_none (by rw [toHalt_phl, lostReady_phl]; exact hw), runHmaps_none (by rw [toHalt_phl, lostReady_phl]; exact hh)]

/-- LOST in a device that served: counted, and halted for the loss of its lease. -/
theorem loses_effect (hs : Settled s) (hw : s.phl.twinWait = []) (hh : s.phl.hmapIn = []) (hm : s.mod.mode = .serve) :
    let t := (s.silent.bump F.PHL_CNT1.ARBITRATIONS).enterLost false 3 sevError
    OnlyParts [.phl, .pst, .mod, .tir, .regs, .records] s t ∧ RegsBut [Addr.PHL_CNT1, Addr.MOD_CNT0] s t ∧
    Rises s t F.PHL_CNT1.ARBITRATIONS 1 ∧ Rises s t F.MOD_CNT0.HALT_ENTRIES 1 ∧ t.phl.twin = .lost ∧ t.phl.leaseRunning = false ∧
    t.phl.unconfirmed = [] ∧ t.mod.mode = .halt ∧ t.mod.haltCause = 3 ∧ t.pst = { s.pst with xreqs := [] } ∧
    t.tir = { s.tir with loansOut := [] } := by
  obtain ⟨hu, hx, hc, hrd, hl, hz⟩ := hs
  intro t
  have ho := (silent_only s).comp (State.bump_only s.silent F.PHL_CNT1.ARBITRATIONS (by decide))
  have hsr : ∀ a, isPmu a = false → s.silent.raw a = s.raw a := fun a ha => (silent_only s).raw_eq (by decide) ha
  have hne : ∀ a, a ≠ Addr.PHL_CNT1 → isPmu a = false → (s.silent.bump F.PHL_CNT1.ARBITRATIONS).raw a = s.raw a := fun a ha hp =>
    (State.raw_bumpBy_ne s.silent F.PHL_CNT1.ARBITRATIONS 1 ha).trans (hsr a hp)
  have hcnt : Rises s (s.silent.bump F.PHL_CNT1.ARBITRATIONS) F.PHL_CNT1.ARBITRATIONS 1 :=
    (rises_bumpBy s.silent (f := F.PHL_CNT1.ARBITRATIONS) (by decide) 1).before (hsr _ (by decide))
  have hpst : (s.silent.bump F.PHL_CNT1.ARBITRATIONS).pst = s.pst := ho .pst (by decide)
  have hcip : (s.silent.bump F.PHL_CNT1.ARBITRATIONS).cip = s.cip := ho .cip (by decide)
  have hhst : (s.silent.bump F.PHL_CNT1.ARBITRATIONS).hst = s.hst := ho .hst (by decide)
  have hmod : (s.silent.bump F.PHL_CNT1.ARBITRATIONS).mod = s.mod := ho .mod (by decide)
  have htir : (s.silent.bump F.PHL_CNT1.ARBITRATIONS).tir = s.tir := ho .tir (by decide)
  have hphl : (s.silent.bump F.PHL_CNT1.ARBITRATIONS).phl = { s.phl with twin := .unconfirmed, before := s.phl.twin } := by
    rw [State.bump_phl, silent_phl]
  have ht : t = ((s.silent.bump F.PHL_CNT1.ARBITRATIONS).lostReady false).toHalt 3 sevError :=
    enterLost_settled (by rw [hpst]; exact hu) (by rw [hpst]; exact hx) (by rw [hcip]; exact hl) (by rw [hhst]; exact hrd)
      (by rw [hphl]; exact hw) (by rw [hphl]; exact hh) (by rw [hmod, hm]; decide) 3
  rw [ht]
  generalize s.silent.bump F.PHL_CNT1.ARBITRATIONS = b at ho hne hcnt hpst hmod htir hphl ⊢
  obtain ⟨m1, m2⟩ := toHalt_mod (b.lostReady false) 3 sevError
  have hraw : ∀ a, ((b.lostReady false).toHalt 3 sevError).raw a = ((b.lostReady false).bump F.MOD_CNT0.HALT_ENTRIES).raw a :=
    toHalt_raw (b.lostReady false) 3 sevError
  have hlr : ∀ a, (b.lostReady false).raw a = b.raw a := State.raw_congr (lostReady_regs b false)
  have hto : ∀ a, a ≠ Addr.MOD_CNT0 → ((b.lostReady false).toHalt 3 sevError).raw a = b.raw a := fun a ha => by
    rw [hraw, State.bump, State.raw_bumpBy_ne _ F.MOD_CNT0.HALT_ENTRIES 1 ha, hlr]
  refine ⟨((ho.comp (lostReady_only b false)).comp (toHalt_only _ _ _)).mono (by decide), fun a ha hp => ?_, hcnt.after (hto _ (by decide)), ?_,
    ?_, ?_, ?_, m1, m2, ?_, ?_⟩
  · obtain ⟨ha1, ha2⟩ := not_or.mp (mt List.mem_cons.mpr ha)
    rw [hto a (fun h => ha2 (List.mem_singleton.mpr h)), hne a ha1 hp]
  · exact ((rises_bumpBy (b.lostReady false) (f := F.MOD_CNT0.HALT_ENTRIES) (by decide) 1).before
      ((hlr _).trans (hne _ (by decide) (by decide)))).after (hraw _)
  · rw [toHalt_phl, lostReady_phl]
    rfl
  · rw [toHalt_phl, lostReady_phl]
    rfl
  · rw [toHalt_phl, lostReady_phl]
    rfl
  · rw [toHalt_pst, lostReady_pst, hpst]
  · rw [toHalt_tir, lostReady_tir, htir]

end Silence

/-! ### The ring -/

section Ring
variable {s : State} {dest hops : BitVec 3} {frame : List Byte}

theorem exec_ringFrameForward_last (h : ¬hops.toNat + 1 < Config.boardDevices) : exec (.ringFrameForward dest hops frame) s = .next s :=
  when_neg (by rw [decide_eq_false h, Bool.and_false]) _ _

theorem exec_ringFrameForward (hr : s.running .phl = true) (hd : dest.toNat ≠ s.seq.position) (hh : hops.toNat + 1 < Config.boardDevices) :
    exec (.ringFrameForward dest hops frame) s = .next (if s.phl.ph1.up then s.emit (.ring false dest.toNat (hops.toNat + 1) frame)
     else (s.emit (.ring true dest.toNat (hops.toNat + 1) frame)).record sevError .phl 3 1 dest.toNat Addr.PHL_ERR) :=
  when_pos (by rw [hr, decide_eq_true hd, decide_eq_true hh]; rfl) _ _

/-- A frame for another position goes on, over PH1 or over the fabric with a record. -/
theorem ring_effect (s : State) (dest hops : Nat) (frame : List Byte) :
    let t := if s.phl.ph1.up then s.emit (.ring false dest (hops + 1) frame)
      else (s.emit (.ring true dest (hops + 1) frame)).record sevError .phl 3 1 dest Addr.PHL_ERR
    OnlyParts [.out, .records] s t ∧ t.out = s.out ++ [.ring (!s.phl.ph1.up) dest (hops + 1) frame] ∧
    (s.phl.ph1.up = true → OnlyParts [.out] s t) := by
  cases h : s.phl.ph1.up
  · refine ⟨(s.emit_only _).comp (State.record_only _ sevError .phl 3 1 dest Addr.PHL_ERR), ?_, fun hf => absurd hf (by decide)⟩
    exact State.record_out ..
  · exact ⟨(s.emit_only _).mono (by decide), rfl, fun _ => s.emit_only _⟩

end Ring
end Sys2Proof.Machine
end

section
/-! SUPPORT. Frames of the twin as they are taken (07 R224, R230), and the LEASE frame (R246). -/

namespace Sys2Proof.Machine

section Taken
variable {s t b : State} {f : MFrame} {mode : Nat}

/-- The space of frames that brought nothing that still stands is free. -/
def State.released (s : State) : State := s.updPhl (fun x => { x with rxHeld := x.rxHeld.filter (fun e => s.holdsSpace e.1) })

theorem released_only (s : State) : OnlyParts [.phl] s s.released := s.updPhl_quiet rfl

theorem releaseSpace_eq (s : State) : ∃ o, s.releaseSpace = s.released.emits o := by
  unfold State.releaseSpace State.returnCredit
  dsimp only
  split
  · exact ⟨_, rfl⟩
  · exact ⟨[], (emits_none _).symm⟩

theorem ackFrame_eq (s : State) (h : s.on F.PHL_CTL.ENCRYPT = false) (fb : Bool) : ∃ o, s.ackFrame fb = s.emits o := by
  unfold State.ackFrame
  rw [h]
  cases fb
  · exact ⟨_, rfl⟩
  · exact ⟨_, rfl⟩

theorem emits_emits (s : State) (o p : List Out) : (s.emits o).emits p = s.emits (o ++ p) := by
  unfold State.emits
  dsimp only
  rw [List.append_assoc]

theorem emits_on (s : State) (o : List Out) (g : Fld) : (s.emits o).on g = s.on g := rfl

theorem released_on (s : State) (g : Fld) : s.released.on g = s.on g := rfl

/-- After a frame: its space, where it holds none any more, and its acknowledgement. -/
theorem afterFrame_eq (hh : b.phl.hmapIn = []) (he : b.on F.PHL_CTL.ENCRYPT = false) (fb : Bool) :
    ∃ o, (b.runHmaps.releaseSpace).ackFrame fb = b.released.emits o := by
  rw [runHmaps_none hh]
  obtain ⟨o, ho⟩ := releaseSpace_eq b
  obtain ⟨p, hp⟩ := ackFrame_eq (b.released.emits o) (by rw [emits_on, released_on]; exact he) fb
  exact ⟨o ++ p, by rw [ho, hp, emits_emits]⟩

/-- The frame that is next in MSN order is taken. -/
theorem rxFrame_taken (h : FrameTaken s f) (body : State → State) : s.rxFrame f true body =
    .next (((body (s.updPhl (fun x => x.takeFrame f))).runHmaps.releaseSpace).ackFrame f.fallback) := by
  obtain ⟨hr, hc, hs, hl, hm, -, -⟩ := h
  have hd : s.discards f = false := by
    unfold State.discards
    rw [hm, bne_self_eq_false, Bool.and_false]
  unfold State.rxFrame
  rw [when_pos (by rw [hr, hc, hd]; rfl), hs, hl, hm, beq_self_eq_true]
  rfl

theorem exec_lease_linked (h : s.phl.twin.linked = true) (mode : BitVec 3) :
    exec (.lease f mode) s = s.rxFrame f true (fun s => s.takeLease f mode.toNat) := by
  show execLease f mode s = _
  unfold execLease
  rw [if_pos h]

theorem exec_lease_unlinked (h : s.phl.twin.linked = false) (hr : s.running .phl = true) (hc : s.channelUp f.fallback = true) (hs : s.stale f = false)
    (mode : BitVec 3) : exec (.lease f mode) s = .next (s.updPhl (fun x => { x with twinMode := mode.toNat })) := by
  show execLease f mode s = _
  unfold execLease
  rw [h, if_neg (by decide), when_pos (by rw [hr, hc, hs]; rfl)]

/-- The link side with the frame taken, the twin's mode known and the lease term begun. -/
def PhlState.granted (f : MFrame) (mode : Nat) (x : PhlState) : PhlState :=
  { x.takeFrame f with twinMode := mode, leaseRunning := true, guardPassed := false }

theorem granted_only (s : State) (f : MFrame) (mode : Nat) : OnlyParts [.phl] s (s.updPhl (PhlState.granted f mode)) := s.updPhl_quiet rfl

/-- A grant of the latest request. -/
theorem takeLease_grant (ha : f.aux.getLsbD 0 = true) (hp : s.phl.primary = true) (hn : f.ref.toNat = s.phl.leaseNo)
    (ht : s.phl.twin ≠ .unconfirmed) : (s.updPhl (fun x => x.takeFrame f)).takeLease f mode = s.updPhl (PhlState.granted f mode) := by
  have hc : ((s.updPhl (fun x => x.takeFrame f)).phl.primary && f.ref.toNat == (s.updPhl (fun x => x.takeFrame f)).phl.leaseNo) = true := by
    have h1 : (s.updPhl (fun x => x.takeFrame f)).phl.primary = s.phl.primary := rfl
    have h2 : (s.updPhl (fun x => x.takeFrame f)).phl.leaseNo = s.phl.leaseNo := rfl
    rw [h1, h2, hp, hn, beq_self_eq_true]
    rfl
  unfold State.takeLease
  rw [if_pos ha, if_pos hc]
  exact if_neg (show ¬(s.updPhl (PhlState.granted f mode)).phl.twin = .unconfirmed from ht)

/-- A request at the side that does not hold the lease is granted. -/
theorem takeLease_asked (ha : f.aux.getLsbD 0 = false) (hp : s.phl.primary = false) :
    (s.updPhl (fun x => x.takeFrame f)).takeLease f mode = (s.updPhl (PhlState.granted f mode)).sendLease true f.ref.toNat := by
  have h1 : (s.updPhl (fun x => x.takeFrame f)).phl.primary = false := hp
  unfold State.takeLease
  rw [if_neg (by rw [ha]; decide), h1, if_neg (by decide)]
  rfl

theorem taken_rxHeld (x : PhlState) (f : MFrame) (t : State) (mode : Nat) :
    { x.granted f mode with rxHeld := (x.granted f mode).rxHeld.filter (fun e => t.holdsSpace e.1) } =
    { x.taken f t with twinMode := mode, leaseRunning := true, guardPassed := false } := rfl

theorem lease_grant_effect (h : FrameTaken s f) (mode : Nat) :
    let t := (((s.updPhl (PhlState.granted f mode)).runHmaps.releaseSpace).ackFrame f.fallback)
    OnlyParts [.phl, .out] s t ∧ t.phl = { s.phl.taken f t with twinMode := mode, leaseRunning := true, guardPassed := false } := by
  obtain ⟨-, -, -, -, -, he, hh⟩ := h
  obtain ⟨o, ho⟩ := afterFrame_eq (b := s.updPhl (PhlState.granted f mode)) hh he f.fallback
  intro t
  have ht : t = (s.updPhl (PhlState.granted f mode)).released.emits o := ho
  have hsp : ∀ m, t.holdsSpace m = (s.updPhl (PhlState.granted f mode)).holdsSpace m := by
    rw [ht]
    exact fun m => rfl
  refine ⟨?_, ?_⟩
  · rw [ht]
    exact ((granted_only s f mode).trans (released_only _)).comp (emits_only _ o)
  · rw [← taken_rxHeld]
    simp only [hsp]
    rw [ht]
    rfl

theorem lease_asked_effect (h : FrameTaken s f) (mode : Nat) :
    let t := ((((s.updPhl (PhlState.granted f mode)).sendLease true f.ref.toNat).runHmaps.releaseSpace).ackFrame f.fallback)
    OnlyParts [.phl, .out, .pmu] s t ∧ t.phl.leaseRunning = true ∧ t.phl.guardPassed = false ∧ t.phl.twinMode = mode ∧
    Sends s t (leaseFrame s true f.ref.toNat) := by
  obtain ⟨-, -, -, -, -, he, hh⟩ := h
  have hl := sendLease_only (s.updPhl (PhlState.granted f mode)) true f.ref.toNat
  have hs := sendLease_sends (s.updPhl (PhlState.granted f mode)) true f.ref.toNat
  have hp := sendLease_phl (s.updPhl (PhlState.granted f mode)) true f.ref.toNat
  rw [leaseFrame_congr (State.updPhl_regs ..)] at hs hp
  rw [sendFrame_link] at hp
  have hup : (PhlState.granted f mode s.phl).ph0.up = s.phl.ph0.up := by
    unfold PhlState.granted PhlState.takeFrame
    cases f.fallback <;> rfl
  have hsend : Sends s ((s.updPhl (PhlState.granted f mode)).sendLease true f.ref.toNat) (leaseFrame s true f.ref.toNat) :=
    hs.of_updPhl rfl rfl rfl rfl rfl rfl hup rfl rfl
  have hon : ((s.updPhl (PhlState.granted f mode)).sendLease true f.ref.toNat).on F.PHL_CTL.ENCRYPT = false :=
    (State.on_of_raw (hl.raw_eq (by decide) (by decide))).trans he
  intro t
  simp only [t]
  generalize (s.updPhl (PhlState.granted f mode)).sendLease true f.ref.toNat = b at hl hp hsend hon ⊢
  obtain ⟨o, ho⟩ := afterFrame_eq (by rw [hp]; exact hh) hon f.fallback
  rw [ho]
  refine ⟨(((granted_only s f mode).comp hl).comp ((released_only b).comp (emits_only _ o))).mono (by decide), ?_, ?_, ?_,
    (hsend.after (u := b.released) rfl rfl rfl rfl (List.Subset.refl _)).emits o⟩
  all_goals
    have hb : (b.released.emits o).phl = { b.phl with rxHeld := b.phl.rxHeld.filter (fun e => b.holdsSpace e.1) } := rfl
    rw [hb, hp]
    rfl

end Taken
end Sys2Proof.Machine
end

section
/-! SUPPORT. LINK_ID: a port comes up, or another device is refused (07 R4, R225, R240). -/

namespace Sys2Proof.Machine

section LinkId
variable {s t : State} {id : LinkId}

/-! ### Refused -/

/-- One of the two flags says why. -/
def Mismatch (t : State) : Prop := t.fld F.PHL_ERR.PEER_MISMATCH = 1 ∨ t.fld F.PHL_ERR.ENC_MISMATCH = 1

theorem linkMismatch_effect (h : s.matches_ id = false) : OnlyParts [.regs, .records] s (s.linkMismatch id) ∧
    RegsBut [Addr.PHL_ERR] s (s.linkMismatch id) ∧ Mismatch (s.linkMismatch id) ∧ (s.linkMismatch id).phl = s.phl := by
  obtain ⟨o1, r1, f1, p1⟩ := phlFlag_effect s (f := F.PHL_ERR.PEER_MISMATCH) rfl (by decide) (by decide) sevError 0
  unfold State.linkMismatch
  dsimp only
  by_cases hd : (!s.isPartner id.position.toNat || id.product.toNat != s.fld F.GEN_ID.PRODUCT) = true
  · rw [if_pos hd]
    split
    · obtain ⟨o2, r2, f2, p2⟩ := phlFlag_effect (s.recFlag sevError .phl F.PHL_ERR.PEER_MISMATCH 0) (f := F.PHL_ERR.ENC_MISMATCH) rfl
        (by decide) (by decide) sevError 0
      exact ⟨o1.trans o2, r1.trans r2, .inr f2, p2.trans p1⟩
    · exact ⟨o1, r1, .inl f1, p1⟩
  · obtain ⟨o2, r2, f2, p2⟩ := phlFlag_effect s (f := F.PHL_ERR.ENC_MISMATCH) rfl (by decide) (by decide) sevError 0
    have he : id.encrypt ≠ s.on F.PHL_CTL.ENCRYPT := fun e => by
      obtain ⟨h1, h2⟩ : s.isPartner id.position.toNat = true ∧ id.product.toNat = s.fld F.GEN_ID.PRODUCT := by simpa using hd
      rw [State.matches_, h1, h2, e, beq_self_eq_true, beq_self_eq_true] at h
      exact absurd h (by decide)
    rw [if_neg hd, if_pos he]
    exact ⟨o2, r2, .inr f2, p2⟩

theorem Mismatch.after {u : State} (h : Mismatch t) (hr : ∀ a, u.raw a = t.raw a) : Mismatch u := by
  unfold Mismatch
  rw [State.fld_of_raw (hr _), State.fld_of_raw (hr _)]
  exact h

theorem takeLinkId_refused (h : s.matches_ id = false) (fb : Bool) :
    s.takeLinkId fb id = if fb then s.linkMismatch id else (s.linkMismatch id).setPh .ph0 PhState.reset := by
  unfold State.takeLinkId
  rw [if_neg (by rw [h]; decide)]

/-- PH0 goes down again for a device that is not the twin. -/
theorem refused_ph0_effect (h : s.matches_ id = false) : let t := (s.linkMismatch id).setPh .ph0 PhState.reset
    OnlyParts [.phl, .regs, .records] s t ∧ RegsBut [Addr.PHL_ERR] s t ∧ t.phl = { s.phl with ph0 := PhState.reset } ∧ Mismatch t := by
  obtain ⟨ho, hr, hm, hp⟩ := linkMismatch_effect h
  refine ⟨(ho.comp (setPh_only _ .ph0 _)).mono (by decide), fun a ha hpm => (setPh_raw _ _ _ a).trans (hr a ha hpm), ?_, hm.after (setPh_raw _ _ _)⟩
  rw [← hp]
  rfl

theorem takeRingId_same (h : id.product.toNat = s.fld F.GEN_ID.PRODUCT) : s.takeRingId id = s.setPh .ph1 { s.phl.ph1 with up := true } := if_pos h

/-- PH1 goes down again for another product. -/
theorem refused_ph1_effect (h : id.product.toNat ≠ s.fld F.GEN_ID.PRODUCT) :
    OnlyParts [.phl, .regs, .records] s (s.takeRingId id) ∧ RegsBut [Addr.PHL_ERR] s (s.takeRingId id) ∧
    (s.takeRingId id).phl = { s.phl with ph1 := PhState.reset } ∧ Mismatch (s.takeRingId id) := by
  obtain ⟨o1, r1, f1, p1⟩ := phlFlag_effect s (f := F.PHL_ERR.PEER_MISMATCH) rfl (by decide) (by decide) sevError 1
  have he : s.takeRingId id = (s.recFlag sevError .phl F.PHL_ERR.PEER_MISMATCH 1).setPh .ph1 PhState.reset := if_neg h
  have hm : Mismatch (s.recFlag sevError .phl F.PHL_ERR.PEER_MISMATCH 1) := .inl f1
  rw [he]
  refine ⟨(o1.comp (setPh_only _ .ph1 _)).mono (by decide), fun a ha hpm => (setPh_raw _ _ _ a).trans (r1 a ha hpm), ?_, hm.after (setPh_raw _ _ _)⟩
  rw [← p1]
  rfl

/-! ### Known, and not yet linked -/

/-- LINK_ID agrees, and the link may be made with it. -/
def MayLink (s : State) (id : LinkId) : Prop := s.matches_ id = true ∧ (s.on F.PHL_CTL.ENCRYPT = false ∨ s.cip.fabricRoot.isSome = true)

theorem takeLinkId_known (h : MayLink s id) (fb : Bool) :
    s.takeLinkId fb id = if s.decidesLink then (s.knowPeer fb id).decideLink id else s.knowPeer fb id := by
  obtain ⟨hm, hc⟩ := h
  have hn : (s.on F.PHL_CTL.ENCRYPT && s.cip.fabricRoot.isNone) = false := by
    obtain hc | hc := hc
    · rw [hc, Bool.false_and]
    · rw [Option.isNone_eq_false_iff.mpr hc, Bool.and_false]
  unfold State.takeLinkId
  rw [if_pos hm, hn]
  rfl

theorem takeLinkId_rootless (hm : s.matches_ id = true) (he : s.on F.PHL_CTL.ENCRYPT = true) (hr : s.cip.fabricRoot = none) (fb : Bool) :
    s.takeLinkId fb id = s := by
  unfold State.takeLinkId
  rw [if_pos hm, he, hr]
  rfl

theorem knowPeer_only (s : State) (fb : Bool) (id : LinkId) : OnlyParts [.phl] s (s.knowPeer fb id) := s.updPhl_quiet rfl

/-! ### Linked -/

/-- The link side of twins that pair: the stream starts anew, and the lease term with it. -/
def PhlState.linkedTo (x : PhlState) (id : LinkId) (credit : Nat) (odd : Bool) : PhlState :=
  { x.quiet with
    rxNext := (id.sent.toNat + 1) % 2 ^ 32, peerReceived := id.received.toNat, lostByCommand := false, credit := credit
    primary := x.primary || (!id.primary && !odd), twinChOut := [], leaseRunning := true, guardPassed := false, servedAlone := false }

theorem linked_eq (s : State) (id : LinkId) : (s.linked_ id).updPhl (fun x => { x with servedAlone := false }) =
    s.updPhl (fun x => x.linkedTo id s.fullCredit s.odd) := rfl

/-- Of no unit in doubt none is dropped. -/
def State.noneDropped (s : State) : State := s.bumpBy F.PHL_CNT3.IN_DOUBT_DROPPED 0

theorem noneDropped_only (s : State) : OnlyParts [.regs] s s.noneDropped := State.bumpBy_only s _ 0 (by decide)

theorem noneDropped_regsBut (s : State) : RegsBut [Addr.PHL_CNT3] s s.noneDropped :=
  RegsBut.bumpBy s F.PHL_CNT3.IN_DOUBT_DROPPED 0 (List.mem_singleton.mpr rfl)

theorem noneDropped_fullCredit (s : State) : s.noneDropped.fullCredit = s.fullCredit := by
  unfold State.fullCredit
  rw [State.fld_of_raw (noneDropped_regsBut s _ (by decide) (by decide))]

theorem noneDropped_odd (s : State) : s.noneDropped.odd = s.odd := by
  unfold State.odd
  rw [noneDropped_only s .seq (by decide)]

theorem pairUp_none (hu : s.pst.units = []) (hc : s.phl.copies = []) : s.pairUp id =
    (s.noneDropped.updPhl (fun x => x.linkedTo id s.fullCredit s.odd)).tellOut.enterPaired.sendPriv.serveReads := by
  have hp : s.noneDropped.phl = s.phl := State.bumpBy_phl ..
  rw [← noneDropped_fullCredit s, ← noneDropped_odd s]
  unfold State.pairUp
  rw [hu]
  change ((((s.noneDropped.discardCopies).linked_ id).updPhl (fun x => { x with servedAlone := false })).tellOut).enterPaired.sendPriv.serveReads = _
  rw [discardCopies_none (by rw [hp]; exact hc), linked_eq]

/-- What pairing needs besides: no other state depends on the regions of privileged queues, on channels that are out, on sessions. -/
structure PairsQuietly (s : State) : Prop where
  chOut : s.svc.chOut = []
  priv : ∀ e ∈ s.regions, s.ownPriv e.1 = false
  sessions : ∀ n < 2, (s.ses (2 ^ 20 - 1 - n)).isSome = true
  units : s.pst.units = []
  reads : s.hst.reads = []
  port : s.phl.ph0.up = true

/-- In RESTORE, with nothing open, the twins pair at once. -/
theorem paired_from (h : PairsQuietly s) (hr : Restoring s) :
    s.tellOut.enterPaired.sendPriv.serveReads = (s.twinSet .paired sevNotice).updPhl (fun x => { x with stalled := false }) := by
  obtain ⟨hch, hpriv, hses, hu, hrd, hup⟩ := h
  have hphl : (s.twinSet .paired sevNotice).phl = { s.phl with twin := .paired } := twinSet_phl ..
  have hpair : s.enterPaired = (s.twinSet .paired sevNotice).updPhl (fun x => { x with stalled := false }) :=
    enterPaired_up hup hses (setTwin_restoring hr (.inl rfl) sevNotice) (twinSet_fab ..) (by rw [twinSet_pst]; exact hu) (by rw [hphl])
      (by rw [hphl]; exact hup)
  have hown : ∀ n, ((s.twinSet .paired sevNotice).updPhl (fun x => { x with stalled := false })).ownPriv n = s.ownPriv n := fun n => by
    unfold State.ownPriv State.odd
    rw [State.updPhl_seq, twinSet_seq]
  rw [tellOut_none hch, hpair, sendPriv_none (fun e he => by
    rw [State.updPhl_regions, twinSet_regions] at he
    rw [hown]
    exact hpriv e he), serveReads_none (by rw [State.updPhl_hst, twinSet_hst]; exact hrd)]

theorem pairUp_effect (h : PairsQuietly s) (hr : Restoring s) (hc : s.phl.copies = []) :
    OnlyParts [.phl, .regs, .records] s (s.pairUp id) ∧ RegsBut [Addr.PHL_CNT3] s (s.pairUp id) ∧
    (s.pairUp id).phl = { s.phl.linkedTo id s.fullCredit s.odd with twin := .paired, stalled := false } := by
  have ho := noneDropped_only s
  have hrb := noneDropped_regsBut s
  obtain ⟨hch, hpriv, hses, hu, hrd, hup⟩ := h
  have hsvc : s.noneDropped.svc = s.svc := ho .svc (by decide)
  have hseq : s.noneDropped.seq = s.seq := ho .seq (by decide)
  have hregions : s.noneDropped.regions = s.regions := ho .regions (by decide)
  have hfab : s.noneDropped.fab = s.fab := ho .fab (by decide)
  have hpst : s.noneDropped.pst = s.pst := ho .pst (by decide)
  have hhst : s.noneDropped.hst = s.hst := ho .hst (by decide)
  have hphl : s.noneDropped.phl = s.phl := ho .phl (by decide)
  have hmod : s.noneDropped.mod = s.mod := ho .mod (by decide)
  have hdst : s.noneDropped.dst = s.dst := ho .dst (by decide)
  rw [pairUp_none hu hc]
  generalize s.noneDropped = d at ho hrb hsvc hseq hregions hfab hpst hhst hphl hmod hdst ⊢
  have hq : PairsQuietly (d.updPhl (fun x => x.linkedTo id s.fullCredit s.odd)) :=
    { chOut := by rw [State.updPhl_svc, hsvc]; exact hch
      priv := fun e he => by
        rw [State.updPhl_regions, hregions] at he
        have hp := hpriv e he
        unfold State.ownPriv State.odd at hp ⊢
        rw [State.updPhl_seq, hseq]
        exact hp
      sessions := fun n hn => by
        have hp := hses n hn
        unfold State.ses at hp ⊢
        rw [State.updPhl_fab, hfab]
        exact hp
      units := by rw [State.updPhl_pst, hpst]; exact hu
      reads := by rw [State.updPhl_hst, hhst]; exact hrd
      port := by rw [State.updPhl_phl, hphl]; exact hup }
  have hlinked : OnlyParts [.phl] d (d.updPhl (fun x => x.linkedTo id s.fullCredit s.odd)) := d.updPhl_quiet rfl
  rw [paired_from hq (hr.congr ((State.updPhl_mod ..).trans hmod) ((State.updPhl_dst ..).trans hdst))]
  refine ⟨(((ho.comp hlinked).comp (twinSet_only _ _ _)).comp (unstalled_only _)).mono (by decide), fun a ha hpm => ?_, ?_⟩
  · rw [State.raw_congr (State.updPhl_regs ..), twinSet_raw, State.raw_congr (State.updPhl_regs ..), hrb a ha hpm]
  · rw [State.updPhl_phl, twinSet_phl, State.updPhl_phl, hphl]

theorem decideLink_pairs (ht : s.phl.twin = .linking) (he : id.epoch.toNat = s.phl.epoch) (hk : id.imageKept = false) :
    s.decideLink id = s.pairUp id := by
  have h2 : ¬(s.phl.epoch < s.phl.epoch ∨ (id.imageKept = true ∧ s.keptImage = false)) := fun h => by
    obtain h | ⟨h, -⟩ := h
    · exact absurd h (lt_irrefl _)
    · rw [hk] at h
      exact absurd h (by decide)
  unfold State.decideLink
  rw [ht, he]
  dsimp only
  rw [if_neg (lt_irrefl _), if_neg h2]

theorem decidesLink_restoring (ht : s.phl.twin = .linking) (hr : Restoring s) : s.decidesLink = true := by
  obtain ⟨hm, -⟩ := hr
  unfold State.decidesLink
  rw [ht, hm]
  rfl

theorem takeLinkId_pairs (hl : MayLink s id) (ht : s.phl.twin = .linking) (hr : Restoring s) (he : id.epoch.toNat = s.phl.epoch)
    (hk : id.imageKept = false) : s.takeLinkId false id = (s.knowPeer false id).pairUp id := by
  rw [takeLinkId_known hl, decidesLink_restoring ht hr, if_pos rfl]
  exact decideLink_pairs (s := s.knowPeer false id) ht he hk

/-- The twins pair at LINK_ID's equal epoch, with neither image kept. -/
theorem linkPairs_effect (hr : Restoring s) (hs : Settled s) (hch : s.svc.chOut = []) (hpriv : ∀ e ∈ s.regions, s.ownPriv e.1 = false)
    (hses : ∀ n < 2, (s.ses (2 ^ 20 - 1 - n)).isSome = true) :
    let t := (s.knowPeer false id).pairUp id
    OnlyParts [.phl, .regs, .records] s t ∧ RegsBut [Addr.PHL_CNT3] s t ∧
    t.phl = { (s.knowPeer false id).phl.linkedTo id s.fullCredit s.odd with twin := .paired, stalled := false } := by
  obtain ⟨hu, -, hc, hrd, -, -⟩ := hs
  have hq : PairsQuietly (s.knowPeer false id) := ⟨hch, hpriv, hses, hu, hrd, rfl⟩
  obtain ⟨ho, hrb, hp⟩ := pairUp_effect (id := id) hq (hr.congr rfl rfl) hc
  exact ⟨((knowPeer_only s false id).comp ho).mono (by decide), hrb, hp⟩

theorem exec_linkId_ph0 (hr : s.running .phl = true) (ht : s.phl.ph0.trained = true) (hu : s.phl.ph0.up = false) :
    exec (.linkId .ph0 id) s = .next (s.takeLinkId false id) :=
  when_pos (by rw [hr, ht, hu]; rfl) _ _

theorem exec_linkId_ph1 (hr : s.running .phl = true) (ht : s.phl.ph1.trained = true) (hu : s.phl.ph1.up = false) :
    exec (.linkId .ph1 id) s = .next (s.takeRingId id) :=
  when_pos (by rw [hr, ht, hu]; rfl) _ _

theorem exec_linkId_fallback (hr : s.running .phl = true) (ht : s.twinSession = true) (hl : s.phl.linkIdSeen = false) :
    exec (.linkId .fallback id) s = .next (s.takeLinkId true id) :=
  when_pos (by rw [hr, ht, hl]; rfl) _ _

end LinkId
end Sys2Proof.Machine
end

section
open Sys2Proof Sys2Proof.Machine

/-- Settles O38: each row's step is written out on the states of its clause, where nothing is open, and the frames, records and
counters of that step are read off; a frame sent keeps its place in the stream through what follows it. -/
theorem portsLeaseAndTwinStateChange : Obligations.PortsLeaseAndTwinStateChange := by
  unfold Obligations.PortsLeaseAndTwinStateChange
  dsimp only [-Nat.reducePow]
  refine ⟨fun s p hr => ⟨?linkUp, ?untrained, ?trained, ?retry⟩, fun s hr hw hh => ⟨?exit, ?resync, ?alone, ?renewal, ?expiry, ?guard, ?silence, ?ring⟩,
    fun s f mode hr hc hs => ⟨?unlinked, ?taken⟩, fun s level hr ht => ⟨?low, ?high⟩, fun s id hr => ⟨?ph0, ?ph1, ?fallback⟩⟩
  case linkUp => exact fun wide he ht hl => ⟨_, exec_phLinkUp hr p wide he ht hl, sendLinkId_effect s p _ rfl⟩
  case untrained => exact fun hl wide => ⟨_, exec_phLinkUp_untrained p wide hl, rfl⟩
  case trained =>
    refine fun ht => ⟨fun first count hc hf h7 => ⟨_, exec_flitReplay hr ht hc hf h7, flitReplay_effect s p _ _⟩,
      ⟨_, when_pos (by rw [hr, ht]; rfl) _ _, setPh_only s p _, setPh_at s p _⟩,
      fun hw => ⟨_, when_pos (by rw [hr, ht, hw]; rfl) _ _, widthDegrade_effect s p _⟩, fun hp => ?_, fun hp h2 hm hw => ?_⟩
    · subst hp
      obtain ⟨h1, h2, h3, h4⟩ := failPort_flag s .ph1 { PhState.reset with failed := true } (f := F.PHL_ERR.PH1_FAIL) rfl (by decide) (by decide) 1
      exact ⟨_, exec_portFailed_ph1 hr ht, h1, ⟨fun a ha hpm => h2 a (fun h => ha (by rw [List.mem_singleton.mp h]; exact List.mem_cons_self)) hpm, h4⟩, h3⟩
    · subst hp
      exact ⟨_, exec_portFailed_ph0 hr ht h2, portFailed_ph0_effect hm hw _⟩
  case retry => exact fun he hf => ⟨_, when_pos (by rw [hr, he, hf]; rfl) _ _, setPh_only s p _, setPh_at s p _⟩
  case exit => exact fun ht hu hl hm hn => ⟨_, exec_fallbackExit hr ht hu hl, fallbackExit_effect hm hu hn⟩
  case resync =>
    intro ht hl hf hset hm hu hses
    obtain ⟨hp, hx, -, hrd, -, -⟩ := hset
    exact ⟨_, exec_resyncComplete hr ht hl hf hp hx, resyncComplete_effect hp hrd hm hu hses _⟩
  case alone =>
    intro ht hset hrest
    obtain ⟨h1, h2, h3, h4, h5⟩ := enterAlone_effect hset hrest hw hh sevWarn
    refine ⟨fun hk hl => ⟨_, exec_linkWait hr ht hk hl, h1, h2, h3, h4, h5⟩, fun path => ⟨_, exec_forceAlone path hr ht,
      (h1.comp (State.recordFull_only _ sevAudit .phl 1 0 path.code Addr.PHL_STATUS 0 0)).mono (by decide), fun a ha hpm => ?_, ?_, ?_, ?_⟩⟩
    · rw [State.raw_congr (State.recordFull_regs ..), h2 a ha hpm]
    · rw [State.recordFull_phl, h3]
      rfl
    · rw [State.recordFull_pst, h4]
    · rw [State.recordFull_regions, h5]
      rfl
  case renewal =>
    intro hp hl
    have h := leaseRenewal_effect s
    rw [leaseFrame_asks] at h
    exact ⟨_, exec_leaseRenewal hr hp hl, h⟩
  case expiry => exact fun hl ht => ⟨_, exec_leaseExpiry hr hl ht, s.updPhl_quiet rfl, rfl⟩
  case guard => exact fun hl hg ht => ⟨_, exec_leaseGuardExpiry hr hl hg ht, s.updPhl_quiet rfl, rfl⟩
  case silence =>
    intro ht hb
    have hne : s.phl.twin ≠ .resyncIn := by obtain h | h | h := ht <;> rw [h] <;> decide
    refine ⟨fun hp hu hg => ⟨_, exec_fbConfirmExpiry hr ht (fun _ => hu), ?_⟩, fun hp hset hm =>
      ⟨_, exec_fbConfirmExpiry hr ht (fun h => absurd (hp.symm.trans h) (by decide)), ?_⟩⟩
    · rw [silent_waits hp hb hg hne]
      exact ⟨silent_only s, silent_phl s⟩
    · rw [silent_loses hp hb hne]
      exact loses_effect hset hw hh hm
  case ring =>
    intro dest hops frame hd
    by_cases hb : hops.toNat + 1 < Config.boardDevices
    · exact ⟨_, exec_ringFrameForward hr hd hb, fun h => absurd hb h, fun _ => ring_effect s _ _ frame⟩
    · exact ⟨_, exec_ringFrameForward_last hb, fun _ => rfl, fun h => absurd h hb⟩
  case unlinked => exact fun hl => ⟨_, exec_lease_unlinked hl hr hc hs mode, s.updPhl_quiet rfl, rfl⟩
  case taken =>
    intro ht
    obtain ⟨-, -, -, hl, -, -, -⟩ := id ht
    refine ⟨fun ha hp hn hu => ⟨_, (exec_lease_linked hl mode).trans (rxFrame_taken ht _), ?_⟩, fun ha hp =>
      ⟨_, (exec_lease_linked hl mode).trans (rxFrame_taken ht _), ?_⟩⟩
    · rw [takeLease_grant ha hp hn hu]
      exact lease_grant_effect ht mode.toNat
    · rw [takeLease_asked ha hp]
      exact lease_asked_effect ht mode.toNat
  case low =>
    rintro rfl hl
    exact ⟨_, exec_hbStatic_low hr hl ht, s.updPhl_quiet rfl, rfl⟩
  case high =>
    rintro rfl hl hu
    obtain ⟨h1, h2, h3, h4⟩ := phlFlag_effect (s.updPhl (fun x => { x with hbIn := .high })) (f := F.PHL_ERR.HB_FAULT) rfl (by decide) (by decide) sevWarn 0
    exact ⟨_, exec_hbStatic_high hr hl hu ht, (OnlyParts.comp (s.updPhl_quiet rfl) h1), h2, h3, h4⟩
  case ph0 =>
    refine fun ht hu => ⟨fun hm hlk hrest he hk hset hch htw hhi hpriv hses => ⟨_, exec_linkId_ph0 hr ht hu, ?_⟩,
      fun hm hd => ⟨_, exec_linkId_ph0 hr ht hu, ?_⟩, fun hm he hroot => ⟨_, exec_linkId_ph0 hr ht hu, takeLinkId_rootless hm he hroot false⟩,
      fun hm => ⟨_, exec_linkId_ph0 hr ht hu, ?_⟩⟩
    · rw [takeLinkId_pairs hm hlk hrest he hk]
      exact linkPairs_effect hrest hset hch hpriv hses
    · rw [takeLinkId_known hm, hd]
      exact ⟨knowPeer_only s false id, rfl⟩
    · rw [takeLinkId_refused hm]
      exact refused_ph0_effect hm
  case ph1 =>
    refine fun ht hu => ⟨fun hp => ⟨_, exec_linkId_ph1 hr ht hu, ?_⟩, fun hp => ⟨_, exec_linkId_ph1 hr ht hu, refused_ph1_effect hp⟩⟩
    rw [takeRingId_same hp]
    exact ⟨setPh_only s .ph1 _, rfl⟩
  case fallback =>
    refine fun ht hl => ⟨fun hm hd => ⟨_, exec_linkId_fallback hr ht hl, ?_⟩, fun hm => ⟨_, exec_linkId_fallback hr ht hl, ?_⟩⟩
    · rw [takeLinkId_known hm, hd]
      exact ⟨knowPeer_only s true id, rfl⟩
    · rw [takeLinkId_refused hm]
      obtain ⟨h1, h2, h3, h4⟩ := linkMismatch_effect hm
      exact ⟨h1.mono (by decide), h2, h4, h3⟩
end

section
/-! Two mirror copies under one MSN: no premise of O28 shuts them out, and placement drops every copy of the MSN. -/

namespace Sys2Proof.Machine
open Sys2Proof.Tests

/-- A charged and committed copy of MSN 9 that holds one byte. -/
def copyAt (dpa : Nat) (b : Byte) : Copy :=
  { uid := 0, msn := 9, extent := false, ref := none, region := 5, dpa := dpa, cls := .d2, position := 1, last := true, cells := [(dpa, b)],
    committed := true, charged := true }

/-- The buffer holds two copies of MSN 9, which do not overlap. -/
def sharedMsn : State :=
  let s := ncOff crossing
  { s with phl := { s.phl with copies := [copyAt 0x10020 7, copyAt 0x10040 5] } }

theorem sharedMsn_first : copyAt 0x10020 7 ∈ sharedMsn.phl.copies ∧
    sharedMsn.phl.copies.find? (fun d => d.msn == (copyAt 0x10020 7).msn) = some (copyAt 0x10020 7) := ⟨List.mem_cons_self, rfl⟩

theorem sharedMsn_places : sharedMsn.placing = true ∧
    (sharedMsn.phl.copies.takeWhile (fun d => d.msn != (copyAt 0x10020 7).msn)).any (fun d => d.region == (copyAt 0x10020 7).region) = false ∧
    sharedMsn.unrestoredIn (copyAt 0x10020 7).dpa (copyAt 0x10020 7).span = false ∧
    sharedMsn.uncopiedIn (copyAt 0x10020 7).dpa (copyAt 0x10020 7).span = false ∧
    sharedMsn.repairing (copyAt 0x10020 7).dpa (copyAt 0x10020 7).span = false ∧ sharedMsn.nc.st = .off ∧
    sharedMsn.memoriesSound = true := by
  decide +kernel

/-- The second copy's byte is read before, and zero is read after its MSN is placed. -/
theorem sharedMsn_loses : sharedMsn.byte 0x10040 = 5 ∧ (after (exec (.placement true 9) sharedMsn)).byte 0x10040 = 0 := by
  decide +kernel

end Sys2Proof.Machine
end

section
open Sys2Proof Sys2Proof.Machine

/-- Refutes O28: its last clause places the first copy of an MSN, and nothing in it says that the MSN names one copy; where a second
committed copy carries the same MSN, that one goes too, without its bytes having been placed, and its address reads differently. -/
theorem not_unitsCommitInOrderAndArePlaced : ¬ Obligations.UnitsCommitInOrderAndArePlaced := by
  unfold Obligations.UnitsCommitInOrderAndArePlaced
  rintro ⟨-, -, -, -, -, placesCopy⟩
  obtain ⟨hmem, hfind⟩ := sharedMsn_first
  obtain ⟨hplacing, hturn, hrestored, hcopied, hrepair, hnc, hsound⟩ := sharedMsn_places
  obtain ⟨t, ht, -, -, -, hread⟩ := placesCopy sharedMsn (copyAt 0x10020 7) hplacing hmem hfind rfl rfl hturn hrestored hcopied hrepair hnc hsound
  obtain ⟨hbefore, hafter⟩ := sharedMsn_loses
  have hkept : t.byte 0x10040 = 5 := (hread 0x10040 rfl).trans hbefore
  rw [show (9 : Nat) = (copyAt 0x10020 7).msn from rfl, ht] at hafter
  exact absurd (hkept.symm.trans hafter) (by decide)
end

section
/-! A committed unit that carries the number the next unit takes: the parity clause of O18 has no premise on the numbers, and the
unit that a released checkpoint brings drops it from the buffer when it is enrolled. -/

namespace Sys2Proof.Machine
open Sys2Proof.Tests

/-- An ENC of 16 bytes, of class D1, whose message runs. -/
def encOp : Op := { cipherOp 0x41 (some (cipherKey 0)) .running (List.replicate 16 0) with cls := .d1 }

/-- Its message, at its end. -/
def encMsg : CipMsg := { id := 0, work := .strand 0 0, lane := false, cls := 0, left := 0, len := 16, bad := [] }

/-- A committed unit of one byte, which carries the number 0. -/
def staleUnit : CUnit :=
  { mkUnit 0 5 (ordinary .d1) 0x10200 1 [(0x10200, 7)] .d1 .device false with written := true, charged := true, committed := true }

/-- AES core 3 runs the message of the ENC, all of which stands before its last checkpoint; the next unit's number is the committed unit's. -/
def staleNumber : State :=
  let s := withOp encOp
  { s with
    pst := { s.pst with units := [staleUnit], nextUnit := staleUnit.id }
    dst := { s.dst with pages := [(4, dirtied 1 0 none)] }
    cip := { s.cip with units := [(3, { CipUnit.idle with running := some encMsg })] } }

theorem staleNumber_inService : staleNumber.running .cip = true ∧
    (3 : BitVec 6).toNat ∈ staleNumber.unitsInService (decide (32 ≤ (3 : BitVec 6).toNat)) := by
  decide +kernel

/-- The committed unit's byte is read before; after the parity error the unit is gone, and zero is read. -/
theorem staleNumber_loses : staleNumber.byte 0x10200 = 7 ∧
    (after (exec (.cipParityError 3 false 0) staleNumber)).byte 0x10200 = 0 := by
  decide +kernel

end Sys2Proof.Machine
end

section
open Sys2Proof Sys2Proof.Machine

/-- Refutes O18: its parity clause names every part that may change, the bytes that are read not among them, on every state. Where a
committed unit carries the number that the next unit takes, the checkpoint that is released admits a unit under that number, its
charge drops the committed one from the buffer, and an address reads differently. -/
theorem not_cipherSchedulerServesMessages : ¬ Obligations.CipherSchedulerServesMessages := by
  unfold Obligations.CipherSchedulerServesMessages
  rintro ⟨-, -, -, -, -, parityError, -⟩
  obtain ⟨hrun, hservice⟩ := staleNumber_inService
  obtain ⟨t, ht, -, -, -, -, honly, -⟩ := parityError staleNumber 3 false 0 hrun hservice
  obtain ⟨hbefore, hafter⟩ := staleNumber_loses
  have hkept : t.byte 0x10200 = 7 := (honly .bytes (by decide) 0x10200).trans hbefore
  rw [ht] at hafter
  exact absurd (hkept.symm.trans hafter) (by decide)
end

section
/-! A loan over a session numbered 2^20, the number the model keeps for the ring: nothing in the RFNC clause of O19 shuts it out, where
PUT's and GET's ask for a session below it. -/

namespace Sys2Proof.Machine
open Sys2Proof.Tests

/-- The ring's number stands for a session: an OPEN one that the loan of the test strand names. -/
def sessionAtRing : State :=
  let s := remoteState rfncWord true
  { s with fab := { s.fab with sessions := [(ringLink, smallSession)] }
           tir := { s.tir with loansIn := [(0, { ringLoan with session := some ringLink })] } }

/-- What the loan's handle reaches. -/
def reachAtRing : Remote :=
  { session := some ringLink, loan := some 0, region := 9, lo := 0, hi := 0x1000, shift := 0x100, key := 0x77, rights := 3, expired := false }

theorem sessionAtRing_issues : CanIssue sessionAtRing 0 (remoteIss rfncWord true) ∧ HasWord sessionAtRing (remoteIss rfncWord true) 1 ∧
    FreshOp (remoteIss rfncWord true) ∧ (remoteIss rfncWord true).c.ops = [] ∧ (remoteIss rfncWord true).i.op = 0x54 := by
  decide +kernel

/-- The RFNC's access, at the first offset the loan allows. -/
def fenceAtRing : Acc :=
  let x := remoteIss rfncWord true
  { x.primAcc .remote 0 0 false none with off := ((sessionAtRing.reach x (x.primAcc .remote 0 0 false none).h).map (·.lo)).getD 0 }

theorem sessionAtRing_checks : sessionAtRing.checks (remoteIss rfncWord true).st [fenceAtRing] true true = none := by decide +kernel

theorem sessionAtRing_reaches :
    sessionAtRing.reach (remoteIss rfncWord true) ((remoteIss rfncWord true).primAcc .remote 0 0 false none).h = some reachAtRing := rfl

theorem sessionAtRing_open : sessionAtRing.ses ringLink = some smallSession := rfl

/-- The session's next message number stays: nothing joined its messages. -/
theorem sessionAtRing_silent : ((after (exec (.rfnc 0) sessionAtRing)).ses ringLink).map (·.msgNext) = some smallSession.msgNext := by
  decide +kernel

end Sys2Proof.Machine
end

section
open Sys2Proof Sys2Proof.Machine Sys2Proof.Tests

/-- Refutes O19: of an RFNC whose session neither is failed nor closing it says that a message joins the session, whatever the session's
number. A loan may name session 2^20, which the model takes for the ring: the RFNC then completes and sends nothing. -/
theorem not_remoteInstructionsSendTheirMessage : ¬ Obligations.RemoteInstructionsSendTheirMessage := by
  unfold Obligations.RemoteInstructionsSendTheirMessage
  rintro ⟨issues, -⟩
  obtain ⟨hissue, hword, hfresh, hops, hop⟩ := sessionAtRing_issues
  obtain ⟨-, -, -, -, -, -, fences⟩ := issues sessionAtRing 0 (remoteIss rfncWord true) reachAtRing hissue hword hfresh hops
  obtain ⟨t, ht, -, -, -, -, -, y', m, hy, hnext, -⟩ := (fences hop sessionAtRing_checks sessionAtRing_reaches).1 ringLink smallSession rfl
    sessionAtRing_open (by decide) (by decide)
  have hsilent := sessionAtRing_silent
  rw [ht, show (after (.next t)).ses ringLink = some y' from hy] at hsilent
  have hkept : y'.msgNext = smallSession.msgNext := Option.some.inj hsilent
  exact absurd (hnext.symm.trans hkept) (by decide)
end

section
/-! SUPPORT. The sequencer's channels: bits of SEQ_EN and of good, steps, and what raising, lowering and finishing a channel leaves. -/

namespace Sys2Proof.Machine

section Bits
variable {n m : Nat} {l : List Nat} {v : BitVec 32}

theorem chBit_getLsbD (hm : m < 32) : (chBit n).getLsbD m = (m == n) := by
  rw [chBit, BitVec.getLsbD_ofNat, Nat.testBit_two_pow, decide_eq_true hm, Bool.true_and, beq_eq_decide]
  exact decide_eq_decide.mpr eq_comm

/-- The bits of these channels set. -/
def withBits (v : BitVec 32) (l : List Nat) : BitVec 32 := l.foldl (fun v n => v ||| chBit n) v

/-- The bits of these channels cleared. -/
def withoutBits (v : BitVec 32) (l : List Nat) : BitVec 32 := l.foldl (fun v n => v &&& ~~~(chBit n)) v

theorem withBits_getLsbD (hm : m < 32) : (withBits v l).getLsbD m = (v.getLsbD m || l.contains m) := by
  unfold withBits
  induction l generalizing v with
  | nil => simp
  | cons n r ih =>
    rw [List.foldl_cons, ih, BitVec.getLsbD_or, chBit_getLsbD hm, List.contains_cons, Bool.or_assoc]

theorem withoutBits_getLsbD (hm : m < 32) : (withoutBits v l).getLsbD m = (v.getLsbD m && !l.contains m) := by
  unfold withoutBits
  induction l generalizing v with
  | nil => simp
  | cons n r ih =>
    rw [List.foldl_cons, ih, BitVec.getLsbD_and, BitVec.getLsbD_not, chBit_getLsbD hm, List.contains_cons, Bool.not_or,
      decide_eq_true hm, Bool.true_and, Bool.and_assoc]

end Bits

section Channels
variable {s t : State} {n m k : Nat} {l : List Nat}

theorem chStep_updSeq (s : State) (f : SeqState → SeqState) (n : Nat) : (s.updSeq f).chStep n = s.chStep n := rfl

theorem run_updSeq (s : State) (f : SeqState → SeqState) (i : Island) : (s.updSeq f).run i = s.run i := rfl

theorem lowerChans_eq (s : State) (l : List Nat) : s.lowerChans l = s.updSeq (fun q => { q with en := withoutBits q.en l }) := by
  unfold State.lowerChans
  induction l generalizing s with
  | nil => rfl
  | cons n r ih => rw [List.foldl_cons, ih]; rfl

theorem raiseChans_eq (s : State) (l : List Nat) :
    s.raiseChans l = s.updSeq (fun q => { q with en := withBits q.en l, finished := withoutBits q.finished l }) := by
  unfold State.raiseChans
  induction l generalizing s with
  | nil => rfl
  | cons n r ih => rw [List.foldl_cons, ih]; rfl

theorem setGoods_eq (s : State) (l : List Nat) :
    l.foldl (fun t n => t.setGood n true) s = s.updSeq (fun q => { q with good := withBits q.good l }) := by
  induction l generalizing s with
  | nil => rfl
  | cons n r ih => rw [List.foldl_cons, ih]; rfl

theorem chOn_lowerChans (s : State) (l : List Nat) (hm : m < 32) : (s.lowerChans l).chOn m = (s.chOn m && !l.contains m) := by
  rw [lowerChans_eq]
  exact withoutBits_getLsbD hm

theorem chGood_setGood_self (s : State) (b : Bool) (hn : n < 32) : (s.setGood n b).chGood n = b := by
  cases b
  · exact (withoutBits_getLsbD (l := [n]) hn).trans (by simp)
  · exact (withBits_getLsbD (l := [n]) hn).trans (by simp)

theorem chGood_setGood_ne (s : State) (b : Bool) (hm : m < 32) (h : m ≠ n) : (s.setGood n b).chGood m = s.chGood m := by
  cases b
  · exact (withoutBits_getLsbD (l := [n]) hm).trans (by simp [State.chGood, h])
  · exact (withBits_getLsbD (l := [n]) hm).trans (by simp [State.chGood, h])

/-- The channels' configuration is the same in both states. -/
def SameChans (s t : State) : Prop := ∀ n < 32, t.raw (Addr.SEQ_CH_CFG n) = s.raw (Addr.SEQ_CH_CFG n)

theorem SameChans.chStep (h : SameChans s t) (hn : n < 32) : t.chStep n = s.chStep n := by
  unfold State.chStep
  rw [State.fld_of_raw (f := F.SEQ_CH_CFG.STEP n) (h n hn)]

theorem SameChans.stepOn (h : SameChans s t) (he : t.seq.en = s.seq.en) (k : Nat) : t.stepOn k = s.stepOn k := by
  refine List.filter_congr fun n hn => ?_
  rw [h.chStep (List.mem_range.mp hn), State.chOn, State.chOn, he]

theorem SameChans.busyStep (h : SameChans s t) (he : t.seq.en = s.seq.en) (hf : t.seq.finished = s.seq.finished) : t.busyStep = s.busyStep := by
  unfold State.busyStep
  congr 1
  funext k
  rw [Bool.eq_iff_iff, List.any_eq_true, List.any_eq_true]
  refine exists_congr fun n => and_congr_right fun hn => ?_
  rw [h.chStep (List.mem_range.mp hn)]
  unfold State.chFalling State.chOn
  rw [he, hf]

theorem mem_stepOn : n ∈ s.stepOn k ↔ n < 32 ∧ s.chOn n = true ∧ s.chStep n = k := by
  simp [State.stepOn, List.mem_filter]

theorem mem_stepChans : n ∈ s.stepChans k ↔ n < 32 ∧ s.chEnabled n = true ∧ s.chStep n = k := by
  simp [State.stepChans, List.mem_filter]

theorem stepChans_contains (hn : n < 32) : (s.stepChans k).contains n = (s.chEnabled n && s.chStep n == k) := by
  rw [Bool.eq_iff_iff, List.contains_iff_mem, mem_stepChans]
  simp [hn]

theorem stepOn_contains (hn : n < 32) : (s.stepOn k).contains n = (s.chOn n && s.chStep n == k) := by
  rw [Bool.eq_iff_iff, List.contains_iff_mem, mem_stepOn]
  simp [hn]

end Channels

/-! ### The reset outputs follow -/

theorem settleRst_only (s t : State) : OnlyParts [.seq] t (State.settleRst s t) := State.updSeq_only t _

/-- Nothing but the reset outputs follows. -/
theorem settleRst_seq (s t : State) : (State.settleRst s t).seq = { t.seq with rst := (State.settleRst s t).seq.rst } := rfl

theorem settleRst_raw (s t : State) (a : Nat) : (State.settleRst s t).raw a = t.raw a := rfl

@[simp] theorem settleRst_fld (s t : State) (f : Fld) : (State.settleRst s t).fld f = t.fld f := rfl

@[simp] theorem settleRst_chOn (s t : State) (n : Nat) : (State.settleRst s t).chOn n = t.chOn n := rfl

@[simp] theorem settleRst_chGood (s t : State) (n : Nat) : (State.settleRst s t).chGood n = t.chGood n := rfl

@[simp] theorem settleRst_st (s t : State) : (State.settleRst s t).seq.st = t.seq.st := rfl
@[simp] theorem settleRst_step (s t : State) : (State.settleRst s t).seq.step = t.seq.step := rfl
@[simp] theorem settleRst_en (s t : State) : (State.settleRst s t).seq.en = t.seq.en := rfl
@[simp] theorem settleRst_finished (s t : State) : (State.settleRst s t).seq.finished = t.seq.finished := rfl
@[simp] theorem settleRst_fltDrive (s t : State) : (State.settleRst s t).seq.fltDrive = t.seq.fltDrive := rfl
@[simp] theorem settleRst_cascOut (s t : State) : (State.settleRst s t).seq.cascOut = t.seq.cascOut := rfl
@[simp] theorem settleRst_released (s t : State) : (State.settleRst s t).seq.released = t.seq.released := rfl
@[simp] theorem settleRst_chCmd (s t : State) : (State.settleRst s t).seq.chCmd = t.seq.chCmd := rfl
@[simp] theorem settleRst_nextFault (s t : State) : (State.settleRst s t).seq.nextFault = t.seq.nextFault := rfl
@[simp] theorem settleRst_temp (s t : State) : (State.settleRst s t).seq.temp = t.seq.temp := rfl
@[simp] theorem settleRst_tempMax (s t : State) : (State.settleRst s t).seq.tempMax = t.seq.tempMax := rfl
@[simp] theorem settleRst_hot (s t : State) : (State.settleRst s t).seq.hot = t.seq.hot := rfl
@[simp] theorem settleRst_tripHold (s t : State) : (State.settleRst s t).seq.tripHold = t.seq.tripHold := rfl
@[simp] theorem settleRst_bootPhase (s t : State) : (State.settleRst s t).seq.bootPhase = t.seq.bootPhase := rfl
@[simp] theorem settleRst_bootFail (s t : State) : (State.settleRst s t).seq.bootFail = t.seq.bootFail := rfl
@[simp] theorem settleRst_ctlReleased (s t : State) : (State.settleRst s t).seq.ctlReleased = t.seq.ctlReleased := rfl
@[simp] theorem settleRst_fallback (s t : State) : (State.settleRst s t).seq.fallback = t.seq.fallback := rfl

/-! ### Islands -/

section Runs
variable {s : State} {i j : Island} {r : Run} {l : List Island}

theorem Island.code_lt (i : Island) : i.code < 15 := by cases i <;> decide

theorem run_setRun_self (h : s.isl.length = 15) : (s.setRun i r).run i = r := by
  simp [State.run, List.getD_eq_getElem?_getD, h, Island.code_lt]

theorem run_setRun_ne (h : j ≠ i) : (s.setRun i r).run j = s.run j := by
  have hne : i.code ≠ j.code := fun e => h (Island.code_inj e.symm)
  simp [State.run, List.getD_eq_getElem?_getD, List.getElem?_set_ne hne]

theorem setRuns_only (s : State) (l : List Island) (r : Run) : OnlyParts [.islands] s (s.setRuns l r) :=
  foldl_keeps (OnlyParts [.islands]) (fun t => OnlyParts.refl t _) OnlyParts.trans l s (fun t i _ => t.setRun_only i r)

theorem run_setRuns_out (s : State) (r : Run) (h : j ∉ l) : (s.setRuns l r).run j = s.run j := by
  unfold State.setRuns
  induction l generalizing s with
  | nil => rfl
  | cons i l ih =>
    rw [List.foldl_cons, ih _ (List.not_mem_of_not_mem_cons h), run_setRun_ne (List.ne_of_not_mem_cons h)]

theorem run_setRuns_in (s : State) (r : Run) (hs : s.isl.length = 15) (h : j ∈ l) : (s.setRuns l r).run j = r := by
  unfold State.setRuns
  induction l generalizing s with
  | nil => simp at h
  | cons i l ih =>
    have hs' : (s.setRun i r).isl.length = 15 := by rw [State.setRun_isl, List.length_set, hs]
    rw [List.foldl_cons]
    by_cases hl : j ∈ l
    · exact ih _ hs' hl
    · obtain rfl := (List.mem_cons.mp h).resolve_right hl
      exact (run_setRuns_out _ r hl).trans (run_setRun_self hs)

end Runs

/-! ### Fields of one register -/

/-- Whether a field lies in another register, or beside another in the same one. -/
def Fld.apart (f g : Fld) : Bool :=
  f.addr != g.addr || (decide (f.lsb + f.width ≤ 64) && (decide (g.lsb + g.width ≤ f.lsb) || decide (f.lsb + f.width ≤ g.lsb)))

theorem fld_setFld_apart (s : State) {f g : Fld} (v : Nat) (h : Fld.apart f g = true) : (s.setFld f v).fld g = s.fld g := by
  by_cases ha : f.addr = g.addr
  · simp only [Fld.apart, ha, bne_self_eq_false, Bool.false_or, Bool.and_eq_true, Bool.or_eq_true, decide_eq_true_eq] at h
    exact State.fld_setFld_beside s f g v h.1 ha.symm h.2
  · exact State.fld_setFld_ne s f g v (fun e => ha e.symm)

/-! ### Channel commands and rail fault records -/

section Faults
variable {s : State} {a ch kind phase sev : Nat}

theorem endChCmd_only (s : State) (st : Status) : OnlyParts [.seq, .regs] s (s.endChCmd st) :=
  ((s.updSeq_only _).comp ((State.setFld_only _ _ _ (by decide)).comp (State.setFld_only _ _ _ (by decide)))).mono (by decide)

theorem endChCmd_seq (s : State) (st : Status) : (s.endChCmd st).seq = { s.seq with chCmd := none } := rfl

theorem endChCmd_chGood (s : State) (st : Status) (n : Nat) : (s.endChCmd st).chGood n = s.chGood n := by
  rw [State.chGood, endChCmd_seq]
  rfl

theorem endChCmd_raw_ne (s : State) (st : Status) (h : a ≠ Addr.SEQ_CH_CMD) : (s.endChCmd st).raw a = s.raw a :=
  (State.raw_setFld_ne _ _ _ h).trans (State.raw_setFld_ne _ _ _ h)

theorem endChCmd_status (s : State) (st : Status) : (s.endChCmd st).fld F.SEQ_CH_CMD.STATUS = st.toNat :=
  (State.fld_setFld_self _ _ _ (by decide)).trans (Nat.mod_eq_of_lt st.isLt)

theorem endChCmd_busy (s : State) (st : Status) : (s.endChCmd st).fld F.SEQ_CH_CMD.BUSY = 0 :=
  (fld_setFld_apart _ _ (by decide)).trans (State.fld_setFld_self _ _ _ (by decide))

theorem endChCmd_ch (s : State) (st : Status) : (s.endChCmd st).fld F.SEQ_CH_CMD.CH = s.fld F.SEQ_CH_CMD.CH :=
  (fld_setFld_apart _ _ (by decide)).trans (fld_setFld_apart _ _ (by decide))

/-- The registers that a rail fault record is copied to or counted in. -/
def faultRegs : List Nat := [Addr.SEQ_FAULT, Addr.SEQ_FAULT_TIME, Addr.SEQ_CNT0]

theorem copyFault_only (s : State) (r : FaultRec) : OnlyParts [.regs] s (s.copyFault r) := by
  unfold State.copyFault
  split
  · exact ((((((State.setFld_only _ _ _ (by decide)).trans (State.setFld_only _ _ _ (by decide))).trans (State.setFld_only _ _ _ (by decide))).trans
      (State.setFld_only _ _ _ (by decide))).trans (State.setFld_only _ _ _ (by decide))).trans (State.setFld_only _ _ _ (by decide)))
  · exact OnlyParts.refl s _

theorem copyFault_seq (s : State) (r : FaultRec) : (s.copyFault r).seq = s.seq := copyFault_only s r .seq (by decide)

theorem copyFault_raw_ne (s : State) (r : FaultRec) (h1 : a ≠ Addr.SEQ_FAULT) (h2 : a ≠ Addr.SEQ_FAULT_TIME) :
    (s.copyFault r).raw a = s.raw a := by
  unfold State.copyFault
  split
  · rw [State.raw_setFld_ne _ _ _ h2, State.raw_setFld_ne _ _ _ h1, State.raw_setFld_ne _ _ _ h1, State.raw_setFld_ne _ _ _ h1,
      State.raw_setFld_ne _ _ _ h1, State.raw_setFld_ne _ _ _ h1]
  · rfl

/-- A rail fault record counted: a discharge that takes too long, or the failure of a rail. -/
def State.countFault (s : State) (kind : Nat) : State :=
  if kind = 5 then s.bump F.SEQ_CNT0.DISCHARGE_TIMEOUTS else if firstKind kind then s.bump F.SEQ_CNT0.RAIL_FAILS else s

theorem countFault_only (s : State) (kind : Nat) : OnlyParts [.regs] s (s.countFault kind) := by
  unfold State.countFault
  split
  · exact State.bump_only _ _ (by decide)
  · split
    · exact State.bump_only _ _ (by decide)
    · exact OnlyParts.refl s _

theorem countFault_raw_ne (s : State) (kind : Nat) (h : a ≠ Addr.SEQ_CNT0) : (s.countFault kind).raw a = s.raw a := by
  unfold State.countFault
  split
  · exact State.raw_bumpBy_ne _ _ _ h
  · split
    · exact State.raw_bumpBy_ne _ _ _ h
    · rfl

/-- The buffer takes the record, which is numbered. -/
def SeqState.tookFault (q : SeqState) (r : FaultRec) (kind : Nat) : SeqState :=
  { q with buffer := pushFault q.buffer r, nextFault := q.nextFault + 1, firstDone := q.firstDone || firstKind kind }

/-- What stands before the Contrail record of a rail fault, its counter aside. -/
def State.faultTaken (s : State) (ch kind phase : Nat) : State :=
  ((s.updSeq (fun q => q.tookFault (s.mkFault ch kind phase) kind)).copyFault (s.mkFault ch kind phase)).bump F.SEQ_FAULT.COUNT

theorem railFault_eq (s : State) (ch kind phase sev : Nat) :
    s.railFault ch kind phase sev = ((s.faultTaken ch kind phase).countFault kind).record sev .aon 5 kind ch Addr.SEQ_FAULT := rfl

theorem faultTaken_only (s : State) (ch kind phase : Nat) : OnlyParts [.seq, .regs] s (s.faultTaken ch kind phase) :=
  ((s.updSeq_only _).comp ((copyFault_only _ _).comp (State.bump_only _ _ (by decide)))).mono (by decide)

theorem faultTaken_raw_ne (s : State) (ch kind phase : Nat) (h : a ≠ Addr.SEQ_FAULT) (ht : a ≠ Addr.SEQ_FAULT_TIME) :
    (s.faultTaken ch kind phase).raw a = s.raw a :=
  (State.raw_bumpBy_ne _ _ _ h).trans (copyFault_raw_ne _ _ h ht)

theorem railFault_only (s : State) (ch kind phase sev : Nat) : OnlyParts [.seq, .regs, .records] s (s.railFault ch kind phase sev) :=
  ((faultTaken_only s ch kind phase).comp ((countFault_only _ kind).comp (State.record_only _ _ _ _ _ _ _))).mono (by decide)

theorem railFault_seq (s : State) (ch kind phase sev : Nat) :
    (s.railFault ch kind phase sev).seq = s.seq.tookFault (s.mkFault ch kind phase) kind := by
  rw [railFault_eq, State.record_seq, countFault_only _ _ .seq (by decide), State.faultTaken, State.bump_seq, copyFault_seq]
  rfl

theorem railFault_raw_ne (s : State) (ch kind phase sev : Nat) (h : a ∉ faultRegs) : (s.railFault ch kind phase sev).raw a = s.raw a := by
  obtain ⟨h1, h2, h3⟩ : a ≠ Addr.SEQ_FAULT ∧ a ≠ Addr.SEQ_FAULT_TIME ∧ a ≠ Addr.SEQ_CNT0 := by simpa [faultRegs] using h
  rw [railFault_eq, State.raw_congr (State.record_regs ..), countFault_raw_ne _ _ h3, faultTaken_raw_ne _ _ _ _ h1 h2]

theorem railFault_regsBut (s : State) (ch kind phase sev : Nat) : RegsBut faultRegs s (s.railFault ch kind phase sev) :=
  fun _ ha _ => railFault_raw_ne s ch kind phase sev ha

theorem railFault_rises (s : State) (ch phase sev : Nat) (h5 : kind ≠ 5) (hk : firstKind kind = true) :
    Rises s (s.railFault ch kind phase sev) F.SEQ_CNT0.RAIL_FAILS 1 := by
  have hc : (s.faultTaken ch kind phase).countFault kind = (s.faultTaken ch kind phase).bump F.SEQ_CNT0.RAIL_FAILS := by
    rw [State.countFault, if_neg h5, if_pos hk]
  rw [railFault_eq, hc]
  exact ((rises_bumpBy _ (by decide) 1).before (faultTaken_raw_ne s ch kind phase (by decide) (by decide))).after (State.raw_congr (State.record_regs ..) _)

theorem railFault_rises_discharge (s : State) (ch phase sev : Nat) : Rises s (s.railFault ch 5 phase sev) F.SEQ_CNT0.DISCHARGE_TIMEOUTS 1 :=
  ((rises_bumpBy _ (by decide) 1).before (faultTaken_raw_ne s ch 5 phase (by decide) (by decide))).after (State.raw_congr (State.record_regs ..) _)

end Faults

end Sys2Proof.Machine
end

section
/-! SUPPORT. Going down: what RAMP_DOWN takes from the islands and the sequencer, and what it leaves. -/

namespace Sys2Proof.Machine

section Down
variable {s t : State} {k a : Nat} {timeout latch : Bool}

theorem abortChCmd_only (s : State) : OnlyParts [.seq, .regs] s s.abortChCmd := by
  unfold State.abortChCmd
  split
  · exact ((s.updSeq_only _).comp ((State.setFld_only _ _ _ (by decide)).comp (State.setFld_only _ _ _ (by decide)))).mono (by decide)
  · exact OnlyParts.refl s _

theorem abortChCmd_seq (s : State) : s.abortChCmd.seq = { s.seq with chCmd := none } := by
  unfold State.abortChCmd
  split
  · rfl
  next h => rw [← h]

theorem abortChCmd_raw_ne (s : State) (h : a ≠ Addr.SEQ_CH_CMD) : s.abortChCmd.raw a = s.raw a := by
  unfold State.abortChCmd
  split
  · exact (State.raw_setFld_ne _ _ _ h).trans (State.raw_setFld_ne _ _ _ h)
  · rfl

theorem cutTest_only (s : State) : OnlyParts [.dst, .seq, .regs] s s.cutTest := by
  unfold State.cutTest
  split
  · exact ((s.updDst_only (fun d => { d with testing := false })).comp
      ((State.updSeq_only _ (fun q => { q with hupTestEn := false })).comp (State.setFld_only _ _ 0 (by decide)))).mono (by decide)
  · exact OnlyParts.refl s _

/-- Where no test runs, none is cut. -/
theorem cutTest_idle (ht : s.dst.testing = false) (hu : s.seq.hupTestEn = false) : s.cutTest = s := by
  rw [State.cutTest, ht, hu]
  rfl

theorem cutTest_runs (h : ¬ (s.dst.testing = false ∧ s.seq.hupTestEn = false)) : s.cutTest = s.endTest :=
  if_pos (by cases ht : s.dst.testing <;> simp_all)

theorem cutTest_seq (s : State) : s.cutTest.seq = { s.seq with hupTestEn := false } := by
  by_cases h : s.dst.testing = false ∧ s.seq.hupTestEn = false
  · rw [cutTest_idle h.1 h.2, ← h.2]
  · rw [cutTest_runs h]
    rfl

theorem cutTest_dst (s : State) : s.cutTest.dst = { s.dst with testing := false } := by
  by_cases h : s.dst.testing = false ∧ s.seq.hupTestEn = false
  · rw [cutTest_idle h.1 h.2, ← h.1]
  · rw [cutTest_runs h]
    rfl

theorem cutTest_raw_ne (s : State) (h : a ≠ Addr.DST_HUP_CTL) : s.cutTest.raw a = s.raw a := by
  unfold State.cutTest
  split
  · exact State.raw_setFld_ne _ _ _ h
  · rfl

/-! ### The islands' loss -/

theorem Tab.get_filter_key {α : Type} {p : Nat → Bool} (h : p a = true) (t : Tab α) : Tab.get (t.filter (fun e => p e.1)) a = Tab.get t a := by
  induction t with
  | nil => rfl
  | cons e r ih =>
    obtain ⟨j, v⟩ := e
    by_cases hj : j = a
    · subst hj
      simp [h, Tab.get]
    · by_cases hp : p j = true <;> simp [hp, Tab.get, hj, ih]

/-! Where a field of both sides is compared, the state is taken apart first: the comparison is then that of the field alone. -/

theorem islandsLost_regs (s : State) (r : Run) : (s.islandsLost r).regs = keptRegs s.regs := rfl

theorem islandsLost_isl (s : State) (r : Run) : (s.islandsLost r).isl = s.run .aon :: List.replicate 14 r := rfl

theorem islandsLost_seq (s : State) (r : Run) : (s.islandsLost r).seq = s.seq := by
  cases s
  dsimp only
  rfl

theorem islandsLost_mode (s : State) (r : Run) : (s.islandsLost r).mod.mode = .cold := rfl

theorem islandsLost_dst (s : State) (r : Run) : (s.islandsLost r).dst = s.dst.kept := rfl

theorem islandsLost_time (s : State) (r : Run) : (s.islandsLost r).time = s.time := by
  cases s
  dsimp only
  rfl

theorem islandsLost_boot (s : State) (r : Run) : (s.islandsLost r).boot = s.boot := by
  cases s
  dsimp only
  rfl

theorem islandsLost_dbg (s : State) (r : Run) : (s.islandsLost r).dbg = s.dbg := by
  cases s
  dsimp only
  rfl

theorem islandsLost_tenants (s : State) (r : Run) : (s.islandsLost r).tenants = s.tenants := by
  cases s
  dsimp only
  rfl

theorem get_keptRegs (t : Tab Word) (h : aonWindow (windowOf a) = true) : Tab.get (keptRegs t) a = Tab.get t a := by
  have hne : a ≠ F.PST_DUR_CNT1.ROLLED_BACK.addr := by
    rintro rfl
    exact absurd h (by decide)
  unfold keptRegs putFld
  rw [get_putReg_ne _ _ hne]
  exact Tab.get_filter_key (p := fun b => aonWindow (windowOf b) || b == Addr.CIP_QUAR) (by rw [h, Bool.true_or]) t

/-- What AON holds of the registers stays. -/
theorem islandsLost_raw (s : State) (r : Run) (h : aonWindow (windowOf a) = true) : (s.islandsLost r).raw a = s.raw a := by
  unfold State.raw
  rw [islandsLost_regs, get_keptRegs _ h]

theorem run_islandsLost (s : State) (r : Run) {i : Island} (h : i ≠ .aon) : (s.islandsLost r).run i = r := by
  unfold State.run
  rw [islandsLost_isl]
  cases i <;> first | exact absurd rfl h | rfl

theorem OnlyParts.raw {l : List Part} (h : OnlyParts l s t) (hl : .regs ∉ l) (hp : .pmu ∉ l) (a : Nat) : t.raw a = s.raw a := by
  cases ha : isPmu a
  · exact h .regs hl a ha
  · exact h .pmu hp a ha

theorem OnlyParts.run {l : List Part} (h : OnlyParts l s t) (hl : .islands ∉ l) (i : Island) : t.run i = s.run i := by
  unfold State.run
  rw [h .islands hl]

/-! ### The steps off -/

/-- Nothing is left on of the islands, after the test and the channel command have been ended. -/
def State.islandsDown (s : State) : State := (s.cutTest.abortChCmd).islandsLost .inReset

/-- RAMP_DOWN, before its first step is switched off. -/
def State.downBegun (s : State) (timeout latch : Bool) : State :=
  ((s.islandsDown.setRun .cfl (s.run .cfl)).updSeq (fun q => { q with
    st := .rampDown, timeoutPath := q.timeoutPath || timeout, failPath := q.failPath || latch, cascOut := false, offPending := false,
    hupTestEn := false, ctlReleased := false })).assertEvent F.SEQ_RST.ON_PWRDOWN

theorem startDown_eq (s : State) (timeout latch : Bool) : s.startDown timeout latch = (s.downBegun timeout latch).descend := rfl

/-- The sequencer as RAMP_DOWN begins. -/
def SeqState.goingDown (q : SeqState) (timeout latch : Bool) (rst : List RstOut) : SeqState :=
  { q with st := .rampDown, timeoutPath := q.timeoutPath || timeout, failPath := q.failPath || latch, cascOut := false, offPending := false,
           hupTestEn := false, ctlReleased := false, chCmd := none, rst := rst }

/-- Before the islands' loss the sequencer, the test and two registers have changed. -/
theorem cutAbort_only (s : State) : OnlyParts [.dst, .seq, .regs] s s.cutTest.abortChCmd :=
  ((cutTest_only s).comp (abortChCmd_only _)).mono (by decide)

theorem downBegun_only (s : State) (timeout latch : Bool) : OnlyParts [.islands, .seq] s.islandsDown (s.downBegun timeout latch) :=
  ((State.setRun_only _ _ _).comp ((State.updSeq_only _ _).trans (State.updSeq_only _ _)))

theorem islandsDown_seq (s : State) : s.islandsDown.seq = { s.seq with hupTestEn := false, chCmd := none } := by
  rw [State.islandsDown, islandsLost_seq, abortChCmd_seq, cutTest_seq]

theorem downBegun_seq (s : State) (timeout latch : Bool) : ∃ rst, (s.downBegun timeout latch).seq = s.seq.goingDown timeout latch rst := by
  unfold State.downBegun State.assertEvent
  rw [State.updSeq_seq, State.updSeq_seq, State.setRun_seq, islandsDown_seq]
  exact ⟨_, rfl⟩

theorem downBegun_raw (s : State) (timeout latch : Bool) (h : aonWindow (windowOf a) = true) (hc : a ≠ Addr.SEQ_CH_CMD) :
    (s.downBegun timeout latch).raw a = s.raw a := by
  have ht : a ≠ Addr.DST_HUP_CTL := by
    rintro rfl
    exact absurd h (by decide)
  rw [(downBegun_only s timeout latch).raw (by decide) (by decide), State.islandsDown, islandsLost_raw _ _ h, abortChCmd_raw_ne _ hc,
    cutTest_raw_ne _ ht]

theorem downBegun_run (s : State) (timeout latch : Bool) {i : Island} (ha : i ≠ .aon) (hc : i ≠ .cfl) :
    (s.downBegun timeout latch).run i = .inReset := by
  have h : (s.downBegun timeout latch).run i = (s.islandsDown.setRun .cfl (s.run .cfl)).run i :=
    ((State.updSeq_only _ _).trans (State.updSeq_only _ _)).run (by decide) i
  rw [h, run_setRun_ne hc, State.islandsDown, run_islandsLost _ _ ha]

theorem downBegun_aon (s : State) (timeout latch : Bool) :
    (s.downBegun timeout latch).mod.mode = .cold ∧ (s.downBegun timeout latch).time = s.time ∧ (s.downBegun timeout latch).boot = s.boot ∧
    (s.downBegun timeout latch).dbg = s.dbg ∧ (s.downBegun timeout latch).tenants = s.tenants := by
  have hd := downBegun_only s timeout latch
  have hc := cutAbort_only s
  refine ⟨?_, ?_, ?_, ?_, ?_⟩
  · rw [hd .mod (by decide), State.islandsDown, islandsLost_mode]
  · rw [hd .time (by decide), State.islandsDown, islandsLost_time, hc .time (by decide)]
  · rw [hd .boot (by decide), State.islandsDown, islandsLost_boot, hc .boot (by decide)]
  · rw [hd .dbg (by decide), State.islandsDown, islandsLost_dbg, hc .dbg (by decide)]
  · rw [hd .tenants (by decide), State.islandsDown, islandsLost_tenants, hc .tenants (by decide)]

theorem downBegun_lastIncomplete (s : State) (timeout latch : Bool) : (s.downBegun timeout latch).dst.lastIncomplete = s.dst.lastIncomplete := by
  rw [downBegun_only s timeout latch .dst (by decide), State.islandsDown, islandsLost_dst, abortChCmd_only _ .dst (by decide), cutTest_dst]
  rfl

theorem windowOf_chCfg {n : Nat} (hn : n < 32) : aonWindow (windowOf (Addr.SEQ_CH_CFG n)) = true ∧ Addr.SEQ_CH_CFG n ≠ Addr.SEQ_CH_CMD := by
  have hw : windowOf (Addr.SEQ_CH_CFG n) = 1 := by
    unfold windowOf Addr.SEQ_CH_CFG
    omega
  refine ⟨by rw [hw]; rfl, fun h => ?_⟩
  unfold Addr.SEQ_CH_CFG Addr.SEQ_CH_CMD at h
  omega

theorem downBegun_chans (s : State) (timeout latch : Bool) : SameChans s (s.downBegun timeout latch) :=
  fun _ hn => downBegun_raw s timeout latch (windowOf_chCfg hn).1 (windowOf_chCfg hn).2

/-- The channels of step `k` are off, and CFL stops with channel 1. -/
theorem lowerStep_only (s : State) (k : Nat) : OnlyParts [.seq, .islands] s (s.lowerStep k) := by
  have hl : OnlyParts [.seq] s (s.lowerChans (s.stepOn k)) := by
    rw [lowerChans_eq]
    exact s.updSeq_only _
  unfold State.lowerStep
  dsimp only
  split
  · exact hl.comp (State.setRun_only _ _ _)
  · exact hl.mono (by decide)

theorem lowerStep_seq (s : State) (k : Nat) : (s.lowerStep k).seq = { s.seq with en := withoutBits s.seq.en (s.stepOn k) } := by
  unfold State.lowerStep
  dsimp only
  split <;> rw [lowerChans_eq] <;> rfl

theorem run_lowerStep (s : State) (k : Nat) {i : Island} (h : i ≠ .cfl) : (s.lowerStep k).run i = s.run i := by
  have hl : (s.lowerChans (s.stepOn k)).run i = s.run i := by
    rw [lowerChans_eq]
    rfl
  unfold State.lowerStep
  dsimp only
  split
  · exact (run_setRun_ne h).trans hl
  · exact hl

theorem chOn_lowerStep (s : State) (k : Nat) {n : Nat} (hn : n < 32) : (s.lowerStep k).chOn n = (s.chOn n && s.chStep n != k) := by
  have h : (s.lowerStep k).chOn n = (withoutBits s.seq.en (s.stepOn k)).getLsbD n := by rw [State.chOn, lowerStep_seq]
  rw [h, withoutBits_getLsbD hn, stepOn_contains hn, State.chOn]
  cases s.seq.en.getLsbD n <;> rfl

theorem descend_step (hb : s.busyStep = some k) (hh : (s.updSeq (fun q => { q with step := k })).holdsCh1 k = false) :
    s.descend = (s.updSeq (fun q => { q with step := k })).lowerStep k := by
  rw [State.descend, hb]
  dsimp only
  rw [if_neg (by rw [hh]; decide)]

theorem holdsCh1_step (h : k ≠ 1) : s.holdsCh1 k = false := by
  have hc : (s.stepOn k).contains 1 = false := by
    rw [stepOn_contains (by decide)]
    have : (s.chStep 1 == k) = false := by simpa [State.chStep] using Ne.symm h
    rw [this, Bool.and_false]
  rw [State.holdsCh1, hc, Bool.and_false, Bool.false_and]

theorem holdsCh1_clean (h : s.seq.failPath = false) : s.holdsCh1 k = false := by
  rw [State.holdsCh1, h, Bool.false_and, Bool.false_and]

/-- The first step off. -/
theorem startDown_step (hb : s.busyStep = some k) (hk : k ≠ 1 ∨ (s.seq.failPath || latch) = false) :
    s.startDown timeout latch = ((s.downBegun timeout latch).updSeq (fun q => { q with step := k })).lowerStep k := by
  obtain ⟨rst, hq⟩ := downBegun_seq s timeout latch
  refine (startDown_eq ..).trans (descend_step ?_ (hk.elim holdsCh1_step fun hf => holdsCh1_clean ?_))
  · rw [(downBegun_chans s timeout latch).busyStep (by rw [hq]; rfl) (by rw [hq]; rfl), hb]
  · exact (congrArg SeqState.failPath hq).trans hf

theorem startDown_only (hb : s.busyStep = some k) (hk : k ≠ 1 ∨ (s.seq.failPath || latch) = false) :
    OnlyParts [.seq, .islands] (s.downBegun timeout latch) (s.startDown timeout latch) := by
  rw [startDown_step hb hk]
  exact ((State.updSeq_only _ _).comp (lowerStep_only _ k)).mono (by decide)

theorem startDown_seq (hb : s.busyStep = some k) (hk : k ≠ 1 ∨ (s.seq.failPath || latch) = false) :
    ∃ rst, (s.startDown timeout latch).seq =
      { s.seq.goingDown timeout latch rst with step := k, en := (s.startDown timeout latch).seq.en } := by
  obtain ⟨rst, hq⟩ := downBegun_seq s timeout latch
  refine ⟨rst, ?_⟩
  rw [startDown_step hb hk, lowerStep_seq, State.updSeq_seq, hq]

theorem startDown_raw (hb : s.busyStep = some k) (hk : k ≠ 1 ∨ (s.seq.failPath || latch) = false) (h : aonWindow (windowOf a) = true)
    (hc : a ≠ Addr.SEQ_CH_CMD) : (s.startDown timeout latch).raw a = s.raw a := by
  rw [(startDown_only hb hk).raw (by decide) (by decide), downBegun_raw s _ _ h hc]

theorem startDown_chOn (hb : s.busyStep = some k) (hk : k ≠ 1 ∨ (s.seq.failPath || latch) = false) {n : Nat} (hn : n < 32) :
    (s.startDown timeout latch).chOn n = (s.chOn n && s.chStep n != k) := by
  obtain ⟨rst, hq⟩ := downBegun_seq s timeout latch
  have hen : ((s.downBegun timeout latch).updSeq (fun q => { q with step := k })).chOn n = s.chOn n := by
    rw [State.chOn, State.updSeq_seq, hq]
    rfl
  rw [startDown_step hb hk, chOn_lowerStep _ _ hn, hen, chStep_updSeq, (downBegun_chans s timeout latch).chStep hn]

theorem startDown_lastIncomplete (hb : s.busyStep = some k) (hk : k ≠ 1 ∨ (s.seq.failPath || latch) = false) :
    (s.startDown timeout latch).dst.lastIncomplete = s.dst.lastIncomplete := by
  rw [startDown_only hb hk .dst (by decide), downBegun_lastIncomplete]

theorem startDown_wentDown (hb : s.busyStep = some k) (hk : k ≠ 1 ∨ (s.seq.failPath || latch) = false) :
    WentDown s (s.startDown timeout latch) k (s.seq.timeoutPath || timeout) (s.seq.failPath || latch) := by
  obtain ⟨rst, hq⟩ := startDown_seq (timeout := timeout) hb hk
  obtain ⟨hmode, htime, hboot, hdbg, htenants⟩ := downBegun_aon s timeout latch
  have ho := startDown_only (timeout := timeout) hb hk
  refine ⟨by rw [hq]; rfl, by rw [hq], by rw [hq]; rfl, by rw [hq]; rfl, by rw [hq]; rfl, fun n hn => startDown_chOn hb hk hn, fun i ha hc => ?_, ?_,
    (ho .time (by decide)).trans htime, (ho .boot (by decide)).trans hboot, (ho .dbg (by decide)).trans hdbg,
    (ho .tenants (by decide)).trans htenants⟩
  · rw [startDown_step hb hk, run_lowerStep _ _ hc, run_updSeq, downBegun_run s timeout latch ha hc]
  · rw [ho .mod (by decide), hmode]

/-- RAMP_DOWN that has begun goes on. -/
theorem WentDown.after {u : State} (h : WentDown s t k timeout latch) (ho : OnlyParts [.seq, .regs, .records] t u)
    (hq : ∃ b n f rst, u.seq = { t.seq with buffer := b, nextFault := n, firstDone := f, rst := rst }) :
    WentDown s u k timeout latch := by
  obtain ⟨hst, hstep, htp, hfp, hrel, hon, hrun, hmode, htime, hboot, hdbg, htenants⟩ := h
  obtain ⟨b, n, f, rst, hq⟩ := hq
  refine ⟨by rw [hq]; exact hst, by rw [hq]; exact hstep, by rw [hq]; exact htp, by rw [hq]; exact hfp, by rw [hq]; exact hrel, fun m hm => ?_,
    fun i ha hcf => (ho.run (by decide) i).trans (hrun i ha hcf), by rw [ho .mod (by decide)]; exact hmode, (ho .time (by decide)).trans htime,
    (ho .boot (by decide)).trans hboot, (ho .dbg (by decide)).trans hdbg, (ho .tenants (by decide)).trans htenants⟩
  rw [← hon m hm, State.chOn, hq]
  rfl

end Down
end Sys2Proof.Machine
end

section
/-! SUPPORT. Intake stop, and what a save is entered with. -/

namespace Sys2Proof.Machine

section Save
variable {s t : State} {i : Island}

theorem wakeClocks_only (s : State) : OnlyParts [.islands, .lps] s s.wakeClocks := by
  intro p hp; cases p <;> first
    | exact absurd (by decide) hp
    | (simp [Part.kept, State.wakeClocks]; done)
    | exact fun a _ => State.raw_congr rfl a
    | exact fun a => State.byte_congr rfl rfl rfl rfl a

theorem wakeClocks_length (s : State) : s.wakeClocks.isl.length = s.isl.length := List.length_map _

/-- What runs keeps its clock. -/
theorem run_wakeClocks (h : s.run i = .running) : s.wakeClocks.run i = .running := by
  unfold State.run State.wakeClocks at *
  rw [List.getD_eq_getElem?_getD] at h ⊢
  rw [List.getElem?_map]
  cases hi : s.isl[i.code]? with
  | none => rw [hi] at h; exact absurd h (by decide)
  | some r =>
    rw [hi] at h
    obtain rfl : r = .running := h
    rfl

theorem toMode_save (s : State) (sev : Nat) : s.toMode .save sev =
    (s.updMod (fun x => { x with mode := .save, prev := x.mode, enteredAt := s.time, intakeClosed := false, haltHeld := false,
                                 resumed := false })).recState sev .ctl F.MOD_STATUS.MODE := rfl

/-- The islands that stop as a save begins (R32). -/
def State.saveStops (s : State) : List Island := if s.windowOpen then [.ctl, .pe, .tir] else [.ctl, .pe, .tir, .cal]

theorem enterSave_eq (s : State) : s.enterSave = (((((s.updPe (fun p => { p with stopped := true })).endLent).toMode .save sevCritical).setRuns
    s.saveStops .inReset).updMod (fun m => { m with intakeClosed := true, frozen := false })) := rfl

theorem enterSave_only (s : State) : OnlyParts [.pe, .tir, .mod, .records, .islands] s s.enterSave := by
  rw [enterSave_eq, toMode_save]
  exact ((s.updPe_only _).comp ((endLent_only _).comp ((State.updMod_only _ _).comp ((State.recState_only _ _ _ _).comp
    ((setRuns_only _ _ _).comp (State.updMod_only _ _)))))).mono (by decide)

theorem enterSave_pe (s : State) : s.enterSave.pe = { s.pe with stopped := true } := by
  rw [enterSave_eq, toMode_save, State.updMod_pe, setRuns_only _ _ _ .pe (by decide), State.recState_pe]
  rfl

theorem enterSave_tir (s : State) : s.enterSave.tir = { s.tir with loansOut := [] } := by
  rw [enterSave_eq, toMode_save, State.updMod_tir, setRuns_only _ _ _ .tir (by decide), State.recState_tir]
  rfl

theorem enterSave_mod (s : State) : s.enterSave.mod.mode = .save ∧ s.enterSave.mod.prev = s.mod.mode ∧ s.enterSave.mod.intakeClosed = true ∧
    s.enterSave.mod.frozen = false := by
  rw [enterSave_eq, toMode_save, State.updMod_mod, setRuns_only _ _ _ .mod (by decide), State.recState_mod]
  exact ⟨rfl, rfl, rfl, rfl⟩

theorem run_enterSave_in (hs : s.isl.length = 15) (h : i ∈ s.saveStops) : s.enterSave.run i = .inReset := by
  rw [enterSave_eq, (State.updMod_only _ _).run (by decide)]
  refine run_setRuns_in _ _ ?_ h
  rw [toMode_save, State.recState_isl]
  exact hs

theorem run_enterSave_out (h : i ∉ s.saveStops) : s.enterSave.run i = s.run i := by
  rw [enterSave_eq, (State.updMod_only _ _).run (by decide), run_setRuns_out _ _ h, toMode_save]
  unfold State.run
  rw [State.recState_isl]
  rfl

end Save
end Sys2Proof.Machine
end

section
/-! SUPPORT. Requests to the sequencer, the cascade, and channels coming up and going off. -/

namespace Sys2Proof.Machine

section Requests
variable {s : State}

theorem exec_on (hr : s.running .aon = true) (path : Path) : exec (.on path) s = .next s.onRequest := when_pos hr _ _

theorem exec_pfailDebounce (hr : s.running .aon = true) : exec .pfailDebounce s =
    .next (if s.on F.SEQ_CTL.AUTO_ON then (s.updSeq (fun q => { q with pfailHigh := true })).onRequest
      else s.updSeq (fun q => { q with pfailHigh := true })) := when_pos hr _ _

theorem onRequest_off (hs : s.seq.st = .off) (hf : s.seq.fltHigh = true) (hd : s.seq.fltDrive = false) (ht : s.seq.tripHold = 0) :
    s.onRequest = s.enterCascWait := by
  rw [State.onRequest, hs]
  exact if_pos (by rw [SeqState.netHigh, hf, hd, ht]; rfl)

theorem onRequest_rampDown (hs : s.seq.st = .rampDown) (ht : s.seq.tripHold = 0) :
    s.onRequest = s.updSeq (fun q => { q with onPending := true }) := by
  rw [State.onRequest, hs]
  exact if_pos ht

theorem onRequest_up (hs : s.seq.st = .up) : s.onRequest = s := by rw [State.onRequest, hs]

theorem exec_off (hr : s.running .aon = true) (path : Path) (hc : s.mod.mode = .cold ∨ s.mod.mode = .halt) :
    exec (.off path) s = .next s.offCommand := by
  refine (when_pos hr _ _).trans ?_
  obtain h | h := hc <;> rw [h]

theorem exec_off_refused (hr : s.running .aon = true) (path : Path) (hc : s.mod.mode ≠ .cold) (hh : s.mod.mode ≠ .halt) :
    exec (.off path) s = .next (s.record sevNotice .aon 4 F.SEQ_CMD.OFF.lsb 0 Addr.SEQ_CMD) := by
  refine (when_pos hr _ _).trans ?_
  cases h : s.mod.mode <;> first | exact absurd h hc | exact absurd h hh | rfl

theorem offCommand_cascWait (hs : s.seq.st = .cascWait) :
    s.offCommand = s.updSeq (fun q => { q with st := .off, onPending := false }) := by
  rw [State.offCommand, hs]
  dsimp only
  rw [State.offRequest, hs]

/-- There is something to save before the rails ramp down (R71). -/
def State.hasToSave (s : State) : Bool := !(s.nothingAdmitted || (s.savePages.isEmpty && s.pst.units.isEmpty && s.phl.copies.isEmpty))

theorem hasToSave_iff (s : State) :
    s.hasToSave = false ↔ s.nothingAdmitted = true ∨ (s.savePages = [] ∧ s.pst.units = [] ∧ s.phl.copies = []) := by
  rw [State.hasToSave, Bool.not_eq_false', Bool.or_eq_true, Bool.and_eq_true, Bool.and_eq_true, List.isEmpty_iff, List.isEmpty_iff,
    List.isEmpty_iff, and_assoc]

theorem offCommand_down (hs : s.seq.st = .up) (h : s.hasToSave = false) : s.offCommand = s.startDown false false := by
  rw [State.offCommand, hs]
  rw [State.hasToSave, Bool.not_eq_false'] at h
  exact if_pos h

theorem offCommand_saves (hs : s.seq.st = .up) (h : s.hasToSave = true) :
    s.offCommand = ((s.updSeq (fun q => { q with offPending := true })).wakeClocks.cutTest).enterSave := by
  rw [State.offCommand, hs]
  rw [State.hasToSave, Bool.not_eq_true'] at h
  exact if_neg (by rw [h]; decide)

/-- The save before the rails ramp down. -/
theorem offCommand_saves_effect (hs : s.seq.st = .up) (h : s.hasToSave = true) (ht : s.dst.testing = false) (hu : s.seq.hupTestEn = false) :
    OnlyParts [.seq, .mod, .pe, .tir, .islands, .records, .lps] s s.offCommand ∧ s.offCommand.seq = { s.seq with offPending := true } ∧
    s.offCommand.mod.mode = .save ∧ s.offCommand.mod.prev = s.mod.mode ∧ s.offCommand.mod.intakeClosed = true ∧
    s.offCommand.pe = { s.pe with stopped := true } := by
  have hcut : (s.updSeq (fun q => { q with offPending := true })).wakeClocks.cutTest = (s.updSeq (fun q => { q with offPending := true })).wakeClocks :=
    cutTest_idle ht hu
  rw [offCommand_saves hs h, hcut]
  obtain ⟨hm, hp, hi, -⟩ := enterSave_mod (s.updSeq (fun q => { q with offPending := true })).wakeClocks
  refine ⟨((s.updSeq_only _).comp ((wakeClocks_only _).comp (enterSave_only _))).mono (by decide), ?_, hm, hp, hi, enterSave_pe _⟩
  rw [enterSave_only _ .seq (by decide)]
  rfl

end Requests

section Cascade
variable {s : State} {pulses : BitVec 8}

theorem exec_cascRelease (hr : s.running .aon = true) (hs : s.seq.st = .cascWait) (pulses : BitVec 8) :
    exec (.cascRelease pulses) s = .next (s.decodePosition pulses.toNat) := when_pos (by rw [hr, hs]; rfl) _ _

theorem boot_only (s : State) (n : Nat) : OnlyParts [.boot] s { s with boot := n } := by
  intro p hp; cases p <;> first
    | exact absurd (by decide) hp
    | rfl
    | exact fun a _ => State.raw_congr rfl a
    | exact fun a => State.byte_congr rfl rfl rfl rfl a
    | exact fun _ _ => rfl
    | exact fun _ => rfl
    | exact ⟨rfl, rfl, fun _ _ => rfl⟩
    | exact ⟨rfl, rfl⟩

/-- The position is known, and RAMP_UP begins at step 0. -/
def SeqState.placed (q : SeqState) (n : Nat) : SeqState :=
  { q with cascIn := true, position := n, posValid := true, posError := false, st := .rampUp, step := 0, bootPhase := 1, bootFail := 0 }

theorem decodePosition_good {n : Nat} (hp : n < 8) :
    s.decodePosition n = { s.updSeq (fun q => q.placed n) with boot := s.boot + 1 } := by
  rw [State.decodePosition, if_neg (by omega)]
  rfl

theorem decodePosition_refused (hp : 8 ≤ pulses.toNat) (he : s.seq.posError = false) :
    OnlyParts [.seq, .records] s (s.decodePosition pulses.toNat) ∧
    (s.decodePosition pulses.toNat).seq = { s.seq with cascIn := true, posError := true, bootPhase := 15, bootFail := 4 } := by
  rw [State.decodePosition, if_pos hp, if_neg (by rw [he]; decide)]
  exact ⟨((s.updSeq_only _).trans (State.updSeq_only _ _)).comp (State.record_only _ _ _ _ _ _ _), by rw [State.record_seq]; rfl⟩

theorem exec_cascFltN_high (hr : s.running .aon = true) : exec (.cascFltN .high) s = .next (s.updSeq (fun q => { q with fltHigh := true })) :=
  when_pos hr _ _

theorem exec_cascFltN_seen (hr : s.running .aon = true) (hs : s.seq.st = .up ∨ s.seq.st = .saveHold) :
    exec (.cascFltN .low) s = .next ((s.updSeq (fun q => { q with fltHigh := false })).recFlag sevNotice .aon F.SEQ_STATUS.FLT_SEEN 0) := by
  refine (when_pos hr _ _).trans ?_
  obtain h | h := hs <;> rw [h]

theorem exec_cascFltN_waiting (hr : s.running .aon = true) (hs : s.seq.st = .cascWait) :
    exec (.cascFltN .low) s = .next (State.settleRst s (s.updSeq (fun q => { q with fltHigh := false, st := .off, onPending := false }))) := by
  refine (when_pos hr _ _).trans ?_
  rw [hs]
  have : (s.updSeq (fun q => { q with fltHigh := false })).offRequest = s.updSeq (fun q => { q with fltHigh := false, st := .off, onPending := false }) := by
    rw [State.offRequest, State.updSeq_seq]
    dsimp only
    rw [hs]
    rfl
  dsimp only
  rw [this]

theorem exec_cascFltRelease (hr : s.running .aon = true) (hd : s.seq.fltDrive = true) :
    exec .cascFltRelease s = .next (s.updSeq (fun q => { q with fltDrive := false })).bypass := when_pos (by rw [hr, hd]; rfl) _ _

theorem bypass_released (hs : s.seq.st ≠ .latched) :
    (s.updSeq (fun q => { q with fltDrive := false })).bypass = s.updSeq (fun q => { q with fltDrive := false }) := by
  rw [State.bypass, State.updSeq_seq]
  dsimp only
  cases h : s.seq.st <;> first | exact absurd h hs | rfl

theorem bypass_latched (hs : s.seq.st = .latched) :
    (s.updSeq (fun q => { q with fltDrive := false })).bypass = s.updSeq (fun q => { q with
      fltDrive := false, cascOut := q.cascOut || s.on F.SEQ_CASC.BYPASS_ON_LATCH }) := by
  rw [State.bypass, State.updSeq_seq]
  dsimp only
  rw [hs]
  rfl

theorem exec_cascInFall (hr : s.running .aon = true) (hc : s.seq.cascIn = true) : exec .cascInFall s =
    .next (if s.seq.released then (s.updSeq (fun q => { q with cascIn := false })).record sevNotice .aon 1 F.SEQ_STATUS.CASC_IN.lsb 0 Addr.SEQ_STATUS
      else s.updSeq (fun q => { q with cascIn := false })) := when_pos (by rw [hr, hc]; rfl) _ _

end Cascade

end Sys2Proof.Machine
end

section
/-! SUPPORT. Channels coming up and going off, and channel commands. -/

namespace Sys2Proof.Machine

section Up
variable {s : State} {n k j : Nat}

theorem exec_onDelay (hr : s.running .aon = true) (hs : s.seq.st = .rampUp) (ho : s.seq.offPending = false)
    (hn : ∀ n < 32, s.chStep n = s.seq.step → s.chOn n = false) : exec .onDelay s = .next (s.raiseChans (s.stepChans s.seq.step)) := by
  have he : s.stepOn s.seq.step = [] := List.eq_nil_iff_forall_not_mem.mpr fun n hm => by
    obtain ⟨h1, h2, h3⟩ := mem_stepOn.mp hm
    exact absurd (hn n h1 h3) (by rw [h2]; decide)
  exact when_pos (by rw [hr, hs, ho, he]; rfl) _ _

/-- The channels of a step rise together. -/
theorem raiseStep_effect (s : State) (k : Nat) :
    OnlyParts [.seq] s (s.raiseChans (s.stepChans k)) ∧ OnlyChannels s (s.raiseChans (s.stepChans k)) ∧
    (s.raiseChans (s.stepChans k)).seq.good = s.seq.good ∧
    ∀ n < 32, (s.raiseChans (s.stepChans k)).chOn n = (s.chOn n || (s.chEnabled n && s.chStep n == k)) ∧
      ((s.chEnabled n && s.chStep n == k) = true → (s.raiseChans (s.stepChans k)).chFalling n = false) := by
  rw [raiseChans_eq]
  refine ⟨s.updSeq_only _, rfl, rfl, fun n hn => ?_⟩
  have hon : (s.updSeq (fun q => { q with en := withBits q.en (s.stepChans k), finished := withoutBits q.finished (s.stepChans k) })).chOn n =
      (s.chOn n || (s.chEnabled n && s.chStep n == k)) := by
    rw [← stepChans_contains hn]
    exact withBits_getLsbD hn
  refine ⟨hon, fun hin => ?_⟩
  rw [State.chFalling, hon, hin, Bool.or_true]
  rfl

theorem stepIslands_none (hk : k ≠ 1) (hc : k = 0 ∨ s.run .cal ≠ .inReset) : s.stepIslands k = s := by
  rw [State.stepIslands, if_neg hk, if_neg]
  rintro ⟨h2, h⟩
  obtain rfl | h0 := hc
  · omega
  · exact h0 h

theorem nextStep_updSeq (s : State) (f : SeqState → SeqState) (k : Nat) : (s.updSeq f).nextStep k = s.nextStep k := rfl

/-- The step is good, and the next one is the running step. -/
def SeqState.stepped (q : SeqState) (l : List Nat) (j : Nat) (due : Bool) : SeqState :=
  { q with good := withBits q.good l, step := j, cascOut := q.cascOut || due, released := q.released || due }

/-- The last step is good. -/
def SeqState.arrived (q : SeqState) (l : List Nat) : SeqState :=
  { q with good := withBits q.good l, cascOut := true, released := true, st := .up, bootPhase := 4 }

theorem cascade_next (hj : s.nextStep k = some j) : s.cascade k = s.updSeq (fun q => { q with
    cascOut := q.cascOut || decide (s.fld F.SEQ_CASC.RELEASE_STEP < j), released := q.released || decide (s.fld F.SEQ_CASC.RELEASE_STEP < j) }) := by
  unfold State.cascade
  rw [hj]
  dsimp only
  by_cases h : s.fld F.SEQ_CASC.RELEASE_STEP < j
  · rw [if_pos (decide_eq_true h), decide_eq_true h]
    simp only [Bool.or_true]
  · rw [if_neg (by rw [decide_eq_false h]; decide), decide_eq_false h]
    simp only [Bool.or_false]
    rfl

theorem cascade_last (hj : s.nextStep k = none) : s.cascade k = s.updSeq (fun q => { q with cascOut := true, released := true }) := by
  unfold State.cascade
  rw [hj]
  rfl

/-- The channels of the running step are good. -/
def State.stepIsGood (s : State) : State := s.updSeq (fun q => { q with good := withBits q.good (s.stepChans q.step) })

theorem stepIsGood_islands (hk : s.seq.step ≠ 1) (hc : s.seq.step = 0 ∨ s.run .cal ≠ .inReset) :
    ((s.stepChans s.seq.step).foldl (fun t n => t.setGood n true) s).stepIslands s.seq.step = s.stepIsGood := by
  rw [setGoods_eq]
  exact stepIslands_none hk hc

theorem stepUp_next (hk : s.seq.step ≠ 1) (hc : s.seq.step = 0 ∨ s.run .cal ≠ .inReset) (ho : s.seq.offPending = false)
    (hj : s.nextStep s.seq.step = some j) :
    s.stepUp = s.updSeq (fun q => q.stepped (s.stepChans s.seq.step) j (decide (s.fld F.SEQ_CASC.RELEASE_STEP < j))) := by
  unfold State.stepUp
  dsimp only
  rw [stepIsGood_islands hk hc, cascade_next (s := s.stepIsGood) hj]
  rw [if_neg (by rw [State.updSeq_seq]; exact Bool.eq_false_iff.mp ho), nextStep_updSeq, show s.stepIsGood.nextStep s.seq.step = some j from hj]
  rfl

theorem stepUp_last (hk : s.seq.step ≠ 1) (hc : s.seq.step = 0 ∨ s.run .cal ≠ .inReset) (ho : s.seq.offPending = false)
    (hj : s.nextStep s.seq.step = none) : s.stepUp = s.updSeq (fun q => q.arrived (s.stepChans s.seq.step)) := by
  unfold State.stepUp
  dsimp only
  rw [stepIsGood_islands hk hc, cascade_last (s := s.stepIsGood) hj]
  rw [if_neg (by rw [State.updSeq_seq]; exact Bool.eq_false_iff.mp ho), nextStep_updSeq, show s.stepIsGood.nextStep s.seq.step = none from hj]
  rfl

theorem exec_stepGood_step (hr : s.running .aon = true) (hs : s.seq.st = .rampUp)
    (hg : ∀ n < 32, (s.chEnabled n && s.chStep n == s.seq.step) = true → s.chOn n = true) :
    exec .stepGood s = .next (State.settleRst s s.stepUp) := by
  have hall : (s.stepChans s.seq.step).all (fun n => s.chOn n) = true := List.all_eq_true.mpr fun n hm => by
    obtain ⟨h1, h2, h3⟩ := mem_stepChans.mp hm
    exact hg n h1 (by rw [h2, h3, beq_self_eq_true]; rfl)
  show execStepGood s = _
  unfold execStepGood
  dsimp only
  rw [hs]
  exact when_pos (by rw [hr, hall]; rfl) _ _

theorem chGood_withBits {u : State} (hg : u.seq.good = withBits s.seq.good (s.stepChans k)) (hn : n < 32) :
    u.chGood n = (s.chGood n || (s.chEnabled n && s.chStep n == k)) := by
  rw [State.chGood, hg, withBits_getLsbD hn, stepChans_contains hn]
  rfl

theorem exec_stepGood_cmd (hr : s.running .aon = true) (hs : s.seq.st = .up) (hc : s.seq.chCmd = some (n, true)) (hn : s.chOn n = true) :
    exec .stepGood s = .next (State.settleRst s ((s.setGood n true).endChCmd ST.ok)) := by
  show execStepGood s = _
  unfold execStepGood
  dsimp only
  rw [hs, hc]
  exact when_pos (by rw [hr, hn]; rfl) _ _

theorem stepGood_cmd_effect (s : State) (hn : n < 32) :
    OnlyParts [.seq, .regs] s ((s.setGood n true).endChCmd ST.ok) ∧ RegsBut [Addr.SEQ_CH_CMD] s ((s.setGood n true).endChCmd ST.ok) ∧
    OnlyChannels s ((s.setGood n true).endChCmd ST.ok) ∧ ((s.setGood n true).endChCmd ST.ok).chGood n = true ∧
    ((s.setGood n true).endChCmd ST.ok).seq.chCmd = none ∧ ((s.setGood n true).endChCmd ST.ok).fld F.SEQ_CH_CMD.BUSY = 0 ∧
    ((s.setGood n true).endChCmd ST.ok).fld F.SEQ_CH_CMD.STATUS = 0 := by
  have ho := s.updSeq_only (fun q => { q with good := q.good ||| chBit n })
  refine ⟨(ho.comp (endChCmd_only _ _)).mono (by decide), fun a ha hp => ?_, ?_, ?_, by rw [endChCmd_seq], endChCmd_busy _ _, endChCmd_status _ _⟩
  · rw [endChCmd_raw_ne _ _ (fun h => ha (by rw [h]; exact List.mem_cons_self))]
    exact ho .regs (by decide) a hp
  · unfold OnlyChannels
    rw [endChCmd_seq]
    rfl
  · rw [endChCmd_chGood, chGood_setGood_self s true hn]

/-- What follows of the reset outputs is none of the channels' business. -/
theorem OnlyChannels.settled {t : State} (h : OnlyChannels s t) : OnlyChannels s (State.settleRst s t) := by
  unfold OnlyChannels at h ⊢
  rw [settleRst_seq]
  generalize (State.settleRst s t).seq.rst = r
  rw [h]

end Up

section Failing
variable {s t u : State} {n k : Nat} {timeout latch : Bool}

/-- A power-down told of from an earlier state, which differs in nothing that it speaks of. -/
theorem WentDown.before (h : WentDown u t k timeout latch) (ho : OnlyParts [.seq, .regs, .records, .dst] s u) (he : u.seq.en = s.seq.en)
    (hc : SameChans s u) : WentDown s t k timeout latch := by
  obtain ⟨hst, hstep, htp, hfp, hrel, hon, hrun, hmode, htime, hboot, hdbg, htenants⟩ := h
  refine ⟨hst, hstep, htp, hfp, hrel, fun m hm => ?_, hrun, hmode, htime.trans (ho .time (by decide)), hboot.trans (ho .boot (by decide)),
    hdbg.trans (ho .dbg (by decide)), htenants.trans (ho .tenants (by decide))⟩
  rw [hon m hm, hc.chStep hm, State.chOn, State.chOn, he]

theorem chCfg_not_fault {a : Nat} (hn : n < 32) (ha : a = Addr.SEQ_CH_CFG n) : a ∉ faultRegs := by
  subst ha
  simp only [faultRegs, Addr.SEQ_CH_CFG, Addr.SEQ_FAULT, Addr.SEQ_FAULT_TIME, Addr.SEQ_CNT0, List.mem_cons, List.not_mem_nil, or_false]
  omega

theorem railFault_chans (s : State) (ch kind phase sev : Nat) : SameChans s (s.railFault ch kind phase sev) :=
  fun _ hn => railFault_raw_ne s ch kind phase sev (chCfg_not_fault hn rfl)

/-- The failure path, before its power-down. -/
def State.failing (s : State) (ch kind : Nat) : State :=
  (s.updSeq (fun q => { q with timeoutPath := true, failPath := true, fltDrive := true, hupTestEn := false })).railFault ch kind 0 sevFatal

theorem failurePath_eq (s : State) (ch kind : Nat) : s.failurePath ch kind = (s.failing ch kind).startDown true true := rfl

theorem failing_seq (s : State) (ch kind : Nat) : (s.failing ch kind).seq =
    ({ s.seq with timeoutPath := true, failPath := true, fltDrive := true, hupTestEn := false } : SeqState).tookFault
      ((s.updSeq (fun q => { q with timeoutPath := true, failPath := true, fltDrive := true, hupTestEn := false })).mkFault ch kind 0) kind :=
  railFault_seq _ _ _ _ _

theorem failing_chans (s : State) (ch kind : Nat) : SameChans s (s.failing ch kind) := fun m hm => railFault_chans _ ch kind 0 sevFatal m hm

/-- The failure path of a channel that does not come up. -/
theorem failurePath_effect (hb : s.busyStep = some k) (hk : k ≠ 1) (ch kind : Nat) :
    WentDown s (State.settleRst s (s.failurePath ch kind)) k true true ∧ (s.failurePath ch kind).seq.fltDrive = true ∧
    (s.failurePath ch kind).seq.nextFault = s.seq.nextFault + 1 := by
  have hq := failing_seq s ch kind
  have hb' : (s.failing ch kind).busyStep = some k := by rw [(failing_chans s ch kind).busyStep (by rw [hq]; rfl) (by rw [hq]; rfl), hb]
  have ho : OnlyParts [.seq, .regs, .records] s (s.failing ch kind) := ((s.updSeq_only _).comp (railFault_only _ _ _ _ _)).mono (by decide)
  have hw := startDown_wentDown (timeout := true) (latch := true) hb' (.inl hk)
  rw [Bool.or_true, Bool.or_true, ← failurePath_eq] at hw
  obtain ⟨rst, hd⟩ := startDown_seq (timeout := true) (latch := true) hb' (.inl hk)
  rw [← failurePath_eq] at hd
  refine ⟨(hw.before (ho.mono (by decide)) (by rw [hq]; rfl) (failing_chans s ch kind)).after ((settleRst_only s _).mono (by decide))
    ⟨_, _, _, _, settleRst_seq s _⟩, ?_, ?_⟩
  · rw [hd, hq]
    rfl
  · rw [hd, hq]
    rfl

theorem exec_pgTimeout_step {ch : BitVec 5} (hr : s.running .aon = true) (hs : s.seq.st = .rampUp) (ho : s.chOn ch.toNat = true)
    (hg : s.chGood ch.toNat = false) (hk : s.chStep ch.toNat = s.seq.step) :
    exec (.pgTimeout ch) s = .next (State.settleRst s (s.failurePath ch.toNat 1)) := by
  show execPgTimeout ch s = _
  unfold execPgTimeout
  rw [hs]
  exact when_pos (by rw [hr, ho, hg, hk, beq_self_eq_true]; rfl) _ _

theorem exec_pgTimeout_cmd {ch : BitVec 5} (hr : s.running .aon = true) (hs : s.seq.st = .up) (hc : s.seq.chCmd = some (ch.toNat, true))
    (hg : s.chGood ch.toNat = false) : exec (.pgTimeout ch) s = .next (s.chCmdFails ch.toNat 1) := by
  show execPgTimeout ch s = _
  unfold execPgTimeout
  rw [hs]
  exact when_pos (by rw [hr, hc, hg, beq_self_eq_true]; rfl) _ _

theorem markFailed_only (s : State) (n : Nat) : OnlyParts [.regs] s (s.markFailed n) := State.setFld_only _ _ _ (by decide)

theorem markFailed_raw_ne {a : Nat} (s : State) (n : Nat) (h : a ≠ Addr.SEQ_CH_FAILED) : (s.markFailed n).raw a = s.raw a :=
  State.raw_setFld_ne _ _ _ h

theorem markFailed_failed (s : State) (hn : n < 32) : Nat.testBit ((s.markFailed n).fld F.SEQ_CH_FAILED.FAILED) n = true := by
  rw [State.markFailed, State.fld_setFld_self _ _ _ (by decide), Nat.testBit_mod_two_pow, Nat.testBit_or, Nat.testBit_two_pow_self, Bool.or_true,
    Bool.and_true]
  exact decide_eq_true hn

theorem chCmdFails_eq (hp : s.svc.proc ≠ 4) (n kind : Nat) :
    s.chCmdFails n kind = (((s.lowerChans [n]).markFailed n).railFault n kind 4 sevError).endChCmd ST.fault := by
  have hsvc : ((((s.lowerChans [n]).markFailed n).railFault n kind 4 sevError).endChCmd ST.fault).svc = s.svc := by
    rw [endChCmd_only _ _ .svc (by decide), railFault_only _ _ _ _ _ .svc (by decide), markFailed_only _ _ .svc (by decide), lowerChans_eq]
    rfl
  have hchin : ∀ u : State, u.svc = s.svc → u.chInLost n = u := fun u hu => if_neg (fun h => hp (hu ▸ h.1))
  rw [← hchin _ hsvc, lowerChans_eq]
  rfl

/-- A channel command that fails. -/
theorem chCmdFails_effect (hp : s.svc.proc ≠ 4) (hn : n < 32) (kind : Nat) :
    let t := s.chCmdFails n kind
    OnlyParts [.seq, .regs, .records] s t ∧ RegsBut (Addr.SEQ_CH_CMD :: Addr.SEQ_CH_FAILED :: faultRegs) s t ∧ t.chOn n = false ∧
    t.seq.chCmd = none ∧ t.fld F.SEQ_CH_CMD.STATUS = ST.fault.toNat ∧ t.fld F.SEQ_CH_CMD.BUSY = 0 ∧
    Nat.testBit (t.fld F.SEQ_CH_FAILED.FAILED) n = true := by
  dsimp only
  rw [chCmdFails_eq hp]
  have hlow : OnlyParts [.seq] s (s.lowerChans [n]) := by
    rw [lowerChans_eq]
    exact s.updSeq_only _
  refine ⟨(hlow.comp ((markFailed_only _ _).comp ((railFault_only _ _ _ _ _).comp (endChCmd_only _ _)))).mono (by decide), fun a ha hp => ?_, ?_,
    rfl, endChCmd_status _ _, endChCmd_busy _ _, ?_⟩
  · obtain ⟨h1, h2, h3⟩ : a ≠ Addr.SEQ_CH_CMD ∧ a ≠ Addr.SEQ_CH_FAILED ∧ a ∉ faultRegs := by simpa using ha
    rw [endChCmd_raw_ne _ _ h1, railFault_raw_ne _ _ _ _ _ h3, markFailed_raw_ne _ _ h2, hlow .regs (by decide) a hp]
  · rw [State.chOn, endChCmd_seq]
    dsimp only
    rw [railFault_seq]
    show ((s.lowerChans [n]).markFailed n).chOn n = false
    refine (chOn_lowerChans s [n] hn).trans ?_
    simp
  · rw [State.fld_of_raw (f := F.SEQ_CH_FAILED.FAILED) ((endChCmd_raw_ne _ _ (by decide)).trans (railFault_raw_ne _ _ _ _ _ (by decide)))]
    exact markFailed_failed _ hn

end Failing
end Sys2Proof.Machine
end

section
/-! SUPPORT. AON's start, a channel that has finished, and channel commands. -/

namespace Sys2Proof.Machine

section Start
variable {s : State} {i : Island}

theorem exec_aonResetRelease (h : s.run .aon = .inReset) : exec .aonResetRelease s = .next (s.setRun .aon .running) := by
  show execAonResetRelease s = _
  unfold execAonResetRelease
  rw [h]

theorem exec_timeBaseResync (ha : s.running .aon = true) (hi : s.running i = true) :
    exec (.timeBaseResync i) s = .next { s with clocks := s.clocks.set i.code s.time } := when_pos (by rw [ha, hi]; rfl) _ _

theorem clocks_only (s : State) (l : List Nat) : OnlyParts [.clocks] s { s with clocks := l } := by
  intro p hp; cases p <;> first
    | exact absurd (by decide) hp
    | rfl
    | exact fun a _ => State.raw_congr rfl a
    | exact fun a => State.byte_congr rfl rfl rfl rfl a
    | exact fun _ _ => rfl
    | exact fun _ => rfl
    | exact ⟨rfl, rfl, fun _ _ => rfl⟩
    | exact ⟨rfl, rfl⟩

end Start

theorem raw_updSeq (s : State) (f : SeqState → SeqState) (a : Nat) : (s.updSeq f).raw a = s.raw a := rfl

theorem RegsBut.of_raw {l : List Nat} {s t : State} (h : ∀ a, t.raw a = s.raw a) : RegsBut l s t := fun a _ _ => h a

section Finished
variable {s t u : State} {n m : Nat} {ch : BitVec 5} {rs : List Nat}

/-- The channel has finished, and is good no more. -/
def State.chEnded (s : State) (n : Nat) : State := (s.updSeq (fun q => { q with finished := q.finished ||| chBit n })).setGood n false

theorem chEnded_only (s : State) (n : Nat) : OnlyParts [.seq] s (s.chEnded n) := (s.updSeq_only _).trans (State.updSeq_only _ _)

/-- The channel is off, and no other channel's good has changed. -/
def ChannelOff (s t : State) (n : Nat) : Prop :=
  t.chGood n = false ∧ t.seq.finished.getLsbD n = true ∧ ∀ m < 32, m ≠ n → t.chGood m = s.chGood m

theorem chEnded_off (s : State) (hn : n < 32) : ChannelOff s (s.chEnded n) n :=
  ⟨chGood_setGood_self _ false hn, (withBits_getLsbD (l := [n]) hn).trans (by simp), fun _ hm h => chGood_setGood_ne _ false hm h⟩

theorem ChannelOff.congr (h : ChannelOff s t n) (hg : u.seq.good = t.seq.good) (hf : u.seq.finished = t.seq.finished) : ChannelOff s u n := by
  obtain ⟨hn, hfin, hm⟩ := h
  have hgood : ∀ m, u.chGood m = t.chGood m := fun m => by rw [State.chGood, State.chGood, hg]
  exact ⟨(hgood n).trans hn, by rw [hf]; exact hfin, fun m hlt hne => (hgood m).trans (hm m hlt hne)⟩

/-- The channel has finished, and with it the command that switched it off. -/
def Finished (rs : List Nat) (n : Nat) (s t : State) : Prop :=
  OnlyParts [.seq, .regs, .records] s t ∧ RegsBut (Addr.SEQ_CH_CMD :: rs) s t ∧ ChannelOff s t n ∧
  (s.seq.chCmd = some (n, false) → t.seq.chCmd = none ∧ t.fld F.SEQ_CH_CMD.BUSY = 0 ∧ t.fld F.SEQ_CH_CMD.STATUS = 0) ∧
  (s.seq.chCmd ≠ some (n, false) → t.seq.chCmd = s.seq.chCmd)

theorem Finished.settled (h : Finished rs n s t) : Finished rs n s (State.settleRst s t) := by
  obtain ⟨ho, hr, hoff, hcmd, hno⟩ := h
  exact ⟨(ho.comp (settleRst_only s t)).mono (by decide), hr, hoff, hcmd, hno⟩

/-- Told of from before a record was written. -/
theorem Finished.recorded (h : Finished [] n u t) (ho : OnlyParts [.seq, .regs, .records] s u) (hr : RegsBut rs s u)
    (hg : u.seq.good = s.seq.good) (hc : u.seq.chCmd = s.seq.chCmd) : Finished rs n s t := by
  obtain ⟨hu, hru, ⟨hn, hfin, hm⟩, hcmd, hno⟩ := h
  rw [hc] at hcmd hno
  refine ⟨ho.trans hu, fun a ha hp => ?_, ⟨hn, hfin, fun m hlt hne => ?_⟩, hcmd, hno⟩
  · obtain ⟨h1, h2⟩ := not_or.mp (mt List.mem_cons.mpr ha)
    exact (hru a (by simpa using h1) hp).trans (hr a h2 hp)
  · rw [hm m hlt hne, State.chGood, State.chGood, hg]

theorem chEnded_finished (hn : n < 32) (hc : s.seq.chCmd ≠ some (n, false)) : Finished [] n s (s.chEnded n) :=
  ⟨(chEnded_only s n).mono (by decide), fun a _ hp => chEnded_only s n .regs (by decide) a hp, chEnded_off s hn, fun h => absurd h hc, fun _ => rfl⟩

theorem chEnded_cmd_finished (hn : n < 32) (hc : s.seq.chCmd = some (n, false)) : Finished [] n s ((s.chEnded n).endChCmd ST.ok) := by
  refine ⟨((chEnded_only s n).comp (endChCmd_only _ _)).mono (by decide), fun a ha hp => ?_, ?_, fun _ => ⟨?_, endChCmd_busy _ _, endChCmd_status _ _⟩,
    fun h => absurd hc h⟩
  · rw [endChCmd_raw_ne _ _ (fun h => ha (by rw [h]; exact List.mem_cons_self))]
    exact chEnded_only s n .regs (by decide) a hp
  · exact (chEnded_off s hn).congr (by rw [endChCmd_seq]) (by rw [endChCmd_seq])
  · rw [endChCmd_seq]

/-- The channel has ended, and the command that switched it off is complete. -/
def State.chFreed (s : State) (n : Nat) : State :=
  if (s.chEnded n).seq.chCmd = some (n, false) then ((s.chEnded n).endChCmd ST.ok).chOutDone n else s.chEnded n

theorem finishCh_eq_chFreed (h : (s.chFreed n).seq.st ≠ .rampDown) : s.finishCh n = s.chFreed n := by
  show (match (s.chFreed n).seq.st with | .rampDown => (s.chFreed n).descend | _ => s.chFreed n) = _
  split
  · contradiction
  · rfl

theorem finishCh_eq_descend (h : (s.chFreed n).seq.st = .rampDown) : s.finishCh n = (s.chFreed n).descend := by
  show (match (s.chFreed n).seq.st with | .rampDown => (s.chFreed n).descend | _ => s.chFreed n) = _
  rw [h]

theorem chFreed_idle (hc : s.seq.chCmd ≠ some (n, false)) : s.chFreed n = s.chEnded n := if_neg hc

theorem chFreed_cmd (hc : s.seq.chCmd = some (n, false)) (hp : s.svc.proc ≠ 3) : s.chFreed n = (s.chEnded n).endChCmd ST.ok := by
  refine (if_pos hc).trans (if_neg fun h => hp ?_)
  rw [← h.1, endChCmd_only _ _ .svc (by decide), chEnded_only s n .svc (by decide)]

theorem chFreed_finished (hp : s.svc.proc ≠ 3) (hn : n < 32) : Finished [] n s (s.chFreed n) ∧ (s.chFreed n).seq.st = s.seq.st := by
  by_cases hc : s.seq.chCmd = some (n, false)
  · rw [chFreed_cmd hc hp, endChCmd_seq]
    exact ⟨chEnded_cmd_finished hn hc, rfl⟩
  · rw [chFreed_idle hc]
    exact ⟨chEnded_finished hn hc, rfl⟩

theorem finishCh_finished (hs : s.seq.st = .up) (hp : s.svc.proc ≠ 3) (hn : n < 32) : Finished [] n s (s.finishCh n) := by
  obtain ⟨hfin, hst⟩ := chFreed_finished hp hn
  rw [finishCh_eq_chFreed (by rw [hst, hs]; decide)]
  exact hfin

/-! ### The last step off -/

theorem bypass_only (s : State) : OnlyParts [.seq] s s.bypass := by
  unfold State.bypass
  split
  · exact s.updSeq_only _
  · exact OnlyParts.refl s _

theorem bypass_bits (s : State) : s.bypass.seq.good = s.seq.good ∧ s.bypass.seq.finished = s.seq.finished := by
  unfold State.bypass
  split
  · exact ⟨rfl, rfl⟩
  · exact ⟨rfl, rfl⟩

theorem endDown_only (s : State) : OnlyParts [.islands, .seq] s s.endDown := by
  have hr := setRuns_only s otherIslands .off
  unfold State.endDown
  dsimp only
  split
  · exact hr.comp (((State.updSeq_only _ _).trans (State.updSeq_only _ _)).trans (bypass_only _))
  · split
    · exact hr.comp (State.updSeq_only _ _)
    · exact hr.comp (State.updSeq_only _ _)

theorem endDown_bits (s : State) : s.endDown.seq.good = s.seq.good ∧ s.endDown.seq.finished = s.seq.finished := by
  have hr : (s.setRuns otherIslands .off).seq = s.seq := setRuns_only s otherIslands .off .seq (by decide)
  unfold State.endDown
  dsimp only
  split
  · obtain ⟨hg, hf⟩ := bypass_bits (((s.setRuns otherIslands .off).updSeq (fun q =>
      { q with st := .latched, onPending := false, bootPhase := 0xF, bootFail := 5 })).assertEvent F.SEQ_RST.ON_LATCH)
    rw [hg, hf, ← hr]
    exact ⟨rfl, rfl⟩
  · rw [← hr]
    split <;> exact ⟨rfl, rfl⟩

theorem descend_only (s : State) : OnlyParts [.seq, .islands] s s.descend := by
  unfold State.descend
  split
  · exact (endDown_only s).mono (by decide)
  next k _ =>
    dsimp only
    split
    · exact (s.updSeq_only _).mono (by decide)
    · exact ((s.updSeq_only _).comp (lowerStep_only _ k)).mono (by decide)

theorem descend_bits (s : State) : s.descend.seq.good = s.seq.good ∧ s.descend.seq.finished = s.seq.finished := by
  unfold State.descend
  split
  · exact endDown_bits s
  next k _ =>
    dsimp only
    split
    · exact ⟨rfl, rfl⟩
    · rw [lowerStep_seq]
      exact ⟨rfl, rfl⟩

theorem finishCh_descends (hs : s.seq.st = .rampDown) (hc : s.seq.chCmd = none) : s.finishCh n = (s.chEnded n).descend := by
  have h : s.chFreed n = s.chEnded n := chFreed_idle (by rw [hc]; exact nofun)
  rw [finishCh_eq_descend (by rw [h]; exact hs), h]

/-- On the timeout path of RAMP_DOWN. -/
theorem finishCh_down_effect (hs : s.seq.st = .rampDown) (hc : s.seq.chCmd = none) (hn : n < 32) :
    OnlyParts [.seq, .islands] s (s.finishCh n) ∧ ChannelOff s (s.finishCh n) n := by
  rw [finishCh_descends hs hc]
  obtain ⟨hg, hf⟩ := descend_bits (s.chEnded n)
  exact ⟨((chEnded_only s n).comp (descend_only _)).mono (by decide), (chEnded_off s hn).congr hg hf⟩

theorem exec_offTimeout (hr : s.running .aon = true) (hf : s.chFalling ch.toNat = true)
    (hw : s.seq.st = .rampDown → ch.toNat ≠ 1 ∨ s.holdsCh1 (s.chStep 1) = false) :
    exec (.offTimeout ch) s = .next (State.settleRst s (s.timeoutCh ch.toNat)) := by
  have hwaits : (s.seq.st == .rampDown && ch.toNat == 1 && s.seq.step == s.chStep 1 && s.holdsCh1 (s.chStep 1)) = false := by
    by_cases hs : s.seq.st = .rampDown
    · obtain h | h := hw hs
      · simp [h]
      · simp [h]
    · simp [hs]
  refine (when_pos (by rw [hr, hf]; rfl) _ _).trans ?_
  rw [hwaits]
  rfl

theorem timeoutCh_down (hs : s.seq.st = .rampDown) (ht : s.seq.timeoutPath = true) : s.timeoutCh n = s.finishCh n :=
  if_pos (.inl (by rw [State.onTimeout, hs, ht]; rfl))

theorem timeoutCh_mode1 (h : s.fld (F.SEQ_CH_CFG.OFF_MODE n) = 1) : s.timeoutCh n = s.finishCh n := if_pos (.inr h)

theorem onTimeout_up (hs : s.seq.st = .up) : s.onTimeout = false := by
  rw [State.onTimeout, hs]
  exact Bool.and_false _

theorem timeoutCh_mode2 (hs : s.seq.st = .up) (h : s.fld (F.SEQ_CH_CFG.OFF_MODE n) = 2) :
    s.timeoutCh n = (s.railFault n 5 s.offPhase sevNotice).finishCh n := by
  rw [State.timeoutCh, if_neg, if_pos h]
  rw [onTimeout_up hs, h]
  decide

/-- A discharge that takes too long is recorded, and the channel finishes. -/
theorem timeoutCh_mode2_effect (hs : s.seq.st = .up) (hp : s.svc.proc ≠ 3) (hn : n < 32) (h : s.fld (F.SEQ_CH_CFG.OFF_MODE n) = 2) :
    Finished faultRegs n s (s.timeoutCh n) ∧ Rises s (s.timeoutCh n) F.SEQ_CNT0.DISCHARGE_TIMEOUTS 1 := by
  have ho := railFault_only s n 5 s.offPhase sevNotice
  have hq := railFault_seq s n 5 s.offPhase sevNotice
  have hup : (s.railFault n 5 s.offPhase sevNotice).seq.st = .up := by
    rw [hq]
    exact hs
  have hproc : (s.railFault n 5 s.offPhase sevNotice).svc.proc ≠ 3 := by
    rw [ho .svc (by decide)]
    exact hp
  have hfin := finishCh_finished hup hproc hn
  rw [timeoutCh_mode2 hs h]
  refine ⟨hfin.recorded ho (railFault_regsBut s n 5 _ _) (by rw [hq]; rfl) (by rw [hq]; rfl),
    (railFault_rises_discharge s n s.offPhase sevNotice).after ?_⟩
  exact hfin.2.1 _ (by decide) (by decide)

theorem exec_channelDischarged (hr : s.running .aon = true) (hf : s.chFalling ch.toNat = true) (hs : s.seq.st = .up) :
    exec (.channelDischarged ch) s = .next (State.settleRst s (if s.fld (F.SEQ_CH_CFG.OFF_MODE ch.toNat) = 1 then s.setGood ch.toNat false
      else s.finishCh ch.toNat)) := by
  refine (when_pos (by rw [hr, hf]; rfl) _ _).trans ?_
  rw [onTimeout_up hs]
  by_cases h : s.fld (F.SEQ_CH_CFG.OFF_MODE ch.toNat) = 1
  · rw [if_pos (.inr h), if_pos h]
  · rw [if_neg (by simpa using h), if_neg h]

theorem exec_stuck (hr : s.running .aon = true) (hf : s.chFalling ch.toNat = true) (hs : s.seq.st = .up)
    (h : s.fld (F.SEQ_CH_CFG.OFF_MODE ch.toNat) = 0) :
    exec (.stuck ch) s = .next ((s.updSeq (fun q => { q with stuck := true })).railFault ch.toNat 6 s.offPhase sevWarn) :=
  when_pos (by rw [hr, hf, onTimeout_up hs, h]; rfl) _ _

/-- A channel that does not finish is recorded. -/
theorem stuck_effect (s : State) (n phase sev : Nat) :
    let t := (s.updSeq (fun q => { q with stuck := true })).railFault n 6 phase sev
    OnlyParts [.seq, .regs, .records] s t ∧ RegsBut faultRegs s t ∧ t.seq.stuck = true ∧ t.seq.nextFault = s.seq.nextFault + 1 ∧
    t.seq.en = s.seq.en := by
  dsimp only
  have hq := railFault_seq (s.updSeq (fun q => { q with stuck := true })) n 6 phase sev
  refine ⟨((s.updSeq_only _).comp (railFault_only _ _ _ _ _)).mono (by decide), fun a ha _ => (railFault_raw_ne _ _ _ _ _ ha).trans (raw_updSeq s _ a), ?_, ?_, ?_⟩
  · rw [hq]; rfl
  · rw [hq]; rfl
  · rw [hq]; rfl

end Finished

section Commands
variable {s : State} {n : Nat} {ch : BitVec 5} {on : Bool} {st : Status} {path : Path}

theorem exec_channelOn (hr : s.running .aon = true) (hc : s.seq.chCmd = none) :
    exec (.channelOn path ch) s = .next (s.chCommand ch.toNat true) := when_pos (by rw [State.mayChCmd, hr, hc]; rfl) _ _

theorem exec_channelOff (hr : s.running .aon = true) (hc : s.seq.chCmd = none) :
    exec (.channelOff path ch) s = .next (State.settleRst s (s.chCommand ch.toNat false)) := when_pos (by rw [State.mayChCmd, hr, hc]; rfl) _ _

/-- The channel command completes at once with this status. -/
def ChAnswered (n : Nat) (st : Status) (s t : State) : Prop :=
  OnlyParts [.seq, .regs] s t ∧ RegsBut [Addr.SEQ_CH_CMD] s t ∧ OnlyChannels s t ∧ t.seq.en = s.seq.en ∧
  t.fld F.SEQ_CH_CMD.STATUS = st.toNat ∧ t.fld F.SEQ_CH_CMD.BUSY = 0 ∧ t.fld F.SEQ_CH_CMD.CH = n

theorem ChAnswered.settled {t : State} (h : ChAnswered n st s t) : ChAnswered n st s (State.settleRst s t) := by
  obtain ⟨ho, hr, hch, hen, hst, hb, hc⟩ := h
  exact ⟨(ho.comp (settleRst_only s t)).mono (by decide), hr, hch.settled, hen, hst, hb, hc⟩

theorem chAnswered (s : State) (hn : n < 32) (st : Status) : ChAnswered n st s ((s.setFld F.SEQ_CH_CMD.CH n).endChCmd st) := by
  refine ⟨((State.setFld_only _ _ _ (by decide)).comp (endChCmd_only _ _)).mono (by decide), fun a ha hp => ?_, ?_, ?_, endChCmd_status _ _,
    endChCmd_busy _ _, ?_⟩
  · have h : a ≠ Addr.SEQ_CH_CMD := by simpa using ha
    rw [endChCmd_raw_ne _ _ h, State.raw_setFld_ne _ _ _ h]
  · unfold OnlyChannels
    rw [endChCmd_seq]
    rfl
  · rw [endChCmd_seq]
    rfl
  · rw [endChCmd_ch, State.fld_setFld_self _ _ _ (by decide)]
    exact Nat.mod_eq_of_lt hn

theorem chCommand_rights (h : s.chClass n = 0 ∨ s.chClass n = 3) (on : Bool) :
    s.chCommand n on = (s.setFld F.SEQ_CH_CMD.CH n).endChCmd ST.rights := if_pos h

variable (hk : s.chClass n = 1 ∨ s.chClass n = 2)

theorem class_not_refused (hk : s.chClass n = 1 ∨ s.chClass n = 2) : ¬ (s.chClass n = 0 ∨ s.chClass n = 3) := by omega

include hk

theorem chCommand_mode (hs : s.seq.st ≠ .up) (on : Bool) : s.chCommand n on = (s.setFld F.SEQ_CH_CMD.CH n).endChCmd ST.mode := by
  unfold State.chCommand
  dsimp only
  rw [if_neg (class_not_refused hk), if_pos hs]

theorem chCommand_fault (hs : s.seq.st = .up) (hf : Nat.testBit (s.fld F.SEQ_CH_FAILED.FAILED) n = true) :
    s.chCommand n true = (s.setFld F.SEQ_CH_CMD.CH n).endChCmd ST.fault := by
  unfold State.chCommand
  dsimp only
  rw [if_neg (class_not_refused hk), if_neg (not_not_intro hs), if_pos ⟨rfl, hf⟩]

theorem chCommand_on (hs : s.seq.st = .up) (hf : Nat.testBit (s.fld F.SEQ_CH_FAILED.FAILED) n = false) (ho : s.chOn n = true) :
    s.chCommand n true = (s.setFld F.SEQ_CH_CMD.CH n).endChCmd ST.ok := by
  unfold State.chCommand
  dsimp only
  rw [if_neg (class_not_refused hk), if_neg (not_not_intro hs), if_neg (by rw [hf]; decide), if_pos rfl, if_pos ho]

theorem chCommand_off (hs : s.seq.st = .up) (ho : s.chOn n = false) :
    s.chCommand n false = (s.setFld F.SEQ_CH_CMD.CH n).endChCmd ST.ok := by
  unfold State.chCommand
  dsimp only
  rw [if_neg (class_not_refused hk), if_neg (not_not_intro hs), if_neg (by simp), if_neg (by decide), if_neg (by rw [ho]; decide)]

omit hk

/-- SEQ_CH_CMD is busy with the channel. -/
def State.chBusy (s : State) (n : Nat) (on : Bool) : State :=
  ((s.setFld F.SEQ_CH_CMD.CH n).updSeq (fun q => { q with chCmd := some (n, on) })).setFld F.SEQ_CH_CMD.BUSY 1

theorem chBusy_only (s : State) (n : Nat) (on : Bool) : OnlyParts [.seq, .regs] s (s.chBusy n on) :=
  ((State.setFld_only _ _ _ (by decide)).comp ((State.updSeq_only _ _).comp (State.setFld_only _ _ _ (by decide)))).mono (by decide)

theorem chBusy_raw_ne {a : Nat} (s : State) (n : Nat) (on : Bool) (h : a ≠ Addr.SEQ_CH_CMD) : (s.chBusy n on).raw a = s.raw a :=
  (State.raw_setFld_ne _ _ _ h).trans ((raw_updSeq _ _ a).trans (State.raw_setFld_ne _ _ _ h))

theorem chBusy_seq (s : State) (n : Nat) (on : Bool) : (s.chBusy n on).seq = { s.seq with chCmd := some (n, on) } := rfl

theorem chBusy_busy (s : State) (n : Nat) (on : Bool) : (s.chBusy n on).fld F.SEQ_CH_CMD.BUSY = 1 :=
  State.fld_setFld_self _ _ _ (by decide)

include hk

theorem chCommand_raises (hs : s.seq.st = .up) (hf : Nat.testBit (s.fld F.SEQ_CH_FAILED.FAILED) n = false) (ho : s.chOn n = false) :
    s.chCommand n true = (s.chBusy n true).raiseChans [n] := by
  unfold State.chCommand
  dsimp only
  rw [if_neg (class_not_refused hk), if_neg (not_not_intro hs), if_neg (by rw [hf]; decide), if_pos rfl, if_neg (by rw [ho]; decide)]
  rfl

theorem chCommand_lowers (hs : s.seq.st = .up) (ho : s.chOn n = true) :
    s.chCommand n false = (s.chBusy n false).chSwitchOff n := by
  unfold State.chCommand
  dsimp only
  rw [if_neg (class_not_refused hk), if_neg (not_not_intro hs), if_neg (by simp), if_neg (by decide), if_pos ho]
  rfl

end Commands
end Sys2Proof.Machine
end

section
/-! SUPPORT. Switching a channel on and off by command, and a NAND group that leaves service. -/

namespace Sys2Proof.Machine

section Groups
variable {s : State} {n k c : Nat} {gone : List Nat}

theorem zoneStep_nandOut (s : State) (cause : Nat) : (s.zoneStep cause).dst.nandOut = s.dst.nandOut := by
  unfold State.zoneStep
  dsimp only
  split
  · rfl
  · split
    · rw [State.recState_dst]
    · split
      · split
        · split
          · rw [State.bump_dst]
          · rw [State.recState_dst, State.bump_dst]
        · rw [State.recState_dst, State.bump_dst]
      · rw [State.recordFull_dst, State.bump_dst]

/-- The channels have left service, and the terms of the ceiling follow. -/
def State.nandTaken (s : State) (gone : List Nat) : State :=
  let new := gone.filter (fun c => !s.dst.nandOut.contains c)
  let left := s.dst.channels - new.length
  let s1 := s.updDst (fun d => { d with nandOut := d.nandOut ++ new, channels := left, saveErased := d.saveErased * left / max 1 d.channels })
  s1.updDst (fun d => s1.ceilingTerms d.hupCode)

theorem nandOff_eq (s : State) (gone : List Nat) : s.nandOff gone = ((s.nandTaken gone).zoneStep 1).drawFree := rfl

theorem nandTaken_only (s : State) (gone : List Nat) : OnlyParts [.dst] s (s.nandTaken gone) := (s.updDst_only _).trans (State.updDst_only _ _)

theorem nandTaken_nandOut (s : State) (gone : List Nat) :
    (s.nandTaken gone).dst.nandOut = s.dst.nandOut ++ gone.filter (fun c => !s.dst.nandOut.contains c) := rfl

theorem nandOff_only (s : State) (gone : List Nat) : OnlyParts [.dst, .draws, .regs, .records] s (s.nandOff gone) := by
  rw [nandOff_eq]
  exact ((nandTaken_only s gone).comp ((State.zoneStep_only _ 1).comp (State.drawFree_only _))).mono (by decide)

theorem nandOff_raw_ne {a : Nat} (s : State) (gone : List Nat) (ha : a ≠ Addr.DST_CNT0) : (s.nandOff gone).raw a = s.raw a := by
  rw [nandOff_eq, (State.drawFree_only _).raw (by decide) (by decide), State.zoneStep_raw_ne _ _ ha,
    (nandTaken_only s gone).raw (by decide) (by decide)]

theorem mem_nandOff (s : State) (h : c ∈ gone) : c ∈ (s.nandOff gone).dst.nandOut := by
  rw [nandOff_eq, State.drawFree_only _ .dst (by decide), zoneStep_nandOut, nandTaken_nandOut, List.mem_append, List.mem_filter]
  by_cases hc : c ∈ s.dst.nandOut
  · exact .inl hc
  · exact .inr ⟨h, by simpa using hc⟩

theorem mem_nandGroupLost (s : State) (k : Nat) : ∀ j < 4, j + 4 * k ∈ (s.nandGroupLost k).dst.nandOut :=
  fun _ hj => mem_nandOff s (List.mem_map_of_mem (List.mem_range.mpr hj))

/-- A group that is switched off leaves service. -/
def State.groupOff (s : State) (n : Nat) : State := (s.lowerChans [n]).nandGroupLost (n - 6)

theorem lowerChans_only (s : State) (l : List Nat) : OnlyParts [.seq] s (s.lowerChans l) := by
  rw [lowerChans_eq]
  exact s.updSeq_only _

theorem groupOff_only (s : State) (n : Nat) : OnlyParts [.seq, .dst, .draws, .regs, .records] s (s.groupOff n) :=
  ((lowerChans_only s [n]).comp (nandOff_only _ _)).mono (by decide)

theorem groupOff_raw_ne {a : Nat} (s : State) (n : Nat) (ha : a ≠ Addr.DST_CNT0) : (s.groupOff n).raw a = s.raw a := by
  rw [State.groupOff, State.nandGroupLost, nandOff_raw_ne _ _ ha, (lowerChans_only s [n]).raw (by decide) (by decide)]

theorem groupOff_seq (s : State) (n : Nat) : (s.groupOff n).seq = { s.seq with en := withoutBits s.seq.en [n] } := by
  rw [State.groupOff, State.nandGroupLost, nandOff_only _ _ .seq (by decide), lowerChans_eq]
  rfl

theorem groupOff_chOn (s : State) (hn : n < 32) : (s.groupOff n).chOn n = false := by
  rw [State.chOn, groupOff_seq]
  exact (withoutBits_getLsbD hn).trans (by simp)

end Groups

section Switched
variable {s : State} {n : Nat}

/-- A switch is raised by command. -/
theorem chBusy_raises_effect (s : State) (hn : n < 32) :
    let t := (s.chBusy n true).raiseChans [n]
    OnlyParts [.seq, .regs] s t ∧ RegsBut [Addr.SEQ_CH_CMD] s t ∧ OnlyChannels s t ∧ t.chOn n = true ∧ t.seq.chCmd = some (n, true) ∧
    t.fld F.SEQ_CH_CMD.BUSY = 1 := by
  dsimp only
  rw [raiseChans_eq]
  refine ⟨((chBusy_only s n true).comp (State.updSeq_only _ _)).mono (by decide), fun a ha _ => ?_, ?_, ?_, ?_, ?_⟩
  · rw [raw_updSeq, chBusy_raw_ne _ _ _ (by simpa using ha)]
  · unfold OnlyChannels
    rw [State.updSeq_seq, chBusy_seq]
  · unfold State.chOn
    rw [State.updSeq_seq]
    exact (withBits_getLsbD hn).trans (by simp)
  · rw [State.updSeq_seq, chBusy_seq]
  · rw [State.fld_of_raw (raw_updSeq _ _ _)]
    exact chBusy_busy s n true

theorem chSwitchOff_group (h : s.chClass n = 1) : s.chSwitchOff n = s.groupOff n := by
  unfold State.chSwitchOff
  rw [h]
  rfl

/-- The switch of a NAND group is lowered by command. -/
theorem chBusy_lowers_effect (h : s.chClass n = 1) (hn : n < 32) :
    let t := (s.chBusy n false).chSwitchOff n
    OnlyParts [.seq, .dst, .draws, .regs, .records] s t ∧ RegsBut [Addr.SEQ_CH_CMD, Addr.DST_CNT0] s t ∧ OnlyChannels s t ∧ t.chOn n = false ∧
    t.seq.chCmd = some (n, false) ∧ t.fld F.SEQ_CH_CMD.BUSY = 1 ∧ ∀ j < 4, j + 4 * (n - 6) ∈ t.dst.nandOut := by
  dsimp only
  have hcfg : Addr.SEQ_CH_CFG n ≠ Addr.SEQ_CH_CMD := (windowOf_chCfg hn).2
  have hk : (s.chBusy n false).chClass n = 1 := by
    rw [← h, State.chClass, State.chClass, State.fld_of_raw (f := F.SEQ_CH_CFG.CLASS n) (chBusy_raw_ne s n false hcfg)]
  rw [chSwitchOff_group hk]
  refine ⟨((chBusy_only s n false).comp (groupOff_only _ n)).mono (by decide), fun a ha _ => ?_, ?_, groupOff_chOn _ hn, ?_, ?_, ?_⟩
  · obtain ⟨h1, h2⟩ : a ≠ Addr.SEQ_CH_CMD ∧ a ≠ Addr.DST_CNT0 := by simpa using ha
    rw [groupOff_raw_ne _ _ h2, chBusy_raw_ne _ _ _ h1]
  · unfold OnlyChannels
    rw [groupOff_seq, chBusy_seq]
  · rw [groupOff_seq, chBusy_seq]
  · rw [State.fld_of_raw (groupOff_raw_ne _ _ (by decide))]
    exact chBusy_busy s n false
  · exact mem_nandGroupLost _ _

end Switched

section Ups
variable {s : State} {f : Fld}

/-- A flag with its record is set, and no other register differs. -/
theorem recFlag_raw (s : State) (sev : Nat) (i : Island) (f : Fld) (obj a : Nat) : (s.recFlag sev i f obj).raw a = (s.flag f).raw a :=
  State.raw_congr (State.record_regs _ _ _ _ _ _ _) a

theorem recFlag_set (s : State) (sev : Nat) (i : Island) (obj : Nat) (hw : f.width = 1) (hl : f.lsb + f.width ≤ 64) :
    (s.recFlag sev i f obj).fld f = 1 := by
  rw [State.fld_of_raw (recFlag_raw s sev i f obj _), State.flag, State.fld_setFld_self _ _ _ hl, hw]
  rfl

theorem recFlag_regsBut (s : State) (sev : Nat) (i : Island) (f : Fld) (obj : Nat) : RegsBut [f.addr] s (s.recFlag sev i f obj) :=
  fun a ha _ => (recFlag_raw s sev i f obj a).trans (State.raw_setFld_ne _ _ _ (by simpa using ha))

/-- The fault line is seen low. -/
theorem fltSeen_effect (s : State) :
    let t := (s.updSeq (fun q => { q with fltHigh := false })).recFlag sevNotice .aon F.SEQ_STATUS.FLT_SEEN 0
    OnlyParts [.seq, .regs, .records] s t ∧ RegsBut [Addr.SEQ_STATUS] s t ∧ t.fld F.SEQ_STATUS.FLT_SEEN = 1 ∧
    t.seq = { s.seq with fltHigh := false } :=
  ⟨((s.updSeq_only _).comp (State.recFlag_only _ _ _ _ _ (by decide))).mono (by decide),
    fun a ha hp => (recFlag_regsBut _ _ _ _ _ a ha hp).trans (raw_updSeq s _ a), recFlag_set _ _ _ _ rfl (by decide), State.recFlag_seq _ _ _ _ _⟩

/-- A channel that only waits to be discharged. -/
theorem setGood_effect {n : Nat} (s : State) (hn : n < 32) : OnlyChannels s (s.setGood n false) ∧ (s.setGood n false).chGood n = false ∧
    (s.setGood n false).seq.finished = s.seq.finished ∧ (s.setGood n false).seq.chCmd = s.seq.chCmd :=
  ⟨rfl, chGood_setGood_self s false hn, rfl, rfl⟩

/-- The running step is good: the next one, or UP. -/
theorem stepUp_effect (hk : s.seq.step ≠ 1) (hc : s.seq.step = 0 ∨ s.run .cal ≠ .inReset) (ho : s.seq.offPending = false)
    (hs : s.seq.st = .rampUp) :
    OnlyParts [.seq] s s.stepUp ∧ s.stepUp.seq.good = withBits s.seq.good (s.stepChans s.seq.step) ∧ s.stepUp.seq.en = s.seq.en ∧
    (∀ j, s.nextStep s.seq.step = some j → s.stepUp.seq.st = .rampUp ∧ s.stepUp.seq.step = j ∧
      s.stepUp.seq.cascOut = (s.seq.cascOut || decide (s.fld F.SEQ_CASC.RELEASE_STEP < j))) ∧
    (s.nextStep s.seq.step = none → s.stepUp.seq.st = .up ∧ s.stepUp.seq.bootPhase = 4 ∧ s.stepUp.seq.cascOut = true ∧
      s.stepUp.seq.released = true) := by
  cases hj : s.nextStep s.seq.step with
  | some j =>
    rw [stepUp_next hk hc ho hj]
    refine ⟨s.updSeq_only _, rfl, rfl, fun i hi => ?_, nofun⟩
    obtain rfl := Option.some.inj hi
    exact ⟨hs, rfl, rfl⟩
  | none =>
    rw [stepUp_last hk hc ho hj]
    exact ⟨s.updSeq_only _, rfl, rfl, nofun, fun _ => ⟨rfl, rfl, rfl, rfl⟩⟩

end Ups

section Given
variable {s : State}

/-- A step that changes the sequencer alone. -/
theorem gives_updSeq {c : Instr} {f : SeqState → SeqState} (he : exec c s = .next (s.updSeq f)) :
    Gives c s (fun t => OnlyParts [.seq] s t ∧ t.seq = f s.seq) := ⟨_, he, s.updSeq_only f, rfl⟩

theorem aonStarts (hl : s.isl.length = 15) (h : s.run .aon = .inReset) :
    Gives .aonResetRelease s (fun t => OnlyParts [.islands] s t ∧ t.run .aon = .running ∧ ∀ i, i ≠ .aon → t.run i = s.run i) :=
  ⟨_, exec_aonResetRelease h, s.setRun_only _ _, run_setRun_self hl, fun _ hi => run_setRun_ne hi⟩

theorem clockResyncs {i : Island} (ha : s.running .aon = true) (hi : s.running i = true) (hc : s.clocks.length = 15) :
    Gives (.timeBaseResync i) s (fun t => OnlyParts [.clocks] s t ∧ t.clocks[i.code]? = some s.time ∧
      ∀ j, j ≠ i.code → t.clocks[j]? = s.clocks[j]?) :=
  ⟨_, exec_timeBaseResync ha hi, clocks_only s _, List.getElem?_set_self (by rw [hc]; exact Island.code_lt i),
    fun _ hj => List.getElem?_set_ne (Ne.symm hj)⟩

end Given
end Sys2Proof.Machine
end

section
/-! PROOF. Channels, steps and the cascade. -/

open Sys2Proof Sys2Proof.Machine

/-- Settles O44: every command of the sequencer by the branch that its conditions choose; what a branch leaves unchanged comes from the
frame of the operations it is made of, going down and coming up from the channel bits of the running step. -/
theorem channelsAreSequencedStepByStep : Obligations.ChannelsAreSequencedStepByStep := by
  unfold Obligations.ChannelsAreSequencedStepByStep
  refine ⟨fun s hl => ⟨aonStarts hl, fun i => clockResyncs⟩, fun s hr => ?_⟩
  dsimp only
  refine ⟨fun path => ⟨?on_off, ?on_down, ?on_up⟩, ?deb_plain, ?deb_on, fun path => ⟨?off_refused, fun hm => ⟨?off_wait, ?off_down, ?off_saves⟩⟩,
    fun pulses hs => ⟨?rel_good, ?rel_bad⟩, ?flt_high, ?flt_seen, ?flt_wait, fun hd => ⟨?fr_released, ?fr_latched⟩,
    fun hc => ⟨?fall_before, ?fall_after⟩, fun hs ho => ⟨?delay, ?good_step⟩, ?good_cmd, fun ch => ?channels⟩
  case on_off =>
    rintro hs ⟨hf, hd, ht⟩
    exact gives_updSeq ((exec_on hr path).trans (congrArg _ (onRequest_off hs hf hd ht)))
  case on_down =>
    intro hs ht
    exact gives_updSeq ((exec_on hr path).trans (congrArg _ (onRequest_rampDown hs ht)))
  case on_up =>
    intro hs
    exact ⟨s, (exec_on hr path).trans (congrArg _ (onRequest_up hs)), rfl⟩
  case deb_plain =>
    intro ha
    exact gives_updSeq ((exec_pfailDebounce hr).trans (congrArg _ (if_neg (Bool.eq_false_iff.mp ha))))
  case deb_on =>
    rintro ha hs ⟨hf, hd, ht⟩
    exact ⟨_, (exec_pfailDebounce hr).trans (congrArg _ ((if_pos ha).trans (onRequest_off (s := s.updSeq _) hs hf hd ht))),
      (s.updSeq_only _).trans (State.updSeq_only _ _), rfl⟩
  case off_refused =>
    intro hc hh
    exact ⟨_, exec_off_refused hr path hc hh, State.record_only _ _ _ _ _ _ _⟩
  case off_wait =>
    intro hs
    exact gives_updSeq ((exec_off hr path hm).trans (congrArg _ (offCommand_cascWait hs)))
  case off_down =>
    intro k hs hf hn hb
    have hw := startDown_wentDown (timeout := false) (latch := false) hb (.inr (by rw [hf]; rfl))
    rw [hf, Bool.or_false, Bool.or_false] at hw
    exact ⟨_, (exec_off hr path hm).trans (congrArg _ (offCommand_down hs ((hasToSave_iff s).mpr hn))), hw⟩
  case off_saves =>
    intro hs hn ht hu
    have hsave : s.hasToSave = true := Bool.not_eq_false _ ▸ mt (hasToSave_iff s).mp hn
    exact ⟨_, exec_off hr path hm, offCommand_saves_effect hs hsave ht hu⟩
  case rel_good =>
    intro hp
    exact ⟨_, (exec_cascRelease hr hs pulses).trans (congrArg _ (decodePosition_good hp)),
      ((s.updSeq_only _).comp (boot_only _ _)).mono (by decide), rfl, rfl⟩
  case rel_bad =>
    intro hp he
    exact ⟨_, exec_cascRelease hr hs pulses, decodePosition_refused hp he⟩
  case flt_high => exact gives_updSeq (exec_cascFltN_high hr)
  case flt_seen => exact fun hs => ⟨_, exec_cascFltN_seen hr hs, fltSeen_effect s⟩
  case flt_wait =>
    intro hs
    exact ⟨_, exec_cascFltN_waiting hr hs, ((s.updSeq_only _).trans (settleRst_only _ _)), rfl⟩
  case fr_released => exact fun hs => gives_updSeq ((exec_cascFltRelease hr hd).trans (congrArg _ (bypass_released hs)))
  case fr_latched => exact fun hs => gives_updSeq ((exec_cascFltRelease hr hd).trans (congrArg _ (bypass_latched hs)))
  case fall_before =>
    intro hrel
    exact gives_updSeq ((exec_cascInFall hr hc).trans (congrArg _ (if_neg (Bool.eq_false_iff.mp hrel))))
  case fall_after =>
    intro hrel
    refine ⟨_, (exec_cascInFall hr hc).trans (congrArg _ (if_pos hrel)), (s.updSeq_only _).comp (State.record_only _ _ _ _ _ _ _), ?_⟩
    rw [State.record_seq]
    rfl
  case delay =>
    intro hn
    exact ⟨_, exec_onDelay hr hs ho hn, raiseStep_effect s _⟩
  case good_step =>
    intro hall hk hc
    obtain ⟨hp, hg, hen, hnext, hlast⟩ := stepUp_effect hk hc ho hs
    refine ⟨_, exec_stepGood_step hr hs hall, hp.trans (settleRst_only s _), fun n hn => ?_, ?_⟩
    · rw [settleRst_chGood, chGood_withBits hg hn]
    · rw [settleRst_en, settleRst_st, settleRst_step, settleRst_cascOut, settleRst_bootPhase, settleRst_released]
      exact ⟨hen, hnext, hlast⟩
  case good_cmd =>
    intro n hs hc ho hn
    obtain ⟨hp, hregs, hch, hg, hcmd, hb, hst⟩ := stepGood_cmd_effect s hn
    refine ⟨_, exec_stepGood_cmd hr hs hc ho, (hp.comp (settleRst_only s _)).mono (by decide), hregs.trans (.of_raw (settleRst_raw s _)),
      hch.settled, ?_⟩
    rw [settleRst_chGood, settleRst_chCmd, settleRst_fld, settleRst_fld]
    exact ⟨hg, hcmd, hb, hst⟩
  case channels =>
    have hn : ch.toNat < 32 := ch.isLt
    refine ⟨?pg_step, ?pg_cmd, fun hf hs hp => ⟨?mode1, ?mode2, ?discharged, ?waits, ?stuck⟩, ?down, fun hc path => ⟨?rights, fun hk => ⟨?mode,
      fun hs => ⟨?failed, ?off_ok, ?on_ok, ?raises, ?lowers⟩⟩⟩⟩
    case pg_step =>
      intro k hs ho hg hstep hb hk
      refine ⟨_, exec_pgTimeout_step hr hs ho hg hstep, ?_⟩
      dsimp only
      rw [settleRst_fltDrive, settleRst_nextFault]
      exact failurePath_effect hb hk ch.toNat 1
    case pg_cmd =>
      intro hs hc hg hp
      exact ⟨_, exec_pgTimeout_cmd hr hs hc hg, chCmdFails_effect hp hn 1⟩
    case mode1 =>
      intro h
      refine ⟨_, exec_offTimeout hr hf (fun h => absurd (hs.symm.trans h) (by decide)), ?_⟩
      rw [timeoutCh_mode1 h]
      exact (finishCh_finished hs hp hn).settled
    case mode2 =>
      intro h
      obtain ⟨hfin, hrise⟩ := timeoutCh_mode2_effect hs hp hn h
      exact ⟨_, exec_offTimeout hr hf (fun h => absurd (hs.symm.trans h) (by decide)), hfin.settled, hrise.after (settleRst_raw s _ _)⟩
    case discharged =>
      intro h
      exact ⟨_, (exec_channelDischarged hr hf hs).trans (by rw [if_neg h]), (finishCh_finished hs hp hn).settled⟩
    case waits =>
      intro h
      obtain ⟨hch, hg, hfin, hcmd⟩ := setGood_effect s hn
      exact ⟨_, (exec_channelDischarged hr hf hs).trans (congrArg (Host.Outcome.next ∘ State.settleRst s) (if_pos h)), (s.updSeq_only _).trans (settleRst_only s _), hch.settled, by
        rw [settleRst_chGood, settleRst_finished, settleRst_chCmd]
        exact ⟨hg, hfin, hcmd⟩⟩
    case stuck => exact fun h => ⟨_, exec_stuck hr hf hs h, stuck_effect s _ _ _⟩
    case down =>
      intro hf hs ht hc hw
      obtain ⟨hp, hoff⟩ := finishCh_down_effect hs hc hn
      refine ⟨_, exec_offTimeout hr hf fun _ => hw, ?_⟩
      rw [timeoutCh_down hs ht]
      exact ⟨(hp.comp (settleRst_only s _)).mono (by decide), hoff⟩
    case rights =>
      exact fun h => ⟨⟨_, (exec_channelOn hr hc).trans (congrArg _ (chCommand_rights h true)), chAnswered s hn _⟩,
        ⟨_, (exec_channelOff hr hc).trans (by rw [chCommand_rights h]), (chAnswered s hn _).settled⟩⟩
    case mode =>
      exact fun hs => ⟨⟨_, (exec_channelOn hr hc).trans (congrArg _ (chCommand_mode hk hs true)), chAnswered s hn _⟩,
        ⟨_, (exec_channelOff hr hc).trans (by rw [chCommand_mode hk hs]), (chAnswered s hn _).settled⟩⟩
    case failed => exact fun h => ⟨_, (exec_channelOn hr hc).trans (congrArg _ (chCommand_fault hk hs h)), chAnswered s hn _⟩
    case off_ok => exact fun h => ⟨_, (exec_channelOff hr hc).trans (by rw [chCommand_off hk hs h]), (chAnswered s hn _).settled⟩
    case on_ok => exact fun hf ho => ⟨_, (exec_channelOn hr hc).trans (congrArg _ (chCommand_on hk hs hf ho)), chAnswered s hn _⟩
    case raises =>
      exact fun hf ho => ⟨_, (exec_channelOn hr hc).trans (congrArg _ (chCommand_raises hk hs hf ho)), chBusy_raises_effect s hn⟩
    case lowers =>
      intro h ho
      obtain ⟨hp, hregs, hch, hon, hcmd, hb, hout⟩ := chBusy_lowers_effect h hn
      refine ⟨_, (exec_channelOff hr hc).trans (by rw [chCommand_lowers hk hs ho]), (hp.comp (settleRst_only s _)).mono (by decide),
        hregs.trans (.of_raw (settleRst_raw s _)), hch.settled, ?_⟩
      rw [settleRst_chOn, settleRst_chCmd, settleRst_fld, settleRst_only s _ .dst (by decide)]
      exact ⟨hon, hcmd, hb, hout⟩
end

section
/-! SUPPORT. An accepted power failure in UP, and the links that drop with the reference clock. -/

namespace Sys2Proof.Machine

section Hold
variable {s t u : State} {a : Nat} {rs : List Nat} {i : Island}

/-- SAVE_HOLD begins, the reset outputs aside. -/
def State.saveHeld (s : State) : State :=
  ((s.updDst (fun d => { d with testCut := d.testCut || d.testing })).cutTest.abortChCmd).updSeq (fun q => { q with st := .saveHold })

theorem holdEntry_eq (s : State) : s.holdEntry = s.saveHeld.assertEvent F.SEQ_RST.ON_SAVE := rfl

theorem holdEntry_only (s : State) : OnlyParts [.dst, .seq, .regs] s s.holdEntry :=
  ((s.updDst_only _).comp ((cutAbort_only _).comp ((State.updSeq_only _ _).comp (State.updSeq_only _ _)))).mono (by decide)

theorem holdEntry_raw_ne (s : State) (ht : a ≠ Addr.DST_HUP_CTL) (hc : a ≠ Addr.SEQ_CH_CMD) : s.holdEntry.raw a = s.raw a := by
  rw [holdEntry_eq, State.assertEvent, raw_updSeq, State.saveHeld, raw_updSeq, abortChCmd_raw_ne _ hc, cutTest_raw_ne _ ht]
  exact (s.updDst_only _).raw (by decide) (by decide) a

theorem holdEntry_seq (s : State) : ∃ rst, s.holdEntry.seq = { s.seq with hupTestEn := false, chCmd := none, st := .saveHold, rst := rst } := by
  rw [holdEntry_eq, State.assertEvent, State.updSeq_seq, State.saveHeld, State.updSeq_seq, abortChCmd_seq, cutTest_seq]
  exact ⟨_, rfl⟩

theorem holdEntry_dst (s : State) : s.holdEntry.dst = { s.dst with testCut := s.dst.testCut || s.dst.testing, testing := false } := by
  have h : OnlyParts [.seq, .regs] (s.updDst (fun d => { d with testCut := d.testCut || d.testing })).cutTest s.holdEntry :=
    ((abortChCmd_only _).comp ((State.updSeq_only _ _).comp (State.updSeq_only _ _))).mono (by decide)
  rw [h .dst (by decide), cutTest_dst]
  rfl

/-! ### The flash -/

theorem yieldErase_only (s : State) (b : Nat) : OnlyParts [.cfl, .regs] s (s.yieldErase b) := by
  unfold State.yieldErase
  split
  · split
    · exact ((State.updBank_only _ _ _).comp ((State.updSector_only _ _ _).comp (State.bump_only _ _ (by decide)))).mono (by decide)
    · exact OnlyParts.refl s _
  · exact OnlyParts.refl s _

theorem yieldErase_raw_ne (s : State) (b : Nat) (h : a ≠ Addr.CFL_CNT1) : (s.yieldErase b).raw a = s.raw a := by
  unfold State.yieldErase
  split
  · split
    · rw [State.bump, State.raw_bumpBy_ne _ _ _ h, (State.updSector_only _ _ _).raw (by decide) (by decide),
        (State.updBank_only _ _ _).raw (by decide) (by decide)]
    · rfl
  · rfl

theorem startFlush_only (s : State) (urgent : Bool) : OnlyParts [.contrail] s (s.startFlush urgent) := by
  unfold State.startFlush
  split
  · exact OnlyParts.refl s _
  · exact s.updRec_only _

theorem flashForSave_only (s : State) : OnlyParts [.cfl, .contrail, .regs] s s.flashForSave :=
  (((yieldErase_only s 0).comp ((yieldErase_only _ 1).comp ((State.updCfl_only _ _).comp (startFlush_only _ true))))).mono (by decide)

theorem flashForSave_raw_ne (s : State) (h : a ≠ Addr.CFL_CNT1) : s.flashForSave.raw a = s.raw a := by
  rw [State.flashForSave, (startFlush_only _ _).raw (by decide) (by decide), (State.updCfl_only _ _).raw (by decide) (by decide),
    yieldErase_raw_ne _ 1 h, yieldErase_raw_ne _ 0 h]

theorem flashForSave_stopped (s : State) : s.flashForSave.cfl.stopped = true := by
  rw [State.flashForSave, startFlush_only _ _ .cfl (by decide)]
  rfl

/-! ### The power failure -/

/-- UP with clocks running, as SAVE_HOLD begins. -/
def State.failHeld (s : State) : State := (s.wakeClocks.updMod (fun m => { m with frozen := false })).holdEntry

theorem powerFail_eq (hs : s.seq.st = .up) (hd : s.lps.deep = false) (hm : s.mod.mode ≠ .save) : s.powerFail = s.failHeld.enterSave.flashForSave := by
  unfold State.powerFail
  rw [hs]
  dsimp only
  rw [if_neg (by rw [hd]; decide)]
  cases h : s.mod.mode <;> first | exact absurd h hm | rfl

/-- What the obligation says of an intake stop, for a device that a save was not under way in. -/
def Saving (rs : List Nat) (s t : State) : Prop :=
  OnlyParts [.seq, .mod, .pe, .tir, .islands, .lps, .cfl, .contrail, .dst, .phl, .regs, .records] s t ∧
  RegsBut (Addr.DST_HUP_CTL :: Addr.SEQ_CH_CMD :: Addr.CFL_CNT1 :: rs) s t ∧ t.seq.st = .saveHold ∧ t.mod.mode = .save ∧
  t.mod.prev = s.mod.mode ∧ t.mod.intakeClosed = true ∧ t.pe = { s.pe with stopped := true } ∧ t.cfl.stopped = true ∧ t.dst.testing = false ∧
  t.seq.en = s.seq.en ∧ (∀ i ∈ [Island.ctl, .pe, .tir], t.run i = .inReset) ∧ (s.windowOpen = false → t.run .cal = .inReset) ∧
  t.tir = { s.tir with loansOut := [] } ∧ t.dst.testCut = (s.dst.testCut || s.dst.testing)

theorem failHeld_only (s : State) : OnlyParts [.islands, .lps, .mod, .dst, .seq, .regs] s s.failHeld :=
  ((wakeClocks_only s).comp ((State.updMod_only _ _).comp (holdEntry_only _))).mono (by decide)

theorem failHeld_raw_ne (s : State) (ht : a ≠ Addr.DST_HUP_CTL) (hc : a ≠ Addr.SEQ_CH_CMD) : s.failHeld.raw a = s.raw a := by
  rw [State.failHeld, holdEntry_raw_ne _ ht hc, (State.updMod_only _ _).raw (by decide) (by decide),
    (wakeClocks_only s).raw (by decide) (by decide)]

theorem failHeld_seq (s : State) : ∃ rst, s.failHeld.seq = { s.seq with hupTestEn := false, chCmd := none, st := .saveHold, rst := rst } := by
  obtain ⟨rst, h⟩ := holdEntry_seq (s.wakeClocks.updMod (fun m => { m with frozen := false }))
  exact ⟨rst, h.trans (by rw [State.updMod_seq, wakeClocks_only s .seq (by decide)])⟩

theorem failHeld_dst (s : State) : s.failHeld.dst = { s.dst with testCut := s.dst.testCut || s.dst.testing, testing := false } := by
  rw [State.failHeld, holdEntry_dst, State.updMod_dst, wakeClocks_only s .dst (by decide)]

theorem failHeld_mode (s : State) : s.failHeld.mod.mode = s.mod.mode := by
  rw [State.failHeld, holdEntry_only _ .mod (by decide), State.updMod_mod, wakeClocks_only s .mod (by decide)]

theorem failHeld_islands (s : State) : s.failHeld.isl = s.wakeClocks.isl := by
  rw [State.failHeld, holdEntry_only _ .islands (by decide), State.updMod_isl]

theorem failHeld_run (s : State) (i : Island) : s.failHeld.run i = s.wakeClocks.run i := by
  unfold State.run
  rw [failHeld_islands]

theorem failHeld_stops (s : State) : s.failHeld.saveStops = s.saveStops := by
  have h : s.failHeld.cal = s.cal := failHeld_only s .cal (by decide)
  unfold State.saveStops State.windowOpen
  rw [h]

/-- An accepted power failure in UP. -/
theorem powerFail_effect (hs : s.seq.st = .up) (hd : s.lps.deep = false) (hm : s.mod.mode ≠ .save) (hl : s.isl.length = 15) :
    Saving [] s s.powerFail ∧ s.powerFail.phl = s.phl ∧ s.powerFail.seq.pfailHigh = s.seq.pfailHigh := by
  have hflash := flashForSave_only s.failHeld.enterSave
  have hsave := enterSave_only s.failHeld
  have hheld := failHeld_only s
  have hall := hheld.comp (hsave.comp hflash)
  have hend : OnlyParts [.cfl, .contrail, .regs, .pe, .tir, .mod, .records, .islands] s.failHeld s.failHeld.enterSave.flashForSave :=
    (hsave.comp hflash).mono (by decide)
  obtain ⟨rst, hq⟩ := failHeld_seq s
  obtain ⟨hmode, hprev, hclosed, -⟩ := enterSave_mod s.failHeld
  have hlen : s.failHeld.isl.length = 15 := by rw [failHeld_islands, wakeClocks_length, hl]
  have hrun : ∀ i ∈ s.saveStops, s.failHeld.enterSave.flashForSave.run i = .inReset := fun i hi =>
    (hflash.run (by decide) i).trans (run_enterSave_in hlen (by rw [failHeld_stops]; exact hi))
  have hseq : s.failHeld.enterSave.flashForSave.seq = s.failHeld.seq := hend .seq (by decide)
  have hdst : s.failHeld.enterSave.flashForSave.dst = s.failHeld.dst := hend .dst (by decide)
  have hmod : s.failHeld.enterSave.flashForSave.mod = s.failHeld.enterSave.mod := hflash .mod (by decide)
  rw [powerFail_eq hs hd hm]
  refine ⟨⟨hall.mono (by decide), fun a ha _ => ?_, ?_, ?_, ?_, ?_, ?_, flashForSave_stopped _, ?_, ?_, fun i hi => hrun i ?_, fun hw => hrun .cal ?_, ?_, ?_⟩,
    hall .phl (by decide), ?_⟩
  · obtain ⟨h1, h2, h3⟩ : a ≠ Addr.DST_HUP_CTL ∧ a ≠ Addr.SEQ_CH_CMD ∧ a ≠ Addr.CFL_CNT1 := by simpa using ha
    rw [flashForSave_raw_ne _ h3, hsave.raw (by decide) (by decide), failHeld_raw_ne s h1 h2]
  · rw [hseq, hq]
  · rw [hmod, hmode]
  · rw [hmod, hprev, failHeld_mode]
  · rw [hmod, hclosed]
  · rw [hflash .pe (by decide), enterSave_pe, hheld .pe (by decide)]
  · rw [hdst, failHeld_dst]
  · rw [hseq, hq]
  · unfold State.saveStops
    split
    · exact hi
    · exact List.mem_append_left [.cal] hi
  · unfold State.saveStops
    rw [hw]
    decide
  · rw [hflash .tir (by decide), enterSave_tir, hheld .tir (by decide)]
  · rw [hdst, failHeld_dst]
  · rw [hseq, hq]

/-- The clock of an island that runs keeps running, where the save does not stop it. -/
theorem powerFail_running (hs : s.seq.st = .up) (hd : s.lps.deep = false) (hm : s.mod.mode ≠ .save) (hi : i ∉ s.saveStops)
    (hr : s.run i = .running) : s.powerFail.running i = true := by
  have hflash := flashForSave_only s.failHeld.enterSave
  obtain ⟨-, -, -, hfrozen⟩ := enterSave_mod s.failHeld
  have hmod : s.failHeld.enterSave.flashForSave.mod = s.failHeld.enterSave.mod := hflash .mod (by decide)
  rw [powerFail_eq hs hd hm, State.running, hmod, hfrozen, hflash.run (by decide), run_enterSave_out (by rw [failHeld_stops]; exact hi),
    failHeld_run, run_wakeClocks hr, Bool.not_false, Bool.or_true]
  rfl

/-- Told of from before the sequencer and other registers changed. -/
theorem Saving.before (h : Saving [] u t) (ho : OnlyParts [.seq, .regs] s u) (hr : RegsBut rs s u) (he : u.seq.en = s.seq.en) :
    Saving rs s t := by
  obtain ⟨hp, hregs, hst, hmode, hprev, hclosed, hpe, hcfl, htest, hen, hrun, hcal, htir, hcut⟩ := h
  have hw : u.windowOpen = s.windowOpen := by rw [State.windowOpen, State.windowOpen, ho .cal (by decide)]
  refine ⟨(ho.comp hp).mono (by decide), fun a ha hpm => ?_, hst, hmode, ?_, hclosed, ?_, hcfl, htest, hen.trans he, hrun, ?_, ?_, ?_⟩
  · obtain ⟨h1, h2, h3, h4⟩ : a ≠ Addr.DST_HUP_CTL ∧ a ≠ Addr.SEQ_CH_CMD ∧ a ≠ Addr.CFL_CNT1 ∧ a ∉ rs := by simpa using ha
    exact (hregs a (by simp [h1, h2, h3]) hpm).trans (hr a h4 hpm)
  · rw [hprev, ho .mod (by decide)]
  · rw [hpe, ho .pe (by decide)]
  · rw [← hw]; exact hcal
  · rw [htir, ho .tir (by decide)]
  · rw [hcut, ho .dst (by decide)]

/-- Records are made, the reset outputs follow, and Parhelion's ports change. -/
theorem Saving.after (h : Saving rs s t) (ho : OnlyParts [.seq, .records, .phl] t u) (hq : ∃ rst, u.seq = { t.seq with rst := rst }) :
    Saving rs s u := by
  obtain ⟨hp, hregs, hst, hmode, hprev, hclosed, hpe, hcfl, htest, hen, hrun, hcal, htir, hcut⟩ := h
  obtain ⟨rst, hq⟩ := hq
  refine ⟨(hp.comp ho).mono (by decide), fun a ha hpm => (ho.raw (by decide) (by decide) a).trans (hregs a ha hpm), ?_, ?_, ?_, ?_, ?_, ?_, ?_, ?_, fun i hi => ?_,
    fun hw => ?_, ?_, ?_⟩
  · rw [hq, ← hst]
  · rw [ho .mod (by decide), hmode]
  · rw [ho .mod (by decide), hprev]
  · rw [ho .mod (by decide), hclosed]
  · rw [ho .pe (by decide), hpe]
  · rw [ho .cfl (by decide), hcfl]
  · rw [ho .dst (by decide), htest]
  · rw [hq, ← hen]
  · rw [ho.run (by decide), hrun i hi]
  · rw [ho.run (by decide), hcal hw]
  · rw [ho .tir (by decide), htir]
  · rw [ho .dst (by decide), hcut]

end Hold
end Sys2Proof.Machine
end

section
/-! SUPPORT. The SerDes links drop: host, fabric and Parhelion. -/

namespace Sys2Proof.Machine

section Links
variable {s t : State} {p q : FabPort} {x y : Port} {n : Nat} {i : Island}

/-! ### Fabric paths -/

theorem path_setPath_self (s : State) (p : FabPort) (f : PathState → PathState) (hf : ∀ x, (f x).link = false) :
    ((s.setPath p f).path p).link = false := by
  unfold State.path State.setPath State.updFab
  rw [List.getD_eq_getElem?_getD, List.getElem?_set_self']
  cases s.fab.paths[p.idx]? with
  | none => rfl
  | some _ => exact hf _

theorem path_setPath_ne (s : State) (f : PathState → PathState) (h : q ≠ p) : (s.setPath p f).path q = s.path q := by
  have hne : p.idx ≠ q.idx := fun e => h (by cases p <;> cases q <;> first | rfl | exact absurd e (by decide))
  unfold State.path State.setPath State.updFab
  rw [List.getD_eq_getElem?_getD, List.getD_eq_getElem?_getD, List.getElem?_set_ne hne]

/-- A path that is down stays down, whatever else of the path changes. -/
theorem path_setPath_down (s : State) (p : FabPort) (f : PathState → PathState) (hf : ∀ x : PathState, x.link = false → (f x).link = false)
    (h : (s.path q).link = false) : ((s.setPath p f).path q).link = false := by
  by_cases hq : q = p
  · subst hq
    unfold State.path State.setPath State.updFab at *
    rw [List.getD_eq_getElem?_getD, List.getElem?_set_self']
    cases hx : s.fab.paths[q.idx]? with
    | none => rfl
    | some x => exact hf _ h
  · rw [path_setPath_ne s f hq, h]

theorem path_congr (h : t.fab.paths = s.fab.paths) (q : FabPort) : t.path q = s.path q := by
  unfold State.path
  rw [h]

theorem path_of_fab (h : t.fab = s.fab) (q : FabPort) : t.path q = s.path q := path_congr (by rw [h]) q

theorem resend_only (s : State) (n : Nat) (x : TxPkt) : OnlyParts [.out, .regs, .pmu] s (s.resend n x) := by
  unfold State.resend
  split
  · exact OnlyParts.refl s _
  next y _ =>
    have ho : OnlyParts [.out] s { s with out := s.out ++ s.copies y x.pkt } := by
      intro p hp; cases p <;> first
        | exact absurd (by decide) hp
        | rfl
        | exact fun a _ => State.raw_congr rfl a
        | exact fun a => State.byte_congr rfl rfl rfl rfl a
        | exact fun _ _ => rfl
        | exact fun _ => rfl
        | exact ⟨rfl, rfl, fun _ _ => rfl⟩
        | exact ⟨rfl, rfl⟩
    exact (ho.comp ((State.bump_only _ _ (by decide)).comp (State.countEvent_only _ _ _ _ _))).mono (by decide)

/-- What moving a pair's sessions changes; their paths are as they were. -/
def Moved (s t : State) : Prop := OnlyParts [.fab, .out, .regs, .pmu, .records] s t ∧ t.fab.paths = s.fab.paths

theorem Moved.refl (s : State) : Moved s s := ⟨OnlyParts.refl s _, rfl⟩

theorem Moved.trans {u : State} (h : Moved s t) (k : Moved t u) : Moved s u := ⟨h.1.trans k.1, k.2.trans h.2⟩

theorem Moved.of_only {l : List Part} (h : OnlyParts l s t) (hl : l ⊆ [.out, .regs, .pmu, .records]) : Moved s t :=
  ⟨(h.mono hl).mono (by decide), by rw [(h.mono hl) .fab (by decide)]⟩

theorem movePair_moved (s : State) (n : Nat) : Moved s (s.movePair n) := by
  refine foldl_keeps Moved Moved.refl Moved.trans _ s fun t e _ => ?_
  have hses : Moved t (t.updSes e.1 (fun x => { x with pairNow := 1 - n })) := ⟨(State.updSes_only _ _ _).mono (by decide), rfl⟩
  exact hses.trans (foldl_keeps Moved Moved.refl Moved.trans _ _ fun u x _ => .of_only (resend_only u e.1 x) (by decide))

theorem checkPair_moved (s : State) (was : Bool) (n : Nat) : Moved s (s.checkPair was n) := by
  unfold State.checkPair
  split
  · have hrec : ∀ (t : State) (sev obj : Nat) (f : Fld), Moved t (t.record sev .fab 2 f.lsb obj f.addr) :=
      fun t sev obj f => .of_only (State.record_only _ _ _ _ _ _ _) (by decide)
    dsimp only
    split
    · exact (hrec s _ _ _).trans (hrec _ _ _ _)
    · exact (hrec s _ _ _).trans (movePair_moved _ _)
  · exact Moved.refl s

/-- A path's state changes: what else does, and that a path that is down stays so. -/
def PathsFall (s t : State) : Prop :=
  OnlyParts [.fab, .out, .regs, .pmu, .records] s t ∧ ∀ q, (s.path q).link = false → (t.path q).link = false

theorem PathsFall.refl (s : State) : PathsFall s s := ⟨OnlyParts.refl s _, fun _ h => h⟩

theorem PathsFall.trans {u : State} (h : PathsFall s t) (k : PathsFall t u) : PathsFall s u := ⟨h.1.trans k.1, fun q hq => k.2 q (h.2 q hq)⟩

theorem Moved.pathsFall (h : Moved s t) : PathsFall s t := ⟨h.1, fun q hq => by rw [path_congr h.2, hq]⟩

theorem failPath_falls (s : State) (p : FabPort) (sev : Nat) : PathsFall s (s.failPath p (some sev)) := by
  have hset : PathsFall s (s.setPath p (fun x => { x with st := 2 })) :=
    ⟨(s.setPath_only _ _).mono (by decide), fun q hq => path_setPath_down s p _ (fun _ h => h) hq⟩
  have hb : ∀ t : State, Moved t (t.bump (F.FAB_PATH_STATUS.FAILURES p.idx)) := fun t =>
    .of_only (State.bump_only _ _ (by cases p <;> decide)) (by decide)
  have hr : ∀ t : State, Moved t (t.recState sev .fab (F.FAB_PATH_STATUS.STATE p.idx)) := fun t =>
    .of_only (State.recState_only _ _ _ _) (by decide)
  exact hset.trans (((hb _).trans ((hr _).trans (checkPair_moved _ _ _))).pathsFall)

theorem linkLost_falls (s : State) (p : FabPort) : PathsFall s (s.linkLost p) ∧ ((s.linkLost p).path p).link = false := by
  have hset : PathsFall s (s.setPath p (fun x => { x with link := false })) :=
    ⟨(s.setPath_only _ _).mono (by decide), fun q hq => path_setPath_down s p _ (fun _ _ => rfl) hq⟩
  have hdown : ((s.setPath p (fun x => { x with link := false })).path p).link = false := path_setPath_self s p _ (fun _ => rfl)
  unfold State.linkLost
  dsimp only
  split
  · have hf := failPath_falls (s.setPath p (fun x => { x with link := false })) p sevError
    exact ⟨hset.trans hf, hf.2 p hdown⟩
  · exact ⟨hset, hdown⟩

/-- The link of a path drops, where FAB runs and it is up. -/
def State.dropPath (s : State) (p : FabPort) : State := if s.running .fab && (s.path p).link then s.linkLost p else s

theorem dropPath_falls (s : State) (p : FabPort) : PathsFall s (s.dropPath p) := by
  unfold State.dropPath
  split
  · exact (linkLost_falls s p).1
  · exact PathsFall.refl s

theorem running_congr (hm : t.mod = s.mod) (hi : t.isl = s.isl) (i : Island) : t.running i = s.running i := by
  unfold State.running State.run
  rw [hm, hi]

theorem PathsFall.running (h : PathsFall s t) (i : Island) : t.running i = s.running i := running_congr (h.1 .mod (by decide)) (h.1 .islands (by decide)) i

theorem dropPath_down (s : State) (p : FabPort) (hr : s.running .fab = true) : ((s.dropPath p).path p).link = false := by
  unfold State.dropPath
  rw [hr, Bool.true_and]
  cases h : (s.path p).link with
  | true => exact (linkLost_falls s p).2
  | false => exact h

theorem dropPaths_falls (l : List FabPort) (s : State) : PathsFall s (l.foldl State.dropPath s) :=
  foldl_keeps PathsFall PathsFall.refl PathsFall.trans l s fun t p _ => dropPath_falls t p

theorem dropPaths_down (l : List FabPort) (s : State) (hr : s.running .fab = true) : ∀ p ∈ l, ((l.foldl State.dropPath s).path p).link = false := by
  induction l generalizing s with
  | nil => exact fun _ h => absurd h List.not_mem_nil
  | cons q r ih =>
    rintro p hp
    have hq : (s.dropPath q).running .fab = true := by rw [(dropPath_falls s q).running, hr]
    rw [List.foldl_cons]
    obtain rfl | hp := List.mem_cons.mp hp
    · exact (dropPaths_falls r _).2 p (dropPath_down s p hr)
    · exact ih _ hq p hp

theorem dropPath_idle (h : (s.path p).link = false) : s.dropPath p = s := if_neg (by rw [h, Bool.and_false]; decide)

theorem dropPaths_idle (l : List FabPort) (h : ∀ p, (s.path p).link = false) : l.foldl State.dropPath s = s := by
  induction l with
  | nil => rfl
  | cons p r ih => rw [List.foldl_cons, dropPath_idle (h p), ih]

/-! ### Host ports -/

theorem dropRequests_only (s : State) (x : Port) : OnlyParts [.hst] s (s.dropRequests x) := by
  intro p hp; cases p <;> first
    | exact absurd (by decide) hp
    | rfl
    | exact fun a _ => State.raw_congr rfl a
    | exact fun a => State.byte_congr rfl rfl rfl rfl a
    | exact fun _ _ => rfl
    | exact fun _ => rfl
    | exact ⟨rfl, rfl, fun _ _ => rfl⟩
    | exact ⟨rfl, rfl⟩

theorem dropRequests_port (s : State) (x y : Port) : (s.dropRequests x).port y = s.port y := by cases y <;> rfl

theorem port_setPort_self (s : State) (x : Port) (c : PortState) : (s.setPort x c).port x = c := by cases x <;> rfl

theorem port_setPort_ne (s : State) (c : PortState) (h : y ≠ x) : (s.setPort x c).port y = s.port y := by
  cases x <;> cases y <;> first | rfl | exact absurd rfl h

theorem linkDowned_regs_only (s : State) (x : Port) : OnlyParts [.regs, .records] (s.linkOff x) (s.linkDowned x) :=
  ((State.bump_only _ _ (by cases x <;> decide)).comp (State.recFlag_only _ _ _ _ _ (by cases x <;> decide))).mono (by decide)

theorem linkDowned_only (s : State) (x : Port) : OnlyParts [.hst, .regs, .records] s (s.linkDowned x) :=
  ((s.setPort_only _ _).comp ((dropRequests_only _ x).comp (linkDowned_regs_only s x))).mono (by decide)

theorem port_congr (h : t.hst = s.hst) (y : Port) : t.port y = s.port y := by
  unfold State.port
  rw [h]

theorem linkDowned_port (s : State) (x : Port) : ((s.linkDowned x).port x).link = 0 := by
  rw [port_congr (linkDowned_regs_only s x .hst (by decide)), State.linkOff, dropRequests_port, port_setPort_self]

theorem linkDowned_port_ne (s : State) (h : y ≠ x) : (s.linkDowned x).port y = s.port y := by
  rw [port_congr (linkDowned_regs_only s x .hst (by decide)), State.linkOff, dropRequests_port, port_setPort_ne _ _ h]

/-- The link of a host port drops, where HST runs and it is up. -/
def State.dropPort (s : State) (x : Port) : State := if s.running .hst && decide ((s.port x).link ≠ 0) then s.linkDowned x else s

theorem dropPort_only (s : State) (x : Port) : OnlyParts [.hst, .regs, .records] s (s.dropPort x) := by
  unfold State.dropPort
  split
  · exact linkDowned_only s x
  · exact OnlyParts.refl s _

theorem dropPort_running (s : State) (x : Port) (i : Island) : (s.dropPort x).running i = s.running i :=
  running_congr (dropPort_only s x .mod (by decide)) (dropPort_only s x .islands (by decide)) i

theorem dropPort_down (s : State) (x : Port) (hr : s.running .hst = true) : ((s.dropPort x).port x).link = 0 := by
  unfold State.dropPort
  rw [hr, Bool.true_and]
  split
  · exact linkDowned_port s x
  next h => simpa using h

theorem dropPort_port_ne (s : State) (h : y ≠ x) : (s.dropPort x).port y = s.port y := by
  unfold State.dropPort
  split
  · exact linkDowned_port_ne s h
  · rfl

theorem dropPort_idle (h : (s.port x).link = 0) : s.dropPort x = s := if_neg (by simp [h])

/-! ### All of them -/

/-- A Parhelion port after its link has dropped. -/
def PhState.downed (x : PhState) : PhState := { PhState.reset with failed := x.failed }

/-- Host and fabric links have dropped. -/
def State.linksDropped (s : State) : State := ([.fa0, .fb0, .fa1, .fb1] : List FabPort).foldl State.dropPath ((s.dropPort .hp0).dropPort .hp1)

theorem serdesDrop_eq (s : State) : s.serdesDrop = s.linksDropped.updPhl (fun x => { x with ph0 := x.ph0.downed, ph1 := x.ph1.downed }) := rfl

theorem linksDropped_only (s : State) : OnlyParts [.hst, .fab, .out, .regs, .pmu, .records] s s.linksDropped :=
  ((dropPort_only s .hp0).comp ((dropPort_only _ .hp1).comp (dropPaths_falls _ _).1)).mono (by decide)

theorem linksDropped_path (hr : s.running .fab = true) (p : FabPort) : (s.linksDropped.path p).link = false :=
  dropPaths_down _ _ (by rw [dropPort_running, dropPort_running, hr]) p (by cases p <;> decide)

theorem linksDropped_port (hr : s.running .hst = true) (x : Port) : (s.linksDropped.port x).link = 0 := by
  have h1 : (s.dropPort .hp0).running .hst = true := by rw [dropPort_running, hr]
  unfold State.linksDropped
  rw [port_congr ((dropPaths_falls _ _).1 .hst (by decide))]
  cases x with
  | hp0 => rw [dropPort_port_ne _ (by decide), dropPort_down s .hp0 hr]
  | hp1 => exact dropPort_down _ .hp1 h1

theorem linksDropped_idle (hh : ∀ x, (s.port x).link = 0) (hf : ∀ p, (s.path p).link = false) : s.linksDropped = s := by
  unfold State.linksDropped
  rw [dropPort_idle (hh .hp0), dropPort_idle (hh .hp1), dropPaths_idle _ hf]

/-- A change of the ports alone leaves every byte. -/
theorem updPhl_ports_only (s : State) (f g : PhState → PhState) :
    OnlyParts [.phl] s (s.updPhl (fun x => { x with ph0 := f x.ph0, ph1 := g x.ph1 })) :=
  OnlyParts.drop_bytes (s.updPhl_only _) fun _ => rfl

end Links
end Sys2Proof.Machine
end

section
/-! SUPPORT. PFAIL_N, the reference clock, and a rail that is lost in UP. -/

namespace Sys2Proof.Machine

section Pfail
variable {s t u : State} {n : Nat} {cycles : BitVec 16} {rs : List Nat}

theorem exec_pfailNAccept_glitch (hr : s.running .aon = true) (h : cycles.toNat < s.fld F.SEQ_CTL.PFAIL_FILTER) :
    exec (.pfailNAccept cycles) s = .next (s.bump F.SEQ_CNT0.PFAIL_GLITCHES) :=
  (when_pos hr _ _).trans (congrArg _ (if_neg (Nat.not_le.mpr h)))

theorem exec_pfailNAccept_accepted (hr : s.running .aon = true) (h : s.fld F.SEQ_CTL.PFAIL_FILTER ≤ cycles.toNat) :
    exec (.pfailNAccept cycles) s = .next (State.settleRst s s.acceptPfail) := (when_pos hr _ _).trans (congrArg _ (if_pos h))

/-- PFAIL_N is seen low, and counted. -/
def State.pfailSeen (s : State) : State := (s.updSeq (fun q => { q with pfailHigh := false })).bump F.SEQ_CNT0.PFAIL_ACCEPTS

theorem pfailSeen_only (s : State) : OnlyParts [.seq, .regs] s s.pfailSeen := (s.updSeq_only _).comp (State.bump_only _ _ (by decide))

theorem pfailSeen_seq (s : State) : s.pfailSeen.seq = { s.seq with pfailHigh := false } := by
  rw [State.pfailSeen, State.bump_seq, State.updSeq_seq]

theorem pfailSeen_regsBut (s : State) : RegsBut [Addr.SEQ_CNT0] s s.pfailSeen := fun a ha _ =>
  (State.raw_bumpBy_ne _ _ _ (show a ≠ Addr.SEQ_CNT0 by simpa using ha)).trans (raw_updSeq s _ a)

theorem pfailSeen_rises (s : State) : Rises s s.pfailSeen F.SEQ_CNT0.PFAIL_ACCEPTS 1 := (rises_bumpBy _ (by decide) 1).before (raw_updSeq s _ _)

/-- An event with its record, after which the reset outputs follow. -/
def State.recorded (s t : State) (sev inst : Nat) : State := State.settleRst s (t.record sev .aon 9 inst 0 Addr.SEQ_STATUS)

theorem recorded_only (s t : State) (sev inst : Nat) : OnlyParts [.seq, .records] t (s.recorded t sev inst) :=
  ((State.record_only t _ _ _ _ _ _).comp (settleRst_only s _)).mono (by decide)

theorem recorded_seq (s t : State) (sev inst : Nat) : (s.recorded t sev inst).seq = { t.seq with rst := (s.recorded t sev inst).seq.rst } := by
  have h : (t.record sev .aon 9 inst 0 Addr.SEQ_STATUS).seq = t.seq := State.record_seq ..
  rw [State.recorded, settleRst_seq, h]

theorem recorded_raw (s t : State) (sev inst a : Nat) : (s.recorded t sev inst).raw a = t.raw a :=
  (settleRst_raw s _ a).trans (State.raw_congr (State.record_regs ..) a)

theorem acceptPfail_eq (s : State) : State.settleRst s s.acceptPfail = s.recorded s.pfailSeen.powerFail sevCritical 0 := rfl

theorem powerFail_off (hs : s.seq.st = .off) : s.powerFail = s := by
  unfold State.powerFail
  rw [hs]

/-- A power failure in OFF is counted and recorded. -/
theorem acceptPfail_off_effect (hs : s.seq.st = .off) :
    let t := s.recorded s.pfailSeen.powerFail sevCritical 0
    OnlyParts [.seq, .regs, .records] s t ∧ RegsBut [Addr.SEQ_CNT0] s t ∧ Rises s t F.SEQ_CNT0.PFAIL_ACCEPTS 1 ∧
    t.seq = { s.seq with pfailHigh := false, rst := t.seq.rst } := by
  dsimp only
  rw [powerFail_off (by rw [pfailSeen_seq]; exact hs)]
  refine ⟨((pfailSeen_only s).comp (recorded_only _ _ _ _)).mono (by decide), fun a ha hp => ?_, (pfailSeen_rises s).after (recorded_raw _ _ _ _ _), ?_⟩
  · rw [recorded_raw, pfailSeen_regsBut s a ha hp]
  · conv_lhs => rw [recorded_seq, pfailSeen_seq]

/-- A power failure in UP is counted, and the save begins. -/
theorem acceptPfail_up_effect (hs : s.seq.st = .up) (hd : s.lps.deep = false) (hm : s.mod.mode ≠ .save) (hl : s.isl.length = 15) :
    let t := s.recorded s.pfailSeen.powerFail sevCritical 0
    Saving [Addr.SEQ_CNT0] s t ∧ Rises s t F.SEQ_CNT0.PFAIL_ACCEPTS 1 ∧ t.seq.pfailHigh = false ∧ t.phl = s.phl := by
  dsimp only
  have ho := pfailSeen_only s
  have hq := pfailSeen_seq s
  obtain ⟨hsave, hphl, hhigh⟩ := powerFail_effect (s := s.pfailSeen) (by rw [hq]; exact hs) (by rw [ho .lps (by decide)]; exact hd)
    (by rw [ho .mod (by decide)]; exact hm) (by rw [ho .islands (by decide)]; exact hl)
  have hcnt : s.pfailSeen.powerFail.raw Addr.SEQ_CNT0 = s.pfailSeen.raw Addr.SEQ_CNT0 := hsave.2.1 _ (by decide) (by decide)
  refine ⟨(hsave.before ho (pfailSeen_regsBut s) (by rw [hq])).after ((recorded_only _ _ _ _).mono (by decide)) ⟨_, recorded_seq _ _ _ _⟩,
    ((pfailSeen_rises s).after hcnt).after (recorded_raw _ _ _ _ _), ?_, ?_⟩
  · rw [recorded_seq]
    exact hhigh.trans (by rw [hq])
  · rw [recorded_only _ _ _ _ .phl (by decide), hphl, ho .phl (by decide)]

/-! ### The reference clock -/

theorem exec_refclkLoss (hr : s.running .aon = true) : exec .refclkLoss s =
    .next (State.settleRst s (s.powerFail.record sevFatal .aon 9 2 0 Addr.SEQ_STATUS).serdesDrop) := when_pos hr _ _

theorem serdesDrop_seq (s : State) : s.serdesDrop.seq = s.seq := by
  rw [serdesDrop_eq, updPhl_ports_only _ _ _ .seq (by decide), linksDropped_only s .seq (by decide)]

theorem serdesDrop_mode (s : State) : s.serdesDrop.mod = s.mod := by
  rw [serdesDrop_eq, updPhl_ports_only _ _ _ .mod (by decide), linksDropped_only s .mod (by decide)]

theorem serdesDrop_phl (s : State) : s.serdesDrop.phl = { s.phl with ph0 := s.phl.ph0.downed, ph1 := s.phl.ph1.downed } := by
  rw [serdesDrop_eq, State.updPhl_phl, linksDropped_only s .phl (by decide)]

theorem serdesDrop_port (hr : s.running .hst = true) (x : Port) : (s.serdesDrop.port x).link = 0 := by
  rw [serdesDrop_eq, port_congr (updPhl_ports_only _ _ _ .hst (by decide)), linksDropped_port hr]

theorem serdesDrop_path (hr : s.running .fab = true) (p : FabPort) : (s.serdesDrop.path p).link = false := by
  rw [serdesDrop_eq, path_of_fab (updPhl_ports_only _ _ _ .fab (by decide)), linksDropped_path hr]

theorem serdesDrop_idle (hh : ∀ x, (s.port x).link = 0) (hf : ∀ p, (s.path p).link = false) : OnlyParts [.phl] s s.serdesDrop := by
  rw [serdesDrop_eq, linksDropped_idle hh hf]
  exact updPhl_ports_only _ _ _

theorem run_of_running {i : Island} (h : s.running i = true) : s.run i = .running := by
  rw [State.running, Bool.and_eq_true, beq_iff_eq] at h
  exact h.1

/-- The reference clock is lost in UP: the save begins, and every link drops. -/
theorem refclkLoss_effect (hs : s.seq.st = .up) (hd : s.lps.deep = false) (hm : s.mod.mode ≠ .save) (hl : s.isl.length = 15) :
    let t := State.settleRst s (s.powerFail.record sevFatal .aon 9 2 0 Addr.SEQ_STATUS).serdesDrop
    t.seq.st = .saveHold ∧ t.mod.mode = .save ∧ t.phl.ph0 = s.phl.ph0.downed ∧ t.phl.ph1 = s.phl.ph1.downed ∧
    (s.running .hst = true → ∀ p, (t.port p).link = 0) ∧ (s.running .fab = true → ∀ p, (t.path p).link = false) ∧
    ((∀ p, (s.port p).link = 0) → (∀ p, (s.path p).link = false) → Saving [] s t) := by
  dsimp only
  obtain ⟨hsave, hphl, -⟩ := powerFail_effect hs hd hm hl
  have hrec := State.record_only s.powerFail sevFatal .aon 9 2 0 Addr.SEQ_STATUS
  have hset := settleRst_only s (s.powerFail.record sevFatal .aon 9 2 0 Addr.SEQ_STATUS).serdesDrop
  have hrunning : ∀ i, i ∉ s.saveStops → s.running i = true → (s.powerFail.record sevFatal .aon 9 2 0 Addr.SEQ_STATUS).running i = true := fun i hi h => by
    rw [running_congr (hrec .mod (by decide)) (hrec .islands (by decide)), powerFail_running hs hd hm hi (run_of_running h)]
  have hstops : ∀ i ∈ [Island.hst, .fab], i ∉ s.saveStops := fun i hi => by
    unfold State.saveStops
    split <;> revert i <;> decide
  obtain ⟨honly, -, hst, hmode, -⟩ := id hsave
  refine ⟨?_, ?_, ?_, ?_, fun h p => ?_, fun h p => ?_, fun hh hf => ?_⟩
  · rw [settleRst_st, serdesDrop_seq, State.record_seq, hst]
  · rw [hset .mod (by decide), serdesDrop_mode, State.record_mod, hmode]
  · rw [hset .phl (by decide), serdesDrop_phl, State.record_phl, hphl]
  · rw [hset .phl (by decide), serdesDrop_phl, State.record_phl, hphl]
  · rw [port_congr (hset .hst (by decide)), serdesDrop_port (hrunning .hst (hstops _ (by decide)) h)]
  · rw [path_of_fab (hset .fab (by decide)), serdesDrop_path (hrunning .fab (hstops _ (by decide)) h)]
  · have hdrop : OnlyParts [.phl] (s.powerFail.record sevFatal .aon 9 2 0 Addr.SEQ_STATUS)
        (s.powerFail.record sevFatal .aon 9 2 0 Addr.SEQ_STATUS).serdesDrop := serdesDrop_idle
      (fun x => by rw [port_congr (hrec .hst (by decide)), port_congr (honly .hst (by decide)), hh x])
      (fun p => by rw [path_of_fab (hrec .fab (by decide)), path_of_fab (honly .fab (by decide)), hf p])
    exact hsave.after ((hrec.comp (hdrop.comp hset)).mono (by decide)) ⟨_, by rw [settleRst_seq, serdesDrop_seq, State.record_seq]⟩

end Pfail

section RailLoss
variable {s t u : State} {n k : Nat} {ch : BitVec 5} {kind : BitVec 2} {code : BitVec 12}

theorem exec_railLoss (hr : s.running .aon = true) (ho : s.chOn ch.toNat = true) (hg : s.chGood ch.toNat = true)
    (hsns : s.fld (F.SEQ_CH_CFG.SNS ch.toNat) = 0) :
    exec (.railLoss ch kind code) s = .next (State.settleRst s (s.railLost ch.toNat 2)) := by
  show execRailLoss ch kind code s = _
  unfold execRailLoss
  dsimp only
  rw [hsns]
  exact when_pos (by rw [hr, State.lossSeen, ho, hg]; rfl) _ _

theorem chClass_setGood (s : State) (m : Nat) (b : Bool) (n : Nat) : (s.setGood m b).chClass n = s.chClass n := rfl

theorem deviceRail_setGood (s : State) (m : Nat) (b : Bool) (n : Nat) : (s.setGood m b).deviceRail n = s.deviceRail n := rfl

theorem railLost_up (hs : s.seq.st = .up) (hc : s.seq.chCmd = none) (n kind : Nat) : s.railLost n kind = (s.setGood n false).lossInUp n kind := by
  unfold State.railLost
  dsimp only
  rw [hs, hc]
  exact if_neg nofun

theorem deviceRail_of_class (h : s.chClass n ≠ 0) (ha : s.chClass n = 3 → s.on (F.SEQ_CH_CFG.AUX_FATAL n) = false) : s.deviceRail n = false := by
  by_cases h3 : s.chClass n = 3
  · rw [State.deviceRail, h3, ha h3]
    rfl
  · simp [State.deviceRail, h, h3]

theorem railLost_aux (hs : s.seq.st = .up) (hc : s.seq.chCmd = none) (h2 : n ≠ 2) (h : s.chClass n = 3) (ha : s.on (F.SEQ_CH_CFG.AUX_FATAL n) = false) :
    s.railLost n 2 = ((s.setGood n false).markFailed n).railFault n 2 1 sevWarn := by
  have hd : s.deviceRail n = false := deviceRail_of_class (by omega) fun _ => ha
  rw [railLost_up hs hc]
  unfold State.lossInUp
  rw [if_neg h2, deviceRail_setGood, hd, if_neg Bool.false_ne_true, chClass_setGood]
  split
  next h1 => omega
  next h2 => omega
  · rfl

theorem railLost_group (hs : s.seq.st = .up) (hc : s.seq.chCmd = none) (h2 : n ≠ 2) (h : s.chClass n = 1) :
    s.railLost n 2 = (((s.setGood n false).groupOff n).markFailed n).railFault n 2 1 sevError := by
  have hd : s.deviceRail n = false := deviceRail_of_class (by omega) fun h3 => by omega
  rw [railLost_up hs hc]
  unfold State.lossInUp
  rw [if_neg h2, deviceRail_setGood, hd, if_neg Bool.false_ne_true, chClass_setGood]
  split
  · rfl
  next h2 => omega
  next h1 _ => exact absurd h h1

/-- The failure path of a device rail that is lost in UP, before its power-down. -/
def State.deviceLost (s : State) (n : Nat) : State :=
  ((s.setGood n false).updSeq (fun q => { q with timeoutPath := true, failPath := true })).unsavedImage

theorem railLost_device (hs : s.seq.st = .up) (hc : s.seq.chCmd = none) (h2 : n ≠ 2) (h : s.chClass n = 0) :
    s.railLost n 2 = ((s.deviceLost n).startDown true true).railFault n 2 1 sevFatal := by
  have hd : s.deviceRail n = true := by
    rw [State.deviceRail, h]
    rfl
  rw [railLost_up hs hc]
  unfold State.lossInUp
  rw [if_neg h2, deviceRail_setGood, hd, if_pos rfl]
  rfl

/-- The rail's good has fallen, and its loss is counted. -/
def RailLost (n : Nat) (s t : State) : Prop :=
  t.chGood n = false ∧ t.seq.nextFault = s.seq.nextFault + 1 ∧ Rises s t F.SEQ_CNT0.RAIL_FAILS 1

theorem railFault_lost (hg : u.chGood n = false) (hf : u.seq.nextFault = s.seq.nextFault) (hc : u.raw Addr.SEQ_CNT0 = s.raw Addr.SEQ_CNT0)
    (phase sev : Nat) : RailLost n s (u.railFault n 2 phase sev) := by
  refine ⟨?_, ?_, (railFault_rises u n phase sev (by decide) rfl).before hc⟩
  · rw [State.chGood, railFault_seq]
    exact hg
  · rw [railFault_seq, ← hf]
    rfl

theorem RailLost.settled (h : RailLost n s t) : RailLost n s (State.settleRst s t) := by
  obtain ⟨hg, hf, hr⟩ := h
  exact ⟨by rw [settleRst_chGood, hg], by rw [settleRst_nextFault, hf], hr.after (settleRst_raw s t _)⟩

theorem railFault_failed (u : State) (hn : n < 32) (phase sev : Nat) :
    Nat.testBit (((u.markFailed n).railFault n 2 phase sev).fld F.SEQ_CH_FAILED.FAILED) n = true := by
  rw [State.fld_of_raw (f := F.SEQ_CH_FAILED.FAILED) (railFault_raw_ne _ n 2 phase sev (by decide))]
  exact markFailed_failed u hn

theorem setGood_only (s : State) (n : Nat) (b : Bool) : OnlyParts [.seq] s (s.setGood n b) := s.updSeq_only _

theorem markFailed_chGood (s : State) (m n : Nat) : (s.markFailed m).chGood n = s.chGood n := by
  rw [State.chGood, markFailed_only s m .seq (by decide)]
  rfl

/-- An auxiliary rail is lost in UP. -/
theorem auxLost_effect (s : State) (hn : n < 32) :
    let t := ((s.setGood n false).markFailed n).railFault n 2 1 sevWarn
    OnlyParts [.seq, .regs, .records] s t ∧ RegsBut [Addr.SEQ_FAULT, Addr.SEQ_FAULT_TIME, Addr.SEQ_CNT0, Addr.SEQ_CH_FAILED] s t ∧ RailLost n s t ∧
    t.seq.en = s.seq.en ∧ Nat.testBit (t.fld F.SEQ_CH_FAILED.FAILED) n = true := by
  dsimp only
  have hgood := setGood_only s n false
  have hmark := markFailed_only (s.setGood n false) n
  refine ⟨(hgood.comp (hmark.comp (railFault_only _ _ _ _ _))).mono (by decide), fun a ha _ => ?_, railFault_lost ?_ ?_ ?_ _ _, ?_,
    railFault_failed _ hn _ _⟩
  · obtain ⟨h1, h2⟩ : a ∉ faultRegs ∧ a ≠ Addr.SEQ_CH_FAILED := by
      simp only [faultRegs, List.mem_cons, List.not_mem_nil, or_false, not_or] at ha ⊢
      tauto
    rw [railFault_raw_ne _ _ _ _ _ h1, markFailed_raw_ne _ _ h2, hgood.raw (by decide) (by decide)]
  · rw [markFailed_chGood, chGood_setGood_self s false hn]
  · rw [hmark .seq (by decide)]
    rfl
  · rw [markFailed_raw_ne _ _ (by decide), hgood.raw (by decide) (by decide)]
  · rw [railFault_seq, hmark .seq (by decide)]
    rfl

/-- The supply of a NAND group is lost in UP. -/
theorem groupLost_effect (s : State) (hn : n < 32) :
    let t := (((s.setGood n false).groupOff n).markFailed n).railFault n 2 1 sevError
    OnlyParts [.seq, .dst, .draws, .regs, .records] s t ∧
    RegsBut [Addr.DST_CNT0, Addr.SEQ_FAULT, Addr.SEQ_FAULT_TIME, Addr.SEQ_CNT0, Addr.SEQ_CH_FAILED] s t ∧ RailLost n s t ∧ t.chOn n = false ∧
    Nat.testBit (t.fld F.SEQ_CH_FAILED.FAILED) n = true ∧ ∀ j < 4, j + 4 * (n - 6) ∈ t.dst.nandOut := by
  dsimp only
  have hgood := setGood_only s n false
  have hoff := groupOff_only (s.setGood n false) n
  have hmark := markFailed_only ((s.setGood n false).groupOff n) n
  have hfault := railFault_only (((s.setGood n false).groupOff n).markFailed n) n 2 1 sevError
  refine ⟨(hgood.comp (hoff.comp (hmark.comp hfault))).mono (by decide), fun a ha _ => ?_, railFault_lost ?_ ?_ ?_ _ _, ?_,
    railFault_failed _ hn _ _, ?_⟩
  · obtain ⟨h1, h2, h3⟩ : a ∉ faultRegs ∧ a ≠ Addr.SEQ_CH_FAILED ∧ a ≠ Addr.DST_CNT0 := by
      simp only [faultRegs, List.mem_cons, List.not_mem_nil, or_false, not_or] at ha ⊢
      tauto
    rw [railFault_raw_ne _ _ _ _ _ h1, markFailed_raw_ne _ _ h2, groupOff_raw_ne _ _ h3, hgood.raw (by decide) (by decide)]
  · rw [markFailed_chGood, State.chGood, groupOff_seq]
    exact chGood_setGood_self s false hn
  · rw [hmark .seq (by decide), groupOff_seq]
    rfl
  · rw [markFailed_raw_ne _ _ (by decide), groupOff_raw_ne _ _ (by decide), hgood.raw (by decide) (by decide)]
  · rw [State.chOn, railFault_seq, hmark .seq (by decide)]
    exact groupOff_chOn _ hn
  · rw [hfault .dst (by decide), hmark .dst (by decide)]
    exact mem_nandGroupLost _ _

/-! ### A device rail -/

theorem unsavedImage_only (s : State) : OnlyParts [.dst] s s.unsavedImage := by
  unfold State.unsavedImage
  split
  · exact OnlyParts.refl s _
  · exact s.updDst_only _

theorem unsavedImage_incomplete (h : s.nothingAdmitted = false) : s.unsavedImage.dst.lastIncomplete = true := by
  unfold State.unsavedImage
  rw [h]
  rfl

theorem nothingAdmitted_served (hc : s.mod.mode ≠ .cold) (hv : s.mod.mode ≠ .save) : s.nothingAdmitted = false := by
  unfold State.nothingAdmitted
  cases h : s.mod.mode <;> first | exact absurd h hc | exact absurd h hv | rfl

theorem deviceLost_only (s : State) (n : Nat) : OnlyParts [.seq, .dst] s (s.deviceLost n) :=
  ((setGood_only s n false).comp ((State.updSeq_only _ _).comp (unsavedImage_only _))).mono (by decide)

theorem deviceLost_seq (s : State) (n : Nat) :
    (s.deviceLost n).seq = { (s.setGood n false).seq with timeoutPath := true, failPath := true } := by
  rw [State.deviceLost, unsavedImage_only _ .seq (by decide), State.updSeq_seq]

theorem deviceLost_chans (s : State) (n : Nat) : SameChans s (s.deviceLost n) := fun _ _ => (deviceLost_only s n).raw (by decide) (by decide) _

theorem deviceLost_incomplete (hc : s.mod.mode ≠ .cold) (hv : s.mod.mode ≠ .save) (n : Nat) : (s.deviceLost n).dst.lastIncomplete = true :=
  unsavedImage_incomplete (nothingAdmitted_served (s := (s.setGood n false).updSeq (fun q => { q with timeoutPath := true, failPath := true })) hc hv)

/-- A device rail is lost in UP: all work ends. -/
theorem deviceLost_effect (hn : n < 32) (hc : s.mod.mode ≠ .cold) (hv : s.mod.mode ≠ .save) (hb : s.busyStep = some k) (hk : k ≠ 1) :
    let t := ((s.deviceLost n).startDown true true).railFault n 2 1 sevFatal
    WentDown s t k true true ∧ RailLost n s t ∧ t.dst.lastIncomplete = true := by
  dsimp only
  have ho := deviceLost_only s n
  have hq := deviceLost_seq s n
  have hb' : (s.deviceLost n).busyStep = some k := by rw [(deviceLost_chans s n).busyStep (by rw [hq]; rfl) (by rw [hq]; rfl), hb]
  have hw := startDown_wentDown (timeout := true) (latch := true) hb' (.inl hk)
  rw [Bool.or_true, Bool.or_true] at hw
  obtain ⟨rst, hd⟩ := startDown_seq (timeout := true) (latch := true) hb' (.inl hk)
  have hfault := railFault_only ((s.deviceLost n).startDown true true) n 2 1 sevFatal
  refine ⟨(hw.before (ho.mono (by decide)) (by rw [hq]; rfl) (deviceLost_chans s n)).after hfault ⟨_, _, _, _, railFault_seq _ _ _ _ _⟩,
    railFault_lost ?_ ?_ ?_ _ _, ?_⟩
  · rw [State.chGood, hd, SeqState.goingDown, hq]
    exact chGood_setGood_self s false hn
  · rw [hd, SeqState.goingDown, hq]
    rfl
  · rw [startDown_raw hb' (.inl hk) (by decide) (by decide), ho.raw (by decide) (by decide)]
  · rw [hfault .dst (by decide), startDown_lastIncomplete hb' (.inl hk), deviceLost_incomplete hc hv]

end RailLoss
end Sys2Proof.Machine
end

section
/-! SUPPORT. Sense codes, the fault buffer, reset outputs and thermal supervision. -/

namespace Sys2Proof.Machine

section Sense
variable {s : State} {n c : Nat} {input : BitVec 4} {code : BitVec 12}

theorem exec_senseOutOfWindow (hr : s.running .aon = true) (hi : input.toNat ≤ 8) :
    exec (.senseOutOfWindow input code) s = .next (State.settleRst s (s.sensed input.toNat code.toNat)) :=
  when_pos (by rw [hr, decide_eq_true hi]; rfl) _ _

/-- The code of an input is kept. -/
def State.codeKept (s : State) (n code : Nat) : State := s.updSeq (fun q => { q with codes := q.codes.set n code })

theorem setCode_sns (h : n ≠ 8) (code : Nat) : s.setCode n code = s.codeKept n code := if_neg h

theorem sensed_hup (s : State) (code : Nat) : s.sensed 8 code = s.setCode 8 code := rfl

/-- An input that no channel's sense is bound to. -/
theorem sensed_unbound (h : n ≠ 8) (hb : ∀ c < 32, 2 ≤ c → s.fld (F.SEQ_CH_CFG.SNS c) ≠ n + 1) (code : Nat) :
    s.sensed n code = (s.codeKept n code).missedPfail n code := by
  have hnone : (List.range 32).filter (fun c => decide (2 ≤ c) && s.fld (F.SEQ_CH_CFG.SNS c) == n + 1) = [] :=
    List.filter_eq_nil_iff.mpr fun c hc => by
      have hne := hb c (List.mem_range.mp hc)
      simp only [Bool.and_eq_true, decide_eq_true_eq, beq_iff_eq, not_and]
      exact hne
  unfold State.sensed
  dsimp only
  rw [hnone, setCode_sns h, if_neg h, List.foldl_nil, ite_self]

theorem senseLow_codeKept (s : State) (m c n code : Nat) : (s.codeKept m c).senseLow n code = s.senseLow n code := rfl

theorem missedPfail_inside (h : s.senseLow n c = false) : s.missedPfail n c = s := by
  rw [State.missedPfail, if_neg]
  simp [h]

theorem missedPfail_low (h : s.senseLow n c = true) (hv : s.on F.SEQ_CTL.V12_PFAIL = true) (hn : s.fld F.SEQ_CTL.SNS_12V = n)
    (hp : s.seq.pfailHigh = true) : s.missedPfail n c = (s.bump F.SEQ_CNT0.PFAIL_ACCEPTS).powerEvent sevError 1 := by
  rw [State.missedPfail, if_pos]
  rw [hv, hn, h, hp, beq_self_eq_true]
  rfl

/-- A code that tells of nothing is kept. -/
theorem codeKept_effect (s : State) (n code : Nat) :
    OnlyParts [.seq] s (State.settleRst s (s.codeKept n code)) ∧ (State.settleRst s (s.codeKept n code)).seq =
      { s.seq with codes := s.seq.codes.set n code, rst := (State.settleRst s (s.codeKept n code)).seq.rst } :=
  ⟨(s.updSeq_only _).trans (settleRst_only s _), rfl⟩

/-- HUP_SENSE is kept for the ceiling too. -/
theorem hupKept_effect (s : State) (code : Nat) :
    OnlyParts [.seq, .dst] s (State.settleRst s (s.setCode 8 code)) ∧
    (State.settleRst s (s.setCode 8 code)).seq =
      { s.seq with codes := s.seq.codes.set 8 code, rst := (State.settleRst s (s.setCode 8 code)).seq.rst } ∧
    (State.settleRst s (s.setCode 8 code)).dst = { s.dst with hupCode := code } :=
  ⟨((s.updSeq_only _).comp ((State.updDst_only _ _).comp (settleRst_only s _))).mono (by decide), rfl, rfl⟩

/-- A low 12 V bus in OFF is counted and recorded. -/
theorem missedPfail_effect (hs : s.seq.st = .off) (n code : Nat) :
    let t := s.recorded ((s.codeKept n code).bump F.SEQ_CNT0.PFAIL_ACCEPTS).powerFail sevError 1
    OnlyParts [.seq, .regs, .records] s t ∧ RegsBut [Addr.SEQ_CNT0] s t ∧
    t.seq = { s.seq with codes := s.seq.codes.set n code, rst := t.seq.rst } ∧ Rises s t F.SEQ_CNT0.PFAIL_ACCEPTS 1 := by
  dsimp only
  have hq : ((s.codeKept n code).bump F.SEQ_CNT0.PFAIL_ACCEPTS).seq = { s.seq with codes := s.seq.codes.set n code } := by
    rw [State.bump_seq, State.codeKept, State.updSeq_seq]
  rw [powerFail_off (by rw [hq]; exact hs)]
  refine ⟨((s.updSeq_only _).comp ((State.bump_only _ _ (by decide)).comp (recorded_only _ _ _ _))).mono (by decide), fun a ha _ => ?_, ?_,
    ((rises_bumpBy _ (by decide) 1).before (raw_updSeq s _ _)).after (recorded_raw _ _ _ _ _)⟩
  · rw [recorded_raw, State.bump, State.raw_bumpBy_ne _ _ _ (show a ≠ Addr.SEQ_CNT0 by simpa using ha), State.codeKept, raw_updSeq]
  · conv_lhs => rw [recorded_seq, hq]

end Sense

section Buffer
variable {s : State}

theorem exec_faultBufferCopy (hr : s.running .aon = true) (hf : s.running .cfl = true) (h1 : s.chGood 1 = true) (h0 : s.cfl.bank0.running = none)
    (hb : s.cfl.bank1.running = none) : exec .faultBufferCopy s = .next s.copyBuffer := when_pos (by rw [hr, hf, h1, h0, hb]; rfl) _ _

theorem copyBuffer_fits (hs : s.seq.st ≠ .rampDown) (hl : s.seq.flash.length + s.seq.buffer.length ≤ 4096) :
    s.copyBuffer = s.updSeq (fun q => { q with flash := q.flash ++ q.buffer, buffer := [] }) := by
  have hdrop : (s.seq.flash ++ s.seq.buffer).drop (s.seq.flash.length + s.seq.buffer.length - 4096) = s.seq.flash ++ s.seq.buffer := by
    rw [Nat.sub_eq_zero_of_le hl, List.drop_zero]
  have hcopy : s.updSeq (fun q => { q with flash := (q.flash ++ q.buffer).drop (q.flash.length + q.buffer.length - 4096), buffer := [] }) =
      s.updSeq (fun q => { q with flash := q.flash ++ q.buffer, buffer := [] }) := by
    unfold State.updSeq
    dsimp only
    rw [hdrop]
  unfold State.copyBuffer
  rw [hcopy]
  split
  next h => exact absurd h hs
  · rfl

end Buffer

section Outputs
variable {s : State} {n : BitVec 2} {o : RstOut} {f : RstOut → RstOut}

/-- One reset output changes. -/
theorem updRst_effect {k : Nat} (ho : s.seq.rst[k]? = some o) (f : RstOut → RstOut) :
    OnlyParts [.seq] s (s.updRst k f) ∧ (s.updRst k f).seq = { s.seq with rst := (s.updRst k f).seq.rst } ∧ (s.updRst k f).seq.rst[k]? = some (f o) ∧
    ∀ m, m ≠ k → (s.updRst k f).seq.rst[m]? = s.seq.rst[m]? := by
  have hr : (s.updRst k f).seq.rst = s.seq.rst.modify k f := rfl
  refine ⟨s.updSeq_only _, rfl, ?_, fun m hm => ?_⟩
  · rw [hr, List.getElem?_modify_eq, ho]
    rfl
  · rw [hr, List.getElem?_modify_ne _ _ (Ne.symm hm)]

theorem exec_stretchExpiry (hr : s.running .aon = true) (ho : s.seq.rst[n.toNat]? = some o) (hst : o.stretching = true) :
    exec (.stretchExpiry n) s = .next (s.updRst n.toNat (fun o => if s.assertActive n.toNat then { o with stretching := false }
      else { asserted := false, stretching := false, pulsing := false })) := by
  show execStretchExpiry n s = _
  unfold execStretchExpiry
  dsimp only
  rw [ho]
  exact when_pos (by rw [hr, Option.getD_some, hst]; rfl) _ _

theorem exec_pulse (hr : s.running .aon = true) (path : Path) (n : BitVec 2) : exec (.pulse path n) s =
    .next (s.updRst n.toNat (fun o => { asserted := true, pulsing := true, stretching := o.stretching || s.rstSource n.toNat })) := when_pos hr _ _

end Outputs

section Thermal
variable {s t : State} {temp : BitVec 8}

theorem exec_thermalRead (hr : s.running .aon = true) (temp : BitVec 8) : exec (.thermalRead temp) s = .next (State.settleRst s (s.readTemp temp)) :=
  when_pos hr _ _

/-- A reading is kept, hot or not. -/
def State.tempKept (s : State) (t : BitVec 8) : State :=
  s.updSeq (fun q => { q with
    temp := t, tempMax := if q.tempMax.toInt < t.toInt then t else q.tempMax, hot := decide (115 ≤ t.toInt) && !q.hot
    tripHold := if q.tripHold = 2 ∧ t.toInt < 95 then 0 else q.tripHold })

/-- The reading has risen to the warning's temperature. -/
def State.warms (s : State) (t : BitVec 8) : Prop := s.seq.temp.toInt < (s.fld F.GEN_THERM.WARN_C : Int) ∧ (s.fld F.GEN_THERM.WARN_C : Int) ≤ t.toInt

theorem readTemp_cases (s : State) (temp : BitVec 8) : ∃ u, OnlyParts [.records] (s.tempKept temp) u ∧ (¬ s.warms temp → u = s.tempKept temp) ∧
    s.readTemp temp = if decide (115 ≤ temp.toInt) && s.seq.hot then u.trip else u := by
  by_cases h : s.warms temp
  · refine ⟨(s.tempKept temp).recState sevWarn .aon F.GEN_THERM.WARN, State.recState_only _ _ _ _, fun hn => absurd h hn, ?_⟩
    unfold State.readTemp
    dsimp only
    unfold State.warms at h
    rw [if_pos h]
    rfl
  · refine ⟨s.tempKept temp, OnlyParts.refl _ _, fun _ => rfl, ?_⟩
    unfold State.readTemp
    dsimp only
    unfold State.warms at h
    rw [if_neg h]
    rfl

/-- The reading stands in the sequencer. -/
def TempRead (temp : BitVec 8) (s t : State) : Prop :=
  t.seq.temp = temp ∧ t.seq.tempMax = if s.seq.tempMax.toInt < temp.toInt then temp else s.seq.tempMax

/-- A reading below the trip's temperature. -/
theorem readTemp_cool_effect (h : temp.toInt < 115) :
    let t := State.settleRst s (s.readTemp temp)
    OnlyParts [.seq, .records] s t ∧ TempRead temp s t ∧ t.seq.hot = false ∧ t.seq.st = s.seq.st ∧ (¬ s.warms temp → OnlyParts [.seq] s t) := by
  dsimp only
  obtain ⟨u, hu, hcool, heq⟩ := readTemp_cases s temp
  have hhot : decide (115 ≤ temp.toInt) = false := decide_eq_false (by omega)
  have hq : u.seq = (s.tempKept temp).seq := hu .seq (by decide)
  rw [heq, hhot, Bool.false_and, if_neg Bool.false_ne_true]
  have hkept : OnlyParts [.seq] s (s.tempKept temp) := s.updSeq_only _
  refine ⟨(hkept.comp (hu.comp (settleRst_only s u))).mono (by decide), ⟨?_, ?_⟩, ?_, ?_, fun hw => ?_⟩
  · rw [settleRst_temp, hq]
    rfl
  · rw [settleRst_tempMax, hq]
    rfl
  · rw [settleRst_hot, hq, State.tempKept, State.updSeq_seq]
    dsimp only
    rw [hhot, Bool.false_and]
  · rw [settleRst_st, hq]
    rfl
  · rw [hcool hw]
    exact hkept.trans (settleRst_only s _)

theorem trip_off (hs : s.seq.st = .off) : s.trip = (s.updSeq (fun q => { q with tripHold := 1 })).recFlag sevCritical .aon F.GEN_THERM.TRIPPED 0 := by
  have hn : s.tripNow = true := by
    unfold State.tripNow
    rw [hs]
  rw [State.trip, if_pos hn, powerFail_off (by rw [State.updSeq_seq]; exact hs)]

/-- The second reading in a row at the trip's temperature, in OFF. -/
theorem readTemp_trips_effect (h : 115 ≤ temp.toInt) (hh : s.seq.hot = true) (hs : s.seq.st = .off) :
    let t := State.settleRst s (s.readTemp temp)
    OnlyParts [.seq, .regs, .records] s t ∧ RegsBut [Addr.GEN_THERM] s t ∧ TempRead temp s t ∧ t.seq.tripHold = 1 ∧
    t.fld F.GEN_THERM.TRIPPED = 1 := by
  dsimp only
  obtain ⟨u, hu, -, heq⟩ := readTemp_cases s temp
  have hq : u.seq = (s.tempKept temp).seq := hu .seq (by decide)
  have hkept : OnlyParts [.seq] s (s.tempKept temp) := s.updSeq_only _
  rw [heq, decide_eq_true h, hh, Bool.true_and, if_pos rfl, trip_off (by rw [hq]; exact hs)]
  have hflag := State.recFlag_only (u.updSeq (fun q => { q with tripHold := 1 })) sevCritical .aon F.GEN_THERM.TRIPPED 0 (by decide)
  refine ⟨(hkept.comp (hu.comp ((u.updSeq_only _).comp (hflag.comp (settleRst_only s _))))).mono (by decide), fun a ha hp => ?_, ⟨?_, ?_⟩, ?_, ?_⟩
  · rw [settleRst_raw, recFlag_regsBut _ _ _ _ _ a ha hp, raw_updSeq, hu.raw (by decide) (by decide), hkept.raw (by decide) (by decide)]
  · rw [settleRst_temp, State.recFlag_seq, State.updSeq_seq, hq]
    rfl
  · rw [settleRst_tempMax, State.recFlag_seq, State.updSeq_seq, hq]
    rfl
  · rw [settleRst_tripHold, State.recFlag_seq, State.updSeq_seq]
  · rw [settleRst_fld]
    exact recFlag_set _ _ _ _ rfl (by decide)

theorem exec_thermalTripHold (hr : s.running .aon = true) (h : s.seq.tripHold = 1) :
    exec .thermalTripHold s = .next (s.updSeq (fun q => { q with tripHold := if q.temp.toInt < 95 then 0 else 2 })) :=
  when_pos (by rw [hr, h]; rfl) _ _

end Thermal
end Sys2Proof.Machine
end

section
/-! SUPPORT. The release of CTL, and the loss of the standby rail. -/

namespace Sys2Proof.Machine

section Release
variable {s t u : State} {slotA slotB rowOk : Bool} {slot n m area : Nat}

theorem exec_ctlRelease (h : s.mayRelease = true) (slotA slotB rowOk : Bool) :
    exec (.ctlRelease slotA slotB rowOk) s = .next (State.settleRst s (s.bootCheck slotA slotB rowOk)) := when_pos h _ _

/-- CTL may be released: it has not been, and the mode is COLD. -/
theorem mayRelease_cold (h : s.mayRelease = true) : s.seq.ctlReleased = false ∧ s.mod.mode = .cold := by
  simp only [State.mayRelease, Bool.and_eq_true, Bool.not_eq_true'] at h
  obtain ⟨⟨⟨⟨-, hc⟩, -⟩, -⟩, hm⟩ := h
  refine ⟨hc, ?_⟩
  cases hmode : s.mod.mode <;> rw [hmode] at hm <;> first | rfl | exact absurd hm (by decide)

/-- The factory row is bad. -/
def State.rowBad (s : State) : State :=
  (s.updSeq (fun q => { q with bootPhase := 0xF, bootFail := 3 })).updCfl (fun c => { c with frowBad := true })

theorem bootCheck_row (a b : Bool) : s.bootCheck a b false = s.rowBad.recFlag sevFatal .aon F.CFL_ERR.FROW_BAD 0 := rfl

theorem bootCheck_none {a b : Bool} (h : s.bootSlot a b = none) :
    s.bootCheck a b true = s.updSeq (fun q => { q with bootPhase := 0xF, bootFail := 1 }) := by
  unfold State.bootCheck
  rw [h]
  rfl

theorem bootCheck_slot {a b : Bool} (h : s.bootSlot a b = some slot) : s.bootCheck a b true = s.bootFrom slot := by
  unfold State.bootCheck
  rw [h]
  rfl

/-- The release fails on the factory row. -/
theorem rowBad_effect (s : State) :
    let t := s.rowBad.recFlag sevFatal .aon F.CFL_ERR.FROW_BAD 0
    OnlyParts [.seq, .cfl, .regs, .records] s t ∧ RegsBut [Addr.CFL_ERR] s t ∧ t.seq.ctlReleased = s.seq.ctlReleased ∧ t.seq.bootPhase = 15 ∧
    t.seq.bootFail = 3 ∧ t.cfl = { s.cfl with frowBad := true } ∧ t.fld F.CFL_ERR.FROW_BAD = 1 := by
  dsimp only
  have hbad : OnlyParts [.seq, .cfl] s s.rowBad := (s.updSeq_only _).comp (State.updCfl_only _ _)
  have hflag := State.recFlag_only s.rowBad sevFatal .aon F.CFL_ERR.FROW_BAD 0 (by decide)
  have hq : (s.rowBad.recFlag sevFatal .aon F.CFL_ERR.FROW_BAD 0).seq = { s.seq with bootPhase := 0xF, bootFail := 3 } :=
    (State.recFlag_seq ..).trans rfl
  refine ⟨(hbad.comp hflag).mono (by decide), fun a ha hp => ?_, ?_, ?_, ?_, ?_, recFlag_set _ _ _ _ rfl (by decide)⟩
  · rw [recFlag_regsBut _ _ _ _ _ a ha hp, hbad.raw (by decide) (by decide)]
  · rw [hq]
  · rw [hq]
  · rw [hq]
  · rw [hflag .cfl (by decide)]
    rfl

/-! ### The image of a slot -/

theorem isPmu_below {a : Nat} (h : a < 0x1100300) : isPmu a = false := by
  have hcnt : decide (Addr.PMU_CNT 0 ≤ a) = false := decide_eq_false (by unfold Addr.PMU_CNT; omega)
  have hovf : decide (Addr.PMU_OVF 0 ≤ a) = false := decide_eq_false (by unfold Addr.PMU_OVF; omega)
  rw [isPmu, hcnt, hovf]
  rfl

theorem wpUpdate_only (s : State) (f : Nat → Word → Word) : OnlyParts [.regs] s (s.wpUpdate f) := by
  refine foldl_keeps (OnlyParts [.regs]) (fun t => OnlyParts.refl t _) OnlyParts.trans _ s fun t n hn => t.setRaw_only _ _ ?_
  have hlt := List.mem_range.mp hn
  exact isPmu_below (by unfold Addr.CFL_WP; omega)

/-- Flash state, protection, sequencer and service state change. -/
def State.loadedAs (s : State) (c : CflState → CflState) (w : Nat → Word → Word) (q : SeqState → SeqState) (v : SvcState → SvcState) : State :=
  (((s.updCfl c).wpUpdate w).updSeq q).updSvc v

theorem loadedAs_only (s : State) (c : CflState → CflState) (w : Nat → Word → Word) (q : SeqState → SeqState) (v : SvcState → SvcState) :
    OnlyParts [.cfl, .regs, .seq, .svc] s (s.loadedAs c w q v) :=
  (s.updCfl_only _).comp ((wpUpdate_only _ _).comp ((State.updSeq_only _ _).comp (State.updSvc_only _ _)))

theorem loadedAs_seq (s : State) (c : CflState → CflState) (w : Nat → Word → Word) (q : SeqState → SeqState) (v : SvcState → SvcState) :
    (s.loadedAs c w q v).seq = q s.seq := by
  rw [State.loadedAs, State.updSvc_seq, State.updSeq_seq, wpUpdate_only _ _ .seq (by decide), State.updCfl_seq]

theorem loadedAs_cfl (s : State) (c : CflState → CflState) (w : Nat → Word → Word) (q : SeqState → SeqState) (v : SvcState → SvcState) :
    (s.loadedAs c w q v).cfl = c s.cfl := by
  rw [State.loadedAs, State.updSvc_cfl, State.updSeq_only _ _ .cfl (by decide), wpUpdate_only _ _ .cfl (by decide), State.updCfl_cfl]

theorem loadedAs_svc (s : State) (c : CflState → CflState) (w : Nat → Word → Word) (q : SeqState → SeqState) (v : SvcState → SvcState) :
    (s.loadedAs c w q v).svc = v s.svc := by
  rw [State.loadedAs, State.updSvc_svc, State.updSeq_only _ _ .svc (by decide), wpUpdate_only _ _ .svc (by decide),
    State.updCfl_only _ _ .svc (by decide)]

/-- The slot that boots is protected, and its image stands in CTL's memory. -/
def State.imageLoaded (s : State) (slot : Nat) : State :=
  let first := slotFirst slot
  s.loadedAs (fun c => { c with bootedSlot := slot }) (fun n w => w ||| wpMask n (fun x => decide (first ≤ x) && decide (x < first + 3072)))
    (fun q => { q with ctlReleased := true, fallback := slot != s.cfl.activeSlot, bootPhase := 5 })
    (fun v => { v with runningSlot := slot, version := s.norWord (first * 4096 + 4) 4, mcode := BitVec.allOnes 64 })

/-- A slot that boots in place of the active one is told of. -/
def State.fallbackTold (s : State) (told : Bool) (slot : Nat) : State :=
  if told then (s.flag F.CFL_ERR.SLOT_FALLBACK).record sevError .aon 6 1 slot Addr.CFL_STATUS else s

/-- An image in a WORN sector is told of. -/
def State.wornTold (s : State) (told : Bool) (slot : Nat) : State := if told then s.record sevWarn .aon 6 4 slot Addr.CFL_STATUS else s

/-- What stands as firmware starts. -/
def State.imageTaken (s : State) (slot : Nat) : State :=
  ((s.imageLoaded slot).fallbackTold (slot != s.cfl.activeSlot) slot).wornTold (s.slotHas slot (·.worn)) slot

theorem bootFrom_eq (s : State) (slot : Nat) : s.bootFrom slot = (s.imageTaken slot).firmwareStart := rfl

theorem imageLoaded_only (s : State) (slot : Nat) : OnlyParts [.cfl, .regs, .seq, .svc] s (s.imageLoaded slot) := loadedAs_only _ _ _ _ _

theorem fallbackTold_only (s : State) (told : Bool) (slot : Nat) : OnlyParts [.regs, .records] s (s.fallbackTold told slot) := by
  unfold State.fallbackTold
  split
  · exact (State.flag_only _ _ (by decide)).comp (State.record_only _ _ _ _ _ _ _)
  · exact OnlyParts.refl s _

theorem wornTold_only (s : State) (told : Bool) (slot : Nat) : OnlyParts [.records] s (s.wornTold told slot) := by
  unfold State.wornTold
  split
  · exact State.record_only _ _ _ _ _ _ _
  · exact OnlyParts.refl s _

theorem told_only (s : State) (slot : Nat) : OnlyParts [.regs, .records] (s.imageLoaded slot) (s.imageTaken slot) :=
  ((fallbackTold_only _ _ slot).comp (wornTold_only _ _ slot)).mono (by decide)

theorem imageTaken_only (s : State) (slot : Nat) : OnlyParts [.cfl, .regs, .seq, .svc, .records] s (s.imageTaken slot) :=
  ((imageLoaded_only s slot).comp (told_only s slot)).mono (by decide)

theorem imageTaken_seq (s : State) (slot : Nat) :
    (s.imageTaken slot).seq = { s.seq with ctlReleased := true, fallback := slot != s.cfl.activeSlot, bootPhase := 5 } := by
  rw [told_only s slot .seq (by decide), State.imageLoaded, loadedAs_seq]

theorem imageTaken_cfl (s : State) (slot : Nat) : (s.imageTaken slot).cfl = { s.cfl with bootedSlot := slot } := by
  rw [told_only s slot .cfl (by decide), State.imageLoaded, loadedAs_cfl]

theorem imageTaken_slot (s : State) (slot : Nat) : (s.imageTaken slot).svc.runningSlot = slot := by
  rw [told_only s slot .svc (by decide), State.imageLoaded, loadedAs_svc]

/-! ### Firmware starts -/

/-- The islands run, and tenant 0 exists. -/
def State.islandsReleased (s : State) : State :=
  let s1 := ((s.setRun .ctl .running).setRuns firmwareIslands .running).updRec (fun c => { c with released := true })
  { s1 with tenants := if Tab.has s.tenants 0 then s.tenants else Tab.put s.tenants 0 Tenant.none }

theorem firmwareStart_eq (s : State) :
    s.firmwareStart = s.islandsReleased.rootRecord.privQueues.setTwin (if s.hasPartner then .linking else .absent) sevNotice := rfl

theorem tenants_only (s : State) (l : Tab Tenant) : OnlyParts [.tenants] s { s with tenants := l } := by
  intro p hp; cases p <;> first
    | exact absurd (by decide) hp
    | rfl
    | exact fun a _ => State.raw_congr rfl a
    | exact fun a => State.byte_congr rfl rfl rfl rfl a
    | exact fun _ _ => rfl
    | exact fun _ => rfl
    | exact ⟨rfl, rfl, fun _ _ => rfl⟩
    | exact ⟨rfl, rfl⟩

theorem islandsReleased_only (s : State) : OnlyParts [.islands, .contrail, .tenants] s s.islandsReleased :=
  ((s.setRun_only _ _).comp ((setRuns_only _ _ _).comp ((State.updRec_only _ _).comp (tenants_only _ _)))).mono (by decide)

theorem run_withTenants (s : State) (l : Tab Tenant) (i : Island) : ({ s with tenants := l } : State).run i = s.run i := rfl

theorem islandsReleased_run (hl : s.isl.length = 15) {i : Island} (h : i = .ctl ∨ i ∈ firmwareIslands) : s.islandsReleased.run i = .running := by
  have hl' : (s.setRun .ctl .running).isl.length = 15 := by rw [State.setRun_isl, List.length_set, hl]
  rw [State.islandsReleased, run_withTenants, (State.updRec_only _ _).run (by decide)]
  by_cases hi : i ∈ firmwareIslands
  · exact run_setRuns_in _ _ hl' hi
  · obtain rfl := h.resolve_right hi
    rw [run_setRuns_out _ _ hi, run_setRun_self hl]

theorem islandsReleased_released (s : State) : s.islandsReleased.contrail.released = true := rfl

theorem islandsReleased_tenant (s : State) : (Tab.get s.islandsReleased.tenants 0).isSome = true := by
  have h : s.islandsReleased.tenants = if Tab.has s.tenants 0 then s.tenants else Tab.put s.tenants 0 Tenant.none := rfl
  rw [h]
  split
  · assumption
  · exact Tab.has_put_self _ _ _

theorem rootRecord_only (s : State) : OnlyParts [.records] s s.rootRecord := by
  unfold State.rootRecord
  split
  · exact State.record_only _ _ _ _ _ _ _
  · exact OnlyParts.refl s _

theorem ringPage_not_pmu (h : n < 16) : isPmu (F.PE_PQ_BASE.RING_PAGE n).addr = false :=
  isPmu_below (show 0x900280 + 8 * n < 0x1100300 by omega)

theorem addPriv_only (s : State) (area : Nat) (h : n < 16) : OnlyParts [.regions, .pe, .regs] s (s.addPriv area n) :=
  (withRegions_only s _).comp ((State.updPe_only _ _).comp (State.setFld_only _ _ _ (ringPage_not_pmu h)))

theorem addPriv_qps (s : State) (area n : Nat) : ∃ q, (s.addPriv area n).pe.qps = Tab.put s.pe.qps n q := by
  unfold State.addPriv
  exact ⟨_, by rw [State.setFld_pe, State.updPe_pe]⟩

/-- What has a queue pair keeps one. -/
theorem addPriv_keeps (s : State) (area n : Nat) (h : Tab.has s.pe.qps m = true) : Tab.has (s.addPriv area n).pe.qps m = true := by
  obtain ⟨q, hq⟩ := addPriv_qps s area n
  rw [hq]
  by_cases hm : m = n
  · subst hm
    exact Tab.has_put_self _ _ _
  · rw [Tab.has, Tab.get_put_ne _ _ hm]
    exact h

theorem addPriv_has (s : State) (area n : Nat) : Tab.has (s.addPriv area n).pe.qps n = true := by
  obtain ⟨q, hq⟩ := addPriv_qps s area n
  rw [hq]
  exact Tab.has_put_self _ _ _

theorem addPrivs_keep (l : List Nat) (s : State) (area : Nat) (h : Tab.has s.pe.qps m = true) :
    Tab.has (l.foldl (fun t n => t.addPriv area n) s).pe.qps m = true := by
  induction l generalizing s with
  | nil => exact h
  | cons n r ih =>
    rw [List.foldl_cons]
    exact ih _ (addPriv_keeps s area n h)

theorem addPrivs_have (l : List Nat) (s : State) (area : Nat) (h : m ∈ l) : Tab.has (l.foldl (fun t n => t.addPriv area n) s).pe.qps m = true := by
  induction l generalizing s with
  | nil => exact absurd h List.not_mem_nil
  | cons n r ih =>
    rw [List.foldl_cons]
    obtain rfl | h := List.mem_cons.mp h
    · exact addPrivs_keep r _ area (addPriv_has s area m)
    · exact ih _ h

theorem privQueues_only (s : State) : OnlyParts [.regions, .pe, .regs, .draws] s s.privQueues := by
  unfold State.privQueues
  split
  · exact (foldl_keeps (OnlyParts [.regs]) (fun t => OnlyParts.refl t _) OnlyParts.trans _ s fun t n hn =>
      t.setFld_only _ _ (ringPage_not_pmu (List.mem_range.mp hn))).mono (by decide)
  · have hfold : ∀ u : State, OnlyParts [.regions, .pe, .regs] u ((List.range 16).foldl (fun t n => t.addPriv s.privArea n) u) := fun u =>
      foldl_keeps (OnlyParts [.regions, .pe, .regs]) (fun t => OnlyParts.refl t _) OnlyParts.trans _ u fun t n hn =>
        addPriv_only t _ (List.mem_range.mp hn)
    exact ((withRegions_only s _).comp ((hfold _).comp (State.drawFree_only _))).mono (by decide)

theorem privQueues_have (h : n < 16) : (Tab.get s.privQueues.pe.qps n).isSome = true ∨ Tab.has s.pe.qps 0 = true := by
  by_cases hq : Tab.has s.pe.qps 0 = true
  · exact .inr hq
  · refine .inl ?_
    unfold State.privQueues
    rw [if_neg hq, State.drawFree_only _ .pe (by decide)]
    exact addPrivs_have _ _ _ (List.mem_range.mpr h)

theorem settleMode_cold (h : s.mod.mode = .cold) : s.settleMode = s := by
  unfold State.settleMode
  rw [h]

theorem hasPartner_congr (h : t.seq.position = s.seq.position) : t.hasPartner = s.hasPartner := by
  unfold State.hasPartner State.odd
  rw [h]

/-- Firmware that starts in COLD. -/
theorem firmwareStart_effect (hl : s.isl.length = 15) (hm : s.mod.mode = .cold) :
    OnlyParts [.islands, .contrail, .tenants, .records, .regions, .pe, .regs, .draws, .phl] s s.firmwareStart ∧
    (∀ i, i = .ctl ∨ i ∈ firmwareIslands → s.firmwareStart.run i = .running) ∧ s.firmwareStart.contrail.released = true ∧
    s.firmwareStart.phl.twin = (if s.hasPartner then .linking else .absent) ∧ (Tab.get s.firmwareStart.tenants 0).isSome = true ∧
    ∀ n < 16, (Tab.get s.firmwareStart.pe.qps n).isSome = true ∨ Tab.has s.pe.qps 0 = true := by
  have hrel := islandsReleased_only s
  have hroot := rootRecord_only s.islandsReleased
  have hpriv := privQueues_only s.islandsReleased.rootRecord
  have htwin := twinSet_only s.islandsReleased.rootRecord.privQueues (if s.hasPartner then .linking else .absent) sevNotice
  have hall := hrel.comp (hroot.comp (hpriv.comp htwin))
  have hafter := hroot.comp (hpriv.comp htwin)
  have heq : s.firmwareStart = s.islandsReleased.rootRecord.privQueues.twinSet (if s.hasPartner then .linking else .absent) sevNotice := by
    rw [firmwareStart_eq, setTwin_eq, settleMode_cold]
    rw [hall .mod (by decide), hm]
  rw [heq]
  refine ⟨hall.mono (by decide), fun i hi => ?_, ?_, ?_, ?_, fun n hn => ?_⟩
  · rw [hafter.run (by decide), islandsReleased_run hl hi]
  · rw [hafter .contrail (by decide), islandsReleased_released]
  · rw [twinSet_phl]
  · rw [hafter .tenants (by decide)]
    exact islandsReleased_tenant s
  · have hpe : s.islandsReleased.rootRecord.pe = s.pe := (hrel.comp hroot) .pe (by decide)
    rw [htwin .pe (by decide), ← hpe]
    exact privQueues_have hn

/-- CTL is released with the image of a slot. -/
theorem bootFrom_effect (hl : s.isl.length = 15) (hm : s.mod.mode = .cold) (slot : Nat) :
    (s.bootFrom slot).seq = { s.seq with ctlReleased := true, fallback := slot != s.cfl.activeSlot, bootPhase := 5 } ∧
    (s.bootFrom slot).cfl = { s.cfl with bootedSlot := slot } ∧ (s.bootFrom slot).svc.runningSlot = slot ∧
    (∀ i, i = .ctl ∨ i ∈ firmwareIslands → (s.bootFrom slot).run i = .running) ∧ (s.bootFrom slot).contrail.released = true ∧
    (s.bootFrom slot).phl.twin = (if s.hasPartner then .linking else .absent) ∧ (s.bootFrom slot).mod.mode = .cold ∧
    (Tab.get (s.bootFrom slot).tenants 0).isSome = true ∧
    ∀ n < 16, (Tab.get (s.bootFrom slot).pe.qps n).isSome = true ∨ Tab.has s.pe.qps 0 = true := by
  have hi := imageTaken_only s slot
  have hm' : (s.imageTaken slot).mod.mode = .cold := by rw [hi .mod (by decide), hm]
  obtain ⟨ho, hrun, hrel, htwin, htenant, hqps⟩ := firmwareStart_effect (s := s.imageTaken slot) (by rw [hi .islands (by decide), hl]) hm'
  rw [hasPartner_congr (s := s) (by rw [imageTaken_seq])] at htwin
  rw [hi .pe (by decide)] at hqps
  rw [bootFrom_eq]
  refine ⟨?_, ?_, ?_, hrun, hrel, htwin, ?_, htenant, hqps⟩
  · rw [ho .seq (by decide), imageTaken_seq]
  · rw [ho .cfl (by decide), imageTaken_cfl]
  · rw [ho .svc (by decide), imageTaken_slot]
  · rw [ho .mod (by decide), hm']

end Release

section Standby
variable {s : State}

theorem aonLost_isl (s : State) : s.aonLost.isl = .inReset :: List.replicate 14 .off := rfl

theorem aonLost_boot (s : State) : s.aonLost.boot = s.boot := by
  cases s
  dsimp only
  rfl

theorem aonLost_dst (s : State) : s.aonLost.dst = s.dst.kept := rfl

theorem aonLost_array (s : State) : s.aonLost.cfl.array = s.cfl.array := by
  cases s
  dsimp only
  rfl

theorem aonLost_flash (s : State) : s.aonLost.seq.flash = s.seq.flash := by
  cases s
  dsimp only
  rfl

theorem run_aonLost (s : State) (i : Island) : s.aonLost.run i = if i = .aon then .inReset else .off := by
  unfold State.run
  rw [aonLost_isl]
  cases i <;> rfl

/-- What flash, fuses and NAND hold stays. -/
theorem aonLost_effect (s : State) :
    s.aonLost.time = 0 ∧ s.aonLost.run .aon = .inReset ∧ (∀ i, i ≠ .aon → s.aonLost.run i = .off) ∧ s.aonLost.boot = s.boot ∧
    s.aonLost.dst.map = s.dst.map ∧ s.aonLost.dst.nand = s.dst.nand ∧ s.aonLost.cfl.array = s.cfl.array ∧ s.aonLost.seq.flash = s.seq.flash ∧
    s.aonLost.seq.st = .off ∧ s.aonLost.mod.mode = .cold ∧ s.aonLost.dst.lastIncomplete = s.dst.lastIncomplete := by
  refine ⟨rfl, run_aonLost s .aon, fun i hi => ?_, aonLost_boot s, ?_, ?_, aonLost_array s, aonLost_flash s, rfl, rfl, ?_⟩
  · rw [run_aonLost, if_neg hi]
  · rw [aonLost_dst]
    rfl
  · rw [aonLost_dst]
    rfl
  · rw [aonLost_dst]
    rfl

theorem unsavedImage_nand (s : State) : s.unsavedImage.dst.map = s.dst.map ∧ s.unsavedImage.dst.nand = s.dst.nand := by
  unfold State.unsavedImage
  split
  · exact ⟨rfl, rfl⟩
  · exact ⟨rfl, rfl⟩

/-- Outside COLD the dirty pages are lost. -/
theorem exec_standbyRailLoss (s : State) : exec .standbyRailLoss s = .next (if s.mod.mode = .cold then s.aonLost else s.unsavedImage.aonLost) := by
  show execStandbyRailLoss s = _
  unfold execStandbyRailLoss
  split
  next h => rw [if_pos h]
  next h => rw [if_neg h]

theorem nothingAdmitted_of_not (hc : s.mod.mode ≠ .cold) (hv : ¬ (s.mod.mode = .save ∧ s.mod.prev = .cold)) : s.nothingAdmitted = false := by
  unfold State.nothingAdmitted
  split
  next h => exact absurd h hc
  next h => simpa using fun hp => hv ⟨h, hp⟩
  · rfl

end Standby
end Sys2Proof.Machine
end

section
/-! PROOF. Power failure, rail loss, thermal supervision and the release of CTL. -/

open Sys2Proof Sys2Proof.Machine

/-- Settles O45: every event by the branch that its conditions choose. A save is entered from UP with clocks awake, and what is said of it passes
through the record and the reset outputs that follow; a device rail's loss is the power-down of the sequencer's steps. -/
theorem powerLossIsSeenAndRecorded : Obligations.PowerLossIsSeenAndRecorded := by
  unfold Obligations.PowerLossIsSeenAndRecorded
  refine ⟨fun s hr => ?_, fun s => ?standby⟩
  · dsimp only
    refine ⟨fun cycles => ⟨?glitch, ?pfail_off, ?pfail_up⟩, ?refclk, fun ch kind code hs ho hg hc hsns h2 => ⟨?aux, ?group, ?device⟩,
      fun input code => ⟨?hup, fun hlt hb => ⟨?inside, ?low⟩⟩, ?copy, fun n o ho => ⟨?stretch_ends, ?stretch_held, ?pulse⟩,
      fun temp => ⟨?cool, ?trips⟩, ?hold, fun a b rowOk hm => ⟨?row, ?no_slot, ?boots⟩⟩
    case glitch =>
      intro h
      exact ⟨_, exec_pfailNAccept_glitch hr h, State.bump_only _ _ (by decide), RegsBut.bumpBy _ _ _ (by decide), rises_bumpBy _ (by decide) 1⟩
    case pfail_off =>
      intro h hs
      exact ⟨_, (exec_pfailNAccept_accepted hr h).trans (congrArg _ (acceptPfail_eq s)), acceptPfail_off_effect hs⟩
    case pfail_up =>
      intro h hs hd hm hl
      exact ⟨_, (exec_pfailNAccept_accepted hr h).trans (congrArg _ (acceptPfail_eq s)), acceptPfail_up_effect hs hd hm hl⟩
    case refclk =>
      intro hs hd hm hl _
      exact ⟨_, exec_refclkLoss hr, refclkLoss_effect hs hd hm hl⟩
    case aux =>
      intro h ha
      have hn : ch.toNat < 32 := ch.isLt
      obtain ⟨hp, hregs, hlost, hen, hf⟩ := auxLost_effect s hn
      refine ⟨_, (exec_railLoss hr ho hg hsns).trans (by rw [railLost_aux hs hc h2 h ha]), (hp.comp (settleRst_only s _)).mono (by decide),
        hregs.trans (.of_raw (settleRst_raw s _)), hlost.settled, ?_⟩
      rw [settleRst_en, settleRst_fld]
      exact ⟨hen, hf⟩
    case group =>
      intro h
      have hn : ch.toNat < 32 := ch.isLt
      obtain ⟨hp, hregs, hlost, hon, hf, hout⟩ := groupLost_effect s hn
      refine ⟨_, (exec_railLoss hr ho hg hsns).trans (by rw [railLost_group hs hc h2 h]), (hp.comp (settleRst_only s _)).mono (by decide),
        hregs.trans (.of_raw (settleRst_raw s _)), hlost.settled, ?_⟩
      rw [settleRst_chOn, settleRst_fld, settleRst_only s _ .dst (by decide)]
      exact ⟨hon, hf, hout⟩
    case device =>
      intro k h hcold hsave hb hk
      obtain ⟨hw, hlost, hinc⟩ := deviceLost_effect (n := ch.toNat) ch.isLt hcold hsave hb hk
      refine ⟨_, (exec_railLoss hr ho hg hsns).trans (by rw [railLost_device hs hc h2 h]),
        hw.after ((settleRst_only s _).mono (by decide)) ⟨_, _, _, _, settleRst_seq s _⟩, hlost.settled, ?_⟩
      rw [settleRst_only s _ .dst (by decide), hinc]
    case hup =>
      intro h
      refine ⟨_, (exec_senseOutOfWindow hr (Nat.le_of_eq h)).trans (by rw [h, sensed_hup]), ?_⟩
      rw [h]
      exact hupKept_effect s _
    case inside =>
      intro hlow
      refine ⟨_, (exec_senseOutOfWindow hr (Nat.le_of_lt hlt)).trans ?_, codeKept_effect s _ _⟩
      rw [sensed_unbound (Nat.ne_of_lt hlt) hb, missedPfail_inside (by rw [senseLow_codeKept, hlow])]
    case low =>
      intro hlow hv hn hp hs
      refine ⟨_, (exec_senseOutOfWindow hr (Nat.le_of_lt hlt)).trans ?_, missedPfail_effect hs _ _⟩
      have hlow' : (s.codeKept input.toNat code.toNat).senseLow input.toNat code.toNat = true := by rw [senseLow_codeKept, hlow]
      rw [sensed_unbound (Nat.ne_of_lt hlt) hb, missedPfail_low hlow' hv hn hp]
      rfl
    case copy =>
      intro hf h1 h0 hb hs hl
      exact gives_updSeq ((exec_faultBufferCopy hr hf h1 h0 hb).trans (congrArg _ (copyBuffer_fits hs hl)))
    case stretch_ends =>
      intro hst ha
      refine ⟨_, exec_stretchExpiry hr ho hst, ?_⟩
      rw [ha]
      exact updRst_effect ho _
    case stretch_held =>
      intro hst ha
      refine ⟨_, exec_stretchExpiry hr ho hst, ?_⟩
      rw [ha]
      exact updRst_effect ho _
    case pulse => exact fun path => ⟨_, exec_pulse hr path n, updRst_effect ho _⟩
    case cool => exact fun h => ⟨_, exec_thermalRead hr temp, readTemp_cool_effect h⟩
    case trips => exact fun h hh hs => ⟨_, exec_thermalRead hr temp, readTemp_trips_effect h hh hs⟩
    case hold => exact fun h => gives_updSeq (exec_thermalTripHold hr h)
    case row =>
      rintro rfl
      obtain ⟨hp, hregs, hrel, hphase, hfail, hcfl, hf⟩ := rowBad_effect s
      refine ⟨_, (exec_ctlRelease hm a b false).trans (by rw [bootCheck_row]), (hp.comp (settleRst_only s _)).mono (by decide),
        hregs.trans (.of_raw (settleRst_raw s _)), ?_⟩
      rw [settleRst_ctlReleased, settleRst_bootPhase, settleRst_bootFail, settleRst_fld, settleRst_only s _ .cfl (by decide)]
      exact ⟨hrel.trans (mayRelease_cold hm).1, hphase, hfail, hcfl, hf⟩
    case no_slot =>
      rintro rfl h
      exact ⟨_, (exec_ctlRelease hm a b true).trans (by rw [bootCheck_none h]), (s.updSeq_only _).trans (settleRst_only s _), rfl, rfl⟩
    case boots =>
      rintro slot rfl h hl
      obtain ⟨hq, hcfl, hslot, hrun, hrel, htwin, hmode, htenant, hqps⟩ := bootFrom_effect hl (mayRelease_cold hm).2 slot
      have hset := settleRst_only s (s.bootFrom slot)
      refine ⟨_, (exec_ctlRelease hm a b true).trans (by rw [bootCheck_slot h]), ?_⟩
      dsimp only
      rw [settleRst_ctlReleased, settleRst_bootPhase, settleRst_fallback, hset .cfl (by decide), hset .svc (by decide), hset .contrail (by decide),
        hset .phl (by decide), hset .mod (by decide), hset .tenants (by decide), hset .pe (by decide), hset.run (by decide), hq]
      exact ⟨rfl, rfl, rfl, hcfl, hslot, hrun _ (.inl rfl), fun i hi => (hset.run (by decide) i).trans (hrun i (.inr hi)), hrel, htwin, hmode, htenant,
        hqps⟩
  case standby =>
    refine ⟨_, exec_standbyRailLoss s, ?_⟩
    dsimp only
    split
    next hm =>
      obtain ⟨htime, haon, hruns, hboot, hmap, hnand, harray, hflash, hst, hmode, -⟩ := aonLost_effect s
      exact ⟨htime, haon, hruns, hboot, hmap, hnand, harray, hflash, hst, hmode, fun h => absurd hm h⟩
    next hm =>
      have ho := unsavedImage_only s
      obtain ⟨hm', hn'⟩ := unsavedImage_nand s
      obtain ⟨htime, haon, hruns, hboot, hmap, hnand, harray, hflash, hst, hmode, hinc⟩ := aonLost_effect s.unsavedImage
      rw [ho .boot (by decide)] at hboot
      rw [ho .cfl (by decide)] at harray
      rw [ho .seq (by decide)] at hflash
      refine ⟨htime, haon, hruns, hboot, hmap.trans hm', hnand.trans hn', harray, hflash, hst, hmode, fun hc hv => ?_⟩
      rw [hinc, unsavedImage_incomplete (nothingAdmitted_of_not hc hv)]
end

section
/-! The next MSN stands beyond 32 bits: no premise of O58 bounds it, and the request for a member list waits for a number that no frame bears. -/

namespace Sys2Proof.Machine
open Sys2Proof.Tests

/-- The twins are paired, and the next MSN to give is 2^32. -/
def msnBeyond : State := (twinState .paired).updPhl (fun x => { x with txNext := 2 ^ 32 })

theorem msnBeyond_serves : msnBeyond.svc.proc ≠ 1 ∧ msnBeyond.running .ctl = true ∧ msnBeyond.phl.twin.linked = true := by decide +kernel

/-- The request is answered at once, though the twin has not acknowledged the frame that carries the list. -/
theorem msnBeyond_answers : (after (exec (.poolMembers .mctp [0]) msnBeyond)).phl.twinWait = [] := by decide +kernel

end Sys2Proof.Machine
end

section
open Sys2Proof Sys2Proof.Machine Sys2Proof.Tests

/-- Refutes O58: of a member list it says that the request waits, the twin being linked, for a frame that is not yet acknowledged,
whatever the next MSN. Where that stands at 2^32 the list goes out in a frame of that number, the request waits for the number 0, which
no frame bears, and is answered at once. -/
theorem not_managementRequestsAnswerTheirPath : ¬ Obligations.ManagementRequestsAnswerTheirPath := by
  unfold Obligations.ManagementRequestsAnswerTheirPath
  intro h
  obtain ⟨-, -, runs, -⟩ := h msnBeyond .mctp .hp0 0 0 0 0 0 [] [0]
  obtain ⟨hproc, hctl, hlinked⟩ := msnBeyond_serves
  obtain ⟨-, -, -, -, members⟩ := runs hproc hctl
  obtain ⟨t, ht, -, -, -, waits⟩ := (members (List.cons_ne_nil _ _) (Nat.le_add_left 1 262143)).2 (by simp)
  obtain ⟨m, hwait, -⟩ := waits hlinked
  have hnone := msnBeyond_answers
  rw [ht, show (after (.next t)).phl.twinWait = t.phl.twinWait from rfl] at hnone
  rw [hnone] at hwait
  exact absurd hwait List.not_mem_nil
end

section
/-! A held write that has committed: no premise of O29 shuts it out, and its release moves it behind a later unit of the same line. -/

namespace Sys2Proof.Machine
open Sys2Proof.Tests

/-- A committed write of LD 3, still held in the space of its credit, which the twin orders. -/
def heldWrite : CUnit :=
  { mkUnit 0 5 (ordinary .d1) 0x10000 64 [(0x10000, 7)] .d1 (.cxl .hp0 3) true with hold := .credit, written := true, committed := true }

/-- A later committed unit of the same line. -/
def laterWrite : CUnit :=
  { mkUnit 1 5 (ordinary .d1) 0x10000 64 [(0x10000, 5)] .d1 .device false with written := true, charged := true, committed := true }

def heldCommitted : State := { hostState with pst := { hostState.pst with units := [heldWrite, laterWrite], nextUnit := 2 } }

theorem heldCommitted_releases : heldCommitted.oldestHeld .hp0 (3 : BitVec 4).toNat = some heldWrite ∧ heldCommitted.unitsNumbered = true := by
  decide +kernel

/-- The later unit's byte is read before the release, the held one's after it. -/
theorem heldCommitted_swaps : heldCommitted.byte 0x10000 = 5 ∧ (after (exec (.heldWriteRelease .hp0 3) heldCommitted)).byte 0x10000 = 7 := by
  decide +kernel

end Sys2Proof.Machine
end

section
open Sys2Proof Sys2Proof.Machine Sys2Proof.Tests

/-- Refutes O29: its clause on releases names every part that may change, the bytes that are read not among them, and has no premise
that the held write is uncommitted. A committed one moves to the end of the buffer as it is enrolled, and its bytes hide those of a
later unit. -/
theorem not_hostRequestsAreTakenAndAnswered : ¬ Obligations.HostRequestsAreTakenAndAnswered := by
  unfold Obligations.HostRequestsAreTakenAndAnswered
  rintro ⟨-, -, -, release, -⟩
  obtain ⟨hheld, hnumbered⟩ := heldCommitted_releases
  obtain ⟨t, ht, honly, -⟩ := release heldCommitted .hp0 3 heldWrite hheld hnumbered (.inl rfl) (fun h => absurd h (by decide))
  obtain ⟨hbefore, hafter⟩ := heldCommitted_swaps
  have hkept : t.byte 0x10000 = 5 := (honly .bytes (by decide) 0x10000).trans hbefore
  rw [ht] at hafter
  exact absurd (hkept.symm.trans hafter) (by decide)
end

section
/-! An extent whose copies have committed, and a frame that refers to its XOPEN once more: no premise of O37 shuts it out, and the
extent's copies move behind a later one. -/

namespace Sys2Proof.Machine
open Sys2Proof.Tests

/-- A committed copy of a byte at 0x10080: of the extent that the XOPEN 7 opened, or of a unit by itself. -/
def committedCopy (uid msn : Nat) (ref : Option Nat) (b : Byte) : Copy :=
  { heldCopy with uid := uid, msn := msn, extent := ref.isSome, ref := ref, cells := [(0x10080, b)], committed := true }

def extentCommitted : State :=
  (twinState .paired).updPhl (fun x => { x with copies := [committedCopy 0 5 (some 7) 6, committedCopy 1 6 none 8] })

theorem extentCommitted_takes : FrameTaken extentCommitted (twinFrame 0 7 [1]) ∧ extentCommitted.phl.resyncLeft = [] := by decide +kernel

/-- The later copy's byte is read before the frame, the extent's after it. -/
theorem extentCommitted_swaps : extentCommitted.byte 0x10080 = 8 ∧
    (after (exec (.mdata (twinFrame 0 7 [1])) extentCommitted)).byte 0x10080 = 6 := by
  decide +kernel

end Sys2Proof.Machine
end

section
open Sys2Proof Sys2Proof.Machine Sys2Proof.Tests

/-- Refutes O37: its MDATA clause names every part that may change, the bytes that are read not among them. The last frame of an extent
puts the extent's copies behind all others, committed or not; where they have committed, their bytes then hide those of a later
copy. -/
theorem not_twinFramesTakeEffectInOrder : ¬ Obligations.TwinFramesTakeEffectInOrder := by
  unfold Obligations.TwinFramesTakeEffectInOrder
  rintro ⟨-, frames, -⟩
  obtain ⟨htaken, hresync⟩ := extentCommitted_takes
  obtain ⟨mdata, -⟩ := frames extentCommitted (twinFrame 0 7 [1]) htaken
  obtain ⟨t, ht, honly, -⟩ := mdata hresync
  obtain ⟨hbefore, hafter⟩ := extentCommitted_swaps
  have hkept : t.byte 0x10080 = 8 := (honly .bytes (by decide) 0x10080).trans hbefore
  rw [ht] at hafter
  exact absurd (hkept.symm.trans hafter) (by decide)
end

section
/-! A D0 write of a host that carries the number the next unit takes: no premise of O25 keeps the numbers apart, and the journal's first
unit lands that write. -/

namespace Sys2Proof.Machine
open Sys2Proof.Tests

/-- A D0 write of LD 0, which has reached the buffer and has not landed. -/
def unlandedWrite : CUnit := { mkUnit 0 5 (ordinary .d0) 0x10400 64 [] .d0 (.cxl .hp0 0) false with written := true }

def unlandedState : State :=
  let s := qctlState 0 qpBlock
  { s with pst := { s.pst with units := [unlandedWrite], nextUnit := unlandedWrite.id } }

/-- What issues there. -/
def createIss : Iss := issOf (privWord 0x81 0)

theorem unlanded_issues : CanIssue unlandedState 0 createIss ∧ HasWord unlandedState createIss (createIss.pc + 1) ∧ FreshOp createIss ∧
    createIss.i.op = 0x81 := by
  decide +kernel

theorem unlanded_reads : HasParams unlandedState createIss [createIss.blkAcc 192] 192 := by decide +kernel

theorem unlanded_creates : createIss.i.imm32 = 0 ∧ unlandedState.qctlStatus (QBlock.ofBytes (createIss.params unlandedState 192)) = none ∧
    unlandedState.needsLent journalLen = false := by
  decide +kernel

/-- No LD has an entry before the CREATE; one has after it. -/
theorem unlanded_lands : unlandedState.hst.lds = [] ∧ (after (exec (.qctlCreate 0) unlandedState)).hst.lds.length = 1 := by decide +kernel

end Sys2Proof.Machine
end

section
open Sys2Proof Sys2Proof.Machine Sys2Proof.Tests

/-- Refutes O25: its CREATE clause names every part that may change, the host ports not among them, and has no premise on the numbers of
the units. Where a D0 write of a host carries the number that the journal's first unit takes, that write lands and its LD hears of it. -/
theorem not_queuePairsAndProceduresAreManaged : ¬ Obligations.QueuePairsAndProceduresAreManaged := by
  unfold Obligations.QueuePairsAndProceduresAreManaged
  intro h
  obtain ⟨hissue, hword, hfresh, hop⟩ := unlanded_issues
  obtain ⟨himm, hstatus, hlent⟩ := unlanded_creates
  obtain ⟨create, -⟩ := h unlandedState 0 createIss hissue hword hfresh hop unlanded_reads
  obtain ⟨t, ht, -, -, honly, -⟩ := create himm hstatus hlent
  obtain ⟨hbefore, hafter⟩ := unlanded_lands
  have hkept : t.hst = unlandedState.hst := honly .hst (by decide)
  rw [show exec (.qctlCreate 0) unlandedState = .next t from ht,
    show (after (.next t)).hst = t.hst from rfl, hkept, hbefore] at hafter
  exact absurd hafter (by decide)
end

section
/-! SUPPORT. Units of the ingress buffer: a numbered unit is found by its number, what stands before it, and what a read sees of the buffer
(02 R46, R56, R59). -/

namespace Sys2Proof.Machine

section Numbered
variable {s t : State} {u v w : CUnit} {l l₁ l₂ l₃ : List CUnit}

theorem unitsNumbered_iff : s.unitsNumbered = true ↔ (s.pst.units.map (·.id)).Nodup ∧ ∀ u ∈ s.pst.units, u.id < s.pst.nextUnit := by
  simp [State.unitsNumbered]

/-- Two units under one number are the same unit. -/
theorem State.unit_eq (h : s.unitsNumbered = true) (hu : u ∈ s.pst.units) (hv : v ∈ s.pst.units) (hid : u.id = v.id) : u = v :=
  List.inj_on_of_nodup_map (unitsNumbered_iff.mp h).1 hu hv hid

theorem State.find_unit (h : s.unitsNumbered = true) (hv : v ∈ s.pst.units) : s.pst.units.find? (fun w => w.id == v.id) = some v := by
  cases hf : s.pst.units.find? (fun w => w.id == v.id) with
  | none => exact absurd (List.find?_eq_none.mp hf v hv) (by simp)
  | some w => rw [s.unit_eq h (List.mem_of_find?_eq_some hf) hv (by simpa using List.find?_some hf)]

/-- What stands before the first unit of a number. -/
theorem takeWhile_id (h : ∀ w ∈ l₁, w.id ≠ v.id) : (l₁ ++ v :: l₂).takeWhile (fun w => w.id != v.id) = l₁ := by
  rw [List.takeWhile_append_of_pos (fun w hw => by simpa using h w hw)]
  simp

theorem State.ids_before (h : s.unitsNumbered = true) (hl : s.pst.units = l₁ ++ v :: l₂) : ∀ w ∈ l₁, w.id ≠ v.id := by
  obtain ⟨hn, -⟩ := unitsNumbered_iff.mp h
  rw [hl, List.map_append, List.map_cons, List.nodup_append] at hn
  obtain ⟨-, -, hd⟩ := hn
  exact fun w hw => hd _ (List.mem_map_of_mem hw) _ List.mem_cons_self

theorem State.before_unit (h : s.unitsNumbered = true) (hl : s.pst.units = l₁ ++ v :: l₂) :
    s.pst.units.takeWhile (fun w => w.id != v.id) = l₁ := by
  rw [hl]
  exact takeWhile_id (s.ids_before h hl)

end Numbered

/-! ### What a read sees -/

section Visible
variable {s t : State}

theorem State.byte_of_visible (hv : t.visibleCells = s.visibleCells) (hn : t.nc = s.nc) (hd : ∀ a, Memory.read t.ddr a = Memory.read s.ddr a)
    (a : Nat) : t.byte a = s.byte a := by
  have hb : t.backing a = s.backing a := by unfold State.backing; rw [hn, hd]
  unfold State.byte
  rw [hv, hb]

/-- The cells that the committed units of a buffer show. -/
def unitCells (l : List CUnit) : List (List Host.Cell) := (l.filter (·.committed)).map (·.cells)

theorem visible_of_units (hu : unitCells t.pst.units = unitCells s.pst.units) (hc : t.phl.copies = s.phl.copies) :
    t.visibleCells = s.visibleCells := by
  unfold State.visibleCells
  rw [hc]
  exact congrArg _ hu

/-- A frame that leaves the memories and what the buffer shows alone keeps what every address reads as. -/
theorem OnlyParts.keep_bytes {l : List Part} (h : OnlyParts (l ++ [.bytes]) s t) (hl : Part.nc ∉ l ∧ Part.ddr ∉ l)
    (hu : unitCells t.pst.units = unitCells s.pst.units) (hc : t.phl.copies = s.phl.copies) : OnlyParts l s t :=
  h.drop_bytes (State.byte_of_visible (visible_of_units hu hc) (h .nc (by simp [hl.1])) (h .ddr (by simp [hl.2])))

end Visible
end Sys2Proof.Machine
end

section
/-! SUPPORT. Copies of units as they go to the twin: what the units and the link keep (07 R224, R231, R238). -/

namespace Sys2Proof.Machine

/-- The unit after frames of it have been sent. -/
def CUnit.SentAs (u w : CUnit) : Prop := w = { u with parts := w.parts, first := w.first, msn := w.msn }

theorem CUnit.SentAs.refl (u : CUnit) : u.SentAs u := rfl

theorem CUnit.SentAs.trans {u v w : CUnit} (h : u.SentAs v) (k : v.SentAs w) : u.SentAs w := by
  unfold CUnit.SentAs at *
  rw [k, h]

/-- Units that stand in the same places, after frames of them have been sent. -/
def SentUnits (l m : List CUnit) : Prop := List.Forall₂ CUnit.SentAs l m

theorem SentUnits.refl (l : List CUnit) : SentUnits l l := List.forall₂_same.mpr fun u _ => .refl u

theorem SentUnits.trans {l m n : List CUnit} (h : SentUnits l m) (k : SentUnits m n) : SentUnits l n := by
  induction h generalizing n with
  | nil => exact k
  | cons hx _ ih =>
    cases k with
    | cons ky kl => exact .cons (hx.trans ky) (ih kl)

theorem SentUnits.updAll (p : CUnit → Bool) {f : CUnit → CUnit} (hf : ∀ u : CUnit, u.SentAs (f u)) (l : List CUnit) :
    SentUnits l (updAll p f l) := by
  refine List.forall₂_map_right_iff.mpr (List.forall₂_same.mpr fun u _ => ?_)
  split
  · exact hf u
  · exact .refl u

theorem SentUnits.cells {l m : List CUnit} (h : SentUnits l m) : unitCells m = unitCells l := by
  induction h with
  | nil => rfl
  | @cons u w l m hu _ ih =>
    have hc : w.committed = u.committed := by rw [hu]
    have hcells : w.cells = u.cells := by rw [hu]
    unfold unitCells at ih ⊢
    rw [List.filter_cons, List.filter_cons, hc]
    split
    · rw [List.map_cons, List.map_cons, hcells, ih]
    · exact ih

theorem SentUnits.mem {l m : List CUnit} (h : SentUnits l m) {u : CUnit} (hu : u ∈ l) : ∃ w ∈ m, u.SentAs w := by
  induction h with
  | nil => exact absurd hu List.not_mem_nil
  | @cons x w l m hx _ ih =>
    rcases List.mem_cons.mp hu with rfl | hu
    · exact ⟨w, List.mem_cons_self, hx⟩
    · obtain ⟨y, hy, hs⟩ := ih hu
      exact ⟨y, List.mem_cons_of_mem _ hy, hs⟩

theorem SentUnits.mem' {l m : List CUnit} (h : SentUnits l m) {w : CUnit} (hw : w ∈ m) : ∃ u ∈ l, u.SentAs w := by
  induction h with
  | nil => exact absurd hw List.not_mem_nil
  | @cons u x l m hx _ ih =>
    rcases List.mem_cons.mp hw with rfl | hw
    · exact ⟨u, List.mem_cons_self, hx⟩
    · obtain ⟨y, hy, hs⟩ := ih hw
      exact ⟨y, List.mem_cons_of_mem _ hy, hs⟩

/-- Frames go out: the units keep their places and their data, and what the link holds of the twin's stays. -/
structure Pumps (s t : State) : Prop where
  only : OnlyParts [.phl, .pst, .out, .regs, .pmu, .bytes] s t
  regs : RegsBut [Addr.PHL_CNT2] s t
  pst : t.pst = { s.pst with units := t.pst.units }
  units : SentUnits s.pst.units t.pst.units
  copies : t.phl.copies = s.phl.copies

namespace Pumps
variable {s t u : State}

theorem refl (s : State) : Pumps s s := ⟨.refl s _, .refl s _, rfl, .refl _, rfl⟩

theorem trans (h : Pumps s t) (k : Pumps t u) : Pumps s u where
  only := h.only.trans k.only
  regs := h.regs.trans k.regs
  pst := by rw [k.pst, h.pst]
  units := h.units.trans k.units
  copies := k.copies.trans h.copies

theorem foldl {α : Type} {f : State → α → State} (hf : ∀ s a, Pumps s (f s a)) (l : List α) (s : State) : Pumps s (l.foldl f s) := by
  induction l generalizing s with
  | nil => exact refl s
  | cons a l ih => exact (hf s a).trans (ih (f s a))

/-- A step that leaves the buffer and the registers alone. -/
theorem of_only {l : List Part} (h : OnlyParts l s t) (hl : l ⊆ [.phl, .out, .pmu]) (hc : t.phl.copies = s.phl.copies) : Pumps s t where
  only := h.mono (List.Subset.trans hl (by decide))
  regs := fun a _ ha => h .regs (fun hr => absurd (hl hr) (by decide)) a ha
  pst := by rw [h .pst (fun hr => absurd (hl hr) (by decide))]
  units := by rw [h .pst (fun hr => absurd (hl hr) (by decide))]; exact .refl _
  copies := hc

theorem sendFrame (s : State) (f : Frame) : Pumps s (s.sendFrame f) :=
  of_only (s.sendFrame_only f) (by decide) (by rw [sendFrame_link])

theorem updPhl (s : State) {f : PhlState → PhlState} (h : (f s.phl).copies = s.phl.copies) : Pumps s (s.updPhl f) :=
  of_only (s.updPhl_quiet h) (by decide) h

theorem updUnit (s : State) (n : Nat) {f : CUnit → CUnit} (hf : ∀ u : CUnit, u.SentAs (f u)) : Pumps s (s.updUnit n f) where
  only := (s.updUnit_only n f).mono (by decide)
  regs := .of_regs rfl _
  pst := rfl
  units := .updAll _ hf _
  copies := rfl

theorem sendPart (s : State) (u : CUnit) (e : Nat × List Byte) (last : Bool) : Pumps s (s.sendPart u e last) :=
  (sendFrame s _).trans (updUnit _ _ fun _ => rfl)

theorem sendParts (u : CUnit) (l : List (Nat × List Byte)) : ∀ s : State, Pumps s (s.sendParts u l) := by
  induction l with
  | nil => exact refl
  | cons e l ih =>
    intro s
    unfold State.sendParts
    split
    · exact (sendPart s u e l.isEmpty).trans (ih _)
    · exact updPhl s rfl

theorem bump (s : State) : Pumps s (s.bump F.PHL_CNT2.FORWARDED) where
  only := (State.bump_only s _ (by decide)).mono (by decide)
  regs := .bumpBy s _ 1 (by decide)
  pst := by simp
  units := by simpa using SentUnits.refl _
  copies := by simp

theorem sendUnit (s : State) (u : CUnit) : Pumps s (s.sendUnit u) := by
  unfold State.sendUnit
  dsimp only
  split
  · exact (sendParts u _ s).trans (bump _)
  · exact sendParts u _ s

theorem sendOrder (s : State) (u : CUnit) : Pumps s (s.sendOrder u) := by
  unfold State.sendOrder
  split
  · exact (sendFrame s _).trans (updUnit _ _ fun _ => rfl)
  · exact refl s

end Pumps

theorem pumpMirror_pumps (s : State) : Pumps s s.pumpMirror := by
  unfold State.pumpMirror
  split
  · refine (Pumps.updPhl s rfl).trans (Pumps.foldl (fun t u => ?_) _ _)
    split
    · exact .sendOrder t u
    · split
      · exact .refl t
      · exact .sendUnit t u
  · exact .refl s

end Sys2Proof.Machine
end

section
/-! SUPPORT. Admission of a unit: its number, its charge and its place in region order; what any address reads as stays (02 R17, R26,
R56, R258). -/

namespace Sys2Proof.Machine

/-- The unit in the buffer: what its door brought is as it was; its charge, its place and its copy's frames are as they may be. -/
def CUnit.InBuffer (u w : CUnit) : Prop :=
  w = { u with charged := w.charged, hold := w.hold, position := w.position, parts := w.parts, first := w.first, msn := w.msn }

theorem CUnit.InBuffer.refl (u : CUnit) : u.InBuffer u := rfl

theorem CUnit.InBuffer.sentAs {u v w : CUnit} (h : u.InBuffer v) (k : v.SentAs w) : u.InBuffer w := by
  unfold CUnit.InBuffer CUnit.SentAs at *
  rw [k, h]

/-- A unit has gone through part of its admission: it stands in the buffer, which shows what it showed. -/
structure Admits (s t : State) (u : CUnit) : Prop where
  only : OnlyParts [.pst, .regions, .dst, .phl, .out, .regs, .pmu, .records, .bytes] s t
  regs : RegsBut admissionRegs s t
  next : t.pst.nextUnit = s.pst.nextUnit
  inBuffer : ∃ w ∈ t.pst.units, u.InBuffer w
  cells : unitCells t.pst.units = unitCells s.pst.units
  copies : t.phl.copies = s.phl.copies

section Steps
variable {s t : State} {u : CUnit}

/-- A step that leaves the units, their number and the copies alone. -/
theorem Admits.of_only {l : List Part} (h : OnlyParts l s t) (hl : l ⊆ [.dst, .regs, .pmu, .records]) (hr : RegsBut admissionRegs s t)
    (hu : u ∈ s.pst.units) : Admits s t u where
  only := h.mono (List.Subset.trans hl (by decide))
  regs := hr
  next := by rw [h .pst (fun hp => absurd (hl hp) (by decide))]
  inBuffer := ⟨u, by rw [h .pst (fun hp => absurd (hl hp) (by decide))]; exact hu, .refl u⟩
  cells := by rw [h .pst (fun hp => absurd (hl hp) (by decide))]
  copies := by rw [h .phl (fun hp => absurd (hl hp) (by decide))]

theorem Admits.refl (hu : u ∈ s.pst.units) : Admits s s u := .of_only (.refl s []) (by decide) (.refl s _) hu

/-- The unit once its charge is granted: it has the next position of its region (R56). -/
def State.enrolled (s : State) (u : CUnit) : CUnit :=
  { u with charged := true, hold := .none, position := ((Tab.get s.regions u.region).map (·.nextPos)).getD 0 + 1 }

theorem enroll_units (s : State) (u : CUnit) :
    (s.enroll u).pst.units = s.pst.units.filter (fun x => x.id != u.id) ++ [s.enrolled u] := rfl

@[simp] theorem enroll_regs (s : State) (u : CUnit) : (s.enroll u).regs = s.regs := rfl

theorem enroll_only (s : State) (u : CUnit) : OnlyParts [.pst, .regions, .dst, .bytes] s (s.enroll u) := by
  intro p hp; cases p <;> first
    | exact absurd (by decide) hp
    | (simp [State.enroll, Part.kept]; done)
    | exact fun a _ => State.raw_congr rfl a

/-- A unit that has not committed shows nothing, wherever it stands. -/
theorem unitCells_filter_id {l : List CUnit} (hid : ∀ w ∈ l, w.id = u.id → w.committed = false) :
    unitCells (l.filter (fun w => w.id != u.id)) = unitCells l := by
  unfold unitCells
  rw [List.filter_filter, List.filter_congr]
  intro w hw
  by_cases h : w.id = u.id
  · simp [h, hid w hw h]
  · simp [h]

theorem enroll_cells (hid : ∀ w ∈ s.pst.units, w.id = u.id → w.committed = false) (hc : u.committed = false) :
    unitCells (s.enroll u).pst.units = unitCells s.pst.units := by
  rw [enroll_units, unitCells, List.filter_append, List.map_append]
  simpa [State.enrolled, hc, unitCells] using unitCells_filter_id hid

theorem zoneStep_regsBut (s : State) (cause : Nat) {r : List Nat} (h : Addr.DST_CNT0 ∈ r) : RegsBut r s (s.zoneStep cause) :=
  fun _ ha _ => State.zoneStep_raw_ne s cause (fun e => ha (e ▸ h))

theorem zoneStep_pst (s : State) (cause : Nat) : (s.zoneStep cause).pst = s.pst := State.zoneStep_only s cause .pst (by decide)

theorem zoneStep_phl (s : State) (cause : Nat) : (s.zoneStep cause).phl = s.phl := State.zoneStep_only s cause .phl (by decide)

theorem Pumps.regs_mono (h : Pumps s t) {r : List Nat} (hr : Addr.PHL_CNT2 ∈ r) : RegsBut r s t :=
  fun a ha hp => h.regs a (fun hm => ha (List.mem_singleton.mp hm ▸ hr)) hp

/-- The charge is granted: the unit takes its position, the zone follows the level, and copies go out. -/
theorem enrolled_admits (hid : ∀ w ∈ s.pst.units, w.id = u.id → w.committed = false) (hc : u.committed = false) :
    Admits s ((s.enroll u).zoneStep 0).pumpMirror u := by
  have hz := State.zoneStep_only (s.enroll u) 0
  have hp := pumpMirror_pumps ((s.enroll u).zoneStep 0)
  have hpst : ((s.enroll u).zoneStep 0).pst = (s.enroll u).pst := zoneStep_pst _ 0
  have hunits := hp.units
  rw [hpst] at hunits
  refine ⟨(((enroll_only s u).comp hz).comp hp.only).mono (by decide), ?_, ?_, ?_, ?_, ?_⟩
  · exact ((RegsBut.of_regs (enroll_regs s u) _).trans (zoneStep_regsBut _ 0 (by decide))).trans (hp.regs_mono (by decide))
  · rw [hp.pst, hpst]; rfl
  · have hin : s.enrolled u ∈ (s.enroll u).pst.units := List.mem_append_right _ (List.mem_singleton.mpr rfl)
    obtain ⟨w, hw, hs⟩ := hunits.mem hin
    exact ⟨w, hw, CUnit.InBuffer.sentAs (v := s.enrolled u) rfl hs⟩
  · rw [hunits.cells, enroll_cells hid hc]
  · rw [hp.copies, zoneStep_phl]; rfl

theorem request_admits (hu : u ∈ s.pst.units) (hid : ∀ w ∈ s.pst.units, w.id = u.id → w.committed = false) (hc : u.committed = false) :
    Admits s (s.request u) u := by
  unfold State.request
  split
  · exact .refl hu
  · split
    · exact enrolled_admits hid hc
    · split
      · exact .refl hu
      · exact .of_only ((State.bump_only s F.DST_CNT1.CHARGE_WAITS (by decide)).comp (State.countEvent_only _ 0x051 1 (some u.tenant) none)) (by decide)
          ((RegsBut.bumpBy s F.DST_CNT1.CHARGE_WAITS 1 (by decide)).trans (fun a _ ha => State.countEvent_only _ 0x051 1 (some u.tenant) none .regs (by decide) a ha)) hu

theorem Admits.trans_of_only {l : List Part} (h : OnlyParts l s t) (hl : l ⊆ [.dst, .regs, .pmu, .records]) (hr : RegsBut admissionRegs s t)
    {v : State} (k : Admits t v u) : Admits s v u where
  only := (h.mono (List.Subset.trans hl (by decide))).trans k.only
  regs := hr.trans k.regs
  next := k.next.trans (by rw [h .pst (fun hp => absurd (hl hp) (by decide))])
  inBuffer := k.inBuffer
  cells := k.cells.trans (by rw [h .pst (fun hp => absurd (hl hp) (by decide))])
  copies := k.copies.trans (by rw [h .phl (fun hp => absurd (hl hp) (by decide))])

theorem asks_only (s : State) (u : CUnit) : OnlyParts [.dst] s (s.asks u) := by
  unfold State.asks
  split
  · exact .refl s _
  · exact s.updDst_only (fun d => { d with asked := Tab.put d.asked u.tenant s.time })

theorem asks_regs (s : State) (u : CUnit) : (s.asks u).regs = s.regs := by
  unfold State.asks
  split <;> rfl

end Steps

/-! ### A unit enters the buffer -/

section Enter
variable {s : State} {u : CUnit}

/-- The unit as it enters. -/
def State.entering (s : State) (u : CUnit) : CUnit := { u with id := s.pst.nextUnit, written := u.door.crossing == none, away := s.awayAt u }

/-- The unit stands in the buffer, and its data starts across its crossing. -/
def State.entered (s : State) (u : CUnit) : State :=
  { s with
    pst := { s.pst with units := s.pst.units ++ [s.entering u], nextUnit := s.pst.nextUnit + 1 }
    xing := match u.door.crossing with
      | some k => Tab.put s.xing k ((Tab.get s.xing k).getD [] ++ [XItem.write s.pst.nextUnit])
      | none => s.xing }

theorem admitUnit_eq (s : State) (u : CUnit) : s.admitUnit u = ((s.entered u).asks (s.entering u)).request (s.entering u) := rfl

theorem crossing_lt {d : Door} {k : Nat} (h : d.crossing = some k) : k < 64 := by
  cases d <;> simp only [Door.crossing, reduceCtorEq, Option.some.injEq] at h <;> omega

theorem entered_only (s : State) (u : CUnit) : OnlyParts [.pst, .crossings, .bytes] s (s.entered u) := by
  intro p hp; cases p <;> first
    | exact absurd (by decide) hp
    | (simp [State.entered, Part.kept]; done)
    | exact fun a _ => State.raw_congr rfl a
    | skip
  refine ⟨rfl, rfl, fun k hk => ?_⟩
  unfold State.entered
  dsimp only
  split
  next j hj =>
    have := crossing_lt hj
    exact Tab.get_put_ne _ _ (by omega)
  next => rfl

/-- A numbered buffer takes a unit in: it stands there under the next number, and what any address reads as stays. -/
theorem admitUnit_effect (hn : s.unitsNumbered = true) (hc : u.committed = false) :
    OnlyParts admission s (s.admitUnit u) ∧ RegsBut admissionRegs s (s.admitUnit u) ∧ (s.admitUnit u).pst.nextUnit = s.pst.nextUnit + 1 ∧
    ∃ w ∈ (s.admitUnit u).pst.units, (s.entering u).InBuffer w := by
  obtain ⟨-, hlt⟩ := unitsNumbered_iff.mp hn
  have hin : s.entering u ∈ (s.entered u).pst.units := List.mem_append_right _ (List.mem_singleton.mpr rfl)
  have hid : ∀ w ∈ (s.entered u).pst.units, w.id = (s.entering u).id → w.committed = false := by
    intro w hw he
    rcases List.mem_append.mp hw with hw | hw
    · exact absurd he (Nat.ne_of_lt (hlt w hw))
    · rw [List.mem_singleton.mp hw]; exact hc
  have ha := asks_only (s.entered u) (s.entering u)
  have hpst : ((s.entered u).asks (s.entering u)).pst = (s.entered u).pst := ha .pst (by decide)
  have hr := request_admits (s := (s.entered u).asks (s.entering u)) (u := s.entering u) (by rw [hpst]; exact hin) (by rw [hpst]; exact hid) hc
  have k := Admits.trans_of_only ha (by decide) (.of_regs (asks_regs _ _) _) hr
  have hcells : unitCells (s.entered u).pst.units = unitCells s.pst.units := by
    unfold unitCells State.entered
    rw [List.filter_append]
    simp [State.entering, hc]
  rw [admitUnit_eq]
  exact ⟨OnlyParts.keep_bytes (l := admission) (((entered_only s u).comp k.only).mono (by decide)) (by decide) (k.cells.trans hcells) k.copies,
    (RegsBut.of_regs rfl _).trans k.regs, k.next, k.inBuffer⟩

end Enter
end Sys2Proof.Machine
end

section
/-! SUPPORT. The commit point: what a committed unit shows, and what its commit leaves as it was (02 R45, R46, R59). -/

namespace Sys2Proof.Machine

/-- The unit has committed at class `c`: its data is visible. -/
def State.shown (s : State) (u : CUnit) (c : Class) : State :=
  s.updUnit u.id (fun x => { x with committed := true, reached := c, cells := u.cells })

/-- The poison that the data brings or clears, and its pages' marks while this device serves alone. -/
def State.noted (s : State) (u : CUnit) : State :=
  { s with
    poison := if u.poison then s.poison ++ (linesOf u.dpa u.len).filter (fun l => !s.poison.contains l)
              else s.poison.filter (fun l => !(decide (u.cells.length = u.len) && decide (u.dpa ≤ l) && decide (l + 64 ≤ u.dpa + u.len)))
    phl := if (s.phl.twin = Twin.alone ∨ s.phl.twin = Twin.absent ∨ s.rangeSolo u.dpa u.len = true) ∧ u.cls ≠ Class.d0 then
        { s.phl with separation := markPages s.phl.separation (pagesOf u.dpa u.len) } else s.phl }

/-- A unit that commits below its class is counted, and its region warned of once. -/
def State.lowered (s : State) (regions : Tab Region) (u : CUnit) (c : Class) : State :=
  if c = .d1 ∧ (u.cls = .d2 ∨ u.cls = .d3) then
    let s' := s.bump F.PST_DUR_CNT0.DOWNGRADED
    match Tab.get regions u.region with
    | some r => if r.warned then s' else
        (s'.updRegion u.region (fun r => { r with warned := true })).record sevWarn .pst 3 0 u.region Addr.PST_DUR_CNT0
    | none => s'
  else s

/-- The twin hears of the commit. -/
def State.tellTwin (s : State) (u : CUnit) (c : Class) : State :=
  match u.msn, u.door with
  | none, .twin m => if c = Class.d1 ∧ (u.cls = Class.d2 ∨ u.cls = Class.d3) then
      s.sendFrame { Frame.mk0 3 with cls := .d1, region := u.region, dpa := u.dpa, position := u.position, ref := m } else s
  | none, _ => s
  | some m, _ => if c = Class.d2 ∨ c = Class.d3 then
      s.sendFrame { Frame.mk0 4 with region := u.region, aux := m, data := leBytes 64 1 } else s

/-- The commit is counted by its class. -/
def State.tally (s : State) (u : CUnit) (c : Class) : State :=
  match c with
  | .d0 => s
  | .d1 => s.countEvent 0x040 1 (some u.tenant) none
  | .d2 => s.countEvent 0x041 1 (some u.tenant) none
  | .d3 => s.countEvent 0x042 1 (some u.tenant) none

/-- What the commit of plain data does once the data is visible. -/
def State.afterShown (s : State) (regions : Tab Region) (u : CUnit) (c : Class) : State :=
  ((((((s.noted u).lowered regions u c).tellTwin u c).tally u c).snapUnits u u.cells true).settleDoor u (.reached c)).serveReads

section Commit
variable {s t v : State} {u : CUnit} {c : Class}

theorem commit_eq (ha : u.atomic = none) (hr : u.record = none) : s.commit u c = (s.shown u c).afterShown s.regions u c := by
  unfold State.commit
  simp only [ha, hr]
  rfl

/-- What follows a commit: the buffer and the memories stay, and so do the twin's copies and what waits. -/
structure Settles (s t : State) : Prop where
  only : OnlyParts [.poison, .phl, .pe, .regs, .pmu, .records, .regions, .out, .hst, .bytes] s t
  copies : t.phl.copies = s.phl.copies
  hmapIn : t.phl.hmapIn = s.phl.hmapIn
  reads : s.hst.reads = [] → t.hst.reads = []

namespace Settles

theorem trans (h : Settles s t) (k : Settles t v) : Settles s v where
  only := h.only.trans k.only
  copies := k.copies.trans h.copies
  hmapIn := k.hmapIn.trans h.hmapIn
  reads := k.reads ∘ h.reads

/-- A step that leaves the doors of HST and the link alone. -/
theorem of_only {l : List Part} (h : OnlyParts l s t) (hl : l ⊆ [.poison, .pe, .regs, .pmu, .records, .regions, .out]) : Settles s t where
  only := h.mono (List.Subset.trans hl (by decide))
  copies := by rw [h .phl (fun hp => absurd (hl hp) (by decide))]
  hmapIn := by rw [h .phl (fun hp => absurd (hl hp) (by decide))]
  reads := by rw [h .hst (fun hp => absurd (hl hp) (by decide))]; exact id

theorem refl (s : State) : Settles s s := of_only (.refl s []) (by decide)

theorem sendFrame (s : State) (f : Frame) : Settles s (s.sendFrame f) where
  only := (s.sendFrame_only f).mono (by decide)
  copies := by rw [sendFrame_link]
  hmapIn := by rw [sendFrame_link]
  reads := by rw [s.sendFrame_only f .hst (by decide)]; exact id

theorem noted (s : State) (u : CUnit) : Settles s (s.noted u) where
  only := by
    intro p hp; cases p <;> first
      | exact absurd (by decide) hp
      | simp [State.noted, Part.kept]
  copies := by unfold State.noted; dsimp only; split <;> rfl
  hmapIn := by unfold State.noted; dsimp only; split <;> rfl
  reads := id

theorem lowered (s : State) (l : Tab Region) (u : CUnit) (c : Class) : Settles s (s.lowered l u c) := by
  have hb := State.bump_only s F.PST_DUR_CNT0.DOWNGRADED (by decide)
  unfold State.lowered
  split
  · split
    · split
      · exact of_only hb (by decide)
      · exact of_only ((hb.comp (State.updRegion_only _ u.region (fun r => { r with warned := true }))).comp
          (State.record_only _ sevWarn .pst 3 0 u.region Addr.PST_DUR_CNT0)) (by decide)
    · exact of_only hb (by decide)
  · exact refl s

theorem tellTwin (s : State) (u : CUnit) (c : Class) : Settles s (s.tellTwin u c) := by
  unfold State.tellTwin
  split
  · split
    · exact sendFrame s _
    · exact refl s
  · exact refl s
  · split
    · exact sendFrame s _
    · exact refl s

theorem tally (s : State) (u : CUnit) (c : Class) : Settles s (s.tally u c) := by
  cases c with
  | d0 => exact refl s
  | d1 => exact of_only (State.countEvent_only s 0x040 1 (some u.tenant) none) (by decide)
  | d2 => exact of_only (State.countEvent_only s 0x041 1 (some u.tenant) none) (by decide)
  | d3 => exact of_only (State.countEvent_only s 0x042 1 (some u.tenant) none) (by decide)

/-- A change within HST that leaves no read waiting where none waited. -/
theorem of_hst (h : OnlyParts [.hst] s t) (hr : s.hst.reads = [] → t.hst.reads = []) : Settles s t where
  only := h.mono (by decide)
  copies := by rw [h .phl (by decide)]
  hmapIn := by rw [h .phl (by decide)]
  reads := hr

theorem withHst_only (s : State) (x : HstState) : OnlyParts [.hst] s { s with hst := x } := by
  intro p hp; cases p <;> first
    | exact absurd (by decide) hp
    | (simp [Part.kept]; done)
    | exact fun a _ => State.raw_congr rfl a
    | exact fun a => State.byte_congr rfl rfl rfl rfl a

theorem snapUnits (s : State) (u : CUnit) (l : List Host.Cell) (b : Bool) : Settles s (s.snapUnits u l b) :=
  of_hst (withHst_only s _) (fun h => by simp [State.snapUnits, h])

theorem settleDoor (s : State) (hd : ∀ a b d, u.door ≠ .fabric a b d) (c : Class) : Settles s (s.settleDoor u (.reached c)) := by
  unfold State.settleDoor
  split
  case h_1 p ld _ => exact of_hst (withHst_only s _) id
  case h_2 n _ _ => exact of_only (State.updCmd_only s n _) (by decide)
  case h_3 n st _ => exact of_only (State.updCmd_only s n _) (by decide)
  case h_4 a b d h => exact absurd h (hd a b d)
  all_goals exact refl s

theorem serveReads (h : s.hst.reads = []) : Settles s s.serveReads := by
  rw [serveReads_none h]
  exact refl s

end Settles

theorem afterShown_settles (hq : s.hst.reads = []) (hd : ∀ a b d, u.door ≠ .fabric a b d) (l : Tab Region) :
    Settles s (s.afterShown l u c) := by
  have h := (((((Settles.noted s u).trans (.lowered _ l u c)).trans (.tellTwin _ u c)).trans (.tally _ u c)).trans
    (.snapUnits _ u u.cells true)).trans (.settleDoor _ hd c)
  exact h.trans (.serveReads (h.reads hq))

/-- Plain data from no fabric packet, with no read waiting: its commit shows it, and what follows leaves the buffer as it is. -/
theorem commit_settles (ha : u.atomic = none) (hr : u.record = none) (hq : s.hst.reads = []) (hd : ∀ a b d, u.door ≠ .fabric a b d) :
    Settles (s.shown u c) (s.commit u c) := by
  rw [commit_eq ha hr]
  exact afterShown_settles (by exact hq) hd s.regions

/-! ### What is visible then -/

/-- The newest unit that covers an address decides what it reads as. -/
theorem State.byte_newest {l m : List (List Host.Cell)} {x : List Host.Cell} {a : Nat} {b : Byte} (h : s.visibleCells = l ++ x :: m)
    (hx : cellIn x a = some b) (hm : ∀ y ∈ m, cellIn y a = none) : s.byte a = b := by
  have hn : m.reverse.findSome? (fun cs => cellIn cs a) = none :=
    List.findSome?_eq_none_iff.mpr fun y hy => hm y (List.mem_reverse.mp hy)
  have he : s.visibleCells.reverse.findSome? (fun cs => cellIn cs a) = some b := by
    rw [h, List.reverse_append, List.reverse_cons, List.append_assoc, List.findSome?_append, hn, List.singleton_append, List.findSome?_cons, hx]
    rfl
  unfold State.byte
  rw [he]

theorem cellIn_mem {cs : List Host.Cell} {a : Nat} {b : Byte} (h : cellIn cs a = some b) : (a, b) ∈ cs := by
  unfold cellIn at h
  obtain ⟨e, he, hb⟩ := Option.map_eq_some_iff.mp h
  have ha : e.1 = a := by simpa using List.find?_some he
  rw [← hb, ← ha]
  exact List.mem_of_find?_eq_some he

/-- The committed unit in its place; the others as they were. -/
theorem shown_units {l m : List CUnit} (hn : s.unitsNumbered = true) (hl : s.pst.units = l ++ u :: m) :
    (s.shown u c).pst.units = l ++ { u with committed := true, reached := c } :: m := by
  obtain ⟨hnd, -⟩ := unitsNumbered_iff.mp hn
  rw [hl, List.map_append, List.map_cons, List.nodup_middle, List.nodup_cons, ← List.map_append] at hnd
  have hid : ∀ x ∈ l ++ m, (x.id == u.id) = false := fun x hx => by
    have h : x.id ≠ u.id := fun e => hnd.1 (e ▸ List.mem_map_of_mem hx)
    simpa using h
  have hkeep : ∀ k : List CUnit, k ⊆ l ++ m → updAll (fun x => x.id == u.id)
      (fun x => { x with committed := true, reached := c, cells := u.cells }) k = k := fun k hk =>
    (List.map_congr_left fun x hx => if_neg (by simp [hid x (hk hx)])).trans (List.map_id k)
  change updAll _ _ s.pst.units = _
  rw [hl, updAll, List.map_append, List.map_cons]
  refine congrArg₂ _ (hkeep l (List.subset_append_left l m)) (congrArg₂ _ (by simp) (hkeep m (List.subset_append_right l m)))

/-- What a unit shows at its commit: its data, but where a committed unit behind it covers the address too. -/
theorem commit_shows {l m : List CUnit} {a : Nat} {b : Byte} (h : Settles (s.shown u c) t) (hn : s.unitsNumbered = true)
    (hl : s.pst.units = l ++ u :: m) (hm : ∀ w ∈ m, w.committed = true → ∀ e ∈ u.cells, cellIn w.cells e.1 = none)
    (hx : cellIn u.cells a = some b) : t.byte a = b := by
  have hu : t.pst.units = l ++ { u with committed := true, reached := c } :: m := by
    rw [h.only .pst (by decide), shown_units hn hl]
  refine State.byte_newest (l := (t.phl.copies.filter (·.committed)).map (·.cells) ++ (l.filter (·.committed)).map (·.cells))
    (m := (m.filter (·.committed)).map (·.cells)) ?_ hx ?_
  · rw [State.visibleCells, hu, List.filter_append, List.map_append, List.filter_cons_of_pos (by rfl), List.map_cons, List.append_assoc]
  · intro y hy
    obtain ⟨w, hw, rfl⟩ := List.mem_map.mp hy
    obtain ⟨hwm, hwc⟩ := List.mem_filter.mp hw
    exact hm w hwm hwc _ (cellIn_mem hx)

end Commit
end Sys2Proof.Machine
end

section
/-! O52: two units of a region that share a line (02 R59). -/

namespace Sys2Proof.Machine

section Turn
variable {s t : State} {u v w : CUnit} {l₁ l₂ l₃ : List CUnit} {c : Class}

/-- A charged unit of the region that has not committed and shares a line stands before it. -/
def CUnit.blocks (u v : CUnit) : Prop := u.region = v.region ∧ u.charged = true ∧ u.committed = false ∧ u.overlaps v.dpa v.len = true

theorem linesTurn_blocked {l m : List CUnit} (hl : s.pst.units = l ++ m) (hid : ∀ x ∈ l, x.id ≠ v.id) (hu : u ∈ l) (h : u.blocks v) :
    s.linesTurn v = false := by
  obtain ⟨hr, hc, hn, ho⟩ := h
  have hin : u ∈ s.pst.units.takeWhile (fun w => w.id != v.id) := by
    rw [hl, List.takeWhile_append_of_pos (fun x hx => by simpa using hid x hx)]
    exact List.mem_append_left _ hu
  simp only [State.linesTurn, Bool.not_eq_false']
  exact List.any_eq_true.mpr ⟨u, hin, by simp [hr, hc, hn, ho]⟩

theorem regionTurn_blocked {l m : List CUnit} (hl : s.pst.units = l ++ m) (hid : ∀ x ∈ l, x.id ≠ v.id) (hu : u ∈ l) (h : u.blocks v) :
    s.regionTurn v = false := by
  obtain ⟨hr, hc, hn, -⟩ := h
  have hin : u ∈ s.pst.units.takeWhile (fun w => w.id != v.id) := by
    rw [hl, List.takeWhile_append_of_pos (fun x hx => by simpa using hid x hx)]
    exact List.mem_append_left _ hu
  simp only [State.regionTurn, Bool.not_eq_false']
  exact List.any_eq_true.mpr ⟨u, hin, by simp [hr, hc, hn]⟩

/-- What holds up a region holds up its lines (R56, R59). -/
theorem linesTurn_of_regionTurn (h : s.regionTurn v = true) : s.linesTurn v = true := by
  simp only [State.regionTurn, State.linesTurn, Bool.not_eq_true', List.any_eq_false, Bool.and_eq_true, not_and] at *
  exact fun x hx ⟨hrc, hn⟩ _ => h x hx hrc hn

theorem commit_when_volatile (hf : s.pst.units.find? (fun w => w.id == v.id) = some v) (hv : v.volatile = true) (hr : s.running .pst = true) :
    exec (.commitUnit v.id) s = .next (s.landD0 v.id) := by
  change execCommitUnit v.id s = _
  simp only [execCommitUnit, hf, hv, if_true]
  exact when_pos hr _ _

/-- A unit that can reach no class now commits not, and fails only in a REFUSE region in its turn (R66). -/
theorem commit_when_unreachable (hf : s.pst.units.find? (fun w => w.id == v.id) = some v) (hv : v.volatile = false) (hm : s.modeOut v = false)
    (ha : v.away = false) (hc : s.reachable v = none) : exec (.commitUnit v.id) s =
      when_ (s.running .pst && s.unitRefused v) s (s.failUnit v ST.nomirror).releaseSpace := by
  change execCommitUnit v.id s = _
  simp only [execCommitUnit, hf, hv, hm, ha, hc, Bool.false_eq_true, if_false, false_and]

/-- A unit that can reach class `c` commits there once it is ready (R56). -/
theorem commit_when_reachable (hf : s.pst.units.find? (fun w => w.id == v.id) = some v) (hv : v.volatile = false) (hm : s.modeOut v = false)
    (ha : v.away = false) (hc : s.reachable v = some c) : exec (.commitUnit v.id) s =
      when_ (s.running .pst && s.commitReady v) s (s.commit v c).runHmaps := by
  change execCommitUnit v.id s = _
  simp only [execCommitUnit, hf, hv, hm, ha, hc, Bool.false_eq_true, if_false, false_and]

/-! ### The later unit waits -/

/-- A unit that is held up and is no D0 unit neither commits nor fails. -/
theorem ordered_waits (hf : s.pst.units.find? (fun w => w.id == v.id) = some v) (hv : v.volatile = false) (hm : s.modeOut v = false)
    (ha : v.away = false) (ht : s.regionTurn v = false) : exec (.commitUnit v.id) s = .next s := by
  cases hc : s.reachable v with
  | none =>
    rw [commit_when_unreachable hf hv hm ha hc]
    exact when_neg (by simp [State.unitRefused, ht]) _ _
  | some c =>
    rw [commit_when_reachable hf hv hm ha hc]
    exact when_neg (by simp [State.commitReady, ht]) _ _

/-- What `landD0` leaves of a D0 unit that is held up: at most it takes its position. -/
theorem landD0_waits (hf : s.pst.units.find? (fun w => w.id == v.id) = some v) (hm : s.modeOut v = false)
    (ht : v.charged = true → s.linesTurn v = false)
    (hp : ∀ w, (s.enroll v).pumpMirror.pst.units.find? (fun w => w.id == v.id) = some w → (s.enroll v).pumpMirror.linesTurn w = false) :
    s.landD0 v.id = s ∨ v.charged = false ∧ s.landD0 v.id = (s.enroll v).pumpMirror := by
  simp only [State.landD0, hf, hm, Bool.false_eq_true, if_false]
  split
  · exact .inl rfl
  · cases hc : v.charged with
    | true =>
      left
      simp [hf, ht hc]
    | false =>
      refine .inr ⟨rfl, ?_⟩
      simp only [Bool.false_eq_true, if_false]
      split
      next w hw => simp [hp w hw]
      next => rfl

theorem SentUnits.split {l₁ l₂ m : List CUnit} (h : SentUnits (l₁ ++ l₂) m) : ∃ m₁ m₂, m = m₁ ++ m₂ ∧ SentUnits l₁ m₁ ∧ SentUnits l₂ m₂ :=
  ⟨m.take l₁.length, m.drop l₁.length, (List.take_append_drop _ m).symm, (List.forall₂_take_append m l₁ l₂ h.flip).flip,
    (List.forall₂_drop_append m l₁ l₂ h.flip).flip⟩

theorem CUnit.SentAs.id_eq (h : u.SentAs w) : w.id = u.id := by rw [h]

/-- The unit takes its position behind those that stand, and copies go out: an earlier unit that has not committed still stands before it. -/
theorem enrolled_blocked (hu : u ∈ s.pst.units) (hid : u.id ≠ v.id) (h : u.blocks v)
    (hw : (s.enroll v).pumpMirror.pst.units.find? (fun w => w.id == v.id) = some w) : (s.enroll v).pumpMirror.linesTurn w = false := by
  have hs := (pumpMirror_pumps (s.enroll v)).units
  rw [enroll_units] at hs
  obtain ⟨m₁, m₂, hm, h₁, h₂⟩ := hs.split
  have hwid : w.id = v.id := by simpa using List.find?_some hw
  have hout : ∀ x ∈ m₁, x.id ≠ w.id := fun x hx => by
    obtain ⟨y, hy, hsent⟩ := h₁.mem' hx
    rw [hsent.id_eq, hwid]
    simpa using (List.mem_filter.mp hy).2
  have hwv : (s.enrolled v).SentAs w := by
    have hin : w ∈ m₂ := (List.mem_append.mp (hm ▸ List.mem_of_find?_eq_some hw)).resolve_left fun h => hout w h rfl
    obtain ⟨y, hy, hsent⟩ := h₂.mem' hin
    rwa [List.mem_singleton.mp hy] at hsent
  obtain ⟨x, hx, hsent⟩ := h₁.mem (List.mem_filter.mpr ⟨hu, by simpa using hid⟩)
  refine linesTurn_blocked hm hout hx ?_
  rw [hwv, hsent]
  exact h

/-- R59: the later unit has not committed. -/
theorem commitUnit_waits (hr : s.running .pst = true) (hn : s.unitsNumbered = true) (hl : s.pst.units = l₁ ++ v :: l₂) (hu : u ∈ l₁)
    (hb : u.blocks v) (ha : v.away = false) (hc : v.committed = false) (hm : s.modeOut v = false) :
    Gives (.commitUnit v.id) s (fun t => (v.volatile = false ∨ v.charged = true → t = s) ∧ ∀ w ∈ t.pst.units, w.id = v.id → w.committed = false) := by
  have hv : v ∈ s.pst.units := by rw [hl]; simp
  have hf := s.find_unit hn hv
  have hid := s.ids_before hn hl
  have hstay : ∀ w ∈ s.pst.units, w.id = v.id → w.committed = false := fun w hw he => s.unit_eq hn hw hv he ▸ hc
  cases hvol : v.volatile with
  | false => exact ⟨s, ordered_waits hf hvol hm ha (regionTurn_blocked hl hid hu hb), fun _ => rfl, hstay⟩
  | true =>
    refine ⟨_, commit_when_volatile hf hvol hr, ?_⟩
    rcases landD0_waits hf hm (fun _ => linesTurn_blocked hl hid hu hb)
      (fun w => enrolled_blocked (by rw [hl]; simp [hu]) (hid u hu) hb) with he | ⟨hch, he⟩ <;> rw [he]
    · exact ⟨fun _ => rfl, hstay⟩
    · refine ⟨by simp [hch], fun w hw he => ?_⟩
      obtain ⟨x, hx, hsent⟩ := (pumpMirror_pumps (s.enroll v)).units.mem' hw
      have hxc : x.committed = false := by
        rcases List.mem_append.mp (enroll_units s v ▸ hx) with hx | hx
        · exact absurd (hsent.id_eq ▸ he) (by simpa using (List.mem_filter.mp hx).2)
        · rw [List.mem_singleton.mp hx]; exact hc
      rw [hsent]
      exact hxc

/-! ### The later unit commits -/

/-- A D0 unit whose turn has come commits. -/
theorem landD0_ready (hf : s.pst.units.find? (fun w => w.id == v.id) = some v) (hv : v.volatile = true) (hm : s.modeOut v = false)
    (hrdy : s.commitReady v = true) (hh : v.hold = .none) (hfw : v.forwarded = true → v.msn.isSome = true) : s.landD0 v.id = s.commit v .d0 := by
  simp only [State.commitReady, Bool.and_eq_true, Bool.not_eq_true'] at hrdy
  obtain ⟨⟨⟨⟨⟨⟨⟨⟨hc, hw⟩, hch⟩, -⟩, -⟩, hchain⟩, -⟩, ht⟩, hd⟩ := hrdy
  have hsent : (v.forwarded && v.msn.isNone) = false := by
    cases h : v.forwarded with
    | false => rfl
    | true => simpa [Option.isNone_iff_eq_none, Option.isSome_iff_ne_none] using hfw h
  simp [State.landD0, hf, hv, hw, hc, hchain, hh, hd, hm, hch, hsent, linesTurn_of_regionTurn ht]

/-- The unit commits, and nothing that follows touches the buffer. -/
theorem commitUnit_settles (hr : s.running .pst = true) (hn : s.unitsNumbered = true) (hv : v ∈ s.pst.units)
    (hrdy : s.commitReady v = true) (hm : s.modeOut v = false) (hrc : s.reachable v = some c) (hq : s.hst.reads = []) (hrec : v.record = none)
    (hat : v.atomic = none) (hhm : s.phl.hmapIn = []) (hvol : v.volatile = true → v.hold = .none ∧ (v.forwarded = true → v.msn.isSome = true))
    (hd : ∀ a b d, v.door ≠ .fabric a b d) : Gives (.commitUnit v.id) s (fun t => ∃ c, Settles (s.shown v c) t) := by
  have hf := s.find_unit hn hv
  have ha : v.away = false := by
    have h := hrdy
    simp only [State.commitReady, Bool.and_eq_true, Bool.not_eq_true'] at h
    obtain ⟨⟨⟨⟨⟨⟨-, ha⟩, -⟩, -⟩, -⟩, -⟩, -⟩ := h
    exact ha
  have hs : ∀ d, Settles (s.shown v d) (s.commit v d) := fun d => commit_settles hat hrec hq hd
  cases hv : v.volatile with
  | true =>
    obtain ⟨hh, hfw⟩ := hvol hv
    refine ⟨_, commit_when_volatile hf hv hr, .d0, ?_⟩
    rw [landD0_ready hf hv hm hrdy hh hfw]
    exact hs .d0
  | false =>
    refine ⟨(s.commit v c).runHmaps, ?_, c, ?_⟩
    · rw [commit_when_reachable hf hv hm ha hrc]
      exact when_pos (by simp [hr, hrdy]) _ _
    · rw [runHmaps_none ((hs c).hmapIn.trans hhm)]
      exact hs c

/-! ### The later unit's data stays above the earlier unit's -/

/-- A committed unit that shares a line and still stands keeps a later one from being placed. -/
theorem placement_waits {l m : List CUnit} (hn : s.unitsNumbered = true) (hl : s.pst.units = l ++ v :: m) (hu : u ∈ l) (hc : u.committed = true)
    (ho : u.overlaps v.dpa v.len = true) : exec (.placement false v.id) s = .next s := by
  have ht : s.placeTurn v = false := by
    have h : (s.pst.units.takeWhile (fun w => w.id != v.id)).any (fun w => w.committed && w.overlaps v.dpa v.len) = true := by
      rw [s.before_unit hn hl]
      exact List.any_eq_true.mpr ⟨u, hu, by simp [hc, ho]⟩
    simp [State.placeTurn, h]
  change execPlacement false v.id s = _
  simp only [execPlacement, s.find_unit hn (show v ∈ s.pst.units by rw [hl]; simp), Bool.false_eq_true, if_false, State.placeUnit]
  split
  · rfl
  · exact when_neg (by simp [ht]) _ _

end Turn
end Sys2Proof.Machine
end

section
open Sys2Proof Sys2Proof.Machine

/-- Settles O52: the earlier unit closes the turn of its region, and of its line, until it commits; the later one's data stands behind it in
the buffer, so a read finds it first, and it is not placed while the earlier unit stands there. -/
theorem laterUnitReplacesEarlier : Obligations.LaterUnitReplacesEarlier := by
  unfold Obligations.LaterUnitReplacesEarlier
  intro s u v l₁ l₂ l₃ hr hn hl hreg hch _ hva ho
  have hin : u ∈ l₁ ++ u :: l₂ := by simp
  refine ⟨fun huc hvc hm => commitUnit_waits hr hn hl hin ⟨hreg, hch, huc, ho⟩ hva hvc hm, ?_, ?_⟩
  · intro c _ hrdy hm hrc hq hrec hat hhm hvol hd hcov
    have hv : v ∈ s.pst.units := by rw [hl]; simp
    obtain ⟨t, ht, d, hs⟩ := commitUnit_settles hr hn hv hrdy hm hrc hq hrec hat hhm hvol hd
    refine ⟨t, ht, ⟨{ v with committed := true, reached := d }, ?_, rfl, rfl⟩, fun a b => commit_shows hs hn hl hcov⟩
    rw [hs.only .pst (by decide), shown_units hn hl]
    simp
  · exact fun huc _ => ⟨s, placement_waits hn hl hin huc ho, rfl⟩

end

section
/-! SUPPORT. Operations of a strand: how one becomes outstanding, and what a write that is admitted whole does
(05 R141, R143, R147, R154). -/

namespace Sys2Proof.Machine

section Outstanding
variable {s t v : State} {k : SlotNo} {x : Iss} {o : Op}

/-- The instruction has become outstanding as operation `o`, and its strand stands at the next index. -/
structure Begun (s t : State) (x : Iss) (o : Op) : Prop where
  slot : OnlySlot s t x
  strand : StrandIs t x (x.framesAt (x.pc + 1)) x.st.reg
  cmd : ∃ c, t.cmdOf x.st.cmd = some c ∧ c.steps = x.c.steps + 1 ∧ c.nextOp = x.c.nextOp + 1 ∧ c.ops = x.c.ops ++ [o] ∧
    c.accepted = x.c.accepted

/-- The state in which operation `o` is outstanding. -/
def State.taken (s : State) (x : Iss) (o : Op) : State :=
  ((s.issued x).updCmd x.st.cmd (fun c => { c with ops := c.ops ++ [o], nextOp := c.nextOp + 1 })).updStrand x.k
    (fun y => { y with frames := x.framesAt (x.pc + 1) })

theorem addOp_eq (h : CanIssue s k x) (hn : HasWord s x (x.pc + 1)) (o : Op) : (s.issued x).addOp x o = s.taken x o := by
  have e : ((s.issued x).updCmd x.st.cmd (fun c => { c with ops := c.ops ++ [o], nextOp := c.nextOp + 1 })).strandAt x.k = some (x.now s) :=
    State.issued_strand h
  unfold State.addOp
  rw [State.goto_has e (State.topHas_of hn (State.issued_procs s x) rfl)]
  rfl

/-- Within PE, the near cache and the registers, the states may differ; in the rest they are the same. -/
def Works (s t : State) : Prop := t = { s with pe := t.pe, nc := t.nc, regs := t.regs }

theorem Works.trans (h : Works s t) (h' : Works t v) : Works s v := by
  unfold Works at *
  rw [h', h]

/-- What does not look at those parts is the same. -/
theorem Works.congr {α : Type} (h : Works s t) (f : State → α) (hf : ∀ p n r, f { s with pe := p, nc := n, regs := r } = f s) : f t = f s := by
  unfold Works at h
  rw [h]
  exact hf _ _ _

theorem Works.updStrand (s : State) (k : Nat) (f : Strand → Strand) : Works s (s.updStrand k f) := rfl
theorem Works.updCmd (s : State) (c : Nat) (f : Cmd → Cmd) : Works s (s.updCmd c f) := rfl
theorem Works.updOp (s : State) (c n : Nat) (f : Op → Op) : Works s (s.updOp c n f) := rfl
theorem Works.counted (s : State) (k c : Nat) : Works s (s.counted k c) := rfl
theorem Works.withRegs (s : State) (r : Tab Word) : Works s (s.withRegs r) := rfl

theorem Works.bump (s : State) (f : Fld) : Works s (s.bump f) := .withRegs s _
theorem Works.flag (s : State) (f : Fld) : Works s (s.flag f) := .withRegs s _

theorem Works.countEvent (s : State) (code n : Nat) (ten un : Option Nat) : Works s (s.countEvent code n ten un) := by
  unfold State.countEvent
  exact .withRegs s _

theorem issued_works (s : State) (x : Iss) : Works s (s.issued x) := (Works.counted s _ _).trans (.countEvent _ _ _ _ _)

theorem taken_works (s : State) (x : Iss) (o : Op) : Works s (s.taken x o) := by
  unfold State.taken
  exact ((issued_works s x).trans (.updCmd _ _ _)).trans (.updStrand _ _ _)

theorem taken_only (s : State) (x : Iss) (o : Op) : OnlyParts [.pe, .pmu] s (s.taken x o) :=
  (s.issued_only x).trans (((State.updCmd_only _ _ _).trans (State.updStrand_only _ _ _)).mono (by decide))

/-- Within PE and the performance counters the states may differ; in the rest they are the same. -/
structure Same (s t : State) : Prop where
  works : Works s t
  nc : t.nc = s.nc
  raw : ∀ a, isPmu a = false → t.raw a = s.raw a

/-- What does not look at those parts is the same. -/
theorem Same.congr {α : Type} (h : Same s t) (f : State → α) (hf : ∀ p r, f { s with pe := p, regs := r } = f s) : f t = f s := by
  have e := h.works
  unfold Works at e
  rw [e, h.nc]
  exact hf _ _

theorem Same.fld (h : Same s t) {f : Fld} (hf : isPmu f.addr = false) : t.fld f = s.fld f := State.fld_of_raw (h.raw _ hf)

theorem Same.on (h : Same s t) {f : Fld} (hf : isPmu f.addr = false) : t.on f = s.on f := by rw [State.on, State.on, h.fld hf]

theorem issued_same (s : State) (x : Iss) : Same s (s.issued x) :=
  ⟨issued_works s x, s.issued_only x .nc (by decide), s.issued_only x .regs (by decide)⟩

theorem taken_same (s : State) (x : Iss) (o : Op) : Same s (s.taken x o) :=
  ⟨taken_works s x o, taken_only s x o .nc (by decide), taken_only s x o .regs (by decide)⟩

theorem taken_begun (h : CanIssue s k x) (o : Op) : Begun s (s.taken x o) x o where
  slot := ⟨fun j hj => (State.strandAt_updStrand_ne _ _ hj).trans (s.issued_strand_ne x hj),
    fun c hc => by
      rw [State.taken, State.cmdOf_updStrand, State.cmdOf_updCmd_ne _ _ hc, s.issued_cmd_ne x hc], s.issued_qps x, s.issued_procs x⟩
  strand := by
    have e : (s.taken x o).strandAt x.k = some { x.now s with frames := x.framesAt (x.pc + 1) } := by
      simp [State.taken, State.issued_strand h]
    obtain ⟨-, -, -, -, -, -, -, hsp, hd, -⟩ := h
    exact ⟨_, e, rfl, fun _ _ => rfl, rfl, rfl, rfl, rfl, rfl, rfl, hsp, hd⟩
  cmd := ⟨{ x.c with steps := x.c.steps + 1, ops := x.c.ops ++ [o], nextOp := x.c.nextOp + 1 }, by
    simp [State.taken, State.issued_cmd h], rfl, rfl, rfl, rfl⟩

namespace Begun

theorem of_pe (h : Begun s t x o) (hp : v.pe = t.pe) : Begun s v x o := by
  have hs : ∀ j, v.strandAt j = t.strandAt j := fun j => by rw [State.strandAt, State.strandAt, hp]
  have hc : ∀ j, v.cmdOf j = t.cmdOf j := fun j => by rw [State.cmdOf, State.cmdOf, hp]
  obtain ⟨⟨h₁, h₂, h₃, h₄⟩, hst, hcmd⟩ := h
  refine ⟨⟨fun j hj => (hs j).trans (h₁ j hj), fun c hj => (hc c).trans (h₂ c hj), hp ▸ h₃, hp ▸ h₄⟩, ?_, ?_⟩
  · simpa only [StrandIs, hs] using hst
  · simpa only [hc] using hcmd

/-- A change of the command that leaves its steps, its numbering and its acceptance. -/
theorem updCmd (h : Begun s t x o) {f : Cmd → Cmd} {o' : Op} (hf : ∀ c, c.ops = x.c.ops ++ [o] →
    (f c).steps = c.steps ∧ (f c).nextOp = c.nextOp ∧ (f c).ops = x.c.ops ++ [o'] ∧ (f c).accepted = c.accepted) :
    Begun s (t.updCmd x.st.cmd f) x o' := by
  obtain ⟨⟨h₁, h₂, h₃, h₄⟩, hst, c, hc, hsteps, hnext, hops, hacc⟩ := h
  obtain ⟨e₁, e₂, e₃, e₄⟩ := hf c hops
  exact ⟨⟨h₁, fun d hd => (State.cmdOf_updCmd_ne t f hd).trans (h₂ d hd), h₃, h₄⟩, hst, f c, by simp [hc], e₁.trans hsteps, e₂.trans hnext, e₃,
    e₄.trans hacc⟩

/-- The newest operation changes; the others, which bear other numbers, stay. -/
theorem updOp (h : Begun s t x o) (hfr : FreshOp x) (hid : o.id = x.c.nextOp) (f : Op → Op) : Begun s (t.updOp x.st.cmd x.c.nextOp f) x (f o) := by
  refine h.updCmd fun c hc => ⟨rfl, rfl, ?_, rfl⟩
  have hold : updAll (fun p : Op => p.id == x.c.nextOp) f x.c.ops = x.c.ops :=
    (List.map_congr_left fun p hp => if_neg (by simpa using hfr p hp)).trans (List.map_id _)
  show updAll _ _ c.ops = _
  rw [hc, updAll, List.map_append]
  exact congrArg₂ _ hold (by simp [hid])

theorem outstanding (h : Begun s t x o) {p : Op → Prop} (hid : o.id = x.c.nextOp) (hop : o.opcode = x.i.op.toNat) (hpc : o.pc = x.pc)
    (hd : o.dest = x.i.dest) (hq : o.quiet = x.i.q) (hp : p o) : Outstanding t x p := by
  obtain ⟨c, hc, hsteps, hnext, hops, -⟩ := h.cmd
  exact ⟨h.strand, c, o, hc, hsteps, hnext, hops, hid, hop, hpc, hd, hq, hp⟩

end Begun

theorem issued_mode (s : State) (x : Iss) : (s.issued x).mod = s.mod := s.issued_only x .mod (by decide)

theorem issued_checks (s : State) (x : Iss) (accs : List Acc) (keyOk lenOk : Bool) :
    (s.issued x).checks x.st accs keyOk lenOk = s.checks x.st accs keyOk lenOk :=
  (issued_same s x).congr (fun s => s.checks x.st accs keyOk lenOk) fun _ _ => rfl

/-- Its checks passed, an instruction becomes outstanding and makes what progress it can. -/
theorem begin_passes {accs : List Acc} {keyOk lenOk : Bool} (h : CanIssue s k x) (hn : HasWord s x (x.pc + 1)) (hp : Passes s x accs keyOk lenOk)
    (o : Op) (adv : State → Nat → Op → State) : (s.issued x).begin_ x accs keyOk lenOk o adv = adv (s.taken x o) x.st.cmd o := by
  obtain ⟨hm, hc, hz⟩ := hp
  simp only [State.begin_, issued_mode, hm, issued_checks, hc, hz, Bool.false_eq_true, if_false]
  rw [addOp_eq h hn]

/-! ### Completion at issue -/

/-- The registers of an instruction that completes at issue with ST_OK: its value and status, unless it is quiet (R143). -/
def Iss.regsDone (x : Iss) (w : Option Word) (cls m : Nat) : Word :=
  if x.i.q then x.st.reg m else if m = 31 then s31Word 0 cls else if m = x.i.dest ∧ m ≠ 0 then w.getD (x.st.reg m) else x.st.reg m

theorem Iss.now_reg (s : State) (x : Iss) (m : Nat) : (x.now s).reg m = x.st.reg m := rfl

/-- The strand has its result, and goes on. -/
theorem goto_completes {w : Option Word} {cls : Nat} {st : Strand} (hn : HasWord s x (x.pc + 1)) (hs : OnlySlot s t x) (hc : Counted t x)
    (ho : OnlyParts [.pe, .pmu] s t) (hst : t.strandAt x.k = some st) (hf : st.frames = x.st.frames) (hr : ∀ m < 32, st.reg m = x.regsDone w cls m) :
    CompletesNow s (t.goto x.k (x.pc + 1)) x [] w cls := by
  obtain ⟨h₁, h₂, h₃, h₄⟩ := hs
  rw [State.goto_has hst (State.topHas_of hn h₄ hf), Strand.framesTo_eq hf]
  exact ⟨⟨fun j hj => (State.strandAt_updStrand_ne _ _ hj).trans (h₁ j hj), h₂, h₃, h₄⟩, hc,
    ho.trans ((State.updStrand_only _ _ _).mono (by decide)), _, (State.strandAt_updStrand_self _ _ _).trans (congrArg _ hst), rfl, hr⟩

theorem finishNow_completes (h : CanIssue s k x) (hn : HasWord s x (x.pc + 1)) (w : Option Word) (cls : Nat) :
    CompletesNow s ((s.issued x).finishNow x ⟨0, w, cls⟩) x [] w cls := by
  have hs := s.issued_onlySlot x
  have ⟨h₁, h₂, h₃, h₄⟩ := hs
  unfold State.finishNow
  rw [if_neg (by decide : ¬ ST.ends 0 = true)]
  cases hq : x.i.q with
  | true => exact goto_completes hn hs (State.issued_cmd h) (s.issued_only x) (State.issued_strand h) rfl (by simp [Iss.regsDone, hq]; exact fun _ _ => rfl)
  | false =>
    have hd : ∀ f : Strand → Strand, OnlySlot s ((s.issued x).updStrand x.k f) x := fun f =>
      ⟨fun j hj => (State.strandAt_updStrand_ne _ _ hj).trans (h₁ j hj), h₂, h₃, h₄⟩
    simp only [Bool.false_eq_true, if_false, State.deliver_]
    rw [if_neg (by decide)]
    refine goto_completes hn (hd _) (State.issued_cmd h) ((s.issued_only x).trans ((State.updStrand_only _ _ _).mono (by decide)))
      ((State.strandAt_updStrand_self _ _ _).trans (congrArg _ (State.issued_strand h))) (by cases w <;> simp [Iss.now]) fun m hm => ?_
    have h0 : m = x.i.dest ∧ m ≠ 0 ↔ m = x.i.dest ∧ x.i.dest ≠ 0 := and_congr_right fun e => by rw [e]
    rw [Strand.reg_setReg _ _ _ _ hm, Iss.regsDone]
    simp only [hq, h0]
    cases w with
    | none => simp [Iss.now_reg]
    | some w => simp [Strand.reg_setReg _ _ _ _ hm, Iss.now_reg]

/-- A register length of zero: the instruction is complete (R141). -/
theorem begin_empty {accs : List Acc} {keyOk lenOk : Bool} (h : CanIssue s k x) (hn : HasWord s x (x.pc + 1))
    (hm : modeRefuses s.mod.mode x.i.opn = false) (hc : s.checks x.st accs keyOk lenOk = none) (hz : x.zeroLen = true)
    (o : Op) (adv : State → Nat → Op → State) : CompletesNow s ((s.issued x).begin_ x accs keyOk lenOk o adv) x [] none 0 := by
  simp only [State.begin_, issued_mode, hm, issued_checks, hc, hz, Bool.false_eq_true, if_false, if_true]
  exact finishNow_completes h hn none 0

end Outstanding

/-! ### One unit of a write -/

theorem splitRange_one {lo n : Nat} (hn : 0 < n) (h : lo % 4096 + n ≤ 4096) : splitRange lo n = [(lo, n)] := by
  have hd : (lo + n - 1) / 4096 = lo / 4096 := by omega
  unfold splitRange
  rw [if_neg (by omega), hd, Nat.sub_self]
  simp only [Nat.zero_add, List.range_one, List.map_cons, List.map_nil, Nat.add_zero]
  congr 2 <;> omega

theorem cellsAt_range {lo a : Nat} {l : List Byte} {e : Host.Cell} (h : e ∈ cellsAt a l) (hlo : lo ≤ a) : lo ≤ e.1 ∧ e.1 < a + l.length := by
  induction l generalizing a with
  | nil => exact absurd h List.not_mem_nil
  | cons b l ih =>
    rcases List.mem_cons.mp h with rfl | h
    · simp [hlo]
    · obtain ⟨h₁, h₂⟩ := ih h (Nat.le_succ_of_le hlo)
      exact ⟨h₁, by simp only [List.length_cons]; omega⟩

theorem cellsAt_filter (a : Nat) (l : List Byte) :
    (cellsAt a l).filter (fun x => decide (a ≤ x.1) && decide (x.1 < a + l.length)) = cellsAt a l := by
  refine List.filter_eq_self.mpr fun e he => ?_
  obtain ⟨h₁, h₂⟩ := cellsAt_range he (Nat.le_refl a)
  simp [h₁, h₂]

section Write
variable {s t : State} {x : Iss} {o : Op} {u : CUnit} {d : OpDone}

/-- The unit that comes next joins its operation and its command's history. -/
def State.joins (s : State) (c op region : Nat) : State :=
  (s.updCmd c (fun c => { c with hist := c.hist ++ [{ id := s.pst.nextUnit, op := op, region := region, settle := .pending, reported := false }] })).updOp
    c op (fun o => { o with units := o.units ++ [s.pst.nextUnit] })

theorem joins_only (s : State) (c op n : Nat) : OnlyParts [.pe] s (s.joins c op n) :=
  (State.updCmd_only _ _ _).trans (State.updOp_only _ _ _ _)

theorem admitFor_eq (s : State) (c op : Nat) (u : CUnit) : s.admitFor c op u =
    ((s.joins c op u.region).admitUnit { u with pooled := s.getTenant c op }).countEvent 0x043 ((u.len + 63) / 64) (some u.tenant) none := rfl

theorem Begun.joins (h : Begun s t x o) (hfr : FreshOp x) (hid : o.id = x.c.nextOp) (n : Nat) :
    Begun s (t.joins x.st.cmd x.c.nextOp n) x { o with units := o.units ++ [t.pst.nextUnit] } :=
  (h.updCmd (o' := o) (f := fun c => { c with hist := c.hist ++ [⟨t.pst.nextUnit, x.c.nextOp, n, .pending, false⟩] })
    fun _ hc => ⟨rfl, rfl, hc, rfl⟩).updOp hfr hid (fun o => { o with units := o.units ++ [t.pst.nextUnit] })

/-- A unit of the operation is admitted: it stands in the buffer under the next number, and nothing reads differently. -/
structure AdmittedFor (s t v : State) (x : Iss) (o : Op) (lo : Nat) (bytes : List Byte) (cls : Class) (door : Door) : Prop where
  unit : AdmitsUnit t v lo bytes cls door
  begun : Begun s v x { o with units := o.units ++ [t.pst.nextUnit] }
  only : OnlyParts (.pe :: admission) t v
  regs : RegsBut admissionRegs t v

theorem admitFor_effect {bytes : List Byte} (hb : Begun s t x o) (hfr : FreshOp x) (hid : o.id = x.c.nextOp) (hn : t.unitsNumbered = true)
    (hc : u.committed = false) (ha : u.atomic = none) (hl : u.len = bytes.length) (hcells : u.cells = cellsAt u.dpa bytes) :
    AdmittedFor s t (t.admitFor x.st.cmd x.c.nextOp u) x o u.dpa bytes u.cls u.door := by
  rw [admitFor_eq]
  generalize t.getTenant x.st.cmd x.c.nextOp = p
  obtain ⟨ho, hr, hnext, w, hw, hin⟩ := admitUnit_effect (s := t.joins x.st.cmd x.c.nextOp u.region) (u := { u with pooled := p }) hn hc
  have hce := State.countEvent_only ((t.joins x.st.cmd x.c.nextOp u.region).admitUnit { u with pooled := p }) 0x043 ((u.len + 63) / 64) (some u.tenant) none
  have hpst := hce .pst (by decide)
  refine ⟨⟨?_, w, ?_, ?_⟩, ?_, ?_, ?_⟩
  · rw [hpst]; exact hnext
  · rw [hpst]; exact hw
  · rw [hin]
    exact ⟨rfl, rfl, hl, hcells, rfl, rfl, ha, hc⟩
  · exact (hb.joins hfr hid u.region).of_pe ((hce .pe (by decide)).trans (ho .pe (by decide)))
  · exact (((joins_only t x.st.cmd x.c.nextOp u.region).comp ho).comp hce).mono (by decide)
  · exact (RegsBut.of_regs rfl _).trans (hr.trans fun a _ hp => hce .regs (by decide) a hp)

/-- Counters and error records of the near cache. -/
def ncRegs : List Nat := [Addr.NC_CNT0, Addr.NC_CNT1, Addr.NC_ERR]

theorem ingressRoom_congr (hp : t.pst = s.pst) (hr : RegsBut ncRegs s t) (n : Nat) : t.ingressRoom n = s.ingressRoom n := by
  have hk : t.creditedKib = s.creditedKib := State.creditedKib_congr fun g hg =>
    State.fld_of_raw (hr _ ((by decide : ∀ g ∈ creditFlds, g.addr ∉ ncRegs) g hg) ((by decide : ∀ g ∈ creditFlds, isPmu g.addr = false) g hg))
  unfold State.ingressRoom State.uncreditedBytes State.openKib
  rw [hk, hp]

/-- Operation `o` is outstanding, and what admission looks at is as it was. -/
structure Prepared (s t : State) (x : Iss) (o : Op) : Prop where
  begun : Begun s t x o
  works : Works s t
  regs : RegsBut ncRegs s t

theorem Prepared.pst (h : Prepared s t x o) : t.pst = s.pst := by rw [h.works]
theorem Prepared.regions (h : Prepared s t x o) : t.regions = s.regions := by rw [h.works]

theorem taken_prepared {k : SlotNo} (h : CanIssue s k x) (o : Op) : Prepared s (s.taken x o) x o :=
  ⟨taken_begun h o, taken_works s x o, fun a _ hp => taken_only s x o .regs (by decide) a hp⟩

/-- The writes of an operation that stands alone may be admitted: nothing earlier of its strand holds them (R158). -/
theorem mayAdmit_alone {c : Cmd} {n lo len : Nat} (h : Prepared s t x o) (hw : WritesOne s x n lo len) (hl : o.len = len)
    (hops : c.ops = x.c.ops ++ [o]) (hacc : c.accepted = x.c.accepted) : t.mayAdmit c o = true := by
  obtain ⟨ha, hno, ⟨hx, hroom⟩, -⟩ := hw
  have hx' : t.xingReady (xingKey 12 true .pe) = true := (h.works.congr (fun s => s.xingReady (xingKey 12 true .pe)) fun _ _ _ => rfl).trans hx
  have hroom' : t.ingressRoom o.len = true := by rw [ingressRoom_congr h.pst h.regs, hl]; exact hroom
  simp [State.mayAdmit, fenceHolds, earlierWrite, hops, hno, hacc, ha, hx', hroom']

/-- The operation as its writes are admitted; `d` is what it completes with. -/
def Op.admits (o : Op) (d : OpDone) : Op := { o with phase := .units, done := some d }

/-- Bytes for a region that takes them as one unit. -/
theorem runWrite_eq {c : Cmd} {r : Region} {lo : Nat} {bytes : List Byte} (hc : t.cmdOf x.st.cmd = some c) (hr : Tab.get t.regions o.region = some r)
    (hmay : t.mayAdmit c o = true) (hdata : t.noDataAt r lo bytes.length = false) (hflat : (r.atomic && !r.sealed) = false)
    (hpos : 0 < bytes.length) (hfits : lo % 4096 + bytes.length ≤ 4096) :
    let s1 := t.updOp x.st.cmd o.id (fun o => o.admits d)
    t.runWrite x.st.cmd o (.data lo bytes d) =
      s1.admitFor x.st.cmd o.id (o.piece x.st.cmd o.region r (lo, bytes.length) (cellsAt lo bytes) (o.classFor r) s1) := by
  simp only [State.runWrite, hc, hr, hmay, Bool.not_true, Bool.false_eq_true, if_false]
  rw [if_neg (by simp [hdata]), State.writeUnits, if_neg (Nat.ne_of_gt hpos), if_neg (by rw [hflat]; decide), splitRange_one hpos hfits]
  rfl

/-- A write of one unit takes its effect: the unit is admitted, and the operation waits for it to settle (R154). -/
theorem runWrite_one {lo : Nat} {bytes : List Byte} (h : Prepared s t x o) (hid : o.id = x.c.nextOp) (hw : WritesOne s x o.region lo bytes.length)
    (hl : o.len = bytes.length) : AdmittedFor s t (t.runWrite x.st.cmd o (.data lo bytes d)) x (o.admits d) lo bytes
      (s.classAt o.region o.cls) (.strand x.st.cmd x.c.nextOp) := by
  obtain ⟨c, hc, -, -, hops, hacc⟩ := h.begun.cmd
  have hmay := mayAdmit_alone h hw hl hops hacc
  obtain ⟨-, hno, -, hn, hpos, hfits, hreg⟩ := hw
  have hfr : FreshOp x := fun p hp => absurd hp (by simp [hno])
  cases hr : Tab.get s.regions o.region with
  | none => simp [hr] at hreg
  | some r =>
    simp only [hr, Option.any_some, Bool.and_eq_true, Bool.not_eq_true'] at hreg
    obtain ⟨hdata, hflat⟩ := hreg
    have hdata' : t.noDataAt r lo bytes.length = false := (h.works.congr (fun s => s.noDataAt r lo bytes.length) fun _ _ _ => rfl).trans hdata
    have hn' : t.unitsNumbered = true := (h.works.congr (fun s => s.unitsNumbered) fun _ _ _ => rfl).trans hn
    have hcls : s.classAt o.region o.cls = o.classFor r := by rw [State.classAt, hr]; rfl
    rw [runWrite_eq hc (h.regions ▸ hr) hmay hdata' hflat hpos hfits, hcls, hid]
    have k := admitFor_effect (u := o.piece x.st.cmd o.region r (lo, bytes.length) (cellsAt lo bytes) (o.classFor r)
      (t.updOp x.st.cmd x.c.nextOp (fun o => o.admits d))) (h.begun.updOp hfr hid (fun o => o.admits d)) hfr hid hn' rfl rfl rfl (cellsAt_filter lo bytes)
    refine ⟨?_, k.begun, ?_, ?_⟩
    · have hdoor : Door.strand x.st.cmd o.id = .strand x.st.cmd x.c.nextOp := by rw [hid]
      exact hdoor ▸ k.unit
    · exact ((State.updOp_only _ _ _ _).comp k.only).mono (by decide)
    · exact k.regs
end Write

end Sys2Proof.Machine
end

section
/-! SUPPORT. A read that the near cache answers, or that looks nothing up in it (09 R306, R310, R319). -/

namespace Sys2Proof.Machine

section Look
variable {s t v : State}

/-- A lookup: the replacement order, the counters and the stale record may move on; nothing else does. -/
structure Looks (s t : State) : Prop where
  only : OnlyParts [.nc, .regs, .pmu] s t
  works : Works s t
  regs : RegsBut ncRegs s t
  nc : t.nc = { s.nc with plru := t.nc.plru }

namespace Looks

theorem refl (s : State) : Looks s s := ⟨.refl s _, rfl, .refl s _, rfl⟩

theorem trans (h : Looks s t) (k : Looks t v) : Looks s v :=
  ⟨h.only.trans k.only, h.works.trans k.works, h.regs.trans k.regs, by rw [k.nc, h.nc]⟩

theorem countEvent (s : State) (code n : Nat) (ten un : Option Nat) : Looks s (s.countEvent code n ten un) :=
  have h := State.countEvent_only s code n ten un
  ⟨h.mono (by decide), .countEvent s code n ten un, fun a _ hp => h .regs (by decide) a hp, rfl⟩

theorem ddrReads (s : State) (p n : Nat) : Looks s (s.ddrReads p n) := by
  unfold State.ddrReads
  split
  · exact refl s
  · exact countEvent s _ _ _ _

theorem touchPlru (s : State) (b w : Nat) : Looks s (s.touchPlru b w) where
  only := (OnlyParts.drop_bytes (l := [.nc]) (State.updNc_only s _) fun _ => rfl).mono (by decide)
  works := rfl
  regs := .of_regs rfl _
  nc := rfl

theorem staleHit (s : State) (b : Nat) : Looks s (s.staleHit b) := by
  unfold State.staleHit
  split
  · refine ⟨((State.bump_only s F.NC_CNT1.STALE_HITS (by decide)).trans (State.flag_only _ F.NC_ERR.STALE_SERVED (by decide))).mono (by decide),
      (Works.bump s _).trans (.flag _ _), ?_, by simp⟩
    exact (RegsBut.bumpBy s F.NC_CNT1.STALE_HITS 1 (by decide)).trans (RegsBut.setFld _ F.NC_ERR.STALE_SERVED 1 (by decide))
  · exact refl s

end Looks

/-- The near cache holds the sectors of the block that the range touches, and none of it waits in the victim buffer. -/
abbrev NcHolds (s : State) (b lo n : Nat) : Prop :=
  s.nc.inVictim b = none ∧ (Tab.get s.nc.lines b).any (fun l => sectorsIn b lo n &&& ~~~l.valid == 0) = true

theorem NcHolds.looks {b lo n : Nat} (h : Looks s t) (hb : NcHolds s b lo n) : NcHolds t b lo n := by
  unfold NcHolds
  rw [h.nc]
  exact hb

/-- A hit. -/
theorem readBlock_holds {b lo n : Nat} (h : NcHolds s b lo n) : Looks s (s.readBlock b lo n) := by
  obtain ⟨hv, hl⟩ := h
  have hrc : (if s.nc.st == .on then s.recall b else s) = s := by rw [State.recall, hv]; exact ite_self s
  cases hg : Tab.get s.nc.lines b with
  | none => simp [hg] at hl
  | some l =>
    have hw : sectorsIn b lo n &&& ~~~l.valid = 0 := by simpa [hg] using hl
    simp only [State.readBlock, hrc, hg, hw, if_true]
    exact ((Looks.touchPlru s b l.way).trans (.staleHit _ b)).trans (.countEvent _ _ _ _ _)

theorem foldl_looks {α : Type} {f : State → α → State} {l : List α} (hf : ∀ t, Looks s t → ∀ b ∈ l, Looks t (f t b)) : Looks s (l.foldl f s) := by
  induction l using List.reverseRecOn with
  | nil => exact .refl s
  | append_singleton l b ih =>
    rw [List.foldl_append]
    have h := ih fun t ht c hc => hf t ht c (List.mem_append_left _ hc)
    exact h.trans (hf _ h b (by simp))

theorem tierRead_noFill {lo n : Nat} (h : NoFill s lo n) : Looks s (s.tierRead lo n) := by
  unfold State.tierRead
  split
  next hs =>
    have hb := h.resolve_left (by simp [hs])
    exact foldl_looks fun t ht b hm => readBlock_holds (NcHolds.looks ht (hb b hm))
  next => exact foldl_looks fun t _ b _ => .ddrReads t _ _

end Look

/-! ### What a source reads -/

section Source
variable {s t v : State} {x : Iss} {o : Op} {n lo len : Nat}

/-- The operation is the one that the instruction makes: its numbering, what it may read, and nothing admitted yet. -/
structure Op.IsOf (o : Op) (x : Iss) (s : State) : Prop where
  id : o.id = x.c.nextOp
  opcode : o.opcode = x.i.op.toNat
  pc : o.pc = x.pc
  dest : o.dest = x.i.dest
  quiet : o.quiet = x.i.q
  units : o.units = []
  bound : o.bound = s.pst.nextUnit
  skip : o.skip = s.openExtents 0 (2 ^ 44)

theorem cleanPrefix_clean (h : Clean s lo len) : s.cleanPrefix lo len = len := by
  have hf : (linesOf lo len).find? (fun l => s.poison.contains l) = none := List.find?_eq_none.mpr fun l hl => by rw [h l hl]; decide
  rw [State.cleanPrefix, hf]

@[simp] theorem readNow_length (s : State) (lo len : Nat) : (s.readNow lo len).length = len := by simp [State.readNow, State.bytesFor]

/-- The instruction's source, as its strand goes on: what it read at issue (R46, R155). -/
theorem readSrc_now (h : Prepared s t x o) (hs : Same s t) (ho : o.IsOf x s) (hr : Readable s x n lo len) :
    t.readSrc x.st.cmd o n lo len none = .bytes (s.readNow lo len) (s.cleanPrefix lo len) := by
  obtain ⟨c, hc, -, -, hops, -⟩ := h.begun.cmd
  obtain ⟨hreg, hsrc, hpro, hown⟩ := hr
  have hw : t.ownWrite x.st.cmd o n = false := by
    have : c.ownWrite o.id n = false := by
      unfold Cmd.ownWrite at hown ⊢
      rw [hops, ho.id, List.any_append, hown]
      simp [ho.id]
    simp [State.ownWrite, hc, this]
  cases hg : Tab.get s.regions n with
  | none => simp [hg] at hreg
  | some r =>
    simp only [hg, Option.any_some, Bool.and_eq_true, Bool.not_eq_true'] at hreg
    obtain ⟨hdata, htwin⟩ := hreg
    have hg' : Tab.get t.regions n = some r := h.regions ▸ hg
    have hdata' : t.noDataAt r lo len = false := (hs.congr (fun s => s.noDataAt r lo len) fun _ _ => rfl).trans hdata
    have htwin' : t.readAtTwin r lo len = false := (hs.congr (fun s => s.readAtTwin r lo len) fun _ _ => rfl).trans htwin
    have hsrc' : t.srcReady lo len o.bound = true := ho.bound ▸ (hs.congr (fun t => t.srcReady lo len s.pst.nextUnit) fun _ _ => rfl).trans hsrc
    have hpro' : t.promoting lo len = false := (hs.congr (fun s => s.promoting lo len) fun _ _ => rfl).trans hpro
    have hbytes : t.bytesFor o.bound o.skip lo len = s.readNow lo len := by
      rw [ho.bound, ho.skip]
      exact hs.congr (fun t => t.bytesFor s.pst.nextUnit (s.openExtents 0 (2 ^ 44)) lo len) fun _ _ => rfl
    have hclean : t.cleanPrefix lo len = s.cleanPrefix lo len := hs.congr (fun s => s.cleanPrefix lo len) fun _ _ => rfl
    simp only [State.readSrc, hg', hdata', htwin', hsrc', hpro', hw, hbytes, hclean, Bool.not_true, Bool.false_eq_true, if_false,
      Bool.false_and, Bool.or_self]

end Source

/-! ### Writes -/

section Writes
variable {s t v : State} {k : SlotNo} {x : Iss} {o : Op} {lo : Nat} {bytes : List Byte} {w : Option Word} {ps : List Part} {rs : List Nat} {c : Class}

/-- What a write instruction leaves: its unit in the buffer, itself outstanding until the unit settles. -/
def Writes (s t : State) (x : Iss) (c : Class) (ps : List Part) (rs : List Nat) (n lo : Nat) (bytes : List Byte) (w : Option Word) : Prop :=
  AdmitsUnit s t lo bytes (s.classAt n c) (.strand x.st.cmd x.c.nextOp) ∧ OnlySlot s t x ∧
  Outstanding t x (fun o => o.units = [s.pst.nextUnit] ∧ o.region = n ∧ o.done = some ⟨0, w, 0⟩) ∧
  RegsBut (rs ++ admissionRegs) s t ∧ OnlyParts (.pe :: ps ++ admission) s t

theorem runWrite_writes (h : Prepared s t x o) (ho : o.IsOf x s) (hk : o.cls = c) (hl : o.len = bytes.length) (hw : WritesOne s x o.region lo bytes.length)
    (hp : OnlyParts (.pe :: ps ++ admission) s t) (hr : RegsBut (rs ++ admissionRegs) s t) :
    Writes s (t.runWrite x.st.cmd o (.data lo bytes ⟨0, w, 0⟩)) x c ps rs o.region lo bytes w := by
  obtain ⟨hu, hb, hop, hrg⟩ := runWrite_one (d := ⟨0, w, 0⟩) h ho.id hw hl
  rw [h.pst] at hb
  refine ⟨?_, hb.slot, hb.outstanding ho.id ho.opcode ho.pc ho.dest ho.quiet ⟨by simp [Op.admits, ho.units], rfl, rfl⟩,
    hr.trans fun a ha hm => hrg a (fun he => ha (List.mem_append_right _ he)) hm, hp.trans (hop.mono ?_)⟩
  · rw [← hk]
    simpa only [AdmitsUnit, h.pst] using hu
  · exact List.cons_subset_cons _ (List.subset_append_right _ _)

/-- An instruction with no source writes what its words say. -/
theorem taken_writes (h : CanIssue s k x) (ho : o.IsOf x s) (hk : o.cls = c) (hl : o.len = bytes.length) (hw : WritesOne s x o.region lo bytes.length) :
    Writes s ((s.taken x o).runWrite x.st.cmd o (.data lo bytes ⟨0, w, 0⟩)) x c [] [] o.region lo bytes w :=
  runWrite_writes (taken_prepared h o) ho hk hl hw ((taken_only s x o).mono (by decide)) (fun a _ hm => taken_only s x o .regs (by decide) a hm)

@[simp] theorem leBytes_length (n v : Nat) : (leBytes n v).length = n := by
  induction n generalizing v with
  | zero => rfl
  | succ n ih => simp [leBytes, ih]

@[simp] theorem fillBytes_length (v : Word) (n : Nat) : (fillBytes v n).length = n := by simp [fillBytes]

/-- ST writes the low bytes of its value. -/
theorem advSt_writes {n : Nat} (h : CanIssue s k x) (ho : o.IsOf x s) (hk : o.cls = c) (hw : WritesOne s x o.region o.prim o.len) (hv : o.x.toNat = n) :
    Writes s ((s.taken x o).advSt x.st.cmd o) x c [] [] o.region o.prim (leBytes o.len n) none := by
  unfold State.advSt
  rw [hv]
  exact taken_writes h ho hk (leBytes_length _ _).symm (by simpa using hw)

theorem advFil_writes (h : CanIssue s k x) (ho : o.IsOf x s) (hk : o.cls = c) (hw : WritesOne s x o.region o.prim o.len) :
    Writes s ((s.taken x o).advFil x.st.cmd o) x c [] [] o.region o.prim (fillBytes o.x o.len) none :=
  taken_writes h ho hk (fillBytes_length _ _).symm (by simpa using hw)

theorem advZro_writes (h : CanIssue s k x) (ho : o.IsOf x s) (hk : o.cls = c) (hw : WritesOne s x o.region o.prim o.len) :
    Writes s ((s.taken x o).advZro x.st.cmd o) x c [] [] o.region o.prim (List.replicate o.len 0) none :=
  taken_writes h ho hk List.length_replicate.symm (by simpa using hw)

/-- CPY whose source is clean writes what it read, and completes with the count (R156). -/
theorem advCpy_writes {src : Nat} (h : CanIssue s k x) (ho : o.IsOf x s) (hk : o.cls = c) (hw : WritesOne s x o.region o.prim o.len)
    (hs : o.sec = src) (hr : Readable s x o.link src o.len) (hcl : Clean s src o.len) (hf : NoFill s src o.len) :
    Writes s ((s.taken x o).advCpy x.st.cmd o none) x c [.nc] ncRegs o.region o.prim (s.readNow src o.len) (some (BitVec.ofNat 64 o.len)) := by
  subst hs
  have hp := taken_prepared h o
  have hnc : (s.taken x o).nc = s.nc := taken_only s x o .nc (by decide)
  have hno : NoFill (s.taken x o) o.sec o.len := by
    unfold NoFill
    rw [hnc]
    exact hf
  have hl := tierRead_noFill hno
  have e : (s.taken x o).advCpy x.st.cmd o none =
      ((s.taken x o).tierRead o.sec o.len).runWrite x.st.cmd o (.data o.prim (s.readNow o.sec o.len) ⟨0, some (BitVec.ofNat 64 o.len), 0⟩) := by
    simp only [State.advCpy, State.advCopy, readSrc_now hp (taken_same s x o) ho hr, cleanPrefix_clean hcl, SrcRead.toSrc, Nat.lt_irrefl, if_false, OpDone.ok]
  rw [e]
  refine runWrite_writes ⟨hp.begun.of_pe (hl.only .pe (by decide)), hp.works.trans hl.works, hp.regs.trans hl.regs⟩ ho hk
    (readNow_length _ _ _).symm (by simpa using hw) ?_ ?_
  · exact ((taken_only s x o).comp hl.only).mono (by decide)
  · exact fun a ha hm => (hl.regs a (fun he => ha (List.mem_append_left _ he)) hm).trans (taken_only s x o .regs (by decide) a hm)

/-- An instruction of a strand that can issue takes the effect of its row. -/
theorem gives_issue {c : Instr} {op : Nat} {body : Iss → State → State} {p : State → Prop} (h : CanIssue s k x) (ho : x.i.opn = op)
    (he : exec c s = s.issue k op body) (hp : p (body x (s.issued x))) : Gives c s p := ⟨_, he.trans (State.issue_go h ho body), hp⟩

end Writes

/-! ### The four instructions -/

section Rows
variable {s : State} {k : SlotNo} {x : Iss}

/-- A write of the instruction's class to its primary range. -/
def Iss.target (x : Iss) (w : Want) : Acc := x.primAcc w x.len rightW true (some x.cls)

theorem st_writes (h : CanIssue s k x) (hn : HasWord s x (x.pc + 1)) (ho : x.i.opn = 0x21) (hl : hKind (x.st.handle (x.st.primHandle x.i)) = .local_)
    (hp : Passes s x [x.target .localOrScratch] true (widthOk (x.st.primOff x.i) x.len))
    (hw : WritesOne s x (x.region (x.target .local_)) (s.accDpa x.st (x.target .local_)) x.len) :
    Gives (.st k) s (fun t => Writes s t x x.cls [] [] (x.region (x.target .local_)) (s.accDpa x.st (x.target .local_))
      (leBytes x.len ((x.sb.toNat + x.i.simm) % 2 ^ 64)) none) := by
  refine gives_issue h ho (execSt.eq_1 k s) ?_
  have hk : ¬ hKind (x.st.handle (x.target .localOrScratch).h) = .scratch := fun e => by cases hl.symm.trans e
  have hb := begin_passes h hn hp { x.opOn (s.issued x) (x.target .localOrScratch) with x := BitVec.ofNat 64 ((x.sb.toNat + x.i.simm) % 2 ^ 64) }
    (fun s c o => s.advSt c o)
  refine (if_neg hk).symm ▸ hb.symm ▸ ?_
  exact advSt_writes h ⟨rfl, rfl, rfl, rfl, rfl, rfl, rfl, rfl⟩ rfl hw ((BitVec.toNat_ofNat _ _).trans (Nat.mod_mod _ _))

theorem cpy_writes (h : CanIssue s k x) (hn : HasWord s x (x.pc + 1)) (ho : x.i.opn = 0x22)
    {src : Acc} (hs : src = x.secAcc .local_ x.len rightR false none) (hp : Passes s x [x.target .local_, src] true x.lenOk)
    (hr : Readable s x (x.region src) (s.accDpa x.st src) x.len) (hcl : Clean s (s.accDpa x.st src) x.len) (hf : NoFill s (s.accDpa x.st src) x.len)
    (hw : WritesOne s x (x.region (x.target .local_)) (s.accDpa x.st (x.target .local_)) x.len) :
    Gives (.cpy k) s (fun t => Writes s t x x.cls [.nc] ncRegs (x.region (x.target .local_)) (s.accDpa x.st (x.target .local_))
      (s.readNow (s.accDpa x.st src) x.len) (some (BitVec.ofNat 64 x.len))) := by
  subst hs
  refine gives_issue h ho (execCpy.eq_1 k s) ?_
  refine (begin_passes h hn hp _ (fun s c o => s.advCpy c o none)).symm ▸ ?_
  exact advCpy_writes h ⟨rfl, rfl, rfl, rfl, rfl, rfl, rfl, rfl⟩ rfl hw rfl hr hcl hf

theorem fil_writes (h : CanIssue s k x) (hn : HasWord s x (x.pc + 1)) (ho : x.i.opn = 0x23) (hp : Passes s x [x.target .local_] true x.lenOk)
    (hw : WritesOne s x (x.region (x.target .local_)) (s.accDpa x.st (x.target .local_)) x.len) :
    Gives (.fil k) s (fun t => Writes s t x x.cls [] [] (x.region (x.target .local_)) (s.accDpa x.st (x.target .local_))
      (fillBytes (x.st.reg x.i.dn) x.len) none) := by
  refine gives_issue h ho (execFil.eq_1 k s) ?_
  refine (begin_passes h hn hp _ (fun s c o => s.advFil c o)).symm ▸ ?_
  exact advFil_writes h ⟨rfl, rfl, rfl, rfl, rfl, rfl, rfl, rfl⟩ rfl hw

theorem zro_writes (h : CanIssue s k x) (hn : HasWord s x (x.pc + 1)) (ho : x.i.opn = 0x24) (hp : Passes s x [x.target .local_] true x.lenOk)
    (hw : WritesOne s x (x.region (x.target .local_)) (s.accDpa x.st (x.target .local_)) x.len) :
    Gives (.zro k) s (fun t => Writes s t x x.cls [] [] (x.region (x.target .local_)) (s.accDpa x.st (x.target .local_)) (List.replicate x.len 0) none) := by
  refine gives_issue h ho (execZro.eq_1 k s) ?_
  refine (begin_passes h hn hp _ (fun s c o => s.advZro c o)).symm ▸ ?_
  exact advZro_writes h ⟨rfl, rfl, rfl, rfl, rfl, rfl, rfl, rfl⟩ rfl hw

/-- A register length of zero. -/
theorem cpy_empty (h : CanIssue s k x) (hn : HasWord s x (x.pc + 1)) (ho : x.i.opn = 0x22) (hm : modeRefuses s.mod.mode x.i.opn = false)
    (hc : s.checks x.st [x.target .local_, x.secAcc .local_ x.len rightR false none] true x.lenOk = none) (hz : x.zeroLen = true) :
    Gives (.cpy k) s (fun t => CompletesNow s t x [] none 0) :=
  gives_issue h ho (execCpy.eq_1 k s) (begin_empty h hn hm hc hz _ _)

theorem fil_empty (h : CanIssue s k x) (hn : HasWord s x (x.pc + 1)) (ho : x.i.opn = 0x23) (hm : modeRefuses s.mod.mode x.i.opn = false)
    (hc : s.checks x.st [x.target .local_] true x.lenOk = none) (hz : x.zeroLen = true) :
    Gives (.fil k) s (fun t => CompletesNow s t x [] none 0) :=
  gives_issue h ho (execFil.eq_1 k s) (begin_empty h hn hm hc hz _ _)

theorem zro_empty (h : CanIssue s k x) (hn : HasWord s x (x.pc + 1)) (ho : x.i.opn = 0x24) (hm : modeRefuses s.mod.mode x.i.opn = false)
    (hc : s.checks x.st [x.target .local_] true x.lenOk = none) (hz : x.zeroLen = true) :
    Gives (.zro k) s (fun t => CompletesNow s t x [] none 0) :=
  gives_issue h ho (execZro.eq_1 k s) (begin_empty h hn hm hc hz _ _)

end Rows
end Sys2Proof.Machine
end

section
open Sys2Proof Sys2Proof.Machine

/-- Settles O9: the operation stands alone in its command, so nothing holds its write, and the one piece of its range is admitted at once;
a register length of zero completes at issue. -/
theorem writingInstructionsAdmitTheirBytes : Obligations.WritingInstructionsAdmitTheirBytes := by
  unfold Obligations.WritingInstructionsAdmitTheirBytes
  intro s k x hi hn
  have hop : ∀ {op : BitVec 8}, x.i.op = op → x.i.opn = op.toNat := fun h => congrArg BitVec.toNat h
  exact ⟨fun ho => cpy_empty hi hn (hop ho), fun ho => fil_empty hi hn (hop ho), fun ho => zro_empty hi hn (hop ho), fun hw =>
    ⟨fun ho hl hp => st_writes hi hn (hop ho) hl hp hw, fun ho hp hr hcl hf => cpy_writes hi hn (hop ho) rfl hp hr hcl hf hw,
      fun ho hp => fil_writes hi hn (hop ho) hp hw, fun ho hp => zro_writes hi hn (hop ho) hp hw⟩⟩

end

section
/-! SUPPORT. A range that leaves every region: what the near cache, the buffer and the memories show afterwards (05 R169, 09 R308). -/

namespace Sys2Proof.Machine

/-! ### Blocks that leave the near cache -/

section Blocks
variable {n m : NcState} {l : List Nat} {b c a : Nat}

/-- The near cache holds sectors of the block, in its way or in the victim buffer. -/
def NcState.has (n : NcState) (b : Nat) : Bool := (Tab.get n.lines b).isSome || (n.inVictim b).isSome

/-- The near cache without the block. -/
def NcState.without (n : NcState) (b : Nat) : NcState :=
  { n with lines := Tab.del n.lines b, victim := n.victim.filter (fun v => v.block != b) }.forget b

/-- The near cache without the block, where it holds it. -/
def NcState.drop (n : NcState) (b : Nat) : NcState := if n.has b then n.without b else n

/-- The near cache without the blocks of a list. -/
def NcState.withoutAll (n : NcState) (l : List Nat) : NcState := l.foldl NcState.drop n

/-- The byte that the near cache holds of an address. -/
def NcState.cached (n : NcState) (a : Nat) : Option Byte :=
  if n.serving && (n.validOf (blockOf a)).getLsbD (sectorOf a) then some (n.data.read a) else none

theorem State.backing_cached (s : State) (a : Nat) : s.backing a = (s.nc.cached a).getD (s.ddr.read a) := by
  unfold State.backing NcState.cached
  split <;> rfl

theorem validOf_absent (h : n.has b = false) : n.validOf b = 0 := by
  rw [NcState.has, Bool.or_eq_false_iff, Option.isSome_eq_false_iff, Option.isSome_eq_false_iff, Option.isNone_iff_eq_none, Option.isNone_iff_eq_none] at h
  rw [NcState.validOf, h.1, h.2]

theorem cached_absent (h : n.has (blockOf a) = false) : n.cached a = none := by simp [NcState.cached, validOf_absent h]

theorem inVictim_without (h : c ≠ b) : (n.without b).inVictim c = n.inVictim c := by
  unfold NcState.inVictim NcState.without NcState.forget
  rw [List.find?_filter]
  refine congrArg (fun p => n.victim.find? p) (funext fun v => ?_)
  by_cases hv : v.block = c
  · simp [hv, h]
  · simp [hv]

theorem get_without (h : c ≠ b) : Tab.get (n.without b).lines c = Tab.get n.lines c := Tab.get_del_ne n.lines h

theorem has_without_self : (n.without b).has b = false := by
  have h : (n.without b).inVictim b = none := List.find?_eq_none.mpr fun v hv => by simpa using (List.mem_filter.mp hv).2
  rw [NcState.has, h, show Tab.get (n.without b).lines b = none from Tab.get_del_self n.lines b]
  rfl

theorem has_without (h : c ≠ b) : (n.without b).has c = n.has c := by rw [NcState.has, NcState.has, get_without h, inVictim_without h]

theorem cached_without (h : blockOf a ≠ b) : (n.without b).cached a = n.cached a := by
  have hd : (n.without b).data.read a = n.data.read a := by
    refine (Memory.read_clear n.data (b * 4096) 4096 a).trans (if_neg fun hb => h ?_)
    unfold blockOf
    omega
  unfold NcState.cached NcState.validOf
  rw [get_without h, inVictim_without h, hd]
  rfl

theorem has_drop_self : (n.drop b).has b = false := by
  unfold NcState.drop
  split
  · exact has_without_self
  next h => exact Bool.eq_false_iff.mpr h

theorem has_drop (h : c ≠ b) : (n.drop b).has c = n.has c := by
  unfold NcState.drop
  split
  · exact has_without h
  · rfl

theorem cached_drop (h : blockOf a ≠ b) : (n.drop b).cached a = n.cached a := by
  unfold NcState.drop
  split
  · exact cached_without h
  · rfl

theorem has_withoutAll_of (h : n.has b = false) : (n.withoutAll l).has b = false := by
  induction l generalizing n with
  | nil => exact h
  | cons c l ih =>
    refine ih ?_
    by_cases e : b = c
    · exact e ▸ has_drop_self
    · rw [has_drop e, h]

theorem has_withoutAll (h : b ∈ l) : (n.withoutAll l).has b = false := by
  induction l generalizing n with
  | nil => exact absurd h List.not_mem_nil
  | cons c l ih =>
    rcases List.mem_cons.mp h with rfl | h
    · exact has_withoutAll_of (l := l) (n := n.drop b) has_drop_self
    · exact ih h

/-- The blocks of the list hold nothing any more; the others hold what they held. -/
theorem cached_withoutAll (l : List Nat) (a : Nat) : (n.withoutAll l).cached a = if blockOf a ∈ l then none else n.cached a := by
  split
  next h => exact cached_absent (has_withoutAll h)
  next h =>
    induction l generalizing n with
    | nil => rfl
    | cons c l ih =>
      obtain ⟨hc, hl⟩ := not_or.mp (fun hh => h (List.mem_cons.mpr hh))
      exact (ih hl).trans (cached_drop hc)

end Blocks

/-! ### Cells that leave the buffer -/

section Cells
variable {lo n a : Nat}

/-- What a stack of cells shows at an address, the newest last. -/
def shownBy (l : List (List Host.Cell)) (a : Nat) : Option Byte := l.reverse.findSome? (fun cs => cellIn cs a)

theorem shownBy_cons (cs : List Host.Cell) (l : List (List Host.Cell)) (a : Nat) : shownBy (cs :: l) a = (shownBy l a).or (cellIn cs a) := by
  rw [shownBy, List.reverse_cons, List.findSome?_append, List.findSome?_singleton]
  rfl

theorem shownBy_append (l m : List (List Host.Cell)) (a : Nat) : shownBy (l ++ m) a = (shownBy m a).or (shownBy l a) := by
  rw [shownBy, List.reverse_append, List.findSome?_append]
  rfl

theorem State.byte_shown (s : State) (a : Nat) : s.byte a = (shownBy s.visibleCells a).getD (s.backing a) := by
  unfold State.byte shownBy
  cases s.visibleCells.reverse.findSome? (fun cs => cellIn cs a) <;> rfl

theorem cellIn_outside (cs : List Host.Cell) : cellIn (cellsOutside lo n cs) a = if lo ≤ a ∧ a < lo + n then none else cellIn cs a := by
  unfold cellIn cellsOutside
  rw [List.find?_filter]
  split
  next h =>
    rw [List.find?_eq_none.mpr fun c _ => ?_]
    · rfl
    · simp only [outside, Bool.or_eq_true, decide_eq_true_eq, beq_iff_eq, not_and]
      omega
  next h =>
    refine congrArg (fun p => (cs.find? p).map (·.2)) (funext fun c => ?_)
    rw [Bool.eq_iff_iff]
    simp only [outside, Bool.or_eq_true, decide_eq_true_eq, beq_iff_eq]
    omega

/-- Entries cut to what lies outside a range, the empty ones gone. -/
theorem shownBy_cut {α : Type} (p : α → Bool) (cells : α → List Host.Cell) (cut : α → α) (keep : α → Bool) (hp : ∀ u, p (cut u) = p u)
    (hc : ∀ u, p u = true → cells (cut u) = cellsOutside lo n (cells u)) (hk : ∀ u, p u = true → keep (cut u) = !(cells (cut u)).isEmpty) (l : List α) :
    shownBy ((((l.map cut).filter keep).filter p).map cells) a = if lo ≤ a ∧ a < lo + n then none else shownBy ((l.filter p).map cells) a := by
  induction l with
  | nil => simp [shownBy]
  | cons u l ih =>
    rw [List.map_cons, List.filter_cons]
    cases hpu : p u with
    | false =>
      have hdrop : ∀ m : List α, (if keep (cut u) then cut u :: m else m).filter p = m.filter p := fun m => by
        split
        · rw [List.filter_cons_of_neg (by simp [hp, hpu])]
        · rfl
      rw [hdrop, ih, List.filter_cons_of_neg (by simp [hpu])]
    | true =>
      have hin : cellIn (cells (cut u)) a = if lo ≤ a ∧ a < lo + n then none else cellIn (cells u) a := by rw [hc u hpu, cellIn_outside]
      rw [List.filter_cons_of_pos hpu, List.map_cons, shownBy_cons]
      by_cases hke : keep (cut u) = true
      · rw [if_pos hke, List.filter_cons_of_pos (by rw [hp, hpu]), List.map_cons, shownBy_cons, ih, hin]
        split <;> rfl
      · have he : cells (cut u) = [] := by simpa [hk u hpu] using hke
        have hnone : cellIn (cells (cut u)) a = none := by rw [he]; rfl
        rw [if_neg hke, ih]
        split
        · rfl
        next hout =>
          rw [hin, if_neg hout] at hnone
          rw [hnone, Option.or_none]

end Cells
end Sys2Proof.Machine
end

section
/-! SUPPORT. What dropping a range leaves: the range reads as zero, and every other address as before (05 R169). -/

namespace Sys2Proof.Machine

section Drop
variable {s t : State} {lo n a : Nat}

theorem foldl_dropBlock (l : List Nat) (s : State) :
    l.foldl (fun s b => if (Tab.get s.nc.lines b).isSome || (s.nc.inVictim b).isSome then s.dropBlock b else s) s = s.updNc (fun n => n.withoutAll l) := by
  induction l generalizing s with
  | nil => rfl
  | cons b l ih =>
    have e : (if s.nc.has b then s.dropBlock b else s) = s.updNc (fun n => n.drop b) := by
      have hd : s.nc.drop b = if s.nc.has b then s.nc.without b else s.nc := rfl
      show _ = { s with nc := s.nc.drop b }
      rw [hd]
      split <;> rfl
    have e' : (if (Tab.get s.nc.lines b).isSome || (s.nc.inVictim b).isSome then s.dropBlock b else s) = s.updNc (fun n => n.drop b) := e
    rw [List.foldl_cons, e', ih]
    rfl

/-- The committed units with their cells outside the range. -/
def cutUnits (lo n : Nat) (l : List CUnit) : List CUnit :=
  (l.map (fun u => if u.committed then { u with cells := cellsOutside lo n u.cells } else u)).filter (fun u => !u.committed || !u.cells.isEmpty)

/-- The twin's copies with their cells outside the range. -/
def cutCopies (lo n : Nat) (l : List Copy) : List Copy :=
  (l.map (fun c => { c with cells := cellsOutside lo n c.cells })).filter (fun c => !c.cells.isEmpty)

/-- The state without the contents of a range. -/
def State.emptied (s : State) (lo n : Nat) (p : List Nat) (d : DstState) : State :=
  { s with
    nc := s.nc.withoutAll (blocksOf lo n)
    ddr := s.ddr.clear lo n
    poison := p
    pst := { s.pst with units := cutUnits lo n s.pst.units }
    phl := { s.phl with copies := cutCopies lo n s.phl.copies }
    dst := d }

theorem dropRange_eq (s : State) (lo n : Nat) : ∃ p d, s.dropRange lo n = (s.emptied lo n p d).zoneStep 0 := by
  unfold State.dropRange
  rw [foldl_dropBlock]
  exact ⟨_, _, rfl⟩

theorem cutUnits_shows (l : List CUnit) : shownBy (unitCells (cutUnits lo n l)) a = if lo ≤ a ∧ a < lo + n then none else shownBy (unitCells l) a := by
  refine shownBy_cut (fun u : CUnit => u.committed) (fun u => u.cells) (fun u => if u.committed then { u with cells := cellsOutside lo n u.cells } else u)
    (fun u => !u.committed || !u.cells.isEmpty) ?_ ?_ ?_ l <;> intro u
  · split <;> rfl
  · intro h
    simp only [h, if_true]
  · intro h
    simp only [h, if_true, Bool.not_true, Bool.false_or]

theorem cutCopies_shows (l : List Copy) : shownBy (((cutCopies lo n l).filter (·.committed)).map (·.cells)) a =
    if lo ≤ a ∧ a < lo + n then none else shownBy ((l.filter (·.committed)).map (·.cells)) a :=
  shownBy_cut (fun c : Copy => c.committed) (fun c => c.cells) (fun c => { c with cells := cellsOutside lo n c.cells }) (fun c => !c.cells.isEmpty)
    (fun _ => rfl) (fun _ _ => rfl) (fun _ _ => rfl) l

theorem emptied_shows (s : State) (p : List Nat) (d : DstState) : shownBy (s.emptied lo n p d).visibleCells a =
    if lo ≤ a ∧ a < lo + n then none else shownBy s.visibleCells a := by
  have hu := cutUnits_shows (lo := lo) (n := n) (a := a) s.pst.units
  have hc := cutCopies_shows (lo := lo) (n := n) (a := a) s.phl.copies
  unfold unitCells at hu
  unfold State.visibleCells
  rw [shownBy_append, shownBy_append]
  refine (congrArg₂ Option.or hu hc).trans ?_
  split <;> rfl

theorem mem_blocksOf (hlo : lo % 4096 = 0) (hn : n % 4096 = 0) : blockOf a ∈ blocksOf lo n ↔ lo ≤ a ∧ a < lo + n := by
  unfold blocksOf blockOf
  split
  · simp; omega
  · simp only [List.mem_map, List.mem_range]
    constructor
    · rintro ⟨i, hi, he⟩; omega
    · intro h; exact ⟨a / 4096 - lo / 4096, by omega, by omega⟩

/-- Whole blocks: the range reads as zero and every other address as before. -/
theorem dropRange_zeroed (s : State) (hlo : lo % 4096 = 0) (hn : n % 4096 = 0) : ZeroedOnly s (s.dropRange lo n) lo n := by
  intro a
  obtain ⟨p, d, he⟩ := dropRange_eq s lo n
  have hz : (s.dropRange lo n).byte a = (s.emptied lo n p d).byte a := by rw [he]; exact State.zoneStep_only _ 0 .bytes (by decide) a
  have hb : (s.emptied lo n p d).backing a = if lo ≤ a ∧ a < lo + n then 0 else s.backing a := by
    rw [State.backing_cached, State.backing_cached, show (s.emptied lo n p d).ddr.read a = _ from Memory.read_clear s.ddr lo n a,
      show (s.emptied lo n p d).nc.cached a = _ from cached_withoutAll (blocksOf lo n) a]
    simp only [mem_blocksOf hlo hn]
    split <;> rfl
  rw [hz, State.byte_shown, State.byte_shown, emptied_shows, hb]
  split <;> rfl

/-- The parts that hold a range's contents, its charges and the ceiling's zone. -/
def contents : List Part := [.nc, .ddr, .bytes, .poison, .pst, .phl, .dst, .regs, .records]

theorem emptied_only (s : State) (p : List Nat) (d : DstState) : OnlyParts contents s (s.emptied lo n p d) := by
  intro q hq; cases q <;> first
    | exact absurd (by decide) hq
    | (simp [State.emptied, Part.kept]; done)
    | exact fun a _ => State.raw_congr rfl a

theorem dropRange_only (s : State) (lo n : Nat) : OnlyParts contents s (s.dropRange lo n) := by
  obtain ⟨p, d, he⟩ := dropRange_eq s lo n
  rw [he]
  exact (emptied_only s p d).trans ((State.zoneStep_only _ 0).mono (by decide))

theorem dropRange_regs (s : State) (lo n : Nat) : RegsBut [Addr.DST_CNT0] s (s.dropRange lo n) := by
  obtain ⟨p, d, he⟩ := dropRange_eq s lo n
  rw [he]
  have hr : RegsBut [Addr.DST_CNT0] s (s.emptied lo n p d) := .of_regs rfl _
  exact hr.trans (zoneStep_regsBut _ 0 List.mem_cons_self)

theorem dropRange_phl (s : State) (lo n : Nat) : (s.dropRange lo n).phl = { s.phl with copies := cutCopies lo n s.phl.copies } := by
  obtain ⟨p, d, he⟩ := dropRange_eq s lo n
  rw [he, zoneStep_phl]
  rfl

end Drop

/-! ### Pins -/

section Pins
variable {s : State} {lo n a : Nat}

theorem Tab.get_map_val {α : Type} (p : Nat → Bool) (f : α → α) (t : Tab α) (k : Nat) :
    Tab.get (t.map (fun e => if p e.1 then (e.1, f e.2) else e)) k = (Tab.get t k).map (fun v => if p k then f v else v) := by
  induction t with
  | nil => rfl
  | cons e t ih =>
    obtain ⟨j, v⟩ := e
    have hk : (if p j then (j, f v) else (j, v)) = (j, if p j then f v else v) := by split <;> rfl
    rw [List.map_cons, hk]
    unfold Tab.get
    by_cases hj : j = k
    · simp [hj]
    · rw [if_neg hj, if_neg hj]
      exact ih

theorem unpinRegion_valid (s : State) (lo n b : Nat) : (s.unpinRegion lo n).nc.validOf b = s.nc.validOf b := by
  have h := Tab.get_map_val (fun j => decide (lo ≤ 4096 * j ∧ 4096 * j < lo + n)) (fun l : NcLine => { l with pin := false }) s.nc.lines b
  simp only [decide_eq_true_eq] at h
  unfold NcState.validOf
  rw [show Tab.get (s.unpinRegion lo n).nc.lines b = _ from h]
  cases Tab.get s.nc.lines b with
  | none => rfl
  | some l =>
    simp only [Option.map_some]
    split <;> rfl

/-- Locks say nothing about what an address reads as. -/
theorem unpinRegion_only (s : State) (lo n : Nat) : OnlyParts [.nc] s (s.unpinRegion lo n) := by
  refine OnlyParts.drop_bytes (l := [.nc]) (State.updNc_only s _) fun a => ?_
  have hb : (s.unpinRegion lo n).backing a = s.backing a := by
    unfold State.backing
    rw [unpinRegion_valid]
    rfl
  unfold State.byte
  rw [hb]
  rfl

end Pins
end Sys2Proof.Machine
end

section
/-! SUPPORT. Privileged instructions: from their issue to the change they make, and their completion (05 R112, R168). -/

namespace Sys2Proof.Machine

section Same
variable {s t : State} {x : Iss} {k : SlotNo} {o : Op}

theorem Same.planned (h : Same s t) : t.planned = s.planned := h.on (by decide)

theorem Same.planMissing (h : Same s t) : t.planMissing = s.planMissing := by
  have hn : t.node = s.node := h.fld (by decide)
  have hp : t.phl = s.phl := h.congr (fun s => s.phl) fun _ _ => rfl
  have hf : t.fab = s.fab := h.congr (fun s => s.fab) fun _ _ => rfl
  have ht : t.tir = s.tir := h.congr (fun s => s.tir) fun _ _ => rfl
  unfold State.planMissing State.memberList
  rw [hn, hp, hf, ht]

theorem Same.fenceWindow (h : Same s t) (p : Port) {ld : Nat} (hl : ld < 16) : t.fenceWindow p ld = s.fenceWindow p ld := by
  have hp : isPmu (0x700280 + p.regOffset + 8 * ld) = false := by
    have ho : p.regOffset ≤ 0x80000 := by cases p <;> decide
    have hc : ¬ Addr.PMU_CNT 0 ≤ 0x700280 + p.regOffset + 8 * ld := by unfold Addr.PMU_CNT; omega
    have hv : ¬ Addr.PMU_OVF 0 ≤ 0x700280 + p.regOffset + 8 * ld := by unfold Addr.PMU_OVF; omega
    simp [isPmu, hc, hv]
  unfold State.fenceWindow
  rw [h.on (f := F.HST_LD_FENCE.ENABLE p ld) hp, h.fld (f := F.HST_LD_FENCE.DPA_PAGE p ld) hp]

theorem any_range {n : Nat} {f g : Nat → Bool} (h : ∀ i < n, f i = g i) : (List.range n).any f = (List.range n).any g := by
  rw [Bool.eq_iff_iff, List.any_eq_true, List.any_eq_true]
  exact exists_congr fun i => and_congr_right fun hi => by rw [h i (List.mem_range.mp hi)]

theorem Same.spaceBad (h : Same s t) (n : Option Nat) (lo len : Nat) : t.spaceBad n lo len = s.spaceBad n lo len := by
  have hr : t.regions = s.regions := h.congr (fun s => s.regions) fun _ _ => rfl
  have hm : t.mem = s.mem := h.congr (fun s => s.mem) fun _ _ => rfl
  have hi : t.installedMib = s.installedMib := h.congr (fun s => s.installedMib) fun _ _ => rfl
  unfold State.spaceBad
  rw [hr, hm, hi]
  refine congrArg (· || _) (congrArg (· || _) (congrArg (_ || ·) (congrArg (fun f => [Port.hp0, Port.hp1].any f) (funext fun p => any_range fun ld hl => ?_))))
  rw [h.fenceWindow p hl]

theorem Same.createStatus (h : Same s t) (b : HBlock) (fw : Bool) : t.createStatus b fw = s.createStatus b fw := by
  have hr : t.regions = s.regions := h.congr (fun s => s.regions) fun _ _ => rfl
  have ht : t.tenants = s.tenants := h.congr (fun s => s.tenants) fun _ _ => rfl
  have hc : t.cip = s.cip := h.congr (fun s => s.cip) fun _ _ => rfl
  have hd : t.ddrShort b.tenant b.len = s.ddrShort b.tenant b.len := h.congr (fun s => s.ddrShort b.tenant b.len) fun _ _ => rfl
  have hp : t.pinFits b.tenant b.base b.len = s.pinFits b.tenant b.base b.len := h.congr (fun s => s.pinFits b.tenant b.base b.len) fun _ _ => rfl
  unfold State.createStatus
  rw [h.planMissing, h.spaceBad, hr, ht, hc, hd, hp]

theorem Same.modifyStatus (h : Same s t) (n : Nat) (r : Region) (b : HBlock) (fw : Bool) : t.modifyStatus n r b fw = s.modifyStatus n r b fw := by
  have hm : t.modifyMode r b = s.modifyMode r b := by
    have hmode : t.mod = s.mod := h.congr (fun s => s.mod) fun _ _ => rfl
    unfold State.modifyMode
    rw [h.on (f := F.TIR_PLACE_CTL.PLANNED) (by decide), hmode]
  have hr : t.modifyRights r b = s.modifyRights r b := h.congr (fun s => s.modifyRights r b) fun _ _ => rfl
  have hd : t.ddrShort b.tenant (b.len - r.len) = s.ddrShort b.tenant (b.len - r.len) := h.congr (fun s => s.ddrShort b.tenant (b.len - r.len)) fun _ _ => rfl
  have hp : t.modifyPin n r b = s.modifyPin n r b := h.congr (fun s => s.modifyPin n r b) fun _ _ => rfl
  unfold State.modifyStatus
  rw [hm, h.spaceBad, hr, hd, hp]

theorem Same.needsLent (h : Same s t) (n : Nat) : t.needsLent n = s.needsLent n := h.congr (fun s => s.needsLent n) fun _ _ => rfl

theorem Same.mustFence (h : Same s t) (n : Nat) (b : HBlock) : t.mustFence n b = s.mustFence n b := h.congr (fun s => s.mustFence n b) fun _ _ => rfl

theorem Same.regions (h : Same s t) : t.regions = s.regions := h.congr (fun s => s.regions) fun _ _ => rfl

/-! ### From issue to the block -/

theorem issueSel_go {op : Nat} {p : IWord → Bool} {body : Iss → State → State} (h : CanIssue s k x) (hp : p x.i = true) :
    s.issueSel k op p body = s.issue k op body := by
  obtain ⟨hk, hs, -, hw, -⟩ := h
  have e : (s.strandAt k.toNat).bind (fun st => s.nextWord st) = some (x.pc, x.i) := by rw [← hk, hs]; exact hw
  unfold State.issueSel
  rw [e]
  exact if_pos hp

/-- A privileged instruction that passes its checks is outstanding, and makes what progress it can. -/
theorem startPriv_passes {accs : List Acc} {mode result : Bool} {len : Nat} (h : CanIssue s k x) (hn : HasWord s x (x.pc + 1)) (hm : mode = false)
    (hp : Passes s x accs true (accs.all (fun a => a.rights != rightR || a.off % 64 == 0))) (hq : s.qpPriv x.st.qp = true) :
    (s.issued x).startPriv x mode true len accs result =
      (s.taken x (x.privOp (s.issued x) len result)).advPriv x.st.cmd (x.privOp (s.issued x) len result) none := by
  have hq' : (s.issued x).qpPriv x.st.qp = true := by rw [State.qpPriv, s.issued_qps x]; exact hq
  have hc : (s.issued x).privCheck x mode true = none := by
    have hm' : modeRefuses (s.issued x).mod.mode x.i.opn = false := hp.1
    simp [State.privCheck, hm', hm, hq', firstSome, failIf]
  unfold State.startPriv
  rw [hc]
  exact begin_passes h hn hp _ _

/-- It reads its block once its command is accepted (R74), and an HMAP instruction then takes its effect. -/
theorem advPriv_hmap {l : List Byte} (h : Prepared s t x o) (hacc : x.c.accepted = true) (hph : o.phase = .source) (hop : o.opcode = 0x80)
    (hs : t.readSrc x.st.cmd o o.link o.sec o.len none = .bytes l o.len) :
    t.advPriv x.st.cmd o none = t.applyHmapOp x.st.cmd o (HBlock.ofBytes l) := by
  obtain ⟨c, hc, -, -, -, ha⟩ := h.begun.cmd
  have hcmd : t.acceptedCmd x.st.cmd = true := by rw [State.acceptedCmd, hc, Option.map_some, ha, hacc]; rfl
  simp [State.advPriv, hph, hcmd, hop, hs]

end Same

/-! ### Completion -/

section Finish
variable {s t : State} {x : Iss} {o : Op} {v : Option Word}

theorem hmapFrame_linked (h : s.phl.twin.linked = true) (n m : Nat) : ∃ f, s.hmapFrame n m = s.sendFrame f := by
  unfold State.hmapFrame
  cases ht : s.phl.twin with
  | resyncIn | resyncOut | paired | fallback | unconfirmed => exact ⟨_, rfl⟩
  | absent | linking | alone | lost => simp [ht, Twin.linked] at h

/-- The change of region `n` is one that the twin has still to answer. -/
def State.owes (s : State) (n : Nat) : State :=
  { s with phl := { s.phl with hmapOut := s.phl.hmapOut ++ [s.phl.txNext], told := s.phl.told ++ [(0, n)] } }

theorem owes_only (s : State) (n : Nat) : OnlyParts [.phl] s (s.owes n) :=
  s.updPhl_quiet (f := fun p => { p with hmapOut := p.hmapOut ++ [p.txNext], told := p.told ++ [(0, n)] }) rfl

theorem sendHmap_linked (h : s.phl.twin.linked = true) (n : Nat) : ∃ f, s.sendHmap n = (s.owes n).sendFrame f := by
  obtain ⟨f, hf⟩ := hmapFrame_linked (s := s.owes n) h n 0
  refine ⟨f, hf ▸ ?_⟩
  unfold State.sendHmap
  cases ht : s.phl.twin with
  | resyncIn | resyncOut | paired | fallback | unconfirmed => rfl
  | absent | linking | alone | lost => simp [ht, Twin.linked] at h

theorem sendHmap_unlinked (h : s.phl.twin.linked = false) (n : Nat) : s.sendHmap n = s := by
  unfold State.sendHmap
  cases ht : s.phl.twin with
  | absent | linking | alone | lost => rfl
  | resyncIn | resyncOut | paired | fallback | unconfirmed => simp [ht, Twin.linked] at h

theorem sendHmap_only (s : State) (n : Nat) : OnlyParts [.phl, .out, .pmu] s (s.sendHmap n) := by
  cases h : s.phl.twin.linked with
  | false => rw [sendHmap_unlinked h]; exact .refl s _
  | true =>
    obtain ⟨f, he⟩ := sendHmap_linked h n
    rw [he]
    exact ((owes_only s n).comp (State.sendFrame_only _ f)).mono (by decide)

/-- The next frame's number moves on exactly where a twin is linked. -/
theorem sendHmap_txNext (s : State) (n : Nat) : (s.sendHmap n).phl.txNext = s.phl.txNext ↔ s.phl.twin.linked = false := by
  cases h : s.phl.twin.linked with
  | false => simp [sendHmap_unlinked h]
  | true =>
    obtain ⟨f, he⟩ := sendHmap_linked h n
    rw [he, sendFrame_txNext]
    show (s.phl.txNext + 1) % 2 ^ 32 = _ ↔ _
    simp only [reduceCtorEq, iff_false]
    omega

/-- The operation with its outcome, ready or held until the twin has the change (R168). -/
def Op.held (o : Op) (linked : Bool) (msn : Nat) (v : Option Word) : Op :=
  { o with phase := if linked then .external else .ready, sec := if linked then msn else o.sec, done := some ⟨0, v, 0⟩ }

theorem finishPriv_same {c op before : Nat} (h : s.phl.txNext = before) :
    s.finishPriv c op before (OpDone.ok v) = s.updOp c op (fun o => { o with phase := .ready, done := some ⟨0, v, 0⟩ }) := if_pos h

theorem finishPriv_moved {c op before : Nat} (h : s.phl.txNext ≠ before) : ∃ msn,
    s.finishPriv c op before (OpDone.ok v) = s.updOp c op (fun o => { o with phase := .external, sec := msn, done := some ⟨0, v, 0⟩ }) :=
  ⟨_, if_neg h⟩

theorem told_finish (t : State) (n c op : Nat) (v : Option Word) : ∃ msn,
    (t.sendHmap n).finishPriv c op t.phl.txNext (OpDone.ok v) = (t.sendHmap n).updOp c op (fun o => o.held t.phl.twin.linked msn v) := by
  unfold Op.held
  cases h : t.phl.twin.linked with
  | false => exact ⟨0, finishPriv_same ((sendHmap_txNext t n).mpr h)⟩
  | true => exact finishPriv_moved fun e => by simp [(sendHmap_txNext t n).mp e] at h

end Finish
end Sys2Proof.Machine
end

section
/-! O24: CREATE, MODIFY, DELETE and READ of a region (02 R53, 05 R168, R169). -/

namespace Sys2Proof.Machine

section Change
variable {s t : State} {x : Iss} {k : SlotNo} {o : Op} {n lo len : Nat} {r : Region} {b : HBlock}

/-- A change of the region table: entry `n` alone, and a range that reads as zero. -/
structure Remapped (s t : State) (n : Nat) (r : Option Region) (lo len : Nat) : Prop where
  only : OnlyParts (.regions :: contents) s t
  regs : RegsBut [Addr.DST_CNT0] s t
  table : OnlyRegion s t n r
  zeroed : ZeroedOnly s t lo len
  twin : t.phl.twin = s.phl.twin

/-- The state with another region table. -/
def State.withTable (s : State) (T : Tab Region) : State := { s with regions := T }

theorem withTable_only (s : State) (T : Tab Region) : OnlyParts [.regions] s (s.withTable T) := withRegions_only s T

/-- The table changes, and the range is dropped. -/
theorem dropRange_remapped {e : Option Region} {T : Tab Region} (hg : Tab.get T n = e) (hne : ∀ m, m ≠ n → Tab.get T m = Tab.get s.regions m)
    (hlo : lo % 4096 = 0) (hlen : len % 4096 = 0) : Remapped s ((s.withTable T).dropRange lo len) n e lo len := by
  have hr : ((s.withTable T).dropRange lo len).regions = T := dropRange_only (s.withTable T) lo len .regions (by decide)
  refine ⟨(withTable_only s T).comp (dropRange_only _ lo len), ?_, ?_, fun a => ?_, ?_⟩
  · have hk : RegsBut [Addr.DST_CNT0] s (s.withTable T) := .of_regs rfl _
    exact hk.trans (dropRange_regs _ lo len)
  · rw [OnlyRegion, hr]
    exact ⟨hg, hne⟩
  · rw [dropRange_zeroed (s.withTable T) hlo hlen a, withTable_only s T .bytes (by decide) a]
  · rw [dropRange_phl]
    rfl

/-- Nothing of the range is dropped. -/
theorem put_remapped (hlen : len = 0) : Remapped s (s.withTable (Tab.put s.regions n r)) n (some r) lo len where
  only := (withTable_only s _).mono (by decide)
  regs := .of_regs rfl _
  table := ⟨Tab.get_put_self _ _ _, fun _ hm => Tab.get_put_ne _ _ hm⟩
  zeroed := fun a => by
    subst hlen
    rw [if_neg (by omega)]
    exact withTable_only s _ .bytes (by decide) a
  twin := rfl

/-- Pins released on the way change nothing of this. -/
theorem Remapped.unpin {e : Option Region} {plo pn : Nat} (h : Remapped (s.unpinRegion plo pn) t n e lo len) : Remapped s t n e lo len where
  only := ((unpinRegion_only s plo pn).comp h.only).mono (by decide)
  regs := (RegsBut.of_regs rfl _).trans h.regs
  table := h.table
  zeroed := fun a => (h.zeroed a).trans (by rw [unpinRegion_only s plo pn .bytes (by decide) a])
  twin := h.twin

theorem addRegion_remapped (hs : r.sealed = false) (hlo : r.base % 4096 = 0) (hlen : r.len % 4096 = 0) :
    Remapped s (s.addRegion n r) n (some r) r.base r.len := by
  have e : s.addRegion n r = (s.withTable (Tab.put s.regions n r)).dropRange r.base r.len := by
    unfold State.addRegion
    exact if_neg (by simp [hs])
  rw [e]
  exact dropRange_remapped (Tab.get_put_self _ _ _) (fun _ hm => Tab.get_put_ne _ _ hm) hlo hlen

theorem removeRegion_remapped (hs : r.sealed = false) (hlo : r.base % 4096 = 0) (hlen : r.len % 4096 = 0) :
    Remapped s (s.removeRegion n r) n none r.base r.len := by
  have hdel : ∀ v : State, Remapped v ((v.withTable (Tab.del v.regions n)).dropRange r.base r.len) n none r.base r.len := fun v =>
    dropRange_remapped (Tab.get_del_self _ _) (fun _ hm => Tab.get_del_ne _ hm) hlo hlen
  unfold State.removeRegion
  simp only [hs, Bool.false_eq_true, if_false]
  split
  · exact (hdel (s.unpinRegion r.base r.len)).unpin
  · exact hdel s

theorem changeRegion_remapped (hs : r.sealed = b.sealed) (hlo : r.base % 4096 = 0) (hlen : r.len % 4096 = 0) (hle : b.len ≤ r.len) :
    Remapped s (s.changeRegion n r b) n (some (b.over r)) (r.base + b.len) (r.len - b.len) := by
  have hb : b.len % 4096 = 0 := by unfold HBlock.len; omega
  have hput : ∀ v : State, Remapped v (if b.len < r.len then (v.withTable (Tab.put v.regions n (b.over r))).dropRange (r.base + b.len) (r.len - b.len)
      else v.withTable (Tab.put v.regions n (b.over r))) n (some (b.over r)) (r.base + b.len) (r.len - b.len) := fun v => by
    split
    · exact dropRange_remapped (Tab.get_put_self _ _ _) (fun _ hm => Tab.get_put_ne _ _ hm) (by omega) (by omega)
    · exact put_remapped (by omega)
  unfold State.changeRegion
  have hlog : ¬ (!r.sealed && b.sealed) = true := by rw [hs]; simp
  have hgrow : ¬ r.len < b.len := by omega
  cases hp : r.pinned && !b.pin with
  | true =>
    simp only [if_true, if_neg hlog, if_neg hgrow]
    exact (hput (s.unpinRegion r.base r.len)).unpin
  | false =>
    simp only [Bool.false_eq_true, if_false, if_neg hlog, if_neg hgrow]
    exact hput s

/-! ### What an HMAP operation leaves -/

/-- The instruction has changed the table, and is outstanding until the twin, where one is linked, holds the change too. -/
def Maps (s t : State) (x : Iss) (v : Option Word) (n : Nat) (r : Option Region) (lo len : Nat) : Prop :=
  OnlySlot s t x ∧ Outstanding t x (fun o => o.done = some ⟨0, v, 0⟩ ∧ o.phase = s.heldPhase) ∧ OnlyRegion s t n r ∧ OnlyParts mapping s t ∧
  RegsBut [Addr.DST_CNT0] s t ∧ ZeroedOnly s t lo len

theorem remapped_maps {u : State} {e : Option Region} {v : Option Word} {m : Nat} (hfr : FreshOp x) (hb : Begun s t x o) (ho : o.IsOf x s)
    (hs : Same s t) (hp : OnlyParts [.pe, .pmu] s t) (h : Remapped t u n e lo len) :
    Maps s ((u.sendHmap m).finishPriv x.st.cmd o.id u.phl.txNext (OpDone.ok v)) x v n e lo len := by
  obtain ⟨msn, hmsn⟩ := told_finish u m x.st.cmd o.id v
  have htwin : u.phl.twin = s.phl.twin := h.twin.trans (hs.congr (fun s => s.phl.twin) fun _ _ => rfl)
  have hout : OnlyParts [.pe, .phl, .out, .pmu] u ((u.sendHmap m).updOp x.st.cmd o.id (fun o => o.held u.phl.twin.linked msn v)) :=
    ((sendHmap_only u m).comp (State.updOp_only _ _ _ _)).mono (by decide)
  have hbu : Begun s (u.sendHmap m) x o := hb.of_pe ((sendHmap_only u m .pe (by decide)).trans (h.only .pe (by decide)))
  have hbeg := hbu.updOp hfr ho.id (fun o => o.held u.phl.twin.linked msn v)
  rw [hmsn]
  rw [ho.id] at hout ⊢
  refine ⟨hbeg.slot, ?_, ?_, ?_, ?_, ?_⟩
  · exact hbeg.outstanding ho.id ho.opcode ho.pc ho.dest ho.quiet ⟨rfl, by rw [htwin]; rfl⟩
  · have hr : ((u.sendHmap m).updOp x.st.cmd x.c.nextOp (fun o => o.held u.phl.twin.linked msn v)).regions = u.regions := hout .regions (by decide)
    have ht : t.regions = s.regions := hp .regions (by decide)
    rw [OnlyRegion, hr, ← ht]
    exact h.table
  · exact ((hp.comp h.only).comp hout).mono (by decide)
  · exact fun a ha hm => (hout .regs (by decide) a hm).trans ((h.regs a ha hm).trans (hp .regs (by decide) a hm))
  · exact fun a => (hout .bytes (by decide) a).trans ((h.zeroed a).trans (by rw [hp .bytes (by decide) a]))

/-! ### The block is read, and the operation taken -/

theorem privOp_isOf (s : State) (x : Iss) (len : Nat) (result : Bool) : (x.privOp (s.issued x) len result).IsOf x s := by
  cases result <;> exact ⟨rfl, rfl, rfl, rfl, rfl, rfl, rfl, rfl⟩

/-- An HMAP instruction that passes its checks takes the effect of its block (R74, R168). -/
theorem startPriv_hmap {accs : List Acc} {mode result : Bool} (h : CanIssue s k x) (hn : HasWord s x (x.pc + 1)) (hop : x.i.op = 0x80)
    (hpar : HasParams s x accs 64) (hm : mode = false) : (s.issued x).startPriv x mode true 64 accs result =
      (s.taken x (x.privOp (s.issued x) 64 result)).applyHmapOp x.st.cmd (x.privOp (s.issued x) 64 result) (HBlock.ofBytes (x.params s 64)) := by
  obtain ⟨hp, hq, hacc, hr, hc⟩ := hpar
  have ho : (x.privOp (s.issued x) 64 result).opcode = 0x80 := (privOp_isOf s x 64 result).opcode.trans (by rw [hop]; rfl)
  have hlink : (x.privOp (s.issued x) 64 result).link = x.region (x.blkAcc 64) := by cases result <;> rfl
  have hlen : (x.privOp (s.issued x) 64 result).len = 64 := by cases result <;> rfl
  have hsec : (x.privOp (s.issued x) 64 result).sec = s.accDpa x.st (x.blkAcc 64) := by
    have e : (s.issued x).accDpa x.st (x.blkAcc 64) = s.accDpa x.st (x.blkAcc 64) :=
      (issued_same s x).congr (fun s => s.accDpa x.st (x.blkAcc 64)) fun _ _ => rfl
    cases result <;> exact e
  have hph : (x.privOp (s.issued x) 64 result).phase = .source := by cases result <;> rfl
  rw [startPriv_passes h hn hm hp hq]
  refine advPriv_hmap (taken_prepared h _) hacc hph ho ?_
  rw [hlink, hlen, hsec, readSrc_now (taken_prepared h _) (taken_same s x _) (privOp_isOf s x 64 result) hr, cleanPrefix_clean hc]
  rfl

/-- The operation's selector is imm32. -/
theorem privOp_sel (s : State) (x : Iss) (len : Nat) (result : Bool) : (x.privOp s len result).x.toNat = x.i.imm32.toNat := by
  have e : (x.i.imm32.setWidth 64).toNat = x.i.imm32.toNat := by
    rw [BitVec.toNat_setWidth, Nat.mod_eq_of_lt (Nat.lt_of_lt_of_le x.i.imm32.isLt (by decide))]
  cases result <;> exact e

/-- The number that a CREATE takes (R169). -/
def State.createNo (s : State) (b : HBlock) : Nat := if b.any then Tab.fresh s.regions 0 else b.region

theorem applyHmapOp_create (h : Same s t) (c : Nat) (hx : o.x.toNat = 0) (hst : s.createStatus b false = none) (hl : s.needsLent b.len = false) :
    t.applyHmapOp c o b = ((t.addRegion (s.createNo b) b.toRegion).sendHmap (s.createNo b)).finishPriv c o.id
      (t.addRegion (s.createNo b) b.toRegion).phl.txNext (OpDone.ok (some (BitVec.ofNat 64 (s.createNo b)))) := by
  have hf : t.mustFence 0 b = false := by
    unfold State.mustFence
    split <;> simp
  have hc : t.createRegion b false = .done (t.addRegion (s.createNo b) b.toRegion) (s.createNo b) := by
    unfold State.createRegion State.createNo
    rw [h.createStatus, hst, h.needsLent, hl, h.regions]
    rfl
  unfold State.applyHmapOp
  rw [hx, hf, hc]
  rfl

theorem applyHmapOp_modify (h : Same s t) (c : Nat) (hx : o.x.toNat = 1) (hg : Tab.get s.regions b.region = some r)
    (hst : s.modifyStatus b.region r b false = none) (hl : s.needsLent (b.len - r.len) = false) (hf : s.mustFence 1 b = false) :
    t.applyHmapOp c o b = ((t.changeRegion b.region r b).sendHmap b.region).finishPriv c o.id (t.changeRegion b.region r b).phl.txNext (OpDone.ok none) := by
  have hc : t.modifyRegion b false = .done (t.changeRegion b.region r b) 0 := by
    unfold State.modifyRegion
    rw [h.regions, hg]
    simp only
    rw [h.modifyStatus, hst, h.needsLent, hl]
    rfl
  unfold State.applyHmapOp
  rw [hx, h.mustFence, hf, hc]
  rfl

theorem applyHmapOp_delete (h : Same s t) (c : Nat) (hx : o.x.toNat = 2) (hg : Tab.get s.regions b.region = some r) (hb : b.notBare = false)
    (hf : s.mustFence 2 b = false) :
    t.applyHmapOp c o b = ((t.removeRegion b.region r).sendHmap b.region).finishPriv c o.id (t.removeRegion b.region r).phl.txNext (OpDone.ok none) := by
  have hc : t.deleteRegion b = .done (t.removeRegion b.region r) 0 := by
    unfold State.deleteRegion
    rw [hb, h.regions, hg]
    rfl
  unfold State.applyHmapOp
  rw [hx, h.mustFence, hf, hc]
  rfl

theorem applyHmapOp_read (h : Same s t) (c : Nat) (hx : o.x.toNat = 3) (hg : Tab.get s.regions b.region = some r) (hb : b.notBare = false) :
    t.applyHmapOp c o b = t.runWrite c o (.data o.prim (r.block b.region) (OpDone.ok none)) := by
  have hf : t.mustFence 3 b = false := by
    unfold State.mustFence
    split <;> simp
  have hr : t.readHmap c o b = t.runWrite c o (.data o.prim (r.block b.region) (OpDone.ok none)) := by
    unfold State.readHmap
    rw [hb, h.regions, hg]
    rfl
  unfold State.applyHmapOp
  rw [hx, hf]
  exact hr

/-! ### The four operations -/

theorem failIf_none {c : Bool} {st : Status} (h : failIf c st = none) : c = false := by
  cases c with
  | false => rfl
  | true => cases h

theorem stray_of_formed {c : Bool} (h : b.malformed c = false) : b.stray = false := by
  cases hs : b.stray with
  | false => rfl
  | true => simp [HBlock.malformed, hs] at h

/-- R168: what passes the checks of a CREATE is whole blocks. -/
theorem createStatus_aligned {l : List Byte} (h : s.createStatus (HBlock.ofBytes l) false = none) : (HBlock.ofBytes l).base % 4096 = 0 := by
  have hm : failIf ((HBlock.ofBytes l).malformed true) ST.fault = none :=
    List.findSome?_eq_none_iff.mp h _ (List.mem_cons_of_mem _ List.mem_cons_self)
  have hs := stray_of_formed (failIf_none hm)
  simp only [HBlock.ofBytes, Bool.or_eq_false_iff, bne_eq_false_iff_eq] at hs
  obtain ⟨⟨⟨⟨-, hbase⟩, -⟩, -⟩, -⟩ := hs
  exact hbase

end Change

section Rows
variable {s : State} {k : SlotNo} {x : Iss} {r : Region} {b : HBlock}

theorem gives_priv {c : Instr} {p : IWord → Bool} {body : Iss → State → State} {P : State → Prop} (h : CanIssue s k x) (hop : x.i.op = 0x80)
    (he : exec c s = s.issueSel k 0x80 p body) (hp : p x.i = true) (hP : P (body x (s.issued x))) : Gives c s P :=
  gives_issue h (show x.i.opn = 0x80 by rw [IWord.opn, hop]; rfl) (he.trans (issueSel_go h hp)) hP

theorem privSel_of {n m : Nat} (h : x.i.imm32.toNat = m) (hm : m < n) : privSel n x.i = some m := by
  unfold privSel
  rw [h, if_pos hm]

theorem hmapCreate_maps (h : CanIssue s k x) (hn : HasWord s x (x.pc + 1)) (hfr : FreshOp x) (hop : x.i.op = 0x80) (hb : b = HBlock.ofBytes (x.params s 64))
    (hpar : HasParams s x [x.blkAcc 64] 64) (hi : x.i.imm32 = 0) (hpl : s.planned = false) (hst : s.createStatus b false = none)
    (hl : s.needsLent b.len = false) (hs : b.sealed = false) : Gives (.hmapCreate k) s (fun t =>
      Maps s t x (some (BitVec.ofNat 64 (s.createNo b))) (s.createNo b) (some b.toRegion) b.base b.len) := by
  have hsel := privSel_of (n := 4) (m := 0) (show x.i.imm32.toNat = 0 by rw [hi]; rfl) (by decide)
  refine gives_priv h hop (execHmapCreate.eq_1 k s) (by rw [hsel]; rfl) ?_
  have hm : (privSel 4 x.i == some 0 && (s.issued x).planned) = false := by rw [(issued_same s x).planned, hpl, Bool.and_false]
  have hform : (privSel 4 x.i).isSome = true := by rw [hsel]; rfl
  rw [hform, startPriv_hmap h hn hop hpar hm, ← hb,
    applyHmapOp_create (taken_same s x _) _ (by rw [privOp_sel, hi]; rfl) hst hl]
  exact remapped_maps hfr (taken_begun h _) (privOp_isOf s x 64 false) (taken_same s x _) (taken_only s x _)
    (addRegion_remapped hs (hb ▸ createStatus_aligned (hb ▸ hst)) (Nat.mul_mod_right 4096 b.units))

theorem hmapModify_maps (h : CanIssue s k x) (hn : HasWord s x (x.pc + 1)) (hfr : FreshOp x) (hop : x.i.op = 0x80) (hb : b = HBlock.ofBytes (x.params s 64))
    (hpar : HasParams s x [x.blkAcc 64] 64) (hi : x.i.imm32 = 1) (hg : Tab.get s.regions b.region = some r)
    (hst : s.modifyStatus b.region r b false = none) (hl : s.needsLent (b.len - r.len) = false) (hf : s.mustFence 1 b = false)
    (hs : r.sealed = b.sealed) (hbase : r.base % 4096 = 0) (hlen : r.len % 4096 = 0) (hle : b.len ≤ r.len) : Gives (.hmapModify k) s (fun t =>
      Maps s t x none b.region (some (b.over r)) (r.base + b.len) (r.len - b.len)) := by
  have hsel := privSel_of (n := 4) (m := 1) (show x.i.imm32.toNat = 1 by rw [hi]; rfl) (by decide)
  refine gives_priv h hop (execHmapModify.eq_1 k s) (by rw [hsel]; rfl) ?_
  rw [startPriv_hmap h hn hop hpar rfl, ← hb, applyHmapOp_modify (taken_same s x _) _ (by rw [privOp_sel, hi]; rfl) hg hst hl hf]
  exact remapped_maps hfr (taken_begun h _) (privOp_isOf s x 64 false) (taken_same s x _) (taken_only s x _) (changeRegion_remapped hs hbase hlen hle)

theorem hmapDelete_maps (h : CanIssue s k x) (hn : HasWord s x (x.pc + 1)) (hfr : FreshOp x) (hop : x.i.op = 0x80) (hb : b = HBlock.ofBytes (x.params s 64))
    (hpar : HasParams s x [x.blkAcc 64] 64) (hi : x.i.imm32 = 2) (hpl : s.planned = false) (hbare : b.notBare = false)
    (hg : Tab.get s.regions b.region = some r) (hf : s.mustFence 2 b = false) (hs : r.sealed = false) (hbase : r.base % 4096 = 0)
    (hlen : r.len % 4096 = 0) : Gives (.hmapDelete k) s (fun t => Maps s t x none b.region none r.base r.len) := by
  have hsel := privSel_of (n := 4) (m := 2) (show x.i.imm32.toNat = 2 by rw [hi]; rfl) (by decide)
  refine gives_priv h hop (execHmapDelete.eq_1 k s) (by rw [hsel]; rfl) ?_
  rw [startPriv_hmap h hn hop hpar ((issued_same s x).planned.trans hpl), ← hb,
    applyHmapOp_delete (taken_same s x _) _ (by rw [privOp_sel, hi]; rfl) hg hbare hf]
  exact remapped_maps hfr (taken_begun h _) (privOp_isOf s x 64 false) (taken_same s x _) (taken_only s x _) (removeRegion_remapped hs hbase hlen)

theorem hmapRead_writes (h : CanIssue s k x) (hn : HasWord s x (x.pc + 1)) (hop : x.i.op = 0x80) (hb : b = HBlock.ofBytes (x.params s 64))
    (hpar : HasParams s x [x.resAcc, x.blkAcc 64] 64) (hi : x.i.imm32 = 3) (hbare : b.notBare = false)
    (hg : Tab.get s.regions b.region = some r) (hw : WritesOne s x (x.region x.resAcc) (s.accDpa x.st x.resAcc) 64) : Gives (.hmapRead k) s (fun t =>
      Writes s t x .d0 [] [] (x.region x.resAcc) (s.accDpa x.st x.resAcc) (r.block b.region) none) := by
  have hsel := privSel_of (n := 4) (m := 3) (show x.i.imm32.toNat = 3 by rw [hi]; rfl) (by decide)
  refine gives_priv h hop (execHmapRead.eq_1 k s) (by rw [hsel]; rfl) ?_
  have hlen : (r.block b.region).length = 64 := by simp [Region.block]
  rw [startPriv_hmap h hn hop hpar rfl, ← hb, applyHmapOp_read (taken_same s x _) _ (by rw [privOp_sel, hi]; rfl) hg hbare]
  exact taken_writes (o := x.privOp (s.issued x) 64 true) h (privOp_isOf s x 64 true) rfl hlen.symm (by rw [hlen]; exact hw)

end Rows
end Sys2Proof.Machine
end

section
open Sys2Proof Sys2Proof.Machine

/-- Settles O24: a change of the table drops whole blocks, which then read as zero, and tells the twin where one is linked; READ is the write
of one unit. -/
theorem regionsAreMapped : Obligations.RegionsAreMapped := by
  unfold Obligations.RegionsAreMapped
  intro s k x h hn hfr hop
  refine ⟨fun hpar hi hpl hst hl hs => hmapCreate_maps h hn hfr hop rfl hpar hi hpl hst hl hs,
    fun r hpar hi hg hst hl hf hs hb hlen hle => hmapModify_maps h hn hfr hop rfl hpar hi hg hst hl hf hs hb hlen hle,
    fun r hpar hi hpl hb hg hf hs hbase hlen => hmapDelete_maps h hn hfr hop rfl hpar hi hpl hb hg hf hs hbase hlen,
    fun r hpar hi hb hg hw => ?_⟩
  obtain ⟨t, ht, hu, hslot, ⟨hst, c, o, hc, hsteps, hnext, hops, hid, hcode, hpc, hd, hq, hunits, -, hdone⟩, hr, hp⟩ :=
    hmapRead_writes h hn hop rfl hpar hi hb hg hw
  exact ⟨t, ht, hslot, hu, ⟨hst, c, o, hc, hsteps, hnext, hops, hid, hcode, hpc, hd, hq, hunits, hdone⟩, hr, hp⟩

end


section
/-! SUPPORT. The state of the host ports (03): what each update of it touches, and what a port and a logical device read after it. -/

namespace Sys2Proof.Machine

section Hst
variable {s t u : State} {p q : Port} {n m : Nat}

theorem withHst_only (s : State) (h : HstState) : OnlyParts [.hst] s { s with hst := h } := by
  intro p hp
  have hs : p.kept s s := OnlyParts.refl s [] p List.not_mem_nil
  cases p
  case hst => exact absurd (List.mem_singleton.mpr rfl) hp
  all_goals exact hs

theorem setLd_only (s : State) (p : Port) (n : Nat) (l : LdState) : OnlyParts [.hst] s (s.setLd p n l) := withHst_only s _

theorem setDecoders_only (s : State) (p : Port) (l : List Hdm) : OnlyParts [.hst] s (s.setDecoders p l) := withHst_only s _

/-! ### Logical devices -/

theorem ldKey_ne (hn : n < 16) (hm : m < 16) (h : (q, m) ≠ (p, n)) : ldKey q m ≠ ldKey p n := by
  intro he
  unfold ldKey at he
  have hq : q.idx = p.idx := by omega
  have hpq : q = p := by cases p <;> cases q <;> first | rfl | exact absurd hq (by decide)
  exact h (Prod.ext hpq (show m = n by omega))

theorem ld_congr (h : t.hst.lds = s.hst.lds) (q : Port) (m : Nat) : t.ld q m = s.ld q m := by
  unfold State.ld
  rw [h]

@[simp] theorem ld_setLd_self (s : State) (p : Port) (n : Nat) (l : LdState) : (s.setLd p n l).ld p n = l :=
  congrArg (Option.getD · LdState.empty) (Tab.get_put_self ..)

theorem ld_setLd_ne (s : State) (l : LdState) (hn : n < 16) (hm : m < 16) (h : (q, m) ≠ (p, n)) : (s.setLd p n l).ld q m = s.ld q m :=
  congrArg (Option.getD · LdState.empty) (Tab.get_put_ne _ _ (ldKey_ne hn hm h))

/-- Of the ports only this logical device differs, and it is `l`; the rest of them is as `h` has it. -/
def OnlyLd (s t : State) (p : Port) (n : Nat) (h : HstState) (l : LdState) : Prop :=
  t.ld p n = l ∧ t.hst = { h with lds := t.hst.lds } ∧ ∀ q m, (q, m) ≠ (p, n) → m < 16 → t.ld q m = s.ld q m

theorem OnlyLd.setLd (l : LdState) (hn : n < 16) (h : t.hst.lds = s.hst.lds) : OnlyLd s (t.setLd p n l) p n t.hst l :=
  ⟨ld_setLd_self .., rfl, fun q m hne hm => (ld_setLd_ne t l hn hm hne).trans (ld_congr h q m)⟩

theorem OnlyLd.of_hst {h : HstState} {l : LdState} (ho : OnlyLd s t p n h l) (hu : u.hst = t.hst) : OnlyLd s u p n h l := by
  obtain ⟨h1, h2, h3⟩ := ho
  have hl : u.hst.lds = t.hst.lds := by rw [hu]
  exact ⟨(ld_congr hl p n).trans h1, by rw [hu]; exact h2, fun q m hne hm => (ld_congr hl q m).trans (h3 q m hne hm)⟩

/-! ### Ports -/

/-- Reads, logical devices and headroom bits are as they were. -/
def KeepsReads (s t : State) : Prop := t.hst.lds = s.hst.lds ∧ t.hst.reads = s.hst.reads ∧ t.hst.headroom = s.hst.headroom

theorem KeepsReads.setPort (s : State) (p : Port) (c : PortState) : KeepsReads s (s.setPort p c) := by cases p <;> exact ⟨rfl, rfl, rfl⟩

theorem KeepsReads.trans (h : KeepsReads s t) (k : KeepsReads t u) : KeepsReads s u := by
  obtain ⟨h1, h2, h3⟩ := h
  obtain ⟨k1, k2, k3⟩ := k
  exact ⟨k1.trans h1, k2.trans h2, k3.trans h3⟩

theorem KeepsReads.of_hst (h : t.hst = s.hst) : KeepsReads s t := by
  unfold KeepsReads
  rw [h]
  exact ⟨rfl, rfl, rfl⟩

theorem setPort_decoders (s : State) (p : Port) (c : PortState) : (s.setPort p c).hst.decoders = s.hst.decoders := by cases p <;> rfl

theorem raw_setPort (s : State) (p : Port) (c : PortState) (a : Nat) : (s.setPort p c).raw a = s.raw a :=
  State.raw_congr (State.setPort_regs s p c) a

theorem flitIn_only (s : State) (p : Port) : OnlyParts [.hst] s (s.flitIn p) := s.setPort_only _ _

theorem flitIn_keeps (s : State) (p : Port) : KeepsReads s (s.flitIn p) := .setPort s p _

theorem writeFlit_only (s : State) (p : Port) : OnlyParts [.hst] s (s.writeFlit p) := (flitIn_only s p).trans (State.setPort_only _ _ _)

theorem writeFlit_keeps (s : State) (p : Port) : KeepsReads s (s.writeFlit p) := (flitIn_keeps s p).trans (.setPort _ p _)

theorem giveCredit_only (s : State) (p : Port) : OnlyParts [.hst, .out] s (s.giveCredit p) := by
  unfold State.giveCredit
  dsimp only
  split
  · exact OnlyParts.refl s _
  · split
    · exact (s.setPort_only _ _).mono (by decide)
    · exact (s.setPort_only _ _).comp (State.emit_only _ _)

theorem giveCredit_keeps (s : State) (p : Port) : KeepsReads s (s.giveCredit p) := by
  unfold State.giveCredit
  dsimp only
  split
  · exact .of_hst rfl
  · split
    · exact .setPort s p _
    · exact .setPort s p _

theorem setLd_port (s : State) (p : Port) (n : Nat) (l : LdState) (q : Port) : (s.setLd p n l).port q = s.port q := by cases q <;> rfl

theorem setDecoders_port (s : State) (p : Port) (l : List Hdm) (q : Port) : (s.setDecoders p l).port q = s.port q := by cases q <;> rfl

/-! ### A link is taken down -/

/-- The link of the port is down, and what the host had asked for through it is dropped; the writes it has sent stay. -/
def PortDown (s t : State) (p : Port) : Prop :=
  (t.port p).link = 0 ∧ (t.port p).credits = 0 ∧ t.hst.reads = s.hst.reads.filter (fun q => !q.onPort p) ∧
  t.hst.forwarded = s.hst.forwarded.filter (fun f => f.port != p) ∧ (∀ q ∈ [Port.hp0, Port.hp1], q ≠ p → t.port q = s.port q) ∧
  ∀ n < 16, (t.ld p n).taken = (s.ld p n).taken ∧ (t.ld p n).waiting = []

theorem PortDown.of_hst (h : PortDown s t p) (hu : u.hst = t.hst) : PortDown s u p := by
  unfold PortDown State.port State.ld at h ⊢
  rw [hu]
  exact h

theorem dropRequests_ld (s : State) (p : Port) (n : Nat) : (s.dropRequests p).ld p n = { s.ld p n with waiting := [] } := by
  have hk : ldKey p n / 16 = p.idx := by unfold ldKey; omega
  have h := Tab.get_map_val (fun k => decide (k / 16 = p.idx)) (fun l : LdState => { l with waiting := [] }) s.hst.lds (ldKey p n)
  simp only [decide_eq_true_eq, hk, if_true] at h
  unfold State.ld
  rw [show Tab.get (s.dropRequests p).hst.lds (ldKey p n) = _ from h]
  cases Tab.get s.hst.lds (ldKey p n) <;> rfl

theorem linkOff_only (s : State) (p : Port) : OnlyParts [.hst] s (s.linkOff p) := (s.setPort_only _ _).trans (dropRequests_only _ p)

theorem linkOff_down (s : State) (p : Port) : PortDown s (s.linkOff p) p := by
  refine ⟨?_, ?_, ?_, ?_, fun q _ hq => ?_, fun n _ => ?_⟩
  · rw [State.linkOff, dropRequests_port, port_setPort_self]
  · rw [State.linkOff, dropRequests_port, port_setPort_self]
  · cases p <;> rfl
  · cases p <;> rfl
  · rw [State.linkOff, dropRequests_port, port_setPort_ne _ _ hq]
  · rw [State.linkOff, dropRequests_ld, ld_congr (KeepsReads.setPort s p _).1]
    exact ⟨rfl, rfl⟩

theorem linkOff_raw (s : State) (p : Port) (a : Nat) : (s.linkOff p).raw a = s.raw a :=
  (linkOff_only s p).raw (by decide) (by decide) a

end Hst
end Sys2Proof.Machine
end

section
/-! SUPPORT. The commit-fence window (03 R92 to R97): its 64 bytes, and the steps of its reads and of CLEAR. -/

namespace Sys2Proof.Machine

section Result
variable (l : LdState) (seq bound time : Nat)

theorem leNat_leBytes (n v : Nat) : leNat (leBytes n v) = v % 256 ^ n := by
  induction n generalizing v with
  | zero => simp [leBytes, leNat, Nat.mod_one]
  | succ n ih => simp [leBytes, leNat, ih, Nat.pow_succ', Nat.mod_mul]

theorem fenceBytes_length (i : Bool) : (fenceBytes l seq bound i time).length = 64 := by simp [fenceBytes]

theorem fenceBytes_seq (i : Bool) : leNat ((fenceBytes l seq bound i time).take 8) = seq % 2 ^ 64 := by
  have h : (fenceBytes l seq bound i time).take 8 = leBytes 8 seq := by simp [fenceBytes]
  rw [h, leNat_leBytes, show (256 : Nat) ^ 8 = 2 ^ 64 by decide]

theorem Class.code_lt (c : Class) : c.code < 4 := by cases c <;> decide

/-- Byte 16 carries INCOMPLETE above the class. -/
theorem fenceBytes_incomplete : ((fenceBytes l seq bound true time)[16]?).map (fun x => x.getLsbD 7) = some true := by
  have hbit : ∀ c < 4, (BitVec.ofNat 8 (c + 128)).getLsbD 7 = true := by decide
  unfold fenceBytes
  simp only [List.append_assoc]
  rw [List.getElem?_append_right (by simp), List.getElem?_append_right (by simp)]
  simp only [leBytes_length, List.cons_append, if_true, Nat.reduceSub, List.getElem?_cons_zero, Option.map_some, Option.some.injEq]
  split
  next c _ => exact hbit _ (Class.code_lt c)
  next => exact hbit 3 (by decide)

end Result

section Window
variable {s t : State} {p : Port} {n : Nat} {ld : BitVec 4} {q : FenceReq} {rest : List FenceReq}

theorem fenceOpen_iff : s.fenceOpen p n = true ↔ s.portUp p = true ∧ s.ldEnabled p n = true ∧ (s.fenceWindow p n).isSome = true := by
  rw [State.fenceOpen, Bool.and_eq_true, Bool.and_eq_true, and_assoc]

/-- The registers that say whether a logical device serves and has a window. -/
def fenceFlds (p : Port) (n : Nat) : List Fld :=
  [F.HST_PORT_CTL.MLD p, F.HST_LD_MAP.ENABLE p n, F.HST_LD_FENCE.ENABLE p n, F.HST_LD_FENCE.DPA_PAGE p n]

theorem fenceOpen_congr (hr : t.running .hst = s.running .hst) (hp : t.port p = s.port p)
    (hf : ∀ f ∈ fenceFlds p n, t.raw f.addr = s.raw f.addr) : t.fenceOpen p n = s.fenceOpen p n := by
  have hmld : t.on (F.HST_PORT_CTL.MLD p) = s.on (F.HST_PORT_CTL.MLD p) := State.on_of_raw (hf _ (by simp [fenceFlds]))
  have hen : t.on (F.HST_LD_MAP.ENABLE p n) = s.on (F.HST_LD_MAP.ENABLE p n) := State.on_of_raw (hf _ (by simp [fenceFlds]))
  have hwin : t.on (F.HST_LD_FENCE.ENABLE p n) = s.on (F.HST_LD_FENCE.ENABLE p n) := State.on_of_raw (hf _ (by simp [fenceFlds]))
  have hpage : t.fld (F.HST_LD_FENCE.DPA_PAGE p n) = s.fld (F.HST_LD_FENCE.DPA_PAGE p n) := State.fld_of_raw (hf _ (by simp [fenceFlds]))
  unfold State.fenceOpen State.portUp State.ldEnabled State.ldPresent State.fenceWindow
  rw [hr, hp, hmld, hen, hwin, hpage]

theorem reqCredit_of (hu : s.portUp p = true) (hc : s.readsOut p + s.fencesOut p < 512) {fence : Bool} (hf : fence = true → s.fencesOut p < 256) :
    s.reqCredit p fence = true := by
  cases fence with
  | false => simp [State.reqCredit, hu, hc]
  | true => simp [State.reqCredit, hu, hc, hf rfl]

theorem fenceAccess_open (ho : s.fenceOpen p n = true) (t u : State) : s.fenceAccess p n t u = t := by
  obtain ⟨-, he, hw⟩ := fenceOpen_iff.mp ho
  rw [State.fenceAccess, he, hw]
  rfl

theorem fenceAccess_unserved (he : s.ldEnabled p n = false) (t u : State) : s.fenceAccess p n t u = u := by
  rw [State.fenceAccess, he]
  rfl

/-! ### A fence read arrives -/

theorem exec_fenceRead (ho : s.fenceOpen p ld.toNat = true) (hc : s.readsOut p + s.fencesOut p < 512) (hf : s.fencesOut p < 256)
    (off : BitVec 6) (len : BitVec 7) (tag : BitVec 16) :
    exec (.fenceRead p ld off len tag) s = .next ((s.flitIn p).fenceArrive p ld.toNat off.toNat len.toNat tag.toNat) :=
  (when_pos (reqCredit_of (fenceOpen_iff.mp ho).1 hc fun _ => hf) _ _).trans (congrArg Host.Outcome.next (fenceAccess_open ho _ _))

theorem fenceArrive_effect (s : State) (p : Port) (hn : n < 16) (off len tag : Nat) :
    OnlyParts [.hst] s ((s.flitIn p).fenceArrive p n off len tag) ∧
    OnlyLd s ((s.flitIn p).fenceArrive p n off len tag) p n (s.flitIn p).hst { s.ld p n with waiting := (s.ld p n).waiting ++
      [{ bound := s.pst.nextUnit, off := off, len := len, tag := tag }] } := by
  have hl : (s.flitIn p).hst.lds = s.hst.lds := (flitIn_keeps s p).1
  have hpst : (s.flitIn p).pst = s.pst := State.setPort_pst ..
  rw [State.fenceArrive, ld_congr hl, hpst]
  exact ⟨(flitIn_only s p).trans (setLd_only _ _ _ _), .setLd _ hn hl⟩

/-! ### A fence read completes -/

/-- The fence read that waits longest has its answer, and those behind it wait on. -/
def State.fenceCompleted (s : State) (p : Port) (n : Nat) (q : FenceReq) (rest : List FenceReq) : State :=
  let l := s.ld p n
  ((s.setLd p n { l with seq := l.seq + 1, waiting := rest, taken := l.taken.filter (fun t => decide (q.bound ≤ t.id)) }).emit
    (q.reply p n (fenceBytes l (l.seq + 1) q.bound false s.time) (s.devLoad p n))).countEvent 0x013 1 none (some p.idx)

theorem exec_fenceComplete (hu : s.portUp p = true) (hw : (s.ld p ld.toNat).waiting = q :: rest) (hs : (s.ld p ld.toNat).settled q.bound = true) :
    exec (.fenceComplete p ld) s = .next (s.fenceCompleted p ld.toNat q rest) := by
  show execFenceComplete p ld s = _
  unfold execFenceComplete
  dsimp only
  rw [hw]
  exact when_pos (by rw [hu, hs]; rfl) _ _

theorem fenceCompleted_effect (s : State) (p : Port) (hn : n < 16) (q : FenceReq) (rest : List FenceReq) :
    OnlyParts [.hst, .out, .pmu] s (s.fenceCompleted p n q rest) ∧
    OnlyLd s (s.fenceCompleted p n q rest) p n s.hst { s.ld p n with
      seq := (s.ld p n).seq + 1, waiting := rest, taken := (s.ld p n).taken.filter (fun i => decide (q.bound ≤ i.id)) } ∧
    (s.fenceCompleted p n q rest).out = s.out ++
      [q.reply p n (fenceBytes (s.ld p n) ((s.ld p n).seq + 1) q.bound false s.time) (s.devLoad p n)] :=
  ⟨(setLd_only s p n _).comp ((State.emit_only _ _).comp (State.countEvent_only _ _ _ _ _)),
    (OnlyLd.setLd _ hn rfl).of_hst (State.countEvent_hst ..), State.countEvent_out ..⟩

/-- MAX_WAIT has passed for the fence read that waits longest. -/
def State.fenceTimedOut (s : State) (p : Port) (n : Nat) (q : FenceReq) (rest : List FenceReq) : State :=
  ((s.setLd p n { s.ld p n with waiting := rest }).emit
    (q.reply p n (fenceBytes (s.ld p n) (s.ld p n).seq q.bound true s.time) (s.devLoad p n))).bump (F.HST_CNT2.FENCE_TIMEOUTS p)

theorem exec_fenceTimeout (hu : s.portUp p = true) (hw : (s.ld p ld.toNat).waiting = q :: rest) (hs : (s.ld p ld.toNat).settled q.bound = false) :
    exec (.fenceTimeout p ld) s = .next (s.fenceTimedOut p ld.toNat q rest) := by
  show execFenceTimeout p ld s = _
  unfold execFenceTimeout
  dsimp only
  rw [hw]
  exact when_pos (by rw [hu, hs]; rfl) _ _

theorem fenceTimedOut_raw (s : State) (p : Port) (n : Nat) (q : FenceReq) (rest : List FenceReq) {a : Nat}
    (h : a ≠ (F.HST_CNT2.FENCE_TIMEOUTS p).addr) : (s.fenceTimedOut p n q rest).raw a = s.raw a :=
  (State.raw_bumpBy_ne _ _ 1 h).trans (State.raw_congr rfl a)

theorem fenceTimedOut_effect (s : State) (p : Port) (hn : n < 16) (q : FenceReq) (rest : List FenceReq) :
    OnlyParts [.hst, .out, .regs] s (s.fenceTimedOut p n q rest) ∧
    RegsBut [(F.HST_CNT2.FENCE_TIMEOUTS p).addr] s (s.fenceTimedOut p n q rest) ∧
    Rises s (s.fenceTimedOut p n q rest) (F.HST_CNT2.FENCE_TIMEOUTS p) 1 ∧
    OnlyLd s (s.fenceTimedOut p n q rest) p n s.hst { s.ld p n with waiting := rest } ∧
    (s.fenceTimedOut p n q rest).out = s.out ++
      [q.reply p n (fenceBytes (s.ld p n) (s.ld p n).seq q.bound true s.time) (s.devLoad p n)] :=
  ⟨(setLd_only s p n _).comp ((State.emit_only _ _).comp (State.bump_only _ _ (by cases p <;> decide))),
    fun _ ha _ => fenceTimedOut_raw s p n q rest (by simpa using ha), (rises_bumpBy _ (by cases p <;> decide) 1).before (State.raw_congr rfl _),
    (OnlyLd.setLd _ hn rfl).of_hst (State.bump_hst ..), State.bump_out ..⟩

/-- The window stays as it was when a fence read times out. -/
theorem fenceTimedOut_open (hn : n < 16) (ho : s.fenceOpen p n = true) (q : FenceReq) (rest : List FenceReq) :
    (s.fenceTimedOut p n q rest).fenceOpen p n = true := by
  have honly := (fenceTimedOut_effect s p hn q rest).1
  have hrun : (s.fenceTimedOut p n q rest).running .hst = s.running .hst := running_congr (honly .mod (by decide)) (honly .islands (by decide)) _
  have hport : (s.fenceTimedOut p n q rest).port p = s.port p := (port_congr (State.bump_hst ..) p).trans (setLd_port s p n _ p)
  refine (fenceOpen_congr hrun hport fun f hf => fenceTimedOut_raw s p n q rest ?_).trans ho
  unfold fenceFlds at hf
  obtain rfl | rfl | rfl | rfl : f = _ ∨ f = _ ∨ f = _ ∨ f = _ := by simpa using hf
  all_goals
    simp only [F.HST_PORT_CTL.MLD, F.HST_LD_MAP.ENABLE, F.HST_LD_FENCE.ENABLE, F.HST_LD_FENCE.DPA_PAGE, F.HST_CNT2.FENCE_TIMEOUTS]
    omega

/-! ### The state of the window, and CLEAR -/

theorem exec_fenceStatusRead (ho : s.fenceOpen p ld.toNat = true) (hc : s.readsOut p + s.fencesOut p < 512) (tag : BitVec 16) :
    exec (.fenceStatusRead p ld tag) s = .next ((s.flitIn p).fenceStatus p ld.toNat tag.toNat) :=
  (when_pos (reqCredit_of (fenceOpen_iff.mp ho).1 hc (fence := false) nofun) _ _).trans (congrArg Host.Outcome.next (fenceAccess_open ho _ _))

theorem fenceStatus_out (s : State) (p : Port) (n tag : Nat) : ∃ dl, ((s.flitIn p).fenceStatus p n tag).out = s.out ++
    [.cxlData p n tag (fenceBytes (s.ld p n) (s.ld p n).seq s.pst.nextUnit (!(s.ld p n).settled s.pst.nextUnit) s.time) false dl] := by
  have hl : (s.flitIn p).ld p n = s.ld p n := ld_congr (flitIn_keeps s p).1 p n
  have hout : (s.flitIn p).out = s.out := State.setPort_out ..
  have hpst : (s.flitIn p).pst = s.pst := State.setPort_pst ..
  have htime : (s.flitIn p).time = s.time := State.setPort_time ..
  refine ⟨(s.flitIn p).devLoad p n, ?_⟩
  rw [State.fenceStatus, State.emit_out, hl, hout, hpst, htime]

/-- CLEAR has emptied the window's status, and its credit goes back. -/
def State.fenceCleared (s : State) (p : Port) (n : Nat) : State := ((s.writeFlit p).clearFence p n).giveCredit p

theorem exec_fenceClear (ho : s.fenceOpen p ld.toNat = true) (hc : 0 < (s.port p).credits) : exec (.fenceClear p ld) s =
    .next ((s.fenceCleared p ld.toNat).emit (.cxlCmp p ld.toNat ((s.fenceCleared p ld.toNat).devLoad p ld.toNat))) :=
  (when_pos (by rw [(fenceOpen_iff.mp ho).1, decide_eq_true hc]; rfl) _ _).trans (congrArg Host.Outcome.next (fenceAccess_open ho _ _))

theorem fenceCleared_effect (s : State) (p : Port) (hn : n < 16) :
    OnlyParts [.hst, .out] s (s.fenceCleared p n) ∧
    (s.fenceCleared p n).ld p n = { s.ld p n with status := 0, failCount := 0, firstFail := 0 } ∧
    (∀ q m, (q, m) ≠ (p, n) → m < 16 → (s.fenceCleared p n).ld q m = s.ld q m) ∧ (s.fenceCleared p n).hst.reads = s.hst.reads := by
  obtain ⟨hw, hwr, -⟩ := writeFlit_keeps s p
  obtain ⟨hg, hgr, -⟩ := giveCredit_keeps ((s.writeFlit p).clearFence p n) p
  obtain ⟨h1, -, h3⟩ : OnlyLd s ((s.writeFlit p).clearFence p n) p n _ _ := OnlyLd.setLd _ hn hw
  refine ⟨?_, ?_, fun q m hne hm => (ld_congr hg q m).trans (h3 q m hne hm), hgr.trans hwr⟩
  · exact (((writeFlit_only s p).trans (setLd_only _ _ _ _)).comp (giveCredit_only _ _)).mono (by decide)
  · rw [← ld_congr hw p n]
    exact (ld_congr hg p n).trans h1

/-! ### A logical device that does not serve -/

theorem exec_fenceRead_unserved (hu : s.portUp p = true) (he : s.ldEnabled p ld.toNat = false) (hc : s.readsOut p + s.fencesOut p < 512)
    (hf : s.fencesOut p < 256) (off : BitVec 6) (len : BitVec 7) (tag : BitVec 16) :
    exec (.fenceRead p ld off len tag) s = .next ((s.flitIn p).emit (.unsupported p tag.toNat)) :=
  (when_pos (reqCredit_of hu hc fun _ => hf) _ _).trans (congrArg Host.Outcome.next (fenceAccess_unserved he _ _))

theorem exec_fenceStatusRead_unserved (hu : s.portUp p = true) (he : s.ldEnabled p ld.toNat = false)
    (hc : s.readsOut p + s.fencesOut p < 512) (tag : BitVec 16) :
    exec (.fenceStatusRead p ld tag) s = .next ((s.flitIn p).emit (.unsupported p tag.toNat)) :=
  (when_pos (reqCredit_of hu hc (fence := false) nofun) _ _).trans (congrArg Host.Outcome.next (fenceAccess_unserved he _ _))

theorem exec_fenceClear_unserved (hu : s.portUp p = true) (he : s.ldEnabled p ld.toNat = false) (hc : 0 < (s.port p).credits) :
    exec (.fenceClear p ld) s = .next ((s.writeFlit p).writeUnserved p) :=
  (when_pos (by rw [hu, decide_eq_true hc]; rfl) _ _).trans (congrArg Host.Outcome.next (fenceAccess_unserved he _ _))

theorem flitIn_refused (s : State) (p : Port) (o : Out) : OnlyParts [.out, .hst] s ((s.flitIn p).emit o) ∧
    ((s.flitIn p).emit o).hst = (s.flitIn p).hst ∧ ((s.flitIn p).emit o).out = s.out ++ [o] :=
  ⟨((flitIn_only s p).comp (State.emit_only _ _)).mono (by decide), rfl, by rw [State.emit_out, State.flitIn, State.setPort_out]⟩

/-- The flag and the count of a write that found no logical device. -/
theorem addrFault_flag (s : State) (p : Port) :
    let t := (s.bump (F.HST_CNT2.ADDR_FAULTS p)).flag (F.HST_ERR.ADDR_FAULT p)
    OnlyParts [.regs] s t ∧ t.fld (F.HST_ERR.ADDR_FAULT p) = 1 :=
  ⟨(State.bump_only _ _ (by cases p <;> decide)).trans (State.flag_only _ _ (by cases p <;> decide)),
    State.fld_flag_self _ _ (by cases p <;> decide) (by cases p <;> decide)⟩

theorem writeUnserved_effect (s : State) (p : Port) : OnlyParts [.regs, .out, .hst] s (s.writeUnserved p) ∧ KeepsReads s (s.writeUnserved p) ∧
    (s.writeUnserved p).fld (F.HST_ERR.ADDR_FAULT p) = 1 ∧ (s.writeUnserved p).out.getLast? = some (.unsupported p 0) := by
  obtain ⟨h1, h2⟩ := addrFault_flag s p
  have hpaid := giveCredit_only ((s.bump (F.HST_CNT2.ADDR_FAULTS p)).flag (F.HST_ERR.ADDR_FAULT p)) p
  have hraw : (s.writeUnserved p).raw (F.HST_ERR.ADDR_FAULT p).addr = _ := (hpaid.comp (State.emit_only _ _)).raw (by decide) (by decide) _
  refine ⟨(h1.comp (hpaid.comp (State.emit_only _ _))).mono (by decide), ?_, (State.fld_of_raw hraw).trans h2, ?_⟩
  · exact (KeepsReads.of_hst (h1 .hst (by decide))).trans (giveCredit_keeps _ p)
  · rw [State.writeUnserved, State.emit_out, List.getLast?_concat]

end Window
end Sys2Proof.Machine
end

section
/-! SUPPORT. Global Persistent Flush and the links of the host ports (03 R78, R89, R91, R99, R100, R103). -/

namespace Sys2Proof.Machine

section Flush
variable {s : State} {p : Port} {b : Nat}

theorem exec_gpfFlush_begun (hu : s.portUp p = true) (hg : (s.port p).gpf = none) : exec (.gpfFlush p) s =
    .next (if s.portSettled p s.pst.nextUnit then s.gpfDone p else s.setPort p { s.port p with gpf := some s.pst.nextUnit }) := by
  show execGpfFlush p s = _
  unfold execGpfFlush
  rw [hg]
  exact when_pos hu _ _

theorem exec_gpfFlush_pending (hu : s.portUp p = true) (hg : (s.port p).gpf = some b) (hs : s.portSettled p b = true) :
    exec (.gpfFlush p) s = .next (s.gpfDone p) := by
  show execGpfFlush p s = _
  unfold execGpfFlush
  rw [hg]
  exact when_pos (by rw [hu, hs]; rfl) _ _

theorem exec_gpfLate (hu : s.portUp p = true) (hg : (s.port p).gpf = some b) (hs : s.portSettled p b = false) :
    exec (.gpfLate p) s = .next ((s.gpfDone p).recFlag sevWarn .hst (F.HST_ERR.GPF_LATE p) p.idx) := by
  show execGpfLate p s = _
  unfold execGpfLate
  rw [hg]
  exact when_pos (by rw [hu, hs]; rfl) _ _

theorem gpfDone_effect (s : State) (p : Port) : OnlyParts [.out, .hst] s (s.gpfDone p) ∧ KeepsReads s (s.gpfDone p) ∧
    (s.gpfDone p).port p = { s.port p with gpf := none } ∧ (s.gpfDone p).out = s.out ++ [.gpfDone p] :=
  ⟨((s.setPort_only _ _).comp (State.emit_only _ _)).mono (by decide), .setPort s p _, port_setPort_self s p _,
    by rw [State.gpfDone, State.emit_out, State.setPort_out]⟩

theorem gpfLate_effect (s : State) (p : Port) :
    let t := (s.gpfDone p).recFlag sevWarn .hst (F.HST_ERR.GPF_LATE p) p.idx
    OnlyParts [.out, .hst, .regs, .records] s t ∧ RegsBut [(F.HST_ERR.GPF_LATE p).addr] s t ∧ KeepsReads s t ∧
    t.port p = { s.port p with gpf := none } ∧ t.out = s.out ++ [.gpfDone p] ∧ t.fld (F.HST_ERR.GPF_LATE p) = 1 := by
  obtain ⟨h1, h2, h3, h4⟩ := gpfDone_effect s p
  refine ⟨h1.comp (State.recFlag_only _ _ _ _ _ (by cases p <;> decide)), ?_, h2.trans (.of_hst (State.recFlag_hst ..)),
    (port_congr (State.recFlag_hst ..) p).trans h3, (State.recFlag_out ..).trans h4, recFlag_set _ _ _ _ rfl (by cases p <;> decide)⟩
  exact RegsBut.trans (fun a _ _ => h1.raw (by decide) (by decide) a) (recFlag_regsBut _ _ _ _ _)

end Flush

section Link
variable {s : State} {p : Port}

theorem viral_effect (s : State) (p : Port) :
    let t := (s.setPort p { s.port p with link := 3 }).recState sevWarn .hst (F.HST_PORT_STATUS.LINK p)
    OnlyParts [.hst, .records] s t ∧ KeepsReads s t ∧ t.port p = { s.port p with link := 3 } :=
  ⟨(s.setPort_only _ _).comp (State.recState_only _ _ _ _), (KeepsReads.setPort s p _).trans (.of_hst (State.recState_hst ..)),
    (port_congr (State.recState_hst ..) p).trans (port_setPort_self s p _)⟩

theorem linkDowned_effect (s : State) (p : Port) :
    RegsBut [(F.HST_CNT2.LINK_DOWNS p).addr, (F.HST_ERR.LINK_DOWN p).addr] s (s.linkDowned p) ∧ PortDown s (s.linkDowned p) p ∧
    (s.linkDowned p).fld (F.HST_ERR.LINK_DOWN p) = 1 ∧ Rises s (s.linkDowned p) (F.HST_CNT2.LINK_DOWNS p) 1 := by
  have hcnt : RegsBut [(F.HST_CNT2.LINK_DOWNS p).addr, (F.HST_ERR.LINK_DOWN p).addr] (s.linkOff p) ((s.linkOff p).bump (F.HST_CNT2.LINK_DOWNS p)) :=
    .bumpBy _ _ 1 (by simp)
  have hflag := recFlag_regsBut ((s.linkOff p).bump (F.HST_CNT2.LINK_DOWNS p)) sevWarn .hst (F.HST_ERR.LINK_DOWN p) p.idx
  refine ⟨fun a ha hp => ?_, (linkOff_down s p).of_hst (linkDowned_regs_only s p .hst (by decide)),
    recFlag_set _ _ _ _ rfl (by cases p <;> decide), ?_⟩
  · exact (hflag a (fun h => ha (List.mem_cons_of_mem _ h)) hp).trans ((hcnt a ha hp).trans (linkOff_raw s p a))
  · exact ((rises_bumpBy _ (by cases p <;> decide) 1).before (linkOff_raw s p _)).after (hflag _ (by cases p <;> decide) (by cases p <;> decide))

/-! ### Training -/

theorem exec_linkUp (hr : s.running .hst = true) (he : s.on (F.HST_PORT_CTL.ENABLE p) = true) (hl : (s.port p).link ≠ 2)
    (ha : s.linkAllowed = true) (ht : s.lanesTrained 3 p.idx = true) {speed : BitVec 3} (h3 : 3 ≤ speed.toNat) (h6 : speed.toNat ≤ 6)
    (wide mld : Bool) (ds : List Hdm) : exec (.linkUp p wide speed mld ds) s = .next (s.hostTrained p wide speed.toNat mld ds) :=
  when_pos (by rw [hr, he, decide_eq_true hl, ha, ht, decide_eq_true h3, decide_eq_true h6]; rfl) _ _

section Trained
variable (s : State) (p : Port) (wide mld : Bool) (speed : Nat) (ds : List Hdm)

theorem hostTrained_only : OnlyParts [.hst, .out] s (s.hostTrained p wide speed mld ds) :=
  (((s.setPort_only _ _).trans (setDecoders_only _ p ds)).comp ((State.emit_only _ _).trans (State.emit_only _ _)))

theorem hostTrained_keeps : KeepsReads s (s.hostTrained p wide speed mld ds) := .setPort s p _

theorem hostTrained_out : (s.hostTrained p wide speed mld ds).out = s.out ++
    [.cxlAdvert p (hostCaps (mld && s.on (F.HST_PORT_CTL.MLD p))), .cxlCredits p (s.upCredits p)] := by
  have h : ∀ c l, ((s.setPort p c).setDecoders p l).out = s.out := fun c _ => State.setPort_out s p c
  rw [State.hostTrained, State.emit_out, State.emit_out, h, List.append_assoc]
  rfl

theorem hostTrained_port : (s.hostTrained p wide speed mld ds).port p = { s.port p with
    link := 2, width := if wide then 16 else 8, speed := speed, credits := s.upCredits p, owed := 0, rxSeq := 0, mldSwitch := mld } :=
  (setDecoders_port _ p ds p).trans (port_setPort_self s p _)

theorem hostTrained_port_ne {q : Port} (h : q ≠ p) : (s.hostTrained p wide speed mld ds).port q = s.port q :=
  (setDecoders_port _ p ds q).trans (port_setPort_ne s _ h)

theorem hostTrained_decoders : (s.hostTrained p wide speed mld ds).hst.decoders =
    s.hst.decoders.filter (fun e => e.1 != p) ++ ((ds.filter hdmOk).take 16).map (fun d => (p, d)) := by
  show (s.setPort p _).hst.decoders.filter _ ++ _ = _
  rw [setPort_decoders]

theorem mem_hostTrained_decoders {d : Hdm} : (p, d) ∈ (s.hostTrained p wide speed mld ds).hst.decoders ↔ d ∈ (ds.filter hdmOk).take 16 := by
  rw [hostTrained_decoders, List.mem_append, List.mem_filter, List.mem_map]
  simp only [bne_self_eq_false, Bool.false_eq_true, and_false, false_or, Prod.mk.injEq, true_and, exists_eq_right]

theorem mem_hostTrained_decoders_ne {q : Port} {d : Hdm} (h : q ≠ p) :
    (q, d) ∈ (s.hostTrained p wide speed mld ds).hst.decoders ↔ (q, d) ∈ s.hst.decoders := by
  rw [hostTrained_decoders, List.mem_append, List.mem_filter, List.mem_map]
  simp only [bne_iff_ne, ne_eq, h, not_false_eq_true, and_true, Prod.mk.injEq, h.symm, false_and, and_false, exists_false, or_false]

end Trained

/-! ### ENABLE -/

theorem exec_hstPortEnable (hr : s.running .hst = true) (on : Bool) : exec (.hstPortEnable p on) s = .next (s.portEnable p on) := when_pos hr _ _

theorem portEnable_on (s : State) (p : Port) : s.portEnable p true =
    (s.setFld (F.HST_PORT_CTL.ENABLE p) 1).setPort p { s.port p with link := max 1 (s.port p).link, closing := false } := by
  unfold State.portEnable
  rw [if_pos rfl]
  split
  next h => rw [h]; rfl
  next h => rw [Nat.max_eq_right (Nat.one_le_iff_ne_zero.mpr h)]; rfl

theorem portEnable_off (h : s.portCrossing p = false) : s.portEnable p false = (s.setFld (F.HST_PORT_CTL.ENABLE p) 0).linkOff p := by
  unfold State.portEnable
  rw [h]
  rfl

theorem portEnable_closing (h : s.portCrossing p = true) :
    s.portEnable p false = (s.setFld (F.HST_PORT_CTL.ENABLE p) 0).setPort p { s.port p with closing := true } := by
  unfold State.portEnable
  rw [h]
  rfl

theorem setEnable_only (s : State) (p : Port) (v : Nat) : OnlyParts [.regs] s (s.setFld (F.HST_PORT_CTL.ENABLE p) v) :=
  State.setFld_only _ _ _ (by cases p <;> decide)

theorem setEnable_regsBut (s : State) (p : Port) (v : Nat) : RegsBut [(F.HST_PORT_CTL.ENABLE p).addr] s (s.setFld (F.HST_PORT_CTL.ENABLE p) v) :=
  RegsBut.setFld _ _ _ (List.mem_singleton.mpr rfl)

/-- ENABLE is written and the port is `c`, whatever else of it changes; the other port is as it was. -/
theorem enabled_effect (s : State) (p : Port) (v : Nat) (c : PortState) :
    let t := (s.setFld (F.HST_PORT_CTL.ENABLE p) v).setPort p c
    OnlyParts [.hst, .regs] s t ∧ RegsBut [(F.HST_PORT_CTL.ENABLE p).addr] s t ∧
    (∀ q ∈ [Port.hp0, Port.hp1], q ≠ p → t.port q = s.port q) ∧ t.fld (F.HST_PORT_CTL.ENABLE p) = v % 2 ∧ t.port p = c :=
  ⟨((setEnable_only s p v).comp (State.setPort_only _ p c)).mono (by decide),
    fun a ha hp => (raw_setPort _ p c a).trans (setEnable_regsBut s p v a ha hp),
    fun _ _ hq => port_setPort_ne _ c hq, (State.fld_of_raw (raw_setPort _ p c _)).trans (State.fld_setFld_self s _ v (by cases p <;> decide)),
    port_setPort_self _ p c⟩

theorem disabled_effect (s : State) (p : Port) :
    let t := (s.setFld (F.HST_PORT_CTL.ENABLE p) 0).linkOff p
    OnlyParts [.hst, .regs] s t ∧ RegsBut [(F.HST_PORT_CTL.ENABLE p).addr] s t ∧ t.fld (F.HST_PORT_CTL.ENABLE p) = 0 ∧ PortDown s t p :=
  ⟨((setEnable_only s p 0).comp (linkOff_only _ p)).mono (by decide),
    fun a ha hp => (linkOff_raw _ p a).trans (setEnable_regsBut s p 0 a ha hp),
    (State.fld_of_raw (linkOff_raw _ p _)).trans (State.fld_setFld_self s _ 0 (by cases p <;> decide)), linkOff_down _ p⟩

end Link
end Sys2Proof.Machine
end

section
open Sys2Proof Sys2Proof.Machine

/-- Settles O30: each row's step is written out on the states of its clause; what it leaves alone comes from the frames of the updates it is
made of, and what it changes is one logical device, one port or one counter. -/
theorem hostLinksAndFenceWindows : Obligations.HostLinksAndFenceWindows := by
  unfold Obligations.HostLinksAndFenceWindows
  refine ⟨fun s p ld ho => ⟨?arrive, ?complete, ?timeout, ?status, ?clear⟩,
    fun s p ld tag hu he hc => ⟨?readUnserved, ?statusUnserved, ?clearUnserved⟩,
    fun s p hu => ⟨?flushed, ?begun, ?pending, ?viral, ?retry⟩, fun s p hr => ⟨?down, ?up, ?enable, ?disable, ?closing⟩⟩
  case arrive => exact fun off len tag hc hf => ⟨_, exec_fenceRead ho hc hf off len tag, fenceArrive_effect s p ld.isLt _ _ _⟩
  case complete =>
    intro q rest hw hs
    obtain ⟨h1, hld, hout⟩ := fenceCompleted_effect s p ld.isLt q rest
    exact ⟨_, exec_fenceComplete (fenceOpen_iff.mp ho).1 hw hs, h1, hld, _, hout⟩
  case timeout =>
    intro q rest hw hs
    obtain ⟨h1, h2, h3, h4, h5⟩ := fenceTimedOut_effect s p ld.isLt q rest
    exact ⟨_, exec_fenceTimeout (fenceOpen_iff.mp ho).1 hw hs, h1, h2, h3, h4, _, h5⟩
  case status =>
    exact fun tag hc => ⟨_, exec_fenceStatusRead ho hc tag, ((flitIn_only s p).comp (State.emit_only _ _)).mono (by decide), rfl,
      fenceStatus_out s p _ _⟩
  case clear =>
    intro hc
    obtain ⟨h1, h2, h3, h4⟩ := fenceCleared_effect s p ld.isLt
    exact ⟨_, exec_fenceClear ho hc, (h1.comp (State.emit_only _ _)).mono (by decide), h2, h3, h4, _,
      by rw [State.emit_out, List.getLast?_concat]⟩
  case readUnserved => exact fun off len hf => ⟨_, exec_fenceRead_unserved hu he hc hf off len tag, flitIn_refused s p _⟩
  case statusUnserved => exact ⟨_, exec_fenceStatusRead_unserved hu he hc tag, flitIn_refused s p _⟩
  case clearUnserved =>
    intro hcr
    obtain ⟨h1, ⟨h2, -, -⟩, h3, h4⟩ := writeUnserved_effect (s.writeFlit p) p
    exact ⟨_, exec_fenceClear_unserved hu he hcr, ((writeFlit_only s p).comp h1).mono (by decide), h2.trans (writeFlit_keeps s p).1, h3, h4⟩
  case flushed =>
    intro hg hs
    obtain ⟨h1, h2, h3, h4⟩ := gpfDone_effect s p
    exact ⟨_, (exec_gpfFlush_begun hu hg).trans (congrArg Host.Outcome.next (if_pos hs)), h1, h2, by rw [h3, ← hg], h4⟩
  case begun =>
    exact fun hg hs => ⟨_, (exec_gpfFlush_begun hu hg).trans (congrArg Host.Outcome.next (if_neg (by rw [hs]; decide))), s.setPort_only _ _,
      KeepsReads.setPort s p _, port_setPort_self s p _⟩
  case pending =>
    exact fun b hg => ⟨fun hs => ⟨_, exec_gpfFlush_pending hu hg hs, gpfDone_effect s p⟩,
      fun hs => ⟨_, exec_gpfLate hu hg hs, gpfLate_effect s p⟩⟩
  case viral => exact ⟨_, when_pos hu _ _, viral_effect s p⟩
  case retry =>
    exact fun n hn => ⟨_, when_pos (by rw [hu, hn]; rfl) _ _, State.bump_only _ _ (by cases p <;> decide),
      RegsBut.bumpBy _ _ _ (List.mem_singleton.mpr rfl), rises_bumpBy _ (by cases p <;> decide) 1⟩
  case down => exact fun hl => ⟨_, when_pos (by rw [hr, decide_eq_true hl]; rfl) _ _, linkDowned_only s p, linkDowned_effect s p⟩
  case up =>
    intro wide mld speed ds he hl ha ht h3 h6
    obtain ⟨hlds, hreads, -⟩ := hostTrained_keeps s p wide mld speed.toNat ds
    exact ⟨_, exec_linkUp hr he hl ha ht h3 h6 wide mld ds, hostTrained_only s p wide mld _ ds,
      fun q _ hq => hostTrained_port_ne s p wide mld _ ds hq, hostTrained_port .., hlds, hreads, hostTrained_out ..,
      fun d => mem_hostTrained_decoders ..,
      fun q d hq => mem_hostTrained_decoders_ne s p wide mld _ ds hq⟩
  case enable =>
    obtain ⟨h1, h2, h3, h4, h5⟩ := enabled_effect s p 1 { s.port p with link := max 1 (s.port p).link, closing := false }
    refine ⟨_, (exec_hstPortEnable hr true).trans (congrArg Host.Outcome.next (portEnable_on s p)), h1, h2, h3, h4, ?_, ?_⟩
    · rw [h5]
    · rw [h5]
  case disable =>
    exact fun hx => ⟨_, (exec_hstPortEnable hr false).trans (congrArg Host.Outcome.next (portEnable_off hx)), disabled_effect s p⟩
  case closing =>
    intro hx
    obtain ⟨h1, h2, h3, h4, h5⟩ := enabled_effect s p 0 { s.port p with closing := true }
    exact ⟨_, (exec_hstPortEnable hr false).trans (congrArg Host.Outcome.next (portEnable_closing hx)), h1, h3, h2, h4, h5⟩

/-- Settles O54: the oldest fence read is answered with INCOMPLETE and the others stay behind it with bounds no lower; a fence read that then
arrives takes the next unit number, which lies above every write of this moment, as its bound. -/
theorem fenceTimeoutReportsIncomplete : Obligations.FenceTimeoutReportsIncomplete := by
  unfold Obligations.FenceTimeoutReportsIncomplete
  intro s p ld q rest ho hw hs _ hbelow
  obtain ⟨honly, -, hrise, ⟨hld, -, -⟩, hout⟩ := fenceTimedOut_effect s p ld.isLt q rest
  have hopen := fenceTimedOut_open ld.isLt ho q rest
  have hpst : (s.fenceTimedOut p ld.toNat q rest).pst = s.pst := honly .pst (by decide)
  refine ⟨_, exec_fenceTimeout (fenceOpen_iff.mp ho).1 hw hs, ⟨_, _, hout, fenceBytes_length .., fenceBytes_incomplete .., fenceBytes_seq ..⟩,
    hrise, by rw [hld], by rw [hld], by rw [hld], fun w _ hlt r hr => hlt.trans_le (hbelow r hr), fun off len tag hc hf => ?_⟩
  obtain ⟨-, hx, -, -⟩ := fenceArrive_effect (s.fenceTimedOut p ld.toNat q rest) p ld.isLt off.toNat len.toNat tag.toNat
  refine ⟨_, exec_fenceRead hopen hc hf off len tag, by rw [hx, hld], _, by rw [hx, hld], rfl, fun w _ hlt => ?_⟩
  rwa [hpst]
end

section
/-! SUPPORT. A strand that ends: its slot is released, its command keeps s31[7:0] and s1, and its loans end with it (04 R121, R128). -/

namespace Sys2Proof.Machine

/-- Two changes of one entry are one change. -/
theorem Tab.upd_upd {α : Type} (t : Tab α) (k : Nat) (f g : α → α) : Tab.upd (Tab.upd t k f) k g = Tab.upd t k (fun v => g (f v)) := by
  unfold Tab.upd
  rw [List.map_map]
  refine List.map_congr_left fun e _ => ?_
  by_cases h : e.1 = k <;> simp [h]

/-- The command once its strand `st` has ended. -/
def Cmd.over (c : Cmd) (st : Strand) : Cmd := { c with ended := true, lastStatus := (st.reg 31).setWidth 8, result := st.reg 1 }

/-- The command with a terminating fault of the instruction with opcode `op` at `pc`. -/
def Cmd.stopped (c : Cmd) (status : Status) (op pc : Nat) : Cmd :=
  { c with faulted := true, status := status, faultOp := op, faultPc := pc }

section Releases
variable {s t u : State} {k c : Nat} {f : Cmd → Cmd} {ps : List Part} {st : Strand}

/-- Slot `k` is free, and its strand's command `c` has changed by `f`; of the rest only the parts `ps` may differ. -/
structure Releases (s t : State) (k c : Nat) (f : Cmd → Cmd) (ps : List Part) : Prop where
  pe : t.pe = { s.pe with strands := Tab.del s.pe.strands k, cmds := Tab.upd s.pe.cmds c f }
  only : OnlyParts ps s t

namespace Releases

theorem strand_none (h : Releases s t k c f ps) : t.strandAt k = none := by
  rw [State.strandAt, h.pe]
  exact Tab.get_del_self _ _

theorem strand_ne (h : Releases s t k c f ps) {j : Nat} (hj : j ≠ k) : t.strandAt j = s.strandAt j := by
  rw [State.strandAt, h.pe]
  exact Tab.get_del_ne _ hj

theorem cmd (h : Releases s t k c f ps) : t.cmdOf c = (s.cmdOf c).map f := by
  rw [State.cmdOf, h.pe]
  exact Tab.get_upd_self _ _ _

theorem cmd_ne (h : Releases s t k c f ps) {d : Nat} (hd : d ≠ c) : t.cmdOf d = s.cmdOf d := by
  rw [State.cmdOf, h.pe]
  exact Tab.get_upd_ne _ _ hd

end Releases

theorem endLoans_only (s : State) (l : List (Nat × Nat)) : OnlyParts [.tir, .out] s (s.endLoans l) := by
  unfold State.endLoans
  induction l generalizing s with
  | nil => exact .refl s _
  | cons e r ih =>
    have hone : OnlyParts [.tir, .out] s ((s.updTir (fun x => { x with loansIn := Tab.del x.loansIn e.2 })).emit (.loanReturn e.2)) :=
      (State.updTir_only _ _).comp (State.emit_only _ _)
    exact hone.trans (ih _)

/-- No swap of microcode is under way: an engine that drains stays as it is. -/
theorem swapCheck_idle (h : s.svc.proc ≠ 2) : s.swapCheck = s := if_neg fun e => h e.1

/-- R121: a strand that ends. -/
theorem endStrand_releases (hs : s.strandAt k = some st) (hp : s.svc.proc ≠ 2) :
    Releases s (s.endStrand k) k st.cmd (fun c => c.over st) [.pe, .tir, .out] := by
  let t := (s.updPe (fun p => { p with strands := Tab.del p.strands k })).updCmd st.cmd (fun c => c.over st)
  have hl := endLoans_only t st.loanH
  have hidle : (t.endLoans st.loanH).svc.proc ≠ 2 := by
    rw [show (t.endLoans st.loanH).svc = t.svc from hl .svc (by decide)]
    exact hp
  have he : s.endStrand k = t.endLoans st.loanH := by
    unfold State.endStrand
    rw [hs]
    exact swapCheck_idle hidle
  rw [he]
  exact ⟨hl .pe (by decide), (((State.updPe_only s _).trans (State.updCmd_only _ _ _)).comp hl).mono (by decide)⟩

/-- R128: a terminating fault. -/
theorem faultStrand_releases (hs : s.strandAt k = some st) (hp : s.svc.proc ≠ 2) (status : Status) (op pc : Nat) :
    Releases s (s.faultStrand k status op pc) k st.cmd (fun c => (c.stopped status op pc).over st) [.pe, .tir, .out, .marks, .records] := by
  let t := s.updCmd st.cmd (fun c => c.stopped status op pc)
  let u := t.noticeOnce (100000 + st.qp) .pe F.PE_CNT2.FAILED st.qp (BitVec.ofNat 64 (op + 256 * status.toNat))
  have hn : OnlyParts [.marks, .records] t u := State.noticeOnce_only _ _ _ _ _ _
  have hpe : u.pe = t.pe := hn .pe (by decide)
  have hstrand : u.strandAt k = some st := (congrArg (fun p : PeState => Tab.get p.strands k) hpe).trans hs
  have hr := endStrand_releases hstrand (by rw [show u.svc = t.svc from hn .svc (by decide)]; exact hp)
  have he : s.faultStrand k status op pc = u.endStrand k := by
    unfold State.faultStrand
    rw [hs]
    rfl
  rw [he]
  refine ⟨?_, (((State.updCmd_only s _ _).comp hn).comp hr.only).mono (by decide)⟩
  rw [hr.pe, hpe]
  exact congrArg (fun l => { s.pe with strands := Tab.del s.pe.strands k, cmds := l })
    (Tab.upd_upd s.pe.cmds st.cmd (fun c => c.stopped status op pc) (fun c => c.over st))

end Releases
end Sys2Proof.Machine
end

section
/-! SUPPORT. A strand whose instruction has issued: it changes a register, goes on to another word, or ends (04 R121, R128, R132; 05 R150). -/

namespace Sys2Proof.Machine

section Goes
variable {s t u : State} {k : SlotNo} {x : Iss} {fs r : List Invocation} {f : Invocation} {reg : Nat → Word} {ps : List Part} {n : Nat}

/-- The strand is in its slot with invocations `fs` and registers `reg`, one step is counted, and nothing else of PE differs. -/
structure Goes (s t : State) (x : Iss) (fs : List Invocation) (reg : Nat → Word) (ps : List Part) : Prop where
  strand : StrandIs t x fs reg
  counted : Counted t x
  slot : OnlySlot s t x
  only : OnlyParts ps s t

theorem strandAt_of_pe (h : t.pe = s.pe) (j : Nat) : t.strandAt j = s.strandAt j := congrArg (fun p : PeState => Tab.get p.strands j) h

theorem cmdOf_of_pe (h : t.pe = s.pe) (c : Nat) : t.cmdOf c = s.cmdOf c := congrArg (fun p : PeState => Tab.get p.cmds c) h

theorem strandAt_updPe (s : State) {f : PeState → PeState} (h : (f s.pe).strands = s.pe.strands) (j : Nat) : (s.updPe f).strandAt j = s.strandAt j :=
  congrArg (fun l => Tab.get l j) h

theorem cmdOf_updPe (s : State) {f : PeState → PeState} (h : (f s.pe).cmds = s.pe.cmds) (c : Nat) : (s.updPe f).cmdOf c = s.cmdOf c :=
  congrArg (fun l => Tab.get l c) h

theorem StrandIs.of_now {st : Strand} (h : CanIssue s k x) (hs : t.strandAt x.k = some st) (he : st = { x.now s with frames := st.frames }) :
    StrandIs t x st.frames x.st.reg := by
  obtain ⟨-, -, -, -, -, -, -, hsp, hd, -⟩ := h
  rw [he] at hs
  exact ⟨_, hs, rfl, fun _ _ => rfl, rfl, rfl, rfl, rfl, rfl, rfl, hsp, hd⟩

theorem issued_goes (h : CanIssue s k x) : Goes s (s.issued x) x x.st.frames x.st.reg [.pe, .pmu] where
  strand := StrandIs.of_now (st := x.now s) h (State.issued_strand h) rfl
  counted := State.issued_cmd h
  slot := s.issued_onlySlot x
  only := s.issued_only x

namespace Goes

/-- A change that PE does not see. -/
theorem of_pe {qs : List Part} (h : Goes s t x fs reg ps) (ho : OnlyParts qs t u) (hq : Part.pe ∉ qs) : Goes s u x fs reg (ps ++ qs) := by
  have hp : u.pe = t.pe := ho .pe hq
  have hs := strandAt_of_pe hp
  have hc := cmdOf_of_pe hp
  obtain ⟨hstrands, hcmds, hqps, hprocs⟩ := h.slot
  exact ⟨by simpa only [StrandIs, hs] using h.strand, (hc _).trans h.counted,
    ⟨fun j hj => (hs j).trans (hstrands j hj), fun c hj => (hc c).trans (hcmds c hj), by rw [hp, hqps], by rw [hp, hprocs]⟩, h.only.comp ho⟩

/-- A change of the strand. -/
theorem updStrand {gs : List Invocation} {reg' : Nat → Word} (h : Goes s t x fs reg ps) (hp : Part.pe ∈ ps) {g : Strand → Strand}
    (hf : ∀ st : Strand, st.frames = fs → (g st).frames = gs) (hr : ∀ st : Strand, (∀ n < 32, st.reg n = reg n) → ∀ n < 32, (g st).reg n = reg' n)
    (hk : ∀ st : Strand, (g st).h = st.h ∧ (g st).loanH = st.loanH ∧ (g st).k = st.k ∧ (g st).scratch = st.scratch ∧ (g st).cmd = st.cmd ∧
      (g st).qp = st.qp ∧ (g st).spilled = st.spilled ∧ (g st).delaying = st.delaying) :
    Goes s (t.updStrand x.k g) x gs reg' ps := by
  obtain ⟨st, hst, hfr, hreg, h₁, h₂, h₃, h₄, h₅, h₆, h₇, h₈⟩ := h.strand
  obtain ⟨hstrands, hcmds, hqps, hprocs⟩ := h.slot
  obtain ⟨e₁, e₂, e₃, e₄, e₅, e₆, e₇, e₈⟩ := hk st
  exact ⟨⟨g st, by simp [hst], hf st hfr, hr st hreg, e₁.trans h₁, e₂.trans h₂, e₃.trans h₃, e₄.trans h₄, e₅.trans h₅, e₆.trans h₆,
      e₇.trans h₇, e₈.trans h₈⟩, h.counted,
    ⟨fun j hj => (State.strandAt_updStrand_ne _ _ hj).trans (hstrands j hj), hcmds, hqps, hprocs⟩,
    h.only.trans ((State.updStrand_only _ _ _).mono (by simpa using hp))⟩

/-- The strand takes other invocations. -/
theorem setTo (h : Goes s t x fs reg ps) (hp : Part.pe ∈ ps) (gs : List Invocation) :
    Goes s (t.updStrand x.k (fun st => { st with frames := gs })) x gs reg ps :=
  h.updStrand hp (fun _ _ => rfl) (fun _ hr => hr) fun _ => ⟨rfl, rfl, rfl, rfl, rfl, rfl, rfl, rfl⟩

/-- The innermost invocation changes. -/
theorem updTop (h : Goes s t x (f :: r) reg ps) (hp : Part.pe ∈ ps) (g : Invocation → Invocation) :
    Goes s (t.updStrand x.k (fun st => st.updTop g)) x (g f :: r) reg ps := by
  have he : ∀ st : Strand, st.updTop g = { st with frames := (st.updTop g).frames } := fun st => by
    unfold Strand.updTop
    cases st.frames <;> rfl
  refine h.updStrand hp (fun st hf => ?_) (fun st hr => ?_) fun st => ?_
  · unfold Strand.updTop
    rw [hf]
  · rw [he st]
    exact hr
  · rw [he st]
    exact ⟨rfl, rfl, rfl, rfl, rfl, rfl, rfl, rfl⟩

/-- `d` is written. -/
theorem setReg (h : Goes s t x fs x.st.reg ps) (hp : Part.pe ∈ ps) (d : Nat) (v : Word) :
    Goes s (t.updStrand x.k (fun st => st.setReg d v)) x fs (x.regs d v) ps := by
  refine h.updStrand hp (fun st hf => (st.setReg_frames d v).trans hf) (fun st hr n hn => ?_) fun st => by simp
  rw [Strand.reg_setReg _ _ _ _ hn, hr n hn]
  rfl

theorem progWords (h : Goes s t x fs reg ps) (p : Prog) : t.progWords p = s.progWords p := by
  obtain ⟨-, -, -, hprocs⟩ := h.slot
  exact State.progWords_congr hprocs p

/-- The innermost of the invocations has a word to run: the strand goes on with them. -/
theorem setFrames (h : Goes s t x fs reg ps) (hp : Part.pe ∈ ps) (hw : f.pc < (s.progWords f.prog).length) :
    Goes s (t.setFrames x.k (f :: r)) x (f :: r) reg ps := by
  have hd : t.dropFinished (f :: r) = f :: r := by
    unfold State.dropFinished
    rw [h.progWords, if_pos hw]
  unfold State.setFrames
  rw [hd]
  exact h.setTo hp _

theorem goto (h : Goes s t x (f :: r) reg ps) (hp : Part.pe ∈ ps) (hw : n < (s.progWords f.prog).length) :
    Goes s (t.goto x.k n) x ({ f with pc := n } :: r) reg ps := by
  have hset : Goes s (t.setFrames x.k ({ f with pc := n } :: r)) x ({ f with pc := n } :: r) reg ps := h.setFrames hp hw
  obtain ⟨st, hst, hf, -⟩ := h.strand
  unfold State.goto
  rw [hst]
  dsimp only
  rw [hf]
  exact hset

/-- The strand goes on at the index `n` of the program it is in. -/
theorem next (h : Goes s t x x.st.frames reg ps) (hp : Part.pe ∈ ps) (hn : HasWord s x n) : Goes s (t.goto x.k n) x (x.framesAt n) reg ps := by
  unfold HasWord at hn
  unfold Iss.framesAt
  cases hx : x.st.frames with
  | nil => simp [hx] at hn
  | cons f r => exact (hx ▸ h).goto hp (by simpa [hx] using hn)

/-- What a strand leaves that is released with a change `g` of its command. -/
theorem releases {g : Cmd → Cmd} {qs : List Part} (h : Goes s t x fs reg ps) (hr : Releases t u x.k x.st.cmd g qs) :
    u.strandAt x.k = none ∧ u.cmdOf x.st.cmd = some (g { x.c with steps := x.c.steps + 1 }) ∧ OnlySlot s u x ∧ OnlyParts (ps ++ qs) s u := by
  obtain ⟨hstrands, hcmds, hqps, hprocs⟩ := h.slot
  have hc : t.cmdOf x.st.cmd = _ := h.counted
  exact ⟨hr.strand_none, by rw [hr.cmd, hc]; rfl, ⟨fun j hj => (hr.strand_ne hj).trans (hstrands j hj),
    fun c hj => (hr.cmd_ne hj).trans (hcmds c hj), by rw [hr.pe, ← hqps], by rw [hr.pe, ← hprocs]⟩, h.only.comp hr.only⟩

/-- The strand ends. -/
theorem ends (h : Goes s t x fs reg ps) (hp : t.svc.proc ≠ 2) : StrandEnds (t.endStrand x.k) x reg ∧ OnlySlot s (t.endStrand x.k) x ∧
    OnlyParts (ps ++ [.pe, .tir, .out]) s (t.endStrand x.k) := by
  obtain ⟨st, hst, -, hreg, -, -, -, -, hcmd, -⟩ := h.strand
  obtain ⟨hnone, hc, hslot, honly⟩ := h.releases (hcmd ▸ endStrand_releases hst hp)
  refine ⟨⟨hnone, ?_⟩, hslot, honly⟩
  rw [hc, Cmd.over, hreg 31 (by decide), hreg 1 (by decide)]

/-- A fault in a slot that holds a strand. -/
theorem faults_only (h : Goes s t x fs reg ps) (hp : t.svc.proc ≠ 2) (status : Status) (op pc : Nat) :
    OnlyParts [.pe, .tir, .out, .marks, .records] t (t.faultStrand x.k status op pc) := by
  obtain ⟨st, hst, -⟩ := h.strand
  exact (faultStrand_releases hst hp status op pc).only

/-- The strand faults. -/
theorem faults (h : Goes s t x fs reg ps) (hp : t.svc.proc ≠ 2) (status : Status) (op pc : Nat) :
    (t.faultStrand x.k status op pc).strandAt x.k = none ∧ (t.faultStrand x.k status op pc).cmdOf x.st.cmd = some { x.c with
      steps := x.c.steps + 1, faulted := true, status := status, faultOp := op, faultPc := pc, ended := true,
      lastStatus := (reg 31).setWidth 8, result := reg 1 } ∧
    OnlySlot s (t.faultStrand x.k status op pc) x ∧
    OnlyParts (ps ++ [.pe, .tir, .out, .marks, .records]) s (t.faultStrand x.k status op pc) := by
  obtain ⟨st, hst, -, hreg, -, -, -, -, hcmd, -⟩ := h.strand
  obtain ⟨hnone, hc, hslot, honly⟩ := h.releases (hcmd ▸ faultStrand_releases hst hp status op pc)
  refine ⟨hnone, ?_, hslot, honly⟩
  rw [hc, Cmd.over, hreg 31 (by decide), hreg 1 (by decide)]
  rfl

end Goes

theorem issued_svc (s : State) (x : Iss) : (s.issued x).svc = s.svc := s.issued_only x .svc (by decide)

end Goes
end Sys2Proof.Machine
end

section
/-! O4: NOP, WAIT, branches and SIG (05 Tables ISA-6 and ISA-7, R132, R149, R151). -/

namespace Sys2Proof.Machine

section Control
variable {s t : State} {k : SlotNo} {x : Iss} {fs r : List Invocation} {f : Invocation} {reg : Nat → Word} {ps : List Part} {n : Nat}

theorem opn_of {v : BitVec 8} (h : x.i.op = v) : x.i.opn = v.toNat := congrArg BitVec.toNat h

/-- An instruction whose strand goes on. -/
theorem gives_goes {c : Instr} {op : Nat} {body : Iss → State → State} (h : CanIssue s k x) (ho : x.i.opn = op) (he : exec c s = s.issue k op body)
    (hg : Goes s (body x (s.issued x)) x fs reg ps) :
    Gives c s (fun t => StrandIs t x fs reg ∧ Counted t x ∧ OnlySlot s t x ∧ OnlyParts ps s t) :=
  gives_issue h ho he ⟨hg.strand, hg.counted, hg.slot, hg.only⟩

theorem issued_next (h : CanIssue s k x) (hn : HasWord s x n) : Goes s ((s.issued x).goto x.k n) x (x.framesAt n) x.st.reg [.pe, .pmu] :=
  (issued_goes h).next (by decide) hn

theorem word_of_hasWord (hx : x.st.frames = f :: r) (h : HasWord s x n) : n < (s.progWords f.prog).length := by
  simpa [HasWord, hx] using h

/-- WAIT issues only once nothing of its strand is outstanding. -/
theorem wait_idle (h : CanIssue s k x) (ho : x.i.opn = 0x05) : x.c.ops = [] := by
  obtain ⟨-, -, -, -, -, -, -, -, -, hb, -⟩ := h
  simpa [stageBlocked, ho] using (Bool.or_eq_false_iff.mp hb).2

/-! ### Branches -/

/-- R149: a forward branch, which never counts. -/
theorem takeBranch_forward (h : CanIssue s k x) (hx : x.st.frames = f :: r) (hi : 0 < x.i.imm32.toInt) (hw : HasWord s x (x.i.target x.pc).toNat) :
    Goes s ((s.issued x).takeBranch x) x ({ f with pc := (x.i.target x.pc).toNat } :: r) x.st.reg [.pe, .pmu] := by
  have hb : x.i.backward = false := decide_eq_false (by omega)
  unfold State.takeBranch
  simp only [hb, Bool.false_eq_true, if_false]
  exact (hx ▸ issued_goes h).goto (by decide) (word_of_hasWord hx hw)

/-- R132: a backward branch within its bound counts. -/
theorem takeBranch_backward (h : CanIssue s k x) (hx : x.st.frames = f :: r) (hi : x.i.imm32.toInt ≤ 0)
    (hn : (Tab.get f.counters x.pc).getD 0 ≠ x.i.bound) (hw : HasWord s x (x.i.target x.pc).toNat) :
    Goes s ((s.issued x).takeBranch x) x
      ({ f with pc := (x.i.target x.pc).toNat, counters := Tab.put f.counters x.pc ((Tab.get f.counters x.pc).getD 0 + 1) } :: r)
      x.st.reg [.pe, .pmu] := by
  have hb : x.i.backward = true := decide_eq_true hi
  have hcount := (hx ▸ issued_goes h).updTop (by decide)
    (fun g => { g with counters := Tab.put g.counters x.pc ((Tab.get f.counters x.pc).getD 0 + 1) })
  unfold State.takeBranch
  simp only [hb, hx, List.head?_cons, Option.map_some, Option.getD_some, if_true, if_neg hn]
  exact hcount.goto (by decide) (word_of_hasWord hx hw :)

/-- R132: a backward branch whose counter stands at its bound ends the strand. -/
theorem takeBranch_bound (hx : x.st.frames = f :: r) (hi : x.i.imm32.toInt ≤ 0) (hn : (Tab.get f.counters x.pc).getD 0 = x.i.bound) :
    t.takeBranch x = (t.bump F.PE_CNT3.BOUND_FAULTS).faultStrand x.k ST.fault x.i.opn x.pc := by
  have hb : x.i.backward = true := decide_eq_true hi
  unfold State.takeBranch
  simp only [hb, hx, List.head?_cons, Option.map_some, Option.getD_some, if_true, if_pos hn]

/-- The strand has ended with ST_FAULT, and the fault is counted. -/
theorem boundFault_effect (h : CanIssue s k x) (hp : s.svc.proc ≠ 2) :
    let t := ((s.issued x).bump F.PE_CNT3.BOUND_FAULTS).faultStrand x.k ST.fault x.i.opn x.pc
    t.strandAt x.k = none ∧ (∃ cm, t.cmdOf x.st.cmd = some cm ∧ cm.ended = true ∧ cm.faulted = true ∧ cm.status = ST.fault ∧
      cm.faultOp = x.i.op.toNat ∧ cm.faultPc = x.pc) ∧ Rises s t F.PE_CNT3.BOUND_FAULTS 1 ∧ RegsBut [Addr.PE_CNT3] s t ∧
    OnlyParts [.pe, .regs, .pmu, .marks, .records, .tir, .out] s t := by
  let u := (s.issued x).bump F.PE_CNT3.BOUND_FAULTS
  have hraw := s.issued_only x .regs (by decide)
  have hu : Goes s u x x.st.frames x.st.reg [.pe, .pmu, .regs] := (issued_goes h).of_pe (State.bump_only _ _ (by decide)) (by decide)
  have hsvc : u.svc.proc ≠ 2 := by
    rw [show u.svc = s.svc from hu.only .svc (by decide)]
    exact hp
  have hkeep := hu.faults_only hsvc ST.fault x.i.opn x.pc .regs (by decide)
  obtain ⟨hnone, hcmd, -, honly⟩ := hu.faults hsvc ST.fault x.i.opn x.pc
  have hrise : Rises s u F.PE_CNT3.BOUND_FAULTS 1 := (rises_bumpBy _ (by decide) 1).before (hraw _ (by decide))
  have hbut : RegsBut [Addr.PE_CNT3] s u :=
    fun a ha hm => (RegsBut.bumpBy (s.issued x) F.PE_CNT3.BOUND_FAULTS 1 (List.mem_singleton.mpr rfl) a ha hm).trans (hraw a hm)
  exact ⟨hnone, ⟨_, hcmd, rfl, rfl, rfl, rfl, rfl⟩, hrise.after (hkeep _ (by decide)), fun a ha hm => (hkeep a hm).trans (hbut a ha hm),
    honly.mono (by decide)⟩

/-- Table ISA-7 as a list. -/
theorem brcHolds_eq (d : BitVec 5) (v : Word) : brcHolds d.toNat v = ([bit v 0, !bit v 0, bit v 1, !bit v 1, bit v 2, !bit v 2, bit v 3, !bit v 3,
    bit v 4, !bit v 4, v == 0, v != 0] : List Bool).getD d.toNat false := by
  rcases Nat.lt_or_ge d.toNat 12 with h | h
  · interval_cases d.toNat <;> rfl
  · rw [List.getD_eq_default _ _ h]
    unfold brcHolds
    split
    case h_13 => rfl
    all_goals omega

/-- R149: a branch that is not taken forgets its count. -/
theorem fallThrough_goes (h : CanIssue s k x) (hx : x.st.frames = f :: r) (hw : HasWord s x (x.pc + 1)) :
    Goes s ((s.issued x).fallThrough x) x ({ f with pc := x.pc + 1, counters := Tab.del f.counters x.pc } :: r) x.st.reg [.pe, .pmu] :=
  ((hx ▸ issued_goes h).updTop (by decide) (fun g => { g with counters := Tab.del g.counters x.pc })).goto (by decide)
    (word_of_hasWord hx hw :)

/-- A row whose instruction takes a branch. -/
theorem gives_branch {c : Instr} {op : Nat} {body : Iss → State → State} (h : CanIssue s k x) (ho : x.i.opn = op) (he : exec c s = s.issue k op body)
    (hb : body x (s.issued x) = (s.issued x).takeBranch x) (hx : x.st.frames = f :: r) :
    let goesTo (fs : List Invocation) : Prop := Gives c s (fun t =>
      StrandIs t x fs x.st.reg ∧ Counted t x ∧ OnlySlot s t x ∧ OnlyParts [.pe, .pmu] s t)
    let target := (x.pc : Int) + x.i.imm32.toInt
    (0 < x.i.imm32.toInt → HasWord s x target.toNat → goesTo ({ f with pc := target.toNat } :: r)) ∧
    (∀ n, (Tab.get f.counters x.pc).getD 0 = n → x.i.imm32.toInt ≤ 0 → n ≠ x.i.bound → HasWord s x target.toNat →
      goesTo ({ f with pc := target.toNat, counters := Tab.put f.counters x.pc (n + 1) } :: r)) ∧
    ((Tab.get f.counters x.pc).getD 0 = x.i.bound → x.i.imm32.toInt ≤ 0 → s.svc.proc ≠ 2 → Gives c s (fun t =>
      t.strandAt x.k = none ∧ (∃ cm, t.cmdOf x.st.cmd = some cm ∧ cm.ended = true ∧ cm.faulted = true ∧ cm.status = ST.fault ∧
        cm.faultOp = x.i.op.toNat ∧ cm.faultPc = x.pc) ∧ Rises s t F.PE_CNT3.BOUND_FAULTS 1 ∧ RegsBut [Addr.PE_CNT3] s t ∧
      OnlyParts [.pe, .regs, .pmu, .marks, .records, .tir, .out] s t)) := by
  refine ⟨fun hi hw => gives_goes h ho he ?_, fun n hn hi hne hw => gives_goes h ho he ?_, fun hn hi hp => gives_issue h ho he ?_⟩
  · rw [hb]
    exact takeBranch_forward h hx hi hw
  · subst hn
    rw [hb]
    exact takeBranch_backward h hx hi hne hw
  · rw [hb, takeBranch_bound hx hi hn]
    exact boundFault_effect h hp

/-! ### SIG -/

theorem recordsOf_records (l : List Record) : recordsOf (l.map XItem.record) = l := by
  unfold recordsOf
  rw [List.filterMap_map]
  exact List.filterMap_some

/-- R472, R473: with room on the island's way to REC a record joins those that wait. -/
theorem pushRecord_joins {i : Island} (hr : t.contrail.released = true) (hl : (t.recordsFrom i).length < 32) (rec : Record) :
    (t.pushRecord i rec).recordsFrom i = t.recordsFrom i ++ [rec] := by
  have hx : (t.pushRecord i rec).xing = Tab.put t.xing (64 + i.code) ((t.recordsFrom i ++ [rec]).map XItem.record) := by
    simp only [State.pushRecord, hr, if_true, takeRecord]
    rw [if_pos (show (recordsOf _).length < 32 from hl)]
    rfl
  rw [State.recordsFrom, hx, Tab.get_put_self, Option.getD_some, recordsOf_records]

/-- What record `rec` says of the SIG that made it (R151). -/
def Iss.Signals (x : Iss) (rec : Record) : Prop :=
  rec.sev = x.i.imm32.toNat ∧ rec.object = x.st.qp ∧ rec.arg0 = x.st.reg x.i.a.toNat ∧ rec.arg1 = x.st.reg x.i.b.toNat

/-- R151: the first SIG of a second makes a record. -/
theorem sigRecord_eq {q : Qp} (hq : Tab.get t.pe.qps x.st.qp = some q) (hs : q.sigSecond ≠ t.time / 1000000000)
    (hm : t.fld F.REC_CTL.MIN_SEV ≤ x.i.imm32.toNat) : ∃ rec q', x.Signals rec ∧ t.sigRecord x =
      (t.updPe (fun p => { p with qps := Tab.put p.qps x.st.qp q' })).pushRecord .pe rec := by
  unfold State.sigRecord
  simp only [hq, if_neg hs, if_neg (Nat.not_lt.mpr hm), Nat.zero_lt_succ, if_true]
  exact ⟨_, _, ⟨rfl, rfl, rfl, rfl⟩, rfl⟩

/-- The record waits behind those of PE; of PE itself the queue pair alone has changed. -/
theorem sigRecord_effect {q : Qp} (hq : Tab.get t.pe.qps x.st.qp = some q) (hs : q.sigSecond ≠ t.time / 1000000000)
    (hr : TakesRecord t .pe x.i.imm32.toNat) : let u := t.sigRecord x
    OnlyParts [.pe, .records] t u ∧ (∀ j, u.strandAt j = t.strandAt j) ∧ (∀ c, u.cmdOf c = t.cmdOf c) ∧ u.pe.procs = t.pe.procs ∧
    ∃ rec, u.recordsFrom .pe = t.recordsFrom .pe ++ [rec] ∧ x.Signals rec := by
  obtain ⟨hreleased, hsev, hroom⟩ := hr
  obtain ⟨rec, q', hsig, he⟩ := sigRecord_eq hq hs hsev
  have hpe := State.pushRecord_pe (t.updPe (fun p => { p with qps := Tab.put p.qps x.st.qp q' })) .pe rec
  dsimp only
  rw [he]
  exact ⟨(State.updPe_only _ _).comp (State.pushRecord_only _ _ _), fun j => (strandAt_of_pe hpe j).trans (strandAt_updPe _ rfl j),
    fun c => (cmdOf_of_pe hpe c).trans (cmdOf_updPe _ rfl c), congrArg (·.procs) hpe, rec, pushRecord_joins hreleased hroom rec, hsig⟩

theorem sig_effect {q : Qp} (h : CanIssue s k x) (hn : HasWord s x (x.pc + 1)) (hq : Tab.get s.pe.qps x.st.qp = some q)
    (hs : q.sigSecond ≠ s.time / 1000000000) (hr : TakesRecord s .pe x.i.imm32.toNat) :
    let t := ((s.issued x).sigRecord x).goto x.k (x.pc + 1)
    StrandIs t x (x.framesAt (x.pc + 1)) x.st.reg ∧ Counted t x ∧ OnlyParts [.pe, .pmu, .records] s t ∧
    ∃ rec, t.recordsFrom .pe = s.recordsFrom .pe ++ [rec] ∧ x.Signals rec := by
  obtain ⟨hreleased, hsev, hroom⟩ := hr
  have hi := s.issued_only x
  have hsame := issued_same s x
  have hfrom : (s.issued x).recordsFrom .pe = s.recordsFrom .pe := hsame.congr (·.recordsFrom .pe) fun _ _ => rfl
  have htakes : TakesRecord (s.issued x) .pe x.i.imm32.toNat :=
    ⟨by rw [hi .contrail (by decide), hreleased], by rw [hsame.fld (by decide)]; exact hsev, by rw [hfrom]; exact hroom⟩
  obtain ⟨honly, hstrands, hcmds, hprocs, rec, hjoin, hsig⟩ := sigRecord_effect (t := s.issued x) (by rw [s.issued_qps x, hq])
    (by rw [hi .time (by decide)]; exact hs) htakes
  have hst := (hstrands x.k).trans (State.issued_strand h)
  have hgo := State.goto_has hst (State.topHas_of hn (hprocs.trans (s.issued_procs x)) rfl)
  rw [Strand.framesTo_eq (st := x.now s) rfl] at hgo
  dsimp only
  rw [hgo]
  exact ⟨StrandIs.of_now (st := { x.now s with frames := x.framesAt (x.pc + 1) }) h (by simp [hst]) rfl, (hcmds _).trans (State.issued_cmd h),
    ((hi.comp honly).comp (State.updStrand_only _ _ _)).mono (by decide), rec, hjoin.trans (congrArg (· ++ [rec]) hfrom), hsig⟩

end Control
end Sys2Proof.Machine
end

section
open Sys2Proof Sys2Proof.Machine

/-- Settles O4: what each row does to the strand in whose slot it issues, a branch by its direction and its count (R132, R149). -/
theorem branchesAndPlainControl : Obligations.BranchesAndPlainControl := by
  unfold Obligations.BranchesAndPlainControl
  intro s k x h
  dsimp only
  have hcond := brcHolds_eq x.i.d x.sa
  refine ⟨fun ho hw => ?_, fun ho hw => ?_, fun ho => ?_, fun ho hc => ?_, fun ho hc hw f r hx => ?_, fun q ho hw hq hs hr => ?_⟩
  · exact gives_goes h (opn_of ho) (execNop.eq_1 k s) (issued_next h hw)
  · exact ⟨wait_idle h (opn_of ho), gives_goes h (opn_of ho) (execWait.eq_1 k s) (issued_next h hw)⟩
  · exact fun f r hx => gives_branch h (opn_of ho) (execBr.eq_1 k s) rfl hx
  · exact fun f r hx => gives_branch h (opn_of ho) (execBrc.eq_1 k s) (if_pos (hcond.trans hc)) hx
  · have hnot : ¬ brcHolds x.i.dn x.sa = true := by
      rw [show brcHolds x.i.dn x.sa = false from hcond.trans hc]
      decide
    exact gives_goes h (opn_of ho) (execBrc.eq_1 k s) ((if_neg hnot).symm ▸ fallThrough_goes h hx hw)
  · exact gives_issue h (opn_of ho) (execSig.eq_1 k s) (sig_effect h hw hq hs hr)
end

section
/-! SUPPORT. The spill area and the slots: how many entries it holds, and which slot a strand takes (04 R106, R108, R134). -/

namespace Sys2Proof.Machine

section Tables
variable {α : Type}

theorem Tab.filter_upd (p : Nat → Bool) (t : Tab α) (k : Nat) (f : α → α) :
    (Tab.upd t k f).filter (fun e => p e.1) = Tab.upd (t.filter (fun e => p e.1)) k f := by
  have hkey : ∀ e : Nat × α, (if e.1 = k then (e.1, f e.2) else e).1 = e.1 := fun e => by split <;> rfl
  simp only [Tab.upd, List.filter_map, Function.comp_def, hkey]

/-- Which key is free depends on the keys alone. -/
theorem Tab.fresh_upd (t : Tab α) (k : Nat) (f : α → α) (n : Nat) : Tab.fresh (Tab.upd t k f) n = Tab.fresh t n := by
  induction t generalizing n with
  | nil => rfl
  | cons e r ih =>
    obtain ⟨j, v⟩ := e
    simp only [Tab.upd] at ih
    by_cases h : j = k <;> simp [Tab.upd, Tab.fresh, h, ih]

theorem Tab.le_fresh (t : Tab α) (n : Nat) : n ≤ Tab.fresh t n := by
  induction t generalizing n with
  | nil => exact le_refl n
  | cons e r ih =>
    unfold Tab.fresh
    split
    · exact (Nat.le_succ n).trans (ih _)
    · exact ih n

end Tables

section Spill
variable {s t u : State} {k : Nat} {st : Strand}

theorem spillFull_of_upd {f : Strand → Strand} (h : t.pe.strands = Tab.upd s.pe.strands k f) : t.spillFull = s.spillFull := by
  unfold State.spillFull
  rw [h, Tab.filter_upd (fun n => decide (spillBase ≤ n)), Tab.upd, List.length_map]

theorem spillSlot_of_upd {f : Strand → Strand} (h : t.pe.strands = Tab.upd s.pe.strands k f) : t.spillSlot = s.spillSlot := by
  unfold State.spillSlot
  rw [h, Tab.filter_upd (fun n => decide (spillBase ≤ n)), Tab.fresh_upd]

/-- R134, R151: a strand's state goes to the spill area, and its slot is free. -/
theorem spill_effect (hs : s.strandAt k = some st) (hp : s.svc.proc ≠ 2) (hk : k < spillBase) (delay : Bool) : let t := s.spill k delay
    t.strandAt k = none ∧ t.strandAt s.spillSlot = some { st with spilled := true, delaying := delay } ∧ (∀ c, t.cmdOf c = s.cmdOf c) ∧
    OnlyParts [.pe, .regs] s t ∧ RegsBut [Addr.PE_CNT1] s t ∧ Rises s t F.PE_CNT1.YIELDS 1 := by
  let l := Tab.put (Tab.del s.pe.strands k) s.spillSlot { st with spilled := true, delaying := delay }
  let u := s.updPe (fun p => { p with strands := l })
  have hne : k ≠ s.spillSlot := (lt_of_lt_of_le hk (Tab.le_fresh _ _)).ne
  have hb : OnlyParts [.regs] u (u.bump F.PE_CNT1.YIELDS) := State.bump_only u _ (by decide)
  have hget := strandAt_of_pe (hb .pe (by decide))
  have hcmd := cmdOf_of_pe (hb .pe (by decide))
  have hidle : (u.bump F.PE_CNT1.YIELDS).svc.proc ≠ 2 := by
    rw [hb .svc (by decide)]
    exact hp
  have he : s.spill k delay = u.bump F.PE_CNT1.YIELDS := by
    unfold State.spill
    rw [hs]
    exact swapCheck_idle hidle
  have hnone : u.strandAt k = none := (Tab.get_put_ne _ _ hne).trans (Tab.get_del_self _ _)
  have hput : u.strandAt s.spillSlot = some { st with spilled := true, delaying := delay } := Tab.get_put_self _ _ _
  dsimp only
  rw [he]
  exact ⟨(hget _).trans hnone, (hget _).trans hput, fun c => (hcmd c).trans (cmdOf_updPe _ rfl c), (State.updPe_only s _).comp hb,
    RegsBut.bumpBy u F.PE_CNT1.YIELDS 1 (List.mem_singleton.mpr rfl), rises_bumpBy u (by decide) 1⟩

/-- A slot of R106 stands below the spill area. -/
theorem freeSlot_lt {e : Nat} (he : e < 64) {priv : Bool} (h : s.freeSlot e priv = some k) : k < spillBase := by
  have hmem := List.mem_of_find?_eq_some h
  cases priv with
  | true =>
    simp only [if_true, List.map_cons, List.map_nil, List.mem_singleton] at hmem
    simp only [spillBase]
    omega
  | false =>
    simp only [Bool.false_eq_true, if_false, List.mem_map, List.mem_range] at hmem
    obtain ⟨i, hi, rfl⟩ := hmem
    simp only [spillBase]
    omega

/-- So does the one that R108 chooses among them. -/
theorem placeSlot_lt {priv : Bool} (h : s.placeSlot priv = some k) : k < spillBase := by
  obtain ⟨⟨b, j⟩, hb, rfl⟩ := Option.map_eq_some_iff.mp h
  refine List.foldlRecOn (motive := fun best : Option (Nat × Nat) => ∀ e, best = some e → e.2 < spillBase) (List.range 64) _
    (fun e he => by simp at he) (fun best hbest e he => ?_) _ hb
  split
  case isTrue =>
    split
    case h_1 => exact hbest
    case h_2 j hj =>
      have hlt := freeSlot_lt (List.mem_range.mp he) hj
      split
      case h_1 =>
        split
        · rintro _ ⟨⟩
          exact hlt
        · exact hbest
      case h_2 =>
        rintro _ ⟨⟩
        exact hlt
  case isFalse => exact hbest

/-- R134: a spilled strand takes a slot again. -/
theorem unspill_effect {e : Nat} (h : s.placeSlot (s.qpPriv st.qp) = some k) (he : spillBase ≤ e) : let t := s.unspill e st
    t.strandAt e = none ∧ t.strandAt k = some { st with spilled := false, delaying := false } ∧
    (∀ j, j ≠ k → j ≠ e → t.strandAt j = s.strandAt j) ∧ t.pe.cmds = s.pe.cmds ∧ OnlyParts [.pe] s t := by
  have hne : e ≠ k := (lt_of_lt_of_le (placeSlot_lt h) he).ne'
  have hu : s.unspill e st = s.updPe (fun p =>
      { p with strands := Tab.put (Tab.del p.strands e) k { st with spilled := false, delaying := false } }) := by
    unfold State.unspill
    rw [h]
  dsimp only
  rw [hu]
  exact ⟨(Tab.get_put_ne _ _ hne).trans (Tab.get_del_self _ _), Tab.get_put_self _ _ _,
    fun j hk hj => (Tab.get_put_ne _ _ hk).trans (Tab.get_del_ne _ hj), rfl, State.updPe_only _ _⟩

end Spill
end Sys2Proof.Machine
end

section
open Sys2Proof Sys2Proof.Machine

/-- Settles O6: a resuming strand moves from its entry to the slot of R108, which is never one of the spill area; an aging one is
marked where it stands. -/
theorem yieldedStrandsResume : Obligations.YieldedStrandsResume := by
  unfold Obligations.YieldedStrandsResume
  refine ⟨fun s n st k hrun hst hplace => ?_, fun s k st hrun hst hready => ?_⟩
  · have heffect := unspill_effect hplace (Nat.le_add_right spillBase n.toNat)
    refine ⟨fun hdelay hops => ⟨s.unspill (spillBase + n.toNat) st, ?_, heffect⟩, fun hdelay => ⟨s.unspill (spillBase + n.toNat) st, ?_, heffect⟩⟩
    · have hdone : s.opsDone st = true := by
        unfold State.opsDone
        cases hc : s.cmdOf st.cmd with
        | none => rfl
        | some c => simp [hops c hc]
      show execStrandResume n s = _
      unfold execStrandResume
      simp only [show s.strandAt (spillBase + n.toNat) = some st from hst]
      exact when_pos (by simp [hrun, hdelay, hdone]) _ _
    · show execYldResume n s = _
      unfold execYldResume
      simp only [show s.strandAt (spillBase + n.toNat) = some st from hst]
      exact when_pos (by simp [hrun, hdelay]) _ _
  · refine ⟨s.updStrand k.toNat (fun x => { x with aged := true }), ?_, by simp [hst], fun j hj => State.strandAt_updStrand_ne _ _ hj, rfl,
      State.updStrand_only _ _ _⟩
    show execStrandAging k s = _
    unfold execStrandAging
    rw [hst]
    exact when_pos (by simp [hrun, hready]) _ _
end

section
/-! O5: CALL, RET, HLT, TRAP and YLD (04 R121, R128, R134; 05 R150, R151). -/

namespace Sys2Proof.Machine

section Calls
variable {s t : State} {k : SlotNo} {x : Iss} {f g : Invocation} {r : List Invocation}

/-- Which privileged opcodes a program reaches depends on the procedures alone. -/
theorem reachesPriv_congr (h : t.pe.procs = s.pe.procs) (n : Nat) (ws : List (BitVec 128)) : t.reachesPriv n ws = s.reachesPriv n ws := by
  induction n generalizing ws with
  | zero => rfl
  | succ n ih =>
    unfold State.reachesPriv
    simp only [ih, State.progWords_congr h]

theorem qpPriv_congr (h : t.pe.qps = s.pe.qps) (n : Nat) : t.qpPriv n = s.qpPriv n := by rw [State.qpPriv, State.qpPriv, h]

theorem slot_lt (h : CanIssue s k x) : x.k < spillBase := by
  rw [h.1]
  exact k.isLt

/-- R150: CALL of a procedure that its queue pair may run. -/
theorem call_goes {q : Proc} (h : CanIssue s k x) (ho : x.i.opn = 0x03) (hd : x.st.frames.length < 9)
    (hpriv : s.qpPriv x.st.qp = true ∨ s.reachesPriv 8 (s.progWords (.proc (x.i.imm32.toNat % 4096))) = false)
    (hq : Tab.get s.pe.procs (x.i.imm32.toNat % 4096) = some q) (hr : q.retired = false) (hw : q.words ≠ []) (hf : x.st.frames ≠ []) :
    Gives (.call k) s (fun t => StrandIs t x ({ prog := .proc (x.i.imm32.toNat % 4096), pc := 0, counters := [] } :: x.framesAt (x.pc + 1)) x.st.reg ∧
      Counted t x ∧ OnlySlot s t x ∧ OnlyParts [.pe, .pmu] s t) := by
  refine gives_goes h ho (execCall.eq_1 k s) ?_
  have hallowed : (!(s.issued x).qpPriv x.st.qp && (s.issued x).reachesPriv 8 ((s.issued x).progWords (.proc (x.i.imm32.toNat % 4096)))) = false := by
    rw [qpPriv_congr (s.issued_qps x), State.progWords_congr (s.issued_procs x), reachesPriv_congr (s.issued_procs x)]
    rcases hpriv with h | h <;> simp [h]
  have hword : 0 < (s.progWords (.proc (x.i.imm32.toNat % 4096))).length := by
    simpa [State.progWords, hq] using List.length_pos_iff.mpr hw
  obtain ⟨f, r, hx⟩ := List.exists_cons_of_ne_nil hf
  have hshallow : ¬ 9 ≤ x.st.frames.length := Nat.not_le.mpr hd
  simp only [hallowed, Bool.false_eq_true, if_false, s.issued_procs x, hq, hr, if_neg hshallow]
  simp only [Iss.framesAt, hx]
  exact (issued_goes h).setFrames (by decide) hword

/-- R150: RET in a procedure. -/
theorem ret_resumes (h : CanIssue s k x) (hx : x.st.frames = f :: g :: r) (hw : g.pc < (s.progWords g.prog).length) :
    Goes s (((s.issued x).updStrand x.k (fun st => st.setReg x.i.dn x.sa)).setFrames x.k (x.st.frames.drop 1)) x (g :: r)
      (x.regs x.i.d.toNat (x.st.reg x.i.a.toNat)) [.pe, .pmu] := by
  rw [hx]
  exact ((issued_goes h).setReg (by decide) _ _).setFrames (by decide) hw

/-- R150: RET in the outermost program. -/
theorem ret_ends (h : CanIssue s k x) (hp : s.svc.proc ≠ 2) (hx : x.st.frames.length = 1) :
    let t := ((s.issued x).updStrand x.k (fun st => st.setReg x.i.dn x.sa)).setFrames x.k (x.st.frames.drop 1)
    StrandEnds t x (x.regs x.i.d.toNat (x.st.reg x.i.a.toNat)) ∧ OnlySlot s t x ∧ OnlyParts [.pe, .pmu, .tir, .out] s t := by
  have hnil : x.st.frames.drop 1 = [] := List.drop_eq_nil_of_le hx.le
  have hgoes := (issued_goes h).setReg (by decide) x.i.d.toNat (x.st.reg x.i.a.toNat)
  obtain ⟨hends, hslot, honly⟩ := hgoes.ends (by rw [hgoes.only .svc (by decide)]; exact hp)
  dsimp only
  rw [hnil]
  exact ⟨hends, hslot, honly.mono (by decide)⟩

theorem hlt_ends (h : CanIssue s k x) (hp : s.svc.proc ≠ 2) : StrandEnds ((s.issued x).endStrand x.k) x x.st.reg ∧
    OnlySlot s ((s.issued x).endStrand x.k) x ∧ OnlyParts [.pe, .pmu, .tir, .out] s ((s.issued x).endStrand x.k) := by
  obtain ⟨hends, hslot, honly⟩ := (issued_goes h).ends (by rw [issued_svc]; exact hp)
  exact ⟨hends, hslot, honly.mono (by decide)⟩

/-- Table ISA-6: TRAP leaves imm32 in s1, and so in its command's result. -/
theorem trap_faults (h : CanIssue s k x) (hp : s.svc.proc ≠ 2) (ho : x.i.opn = 0x09) :
    let t := ((s.issued x).updStrand x.k (fun st => st.setReg 1 (x.i.imm32.setWidth 64))).faultStrand x.k ST.fault x.i.opn x.pc
    t.strandAt x.k = none ∧ OnlySlot s t x ∧ OnlyParts [.pe, .pmu, .tir, .out, .marks, .records] s t ∧
    ∃ cm, t.cmdOf x.st.cmd = some cm ∧ cm.ended = true ∧ cm.faulted = true ∧ cm.status = ST.fault ∧ cm.faultOp = 0x09 ∧
      cm.faultPc = x.pc ∧ cm.result = x.i.imm32.setWidth 64 := by
  have hgoes := (issued_goes h).setReg (by decide) 1 (x.i.imm32.setWidth 64)
  obtain ⟨hnone, hcmd, hslot, honly⟩ := hgoes.faults (by rw [hgoes.only .svc (by decide)]; exact hp) ST.fault x.i.opn x.pc
  exact ⟨hnone, hslot, honly.mono (by decide), _, hcmd, rfl, rfl, rfl, ho, rfl, rfl⟩

/-- What YLD leaves that goes to the spill area for its delay. -/
structure Yielded (s t : State) (x : Iss) : Prop where
  slot : t.strandAt x.k = none
  counted : Counted t x
  regs : RegsBut [Addr.PE_CNT1] s t
  only : OnlyParts [.pe, .regs, .pmu] s t
  rises : Rises s t F.PE_CNT1.YIELDS 1
  spilled : ∃ st, t.strandAt s.spillSlot = some st ∧ st.spilled = true ∧ st.delaying = true ∧ st.s = x.st.s ∧ st.h = x.st.h ∧
    st.frames = x.framesAt (x.pc + 1)

/-- The strands while an instruction takes effect: the same, with a change of the one that issues. -/
theorem issued_strands (s : State) (x : Iss) : (s.issued x).pe.strands =
    Tab.upd s.pe.strands x.k (fun st => { st with turn := s.pe.issues + 1, aged := false, stageWait := false }) := by
  simp [State.issued, State.counted, State.updStrand, State.updPe, State.updCmd]

/-- R151: YLD with a delay. -/
theorem yld_spills (h : CanIssue s k x) (hp : s.svc.proc ≠ 2) (hn : HasWord s x (x.pc + 1)) (hfull : s.spillFull = false) :
    ((s.issued x).goto x.k (x.pc + 1)).spillFull = false ∧ Yielded s (((s.issued x).goto x.k (x.pc + 1)).spill x.k true) x := by
  obtain ⟨u, hu⟩ : ∃ u, u = (s.issued x).goto x.k (x.pc + 1) := ⟨_, rfl⟩
  have hgoes : Goes s u x (x.framesAt (x.pc + 1)) x.st.reg [.pe, .pmu] := hu ▸ issued_next h hn
  have hgo := State.goto_has (State.issued_strand h) (State.topHas_of hn (s.issued_procs x) rfl)
  rw [Strand.framesTo_eq (st := x.now s) rfl, ← hu] at hgo
  have hst : u.strandAt x.k = some { x.now s with frames := x.framesAt (x.pc + 1) } := by simp [hgo, State.issued_strand h]
  have hkeys : u.pe.strands = Tab.upd s.pe.strands x.k
      (fun st => { st with turn := s.pe.issues + 1, aged := false, stageWait := false, frames := x.framesAt (x.pc + 1) }) := by
    rw [hgo, State.updStrand, State.updPe_pe, issued_strands, Tab.upd_upd]
  obtain ⟨hnone, hput, hcmds, honly, hregs, hrises⟩ := spill_effect hst (by rw [hgoes.only .svc (by decide)]; exact hp) (slot_lt h) true
  have hraw := hgoes.only .regs (by decide)
  rw [spillSlot_of_upd hkeys] at hput
  rw [← hu]
  exact ⟨(spillFull_of_upd hkeys).trans hfull, hnone, (hcmds _).trans hgoes.counted, fun a ha hm => (hregs a ha hm).trans (hraw a hm),
    (hgoes.only.comp honly).mono (by decide), hrises.before (hraw _ (by decide)), _, hput, rfl, rfl, rfl, rfl, rfl⟩

end Calls
end Sys2Proof.Machine
end

section
open Sys2Proof Sys2Proof.Machine

/-- Settles O5: what each row does to the strand in whose slot it issues; one that ends or yields leaves its slot, the others go on. -/
theorem callsAndStrandEnds : Obligations.CallsAndStrandEnds := by
  unfold Obligations.CallsAndStrandEnds
  intro s k x h hp
  dsimp only
  refine ⟨fun ho hd hpriv q hq hr hw hf => call_goes h (opn_of ho) hd hpriv hq hr hw hf, fun ho f g r hx hw => ?_, fun ho hx => ?_, fun ho => ?_,
    fun ho => ?_, fun ho hi hn => ?_, fun ho hi hn hfull => ?_⟩
  · exact gives_goes h (opn_of ho) (execRet.eq_1 k s) (ret_resumes h hx hw)
  · exact gives_issue h (opn_of ho) (execRet.eq_1 k s) (ret_ends h hp hx)
  · exact gives_issue h (opn_of ho) (execHlt.eq_1 k s) (hlt_ends h hp)
  · exact gives_issue h (opn_of ho) (execTrap.eq_1 k s) (trap_faults h hp (opn_of ho))
  · exact gives_goes h (opn_of ho) (execYld.eq_1 k s) ((if_pos (Or.inl hi)).symm ▸ issued_next h hn)
  · obtain ⟨hroom, hslot, hcounted, hregs, honly, hrises, hspilled⟩ := yld_spills h hp hn hfull
    refine gives_issue h (opn_of ho) (execYld.eq_1 k s) ?_
    dsimp only
    rw [if_neg (not_or_intro hi (by simp [hroom]))]
    exact ⟨hslot, hcounted, hregs, honly, hrises, hspilled⟩
end

section
/-! O13: issue checks that fail with a terminating status (04 R128; 05 R147). -/

namespace Sys2Proof.Machine

section Checks
variable {s : State} {k : SlotNo} {x : Iss} {st : Status} {accs : List Acc} {keyOk lenOk : Bool}

/-- The strand has ended with status `st`, and its command keeps the instruction, its operations and its units as they were. -/
def StopsAtIssue (s t : State) (x : Iss) (st : Status) : Prop :=
  t.strandAt x.k = none ∧ OnlySlot s t x ∧ OnlyParts [.pe, .pmu, .tir, .out, .marks, .records] s t ∧
  ∃ cm, t.cmdOf x.st.cmd = some cm ∧ cm.ended = true ∧ cm.faulted = true ∧ cm.status = st ∧ cm.faultOp = x.i.op.toNat ∧
    cm.faultPc = x.pc ∧ cm.ops = x.c.ops ∧ cm.hist = x.c.hist

theorem failIssue_stops (h : CanIssue s k x) (hp : s.svc.proc ≠ 2) (he : ST.ends st = true) : StopsAtIssue s ((s.issued x).failIssue x st) x st := by
  have hf : (s.issued x).failIssue x st = (s.issued x).faultStrand x.k st x.i.opn x.pc := if_pos he
  obtain ⟨hnone, hcmd, hslot, honly⟩ := (issued_goes h).faults (by rw [issued_svc]; exact hp) st x.i.opn x.pc
  rw [hf]
  exact ⟨hnone, hslot, honly.mono (by decide), _, hcmd, rfl, rfl, rfl, rfl, rfl, rfl, rfl⟩

/-- What most rows do before anything else: a failing check keeps the operation from becoming outstanding. -/
theorem begin_fails (hm : modeRefuses s.mod.mode x.i.opn = false) (hc : s.checks x.st accs keyOk lenOk = some st) (o : Op)
    (adv : State → Nat → Op → State) : (s.issued x).begin_ x accs keyOk lenOk o adv = (s.issued x).failIssue x st := by
  simp only [State.begin_, issued_mode, hm, issued_checks, hc, Bool.false_eq_true, if_false]

/-- A row whose instruction, its check failed, ends its strand. -/
theorem gives_stops {c : Instr} {op : Nat} {body : Iss → State → State} (h : CanIssue s k x) (hp : s.svc.proc ≠ 2) (he : ST.ends st = true)
    (ho : x.i.opn = op) (hx : exec c s = s.issue k op body) (hb : body x (s.issued x) = (s.issued x).failIssue x st) :
    Gives c s (fun t => StopsAtIssue s t x st) := gives_issue h ho hx (hb ▸ failIssue_stops h hp he)

end Checks
end Sys2Proof.Machine
end

section
open Sys2Proof Sys2Proof.Machine

/-- Settles O13: each of the rows leaves a failing check to `failIssue`, LD and ST also where their primary is scratch, and `failIssue`
is a fault of the strand that issues. -/
theorem failedIssueChecksEndTheStrand : Obligations.FailedIssueChecksEndTheStrand := by
  unfold Obligations.FailedIssueChecksEndTheStrand
  intro s k x st h hp he hm
  refine ⟨fun ho hc => ?_, fun ho hc => ?_, fun ho hc => ?_, fun ho hc => ?_, fun ho hc => ?_, fun ho hc => ?_, fun ho hc => ?_,
    fun ho hc => ?_, fun ho hc => ?_, fun ho hc => ?_⟩
  · refine gives_stops h hp he (opn_of ho) (execLd.eq_1 k s) ?_
    dsimp only
    split
    case isTrue => rw [issued_checks]; exact hc ▸ rfl
    case isFalse => exact begin_fails hm hc _ _
  · refine gives_stops h hp he (opn_of ho) (execSt.eq_1 k s) ?_
    dsimp only
    split
    case isTrue => rw [issued_checks]; exact hc ▸ rfl
    case isFalse => exact begin_fails hm hc _ _
  · exact gives_stops h hp he (opn_of ho) (execCpy.eq_1 k s) (begin_fails hm hc _ _)
  · exact gives_stops h hp he (opn_of ho) (execFil.eq_1 k s) (begin_fails hm hc _ _)
  · exact gives_stops h hp he (opn_of ho) (execZro.eq_1 k s) (begin_fails hm hc _ _)
  · exact gives_stops h hp he (opn_of ho) (execCmpm.eq_1 k s) (begin_fails hm hc _ _)
  · exact gives_stops h hp he (opn_of ho) (execAadd.eq_1 k s) (begin_fails hm hc _ _)
  · exact gives_stops h hp he (opn_of ho) (execAcas.eq_1 k s) (begin_fails hm hc _ _)
  · exact gives_stops h hp he (opn_of ho) (execCmt.eq_1 k s) (begin_fails hm hc _ _)
  · refine gives_stops h hp he (opn_of ho) (execMirw.eq_1 k s) ?_
    dsimp only
    rw [issued_checks, show s.checks x.st _ true true = some st from hc]
end

section
/-! O12: an outstanding operation completes (05 R143 to R145, R148). -/

namespace Sys2Proof.Machine

section Completion
variable {s t : State} {c n k : Nat} {o : Op} {cm : Cmd} {d : OpDone} {st : Strand}

/-- The command without the operation that has left its tracker; its units' failures are reported unless it was quiet. -/
def Cmd.without (cm : Cmd) (n : Nat) : Cmd :=
  let us := ((cm.ops.find? (fun o => o.id == n)).map (fun o => if o.quiet then [] else o.units)).getD []
  { cm with ops := cm.ops.filter (fun o => o.id != n), hist := updAll (fun h => us.contains h.id) (fun h => { h with reported := true }) cm.hist }

theorem removeOp_cmd (hc : s.cmdOf c = some cm) (n : Nat) : (s.removeOp c n).cmdOf c = some (cm.without n) := by
  rw [State.removeOp, State.cmdOf_updCmd_self, hc]
  rfl

theorem Cmd.without_find (cm : Cmd) (n : Nat) : (cm.without n).ops.find? (fun o => o.id == n) = none := by
  refine List.find?_eq_none.mpr fun o ho => ?_
  simpa using (List.mem_filter.mp ho).2

theorem opOf_none {cm : Cmd} (hc : t.cmdOf c = some cm) (h : cm.ops.find? (fun o => o.id == n) = none) : t.opOf c n = none := by
  rw [State.opOf, hc]
  exact h

theorem opOf_id (h : s.opOf c n = some o) : o.id = n := by
  obtain ⟨cm, -, hf⟩ := Option.bind_eq_some_iff.mp h
  simpa using List.find?_some hf

/-- R145: once its units have settled, an operation completes with what is known of it. -/
theorem outcomeOf_ready (hc : s.cmdOf c = some cm) (hph : o.phase = .ready) (hd : o.done = some d)
    (hset : ∀ h ∈ cm.hist, o.units.contains h.id = true → h.settle ≠ .pending) : s.outcomeOf c o = some d := by
  have hnone : (o.hist cm).any (fun h => h.settle == .pending) = false := by
    refine List.any_eq_false.mpr fun h hh => ?_
    obtain ⟨hmem, hunit⟩ := List.mem_filter.mp hh
    simpa using hset h hmem hunit
  unfold State.outcomeOf
  simp only [hc, hph, Op.outcome, hnone, hd, Bool.false_eq_true, if_false]
  rfl

/-- Such an operation, of an opcode that does nothing more at its end, completes in one event. -/
theorem exec_instructionCompletion {c op : BitVec 32} {far : List Byte} (hr : s.running .pe = true) (hz : s.mod.frozen = false)
    (hc : s.cmdOf c.toNat = some cm) (ho : s.opOf c.toNat op.toNat = some o) (hph : o.phase = .ready) (hd : o.done = some d)
    (hset : ∀ h ∈ cm.hist, o.units.contains h.id = true → h.settle ≠ .pending)
    (h₁ : o.opcode ≠ 0x40) (h₂ : o.opcode ≠ 0x65) (h₃ : o.opcode ≠ 0x30) (h₄ : o.opcode ≠ 0x31) :
    exec (.instructionCompletion c op far) s = .next (s.completeOp c.toNat o d) := by
  have hon : s.onComplete c.toNat o d = s := by
    unfold State.onComplete
    rw [if_neg (fun e => h₁ e.1), if_neg (fun e => h₂ e.1), if_neg (fun e => e.1.elim h₃ h₄)]
  have hp : s.progress c.toNat op.toNat far = s.completeOp c.toNat o d := by
    unfold State.progress
    simp only [ho, hph, outcomeOf_ready hc hph hd hset, hon]
  show execInstructionCompletion c op far s = _
  unfold execInstructionCompletion
  rw [hp]
  exact when_pos (by simp [hr, hz]) _ _

/-- R143, R144: of an operation that is not quiet the value goes to its register, and then the status to s31. -/
theorem deliver_strand (hs : t.strandAt k = some st) (hne : d.st ≠ ST.internal) (dest op pc : Nat) : let u := t.deliver_ k dest d op pc
    OnlyParts [.pe] t u ∧ (∀ c, u.cmdOf c = t.cmdOf c) ∧ (∀ j, j ≠ k → u.strandAt j = t.strandAt j) ∧ ∃ st', u.strandAt k = some st' ∧
      st'.frames = st.frames ∧ st'.h = st.h ∧ st'.k = st.k ∧ ∀ m < 32, st'.reg m = (if m = 31 then s31Word d.st d.cls
        else if m = dest ∧ m ≠ 0 then d.val.getD (st.reg m) else st.reg m) := by
  have hu : t.deliver_ k dest d op pc = t.updStrand k _ := if_neg hne
  dsimp only
  rw [hu]
  refine ⟨State.updStrand_only _ _ _, fun _ => rfl, fun j hj => State.strandAt_updStrand_ne _ _ hj, _,
    (State.strandAt_updStrand_self _ _ _).trans (congrArg _ hs), ?_⟩
  have h0 : ∀ m, m = dest ∧ m ≠ 0 ↔ m = dest ∧ dest ≠ 0 := fun m => and_congr_right fun e => by rw [e]
  cases d.val with
  | none => exact ⟨by simp, by simp, by simp, fun m hm => by rw [Strand.reg_setReg _ _ _ _ hm]; simp⟩
  | some v => exact ⟨by simp, by simp, by simp, fun m hm => by
      rw [Strand.reg_setReg _ _ _ _ hm, Strand.reg_setReg _ _ _ _ hm]
      simp [h0]⟩

theorem completeOp_loud (hk : s.slotOf c = some k) (hq : o.quiet = false) :
    s.completeOp c o d = (s.removeOp c o.id).deliver_ k o.dest d o.opcode o.pc := by
  simp only [State.completeOp, hk, hq, Bool.false_eq_true, if_false]

theorem completeOp_quiet (hk : s.slotOf c = some k) (hq : o.quiet = true) : s.completeOp c o d = s.removeOp c o.id := by
  simp only [State.completeOp, hk, hq, if_true]

/-- R148: ST_INTERNAL ends the strand. -/
theorem deliver_internal (hc : t.cmdOf c = some cm) (hs : t.strandAt k = some st) (hp : t.svc.proc ≠ 2) (he : d.st = ST.internal)
    (hcmd : st.cmd = c) (dest op pc : Nat) : let u := t.deliver_ k dest d op pc
    OnlyParts [.pe, .tir, .out, .marks, .records] t u ∧ u.strandAt k = none ∧
    ∃ cm', u.cmdOf c = some cm' ∧ cm'.faulted = true ∧ cm'.status = ST.internal ∧ cm'.ended = true := by
  have hu : t.deliver_ k dest d op pc = t.faultStrand k d.st op pc := if_pos he
  have hr := faultStrand_releases hs hp d.st op pc
  dsimp only
  rw [hu]
  subst hcmd
  exact ⟨hr.only, hr.strand_none, _, hr.cmd.trans (congrArg _ hc), rfl, he, rfl⟩

end Completion
end Sys2Proof.Machine
end

section
open Sys2Proof Sys2Proof.Machine

/-- Settles O12: the operation leaves its command, and then its strand has its value and status, nothing, or a fault. -/
theorem operationsCompleteIntoTheirStrand : Obligations.OperationsCompleteIntoTheirStrand := by
  unfold Obligations.OperationsCompleteIntoTheirStrand
  intro s c op far o cm d k st hr hz hc ho hph hd hset hk hst h₁ h₂ h₃ h₄
  have hexec := exec_instructionCompletion (far := far) hr hz hc ho hph hd hset h₁ h₂ h₃ h₄
  have hid := opOf_id ho
  have hcmd := removeOp_cmd hc o.id
  have hnone : ∀ {t : State}, t.cmdOf c.toNat = some (cm.without o.id) → t.opOf c.toNat op.toNat = none := fun ht =>
    opOf_none ht (hid ▸ cm.without_find o.id)
  have hremove : OnlyParts [.pe] s (s.removeOp c.toNat o.id) := State.updCmd_only _ _ _
  have hst' : (s.removeOp c.toNat o.id).strandAt k = some st := hst
  refine ⟨fun hq hne => ⟨_, hexec, ?_⟩, fun hq => ⟨_, hexec, ?_⟩, fun hq he hp hown => ⟨_, hexec, ?_⟩⟩
  · obtain ⟨honly, hcmds, hstrands, hwritten⟩ := deliver_strand hst' hne o.dest o.opcode o.pc
    rw [completeOp_loud hk hq]
    exact ⟨hremove.trans honly, hnone ((hcmds _).trans hcmd), hstrands, fun b hb => (hcmds b).trans (State.cmdOf_updCmd_ne s _ hb), hwritten⟩
  · rw [completeOp_quiet hk hq]
    exact ⟨hremove, hnone hcmd, fun _ => rfl⟩
  · obtain ⟨honly, hends⟩ := deliver_internal hcmd hst' hp he hown o.dest o.opcode o.pc
    rw [completeOp_loud hk hq]
    exact ⟨(hremove.mono (by decide)).trans honly, hends⟩
end

section
/-! A host's write to the line of the completion ring that has still to commit: no premise of O27 shuts it out, and the entry posted behind
it waits for it (02 R59). -/

namespace Sys2Proof.Machine
open Sys2Proof.Tests

/-- A D1 write of LD 3 to the first entry of the completion ring, charged and not yet committed. -/
def ringWrite : CUnit :=
  { mkUnit 0 5 (ordinary .d1) 0x11000 64 [(0x11000, 1)] .d1 (.cxl .hp0 3) false with written := true, charged := true, position := 1 }

/-- A command whose FAILED entry is durable. -/
def closedCmd : Cmd := { smallCmd (programOf nopWord) with state := .failed, ended := true, closing := true, closed := true }

def ringPending : State :=
  let s := strandOn .d1 false nopWord
  { s with
    pst := { s.pst with units := [ringWrite], nextUnit := 1 }
    pe := { s.pe with strands := [], cmds := [(0, closedCmd)] } }

theorem ringPending_runs : ringPending.running .pe = true ∧ ringPending.cmdOf (0 : BitVec 32).toNat = some closedCmd ∧
    Tab.get ringPending.pe.qps closedCmd.qp = some (smallQp false) ∧
    Tab.get ringPending.regions (smallQp false).jRegion = some (ordinary .d1) ∧ ringPending.unitsNumbered = true := by
  decide +kernel

theorem ringPending_posts : ringPending.mod.mode ≠ .save ∧ closedCmd.closed = true ∧ (smallQp false).life = .active ∧
    ringPending.hst.reads = [] := by
  decide +kernel

/-- The ring's entry lies in region 5, which has its home here. -/
theorem ringPending_ring : ringPending.regionAt ((smallQp false).cqBase + 32 * (smallQp false).cqTail) = some (5, ordinary .d1) ∧
    ringPending.isHome (ordinary .d1) = true ∧
    ringPending.rangeAway ((smallQp false).cqBase + 32 * (smallQp false).cqTail) 32 = false := by
  decide +kernel

/-- The entry begins with the tag, which a read after the post does not return. -/
theorem ringPending_waits : (after (exec (.completionPost 0) ringPending)).byte 0x11000 = 0 ∧
    cellIn (cellsAt ((smallQp false).cqBase + 32 * (smallQp false).cqTail) (closedCmd.entry (smallQp false).phase)) 0x11000 = some 7 := by
  decide +kernel

end Sys2Proof.Machine
end

section
open Sys2Proof Sys2Proof.Machine Sys2Proof.Tests

/-- Refutes O27: of a completion entry it says that a read returns it at once, and has no premise on earlier writes to its line. Where a
charged write of its region to that line has not committed, the entry waits for it, and the line reads as before. -/
theorem not_commandsRunThroughTheirQueue : ¬ Obligations.CommandsRunThroughTheirQueue := by
  unfold Obligations.CommandsRunThroughTheirQueue
  rintro ⟨-, -, commands, -⟩
  obtain ⟨hrun, hcmd, hqp, hjournal, hnumbered⟩ := ringPending_runs
  obtain ⟨hmode, hclosed, hactive, hreads⟩ := ringPending_posts
  obtain ⟨hregion, hhome, haway⟩ := ringPending_ring
  obtain ⟨hbefore, hentry⟩ := ringPending_waits
  obtain ⟨-, -, post⟩ := commands ringPending 0 closedCmd (smallQp false) (ordinary .d1) hrun hcmd hqp hjournal hnumbered
  obtain ⟨t, ht, -, -, -, hbytes, -⟩ := post 5 (ordinary .d1) hmode hclosed hactive hreads hregion hhome haway
  have hread : t.byte 0x11000 = 7 := by rw [hbytes, hentry, Option.getD_some]
  rw [ht] at hbefore
  exact absurd (hread.symm.trans hbefore) (by decide)
end
